-- ==== Sys2Proof/Word.lean ====
section
/-! DEFINITION. The word types of the device and their plainest arithmetic. -/
namespace Sys2Proof

/-- A register: 32 bits (R9). -/
abbrev Word := BitVec 32

/-- The smallest unit of the memories. -/
abbrev Byte := BitVec 8

/-- A counter that saturates at all ones stays there (the counters of every register block). -/
def satInc {n : Nat} (c : BitVec n) : BitVec n :=
  if c = BitVec.allOnes n then c else c + 1

/-- `k` increments of a counter that saturates at all ones. -/
def satAdd {n : Nat} (c : BitVec n) (k : Nat) : BitVec n :=
  if 2 ^ n ≤ c.toNat + k then BitVec.allOnes n else BitVec.ofNat n (c.toNat + k)

end Sys2Proof
end

