-- ==== Sys2Proof/Syntax.lean ====
section
/-! DEFINITION. The commands of the device: one constructor of `Instr` for each row of the table of
operations and events, with the operands that the rules give the row. -/
namespace Sys2Proof

/-- The party a register access, a command or a rejection comes from (LR_SOURCE of R59). -/
inductive Source | pcie | card | mailbox | fabric
deriving DecidableEq, Repr, Inhabited

/-- The supplies of R331. -/
inductive Supply | core | mem | phy | phy18 | io18 | io33 | arc | pll
deriving DecidableEq, Repr, Inhabited

/-- The conditions of R64 that SELFTEST watches (R370). -/
inductive Condition | refclk | supply
deriving DecidableEq, Repr, Inhabited

/-- The two boot twins (R83). -/
inductive Twin | a | b
deriving DecidableEq, Repr, Inhabited

/-- The two output channels (R204). -/
inductive Channel | a | b
deriving DecidableEq, Repr, Inhabited

/-- Bit errors that the code words of the archive show at the instant of a read: pairs of an archive
address (a multiple of 32) and a count of wrong bits. A word that is not listed reads without an error
(R214, R225: the count describes the cells as they read at that instant). -/
abbrev EccView := List (Nat × Nat)

/-- The registers that stage absolute time (R47). -/
inductive TimSet | nsec | secLo | secHi | ofs
deriving DecidableEq, Repr, Inhabited

/-- The registers of a command sequence after the keys (R231). -/
inductive ArcReg | cmd | addr | data (i : Nat)
deriving DecidableEq, Repr, Inhabited

/-- The blocks that have a CNT_CLR bit (R414). -/
inductive CntBlk
  | tim | tck | flt | tst | arc | crd | inc | ldg | cvt | aln | ego | grd | out | sch | pwr | clk | fab | hst
  | cam (r : Nat) | eth (p : Nat) | can (c : Nat) | spi (u : Nat)
deriving DecidableEq, Repr, Inhabited

/-- A gPTP message as the time-sync engine takes it (R159). -/
inductive GptpMsg
  /-- A sync: the grandmaster's time at this instant, in ns. -/
  | sync (refNs : Nat)
  /-- The peer's answer to a peer delay request: its stamps of the request's arrival and of the answer's start. -/
  | peerDelay (t2 t3 : Nat)
  /-- A request of the peer's, which the MAC answers. -/
  | peerRequest
  /-- Any other gPTP message. -/
  | other
deriving DecidableEq, Repr, Inhabited

/-- What the check bits of a CSI-2 packet header show (R151). -/
inductive HdrEcc | clean | corrected | uncorrectable
deriving DecidableEq, Repr, Inhabited

/-- What an Ethernet PHY reports over SGMII (R155). -/
inductive EthLink
  /-- Auto-negotiation completes at 1,000 Mbit/s full duplex. -/
  | up
  /-- The PHY reports another rate or half duplex. -/
  | badSpeed
  | down
deriving DecidableEq, Repr, Inhabited

/-- The error categories of R164. -/
inductive CanCat | bit | stuff | crc | form | ack
deriving DecidableEq, Repr, Inhabited

/-- The part the controller has in a CAN error, which decides the step of its error counters. -/
inductive CanRole | receiver | receiverDominant | transmitter
deriving DecidableEq, Repr, Inhabited

/-- Short packets other than frame start and frame end (R148). -/
inductive ShortKind | lineStart | lineEnd | generic
deriving DecidableEq, Repr, Inhabited

/-- A short packet and what the check bits of its header show (R148, R151). -/
structure ShortPacket where
  kind : ShortKind
  ecc : HdrEcc
deriving DecidableEq, Repr, Inhabited

/-- A host access: its address or offset, and whether it is one whole 32-bit word with every byte enable set (R9, R389). -/
structure Access where
  addr : Nat
  whole : Bool
deriving DecidableEq, Repr, Inhabited

/-- Bits of a CAN frame: a remote frame, and the ESI bit of an FD frame (R161). -/
structure CanBits where
  remote : Bool
  esi : Bool
deriving DecidableEq, Repr, Inhabited

/-- Why a card-link request is answered without being executed (R259). -/
inductive BadFrame
  | crc | symbol | misplacedEnd | length | unknown
deriving DecidableEq, Repr, Inhabited

/-- A card-link request frame without its trailer (R258); LENGTH is the length of the payload. -/
structure CardFrame where
  cmd : Byte
  tag : Byte
  /-- LENGTH as the header gives it. -/
  length : Nat
  address : Word
  payload : List Byte
  /-- The trailer: CRC-32 of the header and payload. -/
  crc : Word
deriving DecidableEq, Repr, Inhabited

/-- One operand or result place of a task's micro-operation: output tensor `out` (OUT_0 to OUT_3) and
element `elem` of it. -/
structure Dest where
  out : Nat
  elem : Nat
deriving DecidableEq, Repr, Inhabited

/-- The operations of the vector unit (R121). -/
inductive VecOp | add | sub | shl | mul
deriving DecidableEq, Repr, Inhabited

/-- One operation of the vector unit on a lane: its second operand, and the shift of a left shift or a multiplication. -/
structure VecStep where
  op : VecOp
  b : Int
  shift : Nat
deriving DecidableEq, Repr, Inhabited

/-- The input of the activation lookup (R122): an 8-bit index, or a wider value and the place of its multiplier and shift, as for `mac`. -/
inductive LutIn
  | index (n : Int)
  | wide (acc : Int) (chan : Nat)
deriving DecidableEq, Repr, Inhabited

/-- One micro-operation of a task. The microprogram of a task is the image's and its instruction set is
not described (00_scope.md), so the operations that it carries out come with the command; what each does
to the output tensors and the counters is R118 to R128, R195 and R196. -/
inductive CoreOp
  /-- The multiply-accumulate array forms one output element (R119) and requantises it (R120): `chan` is the offset in the task's parameter
  block of its output channel's multiplier and shift. -/
  | mac (wide : Bool) (bias : Int) (terms : List (Int × Int)) (chan : Nat) (dst : Dest)
  /-- A lane of the vector unit begins with a value, passes the operations in order and is stored (R121). -/
  | vec (a : Int) (steps : List VecStep) (dst : Dest)
  /-- The activation lookup (R122): its input and the table. -/
  | lut (input : LutIn) (table : List Int) (dst : Dest)
  /-- One element passes the conversion unit under its tensor's context (R125). -/
  | cvt (bits : Word) (dst : Dest)
  /-- A (column group, depth bin) pair of a camera lift, with its features (R195). -/
  | lift (stream group bin : Nat) (features : List Int) (out : Nat)
  /-- A scanner point, in mm of the capture vehicle frame (R196): entry of the stream's ring and point. -/
  | point (stream entry : Nat) (x y z : Int)
  /-- The pillar encoder's output for one cell (R196). -/
  | pillar (cell : Nat) (features : List Int) (out : Nat)
  /-- Bytes that the microprogram stores in an output tensor as they are. -/
  | store (out off : Nat) (bytes : List Byte)
  /-- An entry of 32 bytes that the task writes to its output queue. -/
  | post (entry : List Byte)
  /-- Elements of an input tensor of an EMIT task, from `first` on, which leave with an entry through the conversion unit (R125). -/
  | emit (input first count : Nat) (entry : List Byte)
deriving DecidableEq, Repr, Inhabited

/-- What the microprogram of a GN or LM solve evaluated in one iteration, as stored integers (R132, R134); nothing for other operations. -/
structure SolveStep where
  residuals : List Int
  /-- Row by row: one row for each residual. -/
  jacobian : List Int
deriving DecidableEq, Repr, Inhabited

/-- Where a solve stood when its deadline came (R137). -/
inductive SolveStood | factorisation | elsewhere
deriving DecidableEq, Repr, Inhabited

/-- What a step that its deadline interrupts has done (R135, R137). -/
structure SolveCut where
  stood : SolveStood
  /-- What had been evaluated, and how many values the step had stored. -/
  eval : SolveStep
  stores : Nat
deriving DecidableEq, Repr, Inhabited

/-- A neighbour as keying finds it (R297, R295). -/
structure LinkPartner where
  serial : BitVec 64
  isSealed : Bool
  spread : Bool
  certOk : Bool
deriving DecidableEq, Repr, Inhabited

/-- How a link frame arrives: whole, or with a CRC or a TAG that fails (R297). -/
inductive FrameFate | whole | badCrc | badTag
deriving DecidableEq, Repr, Inhabited

/-- What the link layer brings with a message (R296): LSEQ and ACK of its frame, how the frame arrives, and the TYPE where it is one
that no message has (R301). -/
structure LinkRx where
  lseq : BitVec 12 := 0
  ack : BitVec 12 := 0xFFF
  fate : FrameFate := .whole
  odd : Option Byte := none
deriving DecidableEq, Repr, Inhabited

/-- A link frame without a message: its ACK field, the last frame taken or the first one missing (R296, R298). -/
structure LinkAck where
  seq : BitVec 12
  fate : FrameFate := .whole
deriving DecidableEq, Repr, Inhabited

/-- The transport header of a fabric message, but for TYPE and LEN, which the command fixes (R300), and the frame it came in. -/
structure MsgHdr where
  dst : BitVec 12
  src : BitVec 12
  hopsLeft : BitVec 6
  replyReq : Bool
  mseq : BitVec 16
  corr : BitVec 64
  rx : LinkRx := {}
deriving DecidableEq, Repr, Inhabited

/-- The HELLO payload (R300, R301). -/
structure Hello where
  serial : BitVec 64
  addr : BitVec 12
  port : Nat
  state : BitVec 4
  ready : Bool
  spread : Bool
  role : BitVec 2
  expectMs : BitVec 16
  digestPrefix : Word
  fwVer : Word
deriving DecidableEq, Repr, Inhabited

/-- The LSA payload (R300): neighbours by port, 0 where the port is down. -/
structure Lsa where
  serial : BitVec 64
  seq : Word
  priority : Byte
  mgrSel : Bool
  standbyOk : Bool
  nbrs : List (BitVec 64)
deriving DecidableEq, Repr, Inhabited

/-- The TICK payload (R300, R311). -/
structure TickMsg where
  index : BitVec 64
  boundary : BitVec 64
  originTs : BitVec 64
  period : Word
  flywheel : Bool
deriving DecidableEq, Repr, Inhabited

/-- A DATA segment (R316): segment 0 brings the 32-byte entry ahead of its data. -/
structure DataSeg where
  queue : Nat
  seg : Nat
  nseg : Nat
  total : Nat
  entry : List Byte
  data : List Byte
deriving DecidableEq, Repr, Inhabited

/-- The REPLY payload (R300). -/
structure ReplyMsg where
  status : Byte
  state : Byte
  expectMs : BitVec 16
  type : Byte
  mseq : BitVec 16
deriving DecidableEq, Repr, Inhabited

/-- The JOIN_REQ payload (R320). No byte of it carries `compat`, the compatible list of the image that it names, nor `commit`, that it follows
a commit: the manager judges by both (R318, R321). -/
structure JoinReq where
  serial : BitVec 64
  digest : BitVec 256
  fwVer : Word
  imageVer : Word
  state : Byte
  timeOk : Byte
  compat : List (BitVec 224) := []
  commit : Bool := false
deriving DecidableEq, Repr, Inhabited

/-- The JOIN_ACK payload (R320). No byte of it carries `compat`, the compatible list of the manager's image (R318). -/
structure JoinAck where
  status : Byte
  cause : Byte
  fwVer : Word
  epoch : BitVec 64
  digest : BitVec 256
  compat : List (BitVec 224) := []
deriving DecidableEq, Repr, Inhabited

/-- The REPORT payload (R320). -/
structure ReportMsg where
  index : BitVec 64
  epoch : BitVec 64
  offset : Word
  state : Byte
  timeOk : Byte
  digestPrefix : Word
deriving DecidableEq, Repr, Inhabited

/-- The MGR_CLAIM payload (R320): RANK is MGR_SEL in bit 8 and PRIORITY in bits 7:0. -/
structure Claim where
  serial : BitVec 64
  epoch : BitVec 64
  mgrSel : Bool
  priority : Byte
  devices : BitVec 16
deriving DecidableEq, Repr, Inhabited

/-- What the clock monitor finds (R349). -/
inductive ClockFault | lockLost (pll : Nat) | coreSlow
deriving DecidableEq, Repr, Inhabited

/-- A pattern of one detector pair that the warden takes (R352), with the DETAIL of its block. -/
structure DetPattern where
  det : Nat
  p : Bool
  n : Bool
  detail : Word
deriving DecidableEq, Repr, Inhabited

/-- The end of a slice's test phases (R382): a failure carries the DETAIL of its kind. -/
inductive SliceOutcome
  | pass
  | fail (detail : Nat)
  /-- A1: the injection of detector pair `pair` fails (R369). -/
  | pairFail (pair : Nat)
deriving DecidableEq, Repr, Inhabited

/-- What sends pending messages (R394). -/
inductive Unmask | vector (v : Nat) | busMaster
deriving DecidableEq, Repr, Inhabited

/-- The events that reset the host interface alone (R391, R403). -/
inductive PcieReset | functionLevel | hot | linkDown | perst
deriving DecidableEq, Repr, Inhabited

/-- A PCIe configuration request (R70, R388): a read of a doubleword, or a write of Bus Master Enable. -/
inductive CfgReq | read (dw : Nat) | busMaster (on : Bool)
deriving DecidableEq, Repr, Inhabited

/-- The commands, one constructor for each row of spec/opcode_table.json, in the order of the table. -/
inductive Instr
  /-- POWER_ON (R56). Release of PORESET_N with every supply inside its window takes the device from OFF to HOLD at t0. -/
  | powerOn (mgrSel : Bool) (fabAddr : BitVec 10)
  /-- PORESET_ASSERT (R411). PORESET_N falls and the device enters OFF, while any archive code word in progress completes. -/
  | poresetAssert
  /-- SUPPLY_LOSS (R406). A supply reads below its window for five consecutive samples and the device enters OFF. -/
  | supplyLoss (supply : Supply)
  /-- PIN_RESET (R62). The filtered RESET_N falls and the device performs a pin reset into HOLD. -/
  | pinReset
  /-- HOLD_CHECK (R64). The 1 ms re-check in HOLD finds the conditions of R64 met and the device enters SELFTEST. -/
  | holdCheck (refclkOk suppliesOk pllOk : Bool)
  /-- CONDITION_LOST (R370). REFCLK or a supply leaves its limits during SELFTEST and the device returns to HOLD with the reason. -/
  | conditionLost (what : Condition)
  /-- POWERUP_PLAN_DONE (R370). The fused power-up test plan passes and the device enters LOAD. -/
  | powerupPlanDone (fw0 fw1 : Bool) (marginWarn : Nat)
  /-- POWERUP_FAIL (R374). A power-up test fails and the device stays in HOLD with HOLD_REASON self-test and TST_PU_CODE set. -/
  | powerupFail (code index : Byte)
  /-- LOAD_DONE (R84). Checking and streaming of a boot twin ends, leading to ARMED, a try of the other twin, or MAINT with NO_IMAGE. -/
  | loadDone (ecc : EccView)
  /-- HALT (R56). GCTL_CMD HALT takes the device from RUN or DEGRADED to ARMED and sets HELD. -/
  | halt (src : Source)
  /-- GO (R65). GCTL_CMD GO clears HELD in ARMED so that RUN can be entered at a later boundary. -/
  | go (src : Source)
  /-- RECOVER (R67). GCTL_CMD RECOVER takes the device from SAFE to ARMED with empty grid buffers, or returns BUSY while a SAFE record stays uncleared. -/
  | recover (src : Source)
  /-- ENTER_MAINT (R68). GCTL_CMD ENTER_MAINT takes the device to MAINT and withdraws a pending commit. -/
  | enterMaint (src : Source)
  /-- RESTART (R414). GCTL_CMD RESTART with key 0x5A performs a soft reset into HOLD. -/
  | restart (src : Source) (key : Byte)
  /-- CLR_CNT (R414). GCTL_CMD CLR_CNT clears the rejection record and performs the counter clear of every live block. -/
  | clrCnt (src : Source)
  /-- CNT_CLR (R414). A write of a block's CNT_CLR bit clears that block's counters. -/
  | cntClr (src : Source) (blk : CntBlk)
  /-- REGISTER_WRITE (R59). A register write with no row of its own is judged for absence, liveness and state, then performed or rejected. -/
  | registerWrite (src : Source) (addr : Nat) (value : Word) (whole : Bool)
  /-- SNAPSHOT_READ (R46). A read of an RS register returns its value and copies the companion registers into their shadows for the reading source. -/
  | snapshotRead (src : Source) (place : Access)
  /-- TICK_BOUNDARY (R31). A tick boundary is made by its source and the boundary actions run in the order of R31. -/
  | tickBoundary (hottest : Int)
  /-- STAGED_APPLY (R31). Staged register fields take effect at the next boundary. -/
  | stagedApply
  /-- COMMIT_TAKE_EFFECT (R91). A pending IMG_COMMIT exchanges the shadow and active configuration sets at the boundary. -/
  | commitTakeEffect
  /-- RUN_ENTRY (R65). The device enters RUN at the first boundary at which HELD is 0, time is locked and any join has passed. -/
  | runEntry
  /-- ARM_TIMEOUT (R65). ARM_TIMEOUT expires in ARMED without time lock, allowing free-run entry to RUN. -/
  | armTimeout
  /-- DEGRADED_EXIT (R66). The device returns from DEGRADED to RUN at the first boundary at which no cause is active. -/
  | degradedExit
  /-- LOCK_LOSS_DEGRADE (R66). Loss of LOCKED in RUN without free-run permitted enters DEGRADED at the next boundary. -/
  | lockLossDegrade
  /-- QUARANTINE_EXIT (R322). A worker admitted from QUARANTINE enters ARMED at its next boundary. -/
  | quarantineExit
  /-- SRC_REQUEST (R23). A write of TCK_CTL.SRC requests a tick source, refused at once or staged for the next boundary. -/
  | srcRequest (src : Source) (value : BitVec 2)
  /-- SRC_SWITCH_EFFECT (R23). A staged tick-source switch takes effect and the new source makes the next boundary. -/
  | srcSwitchEffect
  /-- SRC_SWITCH_TIMEOUT (R23). The new source delivers no boundary within T and the device returns to the old source with TIMEOUT. -/
  | srcSwitchTimeout
  /-- TICK_IN_EDGE (R21). A filtered TICK_IN rising edge is judged and either ignored as early or accepted as a boundary. -/
  | tickInEdge
  /-- FLYWHEEL_BOUNDARY (R21). No TICK_IN edge comes by T times (1 + tol) and the device makes the boundary itself. -/
  | flywheelBoundary
  /-- FALLBACK (R22). After three consecutive flywheel boundaries the device switches to INTERNAL or enters DEGRADED at the next boundary. -/
  | fallback
  /-- GATHER_CLOSE (R177). At Tk + G the registrar closes Gather, writes stream tokens, compensation records and GATHER_SLOT, and advances the rings. -/
  | gatherClose
  /-- STREAM_LIMIT (R176). A stream that has not delivered by Tk + L is masked for the tick with reason LIMIT. -/
  | streamLimit (stream : Nat)
  /-- EMIT_EDGE (R25). At Tk + E the device decides on time or overrun and emits the fresh, STALE or safe frame by state. -/
  | emitEdge
  /-- FRAME_ACCEPT (R209). A route begins the transfer of a frame, taking its output stamp. -/
  | frameAccept (chan : Channel) (route : Nat)
  /-- QUIET_EDGE (R30). At Tk + Q undelivered frames are discarded per route and Quiet begins. -/
  | quietEdge
  /-- TIM_DISC_REQUEST (R40). A write of TIM_CTL.DISC requests a discipline, which takes effect at the next counter update or is refused. -/
  | timDiscRequest (src : Source) (disc : BitVec 2)
  /-- APPLY_STEP (R49). TIM_CTL.APPLY with KIND STEP replaces device time at once or at the next second boundary. -/
  | applyStep (src : Source) (atSecond : Bool)
  /-- APPLY_SLEW (R52). TIM_CTL.APPLY with KIND SLEW starts adding TIM_SET_OFS gradually at SLEW_RATE. -/
  | applySlew (src : Source) (atSecond : Bool)
  /-- TIM_CANCEL (R51). TIM_CTL.CANCEL withdraws a pending AT_SECOND apply. -/
  | timCancel (src : Source)
  /-- TIM_SET_WRITE (R51). A write of a TIM_SET register stages a value, or is refused BUSY while an apply is pending. -/
  | timSetWrite (src : Source) (reg : TimSet) (value : Word)
  /-- APPLY_AT_SECOND_EFFECT (R49). A pending AT_SECOND apply takes effect at the second boundary. -/
  | applyAtSecondEffect
  /-- SLEW_END (R52). The slew offset is spent and SLEWING clears. -/
  | slewEnd
  /-- GPTP_MESSAGE (R159). A gPTP message is received and stamped, and a sync on the followed MAC yields a time measurement. -/
  | gptpMessage (mac : Nat) (msg : GptpMsg)
  /-- PPS_IN_EDGE (R44). A PPS_IN edge under PPS discipline is accepted or rejected and measured or used to step device time. -/
  | ppsInEdge
  /-- REFERENCE_SILENCE (R43). The time reference falls silent and the device enters holdover. -/
  | referenceSilence
  /-- HOLDOVER_LIMIT (R43). Holdover lasts HOLD_LIM and LOCKED clears. -/
  | holdoverLimit
  /-- PPS_OUT_PULSE (R55). PPS_OUT rises at a second boundary of device time while enabled and locked. -/
  | ppsOutPulse
  /-- IMG_STAGE (R87). IMG_STAGE names a twin as candidate and write-protects its sectors. -/
  | imgStage (src : Source) (twin : Twin)
  /-- IMG_VERIFY (R88). IMG_VERIFY starts full verification of the staged candidate in the background. -/
  | imgVerify (src : Source)
  /-- VERIFY_DONE (R88). Verification ends, leaving STAGE_STATE VERIFIED or STAGED with a reason code. -/
  | verifyDone (ecc : EccView)
  /-- IMG_COMMIT (R91). IMG_COMMIT defers the exchange of configuration sets to the next boundary. -/
  | imgCommit (src : Source) (persist : Bool)
  /-- IMG_CANCEL (R94). IMG_CTL.CANCEL withdraws the candidate and releases its write protection. -/
  | imgCancel (src : Source)
  /-- PERSIST_SELECTOR (R93). In the Quiet of the commit tick a selector word naming the new twin is programmed and verified. -/
  | persistSelector
  /-- TASK_RELEASE (R106). The curator releases a task once its inputs, release time, output entries and queue space are ready. -/
  | taskRelease (task : Nat)
  /-- TASK_START (R107). An idle core chooses its next released task and requests power for it. -/
  | taskStart (core : Nat)
  /-- TASK_END (R110). A task ends and the curator writes its output entries with OLDEST, MASK and VOTE. -/
  | taskEnd (core : Nat) (cycles : Nat) (work : List CoreOp)
  /-- WCET_EXCEED (R115). A task's cycles exceed its WCET and the excess is counted and reported. -/
  | wcetExceed (core : Nat) (cycles : Nat)
  /-- SOLVE_STEP_END (R136). A solver step or iteration ends and the check before the next one is made. -/
  | solveStepEnd (core : Nat) (step : SolveStep)
  /-- SOLVE_DEADLINE (R136). The hard deadline of a solve arrives and the sequencer stops and delivers its result. -/
  | solveDeadline (core : Nat) (cut : SolveCut)
  /-- QUEUE_TAIL_WRITE (R97). The host writes a queue's TAIL register to post entries it has written. -/
  | queueTailWrite (src : Source) (queue : Nat) (value : BitVec 13)
  /-- SCOREBOARD_PEEK (R105). A write of SCH PEEK_SLOT snapshots a scoreboard entry into the peek registers. -/
  | scoreboardPeek (src : Source) (slot : BitVec 13) (entry : Bool)
  /-- CVT_TEST_CONVERT (R130). A write of CVT_TEST_IN converts one value under CVT_TEST_CFG. -/
  | cvtTestConvert (src : Source) (value : Word)
  /-- CSI_FRAME_START (R150). A camera frame-start packet is decoded, stamped and assigned to a tick or discarded. -/
  | csiFrameStart (rx vc : Nat) (frameNo : BitVec 16) (ecc : HdrEcc)
  /-- CSI_LINE (R151). A camera long packet is checked and written into the line ring, posting an entry every QIN_GROUP lines. -/
  | csiLine (rx vc dt : Nat) (ecc : HdrEcc) (crcOk : Bool) (data : List Byte)
  /-- CSI_FRAME_END (R153). A camera frame-end packet closes the open frame, or is counted ORPHAN. -/
  | csiFrameEnd (rx vc : Nat) (ecc : HdrEcc)
  /-- CSI_SOT_ERROR (R154). A lane fails to enter HS or shows a start-of-transmission error, and data is discarded until the next clean start. -/
  | csiSotError (rx : Nat)
  /-- ETH_FRAME_RX (R156). An Ethernet frame is received, stamped and matched to a stream, or counted and discarded. -/
  | ethFrameRx (mac : Nat) (fcsOk : Bool) (bytes : List Byte)
  /-- ETH_LINK_CHANGE (R155). An Ethernet link comes up after auto-negotiation, is held down for SPEED_BAD, or goes down. -/
  | ethLinkChange (mac : Nat) (link : EthLink)
  /-- CAN_FRAME_RX (R163). A valid CAN FD frame is received and posted to the stream of the first matching filter. -/
  | canFrameRx (ctl : Nat) (id : BitVec 29) (ide : Bool) (bits : CanBits) (data : List Byte)
  /-- CAN_ERROR (R164). A CAN error is counted by category and may take the controller to bus-off. -/
  | canError (ctl : Nat) (cat : CanCat) (role : CanRole)
  /-- CAN_BUSOFF_RECOVERY (R164). After 128 occurrences of 11 recessive bits a permitted controller recovers from bus-off. -/
  | canBusoffRecovery (ctl : Nat)
  /-- DRDY_EDGE (R166). The selected DRDY edge starts an SPI transaction, or is ignored while one runs. -/
  | drdyEdge (unit : Nat)
  /-- SPI_TRANSFER_END (R167). CS_N rises at the end of an SPI transaction and the inertial entry is posted. -/
  | spiTransferEnd (unit : Nat) (data : List Byte)
  /-- DRDY_TIMEOUT (R167). No DRDY edge arrives within DRDY_TO periods and the silence is counted and reported. -/
  | drdyTimeout (unit : Nat)
  /-- GPIO_EDGE (R168). A filtered GPIO input edge records its stamp and sets the edge bit. -/
  | gpioEdge (pin : Nat) (rising : Bool)
  /-- INC_TRIG_EDGE (R274). The selected edge of INC_TRIG on GPIO15 makes a PIN trigger for the vitrine. -/
  | incTrigEdge (rising : Bool)
  /-- HOST_TRIGGER (R274). A write of INC_CTL.TRIGGER makes a HOST trigger for the vitrine. -/
  | hostTrigger (src : Source)
  /-- VITRINE_BLOCK_COMMIT (R278). The vitrine programs the next tick block of the open record into the archive and frees its ring slot. -/
  | vitrineBlockCommit
  /-- VITRINE_SEAL (R278). After the erase ahead, pending trigger entries, index words, CLOSE, DIGEST and MAC are programmed and the vitrine returns to READY. -/
  | vitrineSeal
  /-- VITRINE_PREPARE (R280). At LOAD the vitrine scans the incident area, sets the write point and erases sectors before reading READY. -/
  | vitrinePrepare
  /-- VITRINE_START_SEAL (R279). From ARMED an unsealed record is sealed with cause START. -/
  | vitrineStartSeal
  /-- EGO_UPDATE (R180). Every 500 µs EGO integrates the pose, judges slip and dropouts, and takes a valid correction. -/
  | egoUpdate
  /-- EGO_HIST_SELECT (R181). A write of EGO HIST_SEL snapshots a pose history entry. -/
  | egoHistSelect (src : Source) (age : BitVec 9)
  /-- ARC_WINDOW_READ (R229). A read of the BAR2 archive window returns data or a refusal, possibly after waiting for a word. -/
  | arcWindowRead (src : Source) (place : Access) (ecc : EccView)
  /-- ARC_WINDOW_WRITE (R228). A write to the archive window has no effect and is counted. -/
  | arcWindowWrite (src : Source) (off : Nat)
  /-- ECC_WARN_WRITE (R225). A host write of ECC_WARN sets the threshold, or leaves it unchanged for 0. -/
  | eccWarnWrite (src : Source) (value : BitVec 2)
  /-- FIRMWARE_REPAIR (R217). From ARMED the firmware reprograms an invalid firmware copy from the valid one. -/
  | firmwareRepair (sigOk : Bool)
  /-- ARC_KEY (R232). A write of ARC_KEY opens or advances an archive command sequence, or fails it with KEY_ERROR. -/
  | arcKey (src : Source) (key : Byte)
  /-- ARC_SEQUENCE_WRITE (R232). A non-completing write of ARC_CMD, ARC_ADDR or ARC_DATA advances the open sequence or fails it. -/
  | arcSequenceWrite (src : Source) (reg : ArcReg) (value : Word)
  /-- ARC_KEY_TIMEOUT (R232). No second key arrives within 1 µs and the sequence fails with KEY_ERROR. -/
  | arcKeyTimeout
  /-- ARC_SEQ_TIMEOUT (R232). A sequence not completed within 1,000 µs of its second key fails with TIMEOUT. -/
  | arcSeqTimeout
  /-- READ_ID (R246). READ_ID writes the archive identification into ARC_RESULT. -/
  | readId (src : Source) (last : Word)
  /-- PROGRAM_WORD (R235). PROGRAM_WORD tests the target word for BLANK and programs it, or ends with PROGRAM_TWICE. -/
  | programWord (src : Source) (last : Word)
  /-- PROGRAM_END (R251). A program of a code word ends, setting DONE and STAT. -/
  | programEnd
  /-- ERASE_SECTOR (R237). ERASE_SECTOR starts the erase of a main sector. -/
  | eraseSector (src : Source) (last : Word)
  /-- ERASE_PARAM (R237). ERASE_PARAM starts the erase of a parameter sector. -/
  | eraseParam (src : Source) (last : Word)
  /-- ERASE_END (R237). An erase completes, increments the sector's counter, clears INCOMPLETE and flags wear. -/
  | eraseEnd
  /-- SUSPEND (R239). SUSPEND stops a running erase, or is deferred within the minimum run time. -/
  | suspend (src : Source) (last : Word)
  /-- SUSPEND_EFFECT (R239). A deferred suspension takes effect once the minimum run time is met. -/
  | suspendEffect
  /-- RESUME (R241). RESUME continues a suspended erase or withdraws a deferred suspension. -/
  | resume (src : Source) (last : Word)
  /-- READ_COUNTER (R247). READ_COUNTER returns a sector's erase counter and INCOMPLETE and WORN marks. -/
  | readCounter (src : Source) (last : Word)
  /-- SET_WP (R244). SET_WP protects or releases a range of sectors in the base protection layer. -/
  | setWp (src : Source) (last : Word)
  /-- LOCK_WP (R245). LOCK_WP freezes the base protection against SET_WP until reset. -/
  | lockWp (src : Source) (last : Word)
  /-- SWAP_BOOT (R249). SWAP_BOOT programs a selector word naming a twin as the boot image. -/
  | swapBoot (src : Source) (last : Word)
  /-- SWAP_BOOT_END (R249). The selector word of SWAP_BOOT is verified and the command ends with the new SEQ. -/
  | swapBootEnd
  /-- BLANK_CHECK (R248). BLANK_CHECK starts reading every code word of a sector. -/
  | blankCheck (src : Source) (last : Word)
  /-- BLANK_CHECK_END (R248). BLANK_CHECK ends and writes its counts into ARC_RESULT. -/
  | blankCheckEnd
  /-- CLEAR_STATUS (R250). CLEAR_STATUS clears STAT, CMD_ECHO, WORN and DONE. -/
  | clearStatus (src : Source) (last : Word)
  /-- INCOMPLETE_REERASE (R238). From ARMED the firmware re-erases each sector marked INCOMPLETE as a device operation. -/
  | incompleteReerase
  /-- CARD_PRES_LOSS (R268). CARD_PRES_N is lost and the device enters REMOVAL, stopping compute, idling outputs and ending archive work. -/
  | cardPresLoss
  /-- REMOVAL_SEAL (R279). When the archive is free in REMOVAL, the open vitrine record is sealed and the turnstile closing entry programmed. -/
  | removalSeal
  /-- CARD_LINK_UP (R257). Both receive lanes deliver 128 clean idle sets and are aligned, and the card link is up. -/
  | cardLinkUp
  /-- CARD_LINK_DOWN (R257). A lane loses lock or errs too often and the card link goes down and retrains. -/
  | cardLinkDown
  /-- CARD_REQUEST (R260). A card-link request frame arrives and is queued, or answered BUSY or BAD_ARG for a full queue or a duplicate tag. -/
  | cardRequest (frame : CardFrame)
  /-- CARD_BAD_FRAME (R259). A damaged, malformed or unknown card-link request is answered with CRC_ERROR or BAD_ARG and not executed. -/
  | cardBadFrame (kind : BadFrame) (cmd tag : Byte) (symErrs : Nat)
  /-- IDENT (R262). IDENT returns the identification words of the device. -/
  | ident
  /-- STATUS (R262). STATUS returns state, flags, tick index and card-link status. -/
  | status
  /-- READ_REG (R263). READ_REG reads consecutive registers, or one register repeatedly. -/
  | readReg
  /-- WRITE_REG (R263). WRITE_REG writes its payload words to registers in order. -/
  | writeReg
  /-- READ_BLOCK (R264). READ_BLOCK reads a block from the grid window or the archive. -/
  | readBlock (ecc : EccView)
  /-- WRITE_BLOCK (R264). WRITE_BLOCK writes a block into the grid window. -/
  | writeBlock
  /-- GRID_READ (R265). GRID_READ reads a channel's card-link frame buffer from a byte offset. -/
  | gridRead
  /-- MAILBOX_PUT (R266). MAILBOX_PUT delivers one mailbox message over the card link. -/
  | mailboxPut
  /-- MAILBOX_GET (R266). MAILBOX_GET returns the oldest reply waiting for the card link. -/
  | mailboxGet
  /-- EJECT_REQUEST (R270). EJECT_REQUEST takes the device to MAINT and starts the orderly drain. -/
  | ejectRequest
  /-- EJECT_READY (R270). The drain ends, outputs idle and GCTL_FLAGS.EJECT_READY is set. -/
  | ejectReady
  /-- ABORT (R267). ABORT removes a queued card-link request, or reports it started or unknown. -/
  | abort (tag target : Byte)
  /-- PERIOD_BOUNDARY (R284). Device time reaches a usage-period boundary while locked, closing the open period and opening the next. -/
  | periodBoundary
  /-- BACKSTOP (R291). ELAPSED reaches the armed backstop and the period closes with BACKSTOP. -/
  | backstop
  /-- CHECKPOINT (R289). Every CKPT seconds the turnstile writes a CHECKPOINT entry. -/
  | checkpoint
  /-- APPEND (R293). LDG_CTL.APPEND appends the staged boundary and writes a BOUND entry, or is refused. -/
  | appendBound (src : Source)
  /-- FABRIC_LINK_UP (R297). A fabric port trains and keys with its partner, or is refused or held down. -/
  | fabricLinkUp (port : Nat) (partner : LinkPartner)
  /-- FABRIC_LINK_DOWN (R298). A fabric link goes down, its queued frames are discarded and it retrains. -/
  | fabricLinkDown (port : Nat)
  /-- HELLO_TIMEOUT (R298). The partner's HELLO is missing for 3 ms and the link goes down. -/
  | helloTimeout (port : Nat)
  /-- LINK_ACK (R298). A cumulative link acknowledge releases held frames. -/
  | linkAck (port : Nat) (ack : LinkAck)
  /-- LINK_NAK (R298). A negative acknowledge makes the sender replay from the missing frame. -/
  | linkNak (port : Nat) (missing : LinkAck)
  /-- HELLO_SEND (R301). Every 1 ms a device sends HELLO on every trained port. -/
  | helloSend
  /-- HELLO (R301). A HELLO from the link partner is received and may make a neighbour appear. -/
  | hello (port : Nat) (hello : MsgHdr × Hello)
  /-- LSA_REFRESH (R306). Every 100 ms, or on a neighbour change, a device floods an LSA. -/
  | lsaRefresh
  /-- LSA (R306). An LSA is received, stored, forwarded and may change the routing table. -/
  | lsa (port : Nat) (hdr : MsgHdr) (lsa : Lsa)
  /-- LSA_EXPIRY (R306). An LSA not refreshed for 350 ms is discarded. -/
  | lsaExpiry
  /-- ELECTION (R309). The database settles for SETTLE and devices rank candidates for manager and standby. -/
  | election
  /-- ADDR_ASSIGN (R304). An ADDR_ASSIGN from the manager gives an address to the device of the named SERIAL. -/
  | addrAssign (port : Nat) (hdr : MsgHdr) (serial : BitVec 64) (addr : BitVec 12)
  /-- ROLE (R309). A ROLE message sets a device's role and EPOCH. -/
  | role (port : Nat) (hdr : MsgHdr) (mgr stby : BitVec 12) (devices : BitVec 16) (epoch : BitVec 64)
  /-- TICK_SEND (R311). The manager sends the TICK for the next boundary at LEAD before it, or at an accepted TICK_IN edge. -/
  | tickSend
  /-- TICK (R312). A worker receives a TICK, forwards it with correction, measures its offset and schedules the boundary. -/
  | tick (port : Nat) (hdr : MsgHdr) (tick : TickMsg)
  /-- TICK_MISS (R313). A worker holds no usable TICK at its last boundary plus T and makes the boundary itself. -/
  | tickMiss
  /-- DELAY_MEASURE (R312). Every 125 ms a port sends DELAY_REQ to measure link delay. -/
  | delayMeasure (port : Nat)
  /-- DELAY_REQ (R312). A DELAY_REQ is answered with DELAY_RESP carrying its stamps. -/
  | delayReq (port : Nat) (hdr : MsgHdr) (t1 : BitVec 64)
  /-- DELAY_RESP (R312). A DELAY_RESP completes a link delay measurement. -/
  | delayResp (port : Nat) (hdr : MsgHdr) (t1 t2 t3 : BitVec 64)
  /-- BUDGET (R345). A worker receives a BUDGET, clamps it and applies it at the named tick. -/
  | budget (port : Nat) (hdr : MsgHdr) (applyIndex : BitVec 64) (budget classFloor : BitVec 16)
  /-- TRIGGER (R274). A fabric TRIGGER is received and passed to the vitrine unless already listed. -/
  | trigger (port : Nat) (hdr : MsgHdr) (originTick : BitVec 64) (cause : Byte)
  /-- SAFE (R329). A SAFE broadcast makes a worker enter SAFE or QUARANTINE by OBEY_SAFE. -/
  | safe (port : Nat) (hdr : MsgHdr) (tickIndex : BitVec 64) (cause : Byte)
  /-- DATA (R316). A DATA segment is assembled into a fabric queue and the entry posted on the last segment. -/
  | data (port : Nat) (hdr : MsgHdr) (seg : DataSeg)
  /-- REPLY (R300). A REPLY to an earlier request is received by its source. -/
  | reply (port : Nat) (hdr : MsgHdr) (reply : ReplyMsg)
  /-- JOIN_REQ (R321). The manager judges a JOIN_REQ and answers OK or FENCED. -/
  | joinReq (port : Nat) (hdr : MsgHdr) (join : JoinReq)
  /-- JOIN_ACK (R322). A worker receives JOIN_ACK and is admitted or enters QUARANTINE. -/
  | joinAck (port : Nat) (hdr : MsgHdr) (ack : JoinAck)
  /-- REPORT (R323). The manager receives a worker's per-tick REPORT. -/
  | report (port : Nat) (hdr : MsgHdr) (report : ReportMsg)
  /-- VERDICT (R323). A worker receives VERDICT and enters QUARANTINE or is excluded. -/
  | verdict (port : Nat) (hdr : MsgHdr) (cause action : Byte) (epoch : BitVec 64)
  /-- MGR_CLAIM_SEND (R330). Every 100 ms, or when its database gains a device, a manager broadcasts MGR_CLAIM. -/
  | mgrClaimSend
  /-- MGR_CLAIM (R330). A manager receives a higher-ranked claim and resigns into QUARANTINE with cause MERGE. -/
  | mgrClaim (port : Nat) (hdr : MsgHdr) (claim : Claim)
  /-- MEMBER_SELECT (R323). A write of MEMBER_SEL snapshots a worker's agreement state on the manager. -/
  | memberSelect (src : Source) (value : BitVec 10)
  /-- ROUTE_SELECT (R308). A write of ROUTE_SEL snapshots the routing entry of an address. -/
  | routeSelect (src : Source) (value : BitVec 12)
  /-- ARBITER_WINDOW (R337). At each 1 µs window start the arbiter grants power requests by class and order and stalls the rest. -/
  | arbiterWindow (requests : List Nat)
  /-- PWR_ALERT (R340). The filtered PWR_ALERT_N falls and FLOOR becomes the effective budget from the next window. -/
  | pwrAlert
  /-- PWR_ALERT_RELEASE (R340). The filtered PWR_ALERT_N rises and FLOOR holds until the next boundary. -/
  | pwrAlertRelease
  /-- BUDGET_WRITE (R341). A write of PWR_BUDGET stages a set budget or is refused. -/
  | budgetWrite (src : Source) (value : BitVec 16)
  /-- FAB_BUDGET_WRITE (R344). On a manager a write of PWR_FAB_BUDGET sends a BUDGET to the named worker. -/
  | fabBudgetWrite (src : Source) (value : BitVec 16)
  /-- LOSS_OF_LOCK (R349). A PLL loses lock or the core runs too slow and the clock detector is reported. -/
  | lossOfLock (clock : ClockFault)
  /-- DETECTOR_REPORT (R352). The warden takes an error or LINE pattern from a detector pair and applies the mapped reaction. -/
  | detectorReport (patterns : List DetPattern)
  /-- FAULT_CLEAR (R362). A write of FLT CLR_DET clears one record, or is refused BUSY while its detector is active. -/
  | faultClear (src : Source) (det : Byte)
  /-- FAULT_CLEAR_ALL (R362). A write of FLT CLR_ALL clears every record that is not active. -/
  | faultClearAll (src : Source)
  /-- REC_SELECT (R360). A write of FLT REC_SEL snapshots a fault record. -/
  | recSelect (src : Source) (index : BitVec 6)
  /-- HEARTBEAT_TOGGLE (R365). Every 500 µs the healthy fault pair toggles in complement. -/
  | heartbeatToggle
  /-- EXT_FLT_INPUT (R368). A pattern on EXT_FLT_P and EXT_FLT_N held for EXT_HOLD is taken for detector 86. -/
  | extFltInput (p n : Bool)
  /-- EXT_HB_TIMEOUT (R368). A board heartbeat half-period exceeds 2 ms and detector 86 reports error. -/
  | extHbTimeout
  /-- SLICE_START (R375). A self-test slice starts in Quiet once its target is idle and power, room and conditions allow. -/
  | sliceStart (requests : List Nat) (condOk : Bool)
  /-- SLICE_SKIP (R379). The latest start passes without the slice starting and the skip is counted by reason. -/
  | sliceSkip (requests : List Nat) (condFailed : Bool)
  /-- SLICE_TEST_END (R382). A slice's test phases end with PASS, or FAIL with fencing or remapping by kind. -/
  | sliceTestEnd (result : SliceOutcome)
  /-- SLICE_LATEST_END (R380). The latest end arrives before the test phases finish and the slice restores with INCOMPLETE. -/
  | sliceLatestEnd
  /-- SLICE_RESTORE_END (R377). RESTORE ends and the target returns to service. -/
  | sliceRestoreEnd
  /-- UNMAPPED_READ (R389). A BAR0 read outside every block returns 0xFFFF_FF0A and is counted. -/
  | unmappedRead (src : Source) (place : Access)
  /-- GRID_WINDOW_WRITE (R392). A BAR2 grid-window write is performed inside a host queue's ring or data area, and otherwise ignored and counted. -/
  | gridWindowWrite (src : Source) (place : Access) (value : Word)
  /-- MSIX_UNMASK (R394). Unmasking a vector or setting Bus Master Enable sends its pending message. -/
  | msixUnmask (what : Unmask)
  /-- RING_ENABLE (R395). Writing EN = 1 checks and enables a channel's host-memory ring. -/
  | ringEnable (src : Source) (chan : Channel)
  /-- RING_DISABLE (R397). Clearing EN stops a ring after any transfer in progress completes. -/
  | ringDisable (src : Source) (chan : Channel)
  /-- RING_HEAD_WRITE (R396). The host advances HEAD, freeing slots for a waiting frame. -/
  | ringHeadWrite (src : Source) (chan : Channel) (value : BitVec 10)
  /-- RING_WRITEBACK (R396). A frame transfer completes, TAIL advances, the writeback is written and RING_VEC raised. -/
  | ringWriteback (chan : Channel)
  /-- PCIE_RESET (R391). A Function Level Reset, hot reset, link-down or PCIE_PERST_N resets the HST block only. -/
  | pcieReset (kind : PcieReset)
  /-- MBX_PUT (R398). MBX_CTL.PUT submits the request in MBX_IN, or is refused BUSY. -/
  | mbxPut (src : Source)
  /-- MBX_GET (R398). MBX_CTL.GET releases the reply in MBX_OUT. -/
  | mbxGet (src : Source)
  /-- MAILBOX_TAKE (R399). The housekeeping controller takes the next mailbox request when its source's reply queue has room. -/
  | mailboxTake
  /-- STAGE_PROGRAM (R399). STAGE_PROGRAM programs consecutive code words as host programs. -/
  | stageProgram
  /-- STAGE_ERASE (R399). STAGE_ERASE erases a sector as a host erase and replies when it ends. -/
  | stageErase
  /-- INC_LIST (R399). INC_LIST returns entries describing vitrine records from a REC_SEQ. -/
  | incList
  /-- INC_EXPORT (R399). INC_EXPORT returns bytes of a record as stored, read over channel S. -/
  | incExport (ecc : EccView)
  /-- INC_ACK (R281). INC_ACK programs the EXPORTED marker of a sealed record. -/
  | incAck
  /-- LDG_EXPORT (R399). LDG_EXPORT returns ledger entries from a SEQ with the anchor MAC. -/
  | ldgExport
  /-- LDG_ACK (R294). LDG_ACK writes an ACK entry, permitting erasure of acknowledged entries. -/
  | ldgAck
  /-- FLOOR_RAISE (R79). FLOOR_RAISE raises the OTP security floor irreversibly, up to the running SEC_VER. -/
  | floorRaise
  /-- EXTEST (R401). The JTAG instruction EXTEST takes the pins in HOLD or MAINT, and otherwise acts as BYPASS. -/
  | extest
  /-- IDCODE (R400). The JTAG instruction IDCODE selects the identification register. -/
  | idcode
  /-- SAMPLE_PRELOAD (R400). The JTAG instruction SAMPLE/PRELOAD samples or preloads the boundary-scan register. -/
  | samplePreload (bits : List Bool)
  /-- CLAMP (R401). The JTAG instruction CLAMP holds the pins in HOLD or MAINT, and otherwise acts as BYPASS. -/
  | clamp
  /-- HIGHZ (R401). The JTAG instruction HIGHZ sets the outputs to high impedance in HOLD or MAINT, and otherwise acts as BYPASS. -/
  | highz
  /-- INT_SCAN (R384). The JTAG instruction INT_SCAN clears secrets and state, enters HOLD and connects the scan chains. -/
  | intScan
  /-- BYPASS (R401). The JTAG instruction BYPASS selects the bypass register. -/
  | bypass
  /-- PIN_RESET_RELEASE (R63). The filtered RESET_N rises, ending the pin reset; the straps are sampled and the start-up schedule runs again with t0 at the end of the reset. -/
  | pinResetRelease (mgrSel : Bool) (fabAddr : BitVec 10)
  /-- PCIE_LINK_UP (R403). After PCIE_PERST_N is released the PCIe link trains and comes up, setting HST LINK_UP, SPEED and WIDTH. -/
  | pcieLinkUp (speed width : Nat)
  /-- CONFIGURATION_REQUEST (R70). A PCIe configuration request is answered with Configuration Request Retry Status in SELFTEST and completed in other states. -/
  | configurationRequest (req : CfgReq)
  /-- TIMECLK_PRESENT (R44). Under PPS discipline, TIMECLK as measured against REFCLK becomes present and within ±200 ppm, or leaves that tolerance, and TIMECLK_OK changes. -/
  | timeclkPresent (present : Bool)
  /-- PEER_DELAY_MEASUREMENT (R159). Each MAC periodically starts an IEEE 802.1AS peer delay measurement toward its link partner. -/
  | peerDelayMeasurement (mac : Nat)
  /-- GENERIC_SHORT_PACKET (R148). A CSI-2 short packet other than frame start or frame end arrives; line start and line end are ignored, and generic short packets are discarded and counted in UNMATCHED. -/
  | genericShortPacket (rx : Nat) (packet : ShortPacket)
  /-- DUP_ADDR_RECOVERY (R305). An address conflict has been gone for SETTLE, DUP_ADDR clears, and the device takes its address again. -/
  | dupAddrRecovery
deriving DecidableEq, Repr, Inhabited

end Sys2Proof
end

