-- ==== Sys2Proof/Config.lean ====
section
/-! DEFINITION. What the manual leaves open: values that nothing in the model can evaluate. Each is applied
to the operands it depends on, or to the counter `State.freeCtr`, which the step that takes the value advances. -/
namespace Sys2Proof.Config

/-- Whether the code word in progress is left TORN when a supply leaves its window (R332, R406: "may"). (DESIGN CHOICE, log 5) -/
opaque tornOnSupplyLoss : Nat → Bool

/-- The time in ns from the entry to SELFTEST, or to LOAD, up to ARMED that the device expects: it computes it from the fused test
plan, which is part data, and from the bytes of payload that the image has (R71). (DESIGN CHOICE, log 5) -/
opaque expectNs (inLoad : Bool) (payloadBytes : Nat) : Nat

/-- EST_MS of an ejection (R270: no bound and no formula). (DESIGN CHOICE, log 5) -/
opaque estMs : Nat → BitVec 16

/-- The measured mean core frequency of CLK_CORE_KHZ (a measurement). (DESIGN CHOICE, log 5) -/
opaque coreKhz : Nat → BitVec 21

/-- The 256-bit fabric session key that ECDH and HKDF give two keyed devices, by their serial numbers (R297). (DESIGN CHOICE, log 5) -/
opaque sessionKey : BitVec 64 → BitVec 64 → BitVec 256

/-- The ledger key derived from the OTP device key (R287: the derivation is not given). (DESIGN CHOICE, log 5) -/
opaque ledgerKey : BitVec 256 → BitVec 256

/-- The bytes of EGO's summary record (R184: its contents are listed, their layout is not), from its contents in the
order of the list. (DESIGN CHOICE, log 5) -/
opaque egoSummary : List Int → List (BitVec 8)

/-- A byte that the manual leaves open, one for each use. (DESIGN CHOICE, log 5) -/
opaque freeByte : Nat → BitVec 8

/-- The bound in µs that the image declares for a camera stream's latency (R101: no section gives it a place), by the
image's digest and the stream. (DESIGN CHOICE, log 5; DESIGN CHOICE, log 48) -/
opaque ingestBound : BitVec 256 → Nat → Nat

/-- A 32-bit value that the manual leaves open, one for each use. (DESIGN CHOICE, log 5) -/
opaque freeWord : Nat → BitVec 32

/-- A natural number that the manual leaves open, one for each use. (DESIGN CHOICE, log 5) -/
opaque freeNat : Nat → Nat

/-- The time in ns that a word or an erase of a device agent takes, by its address and the instant it begins: R234 and R236 bound it
and R406 lets it vary. (DESIGN CHOICE, log 5) -/
opaque devNs : Nat → Nat → Nat

/-- The code words of a sector, by their numbers, that fail when a device agent programs them, once the sector has been erased
beyond its rated endurance (R236, R237: which words fail is not given), by the sector's first byte and its erase count. (DESIGN CHOICE, log 5) -/
opaque wornWords : Nat → Nat → List Nat

end Sys2Proof.Config
end

