-- ==== Sys2Proof/Machine/ImageData.lean ====
section
/-! DEFINITION. The Fenor image as the device holds it once it has been read: one record for each section
of R74, with the fields of the chapter that defines the section. Field values are natural numbers, as
wide as the section's table gives them; `Machine/Image.lean` reads and checks them. -/
namespace Sys2Proof.Machine

/-- The structure header and the signature block's digest (R73, R77). -/
structure ImgHeader where
  structLen : Nat := 0
  imageVer : Nat := 0
  secVer : Nat := 0
  keyIdx : Nat := 0
  dev : Bool := false
  /-- IMAGE_DIGEST, byte 0 in the most significant place (R77). -/
  digest : BitVec 256 := 0
deriving DecidableEq, Repr, Inhabited

/-- The SKU section (R75). -/
structure Sku where
  variantMask : Nat := 0
  formMask : Nat := 0
  minStep : Nat := 0
  coreMask : Nat := 0
deriving DecidableEq, Repr, Inhabited

/-- The TICK section (R19). -/
structure TickSec where
  period : Nat := 0
  gather : Nat := 0
  emit : Nat := 0
  quiet : Nat := 0
  phaseOfs : Nat := 0
  ovrLimit : Nat := 0
  recover : Nat := 0
  inTol : Nat := 0
  srcAllow : Nat := 0
  fallback : Nat := 0
  initSrc : Nat := 0
  mgrSrc : Nat := 0
  freeRunOk : Bool := false
  armTimeout : Nat := 0
deriving DecidableEq, Repr, Inhabited

/-- The TIME section (R45). -/
structure TimeSec where
  discAllow : Nat := 0
  initDisc : Nat := 0
  timeclk25 : Bool := false
  gptpPort : Nat := 0
  stepThr : Nat := 0
  lockThr : Nat := 0
  holdLim : Nat := 0
  ppsWin : Nat := 0
  slewRate : Nat := 0
  ppsWidth : Nat := 0
deriving DecidableEq, Repr, Inhabited

/-- A stream entry (R170). `kind`: 0 FRAME, 1 PACKET, 2 CAN, 3 INERTIAL. -/
structure StreamDecl where
  decl : Nat := 0
  stream : Nat := 0
  kind : Nat := 0
  gather : Bool := false
  toEgo : Bool := false
  confScale : Nat := 0
  period : Nat := 0
  window : Nat := 0
  limit : Nat := 0
  jitter : Nat := 0
  cover : Nat := 0
  slot : Nat := 0
  compRing : Nat := 0
deriving DecidableEq, Repr, Inhabited

/-- The STREAMS section (R170). -/
structure StreamsSec where
  gatherSlot : Nat := 0
  streams : List StreamDecl := []
deriving DecidableEq, Repr, Inhabited

/-- A camera binding (R146). -/
structure CamBinding where
  stream : Nat := 0
  vc : Nat := 0
  dt : Nat := 0
  bound : Bool := false
  width : Nat := 0
  height : Nat := 0
  lineErrMax : Nat := 0
  /-- Signed µs. -/
  capAdj : Int := 0
  lringPage : Nat := 0
  lringLines : Nat := 0
deriving DecidableEq, Repr, Inhabited

/-- A camera receiver part (R146). -/
structure CamPart where
  en : Bool := false
  lanes : Nat := 0
  rate : Nat := 0
  bindings : List CamBinding := []
deriving DecidableEq, Repr, Inhabited

/-- A match entry of a MAC (R146), with its eight words as stored. -/
structure MatchEntry where
  words : List Nat := []
  stream : Nat := 0
  valid : Bool := false
  mVlan : Bool := false
  mUntag : Bool := false
  mEtype : Bool := false
  mSmac : Bool := false
  mIpDst : Bool := false
  mUdp : Bool := false
  capFmt : Nat := 0
  vlanId : Nat := 0
  smac : Nat := 0
  etherType : Nat := 0
  ipDst : Nat := 0
  udpDst : Nat := 0
  capOfs : Nat := 0
deriving DecidableEq, Repr, Inhabited

/-- An Ethernet MAC part (R146). -/
structure EthPart where
  en : Bool := false
  rxLat : Nat := 0
  txLat : Nat := 0
  ownMac : Nat := 0
  entries : List MatchEntry := []
deriving DecidableEq, Repr, Inhabited

/-- A CAN filter (R146). -/
structure CanFilter where
  id : Nat := 0
  ide : Bool := false
  valid : Bool := false
  mask : Nat := 0
  stream : Nat := 0
deriving DecidableEq, Repr, Inhabited

/-- A CAN FD controller part (R146). -/
structure CanPart where
  en : Bool := false
  restricted : Bool := false
  busoffRec : Bool := false
  nominal : List Nat := []
  dataPhase : List Nat := []
  tdco : Nat := 0
  tdcEn : Bool := false
  filters : List CanFilter := []
deriving DecidableEq, Repr, Inhabited

/-- An SPI controller part (R146). -/
structure SpiPart where
  en : Bool := false
  mode3 : Bool := false
  div : Nat := 0
  drdyFall : Bool := false
  cmdLen : Nat := 0
  readLen : Nat := 0
  drdyTo : Nat := 0
  stream : Nat := 0
  cmd : List Byte := []
deriving DecidableEq, Repr, Inhabited

/-- The PORTS section (R146). -/
structure PortsSec where
  gpioDir : Nat := 0
  gpioOd : Nat := 0
  incTrig : Bool := false
  filtTickIn : Nat := 0
  filtPpsIn : Nat := 0
  filtDrdy : List Nat := []
  filtGpio : List Nat := []
  cams : List CamPart := []
  eths : List EthPart := []
  cans : List CanPart := []
  spis : List SpiPart := []
deriving DecidableEq, Repr, Inhabited

/-- A wheel or steering signal of the EGO section (R179). -/
structure EgoSig where
  id : Nat := 0
  ide : Bool := false
  used : Bool := false
  start : Nat := 0
  len : Nat := 0
  signed : Bool := false
  bigEndian : Bool := false
  stream : Nat := 0
  /-- Q7.24 per LSB. -/
  scale : Int := 0
deriving DecidableEq, Repr, Inhabited

/-- The EGO section (R179). -/
structure EgoSec where
  imu : List Nat := []
  imuBe : Bool := false
  imuOfs : Nat := 0
  axisMap : Nat := 0
  gyroLsb : Nat := 0
  accLsb : Nat := 0
  sigs : List EgoSig := []
  wheelbase : Nat := 0
  steerRatio : Nat := 0
  slipThr : Nat := 0
  wheelTo : Nat := 0
  drMax : Nat := 0
  extrapMax : Nat := 0
  tau : Nat := 0
  sumSlot : Nat := 0
  corrSlot : Nat := 0
  gbStep : Int := 0
  abStep : Int := 0
  scStep : Nat := 0
deriving DecidableEq, Repr, Inhabited

/-- A lift entry (R197). -/
structure LiftEntry where
  stream : Nat := 0
  tableId : Nat := 0
deriving DecidableEq, Repr, Inhabited

/-- A pillar entry (R197). -/
structure PillarEntry where
  stream : Nat := 0
  maxPts : Nat := 0
  zMin : Int := 0
  zMax : Int := 0
deriving DecidableEq, Repr, Inhabited

/-- The GRID section (R190, R197). -/
structure GridSec where
  x : Nat := 0
  y : Nat := 0
  cellMm : Nat := 0
  c : Nat := 0
  originX : Nat := 0
  originY : Nat := 0
  buf0 : Nat := 0
  buf1 : Nat := 0
  featSlot : Nat := 0
  lifts : List LiftEntry := []
  pillars : List PillarEntry := []
deriving DecidableEq, Repr, Inhabited

/-- An input token of a task (R102). -/
structure InRef where
  slot : Nat := 0
  carry : Bool := false
  ageExempt : Bool := false
deriving DecidableEq, Repr, Inhabited

/-- A task descriptor (R102). `kind`: 0 MATRIX, 1 VECTOR, 2 SOLVE, 3 INGEST, 4 MOVE, 5 GRID, 6 EMIT. -/
structure TaskDesc where
  id : Nat := 0
  kind : Nat := 0
  core : Nat := 0
  altCore : Nat := 0
  essential : Bool := false
  queueIn : Bool := false
  qin : Nat := 0
  qout : Nat := 0
  qoutEn : Bool := false
  qinGroup : Nat := 0
  qinHalo : Nat := 0
  qoutReserve : Nat := 0
  releaseOfs : Nat := 0
  wcet : Nat := 0
  voidMask : Nat := 0
  ins : List InRef := []
  outs : List Nat := []
  progOfs : Nat := 0
  paramOfs : Nat := 0
deriving DecidableEq, Repr, Inhabited

/-- A queue binding (R104); class codes as in R97. -/
structure QueueBind where
  prod : Nat := 0
  cons : Nat := 0
  prodIdx : Nat := 0
  consIdx : Nat := 0
  log2 : Nat := 0
  vector : Nat := 0
  base : Nat := 0
  dataBase : Nat := 0
  dataLen : Nat := 0
deriving DecidableEq, Repr, Inhabited

/-- A scoreboard slot declaration (R104). -/
structure SlotDecl where
  slot : Nat := 0
  double : Bool := false
  addr0 : Nat := 0
  addr1 : Nat := 0
  len : Nat := 0
deriving DecidableEq, Repr, Inhabited

/-- The QUEUES section (R104): 256 bindings, one slot table for each core, the slot declarations. -/
structure QueuesSec where
  gridSlot : Nat := 0
  queues : List QueueBind := []
  tables : List (List Nat) := []
  slots : List SlotDecl := []
deriving DecidableEq, Repr, Inhabited

/-- A QFORMAT entry (R117). -/
structure QFmt where
  slot : Nat := 0
  /-- Bits: 8, 16 or 32. -/
  width : Nat := 8
  signed : Bool := false
  /-- Rounding toward zero; otherwise to nearest, ties to even. -/
  towardZero : Bool := false
  cls : Nat := 0
  frac : Int := 0
  rangeLo : Int := 0
  rangeHi : Int := 0
  cvtCtx : Nat := 31
deriving DecidableEq, Repr, Inhabited

/-- The QFORMAT section (R117). -/
structure QFormatSec where
  satThr : List Nat := []
  ctxs : List Nat := []
  ctxUsed : Nat := 0
  entries : List QFmt := []
deriving DecidableEq, Repr, Inhabited

/-- A solve entry (R131). -/
structure SolveEntry where
  id : Nat := 0
  op : Nat := 0
  spd : Bool := false
  cold : Bool := false
  jacobi : Bool := false
  n : Nat := 0
  m : Nat := 0
  k : Nat := 0
  minAccept : Nat := 0
  block : Nat := 8
  halfBw : Nat := 0
  pivotMin : Nat := 0
  regAdd : Nat := 0
  deadlineOfs : Nat := 0
  iterWcc : Nat := 0
  evalWcc : Nat := 0
  lambda0 : Nat := 0
  upShift : Nat := 0
  downShift : Nat := 0
  fallbackOfs : Nat := 0
  defaultOfs : Nat := 0
deriving DecidableEq, Repr, Inhabited

/-- A vote group (R198). -/
structure VoteGroup where
  used : Bool := false
  agreeThr : Nat := 0
  x0 : Nat := 0
  y0 : Nat := 0
  w : Nat := 0
  h : Nat := 0
  members : List Nat := []
deriving DecidableEq, Repr, Inhabited

/-- The VOTE section (R198). -/
structure VoteSec where
  voteSlot : Nat := 0
  evidSlot : Nat := 0
  windowTicks : Nat := 0
  strikesOut : Nat := 0
  cleanTicks : Nat := 0
  voteScale : Nat := 0
  disagreeScale : Nat := 0
  groups : List VoteGroup := []
deriving DecidableEq, Repr, Inhabited

/-- An output channel (R204). `routes`: bit 0 PCIe, bit 1 card link, bits 2 to 5 MACs 0 to 3. -/
structure OutChan where
  en : Bool := false
  routes : Nat := 0
  winX0 : Nat := 0
  winY0 : Nat := 0
  winW : Nat := 0
  winH : Nat := 0
  clBuf : Nat := 0
  vlans : List Nat := []
deriving DecidableEq, Repr, Inhabited

/-- The POWER section (R335). -/
structure PowerSec where
  budget : Nat := 0
  floor : Nat := 0
  base : Nat := 0
  thermBudget : Nat := 0
  thermThr : Nat := 0
  coreMhz : Nat := 0
  spread : Nat := 0
  fabSpread : Bool := false
  /-- Cost and class of consumers 0 to 63. -/
  consumers : List (Nat × Nat) := []
  slew : Nat := 0
  fab : List (Nat × Nat) := []
deriving DecidableEq, Repr, Inhabited

/-- An entry of the reaction map (R353). -/
structure MapEntry where
  react : Nat := 7
  escN : Nat := 0
  escT : Nat := 0
deriving DecidableEq, Repr, Inhabited

/-- The FAULTMAP section (R353). -/
structure FaultMap where
  heartbeat : Bool := false
  extEn : Bool := false
  extHb : Bool := false
  extFilt : Nat := 0
  extHold : Nat := 0
  entries : List MapEntry := []
deriving DecidableEq, Repr, Inhabited

/-- The SELFTEST section (R383). -/
structure SelfTestSec where
  slices : Bool := false
  skipWarn : Nat := 0
  rotLimit : Nat := 0
deriving DecidableEq, Repr, Inhabited

/-- An area entry (R220). -/
structure Area where
  kind : Nat := 0
  hide : Bool := false
  bank : Nat := 0
  id : Nat := 0
  first : Nat := 0
  count : Nat := 0
deriving DecidableEq, Repr, Inhabited

/-- The ARCAREA section (R220): one 544-bit protection map for each bank. -/
structure ArcAreaSec where
  lockAtBoot : Bool := false
  eccWarn : Nat := 0
  wp0 : BitVec 544 := 0
  wp1 : BitVec 544 := 0
  areas : List Area := []
deriving DecidableEq, Repr, Inhabited

/-- The FABRIC section (R303, R317). -/
structure FabricSec where
  addrMode : Nat := 0
  standbyOk : Bool := false
  portEn : Nat := 0
  priority : Nat := 0
  mgrDisc : Nat := 0
  addr : Nat := 0
  settle : Nat := 0
  lead : Nat := 0
  /-- Signed ns for each port. -/
  asym : List Int := []
  groups : BitVec 256 := 0
  safePolicy : Nat := 0
  obeySafe : Bool := false
  ofsLimit : Nat := 0
  rejoin : Nat := 0
  missLimit : Nat := 0
  freeRun : Nat := 0
  degTicks : Nat := 0
  /-- The first 28 bytes of each compatible digest. -/
  compat : List (BitVec 224) := []
deriving DecidableEq, Repr, Inhabited

/-- The LEDGER section (R282). -/
structure LedgerSec where
  slack : Nat := 0
  ckpt : Nat := 0
  /-- FEATURE_ID and GATE_TASK of each feature. -/
  features : List (Nat × Nat) := []
  bounds : List Nat := []
deriving DecidableEq, Repr, Inhabited

/-- The INCIDENT section (R271). -/
structure IncidentSec where
  en : Bool := false
  pre : Nat := 0
  post : Nat := 0
  slots : Nat := 0
  sumSlot : Nat := 0
  sumKib : Nat := 0
  overwrite : Bool := false
  ringBase : Nat := 0
  trigEn : Nat := 0
  faultLevel : Nat := 0
  pinFall : Bool := false
  fabSend : Bool := false
  decelThr : Nat := 0
  decelWin : Nat := 0
deriving DecidableEq, Repr, Inhabited

/-- A payload table entry (R80). -/
structure Payload where
  id : Nat := 0
  kind : Nat := 0
  hot : Bool := false
  sector : Nat := 0
  bank : Nat := 0
  length : Nat := 0
  dest : Nat := 0
  bankMask : Nat := 0
  destOfs : Nat := 0
  digest : BitVec 256 := 0
deriving DecidableEq, Repr, Inhabited

/-- The running, or a candidate, Fenor image (R72, R74). -/
structure Image where
  hdr : ImgHeader := {}
  sku : Sku := {}
  tick : TickSec := {}
  time : TimeSec := {}
  streams : StreamsSec := {}
  ports : PortsSec := {}
  ego : Option EgoSec := none
  grid : GridSec := {}
  tasks : List TaskDesc := []
  queues : QueuesSec := {}
  qformat : QFormatSec := {}
  solver : List SolveEntry := []
  vote : Option VoteSec := none
  outA : OutChan := {}
  outB : OutChan := {}
  power : PowerSec := {}
  faultMap : FaultMap := {}
  selfTest : SelfTestSec := {}
  arcArea : ArcAreaSec := {}
  fabric : Option FabricSec := none
  ledger : Option LedgerSec := none
  incident : Option IncidentSec := none
  payloads : List Payload := []
  /-- Core and BANK_MASK of each HOTRESERVE entry (R82). -/
  hotReserve : List (Nat × Nat) := []
deriving DecidableEq, Repr, Inhabited

end Sys2Proof.Machine
end

