-- ==== Sys2Proof/Machine/State.lean ====
section
/-! DEFINITION. The state of the device as plain data: one structure for each block of the spec, whose default
values are the reset values, and `State`, which joins them with the queue of waiting commands. -/
namespace Sys2Proof.Machine

/-- Reasons to stop with a fault. No command of the table ends in one: the spec answers every access. -/
inductive Fault
  /-- Raised by no meaning: kept for an access outside every memory of R96. Safe. -/
  | outsideMemory
deriving DecidableEq, Repr

/-- Reasons to refuse a command. -/
inductive Refusal
  /-- Raised by the dispatch for a command that has no meaning yet. Safe. -/
  | notModelled (mnemonic : String)
deriving DecidableEq, Repr

/-- The device states of R8. -/
inductive Mode
  | off | hold | selftest | load | armed | run | degraded | safe | maint | removal | quarantine
deriving DecidableEq, Repr, Inhabited

/-- A memory (R96): strictly rising addresses, and no cell that holds what an unlisted address reads as (0). -/
abbrev Mem := List Host.Cell

/-! ## Fuses, OTP and pins -/

/-- One key slot of R78; `hash` is none while the slot is not provisioned. -/
structure KeySlot where
  hash : Option (BitVec 256) := none
  revoked : Bool := false
deriving DecidableEq, Repr, Inhabited

/-- Fuses and OTP (R1, R78, R79, R295, R343). -/
structure Otp where
  /-- GCTL_ID.VARIANT: 0 none, 1 V12, 2 V24, 3 V48. -/
  variant : BitVec 2 := 3
  step : Byte := 0
  cardForm : Bool := false
  isSealed : Bool := true
  serial : BitVec 64 := 0
  floor : BitVec 16 := 0
  keys : Vector KeySlot 4 := Vector.replicate 4 {}
  deviceKey : BitVec 256 := 0
  /-- Fused BASE, the cost of a core and the costs of consumers 48 to 61 (R343). -/
  base : Nat := 150
  coreCost : Nat := 10
  otherCosts : List Nat := [40, 3, 3, 3, 3, 3, 3, 3, 3, 0, 20, 8, 10, 4]
  /-- CLK_VCORE_REQ in mV for each core frequency, 500 MHz to 1,100 MHz in steps of 50 MHz (R333). -/
  vcoreReq : Vector (BitVec 10) 13 := Vector.replicate 13 750
  /-- Firmware version (R300, R318). -/
  fwVer : Word := 0
  /-- The EXT_EN of the fused default (R354). -/
  extEn : Bool := false
  /-- The OTP key read path is disabled (R384). -/
  keysOff : Bool := false
deriving DecidableEq, Repr, Inhabited

/-- The instruction in force at the JTAG port (R400). -/
inductive JtagIr | extest | idcode | sample | clamp | highz | intScan | bypass
deriving DecidableEq, Repr, Inhabited

/-- The pins, the straps and the test port. -/
structure Pins where
  mgrSel : Bool := false
  fabAddr : BitVec 10 := 0
  /-- RESET_N is held low (filtered). -/
  resetLow : Bool := false
  /-- A pin reset is taken when step 6 of R268 is reached (R58). -/
  resetWaits : Bool := false
  cardPresent : Bool := true
  /-- REFCLK comes from a crystal, not from a driven clock (R346). -/
  crystal : Bool := true
  /-- The archive charge pumps are off and the device waits for OFF (R268, step 6). -/
  quiescent : Bool := false
  /-- The outputs of step 2 of R268 are idle or high impedance. -/
  outputsIdle : Bool := false
  /-- Levels driven on FAULT_P and FAULT_N; none when undriven (R364). -/
  faultPair : Option (Bool × Bool) := some (false, true)
  /-- Monotonic instants until which TICK_OUT and PPS_OUT are high; 0 when low. -/
  tickOutUntil : Nat := 0
  ppsOutUntil : Nat := 0
  ir : JtagIr := .idcode
  /-- The boundary-scan register as last sampled or preloaded. -/
  bsr : List Bool := []
  /-- Monotonic instant at which INT_SCAN came, while internal scan is in force (R384). -/
  scan : Option Nat := none
deriving DecidableEq, Repr, Inhabited

/-! ## GCTL and the state machine -/

/-- The last HALT performed (R57): its instant, its source, and HELD before it. -/
structure HaltRec where
  mono : Nat
  src : Source
  held : Bool
deriving DecidableEq, Repr, Inhabited

/-- GCTL (03_states_and_startup.md). -/
structure Gctl where
  mode : Mode := .hold
  prev : Mode := .off
  holdReason : Byte := 0
  expectMs : BitVec 16 := 0xFFFF
  /-- The instant at which ARMED is expected, in SELFTEST and LOAD (R71), and that from which the power-up plan waits for its budget (R370). -/
  expectAt : Nat := 0
  waitFrom : Option Nat := none
  noImage : Bool := false
  ejectReady : Bool := false
  degFabric : Bool := false
  /-- A TICK has been used since DEG_FABRIC was set: the next boundary ends that cause (R327). -/
  fabricBack : Bool := false
  degTime : Bool := false
  degWarden : Bool := false
  degFlywheel : Bool := false
  degOvr : Bool := false
  freeRun : Bool := false
  held : Bool := false
  halted : Option HaltRec := none
  cmdStat : Byte := 0
  cmdEcho : Byte := 0
  rstType : BitVec 2 := 0
  rstCount : Byte := 0
  rejectCnt : Word := 0
  lastReject : Word := 0
  loadStat : Byte := 0
  loadTwin : Bool := false
  loadMs : BitVec 16 := 0
  /-- Monotonic instants: t0, the entry to LOAD, the latest entry to ARMED, the latest change of state. -/
  t0 : Nat := 0
  selfMono : Nat := 0
  loadMono : Nat := 0
  armedMono : Nat := 0
  changeMono : Nat := 0
  /-- ARM_TIMEOUT has elapsed in ARMED without time lock (R65). -/
  armTimedOut : Bool := false
  /-- ARMED has been entered since the last reset (R343). -/
  everArmed : Bool := false
  /-- Consecutive good 1 ms checks in HOLD (R64), and whether the last checks were all good since t0. -/
  holdGood : Nat := 0
  holdBad : Bool := false
  /-- The worker's admission from QUARANTINE waits for the boundary (R322). -/
  admitted : Bool := false
  /-- A loss of LOCKED in RUN waits for the boundary (R66). -/
  lockLost : Bool := false
  /-- The DEGRADED entry of R22 waits for the boundary. -/
  flyDegrade : Bool := false
  /-- On-time ticks in a row, for R29. -/
  onTimeRun : Nat := 0
  /-- Twins tried in this LOAD (R83). -/
  tried : List Twin := []
deriving DecidableEq, Repr, Inhabited

/-! ## Device time -/

/-- An apply captured at the APPLY write (R47): a step to a stamp, or a slew of an offset at a rate in ppm. -/
structure TimApply where
  slew : Bool
  value : Int
  rate : Nat
  /-- Made in the same write as an accepted DISC request (R40). -/
  withDisc : Bool := false
deriving DecidableEq, Repr, Inhabited

/-- A step of device time: the monotonic instant, the stamp that would have been reached, the stamp set (R53). -/
structure StepRec where
  mono : Nat
  old : Nat
  new : Nat
deriving DecidableEq, Repr, Inhabited

/-- Where the course of device time last changed: both counters, the fraction, F + P, and what was left of a slew, with its rate. From
here on they count as R38 and R52 say. -/
structure Knot where
  mono : Nat
  dev : Nat
  frac : Int
  rate : Int
  rest : Int
  ppm : Nat
deriving DecidableEq, Repr, Inhabited

/-- TIM (02_time_base.md). -/
structure Tim where
  /-- The monotonic counter and device time, in ns (R35 to R38). -/
  mono : Nat := 0
  dev : Nat := 0
  /-- Fractional nanoseconds of device time, in 10⁻¹² ns (R38). -/
  frac : Int := 0
  /-- F and P of R415, in units of 10⁻¹². -/
  fTerm : Int := 0
  pTerm : Int := 0
  /-- The unspent host slew in 10⁻¹² ns, and its rate in ppm (R52). -/
  slewRest : Int := 0
  slewPpm : Nat := 0
  disc : BitVec 2 := 0
  discAct : BitVec 2 := 0
  /-- A staged discipline that takes effect at the next counter update (R40). -/
  discPend : Option (BitVec 2) := none
  applyStat : Byte := 0
  timeclkOk : Bool := false
  holdover : Bool := false
  locked : Bool := false
  setNsec : BitVec 30 := 0
  setSecLo : Word := 0
  setSecHi : BitVec 16 := 0
  setOfs : Word := 0
  /-- IMMEDIATE applies waiting for the next counter update, oldest first; an AT_SECOND apply pending (R49). -/
  now : List TimApply := []
  pend : Option TimApply := none
  /-- Consecutive measurements within LOCK_THR (R42). -/
  goodRun : Nat := 0
  /-- The next measurement leaves F unchanged (R415). -/
  fresh : Bool := true
  /-- The next accepted PPS edge steps device time (R44). -/
  ppsStep : Bool := true
  /-- Monotonic instants of the last reference event and of the start of holdover (R43). -/
  refMono : Nat := 0
  holdMono : Nat := 0
  /-- Monotonic instant at which TIMECLK was lost, or at which PPS took effect without it (R43). -/
  tclkMono : Nat := 0
  /-- The winner of a merge of two fabrics steps device time at its first TICK (R330). -/
  joinStep : Bool := false
  offset : Word := 0
  ppsEn : Bool := false
  stepCnt : BitVec 16 := 0
  stepSrc : BitVec 3 := 0
  stepOld : BitVec 64 := 0
  stepNew : BitVec 64 := 0
  slewCnt : Word := 0
  ppsAcc : BitVec 16 := 0
  ppsRej : BitVec 16 := 0
  intEn : Bool := false
  /-- The steps made, latest first (R54, R186). -/
  steps : List StepRec := []
  /-- The changes of its course, latest first: the stamps of earlier instants follow from them (R18, R418, R419). -/
  knots : List Knot := []
deriving DecidableEq, Repr, Inhabited

/-! ## The tick -/

/-- A source switch under way (R23, R417): the new source, the monotonic end of tick k. -/
structure Switch where
  dest : BitVec 2
  endMono : Nat
  /-- The flywheel instant is to end tick k, and has not been counted (R417). -/
  flyEnd : Bool := false
deriving DecidableEq, Repr, Inhabited

/-- TCK (01_tick.md). -/
structure Tck where
  /-- TCK_CTL.SRC and TCK_STAT.ACTIVE_SRC. -/
  src : BitVec 2 := 0
  active : BitVec 2 := 0
  /-- A source request staged for the next boundary; a commit's request goes before a host's (R417). -/
  req : Option (BitVec 2) := none
  switch : Option Switch := none
  srcStat : Byte := 0
  consecOvr : Byte := 0
  ticked : Bool := false
  flywheel : Bool := false
  staleLast : Bool := false
  phase : BitVec 2 := 3
  index : BitVec 64 := 0
  /-- Stamp and monotonic instant of the last boundary. -/
  bound : Nat := 0
  boundMono : Nat := 0
  /-- Stamp of the boundary before the last. -/
  prevBound : Nat := 0
  ovrCnt : Word := 0
  emitLate : Word := 0
  rephaseCnt : Word := 0
  inEarly : BitVec 16 := 0
  inMiss : BitVec 16 := 0
  cancelCnt : Word := 0
  intEn : BitVec 4 := 0
  /-- Monotonic instants of the edges of the tick in progress (R18). -/
  gMono : Nat := 0
  eMono : Nat := 0
  qMono : Nat := 0
  endMono : Nat := 0
  /-- The edges already passed in the tick in progress. -/
  gDone : Bool := true
  eDone : Bool := true
  qDone : Bool := true
  /-- The tick began in RUN or DEGRADED (R416). -/
  compute : Bool := false
  /-- The instant at which the tick's Gather opened. -/
  openMono : Nat := 0
  /-- The device was in RUN or DEGRADED at the Emit edge of the tick (R283). -/
  emitRun : Bool := false
  /-- Consecutive flywheel boundaries (R22), and a fallback that is due at the next boundary. -/
  flyRun : Nat := 0
  fallbackDue : Bool := false
  /-- A step or a change of T or φ has come since the last boundary (R92, R419): the earliest stamp. -/
  stepped : Bool := false
  /-- The stamp of the earliest next boundary after a commit that changes T or φ (R92). -/
  commitFrom : Option Nat := none
  /-- A boundary that is known ahead: the manager's LEAD after an edge (R20), or an announced TICK (R312):
  stamp, index if announced, flywheel. -/
  lead : Option (Nat × Option (BitVec 64) × Bool) := none
  /-- The monotonic instant from which INTERNAL places its next boundary after a switch that ended in TIMEOUT (R417). -/
  gridAt : Option Nat := none
  /-- The source that a manager takes at its next boundary (R310). -/
  mgrSrc : Option (BitVec 2) := none
  /-- The manager has sent the TICK for the next boundary (R311). -/
  tickSent : Bool := false
deriving DecidableEq, Repr, Inhabited

/-! ## The image -/

/-- IMG (04_fenor_image.md). -/
structure Img where
  /-- The running image, and the twin that holds it. -/
  run : Option Image := none
  runTwin : Twin := .a
  /-- The candidate (R87, R88): header fields are known from IMG_STAGE on, the rest from verification on. -/
  cand : Option Image := none
  /-- STAGE_STATE: 0 IDLE, 1 STAGED, 2 VERIFYING, 3 VERIFIED, 4 COMMIT_PENDING, 5 PERSISTING. -/
  stage : BitVec 3 := 0
  stgTwin : Twin := .a
  stat : Byte := 0
  reason : Byte := 0
  fallback : Bool := false
  stgVer : Word := 0
  stgDigest : BitVec 256 := 0
  verifyBytes : Word := 0
  commitIndex : BitVec 64 := 0
  commitCnt : BitVec 16 := 0
  verifyFail : BitVec 16 := 0
  bootReasonA : Byte := 0
  bootReasonB : Byte := 0
  intEn : Bool := false
  persist : Bool := false
  /-- The warden has reported an uncorrectable error in a core with a reserve bank while verification runs. -/
  fillBad : Bool := false
  /-- The instant at which the pending commit was decoded (R91). -/
  commitMono : Nat := 0
deriving DecidableEq, Repr, Inhabited

/-! ## Cores and the curator -/

/-- OLDEST of a token or a grid: the stamp of the oldest contribution, all ones for none, and the offset of device time from the monotonic
counter when the device took that stamp (R54). -/
structure Oldest where
  stamp : BitVec 64 := BitVec.allOnes 64
  off : Int := 0
deriving DecidableEq, Repr, Inhabited

/-- A scoreboard entry (R105). -/
structure Token where
  present : Bool := false
  isVoid : Bool := false
  gen : Byte := 0
  consLeft : BitVec 6 := 0
  oldest : Oldest := { stamp := 0 }
  mask : Word := 0
  vote : Word := 0
deriving DecidableEq, Repr, Inhabited

/-- Results of a solve (R137): RESULT codes. -/
inductive SolveResult | none | complete | partialResult | abandoned | aborted
deriving DecidableEq, Repr, Inhabited

/-- A solve in progress (R131 to R137). -/
structure SolveRun where
  entry : SolveEntry := {}
  deadline : Nat := 0
  startMono : Nat := 0
  /-- Iterations completed; for DIRECT, step 0 is done once `step0` is set. -/
  iter : Nat := 0
  step0 : Bool := false
  /-- The last completed iterate; for LM the last accepted one. -/
  current : List Byte := []
  /-- Costs of LM: that of the last accepted iterate; λ in force. -/
  cost : Option Nat := none
  lam : Nat := 0
  /-- The stored r and J of the last accepted iterate of LM, and its trial; the residual and the direction of CG; the factor of a DIRECT
  operation, row by row. -/
  resid : List Int := []
  jac : List Int := []
  trial : List Int := []
  dir : List Int := []
  factor : List (List Int) := []
  /-- The result delivered, once the solve has stopped. -/
  result : SolveResult := .none
  hard : Bool := false
  notStarted : Bool := false
  useFallback : Bool := false
  smallPivot : Bool := false
  sat : Bool := false
  /-- The output elements that have been counted as saturated (R123). -/
  hits : List Dest := []
  pivCount : Nat := 0
  pivFirst : Nat := 0
  pivIter : Nat := 0
deriving DecidableEq, Repr, Inhabited

/-- A released task (R106) or a task that runs. -/
structure Job where
  task : Nat := 0
  /-- The tick index that the job belongs to. -/
  tick : BitVec 64 := 0
  /-- Queue entries of the release, their last CAPTURE, whether the last carries FRAME_END. -/
  entries : Nat := 0
  capture : BitVec 64 := 0
  gen : Byte := 0
  frameEnd : Bool := false
  broken : Bool := false
  /-- The core it is bound to; none for the common ready list (R107). -/
  core : Option Nat := none
  moved : Bool := false
  /-- Set at its start: the monotonic instant, the folded inputs, a void CARRY input. -/
  startMono : Nat := 0
  oldest : Oldest := {}
  mask : Word := 0
  vote : Word := 0
  solve : Option SolveRun := none
  wcetSeen : Bool := false
deriving DecidableEq, Repr, Inhabited

/-- A core and its window (R95, 05, 06 and 07). -/
structure Core where
  job : Option Job := none
  stalled : Bool := false
  fence : BitVec 2 := 0
  slotPos : Nat := 0
  busyCyc : BitVec 64 := 0
  stallCyc : BitVec 64 := 0
  tasksRun : Word := 0
  wcetExceed : Word := 0
  memAddr : BitVec 19 := 0
  satCls : Vector Word 16 := Vector.replicate 16 0
  /-- The class counters at the last boundary (R124). -/
  satBase : Vector Word 16 := Vector.replicate 16 0
  /-- The instant of the last count in a saturation counter, and the counters that it counted in: 0 to 15 the classes, 16 ACC_SAT, 17
  LUT_CLAMP (R123). -/
  satMono : Nat := 0
  satHit : BitVec 18 := 0
  accSat : Word := 0
  lutClamp : Word := 0
  satTick : BitVec 16 := 0
  /-- Offsets 0x200 to 0x20C: the status record of the last solve. -/
  solStat : Word := 0
  solIter : Word := 0
  solPiv : Word := 0
  solCycles : Word := 0
  /-- COMPLETE, PARTIAL, ABANDONED, ABORTED, SMALL_PIVOT and HARD counts. -/
  solCnt : Vector Word 6 := Vector.replicate 6 0
  marginMin : BitVec 17 := 0x1FFFF
deriving DecidableEq, Repr, Inhabited

/-- A fallback buffer's OLDEST and DEFAULT bit (R139); its result stands in the core's local SRAM. -/
structure Fallback where
  id : Nat := 0
  core : Nat := 0
  oldest : Oldest := {}
  isDefault : Bool := true
deriving DecidableEq, Repr, Inhabited

/-- The registers of a queue (05). -/
structure Queue where
  head : BitVec 13 := 0
  tail : BitVec 13 := 0
  stat : Byte := 0
  drop : Word := 0
  hiwater : BitVec 13 := 0
  posted : Word := 0
deriving DecidableEq, Repr, Inhabited

/-- SCH, the queues and the core windows (05_cores_and_curator.md). -/
structure Sch where
  intEn : Bool := false
  voidCnt : Word := 0
  lineOvr : Word := 0
  wcetCnt : Word := 0
  essLost : Word := 0
  peekSlot : BitVec 13 := 0
  peekEntry : Bool := false
  peek : Token := {}
  peekDouble : Bool := false
  peekStat : Byte := 0
  latLast : Vector (BitVec 16) 32 := Vector.replicate 32 0
  latMax : Vector (BitVec 16) 32 := Vector.replicate 32 0
  queues : Vector Queue 256 := Vector.replicate 256 {}
  cores : Vector Core 48 := Vector.replicate 48 {}
  /-- Scoreboard entries that are not in their reset value: (slot × 2 + parity, entry). -/
  tokens : List (Nat × Token) := []
  /-- Released tasks, in order of release. -/
  ready : List Job := []
  /-- TASK_IDs whose run of the present tick has ended (with the tick's index), or that were voided. -/
  done : List (Nat × BitVec 64) := []
  /-- TASK_IDs whose task completed in the tick in progress (R283). -/
  ended : List Nat := []
  /-- TASK_IDs moved to their alternate core (R113). -/
  moved : List Nat := []
  fallbacks : List Fallback := []
  /-- The instant at which the FRAME_END entry of a queue's place was posted (R101). -/
  frameEnds : List (Nat × Nat) := []
  /-- INGEST tasks and ticks whose frame token was made void (R112): what they release later sets no outputs. -/
  late : List (Nat × BitVec 64) := []
  /-- Essential tasks already counted lost in the tick (R113). -/
  essSeen : Bool := false
deriving DecidableEq, Repr, Inhabited

/-- A conversion context's flags and counters (06). -/
structure CvtCtx where
  flags : BitVec 5 := 0
  satCnt : Word := 0
  invCnt : Word := 0
deriving DecidableEq, Repr, Inhabited

/-- CVT (06_fixed_point.md). -/
structure Cvt where
  testCfg : BitVec 16 := 0
  testOut : Word := 0
  testFlags : BitVec 5 := 0
  testStat : Byte := 0
  ctx : Vector CvtCtx 16 := Vector.replicate 16 {}
deriving DecidableEq, Repr, Inhabited

/-! ## Sensor ports -/

/-- An open frame of a binding (R149 to R153). -/
structure OpenFrame where
  /-- The frame is not taken: its lines are discarded (R173, R144). -/
  drop : Bool := false
  gen : Byte := 0
  tick : BitVec 64 := 0
  capture : BitVec 64 := 0
  arrival : BitVec 64 := 0
  /-- Device time less the monotonic counter at the frame start. -/
  off : Int := 0
  frameNo : BitVec 16 := 0
  line : Nat := 0
  /-- Lines in the entries posted. -/
  sent : Nat := 0
  damaged : Nat := 0
  groupBad : Bool := false
  posted : Bool := false
deriving DecidableEq, Repr, Inhabited

/-- A camera receiver (08). Counters: FRAMES, BROKEN, ECC_CORR, ECC_UNCORR, CRC_ERR, LEN_ERR, UNMATCHED,
ORPHAN, SOT_ERR, IDLE_DROP. -/
structure Cam where
  hs : Bool := false
  cnt : Vector Word 10 := Vector.replicate 10 0
  fsStamp : BitVec 64 := 0
  opens : Vector (Option OpenFrame) 4 := Vector.replicate 4 none
  /-- Lines that each posted entry of a binding holds in its line ring until its release, oldest first, and the
  ring's next line (R100). -/
  used : Vector (List Nat) 4 := Vector.replicate 4 []
  pos : Vector Nat 4 := Vector.replicate 4 0
  fenced : Bool := false
deriving DecidableEq, Repr, Inhabited

/-- An Ethernet MAC (08). Counters: RX_FRAMES, FCS_ERR, RUNT, OVERSIZE, UNMATCHED, CAP_IMPLAUS, IDLE_DROP,
TX_FRAMES, TX_DROP, PTP_RX, PTP_TX, LINK_DOWN. -/
structure Eth where
  link : Bool := false
  anDone : Bool := false
  speedBad : Bool := false
  asCapable : Bool := false
  cnt : Vector Word 12 := Vector.replicate 12 0
  peerDelay : Word := 0
  /-- Transmit stamp of the peer delay request that has no answer yet (R157). -/
  pdelayT1 : Option Nat := none
  fenced : Bool := false
deriving DecidableEq, Repr, Inhabited

/-- A CAN FD controller (08). Counters: RX_FRAMES, UNMATCHED, REMOTE, ERR_BIT, ERR_STUFF, ERR_CRC, ERR_FORM,
ERR_ACK, BUS_OFF_CNT, IDLE_DROP. -/
structure Can where
  busOff : Bool := false
  rxErr : Byte := 0
  txErr : BitVec 9 := 0
  /-- ESI of the last valid frame (R161). -/
  esi : Bool := false
  cnt : Vector Word 10 := Vector.replicate 10 0
  fenced : Bool := false
deriving DecidableEq, Repr, Inhabited

/-- An SPI controller (08). Counters: TRANSFERS, DRDY_OVR, DRDY_MISS, IDLE_DROP. -/
structure Spi where
  busy : Bool := false
  silent : Bool := false
  cnt : Vector Word 4 := Vector.replicate 4 0
  drdy : BitVec 64 := 0
  /-- Device time less the monotonic counter at the last DRDY edge. -/
  drdyOff : Int := 0
  /-- Monotonic instant of the last DRDY edge, or of entry to ARMED. -/
  lastMono : Nat := 0
  fenced : Bool := false
deriving DecidableEq, Repr, Inhabited

/-- GPIO (08). -/
structure Gpio where
  inp : BitVec 16 := 0
  out : BitVec 16 := 0
  edge : Word := 0
  rise : Vector (BitVec 64) 16 := Vector.replicate 16 0
  fall : Vector (BitVec 64) 16 := Vector.replicate 16 0
deriving DecidableEq, Repr, Inhabited

/-! ## Registrar and ego-motion -/

/-- The registrar's registers and knowledge of one stream (09). -/
structure Stream where
  reason : BitVec 4 := 0xF
  delivUs : BitVec 24 := 0
  maskedCnt : Word := 0
  late : Word := 0
  outWin : BitVec 16 := 0
  surplus : BitVec 16 := 0
  cLast : Option (BitVec 64) := none
  /-- The stamp that the tick in progress expects (R175), fixed at its boundary. -/
  expect : Option Nat := none
  /-- Delivered, or masked at its limit, in the tick in progress (R175, R176). -/
  delivered : Bool := false
  masked : Bool := false
  maskedRun : Nat := 0
  /-- Tick indexes to which a camera frame is assigned, latest first (R173). -/
  assigned : List (BitVec 64) := []
  /-- CAPTURE of the frame assigned, per tick index (R207). -/
  captures : List (BitVec 64 × BitVec 64) := []
  /-- Received entries of a port: SEQ of PACKET streams (R159). -/
  seq : BitVec 16 := 0
  /-- A frame was partly ingested at a commit: masked for the first tick (R91). -/
  cut : Bool := false
deriving DecidableEq, Repr, Inhabited

/-- ALN (09_registrar_and_ego_motion.md). -/
structure Aln where
  gen : Byte := 0
  maskLast : Word := 0
  maskAcc : Word := 0
  streams : Vector Stream 32 := Vector.replicate 32 {}
  /-- Capture floors of the tick in progress, and of the front grid (R207): OLDEST of each stream, none if masked. -/
  floors : List (Option (BitVec 64)) := []
  /-- Device time less the monotonic counter when the capture of an entry was stamped, by its queue and its place in the ring (R186). -/
  offs : List (Nat × Option Int) := []
deriving DecidableEq, Repr, Inhabited

/-- A pose history entry (R181), in the formats of its table. -/
structure Pose where
  mono : Nat := 0
  stamp : Nat := 0
  x : Int := 0
  y : Int := 0
  z : Int := 0
  roll : Int := 0
  pitch : Int := 0
  yaw : Int := 0
  v : Int := 0
  yawRate : Int := 0
  flags : BitVec 7 := 0
deriving DecidableEq, Repr, Inhabited

/-- One inertial unit as EGO sees it: sums of the samples since the last update and since the last close,
the last mean, the last sample's instant. -/
structure Imu where
  n : Nat := 0
  sum : List Int := [0, 0, 0, 0, 0, 0]
  mean : List Int := [0, 0, 0, 0, 0, 0]
  tickN : Nat := 0
  tickSum : List Int := [0, 0, 0, 0, 0, 0]
  lastMono : Option Nat := none
  /-- Start of the present run of deliveries (R183: 100 ms). -/
  goodFrom : Nat := 0
deriving DecidableEq, Repr, Inhabited

/-- A wheel or steering signal. -/
structure SigState where
  raw : Int := 0
  lastMono : Option Nat := none
  tickN : Nat := 0
  tickSum : Int := 0
deriving DecidableEq, Repr, Inhabited

/-- A mean of raw samples: their number, and the sum of each value. -/
structure MeanOf where
  n : Nat := 0
  sums : List Int := []
deriving DecidableEq, Repr, Inhabited

/-- The tick summary (R184). -/
structure SumRec where
  pose : Option Pose := none
  imus : List MeanOf := []
  sigs : List MeanOf := []
  updates : Nat := 0
  flags : BitVec 7 := 0
deriving DecidableEq, Repr, Inhabited

/-- EGO (09). Counters: UPDATES, SLIP_UPD, DR_UPD, INVALID_UPD, IMU_SWITCH, CORR_APPLIED, CORR_REJ, EXTRAP_CNT,
EXTRAP_MASK. Internal pose values are in units of 2⁻⁴⁰ m, rad and m/s. -/
structure Ego where
  imuAct : BitVec 2 := 2
  /-- The inertial unit used last: the secondary one. -/
  lastUnit : Bool := false
  wheelValid : BitVec 4 := 0
  steerValid : Bool := false
  flags : BitVec 7 := 0
  corrStat : Byte := 0
  cnt : Vector Word 9 := Vector.replicate 9 0
  histSel : BitVec 9 := 0
  histWords : Vector Word 16 := Vector.replicate 16 0
  corr : List Int := []
  hist : List Pose := []
  imus : Vector Imu 2 := Vector.replicate 2 {}
  sigs : Vector SigState 5 := Vector.replicate 5 {}
  x : Int := 0
  y : Int := 0
  z : Int := 0
  roll : Int := 0
  pitch : Int := 0
  yaw : Int := 0
  v : Int := 0
  yawRate : Int := 0
  drFrom : Option Nat := none
  /-- What SUM_SLOT holds since the last Gather close that wrote it (R184). -/
  summary : Option SumRec := none
  /-- Summary of the tick (R184): updates, OR of flags, earliest sample. -/
  tickUpd : Nat := 0
  tickFlags : BitVec 7 := 0
  tickOldest : Oldest := {}
  /-- Mean of −a_x samples for DECEL: (monotonic instant, −a_x in 2⁻²⁴ m/s²), latest first; whether it is armed,
  and since when the mean stays below the threshold. -/
  decel : List (Nat × Int) := []
  decelArmed : Bool := true
  decelLow : Nat := 0
  /-- The generation of the correction entry written since the last update (R185). -/
  corrNew : Option Byte := none
deriving DecidableEq, Repr, Inhabited

/-! ## Grid, vote and outputs -/

/-- A vote group's registers (10). -/
structure Group where
  part : BitVec 3 := 0
  cons : Bool := false
  outlier : BitVec 5 := 0x1F
  dMax : Byte := 0
  hist : Vector Byte 5 := Vector.replicate 5 0
deriving DecidableEq, Repr, Inhabited

/-- GRD (10). Counters: VOTEOUT_CNT, REINSTATE_CNT, NO_CONS_CNT, LIFT_OUT, PT_OUT, PT_OVF. -/
structure Grd where
  front : Bool := false
  frontEmpty : Bool := true
  exchCnt : Word := 0
  frontIdx : BitVec 64 := 0
  votedOut : Word := 0
  cnt : Vector Word 6 := Vector.replicate 6 0
  groups : Vector Group 16 := Vector.replicate 16 {}
  clean : Vector (BitVec 10) 32 := Vector.replicate 32 0
  /-- Of the front grid: OLDEST, MASK and VOTE of its token, its validity stamp, its floors (R26, R207). -/
  oldest : Oldest := {}
  mask : Word := 0
  vote : Word := 0
  validity : BitVec 64 := 0
  floors : List (Option (BitVec 64)) := []
  /-- Points placed per (stream, cell) in the tick (R196). -/
  pillars : List (Nat × Nat × Nat) := []
deriving DecidableEq, Repr, Inhabited

/-- The routes of a frame: 0 PCIe, 1 card link, 2 to 5 MACs 0 to 3. -/
abbrev Route := Nat

/-- The frames of the tick that wait for their routes (R209). -/
structure Wait where
  chan : Channel
  route : Route
  flags : BitVec 16
  tick : BitVec 64
  validity : BitVec 64
  isEmpty : Bool
  isSafe : Bool
  oldest : Oldest
  mask : Word
  vote : Word
  floors : List (Option (BitVec 64))
deriving DecidableEq, Repr, Inhabited

/-- An output channel's registers and its card-link frame buffers (10, R265). -/
structure Chan where
  frames : Word := 0
  staleCnt : Word := 0
  safeCnt : Word := 0
  lastOut : BitVec 64 := 0
  lastAge : BitVec 64 := 0
  drops : Vector Word 6 := Vector.replicate 6 0
  /-- The card-link buffer that GRID_READ serves, its frame's tick and length; none before the first frame. -/
  clBuf : Option (Bool × BitVec 64 × Nat) := none
  /-- The first route of the tick has taken its stamp. -/
  stamped : Bool := false
deriving DecidableEq, Repr, Inhabited

/-- OUT (10). -/
structure Outb where
  a : Chan := {}
  b : Chan := {}
  waits : List Wait := []
deriving DecidableEq, Repr, Inhabited

/-! ## Archive -/

/-- A code word that is not BLANK (R214). -/
inductive ArcWord
  | prog (bytes : List Byte)
  | torn
deriving DecidableEq, Repr, Inhabited

/-- A sector header (R237). -/
structure SectorHdr where
  count : BitVec 24 := 0
  incomplete : Bool := false
deriving DecidableEq, Repr, Inhabited

/-- An open command sequence (R231, R232): how far it has come. -/
inductive SeqStep
  | key1 | key2 | cmd (code : Byte) | addr (code : Byte) (a : Nat) (data : List Word) (need : Nat)
deriving DecidableEq, Repr, Inhabited

/-- The open sequence's owner, step and the monotonic instants of its keys. -/
structure ArcSeq where
  src : Source
  step : SeqStep
  key1 : Nat
  key2 : Nat
deriving DecidableEq, Repr, Inhabited

/-- Who owns the operation on the array. -/
inductive ArcOwner | host (src : Source) | mailbox (src : Source) (tag : Byte) | device
deriving DecidableEq, Repr, Inhabited

/-- What a device operation does: the erase of a sector that had this header and held these words, a code word of a header, an entry or a
selector, or a run of code words at these addresses. -/
inductive DevWhat
  | erase (i : Nat) (hdr : SectorHdr) (words : List (Nat × ArcWord))
  | word
  | run (addrs : List Nat)
deriving DecidableEq, Repr, Inhabited

/-- A device operation on the array (R230): its bank, and the monotonic instants between which it runs. -/
structure DevOp where
  bank : Bool
  start : Nat
  stop : Nat
  what : DevWhat
deriving DecidableEq, Repr, Inhabited

/-- An erase, running or suspended (R237, R239). -/
structure ArcErase where
  owner : ArcOwner
  code : Byte
  bank : Bool
  index : Nat
  /-- Running time before the last resume, the monotonic instant of the last start or resume. -/
  runNs : Nat := 0
  since : Nat := 0
  suspended : Bool := false
  /-- The host's suspension is deferred; the suspension is a device agent's; the host's SUSPEND was taken. -/
  pendHost : Bool := false
  byDevice : Bool := false
  hostSusp : Bool := false
deriving DecidableEq, Repr, Inhabited

/-- A program of one code word, or a BLANK_CHECK or SWAP_BOOT, in progress. -/
structure ArcProg where
  owner : ArcOwner
  code : Byte
  addr : Nat
  data : List Byte := []
  /-- The monotonic instant of its start: the arbiter may delay it (R338). -/
  since : Nat := 0
deriving DecidableEq, Repr, Inhabited

/-- ARC (11 and 12). -/
structure Arc where
  /-- Code words that are not BLANK, by rising word number (address / 32). -/
  words : List (Nat × ArcWord) := []
  /-- Headers that are not in their factory value, by rising key (bank × 518 + index). -/
  hdrs : List (Nat × SectorHdr) := []
  base0 : BitVec 544 := BitVec.ofNat 544 (2 ^ 518 - 1)
  base1 : BitVec 544 := BitVec.ofNat 544 (2 ^ 518 - 1)
  over0 : BitVec 544 := 0
  over1 : BitVec 544 := 0
  locked : Bool := false
  seq : Option ArcSeq := none
  erase : Option ArcErase := none
  prog : Option ArcProg := none
  stat : Byte := 0
  echo : Byte := 0
  worn : Bool := false
  done : Bool := false
  eraseRunUs : Word := 0
  results : Vector Word 4 := Vector.replicate 4 0
  /-- PROG_CNT, ERASE_CNT, TWICE_CNT, KEY_ERR_CNT, PROT_CNT, SUSP_CNT, INCOMPLETE_CNT, WORN_CNT. -/
  cnt : Vector Word 8 := Vector.replicate 8 0
  seqBusy : Word := 0
  doneIntEn : Bool := false
  winPage : BitVec 3 := 0
  winLast : Byte := 0
  winTorn : Bool := false
  eccWarn : BitVec 2 := 2
  eccLast : BitVec 2 := 0
  eccMax : BitVec 2 := 0
  eccWarned : Bool := false
  eccUncorr : Bool := false
  warnCnt : Word := 0
  uncorrCnt : Word := 0
  warnAddr : BitVec 28 := 0
  uncorrAddr : BitVec 28 := 0
  winBusy : Word := 0
  winWrIgn : Word := 0
  warnIntEn : Bool := false
  selSeq : Word := 0
  selTwin : Bool := false
  selSector : Bool := false
  selWord : Byte := 0
  selDigest : Word := 0
  fw0 : Bool := false
  fw1 : Bool := false
  sBursts : Word := 0
  sPauses : Word := 0
  /-- Line 3 of channel W (R222): its base address, and the error counts of its two words as filled. -/
  line3 : Option (Nat × Nat × Nat) := none
  /-- Lines 0 to 2 of channel W (R222): the base addresses of the controller's lines, newest first. -/
  ctlLines : List Nat := []
  /-- Bit errors that the cells show (R214, R225), as the last command that reads the archive stated them. -/
  bitErrs : EccView := []
  /-- Numbers of the code words that fail when they are programmed (R236). -/
  weak : List Nat := []
  /-- The device operations that run or wait, in their order (R230), and the earliest monotonic instant at which a further one begins. -/
  dev : List DevOp := []
  devUntil : Nat := 0
deriving DecidableEq, Repr, Inhabited

/-! ## Card link -/

/-- A card-link request that waits or executes (R260), with the state code, AUX and verdict of its decoding (R59): the
status that it will be answered with unexecuted, if any. -/
structure CardReq where
  cmd : Byte
  tag : Byte
  address : Word
  payload : List Byte
  code : Byte
  aux : BitVec 16 := 0
  verdict : Option Byte := none
  /-- Its execution is known to have begun (R267). -/
  begun : Bool := false
deriving DecidableEq, Repr, Inhabited

/-- CRD (13). Counters: RX_FRAMES, TX_FRAMES, CRC_ERR, SYM_ERR, BAD_FRAME, BUSY_CNT, ABORT_CNT, LINK_DOWN. -/
structure Crd where
  intEn : Bool := false
  linkUp : Bool := false
  /-- LANE_OK. -/
  lanes : BitVec 2 := 0
  ejState : BitVec 2 := 0
  estMs : BitVec 16 := 0
  cnt : Vector Word 8 := Vector.replicate 8 0
  lastTag : Byte := 0
  lastStat : Byte := 0
  queue : List CardReq := []
deriving DecidableEq, Repr, Inhabited

/-! ## Vitrine -/

/-- VSTATE of R276. -/
inductive VState | disabled | preparing | ready | capture | commit | closing | full
deriving DecidableEq, Repr, Inhabited

/-- A trigger entry of a record (R277). -/
structure TrigEntry where
  cause : Byte
  flags : Byte
  detail : BitVec 16
  level : Byte
  tick : BitVec 64
  stamp : BitVec 64
  mono : BitVec 64
  /-- Origin tick of a fabric trigger (R274); its origin address is `detail`. -/
  origin : BitVec 64 := 0
  programmed : Bool := false
deriving DecidableEq, Repr, Inhabited

/-- A block of the ring: its slot, its tick and flags, and its place in the open record. -/
structure RingBlock where
  slot : Nat
  tick : BitVec 64
  flags : BitVec 16
  pos : Option Nat := none
deriving DecidableEq, Repr, Inhabited

/-- A position of the open record: its tick's low half, flags, GAP and COMMITTED. -/
structure RecPos where
  tick : BitVec 16
  flags : BitVec 7
  gap : Bool := false
  committed : Bool := false
deriving DecidableEq, Repr, Inhabited

/-- The open record (R276 to R278). -/
structure Record where
  seq : Word
  /-- First sector index, bank of the area. -/
  first : Nat
  bank : Bool
  preCount : Nat
  post : Nat
  positions : List RecPos := []
  /-- The position at which capture ends. -/
  endPos : Nat
  capturing : Bool := true
  openDone : Bool := false
  tick0 : BitVec 64 := 0
  trigs : List TrigEntry := []
  lost : Nat := 0
  /-- Next word of the block being committed, and sectors still to be erased ahead. -/
  nextWord : Nat := 0
  eraseLeft : Nat := 0
deriving DecidableEq, Repr, Inhabited

/-- INC (14). -/
structure Inc where
  intEn : Bool := false
  vstate : VState := .disabled
  hostStat : Byte := 0
  ringFill : Nat := 0
  preCount : Nat := 0
  recSeq : Word := 0
  positions : Nat := 0
  committed : Nat := 0
  lastCause : BitVec 4 := 0
  trigCount : Nat := 0
  records : Word := 0
  trigLost : Word := 0
  gapCnt : Word := 0
  sealCnt : Word := 0
  writePt : Nat := 0
  ring : List RingBlock := []
  record : Option Record := none
  /-- Sectors that PREPARING or FULL still has to erase. -/
  prepLeft : Nat := 0
deriving DecidableEq, Repr, Inhabited

/-! ## Turnstile -/

/-- A ledger entry before its words are formed (R286). -/
structure LedgerEntry where
  type : Byte
  flags : Byte
  period : BitVec 16
  stamp : BitVec 64
  elapsed : Word
  accs : List Word
  extra : List Byte := []
deriving DecidableEq, Repr, Inhabited

/-- LDG (15). -/
structure Ldg where
  intEn : Bool := false
  /-- LSTATE: 0 DISABLED, 1 RESUMING, 2 RUN, 3 FULL. -/
  lstate : BitVec 2 := 0
  endMissing : Bool := false
  appendStat : Byte := 0
  seq : Word := 0
  bnd : BitVec 64 := 0
  /-- The table and the PERIOD number of its first boundary. -/
  bounds : List Nat := []
  first : Nat := 0
  period : Option Nat := none
  elapsedNs : Nat := 0
  /-- Accrual of each feature in ns, in the open period; before any period, in `unperiodNs`. -/
  accNs : Vector Nat 16 := Vector.replicate 16 0
  unperiodNs : Nat := 0
  setbackSeen : Bool := false
  /-- The armed backstop, in ns of ELAPSED. -/
  backstop : Option Nat := none
  ackedSeq : Word := 0
  lost : Word := 0
  closeCnt : Word := 0
  skipCnt : Word := 0
  setbackCnt : Word := 0
  backstopCnt : Word := 0
  /-- Next code word of the LEDGER area (0 to 2,047), the MAC of the newest entry, its stamp. -/
  writePt : Nat := 0
  lastMac : BitVec 256 := 0
  lastStamp : BitVec 64 := 0
  ckptMono : Nat := 0
  queued : List LedgerEntry := []
  /-- The first time lock after the reset has been compared (R292). -/
  compared : Bool := false
  /-- STAMP of the last entry written before the reset (R292). -/
  resetStamp : Nat := 0
  /-- Monotonic instant up to which ELAPSED is kept (R285). -/
  elMono : Nat := 0
  /-- Highest SEQ whose words reach each sector of the area (R288). -/
  secSeq : Vector Nat 8 := Vector.replicate 8 0
deriving DecidableEq, Repr, Inhabited

/-! ## Fabric and agreement -/

/-- The payloads of fabric messages (R300, R320). -/
inductive FabMsg
  | hello (h : Hello)
  | lsa (l : Lsa)
  | addrAssign (serial : BitVec 64) (addr : BitVec 12)
  | role (mgr stby : BitVec 12) (devices : BitVec 16) (epoch : BitVec 64)
  | tick (t : TickMsg)
  | delayReq (t1 : BitVec 64)
  | delayResp (t1 t2 t3 : BitVec 64)
  | budget (applyIndex : BitVec 64) (budget classFloor : BitVec 16)
  | trigger (originTick : BitVec 64) (cause : Byte)
  | safe (tickIndex : BitVec 64) (cause : Byte)
  | data (seg : DataSeg)
  | reply (r : ReplyMsg)
  | joinReq (j : JoinReq)
  | joinAck (a : JoinAck)
  | report (r : ReportMsg)
  | verdict (cause action : Byte) (epoch : BitVec 64)
  | mgrClaim (c : Claim)
deriving DecidableEq, Repr, Inhabited

/-- A link frame as it leaves a port (R296): KIND (1 message, 2 acknowledge, 3 negative acknowledge), CLASS, LSEQ, ACK, the message, TAG and CRC. -/
structure LinkFrame where
  kind : BitVec 4
  time : Bool
  lseq : BitVec 12
  ack : BitVec 12
  body : Option (MsgHdr × FabMsg)
  tag : List Byte
  crc : Word
deriving DecidableEq, Repr, Inhabited

/-- A message that waits at an output port (R299). -/
structure OutMsg where
  port : Nat
  hdr : MsgHdr
  msg : FabMsg
deriving DecidableEq, Repr, Inhabited

/-- A message frame held until it is acknowledged (R298). -/
structure HeldFrame where
  lseq : BitVec 12
  hdr : MsgHdr
  msg : FabMsg
  replays : Nat := 0
deriving DecidableEq, Repr, Inhabited

/-- A fabric port (16). Counters: RX_FRAMES, TX_FRAMES, CRC_ERR, TAG_ERR, REPLAYS, LINK_DOWN, LINK_DROP, HELLO_RX. -/
structure Port where
  /-- PSTATE: 0 DOWN, 1 TRAINING, 2 KEYING, 3 UP, 4 REFUSED, 5 SPREAD_MISMATCH. -/
  pstate : BitVec 3 := 0
  nbAddr : BitVec 12 := 0xFFF
  nbPort : BitVec 2 := 0
  peerDelay : BitVec 16 := 0
  nbSerial : BitVec 64 := 0
  cnt : Vector Word 8 := Vector.replicate 8 0
  /-- The neighbour has appeared: its HELLO came with READY (R306). -/
  nbReady : Bool := false
  key : BitVec 256 := 0
  lseq : BitVec 12 := 0
  held : List HeldFrame := []
  /-- LSEQ of the next frame in order from the neighbour (R298). -/
  rxNext : BitVec 12 := 0
  helloMono : Nat := 0
  /-- The last eight measured delays and the T1 in flight (R312). -/
  delays : List Int := []
  t1 : Option (BitVec 64) := none
  /-- Monotonic instant of the last DELAY_REQ. -/
  delayMono : Nat := 0
deriving DecidableEq, Repr, Inhabited

/-- An LSA of the database (R306). -/
structure LsaRec where
  lsa : Lsa
  addr : BitVec 12
  mono : Nat
deriving DecidableEq, Repr, Inhabited

/-- What the manager keeps of a worker (R321, R323). -/
structure Member where
  addr : BitVec 12
  serial : BitVec 64 := 0
  /-- MSTATE: 1 admitted, 2 quarantined, 3 excluded. -/
  mstate : BitVec 2 := 0
  cause : BitVec 4 := 0
  offset : Word := 0
  /-- The digest last judged, as its JOIN_REQ named it, with that image's compatible list, and the prefix that R323 compares: a manager that has
  taken over knows the prefix alone, from the first report. -/
  digest : Option (BitVec 256) := none
  compat : List (BitVec 224) := []
  digestPrefix : Option Word := none
  /-- Index of the tick in which it was admitted: its reports are judged from the next one on. -/
  since : Option (BitVec 64) := none
  /-- The report of the tick in progress; ticks without a report; reports with another digest prefix. -/
  report : Option ReportMsg := none
  missing : Nat := 0
  prefixBad : Nat := 0
deriving DecidableEq, Repr, Inhabited

/-- An entry of the routing table (R308). -/
structure RouteEntry where
  addr : BitVec 12
  /-- 0 to 3 a port, 4 LOCAL. -/
  port : Nat
  hops : Nat
deriving DecidableEq, Repr, Inhabited

/-- A DATA message being assembled (R316). -/
structure Assembly where
  src : BitVec 12
  queue : Nat
  next : Nat
  nseg : Nat
  total : Nat
  entry : List Byte
  data : List Byte
deriving DecidableEq, Repr, Inhabited

/-- A BUDGET that waits for its boundary (R315). -/
structure FabBudget where
  index : BitVec 64
  budget : Nat
  classFloor : BitVec 2
deriving DecidableEq, Repr, Inhabited

/-- FAB (16 and 17). Counters: BAD_MSG, DUP_DROP, UNREACH_DROP, TTL_DROP, TICK_LATE, TICK_MISS, DATA_DROP,
ROUTE_UPD; agreement: JOIN_OK, JOIN_FAIL, QUAR_CNT, EXCLUDE_CNT, TAKEOVER_CNT, RESIGN_CNT, FENCED_DROP. -/
structure Fab where
  intEn : Bool := false
  /-- ROLE: 0 none, 1 worker, 2 standby, 3 manager, 4 candidate. -/
  role : BitVec 3 := 0
  settled : Bool := false
  dupAddr : Bool := false
  dupGone : Option Nat := none
  deep : Bool := false
  addr : BitVec 12 := 0xFFF
  mgr : BitVec 12 := 0xFFF
  stby : BitVec 12 := 0xFFF
  devices : BitVec 11 := 0
  hopsMgr : BitVec 6 := 0
  pathDelay : Word := 0
  cnt : Vector Word 8 := Vector.replicate 8 0
  routeSel : BitVec 12 := 0
  routePort : BitVec 3 := 7
  routeHops : BitVec 6 := 0
  ports : Vector Port 4 := Vector.replicate 4 {}
  /-- The database, the own LSA_SEQ and MSEQ, the instants of the last refresh and the last change. -/
  db : List LsaRec := []
  lsaSeq : Word := 0
  mseq : BitVec 16 := 0
  lsaMono : Nat := 0
  changeMono : Nat := 0
  helloMono : Nat := 0
  claimMono : Nat := 0
  /-- Since when the database has held neither manager nor standby (R328). -/
  lostMono : Option Nat := none
  routes : List RouteEntry := []
  /-- MSEQ last taken from each source (R307). -/
  seen : List (BitVec 12 × BitVec 16) := []
  /-- Assigned addresses by SERIAL (R304). -/
  assigned : List (BitVec 64 × BitVec 12) := []
  asm : List Assembly := []
  /-- BUDGETs that wait for their boundaries, in order of arrival (R315). -/
  budgets : List FabBudget := []
  /-- Messages that wait at the output ports, in order (R299). -/
  outq : List OutMsg := []
  /-- Agreement. -/
  cause : BitVec 4 := 0
  timeOk : Byte := 0
  /-- The same count from the first TICK of the present manager (R324). -/
  timeOkMgr : Byte := 0
  joined : Bool := false
  epoch : BitVec 64 := 0
  /-- The EPOCH before the present one, as R323 compares it. -/
  epochPrev : BitVec 64 := 0
  /-- Highest generation seen (R319). -/
  genSeen : Word := 0
  missConsec : Nat := 0
  acnt : Vector Word 7 := Vector.replicate 7 0
  memberSel : BitVec 10 := 0
  mstate : BitVec 2 := 0
  mcause : BitVec 4 := 0
  moffset : Word := 0
  members : List Member := []
  /-- The offset of the last TICK; JOIN_REQ already sent; the first boundary in ARMED is still to come. -/
  lastOffset : Int := 0
  joinSent : Bool := false
  joinAfterCommit : Bool := false
  joinMono : Nat := 0
  /-- EPOCH has changed, or a commit completed, since the quarantine (R324). -/
  rejoinOk : Bool := false
  /-- The manager is in SAFE, as its broadcast told (R324, MGR_SAFE). -/
  mgrSafe : Bool := false
  /-- Further misses after FREE_RUN were reported (R327). -/
  lossReported : Bool := false
  /-- The manager's digest, as its JOIN_ACK told (R90). -/
  mgrDigest : BitVec 256 := 0
  /-- The compatible list of that image (R318). -/
  mgrCompat : List (BitVec 224) := []
  /-- The standby takes office at its next boundary (R326, R329). -/
  officeDue : Bool := false
  /-- The manager's database has gained a device that no claim has followed yet (R330). -/
  claimDue : Bool := false
  /-- ROLE follows with the next periodic claim, for a device that has joined (R309). -/
  roleDue : Bool := false
  /-- A manager's claim was last heard (R309, R330). -/
  mgrHeard : Option Nat := none
  /-- Manager and standby have been lost for 350 ms, and no ROLE has come since (R328). -/
  orphan : Bool := false
  /-- The manager has handed its office to this standby (R329). -/
  handed : Bool := false
deriving DecidableEq, Repr, Inhabited

/-! ## Power and clocks -/

/-- PWR (18). Counters: ALERT_CNT, DENY_WIN_CNT, START_LIM_CNT, THERM_CNT, FAB_CLAMP_CNT. -/
structure Pwr where
  intEn : Bool := false
  setBudget : Nat := 0
  /-- A host write staged for the next boundary (R341). -/
  staged : Option Nat := none
  effective : Nat := 750
  alertPin : Bool := false
  /-- FLOOR is in force; it becomes so at the next window start (R340). -/
  alert : Bool := false
  alertDue : Bool := false
  therm : Bool := false
  fabOwned : Bool := false
  stat : Byte := 0
  classFloor : BitVec 2 := 2
  granted : BitVec 16 := 0
  demand : BitVec 16 := 0
  cnt : Vector Word 5 := Vector.replicate 5 0
  grants : BitVec 64 := 0
  fabAddr : BitVec 10 := 0
  fabStat : Byte := 0
  /-- The pointer of R337, the last window judged, the temperature last read. -/
  pointer : Nat := 0
  window : Nat := 0
  hottest : Int := 0
  /-- The core PLL relocks until this monotonic instant (R338). -/
  relockUntil : Nat := 0
  /-- Ticks since the manager last sent budgets (R344). -/
  budgetTicks : Nat := 0
deriving DecidableEq, Repr, Inhabited

/-- CLK (18). -/
structure Clk where
  lock : BitVec 7 := 0
  refclkOk : Bool := false
  coreMhz : Nat := 1000
  lolCnt : Word := 0
deriving DecidableEq, Repr, Inhabited

/-! ## Warden and conservator -/

/-- A fault record (R360). -/
structure FaultRec where
  det : Nat
  react : BitVec 3
  line : Bool := false
  esc : Bool := false
  active : Bool := false
  preArmed : Bool := false
  state : BitVec 4
  count : BitVec 12 := 1
  first : BitVec 64
  last : BitVec 64
  lastTick : BitVec 64
  detail : Word
  /-- False while a DEGRADE or SAFE recorded before ARMED waits to be judged again (R354); what was applied before it. -/
  judged : Bool := true
  applied : BitVec 3 := 0
deriving DecidableEq, Repr, Inhabited

/-- FLT (19). Counters: EVENTS, LINE_CNT, LOST, ESC_CNT, DEGRADE_CNT, SAFE_CNT. -/
structure Flt where
  intEn : Bool := false
  extPat : BitVec 2 := 0
  clrStat : Byte := 0
  active : BitVec 256 := 0
  line : BitVec 256 := 0
  cnt : Vector Word 6 := Vector.replicate 6 0
  recSel : BitVec 6 := 0
  recWords : Vector Word 8 := Vector.replicate 8 0
  mapSel : Byte := 0
  records : List FaultRec := []
  /-- (detector, boundary number) of the occurrences, for R358; boundaries since the reset. -/
  history : List (Nat × Nat) := []
  bounds : Nat := 0
  /-- Monotonic instant of the last toggle of the board's heartbeat (R368). -/
  hbMono : Nat := 0
  /-- Pulses of error that blocks have raised in the command in progress: detector and DETAIL, latest first. The
  warden takes them before the command ends, so the list is empty between commands. -/
  due : List (Nat × Word) := []
deriving DecidableEq, Repr, Inhabited

/-- Phases of a slice (R376). -/
inductive SlicePhase | idle | saving | testing | restoring
deriving DecidableEq, Repr, Inhabited

/-- A target of the rotation (R376, R378). -/
inductive Target | core (n : Nat) | grid (g : Nat) | stream (r : Nat) | analogue (a : Nat)
deriving DecidableEq, Repr, Inhabited

/-- The slice in progress: its target, start, the fixed latest end, and what SAVE copied. -/
structure Slice where
  target : Target
  startMono : Nat
  latestEnd : Nat
  late : Bool := false
  incomplete : Bool := false
deriving DecidableEq, Repr, Inhabited

/-- TST (20). Counters: SLICES_PASS, SLICES_FAIL, SKIP_ROOM, SKIP_BUSY, SKIP_BUDGET, SKIP_COND, INCOMPLETE_CNT,
LATE_CNT, SKIP_RUN_CNT, ROT_LATE_CNT. -/
structure Tst where
  intEn : Bool := false
  phase : SlicePhase := .idle
  slice : Option Slice := none
  saveOk : Bool := true
  lastResult : BitVec 2 := 0
  /-- The place, in the sequence of R378 with every core and region, from which the next target is looked for. -/
  rotPos : Nat := 0
  rotCount : Word := 0
  lastRotMs : BitVec 16 := 0
  cnt : Vector Word 10 := Vector.replicate 10 0
  remap : BitVec 20 := 0
  puCode : Byte := 0
  puIndex : Byte := 0
  puMs : BitVec 16 := 0
  marginWarn : Word := 0
  /-- A slice has started, or was skipped, in the tick; skipped ticks in a row; start of the rotation. -/
  tickDone : Bool := false
  skipRun : Nat := 0
  rotMono : Nat := 0
deriving DecidableEq, Repr, Inhabited

/-! ## Host interface and mailbox -/

/-- A ring (R395). -/
structure Ring where
  base : BitVec 64 := 0
  slots : BitVec 11 := 0
  slotKib : BitVec 16 := 0
  en : Bool := false
  stat : Byte := 0
  vec : BitVec 6 := 0
  head : BitVec 10 := 0
  tail : BitVec 10 := 0
  wb : BitVec 64 := 0
  frames : Word := 0
  fullDrop : Word := 0
  /-- A transfer is in progress; EN was cleared during it (R397). -/
  busy : Bool := false
  stopping : Bool := false
deriving DecidableEq, Repr, Inhabited

/-- An entry of the MSI-X table: address, data, mask. -/
structure MsixEntry where
  addr : BitVec 64 := 0
  data : Word := 0
  masked : Bool := true
deriving DecidableEq, Repr, Inhabited

/-- HST (21). Counters: UNMAPPED_RD, GW_WR_IGN, FLR_CNT, MBX_BUSY_CNT. -/
structure Hst where
  intEn : Bool := false
  linkUp : Bool := false
  speed : BitVec 3 := 0
  width : BitVec 3 := 0
  bme : Bool := false
  cnt : Vector Word 4 := Vector.replicate 4 0
  ringA : Ring := {}
  ringB : Ring := {}
  mbxStat : Byte := 0
  mbxIn : List (Nat × Word) := []
  msix : Vector MsixEntry 64 := Vector.replicate 64 {}
  msixPend : BitVec 64 := 0
deriving DecidableEq, Repr, Inhabited

/-- A mailbox message (R398). -/
structure MbxMsg where
  type : Byte
  tag : Byte
  status : Byte := 0
  payload : List Byte
deriving DecidableEq, Repr, Inhabited

/-- A request with the source it came from. -/
structure MbxReq where
  src : Source
  msg : MbxMsg
deriving DecidableEq, Repr, Inhabited

/-- The mailbox (R399): requests not yet taken in arrival order, the one being executed, replies by source. -/
structure Mbx where
  reqs : List MbxReq := []
  current : Option MbxReq := none
  outPcie : List MbxMsg := []
  outCard : List MbxMsg := []
deriving DecidableEq, Repr, Inhabited

/-! ## What leaves the device -/

/-- One thing that leaves the device. -/
inductive Out
  /-- Data of a register, window or peek read, to its source. -/
  | read (src : Source) (addr : Nat) (value : Word)
  | msix (vector : Nat)
  | cardResponse (bytes : List Byte)
  | frame (chan : Channel) (route : Route) (bytes : List Byte)
  | hostWrite (addr : BitVec 64) (bytes : List Byte)
  | tickOut (stamp : Nat)
  | ppsOut (stamp : Nat)
  /-- A link frame, with the stamp of its start (R299). -/
  | fabric (port : Nat) (stamp : BitVec 64) (frame : LinkFrame)
  /-- A peer delay request, or the answer to one with the stamp of its arrival, and the transmit stamp (R157, R159). -/
  | gptp (mac : Nat) (answers : Option Int) (stamp : Nat)
  | spiStart (unit : Nat) (cmd : List Byte)
  | canAck (ctl : Nat)
  /-- An error flag on the bus: active, or passive (R162). -/
  | canErrorFlag (ctl : Nat) (active : Bool)
  /-- A configuration request's completion; none for Configuration Request Retry Status (R70). -/
  | config (value : Option Word)
  | faultPair (p n : Bool)
  | scanChains
deriving DecidableEq, Repr, Inhabited

/-- The shadows of one source (R390): address of a companion register and its last copy. -/
structure Shadows where
  pcie : List (Nat × Word) := []
  card : List (Nat × Word) := []
deriving DecidableEq, Repr, Inhabited

/-- What stood before the first change of state of an instant, for what a lower state brought at that instant (R57). -/
structure Before where
  mono : Nat
  gctl : Gctl
  inc : Inc
  aln : Aln
  joinSent : Bool
deriving DecidableEq, Repr, Inhabited

/-- The state of the device. (DESIGN CHOICE, log 1) -/
structure State where
  otp : Otp := {}
  before : Option Before := none
  pins : Pins := {}
  gctl : Gctl := {}
  tim : Tim := {}
  tck : Tck := {}
  img : Img := {}
  sch : Sch := {}
  cvt : Cvt := {}
  cams : Vector Cam 8 := Vector.replicate 8 {}
  eths : Vector Eth 4 := Vector.replicate 4 {}
  cans : Vector Can 2 := Vector.replicate 2 {}
  spis : Vector Spi 2 := Vector.replicate 2 {}
  gpio : Gpio := {}
  aln : Aln := {}
  ego : Ego := {}
  grd : Grd := {}
  outb : Outb := {}
  arc : Arc := {}
  crd : Crd := {}
  inc : Inc := {}
  ldg : Ldg := {}
  fab : Fab := {}
  pwr : Pwr := {}
  clk : Clk := {}
  flt : Flt := {}
  tst : Tst := {}
  hst : Hst := {}
  mbx : Mbx := {}
  /-- The memories of R96. -/
  mem : Mem := []
  shadows : Shadows := {}
  /-- What has left the device, latest first. -/
  out : List Out := []
  /-- The model's own counter for free values (`Config`). -/
  freeCtr : Nat := 0
  /-- The commands that wait, first in, first out. -/
  pending : List Instr := []
deriving DecidableEq, Repr, Inhabited

/-- The device right after power-on reset: HOLD at t0 (R56). (DESIGN CHOICE, log 4; DEDUCED, log 16; DESIGN CHOICE, log 98) -/
def State.reset : State := {}

end Sys2Proof.Machine
end

