-- ==== Sys2Proof/Machine/Bits.lean ====
section
/-! DEFINITION. Helpers on bit fields, byte orders, tables of fixed length, status codes and state codes. -/
namespace Sys2Proof.Machine

/-! ## Tables of fixed length -/

/-- Entry `i` of a table; the type's default beyond its end. -/
def tget {α : Type} [Inhabited α] {n : Nat} (v : Vector α n) (i : Nat) : α := v.getD i default

/-- The table with entry `i` replaced; unchanged beyond its end. -/
def tset {α : Type} {n : Nat} (v : Vector α n) (i : Nat) (a : α) : Vector α n := v.setIfInBounds i a

/-- The table with entry `i` passed through `f`. -/
def tmod {α : Type} [Inhabited α] {n : Nat} (v : Vector α n) (i : Nat) (f : α → α) : Vector α n :=
  v.setIfInBounds i (f (tget v i))

/-- Counter `i` of a table of counters, incremented and saturating. -/
def tinc {k n : Nat} (v : Vector (BitVec k) n) (i : Nat) : Vector (BitVec k) n := tmod v i satInc

/-! ## Words and fields -/

/-- The field of `width` bits from bit `lo` of a natural number. -/
def field (v lo width : Nat) : Nat := v / 2 ^ lo % 2 ^ width

/-- One bit of a natural number. -/
def bitOf (v i : Nat) : Bool := v.testBit i

/-- A signed field: two's complement of `width` bits. -/
def toSigned (v width : Nat) : Int := if v % 2 ^ width < 2 ^ (width - 1) then (v % 2 ^ width : Nat) else (v % 2 ^ width : Nat) - 2 ^ width

/-- An integer as `n` bits, two's complement. -/
def ofSigned (n : Nat) (v : Int) : BitVec n := BitVec.ofInt n v

/-- An integer as a signed field of `n` bits, saturating (R118). -/
def clampSigned (n : Nat) (v : Int) : Int := max (-(2 ^ (n - 1) : Int)) (min (2 ^ (n - 1) - 1 : Int) v)

/-- A field to be placed in a word: low bit, width, value. -/
abbrev Fld := Nat × Nat × Nat

/-- A word put together from its fields; unlisted bits read 0. -/
def pack (fs : List Fld) : Word := BitVec.ofNat 32 (fs.foldl (fun w f => w ||| ((f.2.2 % 2 ^ f.2.1) <<< f.1)) 0)

/-- A flag as a field value. -/
def b2n (b : Bool) : Nat := if b then 1 else 0

/-- Low and high halves of a 64-bit value (R10). -/
def lo32 (v : BitVec 64) : Word := v.setWidth 32
def hi32 (v : BitVec 64) : Word := (v >>> 32).setWidth 32

/-- A natural number as a stamp register, 64 bits (R36). -/
def w64 (n : Nat) : BitVec 64 := BitVec.ofNat 64 n

/-- OLDEST of all ones: no sensor sample contributed (R105). -/
def noStamp : BitVec 64 := BitVec.allOnes 64

/-- The older of two contributions. -/
def Oldest.min (a b : Oldest) : Oldest := if b.stamp.toNat < a.stamp.toNat then b else a

/-- Division rounding up. -/
def ceilDiv (a b : Nat) : Nat := (a + b - 1) / b

/-! ## Bytes -/

/-- The `k` bytes of a number, little-endian (R72, R258). -/
def leBytes : Nat → Nat → List Byte
  | 0, _ => []
  | k + 1, v => BitVec.ofNat 8 v :: leBytes k (v / 256)

/-- A number from its bytes, little-endian. -/
def ofLe : List Byte → Nat
  | [] => 0
  | b :: bs => b.toNat + 256 * ofLe bs

/-- The `k` bytes of a number, big-endian. -/
def beBytes (k v : Nat) : List Byte := (leBytes k v).reverse

/-- A number from its bytes, big-endian. -/
def ofBe (bs : List Byte) : Nat := ofLe bs.reverse

/-- The 32-bit words of a byte list, little-endian. -/
def wordsOf : List Byte → List Word
  | a :: b :: c :: d :: rest => BitVec.ofNat 32 (ofLe [a, b, c, d]) :: wordsOf rest
  | _ => []

/-- The bytes of a list of words, little-endian. -/
def bytesOf (ws : List Word) : List Byte := ws.flatMap (fun w => leBytes 4 w.toNat)

/-- `n` zero bytes. -/
def zeros (n : Nat) : List Byte := List.replicate n 0

/-- A list cut or padded with zeros to `n` bytes. -/
def fitBytes (n : Nat) (bs : List Byte) : List Byte := (bs.take n) ++ zeros (n - bs.length)

/-- A 64-bit value at a byte offset. -/
def at64 (bs : List Byte) (o : Nat) : Nat := ofLe ((bs.drop o).take 8)
def at32 (bs : List Byte) (o : Nat) : Nat := ofLe ((bs.drop o).take 4)
def at16 (bs : List Byte) (o : Nat) : Nat := ofLe ((bs.drop o).take 2)
def at8 (bs : List Byte) (o : Nat) : Nat := ofLe ((bs.drop o).take 1)

/-! ## Codes -/

/-- The shared status codes of R6. -/
abbrev stOk : Byte := 0x00
abbrev stBusy : Byte := 0x01
abbrev stNotInState : Byte := 0x02
abbrev stBadArg : Byte := 0x03
abbrev stProtected : Byte := 0x04
abbrev stKeyError : Byte := 0x05
abbrev stCrcError : Byte := 0x06
abbrev stDigestMismatch : Byte := 0x07
abbrev stTimeout : Byte := 0x08
abbrev stAborted : Byte := 0x09
abbrev stNotPresent : Byte := 0x0A
abbrev stProgramTwice : Byte := 0x0B
abbrev stSuspendDeferred : Byte := 0x0C
abbrev stAuthFail : Byte := 0x0D
abbrev stBudgetDenied : Byte := 0x0E
abbrev stFenced : Byte := 0x0F

/-- The refusal pattern of a read (R11). -/
def refusal (st : Byte) : Word := 0xFFFFFF00 ||| st.setWidth 32

/-- The state codes of R8. -/
def Mode.code : Mode → BitVec 4
  | .off => 0 | .hold => 1 | .selftest => 2 | .load => 3 | .armed => 4 | .run => 5 | .degraded => 6
  | .safe => 7 | .maint => 8 | .removal => 9 | .quarantine => 0xA

/-- The order of R57, highest first: a smaller rank stands above. -/
def Mode.rank : Mode → Nat
  | .off => 0 | .removal => 1 | .hold => 2 | .safe => 3 | .maint => 4 | .quarantine => 5 | .degraded => 6
  | .armed => 7 | .run => 8 | .load => 9 | .selftest => 10

/-- LR_SOURCE of GCTL_LAST_REJECT (R59). -/
def srcCode : Source → Nat
  | .pcie => 0 | .card => 1 | .mailbox => 2 | .fabric => 3

/-- The tick-source codes of TCK_CTL.SRC. -/
abbrev srcInternal : BitVec 2 := 0
abbrev srcTickIn : BitVec 2 := 1
abbrev srcFabric : BitVec 2 := 2

/-- The discipline codes of TIM_CTL.DISC (R40). -/
abbrev discFree : BitVec 2 := 0
abbrev discGptp : BitVec 2 := 1
abbrev discPps : BitVec 2 := 2
abbrev discFabric : BitVec 2 := 3

/-- ROLE of FAB_STAT. -/
abbrev roleNone : BitVec 3 := 0
abbrev roleWorker : BitVec 3 := 1
abbrev roleStandby : BitVec 3 := 2
abbrev roleManager : BitVec 3 := 3

/-- Agreement causes (R320). -/
abbrev acFirmware : BitVec 4 := 1
abbrev acDigest : BitVec 4 := 2
abbrev acTime : BitVec 4 := 3
abbrev acEpoch : BitVec 4 := 4
abbrev acState : BitVec 4 := 5
abbrev acLost : BitVec 4 := 6
abbrev acMerge : BitVec 4 := 7
abbrev acMgrSafe : BitVec 4 := 8

/-- The smallest number of a list, `d` when it is empty. -/
def minOf (d : Nat) (l : List Nat) : Nat := l.foldl min d

/-- `f` folded over 0, 1, …, `n` − 1. -/
def iter (n : Nat) {α : Type} (a : α) (f : α → Nat → α) : α := (List.range n).foldl f a

end Sys2Proof.Machine
end

