-- ==== Sys2Proof/Machine/Crypto.lean ====
section
/-! DEFINITION. The checks that the rules name by their standards: IEEE 802.3 CRC-32 (R205, R258, R296), SHA-256
(R77), HMAC-SHA-256 (R277, R287, R297) and ECDSA over P-256 (R77, R78). -/
namespace Sys2Proof.Machine

/-! ## CRC-32 -/

def crcBit (c : Word) : Word := if c.getLsbD 0 then (c >>> 1) ^^^ 0xEDB88320 else c >>> 1

def crcByte (c : Word) (b : Byte) : Word :=
  let x := c ^^^ b.setWidth 32
  crcBit (crcBit (crcBit (crcBit (crcBit (crcBit (crcBit (crcBit x)))))))

/-- The IEEE 802.3 CRC-32 of a byte string. (PRESUMED, log 11) -/
def crc32 (bs : List Byte) : Word := ~~~(bs.foldl crcByte 0xFFFFFFFF)

/-! ## SHA-256 -/

/-- The low 32 bits of a number; the words of a digest are held as numbers. -/
def low32 (n : Nat) : Nat := n % 0x100000000

/-- Word `i` of a table of 32-bit words written as one number, word 0 in the least significant place. -/
def tableWord (table i : Nat) : Nat := low32 (table >>> (32 * i))

/-- The word added in round t: the first 32 fraction bits of the cube root of the prime number t. -/
def shaAddends : Nat :=
  0xc67178f2bef9a3f7a4506ceb90befffa8cc7020884c8781478a5636f748f82ee682e6ff35b9cca4f4ed8aa4a391c0cb334b0bcb52748774c1e376c0819a4c116106aa070f40e3585d6990624d192e819c76c51a3c24b8b70a81a664ba2bfe8a192722c8581c2c92e766a0abb650a735453380d134d2c6dfc2e1b213827b70a851429296706ca6351d5a79147c6e00bf3bf597fc7b00327c8a831c66d983e515276f988da5cb0a9dc4a7484aa2de92c6f240ca1cc0fc19dc6efbe4786e49b69c1c19bf1749bdc06a780deb1fe72be5d74550c7dc3243185be12835b01d807aa98ab1c5ed5923f82a459f111f13956c25be9b5dba5b5c0fbcf71374491428a2f98

/-- The words that hashing begins with: the first 32 fraction bits of the square roots of the first eight primes. -/
def shaSeed : List Nat := (List.range 8).map (tableWord 0x5be0cd191f83d9ab9b05688c510e527fa54ff53a3c6ef372bb67ae856a09e667)

/-- The exclusive or of a word's rotations to the right: a rotation is a piece of the word written twice. -/
def spin (by' : List Nat) (w : Nat) : Nat := low32 (by'.foldl (fun x n => x ^^^ (w * 0x100000001) >>> n) 0)

/-- The message schedule, newest word first: `k` more words. -/
def shaGrow : Nat → List Nat → List Nat
  | 0, ws => ws
  | k + 1, ws =>
    let back (n : Nat) : Nat := ws.getD (n - 1) 0
    let mixed := back 16 + back 7 + (spin [7, 18] (back 15) ^^^ (back 15 >>> 3)) + (spin [17, 19] (back 2) ^^^ (back 2 >>> 10))
    shaGrow k (low32 mixed :: ws)

/-- One round on the eight working words, with the round's addend and message word summed. -/
def shaTurn (work : List Nat) (kw : Nat) : List Nat :=
  match work with
  | [a, b, c, d, e, f, g, h] =>
    let pick := g ^^^ (e &&& (f ^^^ g))
    let vote := (a &&& b) ||| (c &&& (a ||| b))
    let t := kw + h + pick + spin [6, 11, 25] e
    [low32 (t + vote + spin [2, 13, 22] a), a, b, c, low32 (d + t), e, f, g]
  | _ => work

/-- Big-endian words of a block. -/
def beWords : List Byte → List Nat
  | a :: b :: c :: d :: rest => ofBe [a, b, c, d] :: beWords rest
  | _ => []

/-- The eight words after one more block of 64 bytes. -/
def shaBlock (acc : List Nat) (block : List Byte) : List Nat :=
  let schedule := (shaGrow 48 (beWords block).reverse).reverse
  let work := schedule.zipIdx.foldl (fun w e => shaTurn w (e.1 + tableWord shaAddends e.2)) acc
  List.zipWith (fun x y => low32 (x + y)) acc work

/-- `n` blocks of 64 bytes. -/
def shaBlocks : Nat → List Nat → List Byte → List Nat
  | 0, acc, _ => acc
  | n + 1, acc, bs => shaBlocks n (shaBlock acc (bs.take 64)) (bs.drop 64)

/-- The padded message. -/
def shaPad (bs : List Byte) : List Byte :=
  bs ++ [0x80] ++ zeros ((119 - bs.length % 64) % 64) ++ beBytes 8 (8 * bs.length)

/-- SHA-256 as 32 bytes. (PRESUMED, log 11) -/
def sha256 (bs : List Byte) : List Byte :=
  let p := shaPad bs
  (shaBlocks (p.length / 64) shaSeed p).flatMap (beBytes 4)

/-- A digest with byte 0 in the most significant place. -/
def digestOf (bs : List Byte) : BitVec 256 := BitVec.ofNat 256 (ofBe bs)

/-- The 32 bytes of such a digest. -/
def digestBytes (d : BitVec 256) : List Byte := beBytes 32 d.toNat

/-- HMAC-SHA-256 under a 256-bit key. (PRESUMED, log 11) -/
def hmac (key : BitVec 256) (msg : List Byte) : List Byte :=
  let k := fitBytes 64 (digestBytes key)
  sha256 (k.map (fun b => b ^^^ 0x5c) ++ sha256 (k.map (fun b => b ^^^ 0x36) ++ msg))

/-- The first 4 bytes of a digest as a little-endian word (R77, R218). -/
def digestPrefixOf (d : BitVec 256) : Word := BitVec.ofNat 32 (ofLe ((digestBytes d).take 4))

/-- Word i of a digest, little-endian (IMG_RUN_DIGEST). -/
def digestWord (d : BitVec 256) (i : Nat) : Word := BitVec.ofNat 32 (at32 (digestBytes d) (4 * i))

/-- The first 28 bytes of a digest (R317). -/
def digest28 (d : BitVec 256) : BitVec 224 := BitVec.ofNat 224 (ofBe ((digestBytes d).take 28))

/-! ## ECDSA P-256 -/

def p256P : Nat := 0xffffffff00000001000000000000000000000000ffffffffffffffffffffffff
def p256N : Nat := 0xffffffff00000000ffffffffffffffffbce6faada7179e84f3b9cac2fc632551
def p256B : Nat := 0x5ac635d8aa3a93e7b3ebbd55769886bc651d06b0cc53b0f63bce3c3e27d2604b
def p256G : Nat × Nat :=
  (0x6b17d1f2e12c4247f8bce6e563a440f277037d812deb33a0f4a13945d898c296,
   0x4fe342e2fe1a7f9b8ee7eb4a7c0f9e162bce33576b315ececbb6406837bf51f5)

/-- `b ^ e mod m` over the `k` low bits of `e`. -/
def powMod (m : Nat) : Nat → Nat → Nat → Nat
  | 0, _, _ => 1 % m
  | k + 1, b, e =>
    let r := powMod m k (b * b % m) (e / 2)
    if e % 2 = 1 then b * r % m else r

/-- The inverse modulo a prime. -/
def invMod (m a : Nat) : Nat := powMod m 256 (a % m) (m - 2)

/-- Addition on the curve; none is the point at infinity. -/
def p256Add : Option (Nat × Nat) → Option (Nat × Nat) → Option (Nat × Nat)
  | none, q => q
  | p, none => p
  | some (x1, y1), some (x2, y2) =>
    if x1 = x2 ∧ (y1 + y2) % p256P = 0 then none
    else
      let l :=
        if x1 = x2 then (3 * x1 * x1 + (p256P - 3)) * invMod p256P (2 * y1) % p256P
        else (y2 + p256P - y1) * invMod p256P (x2 + p256P - x1) % p256P
      let x3 := (l * l + 2 * p256P - x1 - x2) % p256P
      some (x3, (l * (x1 + p256P - x3) + p256P - y1) % p256P)

/-- Scalar multiple over the `k` low bits of `e`. -/
def p256Mul : Nat → Option (Nat × Nat) → Nat → Option (Nat × Nat)
  | 0, _, _ => none
  | k + 1, p, e =>
    let r := p256Mul k (p256Add p p) (e / 2)
    if e % 2 = 1 then p256Add p r else r

/-- A point of the curve, not at infinity. -/
def p256On (x y : Nat) : Bool :=
  x < p256P && y < p256P && decide (y * y % p256P = (x * x * x + (p256P - 3) * x + p256B) % p256P)

/-- ECDSA verification of a digest under a public key. (PRESUMED, log 11) -/
def ecdsaVerify (x y r s : Nat) (dig : BitVec 256) : Bool :=
  p256On x y && (1 ≤ r && r < p256N) && (1 ≤ s && s < p256N) &&
    (let w := invMod p256N s
     let u1 := dig.toNat * w % p256N
     let u2 := r * w % p256N
     match p256Add (p256Mul 256 (some p256G) u1) (p256Mul 256 (some (x, y)) u2) with
     | none => false
     | some (px, _) => px % p256N = r)

end Sys2Proof.Machine
end

