-- ==== Sys2Proof/Machine/Memory.lean ====
section
/-! DEFINITION. The memories of R96 as one canonical list of cells, and the operations on it. An unlisted
address reads 0: every reset clears all SRAM and stream memory (R62). -/
namespace Sys2Proof.Machine

/-- Strictly rising addresses from `lo` on, and no cell equal to what an unlisted address reads as. -/
def Memory.wfFrom : Nat → Mem → Bool
  | _, [] => true
  | lo, (a, b) :: m => decide (lo ≤ a) && decide (b ≠ 0) && Memory.wfFrom (a + 1) m

/-- The canonical form. -/
def Memory.wf (m : Mem) : Bool := Memory.wfFrom 0 m

/-- What an address reads as when no cell lists it. (DEDUCED, log 22) -/
def Memory.blank : Byte := 0

/-- Reads one byte. -/
def Memory.get : Mem → Nat → Byte
  | [], _ => Memory.blank
  | (a, b) :: m, x => if x = a then b else Memory.get m x

/-- Writes one byte and keeps the canonical form. -/
def Memory.put : Mem → Nat → Byte → Mem
  | [], x, v => if v = 0 then [] else [(x, v)]
  | (a, b) :: m, x, v =>
    if x < a then (if v = 0 then (a, b) :: m else (x, v) :: (a, b) :: m)
    else if x = a then (if v = 0 then m else (x, v) :: m)
    else (a, b) :: Memory.put m x v

/-- Reads `n` bytes from an address upward. -/
def Memory.read (m : Mem) (x n : Nat) : List Byte := (List.range n).map (fun i => Memory.get m (x + i))

/-- Writes bytes from an address upward, in ascending order. -/
def Memory.write : Mem → Nat → List Byte → Mem
  | m, _, [] => m
  | m, x, b :: bs => Memory.write (Memory.put m x b) (x + 1) bs

/-- Clears `n` bytes from an address upward. -/
def Memory.clear (m : Mem) (x n : Nat) : Mem := m.filter (fun c => c.1 < x || x + n ≤ c.1)

/-- A 32-bit little-endian read. -/
def Memory.read32 (m : Mem) (x : Nat) : Word := BitVec.ofNat 32 (ofLe (Memory.read m x 4))

/-! ## The internal map (R96) -/

abbrev gridBase : Nat := 0x20000000
abbrev gridSize : Nat := 0x2000000
abbrev streamBase : Nat := 0x40000000
abbrev streamSize : Nat := 0x800000
abbrev saveBase : Nat := 0x40600000
abbrev coreSize : Nat := 0x200000

/-- The internal address of core n's local SRAM. -/
def coreBase (n : Nat) : Nat := 0x80000000 + n * coreSize

/-- A range lies inside grid memory. -/
def inGrid (a n : Nat) : Bool := gridBase ≤ a && a + n ≤ gridBase + gridSize

/-- A range lies inside stream memory, the self-test save area left free. -/
def inStream (a n : Nat) : Bool := streamBase ≤ a && a + n ≤ saveBase

/-- A range lies inside the local SRAM of one core that `mask` names. -/
def inCores (mask a n : Nat) : Bool :=
  0x80000000 ≤ a &&
    (let c := (a - 0x80000000) / coreSize
     c < 48 && mask.testBit c && a + n ≤ coreBase c + coreSize)

/-! ## The archive's words and headers, in the same canonical style -/

/-- Looks a key up. -/
def alookup {α : Type} (d : α) : List (Nat × α) → Nat → α
  | [], _ => d
  | (k, v) :: l, x => if x = k then v else alookup d l x

/-- Sets a key and keeps the list rising, with no entry equal to the default. -/
def aset {α : Type} [DecidableEq α] (d : α) : List (Nat × α) → Nat → α → List (Nat × α)
  | [], x, v => if v = d then [] else [(x, v)]
  | (k, w) :: l, x, v =>
    if x < k then (if v = d then (k, w) :: l else (x, v) :: (k, w) :: l)
    else if x = k then (if v = d then l else (x, v) :: l)
    else (k, w) :: aset d l x v

end Sys2Proof.Machine
end

