-- ==== Sys2Proof/Machine/Image.lean ====
section
/-! DEFINITION. Reading a Fenor image: the structure header, the directory and every section, as they stand in
the bytes of a boot twin (R72 to R82 and the chapter of each section). `ImageCheck.lean` judges what is read here. -/
namespace Sys2Proof.Machine

/-- A field of a section: `width` bits from bit `lo` of the word at byte offset `o`. -/
def bits (sec : List Byte) (o lo width : Nat) : Nat := field (at32 sec o) lo width

/-- One bit of a section. -/
def flagAt (sec : List Byte) (o lo : Nat) : Bool := bits sec o lo 1 = 1

/-- A signed field of a section. -/
def sbits (sec : List Byte) (o lo width : Nat) : Int := toSigned (bits sec o lo width) width

/-- `len` bytes of a section from offset `o`. (DESIGN CHOICE, log 35) -/
def part (sec : List Byte) (o len : Nat) : List Byte := (sec.drop o).take len

/-! ## Header and directory -/

/-- A directory entry (R73). -/
structure DirEntry where
  type : Nat
  mandatory : Bool
  resv : Bool
  offset : Nat
  length : Nat
deriving DecidableEq, Repr, Inhabited

def dirCount (b : List Byte) : Nat := bits b 0x04 16 16

/-- DESIGN CHOICE, log 35. -/
def readDir (b : List Byte) : List DirEntry :=
  (List.range (dirCount b)).map (fun i =>
    let o := 0x20 + 16 * i
    { type := bits b o 0 16, mandatory := flagAt b o 16,
      resv := (bits b o 17 15 = 0 && at32 b (o + 12) = 0 : Bool), offset := at32 b (o + 4), length := at32 b (o + 8) })

/-- The bytes of the section of a type; none where the image has none. -/
def sectionOf (b : List Byte) (t : Nat) : Option (List Byte) :=
  ((readDir b).find? (fun e => e.type = t)).map (fun e => part b e.offset e.length)

/-- The header of the image; the digest covers all but the last 64 bytes (R77). -/
def readHeader (b : List Byte) : ImgHeader :=
  let len := at32 b 0x08
  { structLen := len, imageVer := at32 b 0x0C, secVer := bits b 0x10 0 16, keyIdx := bits b 0x10 16 8,
    dev := flagAt b 0x10 24, digest := digestOf (sha256 (b.take (len - 64))) }

/-! ## Sections -/

def readSku (s : List Byte) : Sku :=
  { variantMask := at8 s 0, formMask := at8 s 1, minStep := at8 s 2, coreMask := ofLe (part s 4 6) }

def readTick (s : List Byte) : TickSec :=
  { period := bits s 0 0 17, gather := bits s 4 0 17, emit := bits s 8 0 17, quiet := bits s 0xC 0 17,
    phaseOfs := bits s 0x10 0 17, ovrLimit := bits s 0x14 0 8, recover := bits s 0x14 8 8,
    inTol := bits s 0x14 16 7, srcAllow := bits s 0x14 24 3, fallback := bits s 0x14 27 2,
    initSrc := bits s 0x18 0 2, mgrSrc := bits s 0x18 2 2, freeRunOk := flagAt s 0x18 4, armTimeout := bits s 0x18 16 16 }

def readTime (s : List Byte) : TimeSec :=
  { discAllow := bits s 0 0 4, initDisc := bits s 0 4 2, timeclk25 := flagAt s 0 6, gptpPort := bits s 0 8 2,
    stepThr := bits s 4 0 20, lockThr := bits s 8 0 14, holdLim := bits s 8 16 12, ppsWin := bits s 0xC 0 19,
    slewRate := bits s 0x10 0 9, ppsWidth := bits s 0x10 16 9 }

def readStream (s : List Byte) : StreamDecl :=
  { decl := at32 s 0, stream := bits s 0 0 5, kind := bits s 0 5 2, gather := flagAt s 0 7, toEgo := flagAt s 0 8,
    confScale := bits s 0 16 8, period := bits s 4 0 18, window := bits s 8 0 18, limit := bits s 0xC 0 17,
    jitter := bits s 0x10 0 17, cover := bits s 0x14 0 16, slot := bits s 0x14 16 13, compRing := at32 s 0x18 }

def readStreams (s : List Byte) : StreamsSec :=
  { gatherSlot := bits s 4 0 13, streams := (List.range (bits s 0 0 6)).map (fun i => readStream (part s (16 + 32 * i) 32)) }

def readBinding (s : List Byte) : CamBinding :=
  { stream := bits s 0 0 5, vc := bits s 0 5 2, dt := bits s 0 8 6, bound := flagAt s 0 14, width := bits s 0 16 13,
    height := bits s 4 0 14, lineErrMax := bits s 4 16 8, capAdj := sbits s 8 0 32, lringPage := bits s 0xC 0 11,
    lringLines := bits s 0xC 16 11 }

def readMatch (s : List Byte) : MatchEntry :=
  { words := (List.range 8).map (fun i => at32 s (4 * i)), stream := bits s 0 0 5, valid := flagAt s 0 5,
    mVlan := flagAt s 0 6, mUntag := flagAt s 0 7, mEtype := flagAt s 0 8, mSmac := flagAt s 0 9,
    mIpDst := flagAt s 0 10, mUdp := flagAt s 0 11, capFmt := bits s 0 12 2, vlanId := bits s 0 16 12,
    smac := ofLe (part s 4 6), etherType := bits s 8 16 16, ipDst := at32 s 0xC, udpDst := bits s 0x10 0 16,
    capOfs := bits s 0x10 16 11 }

def readFilter (s : List Byte) : CanFilter :=
  { id := bits s 0 0 29, ide := flagAt s 0 29, valid := flagAt s 0 31, mask := bits s 4 0 29, stream := bits s 8 0 5 }

def readPorts (s : List Byte) : PortsSec :=
  { gpioDir := bits s 4 0 16, gpioOd := bits s 4 16 16, incTrig := flagAt s 8 0, filtTickIn := bits s 0xC 0 5,
    filtPpsIn := bits s 0xC 8 5, filtDrdy := [bits s 0xC 16 5, bits s 0xC 24 5],
    filtGpio := (List.range 16).map (fun n => at8 s (0x10 + n) % 32),
    cams := (List.range 8).map (fun r =>
      let p := part s (0x20 + 80 * r) 80
      { en := flagAt s 0 r, lanes := bits p 0 0 3, rate := bits p 0 4 12,
        bindings := (List.range 4).map (fun b => readBinding (part p (0x10 + 16 * b) 16)) }),
    eths := (List.range 4).map (fun i =>
      let p := part s (0x2A0 + 1040 * i) 1040
      { en := flagAt s 0 (8 + i), rxLat := bits p 0 0 11, txLat := bits p 0 16 11, ownMac := ofLe (part p 4 6),
        entries := (List.range 32).map (fun e => readMatch (part p (0x10 + 32 * e) 32)) }),
    cans := (List.range 2).map (fun c =>
      let p := part s (0x12E0 + 1040 * c) 1040
      { en := flagAt s 0 (12 + c), restricted := flagAt p 0 0, busoffRec := flagAt p 0 1,
        nominal := [bits p 4 0 8, bits p 4 8 8, bits p 4 16 7, bits p 4 24 7],
        dataPhase := [bits p 8 0 5, bits p 8 8 5, bits p 8 16 4, bits p 8 24 4],
        tdco := bits p 0xC 0 7, tdcEn := flagAt p 0xC 8,
        filters := (List.range 64).map (fun f => readFilter (part p (0x10 + 16 * f) 16)) }),
    spis := (List.range 2).map (fun u =>
      let p := part s (0x1B00 + 32 * u) 32
      { en := flagAt s 0 (14 + u), mode3 := flagAt p 0 0, div := bits p 0 1 8, drdyFall := flagAt p 0 9,
        cmdLen := bits p 4 0 4, readLen := bits p 4 8 7, drdyTo := bits p 4 16 8, stream := bits p 4 24 5,
        cmd := part p 8 8 }) }

def readEgo (s : List Byte) : EgoSec :=
  { imu := [bits s 0 0 5, bits s 0 8 5], imuBe := flagAt s 0 13, imuOfs := bits s 0 16 8, axisMap := bits s 4 0 18,
    gyroLsb := at32 s 8, accLsb := at32 s 0xC,
    sigs := (List.range 5).map (fun i =>
      let o := 0x10 + 8 * i
      { id := bits s o 0 29, ide := flagAt s o 29, used := flagAt s o 31, start := bits s (o + 4) 0 9,
        len := bits s (o + 4) 9 6, signed := flagAt s (o + 4) 15, bigEndian := flagAt s (o + 4) 16,
        stream := bits s (o + 4) 17 5, scale := sbits s (0x38 + 4 * i) 0 32 }),
    wheelbase := bits s 0x4C 0 16, steerRatio := bits s 0x4C 16 16, slipThr := bits s 0x50 0 8,
    wheelTo := bits s 0x50 8 8, drMax := bits s 0x50 16 16, extrapMax := bits s 0x54 0 14, tau := bits s 0x54 16 16,
    sumSlot := bits s 0x58 0 13, corrSlot := bits s 0x58 16 13, gbStep := sbits s 0x5C 0 32, abStep := sbits s 0x60 0 32,
    scStep := at32 s 0x64 }

def readGrid (s : List Byte) : GridSec :=
  let nl := bits s 0x18 0 6
  { x := bits s 0 0 10, y := bits s 0 16 10, cellMm := bits s 4 0 11, c := bits s 4 16 7, originX := bits s 8 0 10,
    originY := bits s 8 16 10, buf0 := at32 s 0xC, buf1 := at32 s 0x10, featSlot := bits s 0x14 0 13,
    lifts := (List.range nl).map (fun i =>
      let o := 0x20 + 8 * i
      { stream := bits s o 0 5, tableId := bits s o 16 16 }),
    pillars := (List.range (bits s 0x18 8 6)).map (fun i =>
      let o := 0x20 + 8 * nl + 8 * i
      { stream := bits s o 0 5, maxPts := bits s o 8 7, zMin := sbits s (o + 4) 0 16, zMax := sbits s (o + 4) 16 16 }) }

def readTask (s : List Byte) : TaskDesc :=
  { id := bits s 0 0 12, kind := bits s 0 12 4, core := bits s 0 16 6, altCore := bits s 0 22 6,
    essential := flagAt s 0 28, queueIn := flagAt s 4 7, qin := bits s 4 8 8, qout := bits s 4 16 8,
    qoutEn := flagAt s 4 24, qinGroup := bits s 8 0 6, qinHalo := bits s 8 6 6, qoutReserve := bits s 8 12 13,
    releaseOfs := bits s 0xC 0 17, wcet := at32 s 0x10, voidMask := at32 s 0x14,
    ins := (List.range (bits s 4 0 4)).map (fun i =>
      let v := at16 s (0x18 + 2 * i)
      { slot := v % 8192, carry := v.testBit 13, ageExempt := v.testBit 14 }),
    outs := (List.range (bits s 4 4 3)).map (fun i => at16 s (0x28 + 2 * i) % 8192),
    progOfs := bits s 0x30 0 21, paramOfs := bits s 0x34 0 21 }

/-- The GRAPH section: 64-byte descriptors to its end (R102). -/
def readGraph (s : List Byte) : List TaskDesc := (List.range (s.length / 64)).map (fun i => readTask (part s (64 * i) 64))

def readQueue (s : List Byte) : QueueBind :=
  { prod := bits s 0 0 4, cons := bits s 0 4 4, prodIdx := bits s 0 8 6, consIdx := bits s 0 14 6, log2 := bits s 0 20 4,
    vector := bits s 0 24 6, base := at32 s 4, dataBase := at32 s 8, dataLen := at32 s 0xC }

def readQueues (s : List Byte) : QueuesSec :=
  let n := bits s 0 0 14
  let ids := 0x10E0 + 16 * n
  { gridSlot := bits s 4 0 13,
    queues := (List.range 256).map (fun q => readQueue (part s (0x20 + 16 * q) 16)),
    tables := (List.range 48).map (fun c =>
      let o := 0x1020 + 4 * c
      (List.range (bits s o 16 12)).map (fun i => at16 s (ids + 2 * (bits s o 0 16 + i)))),
    slots := (List.range n).map (fun i =>
      let o := 0x10E0 + 16 * i
      { slot := bits s o 0 13, double := flagAt s o 13, addr0 := at32 s (o + 4), addr1 := at32 s (o + 8), len := at32 s (o + 12) }) }

/-- Width of a Q format in bits from its code (R117). -/
def widthOf (c : Nat) : Nat := if c = 0 then 8 else if c = 1 then 16 else 32

def readQFmt (s : List Byte) : QFmt :=
  let sg := flagAt s 0 18
  { slot := bits s 0 0 13, width := widthOf (bits s 0 16 2), signed := sg, towardZero := flagAt s 0 19,
    cls := bits s 0 20 4, frac := sbits s 0 24 8,
    rangeLo := if sg then sbits s 4 0 32 else (at32 s 4 : Nat), rangeHi := if sg then sbits s 8 0 32 else (at32 s 8 : Nat),
    cvtCtx := bits s 0xC 0 5 }

def readQFormat (s : List Byte) : QFormatSec :=
  { satThr := (List.range 16).map (fun i => at16 s (2 * i)), ctxs := (List.range 16).map (fun i => at16 s (0x20 + 2 * i)),
    ctxUsed := bits s 0x40 0 16, entries := (List.range ((s.length - 0x50) / 16)).map (fun i => readQFmt (part s (0x50 + 16 * i) 16)) }

def readSolve (s : List Byte) : SolveEntry :=
  { id := bits s 0 0 8, op := bits s 0 8 4, spd := flagAt s 0 12, cold := flagAt s 0 13, jacobi := flagAt s 0 14,
    n := bits s 4 0 13, m := bits s 4 16 16, k := bits s 8 0 13, minAccept := bits s 8 16 8,
    block := 8 * 2 ^ bits s 8 24 2, halfBw := bits s 8 26 3, pivotMin := at32 s 0xC, regAdd := at32 s 0x10,
    deadlineOfs := bits s 0x14 0 17, iterWcc := at32 s 0x18, evalWcc := at32 s 0x1C, lambda0 := at32 s 0x20,
    upShift := bits s 0x24 0 4, downShift := bits s 0x24 4 4, fallbackOfs := bits s 0x28 0 21, defaultOfs := bits s 0x2C 0 21 }

def readSolver (s : List Byte) : List SolveEntry := (List.range (s.length / 64)).map (fun i => readSolve (part s (64 * i) 64))

def readVote (s : List Byte) : VoteSec :=
  { voteSlot := bits s 0 16 13, evidSlot := bits s 4 0 13, windowTicks := bits s 8 0 4, strikesOut := bits s 8 4 4,
    cleanTicks := bits s 8 16 10, voteScale := bits s 0xC 0 8, disagreeScale := bits s 0xC 8 8,
    groups := (List.range (bits s 0 0 5)).map (fun g =>
      let o := 16 + 16 * g
      { used := flagAt s o 3, agreeThr := bits s o 8 8, x0 := bits s (o + 4) 0 10, y0 := bits s (o + 4) 16 10,
        w := bits s (o + 8) 0 10, h := bits s (o + 8) 16 10,
        members := (List.range (bits s o 0 3)).map (fun m => bits s (o + 12) (5 * m) 5) }) }

def readChan (s : List Byte) : OutChan :=
  { en := flagAt s 0 0, routes := bits s 0 8 6, winX0 := bits s 4 0 10, winY0 := bits s 4 16 10, winW := bits s 8 0 10,
    winH := bits s 8 16 10, clBuf := at32 s 0xC, vlans := (List.range 4).map (fun e => at16 s (0x10 + 2 * e)) }

def readPower (s : List Byte) : PowerSec :=
  { budget := bits s 0 0 16, floor := bits s 0 16 16, base := bits s 4 0 16, thermBudget := bits s 4 16 16,
    thermThr := bits s 8 0 8, coreMhz := bits s 0xC 0 11, spread := bits s 0xC 12 2, fabSpread := flagAt s 0xC 14,
    consumers := (List.range 64).map (fun c => (at16 s (0x10 + 2 * c) % 4096, at16 s (0x10 + 2 * c) / 4096 % 4)),
    slew := bits s 0x90 0 16,
    fab := (List.range (bits s 0x94 0 11)).map (fun i => (bits s (0xA0 + 4 * i) 0 10, bits s (0xA0 + 4 * i) 16 16)) }

def readFaultMap (s : List Byte) : FaultMap :=
  { heartbeat := flagAt s 0 0, extEn := flagAt s 0 1, extHb := flagAt s 0 2, extFilt := bits s 0 8 8, extHold := bits s 0 16 10,
    entries := (List.range 256).map (fun d =>
      let o := 0x10 + 4 * d
      { react := bits s o 0 3, escN := bits s o 4 4, escT := bits s o 8 8 }) }

def readSelfTest (s : List Byte) : SelfTestSec :=
  { slices := flagAt s 0 0, skipWarn := bits s 0 8 8, rotLimit := bits s 4 0 16 }

def readArcArea (s : List Byte) : ArcAreaSec :=
  { lockAtBoot := flagAt s 0 8, eccWarn := bits s 0 16 2,
    wp0 := BitVec.ofNat 544 (ofLe (part s 0x10 68)), wp1 := BitVec.ofNat 544 (ofLe (part s 0x54 68)),
    areas := (List.range (bits s 0 0 6)).map (fun i =>
      let o := 0xA0 + 16 * i
      { kind := bits s o 0 4, hide := flagAt s o 4, bank := bits s o 5 1, id := bits s o 8 8, first := bits s (o + 4) 0 10,
        count := bits s (o + 4) 16 10 }) }

def readFabric (s : List Byte) : FabricSec :=
  { addrMode := bits s 0 0 2, standbyOk := flagAt s 0 4, portEn := bits s 0 8 4, priority := bits s 0 16 8,
    mgrDisc := bits s 0 24 2, addr := bits s 4 0 10, settle := bits s 4 16 8, lead := bits s 8 0 11,
    asym := (List.range 4).map (fun p => sbits s 0xC (8 * p) 8), groups := BitVec.ofNat 256 (ofLe (part s 0x10 32)),
    safePolicy := bits s 0x40 8 2, obeySafe := flagAt s 0x40 12, ofsLimit := bits s 0x44 0 14, rejoin := bits s 0x44 16 8,
    missLimit := bits s 0x48 0 4, freeRun := bits s 0x48 8 8, degTicks := bits s 0x48 16 10,
    compat := (List.range (bits s 0x40 0 3)).map (fun c => BitVec.ofNat 224 (ofBe (part s (0x50 + 28 * c) 28))) }

def readLedger (s : List Byte) : LedgerSec :=
  { slack := bits s 0 8 7, ckpt := bits s 0 16 12,
    features := (List.range (bits s 0 0 5)).map (fun f => (bits s (0x10 + 4 * f) 0 16, bits s (0x10 + 4 * f) 16 12)),
    bounds := (List.range (bits s 4 0 7)).map (fun i => at64 s (0x50 + 8 * i)) }

def readIncident (s : List Byte) : IncidentSec :=
  { en := flagAt s 0 0, pre := bits s 0 8 7, post := bits s 0 16 7, slots := bits s 0 24 7, sumSlot := bits s 4 0 13,
    sumKib := bits s 4 16 7, overwrite := flagAt s 4 24, ringBase := at32 s 8, trigEn := bits s 0xC 0 5,
    faultLevel := bits s 0xC 8 3, pinFall := flagAt s 0xC 12, fabSend := flagAt s 0xC 13, decelThr := at32 s 0x10,
    decelWin := bits s 0x14 0 7 }

def readPayload (s : List Byte) : Payload :=
  { id := bits s 0 0 16, kind := bits s 0 16 8, hot := flagAt s 0 24, sector := bits s 4 0 9, bank := bits s 4 9 1,
    length := at32 s 8, dest := bits s 0xC 0 8, bankMask := bits s 0xC 8 8, destOfs := at32 s 0x10,
    digest := digestOf (part s 0x20 32) }

def readPayloads (s : List Byte) : List Payload :=
  (List.range (bits s 0 0 9)).map (fun i => readPayload (part s (0x20 + 64 * i) 64))

def readHotReserve (s : List Byte) : List (Nat × Nat) :=
  (List.range (bits s 0 0 6)).map (fun i => (bits s (0x10 + 4 * i) 0 6, bits s (0x10 + 4 * i) 8 8))

/-- The whole image, read from the bytes of its structure section. -/
def readImage (b : List Byte) : Image :=
  let sec (t : Nat) : List Byte := (sectionOf b t).getD []
  let out := sec 0x0D
  { hdr := readHeader b, sku := readSku (sec 1), tick := readTick (sec 2), time := readTime (sec 3),
    streams := readStreams (sec 4), ports := readPorts (sec 5), ego := (sectionOf b 6).map readEgo,
    grid := readGrid (sec 7), tasks := readGraph (sec 8), queues := readQueues (sec 9), qformat := readQFormat (sec 0x0A),
    solver := readSolver (sec 0x0B), vote := (sectionOf b 0x0C).map readVote, outA := readChan (part out 0 32),
    outB := readChan (part out 32 32), power := readPower (sec 0x0E), faultMap := readFaultMap (sec 0x0F),
    selfTest := readSelfTest (sec 0x10), arcArea := readArcArea (sec 0x11), fabric := (sectionOf b 0x12).map readFabric,
    ledger := (sectionOf b 0x13).map readLedger, incident := (sectionOf b 0x14).map readIncident,
    payloads := readPayloads (sec 0x15), hotReserve := ((sectionOf b 0x16).map readHotReserve).getD [] }

/-! ## What the sections say together -/

/-- The stream declaration of a stream number. -/
def Image.stream (im : Image) (s : Nat) : Option StreamDecl := im.streams.streams.find? (fun d => d.stream = s)

/-- The task of a TASK_ID. -/
def Image.task (im : Image) (id : Nat) : Option TaskDesc := im.tasks.find? (fun t => t.id = id)

/-- The declaration of a scoreboard slot. -/
def Image.slot (im : Image) (n : Nat) : Option SlotDecl := im.queues.slots.find? (fun d => d.slot = n)

/-- Number of task inputs that name a slot (R110). -/
def Image.consumers (im : Image) (n : Nat) : Nat :=
  im.tasks.foldl (fun k t => k + (t.ins.filter (fun i => i.slot = n)).length) 0

/-- The queue binding of a queue number. -/
def Image.queue (im : Image) (q : Nat) : QueueBind := im.queues.queues.getD q {}

/-- The queue of a stream: the first whose producer is a port, the host or the fabric and whose PROD_IDX is
the stream's number (the register table: producer instance). (DEDUCED, log 10) -/
def Image.streamQueue (im : Image) (s : Nat) : Option Nat :=
  (List.range 256).find? (fun q =>
    let b := im.queue q
    ((1 ≤ b.prod && b.prod ≤ 4) || b.prod = 8 || b.prod = 9) && b.prodIdx = s)

/-- The INGEST task of a stream: the one that its queue releases. -/
def Image.ingestOf (im : Image) (s : Nat) : Option TaskDesc :=
  (im.streamQueue s).bind (fun q => im.tasks.find? (fun t => t.queueIn && t.qin = q))

/-- The GRID task. -/
def Image.gridTask (im : Image) : Option TaskDesc := im.tasks.find? (fun t => t.kind = 5)

/-- Bytes of one cell (R191). -/
def GridSec.stride (g : GridSec) : Nat := (g.c + 2 + 3) / 4 * 4

/-- Bytes of one grid buffer. -/
def GridSec.bytes (g : GridSec) : Nat := g.x * g.y * g.stride

/-- Bytes of one packed line of a binding (R148, R149): RAW10, RAW12, RAW16, YUV422 8-bit. -/
def CamBinding.lineLen (b : CamBinding) : Nat :=
  if b.dt = 0x2B then b.width * 10 / 8 else if b.dt = 0x2C then b.width * 12 / 8 else b.width * 2

/-- Bytes that a line takes in the line ring (R146). -/
def CamBinding.lineStep (b : CamBinding) : Nat := (b.lineLen + 63) / 64 * 64

/-- Internal address of a binding's line ring. -/
def CamBinding.ringBase (b : CamBinding) : Nat := streamBase + 4096 * b.lringPage

/-- Length of a channel's frame (R205): header, cells, trailer. -/
def Image.frameLen (im : Image) (isB : Bool) : Nat :=
  let c := if isB then im.outB else im.outA
  (if isB then 256 else 40) + c.winW * c.winH * im.grid.stride + 4

/-- FRAME_SPAN of R209. -/
def Image.frameSpan (im : Image) (isB : Bool) : Nat := (im.frameLen isB + 4095) / 4096 * 4096

/-- SUM_BYTES and REC_SECTORS of R271. -/
def IncidentSec.sumBytes (i : IncidentSec) : Nat := i.sumKib * 1024
def IncidentSec.recSectors (i : IncidentSec) : Nat := ceilDiv (1024 + 128 * i.sumBytes) 262144

/-- The INCIDENT area (R220). -/
def Image.incArea (im : Image) : Option Area := im.arcArea.areas.find? (fun a => a.kind = 1)

/-- Q format of a slot's tensor (R117). -/
def Image.qfmt (im : Image) (slot : Nat) : Option QFmt := im.qformat.entries.find? (fun e => e.slot = slot)

/-- Internal address of a payload's first byte, where it has a memory destination (R80). -/
def Payload.addr (p : Payload) : Option Nat :=
  if p.dest < 48 then some (coreBase p.dest + p.destOfs) else if p.dest = 0xFE then some (gridBase + p.destOfs) else none

/-- Archive address of a payload (R80, R210). -/
def Payload.arcAddr (p : Payload) : Nat := p.bank * 0x08000000 + 0x10000 + p.sector * 0x40000

/-- The banks that a HOTRESERVE section sets aside, as ranges of internal addresses. -/
def reserveRanges (r : List (Nat × Nat)) : List (Nat × Nat) :=
  r.flatMap (fun e => (List.range 8).filterMap (fun b => if e.2.testBit b then some (coreBase e.1 + b * 0x40000, 0x40000) else none))

end Sys2Proof.Machine
end

