-- ==== Sys2Proof/Machine/Ops.lean ====
section
/-! DEFINITION. The operations that every family shares: what leaves the device, MSI-X, liveness of the blocks,
rejections and the clearing of counters. -/
namespace Sys2Proof.Machine

/-- What a meaning answers. -/
abbrev Answer := Host.Outcome State Fault Refusal

/-! ## Short names -/

/-- The running image; before one is loaded every field of it reads 0 (R413). (DESIGN CHOICE, log 3) -/
def State.im (s : State) : Image := s.img.run.getD {}

/-- The state of R8. -/
def State.mode (s : State) : Mode := s.gctl.mode

/-- The monotonic counter, in ns (R37), and device time as a stamp (R36). -/
def State.mono (s : State) : Nat := s.tim.mono
def State.stamp (s : State) : Nat := s.tim.dev

/-- Device time less the monotonic counter. -/
def State.offset (s : State) : Int := (s.tim.dev : Int) - s.tim.mono

/-- The tick period T in ns. -/
def State.period (s : State) : Nat := s.im.tick.period * 1000

/-- Adds one thing to what has left the device. (DESIGN CHOICE, log 7) -/
def State.say (s : State) (o : Out) : State := { s with out := o :: s.out }

/-- The counter for free values, advanced. (DESIGN CHOICE, log 5) -/
def State.drawn (s : State) : State := { s with freeCtr := s.freeCtr + 1 }

/-- Enabled cores of the variant (R2). -/
def State.coreCount (s : State) : Nat := 12 * (if s.otp.variant = 0 then 0 else 2 ^ (s.otp.variant.toNat - 1))

/-- States that have boundaries (R33). -/
def Mode.ticks : Mode → Bool
  | .armed | .run | .degraded | .safe | .quarantine => true
  | _ => false

/-- States that stand in the columns of R61 from ARMED on. -/
def Mode.fromArmed (m : Mode) : Bool := m.ticks || m = .maint

/-- States in which the device answers at some interface. -/
def Mode.answers (m : Mode) : Bool := !(m = .off || m = .removal)

/-- RUN or DEGRADED. -/
def Mode.computes : Mode → Bool
  | .run | .degraded => true
  | _ => false

/-- A block raises a detector with its DETAIL (R351); `settle` lets the warden take it. (DESIGN CHOICE, log 14; DESIGN CHOICE, log 50) -/
def raiseDet (d : Nat) (detail : Word) (s : State) : State := { s with flt.due := (d, detail) :: s.flt.due }

/-- The condition of a level detector ends: neither it nor its record is ACTIVE, unless its pair reads LINE (R352, R360). -/
def levelOff (d : Nat) (s : State) : State :=
  { s with flt.active := s.flt.active &&& ~~~(BitVec.twoPow 256 d &&& ~~~s.flt.line)
           flt.records := s.flt.records.map (fun r => if r.det = d then { r with active := s.flt.line.getLsbD d } else r) }

/-- The pair of a detector reads (1,0): neither ACTIVE nor LINE (R352). -/
def pairClean (d : Nat) (s : State) : State := levelOff d { s with flt.line := s.flt.line &&& ~~~(BitVec.twoPow 256 d) }

/-! ## MSI-X (R14, R394) -/

/-- A source raises vector `v` while its enable is 1: one message, or its pending bit while the vector is masked
or Bus Master Enable is clear; nothing while a message is pending. The card form has no table (R11). -/
def msix (v : Nat) (en : Bool) (s : State) : State :=
  if !en || s.otp.cardForm || !s.mode.answers || s.hst.msixPend.getLsbD v then s
  else if (tget s.hst.msix v).masked || !s.hst.bme then
    { s with hst.msixPend := s.hst.msixPend ||| BitVec.twoPow 64 v }
  else s.say (.msix v)

/-- GCTL_STATE.EXPECT_MS: in SELFTEST and LOAD what is left of the expected time (R71), in whole milliseconds; while the
power-up plan waits nothing of it passes (R370). (DESIGN CHOICE, log 5) -/
def State.expectMs (s : State) : BitVec 16 :=
  match s.mode with
  | .selftest | .load => BitVec.ofNat 16 (min 0xFFFF ((s.gctl.expectAt - s.gctl.waitFrom.getD s.mono) / 1000000))
  | _ => s.gctl.expectMs

/-- One of the sixteen status codes of R6, which one is left open. (DESIGN CHOICE, log 74) -/
def someStatus (n : Nat) : Byte := ((Config.freeByte n).setWidth 4).setWidth 8

/-! ## Liveness and absence (R4, R11, R413) -/

/-- A source reaches the device: every interface is silent in OFF and REMOVAL (R61), and the card form has no PCIe interface (R4). -/
def State.hears (s : State) (src : Source) : Bool := s.mode.answers && !(s.otp.cardForm && src = .pcie)


/-- Bit `b` of GCTL_LIVE on the board form. -/
def liveIn (m : Mode) (b : Nat) : Bool :=
  match m with
  | .off | .removal => false
  | .hold | .selftest => b = 0 || (4 ≤ b && b ≤ 7) || b = 9
  | .load => b = 0 || b = 1 || (3 ≤ b && b ≤ 9) || b = 24
  | _ => b ≤ 25

/-- Bit `b` of GCTL_LIVE. -/
def State.live (s : State) (b : Nat) : Bool := liveIn s.mode b && !(b = 24 && s.otp.cardForm)

/-- GCTL_LIVE. -/
def State.liveWord (s : State) : Word := pack ((List.range 26).map (fun b => (b, 1, b2n (s.live b))))

/-- The row of the BAR0 block table that an address falls in (R13). -/
def blockOf (a : Nat) : Option Nat :=
  if a < 0xD000 then some (a / 0x1000)
  else if a < 0x10000 then none
  else if a < 0x20000 then some (13 + (a - 0x10000) / 0x4000)
  else if a < 0x23000 then some 17
  else if a < 0x30000 then none
  else if a < 0x38000 then some 18
  else if a < 0x3C000 then some 19
  else if a < 0x3D000 then some 20
  else if a < 0x3E000 then some 21
  else if a < 0x3F000 then some 22
  else if a < 0x40000 then none
  else if a < 0x41000 then some 23
  else if a < 0x50000 then none
  else if a < 0x5A000 then some 24
  else if a < 0x100000 then none
  else if a < 0x1C0000 then some 25
  else none

/-- The two kinds of absent resource: the window of a core that is fused off, and the HST block of the card form (R11). -/
def State.absent (s : State) (a : Nat) : Bool :=
  match blockOf a with
  | some 25 => s.coreCount ≤ (a - 0x100000) / 0x4000
  | some 24 => s.otp.cardForm
  | _ => false

/-! ## Rejections (R59) -/

/-- Counts a rejection and writes GCTL_LAST_REJECT: kind 0 register write, 1 register command, 2 frame or message. -/
def reject (src : Source) (kind page item : Nat) (s : State) : State :=
  { s with
    gctl.rejectCnt := satInc s.gctl.rejectCnt
    gctl.lastReject := pack [(28, 4, s.mode.code.toNat), (26, 2, srcCode src), (24, 2, kind), (12, 12, page), (0, 12, item)] }

/-- Rejects a plain register write. -/
def rejectReg (src : Source) (a : Nat) : State → State := reject src 0 (a / 4096) (a % 4096)

/-- Rejects a register command that is written as a code, or that stands at the address written. -/
def rejectCmd (src : Source) (a item : Nat) : State → State := reject src 1 (a / 4096) item

/-- Rejects a frame or message command. -/
def rejectFrame (src : Source) (code : Byte) : State → State := reject src 2 0xFFF code.toNat

/-! ## Tables of blocks -/

def State.cam (s : State) (r : Nat) : Cam := tget s.cams r
def State.setCam (s : State) (r : Nat) (c : Cam) : State := { s with cams := tset s.cams r c }
def State.eth (s : State) (p : Nat) : Eth := tget s.eths p
def State.setEth (s : State) (p : Nat) (e : Eth) : State := { s with eths := tset s.eths p e }
def State.can (s : State) (c : Nat) : Can := tget s.cans c
def State.setCan (s : State) (c : Nat) (x : Can) : State := { s with cans := tset s.cans c x }
def State.spi (s : State) (u : Nat) : Spi := tget s.spis u
def State.setSpi (s : State) (u : Nat) (x : Spi) : State := { s with spis := tset s.spis u x }
def State.core (s : State) (n : Nat) : Core := tget s.sch.cores n
def State.setCore (s : State) (n : Nat) (c : Core) : State := { s with sch.cores := tset s.sch.cores n c }
def State.strm (s : State) (n : Nat) : Stream := tget s.aln.streams n
def State.setStrm (s : State) (n : Nat) (x : Stream) : State := { s with aln.streams := tset s.aln.streams n x }
def State.que (s : State) (q : Nat) : Queue := tget s.sch.queues q
def State.setQue (s : State) (q : Nat) (x : Queue) : State := { s with sch.queues := tset s.sch.queues q x }
def State.port (s : State) (p : Nat) : Port := tget s.fab.ports p
def State.setPort (s : State) (p : Nat) (x : Port) : State := { s with fab.ports := tset s.fab.ports p x }
def State.chan (s : State) : Channel → Chan
  | .a => s.outb.a
  | .b => s.outb.b
def State.setChan (s : State) (c : Channel) (x : Chan) : State :=
  match c with
  | .a => { s with outb.a := x }
  | .b => { s with outb.b := x }
def State.ring (s : State) : Channel → Ring
  | .a => s.hst.ringA
  | .b => s.hst.ringB
def State.setRing (s : State) (c : Channel) (x : Ring) : State :=
  match c with
  | .a => { s with hst.ringA := x }
  | .b => { s with hst.ringB := x }

/-- The declaration and channel number of a channel (R204). -/
def Image.chan (im : Image) : Channel → OutChan
  | .a => im.outA
  | .b => im.outB
def chanNum : Channel → Nat
  | .a => 0
  | .b => 1

/-! ## Clearing counters (CNT_CLR of each block) -/

/-- A table of counters, cleared. (DEDUCED, log 15) -/
def zeroed {k n : Nat} (_ : Vector (BitVec k) n) : Vector (BitVec k) n := Vector.replicate n 0

/-- Counts `k` at an instant in a saturation counter of a core: of a class, or 16 ACC_SAT, or 17 LUT_CLAMP (R123). -/
def Core.satNow (c : Core) (mono i k : Nat) : Core :=
  let hit := if c.satMono = mono then c.satHit else 0
  let c := { c with satMono := mono, satHit := if k = 0 then hit else hit ||| BitVec.twoPow 18 i }
  if i = 16 then { c with accSat := satAdd c.accSat k }
  else if i = 17 then { c with lutClamp := satAdd c.lutClamp k }
  else { c with satCls := tmod c.satCls i (fun n => satAdd n k) }

/-- What a clear leaves in a saturation counter: 1 where it falls together with a count (R123). -/
def Core.satLeft (c : Core) (mono i : Nat) : Word := if c.satMono = mono && c.satHit.getLsbD i then 1 else 0

/-- The counters of a core window (05, 06 and 07) at a clear. (DEDUCED, log 15) -/
def Core.cleared (mono : Nat) (c : Core) : Core :=
  { c with busyCyc := 0, stallCyc := 0, tasksRun := 0, wcetExceed := 0, satCls := Vector.ofFn (fun (i : Fin 16) => c.satLeft mono i.val),
           satBase := zeroed c.satBase, accSat := c.satLeft mono 16, lutClamp := c.satLeft mono 17, satTick := 0, solCnt := zeroed c.solCnt,
           marginMin := 0x1FFFF }

/-- CNT_CLR of one block. (DEDUCED, log 15) -/
def clearBlk (b : CntBlk) (s : State) : State :=
  match b with
  | .tim => { s with tim.stepCnt := 0, tim.slewCnt := 0, tim.ppsAcc := 0, tim.ppsRej := 0 }
  | .tck => { s with tck.ovrCnt := 0, tck.emitLate := 0, tck.rephaseCnt := 0, tck.inEarly := 0, tck.inMiss := 0,
                     tck.cancelCnt := 0 }
  | .flt => { s with flt.cnt := zeroed s.flt.cnt }
  | .tst => { s with tst.cnt := zeroed s.tst.cnt, tst.rotCount := 0, tst.marginWarn := 0 }
  | .arc => { s with arc.cnt := zeroed s.arc.cnt, arc.seqBusy := 0, arc.warnCnt := 0, arc.uncorrCnt := 0, arc.winBusy := 0,
                     arc.winWrIgn := 0, arc.sBursts := 0, arc.sPauses := 0, arc.eccMax := 0 }
  | .crd => { s with crd.cnt := zeroed s.crd.cnt }
  | .inc => { s with inc.records := 0, inc.trigLost := 0, inc.gapCnt := 0, inc.sealCnt := 0 }
  | .ldg => { s with ldg.lost := 0, ldg.closeCnt := 0, ldg.skipCnt := 0, ldg.setbackCnt := 0, ldg.backstopCnt := 0 }
  | .cvt => { s with cvt.ctx := s.cvt.ctx.map (fun c => { c with satCnt := 0, invCnt := 0 }) }
  | .aln => { s with aln.streams := s.aln.streams.map (fun x => { x with maskedCnt := 0, late := 0, outWin := 0, surplus := 0 }) }
  | .ego => { s with ego.cnt := zeroed s.ego.cnt }
  | .grd => { s with grd.exchCnt := 0, grd.cnt := zeroed s.grd.cnt }
  | .out => { s with
      outb.a := { s.outb.a with frames := 0, staleCnt := 0, safeCnt := 0, drops := zeroed s.outb.a.drops }
      outb.b := { s.outb.b with frames := 0, staleCnt := 0, safeCnt := 0, drops := zeroed s.outb.b.drops } }
  | .sch => { s with
      sch.voidCnt := 0, sch.lineOvr := 0, sch.wcetCnt := 0, sch.essLost := 0, sch.latMax := zeroed s.sch.latMax
      sch.queues := s.sch.queues.map (fun q => { q with drop := 0, hiwater := 0, posted := 0 })
      sch.cores := s.sch.cores.map (Core.cleared s.mono) }
  | .pwr => { s with pwr.cnt := zeroed s.pwr.cnt }
  | .clk => { s with clk.lolCnt := 0 }
  | .fab => { s with fab.cnt := zeroed s.fab.cnt, fab.acnt := zeroed s.fab.acnt
                     fab.ports := s.fab.ports.map (fun p => { p with cnt := zeroed p.cnt }) }
  | .hst => { s with hst.cnt := zeroed s.hst.cnt, hst.ringA := { s.hst.ringA with frames := 0, fullDrop := 0 }
                     hst.ringB := { s.hst.ringB with frames := 0, fullDrop := 0 } }
  | .cam r => s.setCam r { s.cam r with cnt := zeroed (s.cam r).cnt }
  | .eth p => s.setEth p { s.eth p with cnt := zeroed (s.eth p).cnt }
  | .can c => s.setCan c { s.can c with cnt := zeroed (s.can c).cnt }
  | .spi u => s.setSpi u { s.spi u with cnt := zeroed (s.spi u).cnt }

/-- The row of the block table that a CNT_CLR bit belongs to, and its address (R13). -/
def cntRow : CntBlk → Nat
  | .tim => 1 | .tck => 2 | .flt => 6 | .tst => 7 | .arc => 8 | .crd => 9 | .inc => 10 | .ldg => 11 | .cvt => 12
  | .aln => 13 | .ego => 14 | .grd => 15 | .out => 16 | .sch => 17 | .pwr => 4 | .clk => 5 | .fab => 23 | .hst => 24
  | .cam _ => 18 | .eth _ => 19 | .can _ => 20 | .spi _ => 21

/-- The address of the register that holds the block's CNT_CLR bit. -/
def cntAddr : CntBlk → Nat
  | .tim => 0x1000 | .tck => 0x2000 | .flt => 0x6000 | .tst => 0x7000 | .arc => 0x8128 | .crd => 0x9000 | .inc => 0xA000
  | .ldg => 0xB000 | .cvt => 0xC000 | .aln => 0x10000 | .ego => 0x14000 | .grd => 0x18000 | .out => 0x1C000
  | .sch => 0x20000 | .pwr => 0x4000 | .clk => 0x5018 | .fab => 0x40000 | .hst => 0x50000
  | .cam r => 0x30000 + 0x1000 * r | .eth p => 0x38000 + 0x1000 * p | .can c => 0x3C000 + 0x800 * c
  | .spi u => 0x3D000 + 0x100 * u

/-- Every CNT_CLR bit. -/
def allCntBlks : List CntBlk :=
  [.tim, .tck, .flt, .tst, .arc, .crd, .inc, .ldg, .cvt, .aln, .ego, .grd, .out, .sch, .pwr, .clk, .fab, .hst] ++
  (List.range 8).map CntBlk.cam ++ (List.range 4).map CntBlk.eth ++ (List.range 2).map CntBlk.can ++ (List.range 2).map CntBlk.spi

/-- The CNT_CLR of every block that is live (R414). (DEDUCED, log 15) -/
def clearLive (s : State) : State := allCntBlks.foldl (fun t b => if s.live (cntRow b) then clearBlk b t else t) s

/-- The stamp of the present instant less a fixed latency. (DESIGN CHOICE, log 53) -/
def stampLess (lat : Nat) (s : State) : BitVec 64 := w64 (s.stamp - lat)

/-- The variant's power budget ceiling in 0.1 W (R2). -/
def State.ceiling (s : State) : Nat :=
  if s.otp.variant = 1 then 180 else if s.otp.variant = 2 then 340 else if s.otp.variant = 3 then 750 else 0

end Sys2Proof.Machine
end

