-- ==== Sys2Proof/Machine/Arch.lean ====
section
/-! DEFINITION. The archive as an array: its geometry, the classes of code words, reading with the reports of
R225 and R226, programming, erasing, and the selector words (11_archive_array.md, 12_archive_commands.md). -/
namespace Sys2Proof.Machine

/-! ## Geometry (R210, R211) -/

/-- Bank and sector index of an archive address; none in a factory area or outside the archive. -/
def sectorOf (a : Nat) : Option (Bool × Nat) :=
  let off := a % 0x08000000
  let bank := decide (0x08000000 ≤ a)
  if 0x10000000 ≤ a then none
  else if off < 0x10000 then some (bank, off / 0x2000)
  else if off < 0x07F90000 then some (bank, 8 + (off - 0x10000) / 0x40000)
  else none

def bankBase (bank : Bool) : Nat := if bank then 0x08000000 else 0

/-- First byte and size of a sector. -/
def sectorBase (bank : Bool) (i : Nat) : Nat := bankBase bank + if i < 8 then i * 0x2000 else 0x10000 + (i - 8) * 0x40000
def sectorSize (i : Nat) : Nat := if i < 8 then 0x2000 else 0x40000

/-- Rated endurance of a sector (R237). -/
def endurance (i : Nat) : Nat := if i < 8 then 100000 else 10000

def hdrKey (bank : Bool) (i : Nat) : Nat := (if bank then 518 else 0) + i

/-- A sector's hidden header. -/
def Arc.hdr (a : Arc) (bank : Bool) (i : Nat) : SectorHdr := alookup {} a.hdrs (hdrKey bank i)
def Arc.setHdr (a : Arc) (bank : Bool) (i : Nat) (h : SectorHdr) : Arc := { a with hdrs := aset {} a.hdrs (hdrKey bank i) h }

/-- Whether any sector of a bank carries INCOMPLETE (R238). -/
def Arc.marked (a : Arc) (bank : Bool) : Bool :=
  a.hdrs.any (fun h => h.2.incomplete && decide (bank = decide (518 ≤ h.1)))

/-- The marked sectors in ascending bank and index. -/
def Arc.markedList (a : Arc) : List (Bool × Nat) :=
  (a.hdrs.filter (fun h => h.2.incomplete)).map (fun h => (decide (518 ≤ h.1), h.1 % 518))

/-! ## Code words (R213, R214) -/

/-- The classes of R214, with data and corrected count of a PROGRAMMED word. -/
inductive WordClass
  | blank | programmed (bytes : List Byte) (errs : Nat) | uncorrectable | torn
deriving DecidableEq, Repr, Inhabited

/-- Wrong bits that the code word at `a` shows at this instant. -/
def Arc.errsAt (arc : Arc) (a : Nat) : Nat := ((arc.bitErrs.find? (fun e => e.1 = a)).map (fun e => e.2)).getD 0

/-- A command that reads the archive states the bit errors that the cells show. (DESIGN CHOICE, log 24) -/
def State.showing (ecc : EccView) (s : State) : State := { s with arc.bitErrs := ecc }

/-- The stored word of a number; none where it is BLANK. -/
def wfind (l : List (Nat × ArcWord)) (k : Nat) : Option ArcWord := (l.find? (fun e => e.1 = k)).map (fun e => e.2)

/-- Stores a word and keeps the list rising. -/
def wput : List (Nat × ArcWord) → Nat → ArcWord → List (Nat × ArcWord)
  | [], k, w => [(k, w)]
  | (j, v) :: l, k, w => if k < j then (k, w) :: (j, v) :: l else if k = j then (k, w) :: l else (j, v) :: wput l k w

/-- Class of the code word at `a` where it shows `errs` wrong bits (R214); every word of a sector under INCOMPLETE is TORN (R238). -/
def Arc.classAs (arc : Arc) (errs a : Nat) : WordClass :=
  let marked := match sectorOf a with
    | some (b, i) => (arc.hdr b i).incomplete
    | none => false
  if marked then .torn
  else match wfind arc.words (a / 32) with
    | none => .blank
    | some .torn => .torn
    | some (.prog bytes) => if 4 ≤ errs then .uncorrectable else .programmed bytes errs

/-- Class of the code word at `a` as its cells read now. -/
def Arc.classOf (arc : Arc) (a : Nat) : WordClass := arc.classAs (arc.errsAt a) a

/-- Data that a class returns; an UNCORRECTABLE word has none. (DESIGN CHOICE, log 24) -/
def WordClass.data : WordClass → List Byte
  | .programmed b _ => b
  | _ => List.replicate 32 0xFF

/-- Corrected count of a class. (DESIGN CHOICE, log 24) -/
def WordClass.count : WordClass → Nat
  | .programmed _ n => n
  | _ => 0

def Arc.isBlank (arc : Arc) (a : Nat) : Bool := arc.classOf a = .blank

/-- `n` code words from `a`, as data. -/
def Arc.readWords (arc : Arc) (a n : Nat) : List Byte := (List.range n).flatMap (fun i => (arc.classOf (a + 32 * i)).data)

/-- `len` bytes from an address that is a multiple of 32. -/
def Arc.readBytes (arc : Arc) (a len : Nat) : List Byte := (arc.readWords a (ceilDiv len 32)).take len

/-! ## Programming and erasing -/

/-- A program or erase of `n` bytes at `a` invalidates every line that it overlaps (R222), and the words' errors start afresh (R225). -/
def Arc.invalidate (arc : Arc) (a n : Nat) : Arc :=
  let hit (b : Nat) : Bool := b < a + n && a < b + 64
  { arc with
    line3 := arc.line3.filter (fun l => !hit l.1), ctlLines := arc.ctlLines.filter (fun l => !hit l)
    bitErrs := arc.bitErrs.filter (fun e => !(a ≤ e.1 && e.1 < a + n)) }

/-- Programs one code word (R235). -/
def Arc.put (arc : Arc) (a : Nat) (bytes : List Byte) : Arc :=
  { arc.invalidate a 32 with words := wput arc.words (a / 32) (.prog (fitBytes 32 bytes)) }

/-- Erases a sector, counts the erase and clears INCOMPLETE (R237). -/
def Arc.eraseSector (arc : Arc) (bank : Bool) (i : Nat) : Arc :=
  let lo := sectorBase bank i / 32
  let hi := lo + sectorSize i / 32
  let arc := arc.invalidate (sectorBase bank i) (sectorSize i)
  { arc with
    words := arc.words.filter (fun w => w.1 < lo || hi ≤ w.1)
    weak := arc.weak.filter (fun w => w < lo || hi ≤ w) }.setHdr bank i { count := satInc (arc.hdr bank i).count, incomplete := false }

/-- Ends an erase: header, array, and the report of one beyond rated endurance (R237), after which words may fail. (DESIGN CHOICE, log 94) -/
def eraseDone (bank : Bool) (i : Nat) (s : State) : State :=
  let n := min (((s.arc.hdr bank i).count).toNat + 1) 0xFFFFFF
  let s := { s with arc := s.arc.eraseSector bank i }
  if endurance i < n then
    raiseDet 77 (BitVec.ofNat 32 (sectorBase bank i))
      { s with arc.worn := true, arc.cnt := tinc s.arc.cnt 7, arc.weak := s.arc.weak ++ Config.wornWords (sectorBase bank i) n }
  else s

/-! ## Ends and statuses of the host's operations (R250, R251) -/

/-- Counters of the ARC block: 0 PROG_CNT, 1 ERASE_CNT, 2 TWICE_CNT, 3 KEY_ERR_CNT, 4 PROT_CNT, 5 SUSP_CNT,
6 INCOMPLETE_CNT, 7 WORN_CNT. -/
def arcCount (i : Nat) (s : State) : State := { s with arc.cnt := tinc s.arc.cnt i }

/-- The status of a command. -/
def arcStat (code st : Byte) (s : State) : State := { s with arc.stat := st, arc.echo := code }

/-- A command ends, or a suspension takes effect: STAT, DONE and vector 5. -/
def arcEnd (code st : Byte) (s : State) : State := msix 5 s.arc.doneIntEn { arcStat code st s with arc.done := true }

/-- ARC_RESULT0 to ARC_RESULT3. -/
def arcResults (ws : List Word) (s : State) : State := { s with arc.results := (List.range 4).foldl (fun v i => tset v i (ws.getD i 0)) s.arc.results }

/-! ## Device operations (R230, R236, R242) -/

/-- A device operation enters the array's queue, for at most `bound` ns. (DESIGN CHOICE, log 19) -/
def devBusy (bank : Bool) (what : DevWhat) (a bound : Nat) (s : State) : State :=
  let start := max s.arc.devUntil s.mono
  let stop := start + min (Config.devNs a start) bound
  { s with arc.devUntil := stop
           arc.dev := s.arc.dev.filter (fun o => s.mono < o.stop) ++ [{ bank := bank, start := start, stop := stop, what := what }] }

/-- The device operation that runs now. -/
def State.devNow (s : State) : Option DevOp := s.arc.dev.find? (fun o => o.start ≤ s.mono && s.mono < o.stop)

/-- The operation erases. -/
def DevOp.erases (o : DevOp) : Bool := match o.what with | .erase .. => true | _ => false

/-- A device operation runs. -/
def State.devRuns (s : State) : Bool := s.devNow.isSome

/-- The words of a sector that are not BLANK. -/
def Arc.sectorWords (arc : Arc) (bank : Bool) (i : Nat) : List (Nat × ArcWord) :=
  let lo := sectorBase bank i / 32
  arc.words.filter (fun w => lo ≤ w.1 && w.1 < lo + sectorSize i / 32)

/-- A device agent erases a sector. The erase enters the array's contents as it begins; one that is abandoned is undone by `DevOp.abandon`. (DESIGN CHOICE, log 19) -/
def devErase (bank : Bool) (i : Nat) (s : State) : State :=
  devBusy bank (.erase i (s.arc.hdr bank i) (s.arc.sectorWords bank i)) (sectorBase bank i) (if i < 8 then 150000000 else 1200000000)
    (eraseDone bank i s)

/-- A device agent's word enters the array's contents and is read back (R236); a word that fails holds no data that the spec gives. (DESIGN CHOICE, log 19) -/
def devWord (a : Nat) (bytes : List Byte) (s : State) : State :=
  if s.arc.weak.contains (a / 32) then
    { s with freeCtr := s.freeCtr + 32, arc := s.arc.put a ((List.range 32).map (fun i => Config.freeByte (s.freeCtr + i))) }
  else { s with arc := s.arc.put a bytes }

/-- A device agent programs one code word. (DESIGN CHOICE, log 19) -/
def devPut (a : Nat) (bytes : List Byte) (s : State) : State := devBusy (decide (0x08000000 ≤ a)) .word a 45000 (devWord a bytes s)

/-- A device agent programs a run of code words in one bank. (DESIGN CHOICE, log 19) -/
def devRun (words : List (Nat × List Byte)) (s : State) : State :=
  match words with
  | [] => s
  | w :: _ =>
    devBusy (decide (0x08000000 ≤ w.1)) (.run (words.map (fun e => e.1))) w.1 (words.length * 45000)
      (words.foldl (fun t e => devWord e.1 e.2 t) s)

/-- How many words of a run have begun by an instant: the one in progress is completed (R63, R268). -/
def DevOp.begun (o : DevOp) (m n : Nat) : Nat := if m < o.start then 0 else min n ((m - o.start) * n / max 1 (o.stop - o.start) + 1)

/-- A device operation that has not ended at `m` is abandoned (R63, R238, R268): an erase in progress leaves INCOMPLETE and its count as it
was, one that waits leaves its sector as it was, and of a run the words that have not begun stay unprogrammed. Single words are
programmed all the same. (DESIGN CHOICE, log 19) -/
def DevOp.abandon (m : Nat) (arc : Arc) (o : DevOp) : Arc :=
  if o.stop ≤ m then arc
  else match o.what with
    | .word => arc
    | .run l =>
      let left := (l.drop (o.begun m l.length)).map (fun a => a / 32)
      { arc with words := arc.words.filter (fun w => !left.contains w.1) }
    | .erase i hdr words =>
      if o.start ≤ m then arc.setHdr o.bank i { hdr with incomplete := true }
      else { arc with words := words.foldl (fun l (w : Nat × ArcWord) => wput l w.1 w.2) arc.words }.setHdr o.bank i hdr

/-- Every operation on the array is abandoned, but for a code word in progress; a host's erase leaves INCOMPLETE, which it set when it began. (DESIGN CHOICE, log 61) -/
def abandonErase (s : State) : State :=
  let arc := s.arc.dev.reverse.foldl (fun arc o => o.abandon s.mono arc) s.arc
  { s with arc := { arc with erase := none, dev := [], devUntil := 0 } }

/-- A word that fails is replaced by the next of the places that the structure has (R236). -/
def devPutFirst : List Nat → List Byte → State → State
  | [], _, s => s
  | a :: rest, bytes, s => if s.arc.weak.contains (a / 32) then devPutFirst rest bytes (devPut a bytes s) else devPut a bytes s

/-- An erase stands still at an instant: a device agent's suspension begins with `since`. -/
def ArcErase.stopped (e : ArcErase) (mono : Nat) : Bool := e.suspended || (e.byDevice && decide (e.since ≤ mono))

/-- Running time of an erase in ns. -/
def ArcErase.ran (e : ArcErase) (mono : Nat) : Nat :=
  if e.suspended then e.runNs else if e.byDevice then e.runNs - (e.since - mono) else e.runNs + (mono - e.since)

/-- The instant at which the minimum run time of an erase is met (R239): where a device agent waits for it, that of its suspension. -/
def ArcErase.minMet (e : ArcErase) : Nat := if e.byDevice then e.since else e.since + 1000000

/-- A suspension that the host asked for takes effect (R239, R242): an erase that a device agent has stopped stays so for the host. -/
def suspendNow (e : ArcErase) (s : State) : State :=
  if e.byDevice then arcEnd 0x30 stOk { s with arc.erase := some { e with pendHost := false, hostSusp := true } }
  else
    let s := { s with arc.erase := some { e with runNs := e.ran s.mono, since := s.mono, suspended := true, pendHost := false, hostSusp := true } }
    arcEnd 0x30 stOk (arcCount 5 s)

/-- The array as it stands now: a deferred suspension that met a device agent's has taken effect, and an agent whose words are done has
resumed the erase, unless the host's SUSPEND was accepted in the meantime (R242). -/
def arcNow (s : State) : State :=
  let s := match s.arc.erase with
    | some e => if e.byDevice && e.pendHost && decide (e.since ≤ s.mono) then suspendNow e s else s
    | none => s
  match s.arc.erase with
  | some e =>
    if e.byDevice && decide (s.arc.devUntil ≤ s.mono) then
      { s with arc.erase := some { e with byDevice := false, suspended := e.hostSusp, since := s.arc.devUntil } }
    else s
  | none => s

/-! ## Reports of reads (R225, R226) -/

/-- The report of a fill or burst whose largest corrected count is `n`, at the word `a`. -/
def eccCorrected (a n : Nat) (s : State) : State :=
  let s := { s with arc.eccMax := if s.arc.eccMax.toNat < n then BitVec.ofNat 2 n else s.arc.eccMax }
  if n ≠ 0 && s.arc.eccWarn.toNat ≤ n then
    raiseDet 75 (BitVec.ofNat 32 a) (msix 6 s.arc.warnIntEn
      { s with arc.warnCnt := satInc s.arc.warnCnt, arc.warnAddr := BitVec.ofNat 28 a, arc.eccWarned := true })
  else s

/-- The report of an UNCORRECTABLE word. -/
def eccUncorrectable (a : Nat) (s : State) : State :=
  raiseDet 76 (BitVec.ofNat 32 a)
    { s with arc.uncorrCnt := satInc s.arc.uncorrCnt, arc.uncorrAddr := BitVec.ofNat 28 a, arc.eccUncorr := true }

/-- The report of one 64-byte line fill or burst at `a`. -/
def eccLine (a : Nat) (s : State) : State :=
  let c0 := s.arc.classOf a
  let c1 := s.arc.classOf (a + 32)
  let s := if c0 = .uncorrectable then eccUncorrectable a s else s
  let s := if c1 = .uncorrectable then eccUncorrectable (a + 32) s else s
  if c0.count < c1.count then eccCorrected (a + 32) c1.count s else eccCorrected a c0.count s

/-- Reports of lines, with the errors that the cells show. -/
def eccLines (lines : List Nat) (s : State) : State := lines.foldl (fun t l => eccLine l t) s

/-- The 64-byte lines of a range that show bit errors, in ascending order: every other line reports nothing. -/
def Arc.errLines (arc : Arc) (a len : Nat) : List Nat :=
  ((arc.bitErrs.filter (fun e => a / 64 * 64 ≤ e.1 && e.1 < ceilDiv (a + len) 64 * 64)).map (fun e => e.1 / 64 * 64)).eraseDups.mergeSort (fun a b => a ≤ b)

/-- Whether a host operation occupies a bank, running or suspended (R224). -/
def Arc.hostOccupies (arc : Arc) (bank : Bool) : Bool :=
  (match arc.erase with | some e => e.bank = bank | none => false) ||
  (match arc.prog with | some p => !p.data.isEmpty && decide (0x08000000 ≤ p.addr) = bank | none => false)

/-- Whether any operation occupies a bank (R224). -/
def State.occupied (s : State) (bank : Bool) : Bool := s.arc.hostOccupies bank || s.devNow.any (fun o => o.bank = bank)

/-- An operation in the bank makes a stream pause: a program, or an erase that is not suspended (R224). -/
def State.pausesIn (s : State) (bank : Bool) : Bool :=
  match s.arc.erase with
  | some e => (e.bank = bank && !e.stopped s.mono) || s.devNow.any (fun o => o.bank = bank) ||
      (match s.arc.prog with | some p => !p.data.isEmpty && decide (0x08000000 ≤ p.addr) = bank | none => false)
  | none => s.occupied bank

/-- The counts of a channel S stream in a bank (R223, R224): its bursts, and its pause for an operation in progress there. -/
def streamCount (bank : Bool) (bursts : Nat) (s : State) : State :=
  let s := arcNow s
  { s with arc.sBursts := satAdd s.arc.sBursts bursts, arc.sPauses := if s.pausesIn bank then satInc s.arc.sPauses else s.arc.sPauses }

/-- A channel S stream of `len` bytes from `a` (R223), with the reports of its bursts. -/
def streamS (a len : Nat) (s : State) : State :=
  let s := streamCount (decide (0x08000000 ≤ a)) (ceilDiv len 64) s
  eccLines (s.arc.errLines a len) s

/-- A controller line that is not held is filled in place of the oldest, and a fill of a line with errors reports (R222, R225). -/
def fillCtl (errs : List Nat) (l : Nat) (s : State) : State :=
  if s.arc.ctlLines.contains l then s
  else
    let s := if errs.contains l then eccLine l s else s
    { s with arc.ctlLines := (l :: s.arc.ctlLines).take 3 }

/-- The controller reads `len` bytes from `a` over its lines of channel W (R222): on a miss the line is filled and the next sequential
line is prefetched. (DESIGN CHOICE, log 94) -/
def ctlRead (a len : Nat) (s : State) : State :=
  let errs := s.arc.errLines a (len + 64)
  (List.range (ceilDiv (a % 64 + len) 64)).foldl (fun s k =>
    let l := a / 64 * 64 + 64 * k
    if s.arc.ctlLines.contains l then s else fillCtl errs (l + 64) (fillCtl errs l s)) s

/-- Whether a range holds an UNCORRECTABLE word. -/
def Arc.uncorrIn (arc : Arc) (a len : Nat) : Bool :=
  arc.bitErrs.any (fun e => a ≤ e.1 && e.1 < a + len && arc.classOf e.1 = .uncorrectable)

/-! ## Protection (R215, R216, R243) -/

/-- Effective protection of a sector. -/
def Arc.wp (arc : Arc) (bank : Bool) (i : Nat) : Bool :=
  if bank then (arc.base1 ||| arc.over1).getLsbD i else (arc.base0 ||| arc.over0).getLsbD i

/-- SELECTOR, LEDGER (unless the running image leaves it free) or a FIRMWARE area. -/
def State.fixedArea (s : State) (bank : Bool) (i : Nat) : Bool :=
  510 ≤ i || (!bank && i < 2) || (bank && i < 8 && !(s.img.run.isSome && s.im.ledger.isNone))

/-- The overlay of both banks from a set of sectors. -/
def overlayOf (l : List (Bool × Nat)) (bank : Bool) : BitVec 544 :=
  l.foldl (fun m e => if e.1 = bank then m ||| BitVec.twoPow 544 e.2 else m) 0

/-- The sectors that a range of the archive touches. -/
def sectorsOf (a len : Nat) : List (Bool × Nat) :=
  match sectorOf a, sectorOf (a + (len - 1)) with
  | some (b, i), some (_, j) => (List.range (j + 1 - i)).map (fun k => (b, i + k))
  | _, _ => []

/-! ## Selector words (R218, R219) -/

/-- SEQ, TWIN and DIGEST_PREFIX of a valid selector word. -/
def readSelector (c : WordClass) : Option (Nat × Bool × Word) :=
  match c with
  | .programmed b _ =>
    let seq := at32 b 4
    if at32 b 0 = 0x53454C57 && at32 b 0x1C = 0xFFFFFFFF - seq && at8 b 8 ≤ 1 && part b 9 3 = zeros 3 && part b 0x10 12 = zeros 12
        && 1 ≤ seq && seq ≤ 0xFFFFFFFE
    then some (seq, at8 b 8 = 1, BitVec.ofNat 32 (at32 b 0xC)) else none
  | _ => none

/-- The valid selector word with the highest SEQ: position 0 to 511, SEQ, TWIN, prefix. -/
def Arc.newestSelector (arc : Arc) : Option (Nat × Nat × Bool × Word) :=
  (List.range 512).foldl (fun best k =>
    match readSelector (arc.classOf (32 * k)) with
    | some (seq, t, p) => match best with
      | some (_, q, _) => if q < seq then some (k, seq, t, p) else best
      | none => some (k, seq, t, p)
    | none => best) none

/-- The bytes of a selector word. -/
def selectorBytes (seq : Nat) (twin : Twin) (pre : Word) : List Byte :=
  leBytes 4 0x53454C57 ++ leBytes 4 seq ++ [if twin = .b then 1 else 0, 0, 0, 0] ++ leBytes 4 pre.toNat ++ zeros 12 ++
    leBytes 4 (0xFFFFFFFF - seq)

/-- Whether R219 permits a further selector word. -/
def Arc.selectorRoom (arc : Arc) : Bool :=
  match arc.newestSelector with
  | some (_, seq, _) => seq ≠ 0xFFFFFFFE
  | none => true

/-- The place of the next selector word: the sector to erase first, if any, and the position. -/
def Arc.selectorPlace (arc : Arc) : Option Nat × Nat :=
  match arc.newestSelector with
  | some (k, _) =>
    match ((List.range 511).map (fun d => (k + 1 + d) % 512)).find? (fun p => arc.isBlank (32 * p)) with
    | some p => (none, p)
    | none => let other := 1 - k / 256; (some other, other * 256)
  | none =>
    match (List.range 512).find? (fun p => arc.isBlank (32 * p)) with
    | some p => (none, p)
    | none => (some 0, 0)

/-- The first word of a sector has been programmed: the other sector is erased where it holds words (R219). -/
def relieve (place : Nat) (s : State) : State :=
  let other := 1 - place / 256
  let dirty := (List.range 256).any (fun w => !s.arc.isBlank (32 * (other * 256 + w)))
  if place % 256 = 0 && dirty then devErase false other s else s

/-- The erase that must come before the next selector word, and the word's place (R219). -/
def selectorSpace (s : State) : State × Nat :=
  let (first, place) := s.arc.selectorPlace
  (match first with | some i => devErase false i s | none => s, place)

/-- Programs and verifies a selector word in the next place, with the erase that must come first and, where the word stands, the relief erase
that follows; a word that fails is replaced in the place after it, at most `n` times (R218, R219, R236). (DESIGN CHOICE, log 63) -/
def putSelector (bytes : List Byte) : Nat → State → State
  | 0, s => let (s, place) := selectorSpace s; relieve place (devPut (32 * place) bytes s)
  | n + 1, s =>
    let (s, place) := selectorSpace s
    let t := devPut (32 * place) bytes s
    if s.arc.weak.contains place then putSelector bytes n t else relieve place t

/-- The SEQ of the next selector word (R219). -/
def Arc.nextSeq (arc : Arc) : Nat :=
  match arc.newestSelector with
  | some (_, q, _) => q + 1
  | none => 1

/-- Programs and verifies the next selector word. (DESIGN CHOICE, log 63) -/
def writeSelector (twin : Twin) (pre : Word) (s : State) : State := putSelector (selectorBytes s.arc.nextSeq twin pre) s.arc.weak.length s

/-! ## The end of the host's program, blank check and swap -/

/-- The host's word is programmed (R235, R251). -/
def wordEnds (p : ArcProg) (s : State) : State :=
  arcEnd 0x10 stOk (arcCount 0 { s with arc := { s.arc.put p.addr p.data with prog := none } })

/-- The selector word of SWAP_BOOT is programmed and verified, a word that fails is replaced, and a relief erase follows where the word is
the first of its sector (R219, R236, R249). -/
def swapEnds (p : ArcProg) (s : State) : State :=
  let failed := s.arc.weak.contains (p.addr / 32)
  let s := devWord p.addr p.data { s with arc.prog := none }
  let s := if failed then putSelector p.data s.arc.weak.length s else relieve (p.addr / 32) s
  arcEnd 0x60 stOk (arcResults [BitVec.ofNat 32 (at32 p.data 4)] s)

/-- Addresses of the code words of a sector. -/
def wordsIn (a : Nat) : List Nat :=
  match sectorOf a with
  | some (b, i) => (List.range (sectorSize i / 32)).map (fun k => sectorBase b i + 32 * k)
  | none => []

/-- BLANK_CHECK ends with its results (R248). -/
def blankEnds (p : ArcProg) (s : State) : State :=
  let used := (wordsIn p.addr).filter (fun a => !s.arc.isBlank a)
  let torn := used.filter (fun a => s.arc.classOf a = .torn)
  let first := match used.head? with | some a => a | none => 0x0FFFFFE0
  arcEnd 0x70 stOk (arcResults [BitVec.ofNat 32 (b2n used.isEmpty), BitVec.ofNat 32 first, BitVec.ofNat 32 used.length, BitVec.ofNat 32 torn.length]
    { s with arc.prog := none })

/-- The operation in progress on the array ends. -/
def progEnds (s : State) : State :=
  match s.arc.prog with
  | some p => if p.code = 0x60 then swapEnds p s else if p.code = 0x70 then blankEnds p s else wordEnds p s
  | none => s

/-- A device agent needs the array (R230, R239, R242): it waits for the word of a host program, and suspends a running host erase once its
minimum run time is met. (DESIGN CHOICE, log 19; DESIGN CHOICE, log 63) -/
def agentTurn (s : State) : State :=
  let s := progEnds (arcNow s)
  match s.arc.erase with
  | some e =>
    if e.suspended || e.byDevice then s
    else
      let start := max s.mono e.minMet
      let s := { s with arc.devUntil := max s.arc.devUntil start }
      if e.pendHost then s
      else arcCount 5 { s with arc.erase := some { e with runNs := e.runNs + (start - e.since), since := start, byDevice := true } }
  | none => s

end Sys2Proof.Machine
end

