-- ==== Sys2Proof/Machine/Ledger.lean ====
section
/-! DEFINITION. The turnstile's ledger: entries and their MAC chain, the write point, periods, steps and resumption
(15_turnstile.md). -/
namespace Sys2Proof.Machine

/-! ## Entries (R286, R287) -/

/-- The LEDGER section of the running image. -/
def State.ledgerSec (s : State) : LedgerSec := s.im.ledger.getD {}

/-- The turnstile works: RUN or FULL. -/
def Ldg.on (l : Ldg) : Bool := l.lstate = 2 || l.lstate = 3

/-- Code words of an entry (R286): entries with accruals grow with the number of features. -/
def entryWords (nf : Nat) (type : Byte) : Nat :=
  if (type = 2 || type = 3) && 3 < nf then 2 + ceilDiv (nf - 3) 8 else 2

/-- The data words of an entry, ahead of its MAC. -/
def entryData (nf : Nat) (seq : Nat) (e : LedgerEntry) : List Byte :=
  let accs := e.accs ++ List.replicate 19 (0 : Word)
  let tail := if e.type = 1 || e.type = 2 || e.type = 3 then bytesOf (accs.take 3) else fitBytes 12 e.extra
  let w0 := [e.type, e.flags] ++ leBytes 2 e.period.toNat ++ leBytes 4 seq ++ leBytes 8 e.stamp.toNat ++
    leBytes 4 e.elapsed.toNat ++ tail
  w0 ++ fitBytes (32 * (entryWords nf e.type - 2)) (bytesOf ((accs.drop 3).take 16))

/-- The MAC of an entry, from its data and the MAC of SEQ − 1 (R287). -/
def entryMac (key : BitVec 256) (data : List Byte) (last : BitVec 256) : BitVec 256 :=
  digestOf (hmac (Config.ledgerKey key) (data ++ digestBytes last))

def ledgerBase : Nat := 0x08000000

/-- Address of code word `p` of the LEDGER area. -/
def ledgerAddr (p : Nat) : Nat := ledgerBase + 32 * (p % 2048)

/-- Splits bytes into code words. -/
def chunk32 : Nat → List Byte → List (List Byte)
  | 0, _ => []
  | n + 1, bs => bs.take 32 :: chunk32 n (bs.drop 32)

/-- Positions from `p` on of which `n` do not fail when they are programmed: the last of them holds the last of `n` words, since a word
that fails is replaced by the next (R236). -/
def Arc.ledgerSpan (arc : Arc) (p n : Nat) : List Nat :=
  let l := (List.range (n + arc.weak.length)).map (fun i => p + i)
  match ((l.filter (fun q => !arc.weak.contains (ledgerAddr q / 32))).take n).getLast? with
  | some q => l.takeWhile (fun x => x ≤ q)
  | none => []

/-- Programs code words from position `p` of the LEDGER area, round its end, and verifies each: a word that fails is replaced by the next
(R236, R287). -/
def putLedger (p : Nat) (words : List (List Byte)) (s : State) : State :=
  ((s.arc.ledgerSpan p words.length).foldl (fun (acc : State × List (List Byte)) q =>
    match acc.2 with
    | w :: ws => (devPut (ledgerAddr q) w acc.1, if s.arc.weak.contains (ledgerAddr q / 32) then w :: ws else ws)
    | [] => acc) (s, words)).1

/-- ELAPSED of the open period kept up to the present instant, in states that have boundaries (R285). -/
def ldgTouch (s : State) : State :=
  { s with ldg.elapsedNs := s.ldg.elapsedNs + (if s.mode.ticks && s.ldg.period.isSome then s.mono - s.ldg.elMono else 0)
           ldg.elMono := s.mono }

/-- The accruals of the open period in whole seconds. -/
def Ldg.accs (l : Ldg) (nf : Nat) : List Word := (l.accNs.toList.take nf).map (fun n => BitVec.ofNat 32 (n / 1000000000))

/-- An entry of the open period: flags as given, SETBACK_SEEN and UNJUDGED as they stand. -/
def ldgEntry (type flags : Byte) (s : State) : LedgerEntry :=
  { type := type
    flags := flags ||| (if s.ldg.setbackSeen then 4 else 0) ||| (if s.tim.locked then 0 else 0x10)
    period := BitVec.ofNat 16 (s.ldg.period.getD 0)
    stamp := w64 s.stamp
    elapsed := BitVec.ofNat 32 (s.ldg.elapsedNs / 1000000000)
    accs := s.ldg.accs s.ledgerSec.features.length }

/-- A sector of the area holds words. -/
def Arc.ledgerDirty (arc : Arc) (k : Nat) : Bool := (List.range 256).any (fun w => !arc.isBlank (ledgerAddr (256 * k + w)))

/-- The turnstile enters FULL (R288). -/
def ldgFull (s : State) : State := raiseDet 81 0 (msix 8 s.ldg.intEn { s with ldg.lstate := 3 })

/-- The words of an entry stand at the write point, which moves past them; where it enters a sector, the next one is erased if all its
entries are acknowledged, and FULL follows where the sector entered is not blank (R288). -/
def ldgStore (e : LedgerEntry) (s : State) : State :=
  let nf := s.ledgerSec.features.length
  let n := entryWords nf e.type
  let seq := s.ldg.seq.toNat + 1
  let data := entryData nf seq e
  let mac := entryMac s.otp.deviceKey data s.ldg.lastMac
  let p := s.ldg.writePt
  let span := (s.arc.ledgerSpan p n).length
  let s := putLedger p (chunk32 n (data ++ digestBytes mac)) (agentTurn s)
  let sec0 := p / 256 % 8
  let sec1 := (p + span - 1) / 256 % 8
  let s := { s with ldg.seq := BitVec.ofNat 32 seq, ldg.lastMac := mac, ldg.lastStamp := e.stamp
                    ldg.writePt := (p + span) % 2048
                    ldg.secSeq := tset (tset s.ldg.secSeq sec0 seq) sec1 seq }
  let here := (p + span) % 2048 / 256
  let next := (here + 1) % 8
  let entered := p % 256 = 0 || here ≠ sec0
  let s :=
    if s.mode ≠ .removal && entered && s.arc.ledgerDirty next && tget s.ldg.secSeq next ≤ s.ldg.ackedSeq.toNat && next ≠ sec1 then
      { devErase true next s with ldg.secSeq := tset s.ldg.secSeq next 0 }
    else s
  if s.ldg.lstate = 2 && here ≠ sec1 && s.arc.ledgerDirty here then ldgFull s else s

/-- Writes an entry, or enters or stays in FULL (R288): CLOSE entries are queued, up to 8, others counted. -/
def ldgWrite (e : LedgerEntry) (s : State) : State :=
  if !s.ldg.on then s
  else
    let n := entryWords s.ledgerSec.features.length e.type
    let room := (s.arc.ledgerSpan s.ldg.writePt n).all (fun q => s.arc.isBlank (ledgerAddr q))
    if s.ldg.lstate = 2 && room then ldgStore e s
    else
      let s := if s.ldg.lstate = 2 then ldgFull s else s
      if e.type = 3 && s.ldg.queued.length < 8 then { s with ldg.queued := s.ldg.queued ++ [e] }
      else { s with ldg.lost := satInc s.ldg.lost }

/-- A CHECKPOINT entry, FINAL or not (R289). -/
def ldgCheckpoint (final : Bool) (s : State) : State :=
  if s.ldg.on then
    let s := ldgTouch s
    { ldgWrite (ldgEntry 2 (if final then 8 else 0) s) s with ldg.ckptMono := s.mono }
  else s

/-! ## Periods (R284, R291) -/

/-- Start and end of a period that the table holds. -/
def Ldg.startOf (l : Ldg) (p : Nat) : Option Nat := if p < l.first then none else l.bounds[p - l.first]?
def Ldg.endOf (l : Ldg) (p : Nat) : Option Nat := if p < l.first then none else l.bounds[p - l.first + 1]?

/-- The backstop of a period in ns of ELAPSED (R291). (DESIGN CHOICE, log 17) -/
def Ldg.backstopOf (l : Ldg) (slack p : Nat) : Option Nat :=
  match l.startOf p, l.endOf p with
  | some a, some b => some ((b - a) * (100 + slack) / 100)
  | _, _ => none

/-- END_MISSING of the open period, reported once (R293). -/
def ldgEndCheck (s : State) : State :=
  match s.ldg.period with
  | some p =>
    if (s.ldg.endOf p).isNone then
      if s.ldg.endMissing then s else raiseDet 81 1 (msix 8 s.ldg.intEn { s with ldg.endMissing := true })
    else { s with ldg.endMissing := false }
  | none => { s with ldg.endMissing := false }

/-- Closes the open period: a CLOSE entry; the whole seconds leave the accruals and the remainder stays (R283). -/
def ldgClose (flags : Byte) (s : State) : State :=
  let s := ldgTouch s
  let s := ldgWrite (ldgEntry 3 flags s) s
  let s := { s with ldg.accNs := s.ldg.accNs.map (fun n => n % 1000000000), ldg.elapsedNs := 0, ldg.setbackSeen := false
                    ldg.backstop := none, ldg.period := none
                    ldg.closeCnt := satInc s.ldg.closeCnt
                    ldg.skipCnt := if flags.getLsbD 0 then satInc s.ldg.skipCnt else s.ldg.skipCnt
                    ldg.backstopCnt := if flags.getLsbD 1 then satInc s.ldg.backstopCnt else s.ldg.backstopCnt }
  msix 8 s.ldg.intEn s

/-- Opens a period at the present instant. -/
def ldgOpen (p : Nat) (s : State) : State :=
  ldgEndCheck { s with ldg.period := some p, ldg.elapsedNs := 0, ldg.elMono := s.mono }

/-- Closes a period that lies within a step, with zero accrual and SKIPPED (R290). -/
def ldgSkip (p : Nat) (s : State) : State :=
  let acc := s.ldg.accNs
  let s := { s with ldg.period := some p, ldg.accNs := Vector.replicate 16 0, ldg.elapsedNs := 0, ldg.elMono := s.mono }
  { ldgClose 1 s with ldg.accNs := acc }

/-- The period that holds a time, if the table has one. -/
def Ldg.holding (l : Ldg) (t : Nat) : Option Nat :=
  let n := (l.bounds.takeWhile (fun b => b ≤ t)).length
  if n = 0 then none else some (l.first + n - 1)

/-- Periods from `p` up to `q` that lie wholly after the stamp `old` are skipped, and period `q` opens (R290). -/
def ldgSkipTo (old p q : Nat) (s : State) : State :=
  let within (i : Nat) : Bool := match s.ldg.startOf i with | some a => decide (old ≤ a) | none => false
  ldgOpen q (((List.range' p (q - p)).filter within).foldl (fun t i => ldgSkip i t) s)

/-- Device time has reached the end of the open period, or a first boundary, from the stamp `old`: close, skip and open (R284, R290). -/
def ldgJudge (old : Nat) (s : State) : State :=
  if !s.ldg.on || !s.tim.locked then s
  else match s.ldg.period with
    | none =>
      match s.ldg.holding s.stamp with
      | some q => ldgSkipTo old s.ldg.first q s
      | none => s
    | some p =>
      match s.ldg.endOf p with
      | none => s
      | some b =>
        if s.stamp < b then s
        else
          let s := ldgClose 0 s
          match s.ldg.holding s.stamp with
          | some q => ldgSkipTo 0 (p + 1) q s
          | none => s

/-- After a setback the accrual stays in the open period and its backstop is armed (R291). -/
def ldgArm (s : State) : State :=
  match s.ldg.period with
  | some p => { s with ldg.setbackSeen := true, ldg.backstop := s.ldg.backstopOf s.ledgerSec.slack p }
  | none => s

/-- A STEP or SETBACK entry (R290), with the old stamp. -/
def ldgStepEntry (old new : Nat) (s : State) : State :=
  let s := ldgTouch s
  let below := match s.ldg.period with
    | some p => match s.ldg.startOf p with
      | some a => decide (new < a)
      | none => false
    | none => false
  let s := if below then msix 8 s.ldg.intEn { ldgArm s with ldg.setbackCnt := satInc s.ldg.setbackCnt } else s
  ldgWrite { ldgEntry (if below then 5 else 4) 0 s with stamp := w64 new, extra := leBytes 8 old } s

/-- The time base hands a step over (R53, R290). -/
def ldgStep (old new : Nat) (s : State) : State := if s.ldg.on then ldgJudge old (ldgStepEntry old new s) else s

/-- The first time lock after a reset (R292): device time against the resumed open period. -/
def ldgFirstLock (s : State) : State :=
  if !s.ldg.on || s.ldg.compared || !s.tim.locked then s
  else
    let s := { s with ldg.compared := true }
    match s.ldg.period with
    | none => ldgJudge s.stamp s
    | some p =>
      let below := match s.ldg.startOf p with | some a => decide (s.stamp < a) | none => false
      let past := match s.ldg.endOf p with | some b => decide (b ≤ s.stamp) | none => false
      if below || past then ldgJudge s.ldg.resetStamp (ldgStepEntry s.ldg.resetStamp s.stamp s) else s

/-- The close at the backstop (R291); the next period opens at once and inherits while time lies below it. -/
def ldgBackstop (s : State) : State :=
  match s.ldg.period with
  | none => s
  | some p =>
    let s := ldgOpen (p + 1) (ldgClose 2 s)
    let below := match s.ldg.startOf (p + 1) with | some a => decide (s.stamp < a) | none => false
    if below then ldgArm s else s

/-- Accrual of the tick that ends now (R283): its monotonic length to every feature whose gate allows. -/
def ldgAccrue (len : Nat) (emitRun : Bool) (gateDone : Nat → Bool) (s : State) : State :=
  if !s.ldg.on || !emitRun then s
  else
    let feats := s.ledgerSec.features
    let gets (f : Nat × Nat) : Bool := f.2 = 0xFFF || gateDone f.2
    if s.ldg.period.isSome then
      { s with ldg.accNs := (feats.zipIdx).foldl (fun v e => if gets e.1 then tmod v e.2 (· + len) else v) s.ldg.accNs }
    else if feats.any gets then { s with ldg.unperiodNs := s.ldg.unperiodNs + len } else s

/-! ## Resumption at LOAD (R289, R293) -/

/-- An entry as found in the area: position, words, SEQ, TYPE, FLAGS, PERIOD, STAMP, ELAPSED, data, MAC. -/
structure FoundEntry where
  pos : Nat
  words : Nat
  seq : Nat
  type : Nat
  flags : Byte
  period : Nat
  stamp : Nat
  elapsed : Nat
  data : List Byte
  mac : BitVec 256
  /-- The MAC that its own covers (R287). -/
  last : BitVec 256
deriving DecidableEq, Repr, Inhabited

/-- The MAC that stands before position `p`: the last word before it that is PROGRAMMED and did not fail. -/
def Arc.macBefore (arc : Arc) (p : Nat) : BitVec 256 :=
  match ((List.range 8).map (fun k => p + 2047 - k)).find? (fun q => !arc.weak.contains (ledgerAddr q / 32) &&
      (match arc.classOf (ledgerAddr q) with | .programmed _ _ => true | _ => false)) with
  | some q => digestOf (arc.classOf (ledgerAddr q)).data
  | none => 0

/-- Tries to read an entry of `n` words at position `p`, past words that failed: its MAC must close over the one before it (R287). (DESIGN CHOICE, log 17) -/
def entryAt (key : BitVec 256) (arc : Arc) (p n : Nat) : Option FoundEntry :=
  match arc.classOf (ledgerAddr p) with
  | .programmed w0 _ =>
    let seq := at32 w0 4
    let type := at8 w0 0
    if 1 ≤ type && type ≤ 7 && 1 ≤ seq && at8 w0 1 < 64 then
      let span := arc.ledgerSpan p n
      let words := (span.filter (fun q => !arc.weak.contains (ledgerAddr q / 32))).map (fun q => (arc.classOf (ledgerAddr q)).data)
      let data := (words.take (n - 1)).flatten
      let mac := digestOf (words.getD (n - 1) [])
      let last := if seq = 1 then 0 else arc.macBefore p
      if entryMac key data last = mac then
        some { pos := p, words := span.length, seq := seq, type := type, flags := BitVec.ofNat 8 (at8 w0 1), period := at16 w0 2,
               stamp := at64 w0 8, elapsed := at32 w0 0x10, data := data, mac := mac, last := last }
      else none
    else none
  | _ => none

/-- Every entry of the area whose MAC holds. (DESIGN CHOICE, log 17) -/
def foundEntries (key : BitVec 256) (arc : Arc) : List FoundEntry :=
  (List.range 2048).filterMap (fun p =>
    ((entryAt key arc p 2).orElse (fun _ => (entryAt key arc p 3).orElse (fun _ => entryAt key arc p 4))))

/-- The entry of the highest SEQ among those that satisfy `ok`. -/
def newestEntry (ok : FoundEntry → Bool) (l : List FoundEntry) : Option FoundEntry :=
  l.foldl (fun best e => if ok e then match best with
    | some b => if b.seq < e.seq then some e else best
    | none => some e else best) none

/-- Whether the entries found show that period `p` had opened: an entry of it, or the CLOSE of the period before it. Before B_0 no period is open,
and entries name period 0 all the same: there, one with time, or a judged one with a stamp past its start, shows it (R284, R286). (DESIGN CHOICE, log 17) -/
def periodOpened (found : List FoundEntry) (start : Option Nat) (p : Nat) : Bool :=
  found.any (fun e => (e.period = p && e.type ≠ 3 && (0 < p || 0 < e.elapsed || e.flags.getLsbD 2 ||
      (e.type ≠ 6 && !e.flags.getLsbD 4 && (match start with | some a => decide (a ≤ e.stamp) | none => false)))) ||
    (e.type = 3 && e.period + 1 = p))

/-- The first BLANK position from `p` on: words that a loss of power left TORN are passed over. (DESIGN CHOICE, log 17) -/
def Arc.ledgerNext (arc : Arc) (p : Nat) : Nat :=
  (((List.range 256).map (fun k => (p + k) % 2048)).find? (fun q => arc.isBlank (ledgerAddr q))).getD (p % 2048)

/-- The seconds of an entry's features: START holds the first three (R286). -/
def entryAccs (e : FoundEntry) : List Nat :=
  (List.range 3).map (fun i => at32 e.data (0x14 + 4 * i)) ++ (if e.type = 1 then [] else (List.range 13).map (fun i => at32 e.data (0x20 + 4 * i)))

/-- The accruals that stand in the ledger (R289): of the newest START, CHECKPOINT or CLOSE, which ends them; those that a START has no room for, of
the CHECKPOINT before it. -/
def resumedAccs (found : List FoundEntry) : List Nat :=
  let before := newestEntry (fun e => e.type = 2 || e.type = 3) found
  let full := match before with | some b => if b.type = 3 then [] else entryAccs b | none => []
  match newestEntry (fun e => e.type = 1 || e.type = 2 || e.type = 3) found with
  | some a => if a.type = 1 then entryAccs a ++ full.drop 3 else full
  | none => []

/-- At LOAD the turnstile resumes from the newest entry (R289) and restores BOUND entries (R293). (DESIGN CHOICE, log 17) -/
def ldgResume (s : State) : State :=
  match s.im.ledger with
  | none => s
  | some sec =>
    let s := ctlRead ledgerBase 0x10000 s
    let found := foundEntries s.otp.deviceKey s.arc
    let secSeq := found.foldl (fun (v : Vector Nat 8) e =>
      (List.range e.words).foldl (fun v i => tmod v ((e.pos + i) / 256 % 8) (max e.seq)) v) (Vector.replicate 8 0)
    let lastB := sec.bounds.getLastD 0
    let extra := ((found.filter (fun e => e.type = 6 && lastB < e.stamp)).map (fun e => e.stamp)).mergeSort
    let all := sec.bounds ++ extra
    let drop := all.length - 64
    let s := { s with ldg.lstate := 1, ldg.bounds := all.drop drop, ldg.first := drop, ldg.secSeq := secSeq }
    let s := match newestEntry (fun e => e.type = 7) found with
      | some e => { s with ldg.ackedSeq := BitVec.ofNat 32 (at32 e.data 0x14) }
      | none => s
    match newestEntry (fun _ => true) found with
    | none => s
    | some e =>
      let acc := resumedAccs found
      let closed := e.type = 3
      let seen := e.flags.getLsbD 2 && !closed
      let per := if closed then e.period + 1 else e.period
      let s := { s with
        ldg.seq := BitVec.ofNat 32 e.seq, ldg.lastMac := e.mac, ldg.lastStamp := w64 e.stamp, ldg.resetStamp := e.stamp
        ldg.writePt := s.arc.ledgerNext (e.pos + e.words)
        ldg.period := if (s.ldg.startOf per).isSome && periodOpened found (s.ldg.startOf per) per then some per else none
        ldg.elapsedNs := if closed then 0 else e.elapsed * 1000000000
        ldg.accNs := Vector.ofFn (fun (i : Fin 16) => (acc.getD i.val 0) * 1000000000)
        ldg.setbackSeen := seen }
      { s with ldg.backstop := if seen then s.ldg.backstopOf sec.slack per else none }

/-- At ARMED the turnstile runs and writes a START entry (R289); a first time lock that came before is compared then (R292). -/
def ldgStart (s : State) : State :=
  if s.ldg.lstate = 1 then
    let s := { s with ldg.lstate := 2, ldg.elMono := s.mono, ldg.ckptMono := s.mono }
    ldgFirstLock (ldgEndCheck (ldgWrite (ldgEntry 1 0 s) s))
  else s

/-- At a commit that changes the LEDGER section the open period closes with COMMIT, under the old image. -/
def ldgCommitClose (s : State) : State := if s.ldg.on && s.ldg.period.isSome then ldgClose 0x20 s else s

/-- The new table governs from the commit's instant. (DESIGN CHOICE, log 17) -/
def ldgCommitOpen (new : Option LedgerSec) (s : State) : State :=
  match new with
  | none => { s with ldg.lstate := 0, ldg.bounds := [], ldg.period := none, ldg.endMissing := false, ldg.backstop := none }
  | some sec =>
    let was := s.ldg.on
    let s := { s with ldg.bounds := sec.bounds, ldg.first := 0, ldg.lstate := if was then s.ldg.lstate else 2
                      ldg.elMono := s.mono, ldg.ckptMono := if was then s.ldg.ckptMono else s.mono }
    ldgEndCheck (ldgJudge s.stamp s)

end Sys2Proof.Machine
end

