-- ==== Sys2Proof/Machine/Clock.lean ====
section
/-! DEFINITION. Device time and the monotonic counter: the counter update, steps, slews, the servo and time lock
(02_time_base.md). -/
namespace Sys2Proof.Machine

/-- 10⁻¹² ns in a ns, the unit of `frac` and of the rates. -/
def unit12 : Int := 1000000000000

/-- A second in ns. -/
def sec9 : Nat := 1000000000

/-! ## Lock and steps (R42, R53) -/

/-- LOCKED changes: vector 11; a clear in RUN without free-run becomes a cause of DEGRADED at the boundary (R66); a
set ends FREE_RUN (R65) and starts the turnstile's comparison (R292). PPS_OUT stays low while it reads 0 (R55). -/
def setLocked (b : Bool) (s : State) : State :=
  if s.tim.locked = b then s
  else
    let s := msix 11 s.tim.intEn { s with tim.locked := b }
    if b then ldgFirstLock { s with gctl.freeRun := false, gctl.lockLost := false, gctl.degTime := false }
    else { s with tim.ppsStep := true, pins.ppsOutUntil := 0, gctl.lockLost := s.mode = .run && !s.im.tick.freeRunOk }

/-- A step of device time (R53): counted, recorded, signalled, and handed to the turnstile. `old` is the stamp that
would have been reached. A boundary that is announced keeps its instant (R419), so its stamp moves. It ends a slew, and the next measurement leaves F unchanged (R52, R415). -/
def timeStep (cause : BitVec 3) (old new : Nat) (s : State) : State :=
  let s := { s with
    tim.dev := new, tim.frac := 0, tim.slewRest := 0, tim.fresh := true
    tim.stepCnt := satInc s.tim.stepCnt, tim.stepSrc := cause, tim.stepOld := w64 old, tim.stepNew := w64 new
    tim.steps := { mono := s.mono, old := old, new := new } :: s.tim.steps
    tck.stepped := s.tck.stepped || s.tck.active = srcInternal
    tck.lead := s.tck.lead.map (fun l => (((l.1 : Int) + new - old).toNat, l.2)) }
  ldgStep old new (msix 11 s.tim.intEn s)

/-- A host STEP (R49): the first one sets LOCKED in FREE (R42). -/
def hostStep (old new : Nat) (s : State) : State :=
  let s := timeStep 0 old new s
  if s.tim.discAct = discFree then setLocked true s else s

/-- A slew begins (R52). -/
def slewBegin (ofs : Int) (ppm : Nat) (s : State) : State :=
  { s with tim.slewRest := ofs * unit12, tim.slewPpm := ppm, tim.slewCnt := satInc s.tim.slewCnt }

/-- An apply takes effect (R49); `old` is the stamp reached by this update. -/
def takeApply (a : TimApply) (old : Nat) (s : State) : State :=
  if a.slew then slewBegin a.value a.rate s else hostStep old a.value.toNat s

/-! ## The counter update (R38, R415) -/

/-- Rate of the host slew in progress, in 10⁻¹². -/
def Tim.slewRate (t : Tim) : Int := t.slewRest.sign * (t.slewPpm * 1000000 : Nat)

/-- TIM_RATE: F + P and the host slew. -/
def Tim.rate (t : Tim) : Int := t.fTerm + t.pTerm + t.slewRate

/-- The fastest that device time runs on its present course: a slew to later counts, one to earlier may end. -/
def Tim.fastest (t : Tim) : Int := max t.rate (t.fTerm + t.pTerm)

/-- The course of device time from the present instant on. -/
def Tim.knot (t : Tim) : Knot := { mono := t.mono, dev := t.dev, frac := t.frac, rate := t.fTerm + t.pTerm, rest := t.slewRest, ppm := t.slewPpm }

/-- `k` counter updates later: the monotonic counter by 4 ns each, device time by 4 ns and the whole nanoseconds of the
accumulated correction. The last update of a slew adds what remains of it (R52). -/
def Knot.after (k : Nat) (x : Knot) : Knot :=
  let step := 4 * k * (x.rest.sign * (x.ppm * 1000000 : Nat))
  let spent := if x.rest.natAbs ≤ step.natAbs then x.rest else step
  let total := x.frac + 4 * k * x.rate + spent
  { x with mono := x.mono + 4 * k, dev := ((x.dev + 4 * k : Nat) + total.fdiv unit12).toNat, frac := total.fmod unit12, rest := x.rest - spent }

/-- The changes of course, with the present one where it is not the latest that is known. -/
def Tim.marked (t : Tim) : List Knot :=
  if (t.knots.head?).any (fun x => x.after ((t.mono - x.mono) / 4) = t.knot) then t.knots else t.knot :: t.knots

/-- `k` counter updates on one course. -/
def plainUpdates (k : Nat) (s : State) : State :=
  let x := s.tim.knot.after k
  { s with tim.mono := x.mono, tim.dev := x.dev, tim.frac := x.frac, tim.slewRest := x.rest, tim.knots := s.tim.marked }

/-- A discipline is staged (R40): it is another change than the one that a pending apply came with, which does not spare that apply. -/
def stageDisc (d : BitVec 2) (s : State) : State :=
  { s with tim.disc := d, tim.discPend := if d = s.tim.discAct then none else some d
           tim.pend := s.tim.pend.map (fun a => { a with withDisc := false }) }

/-- A staged discipline takes effect (R40): a pending apply is withdrawn unless it came in the same write, P and a
slew end, and the new discipline begins from F. (DEDUCED, log 21) -/
def takeDisc (d : BitVec 2) (s : State) : State :=
  let keep := match s.tim.pend with | some a => a.withDisc | none => true
  { s with
    tim.discAct := d, tim.discPend := none, tim.pTerm := 0, tim.slewRest := 0, tim.fresh := true, tim.goodRun := 0
    tim.holdover := false, tim.refMono := s.mono, tim.tclkMono := s.mono, tim.ppsStep := s.tim.ppsStep || d = discPps
    tim.timeclkOk := s.tim.timeclkOk && d = discPps
    tim.pend := if keep then s.tim.pend.map (fun a => { a with withDisc := false }) else none
    tim.applyStat := if keep then s.tim.applyStat else stAborted }

/-- One counter update: a staged discipline, the applies of R49 that wait for it, and at a roll-over the pending one. An
IMMEDIATE step replaces both fields, so its update rolls nothing over. (DESIGN CHOICE, log 2) -/
def counterUpdate (s : State) : State :=
  let s := match s.tim.discPend with
    | some d => takeDisc d s
    | none => s
  let second := s.tim.dev / sec9
  let s := plainUpdates 1 s
  let rolls := decide (s.tim.dev / sec9 ≠ second) && s.tim.now.all (fun a => a.slew)
  let s := s.tim.now.foldl (fun u a => takeApply a u.tim.dev u) { s with tim.now := [] }
  if !rolls then s
  else match s.tim.pend with
    | some a => takeApply a s.tim.dev { s with tim.pend := none }
    | none => s

/-- Updates that device time needs at least to advance by `d` ns. -/
def Tim.updatesFor (t : Tim) (d : Nat) : Nat := (Int.ediv (d * unit12 - t.frac + 4 * (unit12 + t.fastest) - 1) (4 * (unit12 + t.fastest))).toNat

/-- How many of the next `n` updates pass at one rate with nothing staged that takes effect: 0 where the next one does
more than count. -/
def Tim.stretch (t : Tim) (n : Nat) : Nat :=
  if t.discPend.isSome || !t.now.isEmpty then 0
  else
    let ks := if t.slewRest = 0 || t.slewPpm = 0 then n else max 1 (ceilDiv t.slewRest.natAbs (4 * t.slewPpm * 1000000))
    let kp := if t.pend.isSome then t.updatesFor (sec9 - t.dev % sec9) - 1 else n
    min n (min ks kp)

/-- `n` counter updates, with the stretches between events taken at once. -/
def updates : Nat → Nat → State → State
  | 0, n, s => plainUpdates n s
  | fuel + 1, n, s =>
    if n = 0 then s
    else
      let k := s.tim.stretch n
      if k = 0 then updates fuel (n - 1) (counterUpdate s) else updates fuel (n - k) (plainUpdates k s)

/-- Time passes until a monotonic instant; nothing happens where it is already reached. (DESIGN CHOICE, log 6) -/
def advanceTo (m : Nat) (s : State) : State := updates 16 (ceilDiv (m - s.tim.mono) 4) s

/-- Time passes until device time reads at least `g`, or until a step on the way changes it. (DESIGN CHOICE, log 6) -/
def advanceStamp (g : Nat) (s : State) : State :=
  (List.range 16).foldl (fun t _ =>
    if g ≤ t.tim.dev || t.tim.steps.length ≠ s.tim.steps.length then t
    else
      let k := t.tim.stretch (t.tim.updatesFor (g - t.tim.dev))
      if k = 0 then counterUpdate t else plainUpdates k t) s

/-- Time passes to the stamp that `g` names, looked up anew after a step on the way. -/
def toStamp : Nat → (State → Int) → State → State
  | 0, _, s => s
  | n + 1, g, s =>
    let u := advanceStamp (g s).toNat s
    if u.tim.steps.length = s.tim.steps.length then u else toStamp n g u

/-! ## Measurements (R41, R42, R415) -/

/-- A quotient rounded to the nearest integer. (DESIGN CHOICE, log 13) -/
def roundDiv (a : Int) (b : Nat) : Int := Int.fdiv (2 * a + b) (2 * b)

def rateLimit : Int := 500000000

/-- A number held within ± `m`. -/
def holdWithin (m v : Int) : Int := max (-m) (min m v)

/-- The lock rule of R42 for a measurement. -/
def lockJudge (o : Int) (s : State) : State :=
  let thr := s.im.time.lockThr
  if o.natAbs ≤ thr then
    let s := { s with tim.goodRun := s.tim.goodRun + 1 }
    if 4 ≤ s.tim.goodRun then setLocked true s else s
  else
    let s := { s with tim.goodRun := 0 }
    if 4 * thr < o.natAbs then setLocked false s else s

/-- A measurement of the offset `o` (device time minus reference) over the nominal interval `i` ns: it ends
holdover, steps or slews, and judges LOCKED. (DESIGN CHOICE, log 13) -/
def measure (cause : BitVec 3) (o : Int) (i : Nat) (s : State) : State :=
  let wasHold := s.tim.holdover
  let s := { s with tim.offset := BitVec.ofInt 32 (clampSigned 32 o), tim.refMono := s.mono, tim.holdover := false
                    tim.fresh := s.tim.fresh || wasHold }
  let s := if wasHold then msix 11 s.tim.intEn s else s
  let s :=
    if s.im.time.stepThr * 1000 < o.natAbs then
      timeStep cause s.tim.dev ((s.tim.dev : Int) - o).toNat { s with tim.pTerm := 0 }
    else
      let f := if s.tim.fresh then s.tim.fTerm else holdWithin rateLimit (s.tim.fTerm - roundDiv (o * unit12) (4 * i))
      let p := roundDiv (-o * unit12) i
      { s with tim.fTerm := f, tim.pTerm := holdWithin rateLimit (f + p) - f, tim.fresh := false }
  lockJudge o s

/-- The reference falls silent (R43): F stays, P ends, HOLDOVER is set. -/
def enterHoldover (s : State) : State :=
  if s.tim.holdover then s
  else msix 11 s.tim.intEn { s with tim.holdover := true, tim.holdMono := s.mono, tim.pTerm := 0, tim.slewRest := 0 }

/-! ## Stamps of other instants -/

/-- How far device time has been stepped since the monotonic instant `m`. -/
def steppedSince (m : Nat) (s : State) : Int :=
  (s.tim.steps.filter (fun r => m < r.mono)).foldl (fun a r => a + r.new - r.old) 0

/-- The stamp that device time, as it counts now, gives the instant `m`, which had the stamp `e`: steps made since move
stamps and no instant (R18, R54). -/
def inNewTime (e m : Nat) (s : State) : Int := e + steppedSince m s

/-- What device time read at the monotonic instant `m`, or will read at it on its present course. Before the first change of
course it ran with the monotonic counter. -/
def stampOf (m : Nat) (s : State) : Nat :=
  let near (x : Knot) : Nat := (x.after ((m - x.mono) / 4)).dev + (m - x.mono) % 4
  if s.tim.mono ≤ m then near s.tim.knot
  else match s.tim.knots.find? (fun x => x.mono ≤ m) with
    | some x => near x
    | none =>
      let x := (s.tim.knots.getLast?).getD s.tim.knot
      x.dev - (x.mono - m)

/-- The earliest stamp, of device time as it counts now, at or after the monotonic instant `m`: after a step since, the
stamp it set. (DEDUCED, log 26) -/
def firstFrom (m : Nat) (s : State) : Nat :=
  match s.tim.steps.head? with
  | some r => if m < r.mono then r.new else stampOf m s
  | none => stampOf m s

end Sys2Proof.Machine
end

