-- ==== Sys2Proof/Machine/Wire.lean ====
section
/-! DEFINITION. Fabric messages and link frames byte by byte: the transport header, the payloads, the link header, TAG and CRC
(R296, R297, R300, R316, R320). -/
namespace Sys2Proof.Machine

/-! ## Transport messages (R300) -/

/-- TYPE of a message (R300, R320). -/
def FabMsg.type : FabMsg → Byte
  | .hello _ => 0x01 | .lsa _ => 0x02 | .addrAssign _ _ => 0x03 | .role _ _ _ _ => 0x04 | .tick _ => 0x10
  | .delayReq _ => 0x11 | .delayResp _ _ _ => 0x12 | .budget _ _ _ => 0x20 | .trigger _ _ => 0x21 | .safe _ _ => 0x22
  | .joinReq _ => 0x30 | .joinAck _ => 0x31 | .report _ => 0x32 | .verdict _ _ _ => 0x33 | .mgrClaim _ => 0x34
  | .data _ => 0x40 | .reply _ => 0x7F

/-- CLASS of a message: TICK, DELAY_REQ and DELAY_RESP are time class, every other is bulk. -/
def FabMsg.time (m : FabMsg) : Bool := m.type.toNat / 16 = 1

/-- The 8-byte data header: DST_QUEUE, SEG, NSEG and TOTAL (R316). -/
def dataHeader (g : DataSeg) : List Byte := leBytes 1 g.queue ++ leBytes 1 g.seg ++ leBytes 1 g.nseg ++ zeros 1 ++ leBytes 2 g.total ++ zeros 2

/-- Byte 0x0B of HELLO. -/
def helloFlags (h : Hello) : Nat := h.state.toNat + 16 * b2n h.ready + 32 * b2n h.spread + 64 * h.role.toNat

/-- The payload of a message: its fields in the order of the tables, little-endian. -/
def FabMsg.payload : FabMsg → List Byte
  | .hello h => leBytes 8 h.serial.toNat ++ leBytes 2 h.addr.toNat ++ leBytes 1 h.port ++ leBytes 1 (helloFlags h) ++ leBytes 2 h.expectMs.toNat ++
      zeros 2 ++ leBytes 4 h.digestPrefix.toNat ++ leBytes 4 h.fwVer.toNat ++ zeros 8
  | .lsa l => leBytes 8 l.serial.toNat ++ leBytes 4 l.seq.toNat ++ [l.priority] ++ leBytes 1 (b2n l.mgrSel + 2 * b2n l.standbyOk) ++ zeros 2 ++
      (fitBytes 32 (l.nbrs.flatMap (fun n => leBytes 8 n.toNat)))
  | .addrAssign x a => leBytes 8 x.toNat ++ leBytes 2 a.toNat ++ zeros 6
  | .role m b d e => leBytes 2 m.toNat ++ leBytes 2 b.toNat ++ leBytes 2 d.toNat ++ zeros 2 ++ leBytes 8 e.toNat
  | .tick t => leBytes 8 t.index.toNat ++ leBytes 8 t.boundary.toNat ++ leBytes 8 t.originTs.toNat ++ leBytes 4 t.period.toNat ++ leBytes 4 (b2n t.flywheel)
  | .delayReq t1 => leBytes 8 t1.toNat
  | .delayResp t1 t2 t3 => leBytes 8 t1.toNat ++ leBytes 8 t2.toNat ++ leBytes 8 t3.toNat
  | .budget i w c => leBytes 8 i.toNat ++ leBytes 2 w.toNat ++ leBytes 2 c.toNat ++ zeros 4
  | .trigger i c | .safe i c => leBytes 8 i.toNat ++ [c] ++ zeros 7
  | .data g => dataHeader g ++ g.entry ++ g.data
  | .reply r => [r.status, r.state] ++ leBytes 2 r.expectMs.toNat ++ [r.type] ++ zeros 1 ++ leBytes 2 r.mseq.toNat
  | .joinReq j => leBytes 8 j.serial.toNat ++ digestBytes j.digest ++ leBytes 4 j.fwVer.toNat ++ leBytes 4 j.imageVer.toNat ++ [j.state, j.timeOk] ++ zeros 6
  | .joinAck a => [a.status, a.cause] ++ zeros 2 ++ leBytes 4 a.fwVer.toNat ++ leBytes 8 a.epoch.toNat ++ digestBytes a.digest
  | .report r => leBytes 8 r.index.toNat ++ leBytes 8 r.epoch.toNat ++ leBytes 4 r.offset.toNat ++ [r.state, r.timeOk] ++ zeros 2 ++
      leBytes 4 r.digestPrefix.toNat ++ zeros 4
  | .verdict c a e => [c, a] ++ zeros 6 ++ leBytes 8 e.toNat
  | .mgrClaim c => leBytes 8 c.serial.toNat ++ leBytes 8 c.epoch.toNat ++ leBytes 4 (c.priority.toNat + 256 * b2n c.mgrSel) ++ leBytes 2 c.devices.toNat ++ zeros 2

/-- The 16-byte transport header of a message with `len` payload bytes. -/
def headerBytes (h : MsgHdr) (type : Byte) (len : Nat) : List Byte :=
  leBytes 4 (pack [(0, 12, h.dst.toNat), (12, 12, h.src.toNat), (24, 8, type.toNat)]).toNat ++
    leBytes 4 (pack [(0, 6, h.hopsLeft.toNat), (6, 1, b2n h.replyReq), (8, 8, len), (16, 16, h.mseq.toNat)]).toNat ++ leBytes 8 h.corr.toNat

/-- A transport message: header and payload. -/
def messageBytes (h : MsgHdr) (m : FabMsg) : List Byte := headerBytes h m.type m.payload.length ++ m.payload

/-! ## Link frames (R296, R297) -/

/-- The 8-byte link header. -/
def linkHeader (kind : BitVec 4) (time : Bool) (lseq ack : BitVec 12) : List Byte :=
  leBytes 8 (kind.toNat + 16 * b2n time + 0x10000 * lseq.toNat + 0x100000000 * ack.toNat)

/-- The bytes of a frame that TAG covers: link header and message. -/
def LinkFrame.covered (f : LinkFrame) : List Byte :=
  linkHeader f.kind f.time f.lseq f.ack ++ (match f.body with | some (h, m) => messageBytes h m | none => [])

/-- The bytes of a frame on the lane. -/
def LinkFrame.bytes (f : LinkFrame) : List Byte := f.covered ++ f.tag ++ leBytes 4 f.crc.toNat

/-- A frame with its TAG, the first 8 bytes of the HMAC under the session key, and the CRC of all before it. A message keeps nothing of the frame
that brought it. -/
def linkFrame (key : BitVec 256) (kind : BitVec 4) (time : Bool) (lseq ack : BitVec 12) (body : Option (MsgHdr × FabMsg)) : LinkFrame :=
  let f : LinkFrame := { kind := kind, time := time, lseq := lseq, ack := ack, body := body.map (fun b => ({ b.1 with rx := {} }, b.2)), tag := [], crc := 0 }
  let tag := (hmac key f.covered).take 8
  { f with tag := tag, crc := crc32 (f.covered ++ tag) }

end Sys2Proof.Machine
end

