-- ==== Sys2Proof/Machine/FabOps.lean ====
section
/-! DEFINITION. Operations of the Mehan fabric: the graph of the database, routing, sending, forwarding, link loss
and roles (16_mehan_fabric.md, 17_fabric_agreement.md). -/
namespace Sys2Proof.Machine

/-! ## Short names -/

/-- The FABRIC section of the running image. -/
def State.fabSec (s : State) : FabricSec := s.im.fabric.getD {}

/-- ARMED has been entered, so the interface answers as the image configures it (R70, R301). -/
def State.armedOn (s : State) : Bool := s.gctl.everArmed && s.mode.fromArmed

/-- The device takes part in a fabric. -/
def State.fabricOn (s : State) : Bool := s.armedOn && s.im.fabric.isSome

def Fab.count (f : Fab) (i : Nat) : Fab := { f with cnt := tinc f.cnt i }
def Fab.acount (f : Fab) (i : Nat) : Fab := { f with acnt := tinc f.acnt i }
def Port.count (p : Port) (i : Nat) : Port := { p with cnt := tinc p.cnt i }
def Port.up (p : Port) : Bool := p.pstate = 3

/-- DIGEST_PREFIX of the running image; 0 before ARMED (R300). -/
def State.runPrefix (s : State) : Word := if s.armedOn && s.img.run.isSome then digestPrefixOf s.im.hdr.digest else 0

/-- Vector 9 (R14). -/
def fabVec (s : State) : State := msix 9 s.fab.intEn s

/-- Ports whose lane may train (R295, R303). -/
def portMayTrain (p : Nat) (s : State) : Bool :=
  match s.mode with
  | .off | .removal => false
  | .hold => s.clk.lock.getLsbD 3 && !(s.gctl.holdReason = 1 || s.gctl.holdReason = 2 || s.gctl.holdReason = 3)
  | .selftest | .load => true
  | _ => if s.pins.outputsIdle then false else if s.gctl.noImage then true else s.im.fabric.isSome && s.fabSec.portEn.testBit p

/-! ## The graph (R306, R308, R310) -/

/-- The database's LSA of a SERIAL. -/
def Fab.lsaOf (f : Fab) (serial : BitVec 64) : Option LsaRec := f.db.find? (fun r => r.lsa.serial = serial)

/-- Neighbours of a device: those that it names and that name it. -/
def Fab.adjacent (f : Fab) (serial : BitVec 64) : List (BitVec 64) :=
  match f.lsaOf serial with
  | none => []
  | some r => (r.lsa.nbrs.filter (fun n => n ≠ 0 && (match f.lsaOf n with | some q => q.lsa.nbrs.contains serial | none => false))).eraseDups

/-- Distances from a device, breadth first. -/
def Fab.spread (f : Fab) : Nat → Nat → List (BitVec 64) → List (BitVec 64 × Nat) → List (BitVec 64 × Nat)
  | 0, _, _, seen => seen
  | fuel + 1, d, front, seen =>
    let next := ((front.flatMap f.adjacent).filter (fun n => !(seen.any (fun e => e.1 = n)))).eraseDups
    if next.isEmpty then seen else f.spread fuel (d + 1) next (seen ++ next.map (fun n => (n, d + 1)))

def Fab.distances (f : Fab) (root : BitVec 64) : List (BitVec 64 × Nat) := f.spread f.db.length 0 [root] [(root, 0)]

def distTo (l : List (BitVec 64 × Nat)) (serial : BitVec 64) : Option Nat := (l.find? (fun e => e.1 = serial)).map (fun e => e.2)

/-- The next hop from `me` to a root at which `dist` was taken: the ports whose neighbour is one hop nearer. -/
def nearer (s : State) (dist : List (BitVec 64 × Nat)) : List Nat :=
  match distTo dist s.otp.serial with
  | none => []
  | some d => (List.range 4).filter (fun p =>
      let q := s.port p
      q.up && (s.fab.adjacent s.otp.serial).contains q.nbSerial && (match distTo dist q.nbSerial with | some e => e + 1 = d | none => false))

/-- The device that holds an address: of two, the lower SERIAL (R305). -/
def Fab.holder (f : Fab) (addr : BitVec 12) : Option (BitVec 64) :=
  (f.db.filter (fun r => r.addr = addr)).foldl (fun b r => match b with
    | some x => if r.lsa.serial.toNat < x.toNat then some r.lsa.serial else some x
    | none => some r.lsa.serial) none

/-- The routing table of the database (R308). -/
def routeTable (s : State) : List RouteEntry :=
  let own : List RouteEntry := if s.fab.addr.toNat < 0x400 then [{ addr := s.fab.addr, port := 4, hops := 0 }] else []
  let others := (s.fab.db.map (fun r => r.addr)).eraseDups.filter (fun a => a.toNat < 0x400 && a ≠ s.fab.addr)
  own ++ others.filterMap (fun a =>
    match s.fab.holder a with
    | none => none
    | some x =>
      let dist := s.fab.distances x
      match distTo dist s.otp.serial, (nearer s dist).head? with
      | some h, some p => some { addr := a, port := p, hops := h }
      | _, _ => none)

/-- The parent and children of the tick tree (R310): ties go to the lowest address. -/
def treeParent (s : State) (dist : List (BitVec 64 × Nat)) (x : BitVec 64) : Option (BitVec 64) :=
  match distTo dist x with
  | none => none
  | some d =>
    let cand := (s.fab.adjacent x).filter (fun n => match distTo dist n with | some e => e + 1 = d | none => false)
    let key (n : BitVec 64) : Nat := (match s.fab.lsaOf n with | some r => r.addr.toNat | none => 0xFFF)
    cand.foldl (fun b n => match b with
      | some y => if key n < key y then some n else some y
      | none => some n) none

/-- Ports that lead to the device's children in the tick tree. -/
def treeChildren (s : State) : List Nat :=
  match s.fab.holder s.fab.mgr with
  | none => []
  | some root =>
    let dist := s.fab.distances root
    (List.range 4).filter (fun p =>
      let q := s.port p
      q.up && q.nbReady && treeParent s dist q.nbSerial = some s.otp.serial &&
        (List.range p).all (fun q' => !((s.port q').up && (s.port q').nbSerial = q.nbSerial)))

/-- The database has changed: routing table, tree depth, DEEP and DEVICES follow (R306, R308, R314). -/
def graphChanged (s : State) : State :=
  let t := routeTable s
  let s := if t = s.fab.routes then s else { s with fab := { s.fab.count 7 with routes := t } }
  let hops := match s.fab.holder s.fab.mgr with
    | some root => (distTo (s.fab.distances root) s.otp.serial).getD 0
    | none => 0
  let deep := decide (16 < hops)
  let was := s.fab.deep
  let s := { s with fab.devices := BitVec.ofNat 11 s.fab.db.length, fab.hopsMgr := BitVec.ofNat 6 (min hops 63), fab.deep := deep }
  if deep && !was then raiseDet 79 0 (fabVec s)
  else if !deep && was then levelOff 79 (fabVec s) else s

/-! ## Sending (R296 to R301) -/

/-- A header of a message that the device originates; CORR is 0. -/
def newHdr (dst : BitVec 12) (replyReq : Bool) (s : State) : MsgHdr :=
  { dst := dst, src := s.fab.addr, hopsLeft := 32, replyReq := replyReq, mseq := s.fab.mseq + 1, corr := 0 }

/-- A message goes into the queue of an output port whose link is up (R299). -/
def sendPort (p : Nat) (hdr : MsgHdr) (msg : FabMsg) (s : State) : State :=
  if (s.port p).up then { s with fab.outq := s.fab.outq ++ [{ port := p, hdr := hdr, msg := msg : OutMsg }] } else s

/-- A message frame starts: it takes the next LSEQ, acknowledges what has been taken, and is held until it is acknowledged, the last 32 of
them (R298). (DESIGN CHOICE, log 88) -/
def transmit (s : State) (m : OutMsg) : State :=
  let q := s.port m.port
  let held := q.held ++ [{ lseq := q.lseq, hdr := m.hdr, msg := m.msg : HeldFrame }]
  (s.setPort m.port { q.count 1 with lseq := q.lseq + 1, held := held.drop (held.length - 32) }).say
    (.fabric m.port (w64 s.stamp) (linkFrame q.key 1 m.msg.time q.lseq (q.rxNext - 1) (some (m.hdr, m.msg))))

/-- What waits at the output ports starts, time class before bulk (R299). (DESIGN CHOICE, log 88) -/
def flushPorts (s : State) : State :=
  if s.fab.outq.isEmpty then s
  else (s.fab.outq.filter (fun m => m.msg.time) ++ s.fab.outq.filter (fun m => !m.msg.time)).foldl transmit { s with fab.outq := [] }

/-- A link frame without a message: 2 acknowledges all frames up to `seq`, 3 names `seq` as the first missing (R296, R298). -/
def sendAck (p : Nat) (kind : BitVec 4) (seq : BitVec 12) (s : State) : State :=
  (s.setPort p ((s.port p).count 1)).say (.fabric p (w64 s.stamp) (linkFrame (s.port p).key kind false 0 seq none))

/-- Sends on every port that is up but one. -/
def sendAll (but : Option Nat) (hdr : MsgHdr) (msg : FabMsg) (s : State) : State :=
  (List.range 4).foldl (fun t p => if some p = but then t else sendPort p hdr msg t) s

/-- The routing entry of an address. -/
def State.routeOf (s : State) (a : BitVec 12) : Option RouteEntry := s.fab.routes.find? (fun r => r.addr = a)

/-- A message that the device originates, to its partner on one port. -/
def sendLink (p : Nat) (msg : FabMsg) (s : State) : State :=
  sendPort p (newHdr 0xFFF false s) msg { s with fab.mseq := s.fab.mseq + 1 }

/-- A broadcast that the device originates. -/
def sendBroadcast (msg : FabMsg) (s : State) : State :=
  sendAll none (newHdr 0xFFF false s) msg { s with fab.mseq := s.fab.mseq + 1 }

/-- A unicast message that the device originates. -/
def sendTo (dst : BitVec 12) (replyReq : Bool) (msg : FabMsg) (s : State) : State :=
  let h := newHdr dst replyReq s
  let s := { s with fab.mseq := s.fab.mseq + 1 }
  match s.routeOf dst with
  | some r => if r.port < 4 then sendPort r.port h msg s else s
  | none => { s with fab := s.fab.count 2 }

/-- A REPLY to a message that asked for one; to an unaddressed source, or before ARMED, on the arrival port. (DESIGN CHOICE, log 89) -/
def answerReq (p : Nat) (hdr : MsgHdr) (type status : Byte) (s : State) : State :=
  if hdr.replyReq then
    let expect : BitVec 16 := if status = stBusy then s.expectMs else 0
    let msg : FabMsg := .reply ⟨status, s.mode.code.setWidth 8, expect, type, hdr.mseq⟩
    if s.armedOn && hdr.src.toNat < 0x400 then sendTo hdr.src false msg s
    else sendPort p (newHdr hdr.src false s) msg { s with fab.mseq := s.fab.mseq + 1 }
  else s

/-! ## Arrival and forwarding (R301, R302, R307, R308) -/

/-- Newer in 16-bit serial arithmetic over a half window. -/
def newer16 (a b : BitVec 16) : Bool := a ≠ b && (a - b).toNat < 0x8000

/-- Passes a message on, on the ports that `ports` names, with HOPS_LEFT one less. -/
def passOn (ports : List Nat) (hdr : MsgHdr) (msg : FabMsg) (s : State) : State :=
  if hdr.hopsLeft.toNat ≤ 1 then { s with fab := s.fab.count 3 }
  else ports.foldl (fun t p => sendPort p { hdr with hopsLeft := hdr.hopsLeft - 1 } msg t) s

/-- Ports that are up, but for one. -/
def upPorts (but : Nat) (s : State) : List Nat := (List.range 4).filter (fun p => p ≠ but && (s.port p).up)

/-- The device belongs to a group address. -/
def State.inGroup (s : State) (dst : BitVec 12) : Bool :=
  0x800 ≤ dst.toNat && dst.toNat < 0x900 && s.fabSec.groups.getLsbD (dst.toNat - 0x800)

/-- The newest MSEQ taken from a source. -/
def Fab.seenOf (f : Fab) (src : BitVec 12) : Option (BitVec 16) := (f.seen.find? (fun e => e.1 = src)).map (fun e => e.2)

/-- Sequence `a` is at or before `b` in 12-bit serial arithmetic. -/
def seqLe (a b : BitVec 12) : Bool := (b - a).toNat < 0x800

/-- Frames up to an acknowledged one are released (R298). -/
def Port.acked (q : Port) (ack : BitVec 12) : Port := { q with held := q.held.filter (fun h => !seqLe h.lseq ack) }

/-- A frame is taken in its order: counted, its ACK released, and acknowledged at once. (DESIGN CHOICE, log 88) -/
def acceptLink (p : Nat) (rx : LinkRx) (s : State) : State :=
  sendAck p 2 rx.lseq (s.setPort p { ((s.port p).acked rx.ack).count 0 with rxNext := rx.lseq + 1 })

/-- A frame is dropped, counted at `cnt` where its CRC or TAG fails: a negative acknowledgement names the first frame missing (R297, R298). -/
def missFrame (p : Nat) (cnt : Option Nat) (s : State) : State :=
  let q := (s.port p).count 0
  sendAck p 3 q.rxNext (s.setPort p (match cnt with | some i => q.count i | none => q))

/-- Counter of a frame whose CRC or TAG fails. -/
def fateCounter : FrameFate → Option Nat
  | .whole => none
  | .badCrc => some 2
  | .badTag => some 3

/-- A message frame arrives on a port that is up (R297, R298): a damaged one and one after a gap count as lost, one that was taken before is
acknowledged again, and the next in order is passed on. -/
def frameTaken (p : Nat) (rx : LinkRx) (k : State → State) (s : State) : State :=
  if !((s.port p).up && s.mode.answers) then s
  else match fateCounter rx.fate with
    | some i => missFrame p (some i) s
    | none =>
      let q := s.port p
      if rx.lseq = q.rxNext then k (acceptLink p rx s)
      else if seqLe rx.lseq q.rxNext then sendAck p 2 (q.rxNext - 1) (s.setPort p ((q.acked rx.ack).count 0))
      else missFrame p none s

/-- A destination that R302 reserves. -/
def reservedDst (d : BitVec 12) : Bool := (0x400 ≤ d.toNat && d.toNat < 0x800) || (0x900 ≤ d.toNat && d.toNat < 0xFFF)

/-- A message of the link layer: one of unknown TYPE, or to a reserved address, is dropped and counted in BAD_MSG, the former answered BAD_ARG, or
BUSY before ARMED (R301, R302). -/
def messageTaken (p : Nat) (hdr : MsgHdr) (k : State → State) (s : State) : State :=
  frameTaken p hdr.rx (fun s =>
    match hdr.rx.odd with
    | some t => answerReq p hdr t (if s.armedOn then stBadArg else stBusy) { s with fab := s.fab.count 0 }
    | none => if reservedDst hdr.dst then { s with fab := s.fab.count 0 } else k s) s

/-- A message other than HELLO: before ARMED a request is answered BUSY and the rest is dropped (R301). (DESIGN CHOICE, log 88) -/
def received (p : Nat) (hdr : MsgHdr) (type : Byte) (k : State → State) (s : State) : State :=
  messageTaken p hdr (fun s => if s.armedOn then k s else answerReq p hdr type stBusy s) s

/-- A message to the device, to a group, or to all: it is passed on where it must be, and delivered where it is for
this device. `fresh` says, for an LSA, whether a message from a source without an address is new. `deliver` answers the status that a REPLY
carries. (DESIGN CHOICE, log 88) -/
def arrive (p : Nat) (hdr : MsgHdr) (msg : FabMsg) (fresh : Option Bool) (deliver : State → State × Byte) : State → State :=
  received p hdr msg.type (fun s =>
    let take (s : State) : State := let r := deliver s; answerReq p hdr msg.type r.2 r.1
    let d := hdr.dst.toNat
    if d = 0xFFF || 0x800 ≤ d then
      let bySeq := (hdr.src = 0xFFF || hdr.src ≠ s.fab.addr) && (match s.fab.seenOf hdr.src with | some m => newer16 hdr.mseq m | none => true)
      let known := if hdr.src = 0xFFF then fresh else none
      if known.getD bySeq then
        let s := if known.isSome then s else { s with fab.seen := (hdr.src, hdr.mseq) :: s.fab.seen.filter (fun e => e.1 ≠ hdr.src) }
        let s := if (upPorts p s).isEmpty then s else passOn (upPorts p s) hdr msg s
        if d = 0xFFF || s.inGroup hdr.dst then take s else s
      else { s with fab := s.fab.count 1 }
    else if hdr.dst = s.fab.addr then take s
    else match s.routeOf hdr.dst with
      | some r => if r.port < 4 then passOn [r.port] hdr msg s else s
      | none => answerReq p hdr msg.type stNotPresent { s with fab := s.fab.count 2 })

/-! ## LSAs and link loss -/

/-- The device's own LSA. -/
def ownLsa (s : State) : Lsa :=
  { serial := s.otp.serial, seq := s.fab.lsaSeq, priority := BitVec.ofNat 8 s.fabSec.priority, mgrSel := s.pins.mgrSel,
    standbyOk := s.fabSec.standbyOk,
    nbrs := (List.range 4).map (fun p => if (s.port p).up && (s.port p).nbReady then (s.port p).nbSerial else 0) }

/-- Enters an LSA in the database. -/
def Fab.store (f : Fab) (r : LsaRec) : Fab := { f with db := f.db.filter (fun q => q.lsa.serial ≠ r.lsa.serial) ++ [r] }

/-- What of an LSA makes a change of the database (R306, R309): all but its sequence number. -/
def lsaSame (a b : LsaRec) : Bool := { a.lsa with seq := 0 } = { b.lsa with seq := 0 } && a.addr = b.addr

/-- An LSA is in the database from now on: a change restarts SETTLE and updates the graph. -/
def storeLsa (r : LsaRec) (s : State) : State :=
  let same := match s.fab.lsaOf r.lsa.serial with | some q => lsaSame q r | none => false
  let s := { s with fab := s.fab.store r }
  if same then s else graphChanged { s with fab.changeMono := s.mono, fab.settled := false }

/-- Floods the device's LSA (R306). (DESIGN CHOICE, log 86; DESIGN CHOICE, log 88) -/
def floodLsa (s : State) : State :=
  if s.fabricOn then
    let s := { s with fab.lsaSeq := s.fab.lsaSeq + 1, fab.lsaMono := s.mono }
    sendBroadcast (.lsa (ownLsa s)) (storeLsa { lsa := ownLsa s, addr := s.fab.addr, mono := s.mono } s)
  else s

/-- A link goes down (R298): its queued frames are discarded and counted. -/
def linkDown (p : Nat) (s : State) : State :=
  let q := s.port p
  let gone := q.held.length + (s.fab.outq.filter (fun m => m.port = p)).length
  fabVec (State.setPort { s with fab.outq := s.fab.outq.filter (fun m => m.port ≠ p) } p { q with
    pstate := 0, nbAddr := 0xFFF, nbPort := 0, nbSerial := 0, nbReady := false, key := 0
    cnt := tmod (tinc q.cnt 5) 6 (fun c => satAdd c gone)
    held := [], lseq := 0, rxNext := 0, delays := [], t1 := none, peerDelay := 0 })

/-- A link that was up is lost: it retrains without host action, and an LSA tells that a neighbour is gone (R298, R306). -/
def linkLost (p : Nat) (s : State) : State :=
  if (s.port p).up then
    let ready := (s.port p).nbReady
    let s := linkDown p s
    if ready then floodLsa s else s
  else s

/-- Ports that may not train are in electrical idle (R295, R303): their links go down. -/
def idleFabric (s : State) : State :=
  let idle := (List.range 4).filter (fun p => !portMayTrain p s)
  let ready := idle.any (fun p => (s.port p).up && (s.port p).nbReady)
  let s := idle.foldl (fun t p => if (t.port p).up then linkDown p t else if (t.port p).pstate = 0 then t else t.setPort p { t.port p with pstate := 0 }) s
  if ready then floodLsa s else s

/-- The address that the FABRIC section gives the device (R304). -/
def ownAddr (s : State) : BitVec 12 :=
  match s.im.fabric with
  | none => 0xFFF
  | some f => if f.addrMode = 0 then s.pins.fabAddr.setWidth 12 else if f.addrMode = 1 then BitVec.ofNat 12 f.addr else 0xFFF

/-- The address that the device would take: in ASSIGNED mode the one that it was assigned (R304). -/
def wantAddr (s : State) : BitVec 12 :=
  if s.im.fabric.isSome && s.fabSec.addrMode = 2 then ((s.fab.assigned.find? (fun a => a.1 = s.otp.serial)).map (fun a => a.2)).getD 0xFFF else ownAddr s

/-! ## Roles (R309, R310, R319, R329) -/

/-- ROLE of the device changes: vector 9. -/
def setRole (r : BitVec 3) (s : State) : State := if s.fab.role = r then s else fabVec { s with fab.role := r }

/-- A worker or standby takes time and tick from the fabric (R310). -/
def followFabric (s : State) : State :=
  { stageDisc discFabric s with
    tck.mgrSrc := none
    tck.src := srcFabric
    tck.req := if s.tck.active = srcFabric then none else some srcFabric }

/-- The highest generation seen is kept (R319). -/
def genHeard (e : BitVec 64) (s : State) : State :=
  { s with fab.genSeen := if s.fab.genSeen.toNat < (hi32 e).toNat then hi32 e else s.fab.genSeen }

/-- EPOCH takes a new value; the one before stays known to R323. -/
def setEpoch (e : BitVec 64) (s : State) : State :=
  if e = s.fab.epoch then s else genHeard e { s with fab.epochPrev := s.fab.epoch, fab.epoch := e }

/-- The ROLE message of a manager. -/
def sendRole (s : State) : State :=
  sendBroadcast (.role s.fab.addr s.fab.stby (s.fab.devices.setWidth 16) s.fab.epoch) s

/-- The manager increments the count of EPOCH `k` times and broadcasts ROLE (R319). -/
def epochUp (k : Nat) (s : State) : State :=
  if k = 0 then s
  else sendRole (setEpoch (w64 ((hi32 s.fab.epoch).toNat * 0x100000000 + ((lo32 s.fab.epoch).toNat + k) % 0x100000000)) s)

/-- The address of a device as the database and the assignments have it. -/
def Fab.addrOf (f : Fab) (r : LsaRec) : BitVec 12 :=
  if r.addr ≠ 0xFFF then r.addr else ((f.assigned.find? (fun a => a.1 = r.lsa.serial)).map (fun a => a.2)).getD 0xFFF

/-- Devices of the database that can be reached (R328). -/
def Fab.reachable (f : Fab) (own : BitVec 64) : List LsaRec :=
  let near := f.distances own
  f.db.filter (fun r => (distTo near r.lsa.serial).isSome)

/-- The workers that keep their admission under a standby that takes office (R326): all that it can reach, a manager that has handed its office over
among them (R329). (DESIGN CHOICE, log 90) -/
def keptMembers (s : State) : List Member :=
  ((s.fab.reachable s.otp.serial).filter (fun r => r.lsa.serial ≠ s.otp.serial && s.fab.addrOf r ≠ 0xFFF && (s.fab.handed || s.fab.addrOf r ≠ s.fab.mgr))).map
    (fun r => { addr := s.fab.addrOf r, serial := r.lsa.serial, mstate := 1, since := some s.tck.index })

/-- A device takes office as manager (R310, R319, R326): discipline and tick source, its generation one above the
highest seen, and ROLE. `isTakeover`: at a boundary, by the standby. (DESIGN CHOICE, log 88) -/
def takeOffice (stby : BitVec 12) (isTakeover : Bool) (s : State) : State :=
  let sec := s.fabSec
  let d := BitVec.ofNat 2 sec.mgrDisc
  let src := BitVec.ofNat 2 s.im.tick.mgrSrc
  let now := isTakeover || !s.tck.ticked
  let s := setRole roleManager { stageDisc d s with
    fab.members := if isTakeover then keptMembers s else []
    fab.mgr := s.fab.addr, fab.stby := stby, fab.missConsec := 0, fab.lostMono := none, fab.joined := false, fab.cause := 0
    fab.lossReported := false, fab.orphan := false, fab.handed := false
    tck.req := none, tck.lead := none, tck.tickSent := false, tck.src := src
    tck.active := if now then src else s.tck.active
    tck.mgrSrc := if now then none else some src
    gctl.degFabric := false, gctl.fabricBack := false, pwr.fabOwned := false, pwr.classFloor := 2 }
  let s := genHeard s.fab.epoch s
  sendRole (graphChanged (setEpoch (w64 ((s.fab.genSeen.toNat + 1) * 0x100000000)) s))

/-- Rank of a candidate (R309): smaller is better. -/
def rankKey (mgrSel : Bool) (priority : Byte) (serial : BitVec 64) : Nat :=
  ((if mgrSel then 0 else 1) * 256 + (255 - priority.toNat)) * 2 ^ 64 + serial.toNat

/-- The candidates among devices, best first. -/
def rankAll (l : List LsaRec) : List LsaRec :=
  (l.filter (fun r => r.lsa.mgrSel || r.lsa.priority ≠ 0)).mergeSort
    (fun a b => rankKey a.lsa.mgrSel a.lsa.priority a.lsa.serial ≤ rankKey b.lsa.mgrSel b.lsa.priority b.lsa.serial)

/-- The candidates of an election: of the whole database (R309), or, after the loss of manager and standby, of the devices that can be
reached (R328). -/
def Fab.ranking (f : Fab) (own : BitVec 64) : List LsaRec := rankAll (if f.mgr = 0xFFF then f.db else f.reachable own)

/-- The manager's assignments (R304): each unaddressed device, itself among them in ASSIGNED mode, in ascending order of SERIAL, gets the address
that it last held, else the lowest free one. (DESIGN CHOICE, log 88) -/
def planAddrs (s : State) : State × List (BitVec 64 × BitVec 12) :=
  let need := ((s.fab.db.filter (fun r => r.addr = 0xFFF && (r.lsa.serial ≠ s.otp.serial || s.fabSec.addrMode = 2))).map (fun r => r.lsa.serial)).mergeSort
    (fun a b => a.toNat ≤ b.toNat)
  need.foldl (fun (acc : State × List (BitVec 64 × BitVec 12)) x =>
    let t := acc.1
    let taken := t.fab.addr :: (t.fab.db.map (fun r => r.addr)) ++ t.fab.assigned.map (fun a => a.2)
    let a := match t.fab.assigned.find? (fun a => a.1 = x) with
      | some a => some a.2
      | none => ((List.range 0x400).find? (fun n => !(taken.contains (BitVec.ofNat 12 n)))).map (BitVec.ofNat 12)
    match a with
    | some a => ({ t with fab.assigned := (x, a) :: t.fab.assigned.filter (fun e => e.1 ≠ x) }, acc.2 ++ [(x, a)])
    | none => acc) (s, [])

/-- Broadcasts assignments. -/
def sendAddrs (l : List (BitVec 64 × BitVec 12)) (s : State) : State := l.foldl (fun t e => sendBroadcast (.addrAssign e.1 e.2) t) s

/-- The manager assigns addresses. -/
def assignAddrs (s : State) : State := let r := planAddrs s; sendAddrs r.2 r.1

/-- Compatibility of two images (R318): one digest equals the other, or its first 28 bytes stand in the other's list. (DESIGN CHOICE, log 90) -/
def compatible (d : BitVec 256) (mine : List (BitVec 224)) (e : BitVec 256) (theirs : List (BitVec 224)) : Bool :=
  d = e || mine.contains (digest28 e) || theirs.contains (digest28 d)

/-- The first 4 bytes of an entry of a compatible list. -/
def compatPrefix (c : BitVec 224) : Word := BitVec.ofNat 32 (ofLe ((beBytes 28 c.toNat).take 4))

/-- A worker's last digest is compatible with the manager's image (R325); of a worker taken over, the prefix of its reports tells. (DESIGN CHOICE, log 90) -/
def memberCompatible (m : Member) (s : State) : Bool :=
  match m.digest, m.digestPrefix with
  | some d, _ => compatible s.im.hdr.digest s.fabSec.compat d m.compat
  | none, some p => p = digestPrefixOf s.im.hdr.digest || s.fabSec.compat.any (fun c => compatPrefix c = p)
  | none, none => true

/-- The member record of a worker. -/
def Fab.member (f : Fab) (a : BitVec 12) : Option Member := f.members.find? (fun m => m.addr = a)
def Fab.putMember (f : Fab) (m : Member) : Fab := { f with members := m :: f.members.filter (fun x => x.addr ≠ m.addr) }

/-- The manager issues a verdict (R323): 1 EXCLUDE, 2 QUARANTINE. EPOCH is incremented by the caller. -/
def issueVerdict (m : Member) (cause : BitVec 4) (action : Byte) (s : State) : State :=
  let s := { s with fab := ((s.fab.acount (if action = 2 then 2 else 3)).putMember
    { m with mstate := if action = 2 then 2 else 3, cause := cause, missing := 0, prefixBad := 0 }) }
  sendTo m.addr false (.verdict (cause.setWidth 8) action s.fab.epoch) s

end Sys2Proof.Machine
end

