-- ==== Sys2Proof/Machine/VitOps.lean ====
section
/-! DEFINITION. Operations of the vitrine: the ring, triggers, the open record and its sealing (14_vitrine.md). -/
namespace Sys2Proof.Machine

/-- The INCIDENT section of the running image. -/
def State.incSec (s : State) : IncidentSec := s.im.incident.getD {}

/-- The INCIDENT area of the running image. -/
def State.incArea (s : State) : Area := s.im.incArea.getD {}

/-- The vitrine is enabled. -/
def State.incOn (s : State) : Bool := s.incSec.en && s.img.run.isSome

/-- The device key as the MAC's key (R277). -/
def State.devKey (s : State) : BitVec 256 := s.otp.deviceKey

/-! ## Places in the INCIDENT area -/

/-- A sector of the area, `k` past sector `i`, wrapping within the area. -/
def Area.sector (a : Area) (i k : Nat) : Nat := a.first + (i - a.first + k) % max 1 a.count

/-- Address of byte `o` of the record that starts at sector `first`. -/
def recAddr (a : Area) (first o : Nat) : Nat := sectorBase (a.bank = 1) (a.sector first (o / 0x40000)) + o % 0x40000

/-- Address of a header word of a record. -/
def recWord (a : Area) (first w : Nat) : Nat := recAddr a first (32 * w)

/-- A device agent programs consecutive words of a record. -/
def putRec (a : Area) (first : Nat) : Nat → List (List Byte) → State → State
  | _, [], s => s
  | w, b :: bs, s => putRec a first (w + 1) bs (devPut (recWord a first w) b s)

/-! ## The ring (R272, R273) -/

/-- Internal address of a ring slot. -/
def slotAddr (s : State) (slot : Nat) : Nat := s.incSec.ringBase + slot * s.incSec.sumBytes

/-- Keeps the newest PRE blocks that no record has claimed. -/
def trimRing (pre : Nat) (ring : List RingBlock) : List RingBlock :=
  let free := ring.filter (fun b => b.pos.isNone)
  let drop := free.length - pre
  let keep := free.drop drop
  ring.filter (fun b => b.pos.isSome || keep.contains b)

/-- RING_FILL set to 0: the blocks that no record has claimed leave the ring. -/
def ringRestart (s : State) : State :=
  { s with inc.ringFill := 0, inc.ring := s.inc.ring.filter (fun b => b.pos.isSome) }

/-- The first free slot. -/
def freeSlot (s : State) : Option Nat :=
  (List.range s.incSec.slots).find? (fun k => !(s.inc.ring.any (fun b => b.slot = k)))

/-- No block of the open record waits in the ring. -/
def State.recDrained (s : State) : Bool := s.inc.ring.all (fun b => b.pos.isNone)

/-- Capture ends (R276, R278): COMMIT, and the ring restarts where nothing waits. -/
def endCapture (s : State) : State :=
  match s.inc.record with
  | some r =>
    if r.capturing then
      let s := { s with inc.record := some { r with capturing := false }, inc.vstate := .commit }
      if s.recDrained then ringRestart s else s
    else s
  | none => s

/-- Writes a tick block (R272, R278): into a free slot, or a GAP of the open record's capture. -/
def ringWrite (tick : BitVec 64) (flags : BitVec 16) (bytes : List Byte) (s : State) : State :=
  if !s.incOn || s.inc.vstate = .disabled then s
  else
    let pos := match s.inc.record with
      | some r => if r.capturing then some r.positions.length else none
      | none => none
    let slot := freeSlot s
    let s := match slot with
      | some k =>
        let ring := s.inc.ring ++ [{ slot := k, tick := tick, flags := flags, pos := pos : RingBlock }]
        let ring := trimRing s.incSec.pre ring
        { s with mem := Memory.write s.mem (slotAddr s k) (fitBytes s.incSec.sumBytes bytes), inc.ring := ring
                 inc.ringFill := if pos.isNone then min s.incSec.pre (s.inc.ringFill + 1) else s.inc.ringFill }
      | none => if pos.isSome then { s with inc.gapCnt := satInc s.inc.gapCnt } else s
    match s.inc.record, pos with
    | some r, some p =>
      let r := { r with
        positions := r.positions ++ [{ tick := tick.setWidth 16, flags := flags.setWidth 7, gap := slot.isNone : RecPos }]
        tick0 := if p = 0 then tick else r.tick0 }
      let s := { s with inc.record := some r, inc.positions := r.positions.length }
      if r.endPos ≤ r.positions.length || 128 ≤ r.positions.length then endCapture s else s
    | _, _ => s

/-! ## Triggers (R274 to R276) -/

/-- The causes of a trigger entry. -/
abbrev cauFault : Nat := 1
abbrev cauPin : Nat := 2
abbrev cauDecel : Nat := 3
abbrev cauHost : Nat := 4
abbrev cauFabric : Nat := 5

/-- The index of the first tick block that follows this instant (R275): before the first boundary, that of the first tick. -/
def nextBlockTick (s : State) : BitVec 64 := if s.tck.ticked && s.tck.eDone then s.tck.index + 1 else s.tck.index

/-- A trigger entry's word (R277). -/
def trigWord (t : TrigEntry) : List Byte :=
  [t.cause, t.flags] ++ leBytes 2 t.detail.toNat ++ leBytes 4 t.level.toNat ++ leBytes 8 t.tick.toNat ++
    leBytes 8 t.stamp.toNat ++ leBytes 8 t.mono.toNat

/-- The OPEN word (R277). -/
def openWord (s : State) (r : Record) : List Byte :=
  leBytes 4 0x52544956 ++ leBytes 4 r.seq.toNat ++
    [BitVec.ofNat 8 r.preCount, BitVec.ofNat 8 r.post, BitVec.ofNat 8 s.incSec.sumKib, 0] ++
    leBytes 4 (digestPrefixOf s.im.hdr.digest).toNat ++ leBytes 8 r.tick0.toNat ++ leBytes 4 s.im.hdr.imageVer ++
    leBytes 4 (~~~r.seq).toNat

/-- A lost trigger. -/
def trigLost (s : State) : State :=
  let s := { s with inc.trigLost := satInc s.inc.trigLost }
  let s := match s.inc.record with
    | some r => { s with inc.record := some { r with lost := r.lost + 1 } }
    | none => s
  msix 7 s.inc.intEn s

/-- Enters a trigger in the open record's list and programs its word, the next blank one of the list (R236, R277). (DESIGN CHOICE, log 18) -/
def addTrig (t : TrigEntry) (s : State) : State :=
  match s.inc.record with
  | none => s
  | some r =>
    let s := agentTurn s
    let places := ((List.range 8).map (fun k => recWord s.incArea r.first (1 + k))).filter (fun a => s.arc.isBlank a)
    let s := devPutFirst places (trigWord t) s
    { s with inc.record := some { r with trigs := r.trigs ++ [{ t with programmed := true }] }, inc.trigCount := r.trigs.length + 1 }

/-- A trigger opens a record: PRE_COUNT blocks of the ring become its first positions, and the OPEN word is programmed. -/
def openRecord (t : TrigEntry) (s : State) : State :=
  let sec := s.incSec
  let n := s.inc.ringFill
  let free := s.inc.ring.filter (fun b => b.pos.isNone)
  let pre := (free.drop (free.length - n)).zipIdx.map (fun e => { e.1 with pos := some e.2 })
  let tick0 := match pre.head? with | some b => b.tick | none => t.tick
  let r : Record := {
    seq := s.inc.recSeq + 1, first := s.inc.writePt, bank := decide (s.incArea.bank = 1), preCount := pre.length, post := sec.post,
    positions := pre.map (fun b => { tick := b.tick.setWidth 16, flags := b.flags.setWidth 7 : RecPos }),
    endPos := min 128 (pre.length + sec.post), tick0 := tick0 }
  let s := { s with inc.record := some r, inc.vstate := .capture, inc.recSeq := r.seq, inc.preCount := pre.length
                    inc.positions := pre.length, inc.committed := 0, inc.trigCount := 0, inc.ring := pre, inc.ringFill := 0 }
  let s := putRec s.incArea r.first 0 [openWord s r] (agentTurn s)
  let s := msix 7 s.inc.intEn (addTrig t s)
  if r.endPos ≤ pre.length then endCapture s else s

/-- An accepted trigger meets the vitrine's condition (R276). -/
def takeTrigger (t : TrigEntry) (s : State) : State :=
  match s.inc.vstate, s.inc.record with
  | .ready, _ => openRecord t s
  | .capture, some r =>
    if 8 ≤ r.trigs.length then trigLost s
    else
      let e := min 128 (r.positions.length + s.incSec.post)
      let s := addTrig { t with flags := if r.endPos < e then 1 else 0 } s
      match s.inc.record with
      | some r => { s with inc.record := some { r with endPos := max r.endPos e } }
      | none => s
  | .commit, some r => if 8 ≤ r.trigs.length then trigLost s else addTrig { t with flags := 2 } s
  | .disabled, _ => s
  | _, _ => trigLost s

/-- A trigger of a cause, whose instant lies `back` ns before this one, reaches the vitrine (R274, R275). -/
def vitTriggerAt (back cause : Nat) (detail : BitVec 16) (level : Byte) (origin : BitVec 64) (s : State) : State :=
  let inState := s.mode = .run || s.mode = .degraded || s.mode = .safe
  let listed := cause = cauFabric && (match s.inc.record with
    | some r => r.trigs.any (fun t => t.cause = 5 && t.detail = detail && t.origin = origin)
    | none => false)
  if s.incOn && s.incSec.trigEn.testBit (cause - 1) && inState && !listed then
    let t : TrigEntry := {
      cause := BitVec.ofNat 8 cause, flags := 0, detail := detail, level := level, tick := nextBlockTick s,
      stamp := stampLess back s, mono := w64 (s.mono - back), origin := origin }
    let s := if s.incSec.fabSend && cause ≠ cauFabric && s.fabricOn then
      sendBroadcast (.trigger s.tck.index (BitVec.ofNat 8 cause)) s else s
    takeTrigger t s
  else s

/-- A trigger of this instant. -/
def vitTrigger (cause : Nat) (detail : BitVec 16) (level : Byte) (origin : BitVec 64) (s : State) : State :=
  vitTriggerAt 0 cause detail level origin s

/-! ## Committing and sealing (R278, R279) -/

/-- The block of the open record that is committed next. -/
def nextBlock (s : State) : Option RingBlock :=
  (s.inc.ring.filter (fun b => b.pos.isSome)).foldl (fun best b => match best with
    | some c => if b.pos.getD 0 < c.pos.getD 0 then some b else some c
    | none => some b) none

/-- Programs the next block, with its END word last, and frees its slot (R278). (DESIGN CHOICE, log 18) -/
def commitBlock (s : State) : State :=
  match s.inc.record, nextBlock s with
  | some r, some b =>
    let p := b.pos.getD 0
    let n := s.incSec.sumBytes / 32
    let words := (List.range n).map (fun i => Memory.read s.mem (slotAddr s b.slot + 32 * i) 32)
    let s := devRun (words.zipIdx.map (fun e => (recWord s.incArea r.first (32 + p * n + e.2), e.1))) (agentTurn s)
    let s := { s with
      inc.ring := s.inc.ring.filter (fun c => c ≠ b)
      inc.committed := s.inc.committed + 1
      inc.record := some { r with positions := r.positions.zipIdx.map (fun e => if e.2 = p then { e.1 with committed := true } else e.1) } }
    if !r.capturing && s.recDrained then ringRestart s else s
  | _, _ => s

/-- A block counts as committed while its END word is PROGRAMMED (R279): the words of an abandoned commit do not stand. (DESIGN CHOICE, log 18) -/
def recheckRecord (s : State) : State :=
  let n := s.incSec.sumBytes / 32
  let stands (first p : Nat) : Bool := !s.arc.isBlank (recWord s.incArea first (32 + p * n + (n - 1)))
  { s with inc.record := s.inc.record.map (fun r =>
      { r with positions := r.positions.zipIdx.map (fun e => { e.1 with committed := e.1.committed && stands r.first e.2 }) }) }

/-- One index entry (R277). -/
def indexEntry (p : RecPos) : List Byte :=
  leBytes 4 (p.tick.toNat + p.flags.toNat * 0x10000 + b2n p.gap * 0x40000000 + b2n p.committed * 0x80000000)

/-- The index words for the positions reached. -/
def indexWords (ps : List RecPos) : List (List Byte) :=
  (List.range (ceilDiv ps.length 8)).map (fun w => fitBytes 32 (((ps.drop (8 * w)).take 8).flatMap indexEntry))

/-- The CLOSE word (R277). -/
def closeWord (cause : Nat) (r : Record) (stamp : Nat) : List Byte :=
  leBytes 4 0x534F4C43 ++ leBytes 2 cause ++ leBytes 2 r.positions.length ++
    leBytes 2 (r.positions.filter (fun p => p.committed)).length ++ leBytes 2 (r.positions.filter (fun p => p.gap)).length ++
    leBytes 4 r.trigs.length ++ leBytes 4 r.lost ++ leBytes 8 stamp ++ leBytes 4 r.seq.toNat

/-- Index words, CLOSE, DIGEST and MAC of the record `r` (R277, R278), with the counts that go with a close. -/
def writeClose (cause : Nat) (r : Record) (sumBytes : Nat) (s : State) : State :=
  let a := s.incArea
  let s := putRec a r.first 9 (indexWords r.positions) (agentTurn s)
  let s := putRec a r.first 25 [closeWord cause r s.stamp] s
  let head := (List.range 26).flatMap (fun w => (s.arc.classOf (recWord a r.first w)).data)
  let blocks := r.positions.zipIdx.flatMap (fun e =>
    if e.1.committed then (List.range (sumBytes / 32)).flatMap (fun i =>
      (s.arc.classOf (recWord a r.first (32 + e.2 * (sumBytes / 32) + i))).data) else [])
  let dig := sha256 (head ++ blocks)
  let s := putRec a r.first 26 [dig, hmac s.devKey dig] s
  let s := { s with
    inc.records := satInc s.inc.records, inc.sealCnt := if cause = 0 then s.inc.sealCnt else satInc s.inc.sealCnt
    inc.lastCause := BitVec.ofNat 4 cause }
  msix 7 s.inc.intEn s

/-! ## Scanning the area (R279, R280) and erasing ahead (R278) -/

/-- A record as found in the archive: first sector, REC_SEQ, PRE_COUNT, SUM_KIB, tick index of position 0. -/
structure FoundRec where
  first : Nat
  seq : Nat
  sumKib : Nat
  tick0 : Nat
  isSealed : Bool
  exported : Bool
deriving DecidableEq, Repr, Inhabited

/-- The record that starts at a sector, if an OPEN word stands there. -/
def recordAt (arc : Arc) (a : Area) (i : Nat) : Option FoundRec :=
  match arc.classOf (recWord a i 0) with
  | .programmed b _ =>
    if at32 b 0 = 0x52544956 && at32 b 28 = 0xFFFFFFFF - at32 b 4 then
      some { first := i, seq := at32 b 4, sumKib := at8 b 10, tick0 := at64 b 16,
             isSealed := (match arc.classOf (recWord a i 25) with | .programmed c _ => decide (at32 c 0 = 0x534F4C43) | _ => false),
             exported := !arc.isBlank (recWord a i 28) }
    else none
  | _ => none

/-- REC_SECTORS of a record, by its own SUM_KIB (R271). -/
def FoundRec.sectors (f : FoundRec) : Nat := ceilDiv (1024 + 128 * (f.sumKib * 1024)) 262144

/-- The records of the area. -/
def recordsIn (arc : Arc) (a : Area) : List FoundRec := (List.range a.count).filterMap (fun k => recordAt arc a (a.first + k))

/-- The newest of them. -/
def newestRec (l : List FoundRec) : Option FoundRec :=
  l.foldl (fun b r => match b with | some x => if x.seq < r.seq then some r else b | none => some r) none

/-- The controller scans the area: the first word of each sector, and the header of each record. -/
def scanArea (s : State) : State :=
  let a := s.incArea
  let bank := decide (a.bank = 1)
  (recordsIn s.arc a).foldl (fun t f => ctlRead (sectorBase bank f.first) 1024 t)
    ((List.range a.count).foldl (fun t k => ctlRead (sectorBase bank (a.first + k)) 32 t) s)

/-- Whether a sector belongs to a record that lacks its EXPORTED word. -/
def Arc.unexported (arc : Arc) (a : Area) (i : Nat) : Bool :=
  (recordsIn arc a).any (fun f => !f.exported && decide ((i + a.count - f.first) % max 1 a.count < f.sectors))

/-- Erases REC_SECTORS sectors from a write point on, but for those that R278 keeps, and answers whether none was kept (R278, R280). -/
def eraseAhead (from_ : Nat) (s : State) : State × Bool :=
  let a := s.incArea
  let list := (List.range s.incSec.recSectors).map (fun k => a.sector from_ k)
  let kept (i : Nat) : Bool := !s.incSec.overwrite && s.arc.unexported a i
  ((list.filter (fun i => !kept i)).foldl (fun t i => devErase (a.bank = 1) i t) (agentTurn s), list.all (fun i => !kept i))

/-- Seals the open record when all its blocks are committed: the erase ahead, then the closing words. -/
def sealComplete (s : State) : State :=
  match s.inc.record with
  | none => s
  | some r =>
    let next := s.incArea.sector r.first s.incSec.recSectors
    let (s, ok) := eraseAhead next s
    let s := writeClose 0 r s.incSec.sumBytes s
    { s with inc.record := none, inc.writePt := next, inc.vstate := if ok then .ready else .full }

/-- Seals the open record at once, with what is committed (R279). (DESIGN CHOICE, log 18) -/
def sealNow (cause : Nat) (s : State) : State :=
  let s := recheckRecord s
  match s.inc.record with
  | none => s
  | some r =>
    let s := writeClose cause r s.incSec.sumBytes s
    { s with inc.record := none, inc.vstate := .closing, inc.writePt := s.incArea.sector r.first s.incSec.recSectors
             inc.ring := [], inc.ringFill := 0 }

/-- An unsealed record as it stands in the archive (R279): committed are the positions whose END word is PROGRAMMED. A position before a
committed one that is not is a GAP, since the commit is in position order (R278), and its tick is the one after that before it. (DESIGN CHOICE, log 18) -/
def asRecord (arc : Arc) (a : Area) (f : FoundRec) : Record :=
  let sum := f.sumKib * 1024
  let done (p : Nat) : Bool := match arc.classOf (recAddr a f.first (1024 + (p + 1) * sum - 32)) with
    | .programmed b _ => decide (at32 b 0 = 0x444E4531)
    | _ => false
  let last := (List.range 128).foldl (fun n p => if done p then p + 1 else n) 0
  let head (p : Nat) : List Byte := (arc.classOf (recAddr a f.first (1024 + p * sum))).data
  let trig (w : Nat) : Bool := match arc.classOf (recWord a f.first w) with | .programmed _ _ => true | _ => false
  let next (ps : List RecPos) : BitVec 16 := match ps.getLast? with | some q => q.tick + 1 | none => BitVec.ofNat 16 f.tick0
  { seq := BitVec.ofNat 32 f.seq, first := f.first, bank := decide (a.bank = 1), preCount := 0, post := 0, endPos := 0, capturing := false,
    positions := (List.range last).foldl (fun ps p => ps ++ [
      if done p then { tick := BitVec.ofNat 16 (at64 (head p) 8), flags := BitVec.ofNat 7 (at16 (head p) 4), committed := true }
      else { tick := next ps, flags := 0, gap := true : RecPos }]) [],
    trigs := ((List.range 8).filter (fun k => trig (1 + k))).map (fun _ => default) }

/-- The controller reads the words of a record that its seal rests on: the END word of each block, and of a committed block all. -/
def readBlocks (f : FoundRec) (s : State) : State :=
  let a := s.incArea
  let sum := f.sumKib * 1024
  let s := (List.range 128).foldl (fun t p => ctlRead (recAddr a f.first (1024 + (p + 1) * sum - 32)) 32 t) s
  (asRecord s.arc a f).positions.zipIdx.foldl (fun t e => if e.1.committed then ctlRead (recAddr a f.first (1024 + e.2 * sum)) sum t else t) s

/-- Seals every record of the area that lacks CLOSE, but for the one that is open, with cause START. (DESIGN CHOICE, log 18) -/
def startSeal (s : State) : State :=
  let s := scanArea s
  let left := (recordsIn s.arc s.incArea).filter (fun f => !f.isSealed && !s.inc.record.any (fun r => r.first = f.first))
  left.foldl (fun t f =>
    let t := readBlocks f t
    writeClose 3 (asRecord t.arc t.incArea f) (f.sumKib * 1024) t) s

/-- PREPARING ends (R280): the write point follows the newest record, by that record's own extent, and REC_SECTORS sectors are erased there. -/
def vitPrepare (s : State) : State :=
  let a := s.incArea
  let s := scanArea s
  let s := match newestRec (recordsIn s.arc a) with
    | some f => { s with inc.recSeq := BitVec.ofNat 32 f.seq, inc.writePt := a.sector f.first f.sectors }
    | none => { s with inc.recSeq := 0, inc.writePt := a.first }
  let (s, ok) := eraseAhead s.inc.writePt s
  if ok then { s with inc.vstate := .ready } else msix 7 s.inc.intEn { s with inc.vstate := .full }

/-- The vitrine begins with the running image's section (R273, R280). -/
def vitConfigure (s : State) : State :=
  { s with inc.vstate := if s.incOn then .preparing else .disabled, inc.ring := [], inc.ringFill := 0, inc.record := none }

/-- Capture ends where the state is left (corner "State left during capture"). -/
def vitLeave (s : State) : State := if s.mode = .run || s.mode = .degraded || s.mode = .safe then s else endCapture s

end Sys2Proof.Machine
end

