-- ==== Sys2Proof/Machine/Sched.lean ====
section
/-! DEFINITION. Operations of the curator: tokens, void tokens, solve records, cancellation and fences
(05_cores_and_curator.md, 07_solvers.md). -/
namespace Sys2Proof.Machine

/-! ## Tokens (R105) -/

/-- GEN of a tick. -/
def genOf (k : BitVec 64) : Byte := k.setWidth 8

/-- Key of a slot's entry for a generation: the parity selects in a DOUBLE slot. -/
def tokKey (im : Image) (slot : Nat) (gen : Byte) : Nat :=
  2 * slot + (if (im.slot slot).any (fun d => d.double) then gen.toNat % 2 else 0)

/-- The entry that a generation of a slot uses. -/
def State.entry (s : State) (slot : Nat) (gen : Byte) : Token := alookup {} s.sch.tokens (tokKey s.im slot gen)

/-- The token of a slot and generation, where it is present. -/
def State.token (s : State) (slot : Nat) (gen : Byte) : Option Token :=
  let t := s.entry slot gen
  if t.present && t.gen = gen then some t else none

/-- Writes an entry. -/
def putToken (slot : Nat) (gen : Byte) (t : Token) (s : State) : State :=
  { s with sch.tokens := aset {} s.sch.tokens (tokKey s.im slot gen) t }

/-- A token of generation `gen` as the curator or registrar writes it, CONS_LEFT from the graph (R110). (DESIGN CHOICE, log 41) -/
def newToken (s : State) (slot : Nat) (gen : Byte) (oldest : Oldest) (mask vote : Word) : Token :=
  { present := true, isVoid := false, gen := gen, consLeft := BitVec.ofNat 6 (s.im.consumers slot), oldest := oldest, mask := mask, vote := vote }

/-- An output entry is free for a generation: never written for it, with no reads left (R106). -/
def State.entryFree (s : State) (slot : Nat) (gen : Byte) : Bool :=
  let t := s.entry slot gen
  !(t.present && t.gen = gen) && t.consLeft = 0

/-- Internal address and length of a slot's tensor for a generation (R104). -/
def State.tensorAt (s : State) (slot : Nat) (gen : Byte) : Nat × Nat :=
  match s.im.slot slot with
  | some d => (if d.double && gen.toNat % 2 = 1 then d.addr1 else d.addr0, d.len)
  | none => (0, 0)

/-- Writes bytes in a slot's tensor, inside its length. -/
def writeTensor (slot : Nat) (gen : Byte) (off : Nat) (bytes : List Byte) (s : State) : State :=
  let (a, len) := s.tensorAt slot gen
  { s with mem := Memory.write s.mem (a + off) (bytes.take (len - off)) }

/-- Vector 4 (R14). -/
def schVec (s : State) : State := msix 4 s.sch.intEn s

/-- Writes a void token (R112, R113): OLDEST all ones, VOID, VOTE 0. -/
def writeVoid (slot : Nat) (gen : Byte) (mask : Word) (s : State) : State :=
  let t := { newToken s slot gen {} mask 0 with isVoid := true }
  let s := putToken slot gen t s
  schVec { s with sch.voidCnt := satInc s.sch.voidCnt }

/-- Void tokens in every output of a task. -/
def voidOutputs (t : TaskDesc) (gen : Byte) (mask : Word) (s : State) : State :=
  t.outs.foldl (fun s o => writeVoid o gen mask s) s

/-! ## Cores and where a task runs (R107, R113, R114) -/

/-- A core that the part enables and the image uses. -/
def State.coreThere (s : State) (n : Nat) : Bool := n < s.coreCount && s.im.sku.coreMask.testBit n

/-- A core under a self-test slice. -/
def State.coreTested (s : State) (n : Nat) : Bool :=
  s.tst.phase ≠ .idle && (match s.tst.slice with | some x => x.target = .core n | none => false)

/-- A core that tasks may run on. -/
def State.coreUsable (s : State) (n : Nat) : Bool := s.coreThere n && (s.core n).fence = 0

/-- The core that a task runs on: none for the common ready list; `none` outside when no core is left. -/
def State.placeOf (s : State) (t : TaskDesc) : Option (Option Nat) :=
  if t.core = 0x3F then some none
  else if s.sch.moved.contains t.id then (if s.coreUsable t.altCore then some (some t.altCore) else none)
  else if s.coreUsable t.core then some (some t.core) else none

/-- The run of a task for a tick has ended, or the task has been voided. -/
def State.taskDone (s : State) (id : Nat) (k : BitVec 64) : Bool := s.sch.done.contains (id, k)

def markDone (id : Nat) (k : BitVec 64) (s : State) : State := { s with sch.done := (id, k) :: s.sch.done }

/-- A task that no core can run (R113, steps 3 and 4). (DESIGN CHOICE, log 45) -/
def loseTask (t : TaskDesc) (k : BitVec 64) (s : State) : State :=
  let s := markDone t.id k s
  if t.essential then
    if s.sch.essSeen then s else raiseDet 52 (BitVec.ofNat 32 t.core) { s with sch.essSeen := true, sch.essLost := satInc s.sch.essLost }
  else voidOutputs t (genOf k) (BitVec.ofNat 32 t.voidMask) s

/-! ## Solve records (R132, R137) -/

def SolveResult.code : SolveResult → Nat
  | .none => 0 | .complete => 1 | .partialResult => 2 | .abandoned => 3 | .aborted => 4

/-- Core cycles of a time. -/
def State.cyclesOf (s : State) (ns : Nat) : Nat := ns * s.clk.coreMhz / 1000

/-- The status record of a solve: offsets 0x200 to 0x20C. -/
def solveWords (r : SolveRun) (fbDefault accepted : Bool) (cycles : Nat) : List Word :=
  [pack [(0, 3, r.result.code), (8, 1, b2n r.smallPivot), (9, 1, b2n r.hard), (10, 1, b2n r.notStarted), (11, 1, b2n fbDefault),
      (12, 1, b2n r.sat), (13, 1, b2n accepted), (16, 8, r.entry.id)],
   pack [(0, 13, r.iter), (16, 16, min r.pivCount 0xFFFF)],
   pack [(0, 13, r.pivFirst), (16, 13, r.pivIter)],
   BitVec.ofNat 32 cycles]

/-- The solve ended on a core: its registers report it, and its counters count. -/
def reportSolve (n : Nat) (r : SolveRun) (fbDefault accepted : Bool) (s : State) : State :=
  let c := s.core n
  let ws := solveWords r fbDefault accepted (s.cyclesOf (s.mono - r.startMono))
  let i := r.result.code - 1
  let cnt := tinc c.solCnt i
  let cnt := if r.smallPivot then tinc cnt 4 else cnt
  let cnt := if r.hard then tinc cnt 5 else cnt
  let margin := (r.deadline - s.mono) / 1000
  s.setCore n { c with
    solStat := ws.getD 0 0, solIter := ws.getD 1 0, solPiv := ws.getD 2 0, solCycles := ws.getD 3 0, solCnt := cnt
    marginMin := if r.result = .complete && margin < c.marginMin.toNat then BitVec.ofNat 17 margin else c.marginMin }

/-- A solve that is cancelled or abandoned reports ABORTED and writes no output (R137). -/
def abortSolve (n : Nat) (j : Job) (s : State) : State :=
  match j.solve with
  | some r => reportSolve n { r with result := .aborted, hard := false, notStarted := false } false false s
  | none => s

/-! ## Fallback buffers (R139) -/

/-- Bytes of a solve's result: OUT_0 without the status record. -/
def State.solveLen (s : State) (t : TaskDesc) : Nat :=
  match (t.outs.head?).bind s.im.slot with
  | some d => d.len - 16
  | none => 0

/-- Fills a fallback buffer on a core from the default result. -/
def fillFallback (t : TaskDesc) (e : SolveEntry) (core : Nat) (s : State) : State :=
  let bytes := Memory.read s.mem (coreBase core + e.defaultOfs) (s.solveLen t)
  { s with
    mem := Memory.write s.mem (coreBase core + e.fallbackOfs) bytes
    sch.fallbacks := { id := e.id, core := core : Fallback } :: s.sch.fallbacks.filter (fun f => !(f.id = e.id && f.core = core)) }

/-- SOLVE_ID of a SOLVE task: the first halfword of its parameter block, on the core that the image names (R131). -/
def solveOf (im : Image) (mem : Mem) (t : TaskDesc) : Option SolveEntry :=
  let id := ofLe (Memory.read mem (coreBase t.core + t.paramOfs) 2)
  im.solver.find? (fun e => e.id = id)

/-! ## Cancellation (R26, R416) -/

/-- How long a core has stalled without a grant at an instant, since its task started or since the last window judged. -/
def State.stallSince (s : State) (n m : Nat) : Nat :=
  let c := s.core n
  match c.job with
  | some j => if c.stalled then m - max j.startMono (s.pwr.window * 1000) else 0
  | none => 0

/-- A core is idle: what its task has stalled counts (R108). -/
def freeCore (n : Nat) (s : State) : State :=
  let c := s.core n
  s.setCore n { c with job := none, stalled := false, stallCyc := satAdd c.stallCyc (s.cyclesOf (s.stallSince n s.mono)) }

/-- The tick's running tasks leave their cores. -/
def dropRunning (hit : Job → Bool) (s : State) : State :=
  (List.range 48).foldl (fun t n =>
    match (t.core n).job with
    | some j =>
      if hit j then
        freeCore n (abortSolve n j t)
      else t
    | none => t) s

/-- The solves of tasks that wait report ABORTED, on the cores that would run them (R26, R137). (DESIGN CHOICE, log 47) -/
def abortWaiting (l : List TaskDesc) (s : State) : State :=
  l.foldl (fun s t => match solveOf s.im s.mem t, s.placeOf t with
    | some e, some (some n) => if t.kind = 2 then reportSolve n { entry := e, startMono := s.mono, result := .aborted } false false s else s
    | _, _ => s) s

/-- Cancels every task of tick k that is queued or running: results are discarded, entries of generation k are
cleared, and unfinished frames of the tick are cut. Answers the number of tasks cancelled. -/
def cancelTick (k : BitVec 64) (s : State) : State × Nat :=
  let im := s.im
  let tableTasks := im.tasks.filter (fun t => !t.queueIn && !(s.taskDone t.id k))
  let running := (List.range 48).foldl (fun n c => match (s.core c).job with
    | some j => if j.tick = k && (im.task j.task).any (fun t => t.queueIn) then n + 1 else n
    | none => n) 0
  let queued := (s.sch.ready.filter (fun j => j.tick = k)).filterMap (fun j => (im.task j.task).filter (fun t => t.queueIn))
  let waits (t : TaskDesc) : Bool := !((List.range 48).any (fun c => (s.core c).job.any (fun j => j.task = t.id && j.tick = k)))
  let s := abortWaiting (tableTasks.filter waits ++ queued) (dropRunning (fun j => j.tick = k) s)
  let gen := genOf k
  let s := { s with
    sch.ready := s.sch.ready.filter (fun j => j.tick ≠ k)
    sch.tokens := s.sch.tokens.filter (fun e => e.2.gen ≠ gen)
    sch.done := s.sch.done ++ (tableTasks.map (fun (t : TaskDesc) => (t.id, k)))
    cams := s.cams.map (fun c => { c with opens := c.opens.map (fun o => o.map (fun f => if f.tick = k then { f with drop := true } else f)) }) }
  (s, tableTasks.length + running + queued.length)

/-- Every running and released task is dropped, and solves report ABORTED. -/
def dropTasks (s : State) : State := { dropRunning (fun _ => true) s with sch.ready := [] }

/-- Ends compute at once: every running and queued task is dropped, solves report ABORTED, and every entry is
cleared (R268, and the states without boundaries). -/
def stopCompute (s : State) : State :=
  { dropTasks s with sch.tokens := [] }

/-! ## Fences (R113) -/

/-- Fences a core: 1 by the warden, 2 by the conservator. The own tasks of a core that tasks were moved to stay, as those moved do (the corner
on the fence of the alternate). (DESIGN CHOICE, log 45) -/
def fenceCore (n : Nat) (cause : BitVec 2) (s : State) : State :=
  if 48 ≤ n || (s.core n).fence ≠ 0 then s
  else
    let im := s.im
    let running := (s.core n).job
    let s := match running with
      | some j => abortSolve n j s
      | none => s
    let s := freeCore n s
    let s := schVec (s.setCore n { s.core n with fence := cause })
    let s := if s.coreTested n then { s with tst.phase := .idle, tst.slice := none } else s
    let isAlt := im.tasks.any (fun t => t.altCore = n && s.sch.moved.contains t.id)
    let go : List TaskDesc := if isAlt then [] else im.tasks.filter (fun t => t.core = n && !(s.sch.moved.contains t.id) && t.altCore ≠ 0x3F && s.coreUsable t.altCore)
    let s := { s with sch.moved := go.map (fun (t : TaskDesc) => t.id) ++ s.sch.moved }
    let hit := running.toList ++ s.sch.ready.filter (fun j => j.core = some n)
    let s := { s with sch.ready := s.sch.ready.filter (fun j => j.core ≠ some n) }
    hit.foldl (fun s j =>
      match im.task j.task with
      | none => s
      | some t => match s.placeOf t with
        | some c => { s with sch.ready := s.sch.ready ++ [{ j with core := c, moved := t.core ≠ 0x3F, solve := none }] }
        | none => loseTask t j.tick s) s

end Sys2Proof.Machine
end

