-- ==== Sys2Proof/Machine/States.lean ====
section
/-! DEFINITION. Entering a state, the fault pair by state, and the resets (03_states_and_startup.md). -/
namespace Sys2Proof.Machine

/-! ## The fault pair (R364) -/

/-- States in which the fault pair shows healthy. -/
def Mode.healthy : Mode → Bool
  | .armed | .run | .degraded | .quarantine => true
  | _ => false

/-- Drives the fault pair. -/
def drivePair (v : Option (Bool × Bool)) (s : State) : State :=
  if s.pins.faultPair = v then s
  else
    let s := { s with pins.faultPair := v }
    match v with
    | some (p, n) => s.say (.faultPair p n)
    | none => s

/-- The pair on a change of state from `old`: a healthy pair goes on as it is, heartbeat included. -/
def pairFor (old : Mode) (s : State) : State :=
  if s.mode = .off then drivePair none s
  else if s.mode.healthy then (if old.healthy then s else drivePair (some (true, false)) s)
  else drivePair (some (false, true)) s

/-! ## What a state ends -/

/-- The tick ends at once in a state without boundaries (R416): tasks and frames are dropped, PHASE reads Quiet. -/
def endTick (s : State) : State :=
  let s := stopCompute s
  { s with tck.gDone := true, tck.eDone := true, tck.qDone := true, tck.phase := 3, tck.lead := none, tck.switch := none
           tck.req := none, outb.waits := [], tck.stepped := false, tck.commitFrom := none }

/-- The sensor ports return to their behaviour before ARMED (R68, R70): links are held off, open frames and SPI
transactions end. -/
def idlePorts (s : State) : State :=
  let s := { s with
    eths := s.eths.map (fun e => { e with link := false, anDone := false, speedBad := false, asCapable := false, pdelayT1 := none })
    cams := s.cams.map (fun c => { c with hs := false, opens := Vector.replicate 4 none })
    spis := s.spis.map (fun x => { x with busy := false }) }
  [66, 67, 68, 69].foldl (fun t d => levelOff d t) s

/-- Frames that are open where posting stops are not taken up again (R144). (DESIGN CHOICE, log 49) -/
def dropFrames (s : State) : State :=
  { s with cams := s.cams.map (fun c => { c with opens := c.opens.map (fun o => o.map (fun f => { f with drop := true })) }) }

/-- A pending commit is withdrawn with ABORTED; the candidate stays VERIFIED (R94 and the corner on ENTER_MAINT). (DESIGN CHOICE, log 36) -/
def withdrawCommit (s : State) : State :=
  if s.img.stage = 4 then { s with img.stage := 3, img.stat := stAborted } else s

/-- A manager enters SAFE: its policy governs the fabric (R329). One that hands its office over goes on as a worker that reports SAFE. (DESIGN CHOICE, log 91) -/
def managerSafe (s : State) : State :=
  if s.fab.role ≠ roleManager || !s.fabricOn then s
  else
    let say (s : State) : State := sendBroadcast (.safe s.tck.index 8) s
    match s.fabSec.safePolicy with
    | 1 => say s
    | 2 =>
      if s.fab.stby = 0xFFF then say s
      else
        let heir := s.fab.stby
        let s := sendBroadcast (.role heir 0xFFF (s.fab.devices.setWidth 16) s.fab.epoch) s
        graphChanged (followFabric (setRole roleWorker { s with fab.mgr := heir, fab.stby := 0xFFF, fab.joined := true, fab.timeOkMgr := 0, fab.missConsec := 0 }))
    | _ => s

/-- States in which EXTEST, CLAMP and HIGHZ are permitted (R400). -/
def Mode.bscan : Mode → Bool
  | .hold | .maint => true
  | _ => false

/-- Leaving HOLD or MAINT while EXTEST, CLAMP or HIGHZ is in force returns the pins to functional control (R401). (DEDUCED, log 85) -/
def pinsBack (old : Mode) (s : State) : State :=
  if old.bscan && !s.mode.bscan then
    match s.pins.ir with
    | .extest | .clamp | .highz => { s with pins.ir := .bypass }
    | _ => s
  else s

/-- GCTL_STATE.PREV on entering a state: where a lower state was entered at this same instant, the state before the
instant (R57). -/
def State.prevFor (s : State) (m : Mode) : Mode :=
  if s.gctl.changeMono = s.mono && m.rank < s.mode.rank && s.mode.rank < 9 then s.gctl.prev else s.mode

/-- Released and running tasks other than INGEST are dropped. -/
def dropCompute (s : State) : State :=
  let hit (j : Job) : Bool := match s.im.task j.task with | some t => decide (t.kind ≠ 3) | none => true
  { dropRunning hit s with sch.ready := s.sch.ready.filter (fun j => !hit j) }

/-- In SAFE and QUARANTINE nothing computes but a tick that began in RUN or DEGRADED, until its Emit edge, and in ARMED beside such a
tick ingest alone (R33, R416). (DESIGN CHOICE, log 97) -/
def quietCores (s : State) : State :=
  if s.tck.ticked && s.tck.compute && !s.tck.eDone then s else if s.mode = .armed then dropCompute s else dropTasks s

/-- What stood before the first change of state of this instant is kept (R57). -/
def keepBefore (s : State) : State :=
  if s.before.any (fun b => b.mono = s.mono) then s
  else { s with before := some { mono := s.mono, gctl := s.gctl, inc := s.inc, aln := s.aln, joinSent := s.fab.joinSent } }

/-- Enters a state (R56), with what the entry itself brings. (DESIGN CHOICE, log 31; DESIGN CHOICE, log 34) -/
def enter (m : Mode) (s : State) : State :=
  let old := s.mode
  if old = m then s
  else
    let s := keepBefore (ldgTouch s)
    let s := { s with gctl.mode := m, gctl.prev := s.prevFor m, gctl.changeMono := s.mono }
    let s := pinsBack old (pairFor old s)
    let s := if m.ticks then s else endTick s
    let s := match m with
      | .armed => { quietCores s with
          gctl.armedMono := s.mono, gctl.armTimedOut := false, gctl.everArmed := true, gctl.expectMs := 0
          gctl.degOvr := false, gctl.degTime := false, gctl.lockLost := false, fab.joinSent := false
          aln.streams := s.aln.streams.map (fun x => { x with cLast := none, expect := none, maskedRun := 0 }) }
      | .quarantine => quietCores (dropFrames s)
      | .maint => withdrawCommit (idlePorts s)
      | .safe => managerSafe (quietCores (dropFrames s))
      | _ => s
    vitLeave s

/-- A HALT of this instant is judged in the higher state that is entered: rejected, with HELD as before (R57). -/
def undoHalt (s : State) : State :=
  match s.gctl.halted with
  | some h =>
    if h.mono = s.mono && s.gctl.cmdEcho = 1 then
      rejectCmd h.src 0x20 1 { s with gctl.halted := none, gctl.held := h.held, gctl.cmdStat := stNotInState }
    else s
  | none => s

/-- What the lower states entered at this instant brought is undone: the flags of ARMED and RUN, a capture that ended, the compute of a tick
that opened (R57). -/
def undoLower (s : State) : State :=
  match s.before with
  | some b =>
    if b.mono ≠ s.mono then s
    else
      let g := b.gctl
      let cap := match s.inc.record, b.inc.record with
        | some r, some o => o.capturing && !r.capturing && r.seq = o.seq
        | _, _ => false
      let s := { s with
        gctl.degOvr := g.degOvr, gctl.degTime := g.degTime, gctl.lockLost := g.lockLost, gctl.freeRun := g.freeRun, gctl.armTimedOut := g.armTimedOut
        gctl.armedMono := g.armedMono, aln.streams := b.aln.streams, fab.joinSent := b.joinSent }
      if cap then { s with inc.record := s.inc.record.map (fun r => { r with capturing := true }), inc.vstate := b.inc.vstate
                           inc.ring := b.inc.ring, inc.ringFill := b.inc.ringFill }
      else s
  | none => s

/-- SAFE or QUARANTINE: no lower state of the same instant leaves a trace, and a tick that opened at this instant began in the state
entered (R57, R416). -/
def enterOver (m : Mode) (s : State) : State :=
  let fresh := s.tck.openMono = s.mono
  let s := undoHalt (enter m (undoLower s))
  if fresh then { s with tck.compute := false } else s

/-- QUARANTINE with a cause (R322, R323): at once from ARMED, RUN and DEGRADED; a cause of its own in QUARANTINE. (DESIGN CHOICE, log 90) -/
def quarantine (cause : BitVec 4) (s : State) : State :=
  let s := { s with fab.cause := cause, fab.joined := false, fab.rejoinOk := false, gctl.admitted := false }
  match s.mode with
  | .armed | .run | .degraded => enterOver .quarantine s
  | _ => s

/-- DEGRADED, where a cause arises in RUN. -/
def degrade (s : State) : State := if s.mode = .run then enter .degraded s else s

/-- SAFE, from the states that R56 names. -/
def goSafe (s : State) : State :=
  match s.mode with
  | .armed | .run | .degraded | .quarantine => enterOver .safe s
  | _ => s

/-! ## Resets (R62, R63) -/

/-- A program in progress runs to the end of its code word; BLANK_CHECK programs nothing. -/
def finishWord (s : State) : State :=
  match s.arc.prog with
  | some p => { s with arc := { (if p.data.isEmpty then s.arc else s.arc.put p.addr p.data) with prog := none } }
  | none => s

/-- The kinds of reset, as GCTL_RST_TYPE codes them. -/
abbrev rstPower : BitVec 2 := 0
abbrev rstPin : BitVec 2 := 1
abbrev rstSoft : BitVec 2 := 2
abbrev rstWarden : BitVec 2 := 3

/-- The state after a reset: everything at its reset value but what R62 keeps. (DEDUCED, log 20; DESIGN CHOICE, log 67) -/
def afterReset (kind : BitVec 2) (s : State) : State :=
  let z : State := {}
  let soft := kind = rstSoft || kind = rstWarden
  let power := decide (kind = rstPower)
  let scan := if power || (kind = rstPin && !s.otp.isSealed) then none else s.pins.scan
  let base : State := { z with
    otp := if power then { s.otp with keysOff := false } else s.otp
    out := s.out, freeCtr := s.freeCtr, pending := s.pending
    pwr := { z.pwr with alertPin := s.pwr.alertPin, alert := s.pwr.alertPin, effective := if s.pwr.alertPin then s.ceiling / 2 else s.ceiling }
    pins := { z.pins with mgrSel := s.pins.mgrSel, fabAddr := s.pins.fabAddr, resetLow := s.pins.resetLow, cardPresent := power || s.pins.cardPresent, crystal := s.pins.crystal,
                          ir := if power then .idcode else s.pins.ir, bsr := if power then [] else s.pins.bsr, scan := scan, faultPair := s.pins.faultPair }
    arc := { z.arc with words := s.arc.words, hdrs := s.arc.hdrs, weak := s.arc.weak, bitErrs := s.arc.bitErrs } }
  if kind = rstPower then { base with gctl.prev := .off }
  else
    { base with
      tim := { z.tim with mono := s.tim.mono, dev := s.tim.dev, frac := s.tim.frac, fTerm := s.tim.fTerm, refMono := s.tim.mono, knots := s.tim.knots }
      gctl := { z.gctl with prev := s.prevFor .hold, rstType := kind, rstCount := satInc s.gctl.rstCount, t0 := s.mono, changeMono := s.mono }
      flt := { z.flt with active := s.flt.active, line := s.flt.line, cnt := s.flt.cnt, records := s.flt.records, history := s.flt.history,
                          bounds := s.flt.bounds, extPat := s.flt.extPat }
      hst := if soft then { z.hst with linkUp := s.hst.linkUp, speed := s.hst.speed, width := s.hst.width, bme := s.hst.bme } else z.hst }

/-- Conditions of blocks that a reset clears are no longer reported. (DEDUCED, log 20) -/
def levelsCleared (s : State) : State := [66, 67, 68, 69, 70, 71, 72, 73, 78, 79].foldl (fun t d => levelOff d t) s

/-- A reset into HOLD. A part in internal scan takes none, but for the pin reset of an open part (R384, R385). Before a soft or warden reset the vitrine seals with RESET and the turnstile writes FINAL. (DEDUCED, log 85) -/
def resetTo (kind : BitVec 2) (s : State) : State :=
  if s.pins.scan.isSome && !(kind = rstPin && !s.otp.isSealed) then s
  else
  let s := abandonErase (finishWord s)
  let s := if kind = rstSoft || kind = rstWarden then ldgCheckpoint true (sealNow 2 s) else s
  let s := levelsCleared (afterReset kind (abandonErase s))
  let s := { s with gctl.degWarden := s.flt.records.any (fun r => r.react = 2 && r.judged) }
  let s := if kind = rstWarden then { s with gctl.holdReason := 6 } else s
  drivePair (some (false, true)) s

/-- OFF: nothing but fuses, archive and straps outlives it. -/
def goOff (s : State) : State :=
  let s := afterReset rstPower (abandonErase s)
  drivePair none { s with gctl.mode := .off }

end Sys2Proof.Machine
end

