-- ==== Sys2Proof/Machine/Warden.lean ====
section
/-! DEFINITION. The warden: the table of detectors, the map in force, records, reactions, and `settle`, which lets
the warden take what blocks have raised (19_warden.md). -/
namespace Sys2Proof.Machine

/-! ## Detectors (R351) -/

/-- Default reaction: 0 LOG, 1 NOTIFY, 2 DEGRADE, 3 SAFE, 4 HOLD. -/
def defaultReact (d : Nat) : Nat :=
  if d < 48 then 2
  else if [48, 49, 52, 80, 83, 84, 85, 86, 87].contains d then 3
  else if d = 88 || d = 89 then 4
  else if [57, 70, 71, 72, 73, 74, 76, 77, 78, 81, 91].contains d then 1
  else 0

/-- Level detectors. -/
def isLevel (d : Nat) : Bool := (66 ≤ d && d ≤ 73) || d = 78 || d = 79 || (85 ≤ d && d ≤ 87)

/-- Detectors that exist. -/
def detExists (d : Nat) : Bool := d < 92

/-- The map entry in force, REACT resolved from 7 (R353, R354): reaction, ESC_N, ESC_T. -/
def mapOf (s : State) (d : Nat) : Nat × Nat × Nat :=
  if s.gctl.everArmed then
    let e := s.im.faultMap.entries.getD d {}
    (if e.react = 7 then defaultReact d else e.react, e.escN, e.escT)
  else (defaultReact d, 0, 0)

/-! ## Fences (R355) -/

/-- Fences the resource of a detector, if it has one. -/
def fenceOf (d : Nat) (s : State) : State :=
  if d < 48 then fenceCore d 1 s
  else if d < 58 then s
  else if d < 66 then
    let c := s.cam (d - 58)
    s.setCam (d - 58) { c with fenced := true, opens := c.opens.map (fun o => o.map (fun f => { f with drop := true })) }
  else if d < 70 then s.setEth (d - 66) { s.eth (d - 66) with fenced := true }
  else if d < 72 then s.setCan (d - 70) { s.can (d - 70) with fenced := true }
  else if d < 74 then s.setSpi (d - 72) { s.spi (d - 72) with fenced := true, busy := false }
  else s

/-! ## Records (R360, R361) -/

/-- The record of a detector. -/
def Flt.recOf (f : Flt) (d : Nat) : Option FaultRec := f.records.find? (fun r => r.det = d)

/-- Replaces the record of a detector. -/
def Flt.putRec (f : Flt) (r : FaultRec) : Flt := { f with records := f.records.map (fun x => if x.det = r.det then r else x) }

/-- Opens a record, in place of the oldest LOG or NOTIFY record that is not ACTIVE where all 64 are in use and the
new reaction is DEGRADE or higher; counts one that is not kept. -/
def Flt.open (f : Flt) (r : FaultRec) : Flt :=
  if f.records.length < 64 then { f with records := f.records ++ [r] }
  else
    match f.records.find? (fun x => x.react.toNat ≤ 1 && !x.active), decide (2 ≤ r.react.toNat) with
    | some x, true => { f with records := f.records.filter (fun y => y.det ≠ x.det) ++ [r] }
    | _, _ => { f with cnt := tinc f.cnt 2 }

/-- Writes or updates the record of an occurrence whose reaction is `level`. -/
def recordOcc (d level : Nat) (line esc act : Bool) (detail : Word) (held : Bool) (s : State) : State :=
  let now := w64 s.stamp
  match s.flt.recOf d with
  | some r =>
    let r := { r with
      react := if r.react.toNat < level then BitVec.ofNat 3 level else r.react
      applied := if held then (if r.judged then r.react else r.applied) else BitVec.ofNat 3 (max r.applied.toNat level)
      line := r.line || line, esc := r.esc || esc, active := act, count := satInc r.count, last := now, lastTick := s.tck.index
      detail := detail, judged := r.judged && !held }
    { s with flt := s.flt.putRec r }
  | none =>
    { s with flt := s.flt.open {
        det := d, react := BitVec.ofNat 3 level, line := line, esc := esc, active := act, preArmed := !s.gctl.everArmed
        state := s.mode.code, first := now, last := now, lastTick := s.tck.index, detail := detail, judged := !held } }

/-- The DEG_WARDEN cause: a record whose applied reaction is DEGRADE remains uncleared (R359). -/
def State.degWardenCause (s : State) : Bool := s.flt.records.any (fun r => r.react = 2 && r.judged)

/-! ## Taking patterns (R352, R357, R358) -/

def setBit (v : BitVec 256) (d : Nat) (b : Bool) : BitVec 256 :=
  if b then v ||| BitVec.twoPow 256 d else v &&& ~~~(BitVec.twoPow 256 d)

/-- Occurrences of a detector within the last `t` boundaries, counting the present tick. (DESIGN CHOICE, log 73) -/
def occurrences (s : State) (d t : Nat) : Nat := (s.flt.history.filter (fun h => h.1 = d && s.flt.bounds - h.2 < t)).length

/-- One occurrence: counted, escalated, recorded. Answers the level to be applied; none where it is recorded only. (DESIGN CHOICE, log 73) -/
def occur (d : Nat) (line act : Bool) (detail : Word) (s : State) : State × Option Nat :=
  let s := { s with flt.history := (d, s.flt.bounds) :: s.flt.history.filter (fun h => s.flt.bounds - h.2 < 256)
                    flt.cnt := if line then tinc (tinc s.flt.cnt 0) 1 else tinc s.flt.cnt 0 }
  let s := if d < 48 && s.img.stage = 2 && s.im.hotReserve.any (fun r => r.1 = d) then { s with img.fillBad := true } else s
  let (react, escN, escT) := mapOf s d
  let esc := escN ≠ 0 && escN ≤ occurrences s d escT
  let level := if esc then min 4 (react + 1) else react
  let s := if esc then { s with flt.cnt := tinc s.flt.cnt 3 } else s
  let held := !s.gctl.everArmed && (level = 2 || level = 3)
  (recordOcc d level line esc act detail held s, if held then none else some level)

/-- A pattern of one pair, or the pulse of a block, which leaves a broken pair broken. Answers the level to be applied, if it is an occurrence.
An event detector shows LINE until its pair reads (1,0) (the corner on LINE). -/
def takePattern (block : Bool) (x : DetPattern) (s : State) : State × Option Nat :=
  let d := x.det
  let line := x.p = x.n
  let err := line || (!x.p && x.n)
  let was := s.flt.active.getLsbD d
  if !err then (if block then levelOff d s else pairClean d s, none)
  else
    let broken := line || (s.flt.line.getLsbD d && (block || !isLevel d))
    let act := isLevel d || broken
    let s := { s with flt.active := setBit s.flt.active d act, flt.line := setBit s.flt.line d broken }
    if isLevel d && was then
      match s.flt.recOf d with
      | some r => ({ s with flt := s.flt.putRec { r with line := r.line || line } }, none)
      | none => (s, none)
    else occur d line act x.detail s

/-- Applies the highest reaction among those taken at one sample, and every fence among them (R355 to R357). -/
def react (l : List (Nat × Nat)) (s : State) : State :=
  match l with
  | [] => s
  | _ =>
    let top := l.foldl (fun m e => max m e.2) 0
    let det := ((l.find? (fun e => e.2 = top)).getD (0, 0)).1
    let s := (l.filter (fun e => e.2 = 2)).foldl (fun t e => fenceOf e.1 { t with flt.cnt := tinc t.flt.cnt 4 }) s
    let s := (l.filter (fun e => e.2 = 3)).foldl (fun t _ => { t with flt.cnt := tinc t.flt.cnt 5 }) s
    let s := if 1 ≤ top then msix 0 s.flt.intEn s else s
    let s := { s with gctl.degWarden := s.degWardenCause || (top = 2 && decide (s.mode = .run)) }
    let s := if top = 4 then resetTo rstWarden s
      else if top = 3 then goSafe s
      else if top = 2 then degrade s
      else s
    if s.incSec.faultLevel ≤ top && 1 ≤ top then
      vitTrigger cauFault (BitVec.ofNat 16 det) (BitVec.ofNat 8 top) 0 s else s

/-- The warden takes patterns of one sample, in ascending detector number. In OFF and REMOVAL nothing reacts. (DESIGN CHOICE, log 14) -/
def takePatterns (block : Bool) (l : List DetPattern) (s : State) : State :=
  if s.mode = .off || s.mode = .removal then s
  else
    let l := (l.filter (fun x => detExists x.det)).mergeSort (fun a b => a.det ≤ b.det)
    let (s, got) := l.foldl (fun (acc : State × List (Nat × Nat)) x =>
      let (s, r) := takePattern block x acc.1
      (s, acc.2 ++ (match r with | some v => [(x.det, v)] | none => []))) (s, [])
    react got s

/-- The warden takes the pulses that blocks have raised in the command, until none is left. -/
def settleN : Nat → State → State
  | 0, s => { s with flt.due := [] }
  | n + 1, s =>
    if s.flt.due.isEmpty then s
    else
      let l := s.flt.due.reverse.map (fun e => { det := e.1, p := false, n := true, detail := e.2 : DetPattern })
      settleN n (takePatterns true l { s with flt.due := [] })

/-- The warden has taken every pulse, and the fabric ports have sent what waits (R299). (DESIGN CHOICE, log 14) -/
def settle (s : State) : State := flushPorts (settleN 4 s)

/-- The answer of a command: what its blocks have raised reaches the warden before it ends. (DESIGN CHOICE, log 8) -/
def done (s : State) : Answer := .next (settle s)

/-- At entry to ARMED every record that waits is judged under the image's map (R354). (DESIGN CHOICE, log 73) -/
def rejudge (s : State) : State :=
  let wait := s.flt.records.filter (fun r => !r.judged)
  let (s, got) := wait.foldl (fun (acc : State × List (Nat × Nat)) r =>
    let (level, _, _) := mapOf acc.1 r.det
    let applies := !isLevel r.det || r.active
    let t := { acc.1 with flt := acc.1.flt.putRec { r with judged := true, react := BitVec.ofNat 3 (max r.applied.toNat (if applies then level else 0)) } }
    (t, if applies then acc.2 ++ [(r.det, level)] else acc.2)) (s, [])
  react got s

/-! ## Clearing (R362) -/

/-- Clears the record of one detector, or refuses while it is ACTIVE; clearing may end DEG_WARDEN. The status for a detector
without a record is left open. (DESIGN CHOICE, log 74) -/
def clearRec (d : Nat) (s : State) : State :=
  match s.flt.recOf d with
  | some r =>
    if r.active || s.flt.active.getLsbD d then { s with flt.clrStat := stBusy }
    else
      let s := { s with flt.clrStat := stOk, flt.records := s.flt.records.filter (fun x => x.det ≠ d) }
      { s with gctl.degWarden := s.gctl.degWarden && s.degWardenCause }
  | none => { s.drawn with flt.clrStat := someStatus s.freeCtr }

/-- Clears every record that is not ACTIVE; BUSY if any remains. -/
def clearAllRecs (s : State) : State :=
  let rest := s.flt.records.filter (fun r => r.active || s.flt.active.getLsbD r.det)
  let s := { s with flt.records := rest, flt.clrStat := if rest.isEmpty then stOk else stBusy }
  { s with gctl.degWarden := s.gctl.degWarden && s.degWardenCause }

/-- The map in force has changed: without HEARTBEAT a healthy pair is static (R364), and EXT_FLT is no longer observed when
EXT_EN is 0 (R368). -/
def extDropped (s : State) : State :=
  let s := if s.mode.healthy && !s.im.faultMap.heartbeat then drivePair (some (true, false)) s else s
  if s.im.faultMap.extEn then s else pairClean 86 s

end Sys2Proof.Machine
end

