-- ==== Sys2Proof/Machine/PowerOps.lean ====
section
/-! DEFINITION. Operations of the power arbiter: the settled budget, costs and classes (18_power_and_clocks.md). -/
namespace Sys2Proof.Machine

/-- FLOOR and BASE in force (R335, R343). -/
def State.pwrFloor (s : State) : Nat := if s.gctl.everArmed then s.im.power.floor else s.ceiling / 2
def State.pwrBase (s : State) : Nat := if s.gctl.everArmed then s.im.power.base else s.otp.base

/-- Cost and class of a consumer (R334, R343). In REMOVAL the charge pumps count as class 0. -/
def State.consumer (s : State) (c : Nat) : Nat × Nat :=
  let e := if s.gctl.everArmed then s.im.power.consumers.getD c (0, 0)
    else if c < 48 then (s.otp.coreCost, 1) else (s.otp.otherCosts.getD (c - 48) 0, 0)
  if s.mode = .removal then (e.1, 0) else e

/-- The effective budget that the settled values give (R336, R343). -/
def effectiveOf (s : State) : Nat :=
  if s.gctl.everArmed then
    let b := if s.pwr.therm then min s.pwr.setBudget s.im.power.thermBudget else s.pwr.setBudget
    if s.pwr.alert then s.im.power.floor else b
  else if s.pwr.alert then s.ceiling / 2 else s.ceiling

/-- Vector 12 (R14). -/
def pwrVec (s : State) : State := msix 12 s.pwr.intEn s

/-- The thermal cap at a boundary, on the reading of the hottest sensor in °C (R342). -/
def thermalCap (s : State) : State :=
  if !s.pwr.therm && (s.im.power.thermThr : Int) ≤ s.pwr.hottest then
    pwrVec { s with pwr.therm := true, pwr.cnt := tinc s.pwr.cnt 3 }
  else if s.pwr.therm && s.pwr.hottest < (s.im.power.thermThr : Int) - 5 then { s with pwr.therm := false }
  else s

/-- Detector 85 (R351): the hottest sensor at or above 125 °C. -/
def thermalLevel (s : State) : State := if 125 ≤ s.pwr.hottest then raiseDet 85 0 s else levelOff 85 s

/-- A received budget within the range from FLOOR to the ceiling, counted where it was clamped (R345). -/
def takeBudget (s : State) (b : FabBudget) : State :=
  let v := max s.im.power.floor (min s.ceiling b.budget)
  pwrVec { s with
    pwr.setBudget := v, pwr.fabOwned := true, pwr.classFloor := b.classFloor
    pwr.cnt := if v = b.budget then s.pwr.cnt else tinc s.pwr.cnt 4 }

/-- The BUDGETs whose boundary has come, the latest last; the others wait (R315). -/
def fabBudget (s : State) : State :=
  let isDue (b : FabBudget) : Bool := b.index.toNat ≤ s.tck.index.toNat
  ((s.fab.budgets.filter isDue).mergeSort (fun a b => a.index.toNat ≤ b.index.toNat)).foldl takeBudget
    { s with fab.budgets := s.fab.budgets.filter (fun b => !isDue b) }

/-- Everything that R336 settles at a boundary. A host value staged before a commit that raises FLOOR above it is raised too. -/
def settleBudget (s : State) : State :=
  let s := match s.pwr.staged with
    | some v => { s with pwr.setBudget := max v s.im.power.floor, pwr.staged := none }
    | none => s
  let s := thermalCap (fabBudget s)
  let s := { s with pwr.alert := s.pwr.alertPin }
  { s with pwr.effective := effectiveOf s }

/-- The budget of R343 admits the power-up plan while PWR_ALERT_N is in force: BASE, the class-0 costs and the cores of a group of 12. (DESIGN CHOICE, log 71) -/
def State.planAdmitted (s : State) : Bool :=
  !s.pwr.alertPin || decide (s.otp.base + s.otp.otherCosts.sum + 12 * s.otp.coreCost ≤ s.ceiling / 2)

/-- The plan waits from now on, or goes on (R370): the time waited is added to the expected time. -/
def planWait (s : State) : State :=
  match s.gctl.waitFrom, decide (s.mode = .selftest) && !s.planAdmitted with
  | none, true => { s with gctl.waitFrom := some s.mono }
  | some m, false => { s with gctl.waitFrom := none, gctl.expectAt := s.gctl.expectAt + (s.mono - m) }
  | _, _ => s

/-- The stall of the running cores by the relock of the core PLL, up to `until_` (R338): what a job has run so far counts at the new frequency. -/
def relockStall (oldMhz until_ : Nat) (s : State) : State :=
  (List.range 48).foldl (fun s n =>
    let c := s.core n
    match c.job with
    | some j =>
      if c.stalled then s
      else
        let ran := (s.mono - j.startMono) * oldMhz / max 1 s.clk.coreMhz
        s.setCore n { c with job := some { j with startMono := until_ - ran }, stallCyc := satAdd c.stallCyc (s.cyclesOf (until_ - s.mono)) }
    | none => s) s

/-- The POWER section of a newly running image: at the first entry to ARMED, or at a commit (R333, R336, R338). -/
def configurePower (old : Option PowerSec) (new : PowerSec) (s : State) : State :=
  let budget := match old with
    | some o => if o.budget ≠ new.budget && !s.pwr.fabOwned then new.budget else s.pwr.setBudget
    | none => new.budget
  let relock := match old with | some o => decide (o.coreMhz ≠ new.coreMhz) | none => decide (new.coreMhz ≠ 1000)
  let oldMhz := s.clk.coreMhz
  let s := { s with pwr.setBudget := max budget new.floor, clk.coreMhz := new.coreMhz }
  if relock then relockStall oldMhz (s.mono + 50000) { s with pwr.relockUntil := s.mono + 50000 } else s

end Sys2Proof.Machine
end

