-- ==== Sys2Proof/Machine/ImgOps.lean ====
section
/-! DEFINITION. What a newly running image configures: at LOAD, and at the boundary of a commit (R86, R91). -/
namespace Sys2Proof.Machine

/-! ## Blocks -/

/-- Bytes of the empty grid (R192): features and confidence 0, mask byte 0xFF. -/
def emptyCell (g : GridSec) : List Byte :=
  (List.range g.stride).map (fun i => if i = g.c + 1 then 0xFF else 0)

/-- Both grid buffers hold the empty grid. -/
def emptyGrids (s : State) : State :=
  let g := s.im.grid
  let bytes := (List.replicate (g.x * g.y) (emptyCell g)).flatten
  { s with mem := Memory.write (Memory.write s.mem g.buf0 bytes) g.buf1 bytes, grd.frontEmpty := true, grd.oldest := {}
           grd.mask := 0, grd.vote := 0, grd.floors := [] }

/-- Every stream is reinstated, and histories and clean counts are cleared (10_grid_vote_outputs.md). (DESIGN CHOICE, log 57) -/
def clearVote (s : State) : State :=
  { s with grd.votedOut := 0, grd.clean := Vector.replicate 32 0
           grd.groups := s.grd.groups.map (fun g => { g with hist := Vector.replicate 5 0 }) }

/-- The scoreboard, rings and line rings start afresh under the running image; tasks of fenced cores move (R91, R113). -/
def rebuildSched (s : State) : State :=
  let im := s.im
  let s := dropRunning (fun _ => true) s
  { s with
    sch.tokens := [], sch.ready := [], sch.done := [], sch.late := [], sch.frameEnds := [], aln.offs := []
    sch.moved := (im.tasks.filter (fun (t : TaskDesc) =>
      t.core ≠ 0x3F && (s.core t.core).fence ≠ 0 && t.altCore ≠ 0x3F && s.coreUsable t.altCore)).map (fun t => t.id)
    sch.queues := s.sch.queues.map (fun q => { q with head := 0, tail := 0, stat := 0 })
    sch.cores := s.sch.cores.map (fun c => { c with slotPos := 0 })
    cams := s.cams.map (fun c => { c with opens := Vector.replicate 4 none, used := Vector.replicate 4 [], pos := Vector.replicate 4 0 }) }

/-- Fallback buffers: filled from the defaults, but for the solves that a commit leaves as they were (R139); an alternate core's is filled
before it first runs the solve. `old` is the image before a commit, with the memory of that time. (DESIGN CHOICE, log 39) -/
def fillFallbacks (old : Option (Image × Mem)) (s : State) : State :=
  let im := s.im
  let keep (t : TaskDesc) (e : SolveEntry) : Bool :=
    match old with
    | none => false
    | some (o, mem) => o.tasks.any (fun u => u.kind = 2 && u.core = t.core && (match solveOf o mem u with
        | some f => f.id = e.id && f.op = e.op && f.n = e.n && f.fallbackOfs = e.fallbackOfs
        | none => false))
  let solves := (im.tasks.filter (fun t => t.kind = 2)).filterMap (fun t => (solveOf im s.mem t).map (fun e => (t, e)))
  let kept := (solves.filter (fun x => keep x.1 x.2)).map (fun x => x.2.id)
  (solves.filter (fun x => !kept.contains x.2.id)).foldl (fun s x => fillFallback x.1 x.2 x.1.core s)
    { s with sch.fallbacks := s.sch.fallbacks.filter (fun f => kept.contains f.id) }

/-- Reserved banks are cleared, but for those that payloads of the image lie in (R82). -/
def clearReserve (banks : List (Nat × Nat)) (im : Image) (s : State) : State :=
  let held (r : Nat × Nat) : Bool := im.payloads.any (fun p => match p.addr with | some a => a < r.1 + r.2 && r.1 < a + p.length | none => false)
  { s with mem := banks.foldl (fun m r => if held r then m else Memory.clear m r.1 r.2) s.mem }

/-- A discipline that the image names takes effect at the next counter update (R45). -/
def imageDisc (d : BitVec 2) (s : State) : State := stageDisc d s

/-- ARC_WP and ECC_WARN from the ARCAREA section (R86, R93, R225). -/
def configureArc (a : ArcAreaSec) (s : State) : State :=
  { s with arc.base0 := a.wp0, arc.base1 := a.wp1, arc.eccWarn := BitVec.ofNat 2 a.eccWarn }

/-- The 16 words of a correction record (R185): signed biases, unsigned wheel scales. -/
def corrWords (m : Mem) (a : Nat) : List Int :=
  (List.range 16).map (fun i =>
    let w := (Memory.read32 m (a + 4 * i)).toNat
    if i < 12 then toSigned w 32 else (w : Int))

/-- The correction that EGO starts with (R185): the default result of the solve that produces CORR_SLOT, else none. -/
def egoDefault (s : State) : State :=
  match s.im.ego with
  | none => { s with ego.corr := [], ego.corrNew := none }
  | some e =>
    match (s.im.tasks.find? (fun t => e.corrSlot ≠ 0x1FFF && t.kind = 2 && t.outs.contains e.corrSlot)).bind (fun t => (solveOf s.im s.mem t).map (fun x => (t, x))) with
    | some (t, x) =>
      let a := coreBase t.core + x.defaultOfs
      { s with ego.corr := corrWords s.mem a, ego.corrNew := none }
    | none => { s with ego.corr := [], ego.corrNew := none }

/-! ## LOAD (R86) -/

/-- Every block takes its section of the image that a boot twin gave. -/
def configureAll (im : Image) (twin : Twin) (s : State) : State :=
  let s := { s with img.run := some im, img.runTwin := twin }
  let s := configureArc im.arcArea { s with arc.locked := s.arc.locked || im.arcArea.lockAtBoot }
  let src := BitVec.ofNat 2 im.tick.initSrc
  let s := graphChanged { s with tck.src := src, tck.active := src, fab.addr := ownAddr s, fab.role := if im.fabric.isSome then 4 else 0 }
  let s := imageDisc (BitVec.ofNat 2 im.time.initDisc) s
  let s := emptyGrids (fillFallbacks none (clearReserve (reserveRanges im.hotReserve) im s))
  vitConfigure (ldgResume (egoDefault (configurePower none im.power s)))

/-! ## The exchange of a commit (R91 to R93, R325) -/

/-- The manager judges each worker's last digest against its new image (R325), and EPOCH counts the commit (R319). -/
def managerCommit (s : State) : State :=
  if s.fab.role ≠ roleManager then s
  else
    let bad := s.fab.members.filter (fun m => !memberCompatible m s)
    let s := bad.foldl (fun t m => issueVerdict m acDigest 2 t) s
    epochUp (1 + bad.length) s

/-- What a commit changes of the device's part in a fabric (R91, R303 to R305): its address, unless a conflict has taken it, its role where the FABRIC
section comes or goes, and the ports in use. -/
def commitFabric (old new : Image) (s : State) : State :=
  let was := s.fab.addr
  let s := { s with
    fab.joinAfterCommit := true, fab.rejoinOk := true
    fab.addr := if old.fabric = new.fabric || s.fab.dupAddr then was else wantAddr s
    fab.role := if new.fabric.isNone then roleNone else if old.fabric.isNone then 4 else s.fab.role }
  idleFabric (if s.fab.addr = was then s else graphChanged (floodLsa s))

/-- The manager sends each admitted worker of its table a BUDGET (R344). (DESIGN CHOICE, log 72) -/
def sendBudgets (s : State) : State :=
  if s.fab.role ≠ roleManager then s
  else
    s.im.power.fab.foldl (fun t e =>
      match t.fab.member (BitVec.ofNat 12 e.1) with
      | some m => if m.mstate = 1 then sendTo m.addr false (.budget (t.tck.index + 2) (BitVec.ofNat 16 e.2) 2) t else t
      | none => t) { s with pwr.budgetTicks := 0 }

/-- A commit that changes INIT_SRC requests the new source at the commit boundary, in place of a host's request (R417); a
manager refuses FABRIC (R23, R310). -/
def imageSrc (d : BitVec 2) (s : State) : State :=
  if d = srcFabric && s.fab.role = roleManager then { s with tck.srcStat := stProtected }
  else { s with tck.src := d, tck.req := some d, tck.srcStat := if s.tck.req.isSome then stAborted else s.tck.srcStat }

/-- No frame stands any more in a card-link buffer that the new image places or measures otherwise (R265). -/
def dropCardFrames (old new : Image) (s : State) : State :=
  let moved (c : Channel) : Bool := (old.chan c).clBuf ≠ (new.chan c).clBuf || old.frameSpan (c = .b) ≠ new.frameSpan (c = .b)
  { s with outb.a.clBuf := if moved .a then none else s.outb.a.clBuf, outb.b.clBuf := if moved .b then none else s.outb.b.clBuf }

/-- The shadow and active sets exchange at the boundary (R91). (DESIGN CHOICE, log 36) -/
def commitImage (s : State) : State :=
  match s.img.cand with
  | none => s
  | some new =>
    let old := s.im
    let oldMem := s.mem
    let ldgNew := old.ledger ≠ new.ledger
    let incNew := old.incident ≠ new.incident
    let gridNew := old.grid ≠ new.grid
    let s := if ldgNew then ldgCommitClose s else s
    let s := if incNew then sealNow 0 s else s
    let cut := (s.cams.toList.zip old.ports.cams).flatMap (fun c => (c.1.opens.toList.zip c.2.bindings).filterMap (fun o =>
      if (match o.1 with | some f => f.posted && !f.drop | none => false) && o.2.bound then some o.2.stream else none))
    let noRoom := s.img.persist && !s.arc.selectorRoom
    let persisting := s.img.persist && !noRoom
    let s := { s with
      img.run := some new, img.runTwin := s.img.stgTwin, img.cand := none, img.stage := if persisting then 5 else 0
      img.stat := if noRoom then stBadArg else stOk
      img.commitIndex := s.tck.index, img.commitCnt := satInc s.img.commitCnt }
    let s := rebuildSched s
    let s := { s with aln.streams := s.aln.streams.zipIdx.map (fun e =>
      let x := if old.stream e.2 = new.stream e.2 then e.1 else { e.1 with cLast := none, maskedRun := 0 }
      { x with cut := cut.contains e.2 }) }
    let s := fillFallbacks (some (old, oldMem)) (clearReserve (reserveRanges old.hotReserve ++ reserveRanges new.hotReserve) new s)
    let s := if gridNew then emptyGrids { s with grd.front := false } else s
    let s := dropCardFrames old new s
    let s := if old.vote = new.vote then s else clearVote s
    let s := configurePower (some old.power) new.power s
    let s := { s with arc.base0 := new.arcArea.wp0, arc.base1 := new.arcArea.wp1, arc.over0 := 0, arc.over1 := 0
                      arc.eccWarn := BitVec.ofNat 2 new.arcArea.eccWarn }
    let s := if old.time.initDisc ≠ new.time.initDisc then imageDisc (BitVec.ofNat 2 new.time.initDisc) s else s
    let s := if old.tick.initSrc ≠ new.tick.initSrc then imageSrc (BitVec.ofNat 2 new.tick.initSrc) s else s
    let s := if ldgNew then ldgCommitOpen new.ledger s else s
    let s := if incNew then vitConfigure s else s
    let s := commitFabric old new s
    let s := if old.ego = new.ego then s else egoDefault s
    extDropped (msix 10 s.img.intEn (sendBudgets (managerCommit s)))

end Sys2Proof.Machine
end

