-- ==== Sys2Proof/Machine/Queues.lean ====
section
/-! DEFINITION. The hardware queues: indices, entries, posting and consuming, and what the registrar notes of an
entry that arrives (05_cores_and_curator.md, R172 to R175 of 09_registrar_and_ego_motion.md). -/
namespace Sys2Proof.Machine

/-! ## Rings (R97) -/

/-- Entries of a ring. -/
def QueueBind.size (b : QueueBind) : Nat := 2 ^ b.log2

/-- Position of an index in its ring. -/
def QueueBind.place (b : QueueBind) (i : BitVec 13) : Nat := (i.toNat % 4096) % b.size

/-- The index after `i`; the wrap bit changes at the ring's end. -/
def QueueBind.next (b : QueueBind) (i : BitVec 13) : BitVec 13 :=
  if b.size ≤ i.toNat % 4096 + 1 then BitVec.ofNat 13 ((if i.toNat < 4096 then 4096 else 0)) else i + 1

/-- `n` steps from an index. -/
def QueueBind.ahead (b : QueueBind) : Nat → BitVec 13 → BitVec 13
  | 0, i => i
  | n + 1, i => b.ahead n (b.next i)

/-- Entries between a consumer index and a producer index. -/
def QueueBind.count (b : QueueBind) (head tail : BitVec 13) : Nat :=
  if decide (head.toNat < 4096) = decide (tail.toNat < 4096) then tail.toNat - head.toNat
  else b.size - head.toNat % 4096 + tail.toNat % 4096

/-- Entries in a queue. -/
def State.fill (s : State) (q : Nat) : Nat := (s.im.queue q).count (s.que q).head (s.que q).tail

/-- Free entries of a queue. -/
def State.room (s : State) (q : Nat) : Nat := (s.im.queue q).size - s.fill q

/-- Internal address of the entry at an index. -/
def QueueBind.entryAddr (b : QueueBind) (i : BitVec 13) : Nat := b.base + 32 * b.place i

/-! ## Entries (R98) -/

/-- A queue entry. -/
structure QEntry where
  len : Nat := 0
  stream : Nat := 0
  capValid : Bool := false
  frameStart : Bool := false
  frameEnd : Bool := false
  broken : Bool := false
  addr : Nat := 0
  arrival : BitVec 64 := 0
  capture : BitVec 64 := 0
  seq : Nat := 0
  frameNo : Nat := 0
  status : Byte := 0
  gen : Byte := 0
deriving DecidableEq, Repr, Inhabited

/-- The 32 bytes of an entry. -/
def QEntry.bytes (e : QEntry) : List Byte :=
  leBytes 4 (pack [(0, 16, e.len), (16, 5, e.stream), (21, 1, b2n e.capValid), (22, 1, b2n e.frameStart), (23, 1, b2n e.frameEnd),
    (24, 1, b2n e.broken)]).toNat ++
  leBytes 4 e.addr ++ leBytes 8 e.arrival.toNat ++ leBytes 8 e.capture.toNat ++ leBytes 2 e.seq ++ leBytes 2 e.frameNo ++
    [e.status, e.gen, 0, 0]

/-- An entry from its 32 bytes. -/
def readEntry (b : List Byte) : QEntry :=
  let w := at32 b 0
  { len := field w 0 16, stream := field w 16 5, capValid := bitOf w 21, frameStart := bitOf w 22, frameEnd := bitOf w 23,
    broken := bitOf w 24, addr := at32 b 4, arrival := w64 (at64 b 8), capture := w64 (at64 b 16), seq := at16 b 24,
    frameNo := at16 b 26, status := BitVec.ofNat 8 (at8 b 28), gen := BitVec.ofNat 8 (at8 b 29) }

/-- The entries of a queue, oldest first, with their places in the ring. -/
def State.queued (s : State) (q : Nat) : List (Nat × QEntry) :=
  let b := s.im.queue q
  (List.range (s.fill q)).map (fun k =>
    let i := b.ahead k (s.que q).head
    (b.place i, readEntry (Memory.read s.mem (b.entryAddr i) 32)))

/-! ## Data areas (R104)

Where in the data area of its queue a producer stores the data of an entry is left open: any place that lies inside
the area and clear of the data of the entries that wait. -/

/-- A place for `n` bytes in a data area that is clear of the ranges `held`: the free value where it is clear, else the
first clear place behind one of the ranges. (DEDUCED, log 40) -/
def placeData (base len n free : Nat) (held : List (Nat × Nat)) : Option Nat :=
  let clear (a : Nat) : Bool := base ≤ a && a + n ≤ base + len && held.all (fun h => a + n ≤ h.1 || h.1 + h.2 ≤ a)
  ((base + free % (len - n + 1)) :: base :: held.map (fun h => h.1 + h.2)).find? clear

/-- Stores data in the data area of a queue and answers its address; none where no place is clear. -/
def storeData (q : Nat) (bytes : List Byte) (s : State) : Option (State × Nat) :=
  let b := s.im.queue q
  if bytes.isEmpty then some (s, b.dataBase)
  else
    let held := (s.queued q).map (fun e => (e.2.addr, e.2.len))
    (placeData b.dataBase b.dataLen bytes.length (Config.freeNat s.freeCtr) held).map (fun a =>
      ({ s.drawn with mem := Memory.write s.mem a bytes }, a))

/-! ## What the registrar notes of an entry (R175) -/

/-- The stream whose entries a queue carries; none for a queue of another use, or of a camera. -/
def State.queueStream (s : State) (q : Nat) : Option StreamDecl :=
  s.im.streams.streams.find? (fun d => d.kind ≠ 0 && s.im.streamQueue d.stream = some q)

/-- The rule of R175 for a stream whose latest capture stamp is `c`, for the tick whose boundary has the stamp `tk`: with
e the largest stamp c + n × P below it, an entry at or above e − J, or at or above the boundary, has arrived. -/
def delivers (d : StreamDecl) (c tk : Nat) : Bool :=
  if tk ≤ c then true
  else
    let e := c + (tk - 1 - c) / max 1 (d.period * 1000) * (d.period * 1000)
    e ≤ c + d.jitter * 1000

/-- The stamp that a tick with boundary stamp `tk` expects (R175): the largest c_last + n × P below it; none where no c_last is tracked. -/
def expectedAt (d : StreamDecl) (cLast : Option (BitVec 64)) (tk : Nat) : Option Nat :=
  cLast.map (fun c => if tk ≤ c.toNat then c.toNat else c.toNat + (tk - 1 - c.toNat) / max 1 (d.period * 1000) * (d.period * 1000))

/-- A capture stamp lies in the window of the tick whose boundary has the stamp `tk` (R172). -/
def inWindow (d : StreamDecl) (c tk : Nat) : Bool := tk ≤ c + d.window * 1000 && c < tk

/-- A gathered stream has delivered the tick that its boundary opens (R173 to R175). -/
def deliveredAt (d : StreamDecl) (s : State) : Bool :=
  let x := s.strm d.stream
  if d.kind = 0 then x.assigned.contains s.tck.index
  else match x.cLast with
    | some c => delivers d c.toNat s.tck.bound
    | none => match s.im.streamQueue d.stream with
      | some q => (s.queued q).any (fun e => inWindow d e.2.capture.toNat s.tck.bound)
      | none => false

/-- Gather opens: streams that have delivered already are marked at once. (DESIGN CHOICE, log 54) -/
def markDelivered (s : State) : State :=
  { s with aln.streams := s.aln.streams.zipIdx.map (fun e =>
      let hit := match s.im.stream e.2 with | some d => d.gather && deliveredAt d s | none => false
      let due := match s.im.stream e.2 with | some d => expectedAt d e.1.cLast s.tck.bound | none => none
      { e.1 with delivered := hit, masked := false, delivUs := if hit then 0 else e.1.delivUs, expect := due }) }

/-- Device time in µs since the boundary, for DELIV_US. -/
def State.sinceBound (s : State) : Nat := (s.mono - s.tck.boundMono) / 1000

/-- Gather is open for the tick in progress. -/
def State.gatherOpen (s : State) : Bool := s.tck.ticked && !s.tck.gDone && s.mode.ticks

/-- An entry with capture stamp `c` has arrived on a gathered stream: c_last follows, and the tick may be delivered, by the stamp that its
boundary expected, or by any entry in the window where none was tracked (R175). (DEDUCED, log 40) -/
def streamArrived (d : StreamDecl) (c : BitVec 64) (s : State) : State :=
  let x := s.strm d.stream
  let cl := match x.cLast with
    | some o => if o.toNat < c.toNat then c else o
    | none => c
  let hit := match x.expect with
    | none => inWindow d c.toNat s.tck.bound
    | some e => decide (e ≤ c.toNat + d.jitter * 1000) || decide (s.tck.bound ≤ c.toNat)
  let inTime := s.mono ≤ s.tck.boundMono + d.limit * 1000
  let x := { x with cLast := some cl }
  s.setStrm d.stream (
    if d.gather && s.gatherOpen && hit && inTime && !x.delivered && !x.masked then
      { x with delivered := true, delivUs := BitVec.ofNat 24 s.sinceBound } else x)

/-! ## The offset of an entry's stamps (R186) -/

/-- Where the offset of the entry at an index of a queue is kept. -/
def offKey (q place : Nat) : Nat := q * 4096 + place

/-- The offset of device time from the monotonic counter that was in force when an entry's stamps were taken. -/
def setOff (q place : Nat) (off : Int) (s : State) : State := { s with aln.offs := aset none s.aln.offs (offKey q place) (some off) }
def State.entryOff (s : State) (q place : Nat) : Int := (alookup none s.aln.offs (offKey q place)).getD s.offset

/-- The place that a queue's next entry takes. -/
def State.nextPlace (s : State) (q : Nat) : Nat := (s.im.queue q).place (s.que q).tail

/-! ## Posting and consuming (R99) -/

/-- Posts an entry at the producer index: the queue's counters follow, its vector is raised, and the registrar notes it. A
full ring drops it. Answers whether it was posted. -/
def postEntry (q : Nat) (bytes : List Byte) (s : State) : State × Bool :=
  let b := s.im.queue q
  let x := s.que q
  if b.size ≤ s.fill q then (s.setQue q { x with drop := satInc x.drop }, false)
  else
    let tail := b.next x.tail
    let n := b.count x.head tail
    let s := setOff q (b.place x.tail) s.offset { s with mem := Memory.write s.mem (b.entryAddr x.tail) (fitBytes 32 bytes) }
    let s := s.setQue q { x with tail := tail, posted := satInc x.posted, hiwater := if x.hiwater.toNat < n then BitVec.ofNat 13 n else x.hiwater }
    let s := if b.vector = 0 then s else msix b.vector true s
    (match s.queueStream q with
      | some d => streamArrived d (readEntry bytes).capture s
      | none => s, true)

/-- Posts an entry whose data a port or the fabric stores; without room for the data it is dropped as on a full ring. (DEDUCED, log 40) -/
def postData (q : Nat) (e : QEntry) (data : List Byte) (s : State) : State × Bool :=
  if s.room q = 0 then postEntry q e.bytes s
  else match storeData q data s with
    | some (t, a) => postEntry q { e with addr := a, len := data.length }.bytes t
    | none => (s.setQue q { s.que q with drop := satInc (s.que q).drop }, false)

/-- The camera binding whose entries a queue carries: receiver and binding. -/
def State.queueCam (s : State) (q : Nat) : Option (Nat × Nat) :=
  ((List.range 8).flatMap (fun r => (List.range 4).map (fun b => (r, b)))).find? (fun e =>
    let b := (s.im.ports.cams.getD e.1 {}).bindings.getD e.2 {}
    b.bound && s.im.streamQueue b.stream = some q)

/-- The consumer takes `n` entries: HEAD advances, and a camera's line buffers are released (R100). -/
def consume (q n : Nat) (s : State) : State :=
  let x := s.que q
  let k := min n (s.fill q)
  let s := s.setQue q { x with head := (s.im.queue q).ahead k x.head }
  match s.queueCam q with
  | some (r, b) => s.setCam r { s.cam r with used := tmod (s.cam r).used b (fun l => l.drop k) }
  | none => s

end Sys2Proof.Machine
end

