-- ==== Sys2Proof/Machine/Boundary.lean ====
section
/-! DEFINITION. The boundary of a tick: which source makes the next one and when, the actions of R31 in their order, and
the fabric messages that a worker sends at it (01_tick.md, 03_states_and_startup.md, 17_fabric_agreement.md). -/
namespace Sys2Proof.Machine

/-! ## Lengths of the running image, in ns -/

def State.gatherNs (s : State) : Nat := s.im.tick.gather * 1000
def State.emitNs (s : State) : Nat := s.im.tick.emit * 1000
def State.quietNs (s : State) : Nat := s.im.tick.quiet * 1000
def State.phaseNs (s : State) : Nat := s.im.tick.phaseOfs * 1000

/-- T × (1 ± tol) of R21, tol in units of 0.1 %. -/
def State.tolLate (s : State) : Nat := s.period * (1000 + s.im.tick.inTol) / 1000
def State.tolEarly (s : State) : Nat := s.period * (1000 - s.im.tick.inTol) / 1000

/-- The TICK_IN filter setting in ns, in units of 10 ns (R146, R169). -/
def State.filtTick (s : State) : Nat := 10 * s.im.ports.filtTickIn

/-- The manager's LEAD in ns (R303). -/
def State.leadNs (s : State) : Nat := s.fabSec.lead * 1000

/-- The device is manager of a fabric. -/
def State.isManager (s : State) : Bool := s.fab.role = roleManager && s.im.fabric.isSome

/-- A fabric worker, the standby among them. -/
def State.isWorker (s : State) : Bool := (s.fab.role = roleWorker || s.fab.role = roleStandby) && s.im.fabric.isSome

/-! ## When the next boundary falls (R20, R417, R418) -/

/-- The first instant of the grid of INTERNAL at or after a stamp. -/
def gridFrom (s : State) (x : Nat) : Nat :=
  if s.period = 0 then x else if x ≤ s.phaseNs then s.phaseNs else s.phaseNs + ceilDiv (x - s.phaseNs) s.period * s.period

/-- The stamp of the next boundary of INTERNAL: after entry to ARMED, after a TIMEOUT, a step or a change of T or φ the
first grid instant from the instant that the rule names (R92, R417 to R419), otherwise T after the last one. -/
def nextInternal (s : State) : Nat :=
  let off := gridFrom s (firstFrom (max s.tck.endMono (s.tck.gridAt.getD 0)) s)
  if !s.tck.ticked then gridFrom s (firstFrom s.gctl.armedMono s)
  else if s.tck.stepped || s.tck.gridAt.isSome then off
  else match s.tck.commitFrom with
    | some c => gridFrom s c
    | none => if (s.tck.bound - s.phaseNs) % max 1 s.period = 0 then s.tck.bound + s.period else off

/-- The new source's boundary at or after the end of tick k, within T of it (R23). (DESIGN CHOICE, log 27) -/
def switchNext (w : Switch) (s : State) : Option (Nat × Option (BitVec 64) × Bool) :=
  if w.dest = srcInternal then some (gridFrom s (firstFrom w.endMono s), none, false)
  else match s.tck.lead with
    | some l => if firstFrom w.endMono s ≤ l.1 && l.1 ≤ firstFrom (w.endMono + s.period) s then some l else none
    | none => none

/-- The boundary that is known ahead: its stamp, its index where a TICK names it, and whether it is a flywheel boundary. -/
def nextKnown (s : State) : Option (Nat × Option (BitVec 64) × Bool) :=
  match s.tck.switch with
  | some w => switchNext w s
  | none => if s.tck.active = srcInternal then some (nextInternal s, none, false) else s.tck.lead

/-- A re-phase interval is running (R419). -/
def State.inRephase (s : State) : Bool :=
  s.tck.ticked && s.mode.ticks && s.tck.qDone && s.tck.active = srcInternal && s.tck.switch.isNone && (s.tck.stepped || s.tck.commitFrom.isSome) &&
    s.tck.endMono ≤ s.mono && firstFrom s.tck.endMono s < nextInternal s

/-- The tick in progress has reached Quiet, so that the next boundary may come. -/
def State.boundaryFree (s : State) : Bool := s.mode.ticks && s.tck.gDone && s.tck.eDone && s.tck.qDone

/-! ## Fabric messages at a boundary (R321, R323, R324) -/

/-- The device's JOIN_REQ. -/
def sendJoin (s : State) : State :=
  sendTo s.fab.mgr false (.joinReq { serial := s.otp.serial, digest := s.im.hdr.digest, fwVer := s.otp.fwVer, imageVer := BitVec.ofNat 32 s.im.hdr.imageVer,
                                     state := s.mode.code.setWidth 8, timeOk := s.fab.timeOk, compat := s.fabSec.compat
                                     commit := s.fab.joinAfterCommit })
    { s with fab.joinSent := true, fab.joinAfterCommit := false, fab.joinMono := s.mono }

/-- The rejoin condition of the quarantine's cause (R324). -/
def State.mayRejoin (s : State) : Bool :=
  if s.fab.cause = acFirmware || s.fab.cause = acDigest then s.fab.rejoinOk || s.fab.joinMono + 1000000000 ≤ s.mono
  else if s.fab.cause = acMgrSafe then !s.fab.mgrSafe
  else s.fabSec.rejoin ≤ (if s.fab.cause = acEpoch || s.fab.cause = acMerge then s.fab.timeOkMgr else s.fab.timeOk).toNat

/-- JOIN_REQ at a boundary of a worker (R321). (DESIGN CHOICE, log 90) -/
def joinAtBoundary (s : State) : State :=
  if s.isWorker && s.fab.mgr ≠ 0xFFF &&
      ((s.mode = .armed && !s.fab.joined && !s.fab.joinSent) || (s.mode = .quarantine && s.mayRejoin) || s.fab.joinAfterCommit) then sendJoin s
  else { s with fab.joinAfterCommit := false }

/-- REPORT of an admitted worker, or of one in QUARANTINE (R323, R324). -/
def sendReport (s : State) : State :=
  if s.isWorker && s.fab.mgr ≠ 0xFFF && (s.fab.joined || s.mode = .quarantine) then
    sendTo s.fab.mgr false (.report { index := s.tck.index, epoch := s.fab.epoch, offset := BitVec.ofInt 32 (clampSigned 32 s.fab.lastOffset),
                                      state := s.mode.code.setWidth 8, timeOk := s.fab.timeOk, digestPrefix := s.runPrefix }) s
  else s

/-! ## The actions of R31 -/

/-- Vector 1 for a tick-source event (R417). -/
def srcEvent (s : State) : State := msix 1 (s.tck.intEn.getLsbD 3) s

/-- Each core compares its class counters with SAT_THR (R124). -/
def saturationCheck (s : State) : State :=
  (List.range s.coreCount).foldl (fun t n =>
      let c := t.core n
      let exceeds (i : Nat) : Bool := t.im.qformat.satThr.getD i 0 ≠ 65535 &&
        decide (t.im.qformat.satThr.getD i 0 < (tget c.satCls i).toNat - (tget c.satBase i).toNat)
      let w : BitVec 16 := BitVec.ofNat 16 ((List.range 16).foldl (fun a i => a + (if exceeds i then 2 ^ i else 0)) 0)
      let t := t.setCore n { c with satTick := w, satBase := c.satCls }
      if w = 0 then t else raiseDet 54 (BitVec.ofNat 32 n) t) s

/-- A boundary that falls during a slice makes it LATE, and changes nothing else of it (R381). -/
def sliceLate (s : State) : State :=
  match s.tst.slice with
  | some x => if x.late then s else { s with tst.slice := some { x with late := true }, tst.cnt := tinc s.tst.cnt 7 }
  | none => s

/-- A gate task of the turnstile has completed in the tick that ends (R283). -/
def State.gateDone (s : State) (id : Nat) : Bool := s.sch.ended.contains id

/-- The tick that ends at the boundary instant `bm` is accounted for: usage, saturation, the conservator's tick (R124, R283,
R379). (DEDUCED, log 26) -/
def tickEnds (bm : Nat) (s : State) : State :=
  if s.tck.ticked then
    let s := ldgAccrue (bm - s.tck.boundMono) s.tck.emitRun (s.gateDone) s
    sliceLate (saturationCheck { s with flt.bounds := s.flt.bounds + 1, sch.essSeen := false, sch.ended := [], tst.tickDone := false })
  else { s with flt.bounds := s.flt.bounds + 1, sch.ended := [], sch.cores := s.sch.cores.map (fun c => { c with satBase := c.satCls }) }

/-- No edge has ended tick k of a switch away from TICK_IN, and its flywheel instant has come (R417): counted, once. -/
def endFly (s : State) : State :=
  match s.tck.switch with
  | some w =>
    if w.flyEnd then { s with tck.inMiss := satInc s.tck.inMiss, tck.flyRun := s.tck.flyRun + 1, tck.switch := some { w with flyEnd := false } }
    else s
  | none => s

/-- The end of the tick in progress under the source in force, and whether TICK_IN may end it earlier (R23, R417). -/
def tickEndOf (s : State) : Nat × Bool :=
  if s.tck.active = srcTickIn then (s.tck.boundMono + s.tolLate, true) else (s.tck.endMono, false)

/-- Step 2: a source switch, the fallback of R22 and a new manager's source. `sw` is the switch that ends here. (DEDUCED, log 26) -/
def sourceStep (fly : Bool) (sw : Option Switch) (s : State) : State :=
  let s := match sw with
    | some w => srcEvent { s with tck.switch := none, tck.active := w.dest }
    | none => s
  let s := match s.tck.mgrSrc with
    | some m =>
      let req := if s.tck.req = some srcFabric then none else s.tck.req
      { s with tck.mgrSrc := none, tck.active := m, tck.req := req, tck.src := req.getD m }
    | none => s
  let s :=
    if s.tck.fallbackDue && s.tck.active = srcTickIn then
      srcEvent { s with tck.fallbackDue := false, tck.active := srcInternal, tck.src := srcInternal, tck.req := none }
    else { s with tck.fallbackDue := false }
  let s := match s.tck.req with
    | some d =>
      if d = s.tck.active then { s with tck.req := none, tck.srcStat := stOk }
      else { s with tck.req := none, tck.switch := some { dest := d, endMono := (tickEndOf s).1, flyEnd := (tickEndOf s).2 } }
    | none => s
  -- flywheeling begins or ends (R22, R417)
  if fly then
    let first := !s.tck.flywheel
    let s := { s with tck.flywheel := true, tck.flyRun := s.tck.flyRun + 1 }
    if first then srcEvent s else s
  else if s.tck.flywheel then srcEvent { s with tck.flywheel := false, tck.flyRun := 0 }
  else { s with tck.flyRun := 0 }

/-- Whether a cause of DEGRADED is active (R66). -/
def State.anyCause (s : State) : Bool :=
  s.gctl.degOvr || s.gctl.degFlywheel || s.gctl.degWarden || s.gctl.degTime || s.gctl.degFabric

/-- RUN, or DEGRADED where a cause is active (R65, R359). -/
def enterRun (s : State) : State := enter (if s.anyCause then .degraded else .run) s

/-- The conditions of R65. -/
def State.runReady (s : State) : Bool :=
  !s.gctl.held && (s.tim.locked || (s.gctl.armTimedOut && s.im.tick.freeRunOk)) && (!s.isWorker || s.fab.joined)

/-- Step 3: a pending state change. The cause of flywheeling that fell due at the last boundary becomes active where this
one is a flywheel boundary too. (DEDUCED, log 26) -/
def stateStep (fly : Bool) (s : State) : State :=
  let s := { s with
    gctl.degWarden := s.degWardenCause, gctl.degFabric := s.gctl.degFabric && !s.gctl.fabricBack, gctl.fabricBack := false
    gctl.degFlywheel := s.gctl.degFlywheel || (s.gctl.flyDegrade && fly), gctl.flyDegrade := s.gctl.flyDegrade && !fly }
  match s.mode with
  | .armed =>
    if s.runReady then enterRun { s with gctl.freeRun := s.gctl.freeRun || !s.tim.locked } else s
  | .run =>
    let s := { s with gctl.degTime := s.gctl.degTime || s.gctl.lockLost, gctl.lockLost := false }
    if s.anyCause then enter .degraded s else s
  | .degraded =>
    let s := { s with gctl.degOvr := s.gctl.degOvr && s.gctl.onTimeRun < s.im.tick.recover, gctl.degTime := s.gctl.degTime || s.gctl.lockLost
                      gctl.lockLost := false }
    if s.anyCause then s else enter .run s
  | .quarantine => if s.gctl.admitted then enter .armed { s with gctl.admitted := false, fab.cause := 0 } else s
  | _ => s

/-- The DEGRADED cause of flywheeling ends at a boundary that is not a flywheel boundary; the state is left at the
following one (R22). (DEDUCED, log 26) -/
def flyEnds (fly : Bool) (s : State) : State := if fly then s else { s with gctl.degFlywheel := false, gctl.flyDegrade := false }

/-- After three consecutive flywheel boundaries a fallback or DEGRADED is due at the next boundary (R22). (DEDUCED, log 26) -/
def flyJudge (fly : Bool) (s : State) : State :=
  if fly && 3 ≤ s.tck.flyRun && s.tck.active = srcTickIn then
    if s.im.tick.fallback = 1 then { s with tck.fallbackDue := s.tck.switch.isNone }
    else { s with gctl.flyDegrade := !s.gctl.degFlywheel }
  else s

/-- A standby that is due takes office at the boundary (R326, R329): it names no standby. Without an address of its own it takes none (R305). -/
def takeOver (s : State) : State :=
  if s.fab.officeDue && !s.fab.dupAddr then takeOffice 0xFFF true { s with fab := { s.fab.acount 4 with officeDue := false } } else s

/-- Step 5: the Gather of the tick opens (R31, R175). -/
def openGather (s : State) : State :=
  let s := markDelivered s
  { s with
    tck.phase := 0, tck.gDone := false, tck.eDone := false, tck.qDone := false, tck.tickSent := false
    tck.compute := s.mode.computes, tck.openMono := s.mono, tck.emitRun := false
    outb.waits := [], outb.a.stamped := false, outb.b.stamped := false
    sch.cores := s.sch.cores.map (fun c => { c with slotPos := 0 })
    sch.done := s.sch.done.filter (fun e => e.2 = s.tck.index)
    fab.members := s.fab.members.map (fun m => { m with report := none })
    grd.pillars := [] }

/-- The boundary with stamp `tk`: the actions of R31. Time has been advanced to the instant at which they follow Tₖ.
`f` is the delay of TICK_OUT (R24). (DEDUCED, log 25) -/
def boundary (tk : Nat) (idx : Option (BitVec 64)) (fly : Bool) (f : Nat) (s : State) : State :=
  let bm := s.mono - (s.stamp - tk)
  let rephase := s.tck.ticked && s.tck.active = srcInternal && s.tck.switch.isNone && (s.tck.stepped || s.tck.commitFrom.isSome) &&
    decide (s.tck.endMono < bm)
  let s := endFly (tickEnds bm (if rephase then { s with tck.rephaseCnt := satInc s.tck.rephaseCnt } else s))
  let sw := s.tck.switch
  let oldT := s.period
  let oldPhi := s.phaseNs
  let s := { s with
    tck.index := match idx with | some i => i | none => if s.tck.ticked then s.tck.index + 1 else 0
    tck.bound := tk, tck.prevBound := s.tck.bound, tck.boundMono := bm, tck.ticked := true, tck.stepped := false, tck.commitFrom := none, tck.gridAt := none
    tck.lead := none, tck.srcStat := if sw.isSome then stOk else s.tck.srcStat }
  -- step 1
  let s := if s.img.stage = 4 && decide (s.img.commitMono < bm) then commitImage s else s
  let s := settleBudget s
  let s := { s with
    tck.gMono := bm + s.gatherNs, tck.eMono := bm + s.emitNs, tck.qMono := bm + s.quietNs, tck.endMono := bm + s.period
    tck.commitFrom := if (s.period ≠ oldT || s.phaseNs ≠ oldPhi) && s.tck.active = srcInternal then some (tk + s.period) else none }
  -- steps 2 and 3
  let s := flyJudge fly (flyEnds fly (stateStep fly (sourceStep fly sw s)))
  let s := takeOver s
  -- step 4
  let s := msix 1 (s.tck.intEn.getLsbD 0) ({ s with pins.tickOutUntil := s.mono + 10000 }.say (.tickOut (tk + f)))
  -- step 5
  let s := openGather s
  let s := sendReport (joinAtBoundary s)
  let s := if s.isManager then
      let s := { s with pwr.budgetTicks := s.pwr.budgetTicks + 1 }
      if 1000 ≤ s.pwr.budgetTicks then sendBudgets s else s
    else s
  settle s

/-- The next known boundary is made: time passes to it. A step of device time on the way moves the boundary (R18, R419),
so it is looked up anew. (DEDUCED, log 25) -/
def toBoundary : Nat → State → State
  | 0, s => s
  | n + 1, s =>
    match nextKnown s with
    | some (tk, idx, fly) =>
      let u := advanceStamp tk s
      if u.tim.steps.length = s.tim.steps.length then boundary tk idx fly 0 u else toBoundary n u
    | none => s

/-- The next known boundary, once the tick in progress has reached Quiet. (DEDUCED, log 25) -/
def nextBoundary (s : State) : State := if s.boundaryFree then toBoundary 3 s else s

/-- A row that names one of the actions of a boundary: the whole boundary, when that action is pending. (DEDUCED, log 25) -/
def boundaryIf (c : State → Bool) (s : State) : State := if c s then nextBoundary s else s

/-! ## The flywheel of TICK_IN (R21) -/

/-- The stamp, in device time as it counts now, from which TICK_IN judges: of the last boundary made, less LEAD on a
manager, or of the entry to ARMED (R20, R21, R418). -/
def judgeFrom (s : State) : Int :=
  if !s.tck.ticked then inNewTime (stampOf s.gctl.armedMono s) s.gctl.armedMono s
  else inNewTime s.tck.bound s.tck.boundMono s - (if s.isManager then s.leadNs else 0)

/-- The stamp of the pin instant of an edge that the filter of TICK_IN passes now: that of the filtered edge less the filter setting
(R20, R21). (DESIGN CHOICE, log 27) -/
def pinNow (s : State) : Int := (s.stamp : Int) - s.filtTick

/-- A boundary of TICK_IN with the stamp `e` of the pin's instant: at once, or LEAD after it on a manager (R20, R311). -/
def tickInBoundary (e : Nat) (fly : Bool) (s : State) : State :=
  if s.isManager then { s with tck.lead := some (e + s.leadNs, none, fly) } else boundary e none fly s.filtTick s

/-- The flywheel boundary of R21: counted, at T × (1 + tol) after the previous boundary. A step on the way moves its stamp
and not its instant. -/
def flywheel (s : State) : State :=
  let s := toStamp 3 (fun s => judgeFrom s + s.tolLate + s.filtTick) s
  tickInBoundary (judgeFrom s + s.tolLate).toNat true { s with tck.inMiss := satInc s.tck.inMiss }

end Sys2Proof.Machine
end

