-- ==== Sys2Proof/Machine/Access.lean ====
section
/-! DEFINITION. How register writes and the commands of GCTL are judged (R11, R59, R61, R413, R414). -/
namespace Sys2Proof.Machine

/-- A write that the row "writes to any other block" of R61 permits, or for TIM its own row. -/
def rowLegal (row : Nat) (m : Mode) : Bool := m.fromArmed || (row = 1 && m = .load)

/-- A register write at `a`, judged in the order of R59: absence, liveness, and its row of R61. (DESIGN CHOICE, log 78) -/
def judged (src : Source) (a : Nat) (f : State → State) (s : State) : State :=
  if !s.hears src || s.absent a then s
  else match blockOf a with
    | none => s
    | some row =>
      if !s.live row || !rowLegal row s.mode then rejectReg src a s
      else f s

/-- The same for a register command that stands at the address written: rejected, it leaves NOT_IN_STATE in the
block's status field through `st`. (DESIGN CHOICE, log 78) -/
def judgedCmd (src : Source) (a : Nat) (legal : Mode → Bool) (st : State → State) (f : State → State) (s : State) : State :=
  if !s.hears src || s.absent a then s
  else match blockOf a with
    | none => s
    | some row =>
      if !s.live row || !legal s.mode then rejectCmd src a (a % 4096) (st s)
      else f s

/-! ## GCTL_CMD (R59, R61, R414) -/

abbrev gHalt : Byte := 0x01
abbrev gGo : Byte := 0x02
abbrev gRecover : Byte := 0x03
abbrev gMaint : Byte := 0x04
abbrev gRestart : Byte := 0x06
abbrev gClrCnt : Byte := 0x07

/-- The rows of GCTL commands in R61. -/
def gctlLegal (code : Byte) (m : Mode) : Bool :=
  match m with
  | .off | .removal => false
  | _ =>
    if code = gHalt then m.computes
    else if code = gGo then m = .armed
    else if code = gRecover then m = .safe
    else if code = gMaint then m = .armed || m = .safe || m = .quarantine
    else if code = gRestart then !(m = .selftest || m = .load)
    else true

/-- The status and echo of a GCTL_CMD. -/
def gctlStat (code st : Byte) (s : State) : State := { s with gctl.cmdStat := st, gctl.cmdEcho := code }

/-- A GCTL command: judged against the state, then performed, answering its status. -/
def gctlCmd (src : Source) (code : Byte) (f : State → State × Byte) (s : State) : State :=
  if !s.hears src then s
  else if gctlLegal code s.mode then
    let r := f s
    gctlStat code r.2 r.1
  else rejectCmd src 0x20 code.toNat (gctlStat code stNotInState s)

/-- HALT (R56): RUN or DEGRADED to ARMED, HELD set. -/
def doHalt (src : Source) (s : State) : State × Byte :=
  ({ enter .armed s with gctl.held := true, gctl.halted := some { mono := s.mono, src := src, held := s.gctl.held } }, stOk)

/-- GO (R65). -/
def doGo (s : State) : State × Byte := ({ s with gctl.held := false }, stOk)

/-- RECOVER (R67). -/
def doRecover (s : State) : State × Byte :=
  if s.flt.records.any (fun r => r.react = 3) then (s, stBusy)
  else (emptyGrids { enter .armed s with gctl.held := false }, stOk)

/-- ENTER_MAINT (R68). -/
def doMaint (s : State) : State × Byte := (enter .maint s, stOk)

/-- RESTART (R62, R414): the key is judged after the state. -/
def doRestart (key : Byte) (s : State) : State :=
  if key = 0x5A then resetTo rstSoft s else gctlStat gRestart stKeyError s

/-- CLR_CNT (R414). -/
def doClrCnt (s : State) : State × Byte := (clearLive { s with gctl.rejectCnt := 0, gctl.lastReject := 0 }, stOk)

/-- Any GCTL_CMD by its code; a code outside the list is BAD_ARG in every state. -/
def gctlByCode (src : Source) (code key : Byte) (s : State) : State :=
  if code = gHalt then gctlCmd src code (doHalt src) s
  else if code = gGo then gctlCmd src code doGo s
  else if code = gRecover then gctlCmd src code doRecover s
  else if code = gMaint then gctlCmd src code doMaint s
  else if code = gRestart then
    (if !s.hears src then s
     else if gctlLegal code s.mode then doRestart key s
     else rejectCmd src 0x20 code.toNat (gctlStat code stNotInState s))
  else if code = gClrCnt then gctlCmd src code doClrCnt s
  else if s.hears src then gctlStat code stBadArg s else s

end Sys2Proof.Machine
end

