-- ==== Sys2Proof/Machine/Links.lean ====
section
/-! DEFINITION. The commands of fabric links, discovery, addresses, roles and routing (16_mehan_fabric.md). -/
namespace Sys2Proof.Machine

/-! ## Links (R295 to R298) -/

/-- Training and keying of a port end (R295, R297): UP, or refused, or held down. -/
def linkUp (p : Nat) (b : LinkPartner) (s : State) : State :=
  let q := s.port p
  if 4 ≤ p || q.up || !portMayTrain p s then s
  else
    let refuse := s.otp.isSealed && (!b.isSealed || !b.certOk)
    if refuse then s.setPort p { q with pstate := 4 }
    else if !s.otp.isSealed && b.isSealed then s
    else if b.spread ≠ s.im.power.fabSpread then s.setPort p { q with pstate := 5 }
    else fabVec (s.setPort p { q with
      pstate := 3, nbSerial := b.serial, nbReady := false, key := if s.otp.isSealed then Config.sessionKey s.otp.serial b.serial else 0
      lseq := 0, rxNext := 0, held := [], helloMono := s.mono, delays := [], t1 := none })

/-- FABRIC_LINK_UP (R297). -/
def execFabricLinkUp (port : Nat) (partner : LinkPartner) (s : State) : Answer := done (linkUp port partner s)

/-- FABRIC_LINK_DOWN (R298). -/
def execFabricLinkDown (port : Nat) (s : State) : Answer := done (linkLost port s)

/-- HELLO_TIMEOUT (R298): 3 ms after the partner's last HELLO. -/
def execHelloTimeout (port : Nat) (s : State) : Answer :=
  done (if (s.port port).up then linkLost port (advanceTo ((s.port port).helloMono + 3000000) s) else s)

/-- A link frame without a message arrives (R297, R298). -/
def ackTaken (p : Nat) (a : LinkAck) (k : State → State) (s : State) : State :=
  if !((s.port p).up && s.mode.answers) then s
  else match fateCounter a.fate with
    | some i => missFrame p (some i) s
    | none => k (s.setPort p ((s.port p).count 0))

/-- LINK_ACK (R298): every held frame up to the acknowledged one is released. -/
def execLinkAck (port : Nat) (ack : LinkAck) (s : State) : Answer :=
  done (ackTaken port ack (fun s => s.setPort port ((s.port port).acked ack.seq)) s)

/-- The sender replays from the first frame missing (R298), which acknowledges all before it; a frame replayed 8 times takes the link down. -/
def replayFrom (p : Nat) (missing : BitVec 12) (s : State) : State :=
  let q := s.port p
  let kept := q.held.filter (fun h => seqLe missing h.lseq)
  if kept.isEmpty then s
  else
    let again := kept.map (fun h => { h with replays := h.replays + 1 })
    let s := s.setPort p { q with held := again, cnt := tmod (tmod q.cnt 4 (fun c => satAdd c kept.length)) 1 (fun c => satAdd c kept.length) }
    let s := again.foldl (fun t h => t.say (.fabric p (w64 t.stamp) (linkFrame q.key 1 h.msg.time h.lseq (q.rxNext - 1) (some (h.hdr, h.msg))))) s
    if again.any (fun h => 8 ≤ h.replays) then linkLost p s else s

/-- LINK_NAK (R298): a negative acknowledgement, naming the first frame missing. -/
def execLinkNak (port : Nat) (missing : LinkAck) (s : State) : Answer := done (ackTaken port missing (replayFrom port missing.seq) s)

/-! ## HELLO (R300, R301) -/

/-- The device's HELLO on a port. (DESIGN CHOICE, log 90) -/
def ownHello (p : Nat) (s : State) : Hello :=
  { serial := s.otp.serial, addr := s.fab.addr, port := p, state := s.mode.code, ready := s.armedOn, spread := s.im.power.fabSpread,
    role := if s.fab.role = 4 then 0 else s.fab.role.setWidth 2, expectMs := s.expectMs, digestPrefix := s.runPrefix, fwVer := s.otp.fwVer }

/-- HELLO on every port that is up, 1 ms after the last. (DESIGN CHOICE, log 86) -/
def sendHellos (s : State) : State :=
  if !s.mode.answers || s.pins.outputsIdle then s
  else
    let s := advanceTo (s.fab.helloMono + 1000000) s
    (List.range 4).foldl (fun t p => if (t.port p).up then sendLink p (.hello (ownHello p t)) t else t) { s with fab.helloMono := s.mono }

/-- HELLO_SEND (R301). -/
def execHelloSend (s : State) : Answer := done (sendHellos s)

/-- A HELLO of the link partner (R295, R301, R306, R324). (DESIGN CHOICE, log 91) -/
def helloTaken (p : Nat) (h : Hello) (s : State) : State :=
  let q := s.port p
  if h.spread ≠ s.im.power.fabSpread then
    let s := linkLost p (s.setPort p (q.count 7))
    s.setPort p { s.port p with pstate := 5 }
  else
    let s := s.setPort p { q.count 7 with
      nbAddr := h.addr, nbPort := BitVec.ofNat 2 h.port, nbSerial := h.serial, nbReady := q.nbReady || h.ready, helloMono := s.mono }
    let s := if h.addr = s.fab.mgr && h.addr ≠ 0xFFF then { s with fab.mgrSafe := s.fab.mgrSafe && h.state = Mode.safe.code } else s
    if h.ready && !q.nbReady then floodLsa s else s

/-- HELLO (R301). -/
def execHello (port : Nat) (hello : MsgHdr × Hello) (s : State) : Answer := done (messageTaken port hello.1 (helloTaken port hello.2) s)

/-! ## The database (R305, R306) -/

/-- Another device of the database holds an address. -/
def Fab.heldByOther (f : Fab) (own : BitVec 64) (a : BitVec 12) : Bool := f.db.any (fun r => r.addr = a && r.lsa.serial ≠ own)

/-- Manager and standby have been lost for 350 ms (R328). -/
def State.lost350 (s : State) : Bool := s.fab.lostMono.any (fun m => decide (m + 350000000 ≤ s.mono))

/-- Since when the database has held neither manager nor standby (R328): after 350 ms the device counts as left alone until a ROLE comes. -/
def trackLoss (s : State) : State :=
  let f := s.fab
  let has (a : BitVec 12) : Bool := a ≠ 0xFFF && f.db.any (fun r => r.addr = a)
  if f.mgr = 0xFFF || has f.mgr || has f.stby then { s with fab.lostMono := none, fab.orphan := f.orphan || s.lost350 }
  else { s with fab.lostMono := some (f.lostMono.getD s.mono) }

/-- Address conflicts (R305): of two devices with one address the lower SERIAL keeps it. -/
def judgeDup (s : State) : State :=
  let f := s.fab
  if f.dupAddr then
    if f.heldByOther s.otp.serial (wantAddr s) then { s with fab.dupGone := none }
    else { s with fab.dupGone := some (f.dupGone.getD s.mono) }
  else if f.addr ≠ 0xFFF && f.db.any (fun r => r.addr = f.addr && r.lsa.serial.toNat < s.otp.serial.toNat) then
    let s := raiseDet 78 (f.addr.setWidth 32) (fabVec { s with fab.dupAddr := true, fab.dupGone := none, fab.addr := 0xFFF, fab.officeDue := false })
    floodLsa (setRole roleNone s)
  else s

/-- What follows a change of the database. -/
def dbChanged (s : State) : State := judgeDup (trackLoss s)

/-- LSA_REFRESH (R306): 100 ms after the last, or at once for a change. -/
def execLsaRefresh (s : State) : Answer :=
  done (if s.fabricOn then dbChanged (floodLsa (advanceTo (s.fab.lsaMono + 100000000) s)) else s)

/-- An LSA reaches the device: the newest of each SERIAL is kept. On a manager a new device gets its address, a claim follows at once, and ROLE with
the claim after it (R304, R309, R330). (DESIGN CHOICE, log 88) -/
def lsaTaken (hdr : MsgHdr) (l : Lsa) (s : State) : State :=
  if !s.fabricOn || l.serial = s.otp.serial then s
  else
    let old := s.fab.lsaOf l.serial
    let newer := match old with | some q => decide (q.lsa.seq.toNat < l.seq.toNat) | none => true
    if !newer then s
    else
      let s := dbChanged (storeLsa { lsa := l, addr := hdr.src, mono := s.mono } s)
      if s.isManager then
        let s := if old.isNone then { s with fab.claimDue := true, fab.roleDue := true } else s
        if hdr.src = 0xFFF then assignAddrs s else s
      else s

/-- LSA (R306). -/
def execLsa (port : Nat) (hdr : MsgHdr) (lsa : Lsa) (s : State) : Answer :=
  let fresh := match s.fab.lsaOf lsa.serial with | some q => decide (q.lsa.seq.toNat < lsa.seq.toNat) | none => true
  done (arrive port hdr (.lsa lsa) (some (fresh && lsa.serial ≠ s.otp.serial)) (fun s => (lsaTaken hdr lsa s, stOk)) s)

/-- The oldest LSA of another device. -/
def oldestLsa (s : State) : Option Nat :=
  ((s.fab.db.filter (fun r => r.lsa.serial ≠ s.otp.serial)).map (fun r => r.mono)).min?

/-- LSA_EXPIRY (R306): an LSA that has not been refreshed for 350 ms is discarded. -/
def execLsaExpiry (s : State) : Answer :=
  done (match oldestLsa s with
    | some m =>
      let s := advanceTo (m + 350000000) s
      let keep := s.fab.db.filter (fun r => r.lsa.serial = s.otp.serial || s.mono < r.mono + 350000000)
      dbChanged (graphChanged { s with fab.db := keep, fab.changeMono := s.mono, fab.settled := false })
    | none => s)

/-- DUP_ADDR_RECOVERY (R305): the conflict has been gone for SETTLE. -/
def execDupAddrRecovery (s : State) : Answer :=
  done (match s.fab.dupGone with
    | some m =>
      if s.fab.dupAddr && s.fabricOn then
        let s := advanceTo (m + s.fabSec.settle * 1000000) s
        floodLsa (fabVec (levelOff 78 { s with fab.dupAddr := false, fab.dupGone := none, fab.addr := wantAddr s }))
      else s
    | none => s)

/-! ## Election, addresses and roles (R304, R309, R310, R326, R328) -/

/-- The candidate that ranks first takes office, with the address that it plans for itself where it has none; ROLE goes out before the
assignments (R304, R309). -/
def electSelf (s : State) : State :=
  let r := planAddrs s
  let mine := r.2.find? (fun e => e.1 = s.otp.serial)
  let t := { r.1 with fab.addr := (mine.map (fun e => e.2)).getD s.fab.addr }
  let stby := ((t.fab.ranking s.otp.serial).find? (fun c => c.lsa.serial ≠ s.otp.serial && c.lsa.standbyOk)).map t.fab.addrOf
  let t := sendAddrs r.2 (takeOffice (stby.getD 0xFFF) false t)
  if mine.isSome then floodLsa t else t

/-- When the election is due: SETTLE after the last change of the database while no manager is known, and none has claimed office for 350 ms
(R309); or SETTLE after 350 ms without manager and standby, or after a later change (R328). (DESIGN CHOICE, log 88) -/
def electionDue (s : State) : Option Nat :=
  let settle := s.fabSec.settle * 1000000
  if s.fab.mgr = 0xFFF then some (max (s.fab.changeMono + settle) ((s.fab.mgrHeard.map (fun m => m + 350000000)).getD 0))
  else s.fab.lostMono.map (fun m => max s.fab.changeMono (m + 350000000) + settle)

/-- The database has shown no change for SETTLE, and an election may be due. -/
def elect (s : State) : State :=
  if !s.fabricOn || s.fab.db.isEmpty then s
  else
    let due := electionDue s
    let s := { advanceTo (due.getD (s.fab.changeMono + s.fabSec.settle * 1000000)) s with fab.settled := true }
    if due.isNone || s.fab.dupAddr || s.fab.role = roleManager then s
    else match (s.fab.ranking s.otp.serial).head? with
      | some best => if best.lsa.serial = s.otp.serial then electSelf s else s
      | none => s

/-- ELECTION (R309). -/
def execElection (s : State) : Answer := done (elect s)

/-- An assignment reaches the device (R304): every device keeps it, and the one it names takes it in ASSIGNED mode. -/
def addrTaken (serial : BitVec 64) (addr : BitVec 12) (s : State) : State :=
  let s := { s with fab.assigned := (serial, addr) :: s.fab.assigned.filter (fun e => e.1 ≠ serial) }
  if serial = s.otp.serial && s.fabSec.addrMode = 2 then
    let s := if s.fab.dupAddr then fabVec (levelOff 78 { s with fab.dupAddr := false, fab.dupGone := none }) else s
    if s.fab.addr = addr then s else floodLsa { s with fab.addr := addr }
  else s

/-- ADDR_ASSIGN (R304). -/
def execAddrAssign (port : Nat) (hdr : MsgHdr) (serial : BitVec 64) (addr : BitVec 12) (s : State) : Answer :=
  done (arrive port hdr (.addrAssign serial addr) none (fun s => (addrTaken serial addr s, stOk)) s)

/-- A device that is not manager takes the role that a ROLE of another gives it: worker or standby of that manager, which it follows (R309,
R310). Unless no manager was known, or the standby it knew takes over, or the manager it knew speaks, the device has met another fabric and leaves
for QUARANTINE with MERGE (R328, R330). -/
def roleFollows (mgr stby : BitVec 12) (turned : Bool) (s : State) : State :=
  let f := s.fab
  let heir := f.mgr = 0xFFF || mgr = f.stby || (mgr = f.mgr && !(f.orphan || s.lost350))
  let changed := mgr ≠ f.mgr
  let idle := !(f.role = roleWorker || f.role = roleStandby)
  let s := { s with fab.mgr := mgr, fab.stby := stby, fab.officeDue := false, fab.handed := false, fab.orphan := false, fab.lostMono := none
                    fab.rejoinOk := f.rejoinOk || turned, fab.mgrSafe := f.mgrSafe && !changed, fab.timeOkMgr := if changed then 0 else f.timeOkMgr }
  let s := setRole (if f.addr ≠ 0xFFF && stby = f.addr then roleStandby else roleWorker) s
  let s := if changed then graphChanged s else s
  let s := if changed || idle then followFabric s else s
  if heir then s else quarantine acMerge { s with tim.joinStep := true }

/-- A ROLE reaches the device: it adopts EPOCH, and takes its role unless it is manager or has lost its address; one that names it
manager hands it the office at its next boundary (R305, R309, R319, R329). -/
def roleTaken (mgr stby : BitVec 12) (epoch : BitVec 64) (s : State) : State :=
  if s.fab.role = roleManager then genHeard epoch s
  else
    let turned := decide (epoch ≠ s.fab.epoch)
    let s := setEpoch epoch s
    if s.fab.dupAddr then { s with fab.mgr := mgr, fab.stby := stby }
    else if s.fab.addr ≠ 0xFFF && mgr = s.fab.addr then { s with fab.officeDue := true, fab.handed := true, fab.stby := stby }
    else roleFollows mgr stby turned s

/-- ROLE (R309). -/
def execRole (port : Nat) (hdr : MsgHdr) (mgr stby : BitVec 12) (devices : BitVec 16) (epoch : BitVec 64) (s : State) : Answer :=
  done (arrive port hdr (.role mgr stby devices epoch) none (fun s => (if s.fabricOn then roleTaken mgr stby epoch s else s, stOk)) s)

/-! ## Reading the routing table (R308) -/

/-- A write of ROUTE_SEL copies the entry of that address (R308). -/
def routeSelWrite (value : BitVec 12) (s : State) : State :=
  match s.routeOf value with
  | some r => { s with fab.routeSel := value, fab.routePort := BitVec.ofNat 3 r.port, fab.routeHops := BitVec.ofNat 6 r.hops }
  | none => { s with fab.routeSel := value, fab.routePort := 7, fab.routeHops := 0 }

/-- ROUTE_SELECT (R308): a write of ROUTE_SEL snapshots the entry of an address. -/
def execRouteSelect (src : Source) (value : BitVec 12) (s : State) : Answer := done (judged src 0x40080 (routeSelWrite value) s)

/-- REPLY (R300): its STATE tells of a manager in SAFE (R324). -/
def execReply (port : Nat) (hdr : MsgHdr) (reply : ReplyMsg) (s : State) : Answer :=
  done (arrive port hdr (.reply reply) none (fun s =>
    (if hdr.src = s.fab.mgr && hdr.src ≠ 0xFFF then { s with fab.mgrSafe := s.fab.mgrSafe && reply.state = Mode.safe.code.setWidth 8 } else s, stOk)) s)

end Sys2Proof.Machine
end

