-- ==== Sys2Proof/Machine/FabTick.lean ====
section
/-! DEFINITION. Tick distribution, link delays, budgets and triggers of the fabric (R311 to R315, R326, R327). -/
namespace Sys2Proof.Machine

/-! ## The manager's TICK (R311) -/

/-- A TICK that the manager originates goes to its children of the tree. -/
def originateTick (t : TickMsg) (s : State) : State :=
  let h := newHdr 0xFFF false s
  (treeChildren s).foldl (fun u p => sendPort p h (.tick t) u) { s with fab.mseq := s.fab.mseq + 1, tck.tickSent := true }

/-- The TICK of the next boundary, LEAD before it, or at the accepted edge. -/
def tickSend (s : State) : State :=
  if !s.isManager || !s.fabricOn || !s.mode.ticks || s.tck.tickSent then s
  else match nextKnown s with
    | none => s
    | some (tk, idx, fly) =>
      let s := advanceStamp (tk - s.leadNs) s
      originateTick { index := idx.getD (if s.tck.ticked then s.tck.index + 1 else 0), boundary := w64 tk, originTs := w64 s.stamp,
                      period := BitVec.ofNat 32 s.im.tick.period, flywheel := fly } s

/-- TICK_SEND (R311). -/
def execTickSend (s : State) : Answer := done (tickSend s)

/-! ## The worker's TICK (R312, R313, R321, R323, R327, R330) -/

/-- The offset that a TICK measures: arrival stamp minus (ORIGIN_TS + CORR), CORR in units of 2⁻¹⁶ ns. -/
def tickOffset (arrival : Nat) (t : TickMsg) (corr : Int) : Int := (arrival : Int) - ((t.originTs.toNat : Int) + roundDiv corr 65536)

/-- The first TICK of a merge's winner steps device time to the winner's (R53, R330). (DEDUCED, log 87) -/
def joinTime (o : Int) (s : State) : State :=
  let s := { s with tim.joinStep := false, tim.offset := BitVec.ofInt 32 (clampSigned 32 o), tim.refMono := s.mono, tim.holdover := false, tim.pTerm := 0 }
  lockJudge o (timeStep 3 s.stamp ((s.stamp : Int) - o).toNat s)

/-- What the worker's time base makes of the offset (R41, R53). (DEDUCED, log 87) -/
def tickTime (o : Int) (i : Nat) (s : State) : State :=
  if s.tim.joinStep then joinTime o s else if s.tim.discAct = discFabric && i ≠ 0 then measure 4 o i s else s

/-- The boundary that a usable TICK announces, while FABRIC is in force or the source that a switch goes to (R312, R417);
the first one that is used ends DEG_FABRIC at the next boundary (R313, R327). A TICK with FLYWHEEL announces a flywheel boundary. (DEDUCED, log 87) -/
def tickUse (t : TickMsg) (s : State) : State :=
  if t.boundary.toNat < s.stamp + 2000 then { s with fab := s.fab.count 4 }
  else
    let heeds := match s.tck.switch with
      | some w => decide (w.dest = srcFabric)
      | none => decide (s.tck.active = srcFabric)
    { s with
      tck.lead := if heeds then some (t.boundary.toNat, some t.index, t.flywheel) else s.tck.lead
      fab.missConsec := 0, fab.lossReported := false, gctl.fabricBack := s.gctl.degFabric }

/-- A TICK of the manager at a worker: time, agreement and the boundary. `o` is the offset measured. -/
def tickWork (t : TickMsg) (o : Int) (s : State) : State :=
  let lim := s.fabSec.ofsLimit
  let good (n : Byte) : Byte := if o.natAbs ≤ lim then satInc n else 0
  let s := { s with fab.lastOffset := o, fab.timeOk := good s.fab.timeOk, fab.timeOkMgr := good s.fab.timeOkMgr }
  let s := tickUse t (tickTime o (t.period.toNat * 1000) s)
  if lim < o.natAbs && s.mode ≠ .quarantine then quarantine acTime s else s

/-- A TICK goes on to the children of the tree: each copy's CORR gains the residence time, egress stamp less ingress stamp, which is left open
(R299, R312). (DEDUCED, log 87) -/
def forwardTick (ports : List Nat) (hdr : MsgHdr) (t : TickMsg) (corr : Int) (s : State) : State :=
  if ports.isEmpty then s
  else if hdr.hopsLeft.toNat ≤ 1 then { s with fab := s.fab.count 3 }
  else ports.foldl (fun u p =>
    sendPort p { hdr with hopsLeft := hdr.hopsLeft - 1, corr := BitVec.ofInt 64 (corr + Config.freeNat u.freeCtr * 65536) } (.tick t) u.drawn) s

/-- A TICK: forwarded with the delay of the link it came by in CORR, and used on a worker (R312). -/
def tickTaken (p : Nat) (hdr : MsgHdr) (t : TickMsg) (s : State) : State :=
  let corr := hdr.corr.toInt + toSigned (s.port p).peerDelay.toNat 16 * 65536
  let s := forwardTick ((treeChildren s).filter (fun c => c ≠ p)) hdr t corr s
  let s := { s with fab.pathDelay := BitVec.ofInt 32 (roundDiv corr 65536) }
  if s.isWorker && hdr.src = s.fab.mgr then tickWork t (tickOffset s.stamp t corr) s else s

/-- TICK (R312). -/
def execTick (port : Nat) (hdr : MsgHdr) (tick : TickMsg) (s : State) : Answer := done (received port hdr 0x10 (tickTaken port hdr tick) s)

/-! ## Missed TICKs (R313, R326, R327) -/

/-- A worker holds no usable TICK at its last boundary plus T: it makes the boundary itself. After a TIMEOUT it waits for the
next TICK (R417). -/
def tickMiss (s : State) : State :=
  if !s.isWorker || s.tck.active ≠ srcFabric || !s.tck.ticked || s.tck.lead.isSome || s.tck.switch.isSome || s.tck.gridAt.isSome || !s.boundaryFree then s
  else
    let s := toStamp 3 (fun s => inNewTime (s.tck.bound + s.period) s.tck.boundMono s) s
    let tk := (inNewTime (s.tck.bound + s.period) s.tck.boundMono s).toNat
    let miss := s.fab.missConsec + 1
    let sec := s.fabSec
    let s := { s with fab := { s.fab.count 5 with timeOk := 0, timeOkMgr := 0, missConsec := miss } }
    let s := if sec.freeRun ≤ miss then { s with gctl.degFabric := true, gctl.fabricBack := false } else s
    let s := if s.fab.role = roleStandby && sec.missLimit ≤ miss then { s with fab.officeDue := true } else s
    let report := sec.freeRun + sec.degTicks ≤ miss && !s.fab.lossReported
    let s := if report then raiseDet 80 0 { s with fab.lossReported := true } else s
    boundary tk none true 0 s

/-- TICK_MISS (R313). -/
def execTickMiss (s : State) : Answer := done (tickMiss s)

/-! ## Link delay (R312) -/

/-- A port measures its link, 125 ms after the last time. (DESIGN CHOICE, log 86) -/
def delayAsk (p : Nat) (s : State) : State :=
  if (s.port p).up && s.armedOn then
    let s := advanceTo ((s.port p).delayMono + 125000000) s
    sendLink p (.delayReq (w64 s.stamp)) (s.setPort p { s.port p with t1 := some (w64 s.stamp), delayMono := s.mono })
  else s

/-- DELAY_MEASURE (R312). -/
def execDelayMeasure (port : Nat) (s : State) : Answer := done (delayAsk port s)

/-- DELAY_REQ (R312): answered with the stamps of its arrival and of the answer's start, some time later. (DEDUCED, log 87) -/
def execDelayReq (port : Nat) (hdr : MsgHdr) (t1 : BitVec 64) (s : State) : Answer :=
  done (received port hdr 0x11 (fun s => sendLink port (.delayResp t1 (w64 s.stamp) (w64 (s.stamp + Config.freeNat s.freeCtr))) s.drawn) s)

/-- One measured delay: ((T4 − T1) − (T3 − T2)) / 2 + ASYM. (DEDUCED, log 87) -/
def linkDelay (t1 t2 t3 t4 : Nat) (asym : Int) : Int := roundDiv (((t4 : Int) - t1) - ((t3 : Int) - t2)) 2 + asym

/-- A measurement completes: PEER_DELAY is the mean of the last 8. -/
def delayTaken (p : Nat) (t1 t2 t3 : BitVec 64) (s : State) : State :=
  let q := s.port p
  if q.t1 = some t1 then
    let d := linkDelay t1.toNat t2.toNat t3.toNat s.stamp (s.fabSec.asym.getD p 0)
    let l := (d :: q.delays).take 8
    s.setPort p { q with t1 := none, delays := l, peerDelay := BitVec.ofInt 16 (roundDiv l.sum l.length) }
  else s

/-- DELAY_RESP (R312). -/
def execDelayResp (port : Nat) (hdr : MsgHdr) (t1 t2 t3 : BitVec 64) (s : State) : Answer :=
  done (received port hdr 0x12 (delayTaken port t1 t2 t3) s)

/-! ## Budgets and triggers (R274, R315, R345) -/

/-- BUDGET (R315, R345): kept until its boundary, which clamps and applies it; a later one for the same tick takes its place. -/
def execBudget (port : Nat) (hdr : MsgHdr) (applyIndex : BitVec 64) (budget classFloor : BitVec 16) (s : State) : Answer :=
  done (arrive port hdr (.budget applyIndex budget classFloor) none (fun s =>
    if s.isWorker && hdr.src = s.fab.mgr then
      ({ s with fab.budgets := s.fab.budgets.filter (fun b => b.index ≠ applyIndex) ++
                  [{ index := applyIndex, budget := budget.toNat, classFloor := classFloor.setWidth 2 }] }, stOk)
    else (s, stNotInState)) s)

/-- TRIGGER (R274). -/
def execTrigger (port : Nat) (hdr : MsgHdr) (originTick : BitVec 64) (cause : Byte) (s : State) : Answer :=
  done (arrive port hdr (.trigger originTick cause) none (fun s => (vitTrigger cauFabric (hdr.src.setWidth 16) 0 originTick s, stOk)) s)

end Sys2Proof.Machine
end

