-- ==== Sys2Proof/Machine/Agree.lean ====
section
/-! DEFINITION. Joining, reports, verdicts and the meeting of two managers (17_fabric_agreement.md). -/
namespace Sys2Proof.Machine

/-! ## Joining (R318, R321, R322) -/

/-- Interface revisions agree (R318). -/
def fwAgree (a b : Word) : Bool := a >>> 16 = b >>> 16

/-- The manager's judgement of a JOIN_REQ: the first failure, or none. A join after a commit is judged on steps 1 and 2 only. -/
def joinJudge (j : JoinReq) (s : State) : Option (BitVec 4) :=
  if !fwAgree s.otp.fwVer j.fwVer then some acFirmware
  else if !compatible s.im.hdr.digest s.fabSec.compat j.digest j.compat then some acDigest
  else if !j.commit && j.timeOk.toNat < s.fabSec.rejoin then some acTime
  else none

/-- The answer to a JOIN_REQ. -/
def joinAckOf (st : Byte) (cause : BitVec 4) (s : State) : FabMsg :=
  .joinAck { status := st, cause := cause.setWidth 8, fwVer := s.otp.fwVer, epoch := s.fab.epoch, digest := s.im.hdr.digest, compat := s.fabSec.compat }

/-- The BUDGET of R344 to one worker that the manager's table names. -/
def budgetFor (a : BitVec 12) (s : State) : State :=
  match s.im.power.fab.find? (fun e => BitVec.ofNat 12 e.1 = a) with
  | some e => sendTo a false (.budget (s.tck.index + 2) (BitVec.ofNat 16 e.2) 2) s
  | none => s

/-- The manager answers a JOIN_REQ; an admission, and the quarantine of a worker that was admitted, change EPOCH (R319). (DESIGN CHOICE, log 90) -/
def joinTaken (hdr : MsgHdr) (j : JoinReq) (s : State) : State × Byte :=
  if !s.isManager then (s, stNotInState)
  else
    let old := (s.fab.member hdr.src).getD { addr := hdr.src }
    let was := decide (old.mstate = 1)
    let m := { old with serial := j.serial, digest := some j.digest, compat := j.compat, digestPrefix := some (digestPrefixOf j.digest)
                        cause := 0, missing := 0, prefixBad := 0 }
    match joinJudge j s with
    | none =>
      let s := { s with fab := (s.fab.acount 0).putMember { m with mstate := 1, since := if was then old.since else some s.tck.index } }
      let s := epochUp 1 s
      (budgetFor hdr.src (sendTo hdr.src false (joinAckOf stOk 0 s) s), stOk)
    | some c =>
      let s := { s with fab := (s.fab.acount 1).putMember { m with mstate := 2, cause := c } }
      let s := epochUp (b2n was) s
      (sendTo hdr.src false (joinAckOf stFenced c s) s, stFenced)

/-- JOIN_REQ (R321). -/
def execJoinReq (port : Nat) (hdr : MsgHdr) (join : JoinReq) (s : State) : Answer :=
  done (arrive port hdr (.joinReq join) none (joinTaken hdr join) s)

/-- A worker takes the manager's answer (R321, R322). -/
def joinAckTaken (hdr : MsgHdr) (a : JoinAck) (s : State) : State :=
  if !s.isWorker || hdr.src ≠ s.fab.mgr then s
  else
    let s := { s with fab.mgrDigest := a.digest, fab.mgrCompat := a.compat }
    if a.status = stOk then
      { s with fab := { s.fab.acount 0 with joined := true, cause := if s.mode = .quarantine then s.fab.cause else 0, mgrSafe := false }
               gctl.admitted := s.mode = .quarantine }
    else quarantine (a.cause.setWidth 4) { s with fab := { s.fab.acount 1 with joinMono := s.mono } }

/-- JOIN_ACK (R322). -/
def execJoinAck (port : Nat) (hdr : MsgHdr) (ack : JoinAck) (s : State) : Answer :=
  done (arrive port hdr (.joinAck ack) none (fun s => (joinAckTaken hdr ack s, stOk)) s)

/-! ## Reports and verdicts (R323) -/

/-- The manager keeps a worker's report of the tick in progress until it judges it; one of another tick tells its offset alone. -/
def reportTaken (hdr : MsgHdr) (r : ReportMsg) (s : State) : State :=
  if !s.isManager then s
  else match s.fab.member hdr.src with
    | some m => { s with fab := s.fab.putMember { m with report := if r.index = s.tck.index then some r else m.report, offset := r.offset } }
    | none => s

/-- REPORT (R323). -/
def execReport (port : Nat) (hdr : MsgHdr) (report : ReportMsg) (s : State) : Answer :=
  done (arrive port hdr (.report report) none (fun s => (reportTaken hdr report s, stOk)) s)

/-- The first failed check of an admitted worker's report: its counts, and the cause and action if one fails. -/
def judgeReport (s : State) (m : Member) : Member × Option (BitVec 4 × Byte) :=
  match m.report with
  | none => let m := { m with missing := m.missing + 1 }
            (m, if 3 ≤ m.missing then some (acLost, 1) else none)
  | some r =>
    let bad := m.digestPrefix.any (fun p => p ≠ r.digestPrefix)
    let m := { m with digestPrefix := some (m.digestPrefix.getD r.digestPrefix), missing := 0, prefixBad := if bad then m.prefixBad + 1 else 0 }
    let okState := r.state = Mode.run.code.setWidth 8 || r.state = Mode.degraded.code.setWidth 8 || r.state = Mode.armed.code.setWidth 8
    (m, if s.fabSec.ofsLimit < r.offset.toInt.natAbs then some (acTime, 2)
      else if 2 ≤ m.prefixBad then some (acDigest, 2)
      else if r.epoch ≠ s.fab.epoch && r.epoch ≠ s.fab.epochPrev then some (acEpoch, 2)
      else if !okState then some (acState, 1)
      else none)

/-- At Tₖ + G the manager judges the reports of the tick, of the workers that were admitted before it; an excluded standby leaves the fabric without one (R319). -/
def judgeReports (s : State) : State :=
  if !s.isManager || !s.fabricOn then s
  else
    let was := s
    let judged := (s.fab.members.filter (fun m => m.mstate = 1 && m.since ≠ some s.tck.index)).map (judgeReport was)
    let s := judged.foldl (fun t e => { t with fab := t.fab.putMember e.1 }) s
    let bad := judged.filterMap (fun e => e.2.map (fun c => (e.1, c)))
    let lostStby := bad.any (fun e => e.1.addr = s.fab.stby && e.2.2 = 1)
    let s := if lostStby then { s with fab.stby := 0xFFF } else s
    let s := epochUp (bad.length + b2n lostStby) s
    bad.foldl (fun t e => issueVerdict e.1 e.2.1 e.2.2 t) s

/-- A worker takes the manager's verdict. (DESIGN CHOICE, log 90) -/
def verdictTaken (hdr : MsgHdr) (cause action : Byte) (s : State) : State :=
  if !s.isWorker || hdr.src ≠ s.fab.mgr then s
  else if action = 2 then quarantine (cause.setWidth 4) { s with fab := s.fab.acount 2 }
  else if action = 1 then { s with fab := { s.fab.acount 3 with joined := false, cause := cause.setWidth 4, joinSent := false } }
  else s

/-- VERDICT (R323). -/
def execVerdict (port : Nat) (hdr : MsgHdr) (cause action : Byte) (epoch : BitVec 64) (s : State) : Answer :=
  done (arrive port hdr (.verdict cause action epoch) none (fun s => (verdictTaken hdr cause action s, stOk)) s)

/-! ## SAFE (R329) -/

/-- A worker obeys a SAFE broadcast of its manager, or leaves for QUARANTINE. (DESIGN CHOICE, log 91) -/
def safeTaken (hdr : MsgHdr) (s : State) : State :=
  if !s.isWorker || hdr.src ≠ s.fab.mgr then s
  else if s.fabSec.obeySafe then goSafe s
  else quarantine acMgrSafe { s with fab.mgrSafe := true }

/-- SAFE (R329). -/
def execSafe (port : Nat) (hdr : MsgHdr) (tickIndex : BitVec 64) (cause : Byte) (s : State) : Answer :=
  done (arrive port hdr (.safe tickIndex cause) none (fun s => (safeTaken hdr s, stOk)) s)

/-! ## Two managers (R330) -/

/-- A manager broadcasts its claim: at once when its database has gained a device, else 100 ms after the last; ROLE follows where a device has joined
(R309, R330). (DESIGN CHOICE, log 86; DESIGN CHOICE, log 88) -/
def claimSend (s : State) : State :=
  if s.isManager && s.fabricOn then
    let now := s.fab.claimDue
    let s := if now then s else advanceTo (s.fab.claimMono + 100000000) s
    let s := { s with fab.claimDue := false, fab.claimMono := s.mono }
    let s := sendBroadcast (.mgrClaim { serial := s.otp.serial, epoch := s.fab.epoch, mgrSel := s.pins.mgrSel,
                                        priority := BitVec.ofNat 8 s.fabSec.priority, devices := s.fab.devices.setWidth 16 }) s
    if !now && s.fab.roleDue then sendRole { s with fab.roleDue := false } else s
  else s

/-- MGR_CLAIM_SEND (R330). -/
def execMgrClaimSend (s : State) : Answer := done (claimSend s)

/-- A claim is heard. A manager that meets one that ranks above its own resigns into QUARANTINE with cause MERGE; before a lower one it broadcasts its
ROLE (R330). -/
def claimTaken (hdr : MsgHdr) (c : Claim) (s : State) : State :=
  let s := genHeard c.epoch { s with fab.mgrHeard := some s.mono }
  if !s.isManager then s
  else if rankKey c.mgrSel c.priority c.serial < rankKey s.pins.mgrSel (BitVec.ofNat 8 s.fabSec.priority) s.otp.serial then
    let s := { s with fab := { s.fab.acount 5 with
      mgr := hdr.src, stby := 0xFFF, members := [], timeOkMgr := 0, missConsec := 0 }, tim.joinStep := true }
    quarantine acMerge (graphChanged (followFabric (setRole roleWorker s)))
  else sendRole s

/-- MGR_CLAIM (R330). -/
def execMgrClaim (port : Nat) (hdr : MsgHdr) (claim : Claim) (s : State) : Answer :=
  done (arrive port hdr (.mgrClaim claim) none (fun s => (claimTaken hdr claim s, stOk)) s)

/-! ## Reading a member (R323) -/

/-- A write of MEMBER_SEL copies what a manager keeps of that worker. -/
def memberSelWrite (value : BitVec 10) (s : State) : State :=
  match (if s.isManager then s.fab.member (value.setWidth 12) else none) with
  | some m => { s with fab.memberSel := value, fab.mstate := m.mstate, fab.mcause := m.cause, fab.moffset := m.offset }
  | none => { s with fab.memberSel := value, fab.mstate := 0, fab.mcause := 0, fab.moffset := 0 }

/-- MEMBER_SELECT (R323): a write of MEMBER_SEL snapshots a worker's state, on a manager. -/
def execMemberSelect (src : Source) (value : BitVec 10) (s : State) : Answer :=
  done (judged src 0x40240 (memberSelWrite value) s)

end Sys2Proof.Machine
end

