-- ==== Sys2Proof/Machine/Mbx.lean ====
section
/-! DEFINITION. The mailbox's queues: replies by source, and the answer to the request that is being executed (R398, R399 of
21_host_access.md). -/
namespace Sys2Proof.Machine

/-- Replies that wait for a source. -/
def State.replies (s : State) : Source → List MbxMsg
  | .pcie => s.mbx.outPcie
  | _ => s.mbx.outCard

/-- A reply joins the queue of its source; over PCIe it raises vector 15 (R398). -/
def putReply (src : Source) (m : MbxMsg) (s : State) : State :=
  match src with
  | .pcie => msix 15 s.hst.intEn { s with mbx.outPcie := s.mbx.outPcie ++ [m] }
  | _ => { s with mbx.outCard := s.mbx.outCard ++ [m] }

/-- The request in execution is answered: TYPE with bit 7 set, and its TAG. -/
def answerMbx (status : Byte) (payload : List Byte) (s : State) : State :=
  match s.mbx.current with
  | some r => putReply r.src { type := r.msg.type ||| 0x80, tag := r.msg.tag, status := status, payload := payload } { s with mbx.current := none }
  | none => s

/-- An erase ends: the STAGE_ERASE that began it, if it still waits, is answered. (DESIGN CHOICE, log 82) -/
def answerErase (o : ArcOwner) (s : State) : State :=
  match o, s.mbx.current with
  | .mailbox src tag, some r => if r.src = src && r.msg.tag = tag && r.msg.type = 0x11 then answerMbx stOk [] s else s
  | _, _ => s

end Sys2Proof.Machine
end

