-- ==== Sys2Proof/Machine/EgoOps.lean ====
section
/-! DEFINITION. Ego-motion: angles in fixed point, the samples that the block takes from its streams, one update of the
pose, its history, and the lookup of a pose (R179 to R188 of 09_registrar_and_ego_motion.md). Values of the pose are in
units of 2⁻⁴⁰ m, rad and m/s inside the block. -/
namespace Sys2Proof.Machine

/-! ## Fixed point -/

/-- One in units of 2⁻⁴⁰; π; the gain of 41 rotations. -/
def one40 : Int := 1099511627776
def pi40 : Int := 3454217652358
def gain40 : Int := 667681663043

/-- The angles whose tangents are 2⁰ to 2⁻⁴⁰. -/
def atanTable : List Int :=
  [863554413089, 509785937287, 269356888665, 136729762476, 68630207382, 34348560106, 17178471287, 8589759836, 4294945451,
   2147480917, 1073741483, 536870869, 268435451, 134217727, 67108864, 33554432, 16777216, 8388608, 4194304, 2097152] ++
  [1048576, 524288, 262144, 131072, 65536, 32768, 16384, 8192, 4096, 2048, 1024, 512, 256, 128, 64, 32, 16, 8, 4, 2, 1]

/-- Turns the vector (x, y) through the angle z. -/
def turn : List Int → Nat → Int → Int → Int → Int × Int
  | [], _, x, y, _ => (x, y)
  | t :: ts, i, x, y, z =>
    if 0 ≤ z then turn ts (i + 1) (x - y / 2 ^ i) (y + x / 2 ^ i) (z - t) else turn ts (i + 1) (x + y / 2 ^ i) (y - x / 2 ^ i) (z + t)

/-- Turns the vector (x, y), x ≥ 0, to the axis: its length times the inverse gain, and its angle. -/
def level : List Int → Nat → Int → Int → Int → Int × Int
  | [], _, x, _, z => (x, z)
  | t :: ts, i, x, y, z =>
    if y < 0 then level ts (i + 1) (x - y / 2 ^ i) (y + x / 2 ^ i) (z - t) else level ts (i + 1) (x + y / 2 ^ i) (y - x / 2 ^ i) (z + t)

/-- Product and quotient of two values. (DESIGN CHOICE, log 12) -/
def mul40 (a b : Int) : Int := a * b / one40
def div40 (a b : Int) : Int := if b = 0 then 0 else a * one40 / b

/-- An angle modulo 2π, above −π and up to π. -/
def wrapAngle (z : Int) : Int := let r := z % (2 * pi40); if pi40 < r then r - 2 * pi40 else r

/-- Cosine and sine. (DESIGN CHOICE, log 12) -/
def cosSin (z : Int) : Int × Int :=
  let w := wrapAngle z
  if pi40 < 2 * w then let r := turn atanTable 0 gain40 0 (w - pi40); (-r.1, -r.2)
  else if 2 * w < -pi40 then let r := turn atanTable 0 gain40 0 (w + pi40); (-r.1, -r.2)
  else turn atanTable 0 gain40 0 w

/-- The angle of (x, y), and the length. (DESIGN CHOICE, log 12) -/
def atan2 (y x : Int) : Int :=
  if x = 0 && y = 0 then 0
  else if 0 ≤ x then (level atanTable 0 x y 0).2
  else wrapAngle ((level atanTable 0 (-x) (-y) 0).2 + pi40)
/-- DESIGN CHOICE, log 12. -/
def hypot (x y : Int) : Int := mul40 (level atanTable 0 x.natAbs y 0).1 gain40

/-- A quotient rounded to the nearest integer, ties to even (R118, R188). (DESIGN CHOICE, log 56) -/
def nearEven (a : Int) (b : Nat) : Int :=
  let q := Int.fdiv a b
  let r := a - q * b
  if 2 * r < b then q else if b < 2 * r then q + 1 else if q % 2 = 0 then q else q + 1

/-- A value of 40 fraction bits in a signed field of `n` bits with `f` fraction bits, f ≤ 40, saturating. (DESIGN CHOICE, log 12) -/
def toField (n f : Nat) (v : Int) : Int := clampSigned n (nearEven v (2 ^ (40 - f)))

/-! ## Samples (R180, R184) -/

/-- The six raw values of an inertial unit in the data that it read. -/
def imuValues (e : EgoSec) (data : List Byte) : List Int :=
  (List.range 6).map (fun i =>
    let b := part data (e.imuOfs + 2 * i) 2
    toSigned (if e.imuBe then ofBe b else ofLe b) 16)

/-- A signal's raw value in the data of a CAN frame: from its start bit, little-endian, or big-endian from the start bit
down through the bytes. (PRESUMED, log 52) -/
def sigValue (g : EgoSig) (data : List Byte) : Int :=
  let bit (n : Nat) : Nat := b2n ((data.getD (n / 8) 0).getLsbD (n % 8))
  let v := if g.bigEndian then
      ((List.range g.len).foldl (fun (acc : Nat × Nat) _ =>
        (acc.1 * 2 + bit acc.2, if acc.2 % 8 = 0 then acc.2 + 15 else acc.2 - 1)) (0, g.start)).1
    else (List.range g.len).foldl (fun a i => a + bit (g.start + i) * 2 ^ i) 0
  if g.signed then toSigned v g.len else v

/-- The earliest sample of the tick's means. -/
def egoOldest (c : Oldest) (s : State) : State := { s with ego.tickOldest := s.ego.tickOldest.min c }

/-- EGO takes a sample of an inertial stream that the image gives it (TO_EGO, R170). -/
def egoImu (stream : Nat) (capture : Oldest) (data : List Byte) (s : State) : State :=
  match s.im.ego with
  | none => s
  | some e =>
    (List.range 2).foldl (fun t u =>
      if e.imu.getD u 31 = stream && (match s.im.stream stream with | some d => d.toEgo | none => false) then
        let v := imuValues e data
        egoOldest capture { t with ego.imus := tmod t.ego.imus u (fun m => { m with
          n := m.n + 1, sum := List.zipWith (· + ·) m.sum v, tickN := m.tickN + 1, tickSum := List.zipWith (· + ·) m.tickSum v
          lastMono := some t.mono }) }
      else t) s

/-- EGO takes the signals of a CAN frame. -/
def egoCan (stream : Nat) (id : BitVec 29) (ide : Bool) (capture : Oldest) (data : List Byte) (s : State) : State :=
  match s.im.ego with
  | none => s
  | some e =>
    (List.range 5).foldl (fun t i =>
      let g := e.sigs.getD i {}
      if g.used && g.stream = stream && g.id = id.toNat && g.ide = ide then
        let v := sigValue g data
        egoOldest capture { t with ego.sigs := tmod t.ego.sigs i (fun x => { x with
          raw := v, lastMono := some t.mono, tickN := x.tickN + 1, tickSum := x.tickSum + v }) }
      else t) s

/-! ## One update (R180, R182, R183) -/

/-- The SPI controller whose stream is an inertial unit's. -/
def State.spiOf (s : State) (stream : Nat) : Option Nat :=
  (List.range 2).find? (fun u => (s.im.ports.spis.getD u {}).en && (s.im.ports.spis.getD u {}).stream = stream)

/-- The unit is declared and does not stand silent (R167). -/
def imuHeard (e : EgoSec) (u : Nat) (s : State) : Bool :=
  e.imu.getD u 31 ≠ 31 && (match s.spiOf (e.imu.getD u 31) with | some p => !(s.spi p).silent | none => false)

/-- The unit that EGO uses: 0, 1, or 2 for none. -/
def imuChoice (e : EgoSec) (s : State) : BitVec 2 :=
  let steady := decide ((tget s.ego.imus 0).goodFrom + 100000000 ≤ s.mono)
  if imuHeard e 0 s && (steady || s.ego.imuAct ≠ 1 || !imuHeard e 1 s) then 0
  else if imuHeard e 1 s then 1 else 2

/-- The correction word `i`: biases in 2⁻²⁷ and 2⁻²⁴, scales in 2⁻³⁰ (R185). -/
def Ego.corrAt (g : Ego) (i : Nat) : Int := g.corr.getD i (if i < 12 then 0 else 1073741824)

/-- A unit's means along a vehicle axis, bias corrected: the angular rate, or the acceleration. (DESIGN CHOICE, log 55) -/
def axisMean (e : EgoSec) (u : Nat) (isAcc : Bool) (ax : Nat) (s : State) : Int :=
  let f := e.axisMap / 2 ^ (9 * u + 3 * ax) % 8
  let raw := (tget s.ego.imus u).mean.getD (f % 4 + (if isAcc then 3 else 0)) 0
  let raw := if 4 ≤ f then -raw else raw
  if isAcc then raw * e.accLsb / 256 - s.ego.corrAt (6 + 3 * u + ax) * 65536 else raw * e.gyroLsb / 65536 - s.ego.corrAt (3 * u + ax) * 8192

/-- The mean of the samples since the last update, in units of 2⁻²⁴ LSB; an interval without samples keeps the mean before it. -/
def imuClose (m : Imu) : Imu :=
  if m.n = 0 then m
  else { m with n := 0, sum := [0, 0, 0, 0, 0, 0]
                mean := m.sum.map (fun v => v * 16777216 / m.n) }

/-- A wheel or steering signal is valid (R180). -/
def sigValid (e : EgoSec) (i : Nat) (s : State) : Bool :=
  (e.sigs.getD i {}).used && (match (tget s.ego.sigs i).lastMono with | some t => s.mono < t + e.wheelTo * 5000000 | none => false)

/-- A wheel's scaled speed. -/
def wheelSpeed (e : EgoSec) (i : Nat) (s : State) : Int :=
  (tget s.ego.sigs i).raw * (e.sigs.getD i {}).scale * s.ego.corrAt (12 + i) / 16384

/-- The mean of the middle two of four. (DESIGN CHOICE, log 55) -/
def median4 (l : List Int) : Int := let m := l.mergeSort (· ≤ ·); (m.getD 1 0 + m.getD 2 0) / 2

/-- A wheel's speed differs from the median by more than the larger of SLIP_THR × |med| and 0.3 m/s. -/
def slips (thr : Nat) (med v : Int) : Bool :=
  decide (5 * thr * med.natAbs < 1000 * (v - med).natAbs) && decide (300 * one40.natAbs < 1000 * (v - med).natAbs)

/-- The mean of a list. -/
def meanOf (l : List Int) : Int := if l.isEmpty then 0 else l.foldl (· + ·) 0 / l.length

/-- The yaw rate from steering: v × tan(δ / STEER_RATIO) / WHEELBASE. -/
def steerRate (e : EgoSec) (v : Int) (s : State) : Int :=
  let d := (tget s.ego.sigs 4).raw * (e.sigs.getD 4 {}).scale * 65536 * 256 / max 1 (e.steerRatio : Int)
  let cs := cosSin d
  mul40 v (div40 cs.2 cs.1) * 1000 / max 1 (e.wheelbase : Int)

/-- The pose in the formats of the history (R181), at the present instant. (DESIGN CHOICE, log 12) -/
def poseNow (s : State) : Pose :=
  let g := s.ego
  { mono := s.mono, stamp := s.stamp, x := toField 64 24 g.x, y := toField 64 24 g.y, z := toField 64 24 g.z, roll := toField 32 29 g.roll
    pitch := toField 32 29 g.pitch, yaw := toField 32 29 g.yaw, v := toField 32 16 g.v, yawRate := toField 32 27 g.yawRate, flags := g.flags }

/-- The correction that has been written at CORR_SLOT since the last update and stands there: its generation and its bytes (R185). (DESIGN CHOICE, log 55) -/
def newCorrection (e : EgoSec) (s : State) : Option (Byte × List Byte) :=
  if e.corrSlot = 0x1FFF then none
  else
    match s.ego.corrNew with
    | some gen =>
      if (s.token e.corrSlot gen).any (fun t => !t.isVoid) then let a := s.tensorAt e.corrSlot gen; some (gen, Memory.read s.mem a.1 a.2) else none
    | none => none

/-- The largest change of a correction word (R179). -/
def corrStep (e : EgoSec) (i : Nat) : Int := if i < 6 then e.gbStep else if i < 12 then e.abStep else e.scStep

/-- A correction is taken or rejected (R185); answers whether it was taken. -/
def takeCorrection (e : EgoSec) (b : List Byte) (s : State) : State × Bool :=
  let st := at32 b (b.length - 16)
  let ok := field st 0 3 = 1 || (field st 0 3 = 2 && bitOf st 13)
  let new := (List.range 16).map (fun i => if i < 12 then toSigned (at32 b (4 * i)) 32 else (at32 b (4 * i) : Int))
  let near := (List.range 16).all (fun i => decide (((new.getD i 0 - s.ego.corrAt i).natAbs : Int) ≤ corrStep e i))
  let s := { s with ego.corrNew := none }
  if ok && near then ({ s with ego.corr := new, ego.corrStat := stOk, ego.cnt := tinc s.ego.cnt 5 }, true)
  else (raiseDet 57 0 { s with ego.corrStat := if ok then stBadArg else stAborted, ego.cnt := tinc s.ego.cnt 6 }, false)

/-- The mean of −a_x over DECEL_WIN, its threshold and its rearming (R274). `ax` is in units of 2⁻⁴⁰. (DESIGN CHOICE, log 55) -/
def decelJudge (ax : Int) (s : State) : State :=
  let n := 2 * s.incSec.decelWin
  let l := (((s.mono, -ax / 65536) :: s.ego.decel).take n).filter (fun e => s.mono < e.1 + s.incSec.decelWin * 1000000)
  let s := { s with ego.decel := l }
  if n = 0 || l.length < n then s
  else if (s.incSec.decelThr : Int) ≤ meanOf (l.map (fun e => e.2)) then
    let s := { s with ego.decelLow := 0 }
    if s.ego.decelArmed then vitTrigger cauDecel 0 0 0 { s with ego.decelArmed := false } else s
  else
    let low := if s.ego.decelLow = 0 then s.mono else s.ego.decelLow
    { s with ego.decelLow := low, ego.decelArmed := s.ego.decelArmed || decide (low + s.incSec.decelWin * 1000000 ≤ s.mono) }

/-- The acceleration a_x of the last update: with both units silent, the mean before it (R180). -/
def egoAx (e : EgoSec) (s : State) : Int := axisMean e (b2n s.ego.lastUnit) true 0 s

/-- One update of the pose. -/
def egoUpdate (e : EgoSec) (s : State) : State :=
  let (s, took) := match newCorrection e s with
    | some (_, b) => takeCorrection e b s
    | none => ({ s with ego.corrNew := none }, false)
  let act := imuChoice e s
  let s := { s with
    ego.cnt := if (act = 0 || act = 1) && (s.ego.imuAct = 0 || s.ego.imuAct = 1) && act ≠ s.ego.imuAct then tinc s.ego.cnt 4 else s.ego.cnt
    ego.imuAct := act, ego.lastUnit := if act = 2 then s.ego.lastUnit else decide (act = 1), ego.imus := s.ego.imus.map imuClose }
  let u := b2n s.ego.lastUnit
  let lost := act = 2
  -- wheels
  let speeds := (List.range 4).map (fun i => wheelSpeed e i s)
  let valid := (List.range 4).filter (fun i => sigValid e i s)
  let med := median4 speeds
  let slip := if 3 ≤ valid.length then valid.filter (fun i => slips e.slipThr med (speeds.getD i 0)) else []
  let used := valid.filter (fun i => !slip.contains i)
  let dr := valid.length < 2 || used.isEmpty
  let ax := egoAx e s
  let v := if dr then s.ego.v + ax / 2000 else meanOf (used.map (fun i => speeds.getD i 0))
  -- angles
  let gz := axisMean e u false 2 s
  let steerOk := sigValid e 4 s
  let rate := if !lost then gz else if steerOk then steerRate e v s
    else match s.ego.hist.find? (fun p => !p.flags.getLsbD 5) with
      | some p => p.yawRate * 8192
      | none => s.ego.yawRate
  let ay := axisMean e u true 1 s
  let az := axisMean e u true 2 s
  let toward (now goal : Int) : Int := now + wrapAngle (goal - now) / (2 * max 1 (e.tau : Int))
  let roll := if lost then s.ego.roll else let r := s.ego.roll + axisMean e u false 0 s / 2000; wrapAngle (toward r (atan2 ay az))
  let pitch := if lost then s.ego.pitch else let p := s.ego.pitch + axisMean e u false 1 s / 2000; wrapAngle (toward p (atan2 (-ax) (hypot ay az)))
  let yaw := wrapAngle (s.ego.yaw + rate / 2000)
  let cp := cosSin pitch
  let cy := cosSin yaw
  let drFrom := if dr then (match s.ego.drFrom with | some t => some t | none => some s.mono) else none
  let invalid := (lost && dr) || (match drFrom with | some t => decide (e.drMax * 1000000 < s.mono - t) | none => false)
  let flags : BitVec 7 := BitVec.ofNat 7 (b2n (act = 1) + 2 * b2n lost + 4 * b2n (!slip.isEmpty) + 8 * b2n dr + 16 * b2n valid.isEmpty +
    32 * b2n invalid + 64 * b2n took)
  let cnt := tinc s.ego.cnt 0
  let cnt := if slip.isEmpty then cnt else tinc cnt 1
  let cnt := if dr then tinc cnt 2 else cnt
  let cnt := if invalid then tinc cnt 3 else cnt
  let sat (x : Int) : Int := clampSigned 80 x
  let s := { s with
    ego.cnt := cnt, ego.flags := flags, ego.drFrom := drFrom
    ego.wheelValid := BitVec.ofNat 4 (valid.foldl (fun a i => a + 2 ^ i) 0), ego.steerValid := steerOk
    ego.roll := roll, ego.pitch := pitch, ego.yaw := yaw, ego.v := sat v, ego.yawRate := rate
    ego.x := sat (s.ego.x + mul40 (mul40 v cp.1) cy.1 / 2000), ego.y := sat (s.ego.y + mul40 (mul40 v cp.1) cy.2 / 2000)
    ego.z := sat (s.ego.z - mul40 v cp.2 / 2000)
    ego.tickUpd := s.ego.tickUpd + 1, ego.tickFlags := s.ego.tickFlags ||| flags }
  let s := { s with ego.hist := (poseNow s :: s.ego.hist).take 512 }
  if invalid then raiseDet 57 0 s else s

/-! ## The history (R181, R187) -/

/-- The 16 words of an entry. -/
def poseWords (p : Pose) : List Word :=
  let w32 (v : Int) : Word := ofSigned 32 v
  let w (v : Int) : List Word := let b := ofSigned 64 v; [lo32 b, hi32 b]
  [lo32 (w64 p.mono), hi32 (w64 p.mono), lo32 (w64 p.stamp), hi32 (w64 p.stamp)] ++ w p.x ++ w p.y ++ w p.z ++
    [w32 p.roll, w32 p.pitch, w32 p.yaw, w32 p.v, w32 p.yawRate, p.flags.setWidth 32]

/-- A pose moved on by `dt` ns (either sign) with its speed and yaw rate. -/
def poseMoved (p : Pose) (dt : Int) : Pose :=
  let cp := cosSin (p.pitch * 2048)
  let cy := cosSin (p.yaw * 2048)
  -- v in 2⁻¹⁶ m/s times dt in ns, as 2⁻²⁴ m
  let d : Int := p.v * 256 * dt / 1000000000
  { p with
    x := p.x + mul40 (mul40 d cp.1) cy.1, y := p.y + mul40 (mul40 d cp.1) cy.2, z := p.z - mul40 d cp.2
    yaw := nearEven (wrapAngle ((p.yaw + p.yawRate * 4 * dt / 1000000000) * 2048)) 2048 }

/-- A pose between two entries, linear in position and in each angle. -/
def poseBetween (a b : Pose) (m : Nat) : Pose :=
  let len : Nat := b.mono - a.mono
  let at_ (p q : Int) : Int := p + roundDiv ((q - p) * ((m - a.mono : Nat) : Int)) (max 1 len)
  let ang (p q : Int) : Int := nearEven (wrapAngle ((p + roundDiv (nearEven (wrapAngle ((q - p) * 2048)) 2048 * ((m - a.mono : Nat) : Int)) (max 1 len)) * 2048)) 2048
  { a with mono := m, x := at_ a.x b.x, y := at_ a.y b.y, z := at_ a.z b.z, roll := ang a.roll b.roll, pitch := ang a.pitch b.pitch
           yaw := ang a.yaw b.yaw, v := at_ a.v b.v, yawRate := at_ a.yawRate b.yawRate }

/-- The pose at a monotonic instant, and how far it was extrapolated in ns; none without a valid entry. -/
def poseAt (m : Nat) (s : State) : Option (Pose × Nat) :=
  let l := s.ego.hist.filter (fun p => !p.flags.getLsbD 5)
  match l.find? (fun p => p.mono ≤ m), l.reverse.find? (fun p => m < p.mono) with
  | some a, some b => some (poseBetween a b m, 0)
  | some a, none => some (poseMoved a ((m - a.mono : Nat) : Int), m - a.mono)
  | none, some b => some (poseMoved b (-((b.mono - m : Nat) : Int)), b.mono - m)
  | none, none => none

/-! ## Compensation (R188) -/

/-- The rows of the rotation of a pose, in units of 2⁻⁴⁰: yaw, then pitch, then roll. -/
def rotation (p : Pose) : List (List Int) :=
  let r := cosSin (p.roll * 2048)
  let t := cosSin (p.pitch * 2048)
  let y := cosSin (p.yaw * 2048)
  [[mul40 y.1 t.1, mul40 (mul40 y.1 t.2) r.2 - mul40 y.2 r.1, mul40 (mul40 y.1 t.2) r.1 + mul40 y.2 r.2],
   [mul40 y.2 t.1, mul40 (mul40 y.2 t.2) r.2 + mul40 y.1 r.1, mul40 (mul40 y.2 t.2) r.1 - mul40 y.1 r.2],
   [-t.2, mul40 t.1 r.2, mul40 t.1 r.1]]

/-- Entry (i, j) of the product of the transpose of `a` with `b`. -/
def transMul (a b : List (List Int)) (i j : Nat) : Int :=
  (List.range 3).foldl (fun n k => n + mul40 ((a.getD k []).getD i 0) ((b.getD k []).getD j 0)) 0

/-- The capture frame as seen from the validity frame: dx, dy, dz in Q11.20 m, droll, dpitch, dyaw in Q2.29 rad. -/
def relative (c v : Pose) : List Int :=
  let rv := rotation v
  let rc := rotation c
  let d := [(c.x - v.x) * 65536, (c.y - v.y) * 65536, (c.z - v.z) * 65536]
  let pos (i : Nat) : Int := (List.range 3).foldl (fun n k => n + mul40 ((rv.getD k []).getD i 0) (d.getD k 0)) 0
  let m (i j : Nat) : Int := transMul rv rc i j
  [toField 32 20 (pos 0), toField 32 20 (pos 1), toField 32 20 (pos 2), toField 32 29 (atan2 (m 2 1) (m 2 2)),
   toField 32 29 (atan2 (-(m 2 0)) (hypot (m 0 0) (m 1 0))), toField 32 29 (atan2 (m 1 0) (m 0 0))]

/-- The 32 bytes of a compensation record: flags are EXTRAP, MASKED, STEP and NO_EGO from bit 16. (DESIGN CHOICE, log 54) -/
def compRecord (rel : List Int) (extrapUs : Nat) (extrap masked step noEgo : Bool) : List Byte :=
  (List.range 6).flatMap (fun i => leBytes 4 (ofSigned 32 (rel.getD i 0)).toNat) ++
    leBytes 4 (pack [(0, 14, min extrapUs 16383), (16, 1, b2n extrap), (17, 1, b2n masked), (18, 1, b2n step), (19, 1, b2n noEgo)]).toNat ++ zeros 4

end Sys2Proof.Machine
end

