-- ==== Sys2Proof/Machine/Convert.lean ====
section
/-! DEFINITION. Arithmetic of the cores and the conversion unit: rounding and saturation, the multiply-accumulate array,
the vector unit, the lookup, and IEEE 754 (06_fixed_point.md). -/
namespace Sys2Proof.Machine

/-! ## Rounding and saturation (R116, R118, R120) -/

/-- Smallest and largest stored value of a format of width `w`. -/
def storedMin (w : Nat) (signed : Bool) : Int := if signed then -(2 ^ (w - 1) : Nat) else 0
def storedMax (w : Nat) (signed : Bool) : Int := if signed then (2 ^ (w - 1) : Nat) - 1 else (2 ^ w : Nat) - 1

/-- A value held in the stored range, and whether it saturated. -/
def saturate (w : Nat) (signed : Bool) (v : Int) : Int × Bool :=
  if v < storedMin w signed then (storedMin w signed, true)
  else if storedMax w signed < v then (storedMax w signed, true)
  else (v, false)

/-- A quotient rounded toward zero, or to nearest with ties to even. -/
def roundQuot (towardZero : Bool) (a : Int) (b : Nat) : Int := if towardZero then Int.tdiv a b else nearEven a b

/-! ## The units of a core (R119 to R122) -/

/-- The multiply-accumulate array: the bias, then the products in ascending order, each sum saturating at `w` bits. -/
def accumulate (w : Nat) : List (Int × Int) → Int × Bool → Int × Bool
  | [], acc => acc
  | (a, b) :: rest, acc =>
    let r := saturate w true (acc.1 + a * b)
    accumulate w rest (r.1, acc.2 || r.2)

/-- An accumulator of int8 (32 bits) or int16 operands (48 bits). -/
def macSum (wide : Bool) (bias : Int) (terms : List (Int × Int)) : Int × Bool :=
  accumulate (if wide then 48 else 32) terms (saturate (if wide then 48 else 32) true bias)

/-- A requantise step: the accumulator times M, over 2^SH, rounded and held in the format. -/
def requantise (towardZero : Bool) (w : Nat) (signed : Bool) (m sh : Nat) (acc : Int) : Int × Bool :=
  saturate w signed (roundQuot towardZero (acc * m) (2 ^ sh))

/-- One operation of the vector unit on 32-bit lanes. -/
def vecResult (op : VecOp) (towardZero : Bool) (a b : Int) (shift : Nat) : Int × Bool :=
  match op with
  | .add => saturate 32 true (a + b)
  | .sub => saturate 32 true (a - b)
  | .shl => saturate 32 true (a * (2 ^ shift : Nat))
  | .mul => saturate 32 true (roundQuot towardZero (a * b) (2 ^ shift))

/-- A lane through the operations in order, held as a signed 32-bit value between them, and whether it saturated. -/
def vecLane (towardZero : Bool) (a : Int) (steps : List VecStep) : Int × Bool :=
  steps.foldl (fun acc p => let r := vecResult p.op towardZero acc.1 p.b p.shift; (r.1, acc.2 || r.2)) (a, false)

/-- The multiplier and shift of a channel at an internal address: M in a halfword and SH in the byte behind it. (DESIGN CHOICE, log 9) -/
def channelAt (mem : Mem) (a : Nat) : Nat × Nat := (ofLe (Memory.read mem a 2), ofLe (Memory.read mem (a + 2) 1) % 64)

/-- The index of a lookup, and whether its requantisation clamped; `chanOf` gives a channel's multiplier and shift. -/
def lutIndex (towardZero : Bool) (chanOf : Nat → Nat × Nat) : LutIn → Int × Bool
  | .index n => (n, false)
  | .wide acc chan => let c := chanOf chan; requantise towardZero 8 true c.1 c.2 acc

/-- The activation lookup: the entry of an index, and whether the index was clamped. -/
def lookup (towardZero : Bool) (chanOf : Nat → Nat × Nat) (input : LutIn) (table : List Int) : Int × Bool :=
  let n := lutIndex towardZero chanOf input
  (table.getD (n.1 + 128).toNat 0, n.2)

/-! ## Conversion contexts (R117, R125) -/

/-- A conversion context, as CVT_CTX_CFG lays it out. -/
structure CvtCfg where
  toFloat : Bool
  single : Bool
  widthCode : Nat
  signed : Bool
  towardZero : Bool
  ovfMax : Bool
  tinyZero : Bool
  frac : Int
deriving DecidableEq, Repr, Inhabited

def cvtCfg (w : Nat) : CvtCfg :=
  { toFloat := bitOf w 0, single := bitOf w 1, widthCode := field w 2 2, signed := bitOf w 4, towardZero := bitOf w 5,
    ovfMax := bitOf w 6, tinyZero := bitOf w 7, frac := toSigned (field w 8 8) 8 }

def CvtCfg.width (c : CvtCfg) : Nat := widthOf c.widthCode

/-- The flags of R128: INEXACT, SATURATED, UNDERFLOW, SUBNORMAL_IN, INVALID from bit 0. -/
def cvtFlags (i s u n v : Bool) : BitVec 5 := BitVec.ofNat 5 (b2n i + 2 * b2n s + 4 * b2n u + 8 * b2n n + 16 * b2n v)

/-! ## IEEE 754 -/

/-- Exponent width and fraction width of binary16 and binary32. -/
def expBits (single : Bool) : Nat := if single then 8 else 5
def fracBits (single : Bool) : Nat := if single then 23 else 10

/-- The least exponent of a unit in the last place: that of the subnormals. -/
def ulpMin (single : Bool) : Int := if single then -149 else -24

/-- What a floating-point input is. -/
inductive FloatIn
  /-- A finite value: its sign, `mant` × 2^`exp`, and whether it is subnormal. -/
  | finite (neg : Bool) (mant : Nat) (exp : Int) (sub : Bool)
  | infinite (neg : Bool)
  | nan
deriving DecidableEq, Repr, Inhabited

/-- The value that a word holds. -/
def readFloat (single : Bool) (w : Nat) : FloatIn :=
  let fb := fracBits single
  let eb := expBits single
  let f := field w 0 fb
  let e := field w fb eb
  let neg := bitOf w (fb + eb)
  if e = 2 ^ eb - 1 then (if f = 0 then .infinite neg else .nan)
  else if e = 0 then .finite neg f (ulpMin single) (decide (f ≠ 0))
  else .finite neg (2 ^ fb + f) (ulpMin single + (e - 1 : Nat)) false

/-- A number times a power of two as a fraction: numerator and denominator. -/
def scaled (m : Int) (e : Int) : Int × Nat := if 0 ≤ e then (m * (2 ^ e.toNat : Nat), 1) else (m, 2 ^ (-e).toNat)

/-- Float to fixed (R126, R128): the stored integer and the flags. (DEDUCED, log 46) -/
def toFixed (c : CvtCfg) (w : Nat) : Int × BitVec 5 :=
  match readFloat c.single w with
  | .nan => (0, cvtFlags false false false false true)
  | .infinite neg => (if neg then storedMin c.width c.signed else storedMax c.width c.signed, cvtFlags true true false false false)
  | .finite neg m e sub =>
    let v : Int := if neg then -(m : Int) else m
    let q := scaled v (e + c.frac)
    let r := roundQuot c.towardZero q.1 q.2
    let s := saturate c.width c.signed r
    (s.1, cvtFlags (s.2 || decide (r * q.2 ≠ q.1)) s.2 (!s.2 && decide (r = 0) && decide (m ≠ 0)) sub false)

/-- The word of a finite magnitude `n` × 2^`u`, with `n` below 2^(fraction bits + 1). -/
def floatWord (single : Bool) (neg : Bool) (n : Nat) (u : Int) : Nat :=
  let fb := fracBits single
  let top := if neg then 2 ^ (fb + expBits single) else 0
  if n < 2 ^ fb then top + n else top + (u - ulpMin single + 1).toNat * 2 ^ fb + (n - 2 ^ fb)

/-- Fixed to float (R127, R128): the word and the flags, for the stored integer `v`. -/
def toFloat (c : CvtCfg) (v : Int) : Nat × BitVec 5 :=
  if v = 0 then (0, 0)
  else
    let fb := fracBits c.single
    let neg := decide (v < 0)
    let mag := v.natAbs
    -- the unit in the last place of the value, not below that of the subnormals
    let u := max (ulpMin c.single) ((Nat.log2 mag : Int) - c.frac - fb)
    let q := scaled mag (-c.frac - u)
    let n := (roundQuot c.towardZero q.1 q.2).toNat
    let (n, u) := if n = 2 ^ (fb + 1) then (2 ^ fb, u + 1) else (n, u)
    let inexact := decide ((roundQuot c.towardZero q.1 q.2) * q.2 ≠ q.1)
    let uMax : Int := ulpMin c.single + (2 ^ expBits c.single - 3 : Nat)
    if uMax < u then
      -- overflow: infinity, or the largest finite value
      let big := floatWord c.single neg (2 ^ (fb + 1) - 1) uMax
      (if c.ovfMax || c.towardZero then big else big + 1, cvtFlags true true false false false)
    else if n < 2 ^ fb && c.tinyZero && !c.single then (floatWord c.single neg 0 u, cvtFlags true false true false false)
    else (floatWord c.single neg n u, cvtFlags inexact false (decide (n = 0)) false false)

/-- A stored integer in the low bits of a word. -/
def storedOf (c : CvtCfg) (w : Nat) : Int := if c.signed then toSigned w c.width else (w % 2 ^ c.width : Nat)

/-- One conversion of a word: the result as a word, and the flags. (DEDUCED, log 46) -/
def convert (c : CvtCfg) (w : Word) : Word × BitVec 5 :=
  if c.toFloat then let r := toFloat c (storedOf c w.toNat); (BitVec.ofNat 32 r.1, r.2)
  else let r := toFixed c w.toNat; (BitVec.ofInt 32 r.1, r.2)

/-- Bytes of one converted element. -/
def CvtCfg.outBytes (c : CvtCfg) : Nat := if c.toFloat then (if c.single then 4 else 2) else c.width / 8

/-- One element passes context `n` (R125): its flags and counters follow, and INVALID is reported. -/
def convertIn (n : Nat) (w : Word) (s : State) : State × Word :=
  let c := cvtCfg (s.im.qformat.ctxs.getD n 0)
  let r := convert c w
  let f := r.2
  let s := { s with cvt.ctx := tmod s.cvt.ctx n (fun x => { x with
    flags := x.flags ||| f, satCnt := if f.getLsbD 1 then satInc x.satCnt else x.satCnt, invCnt := if f.getLsbD 4 then satInc x.invCnt else x.invCnt }) }
  (if f.getLsbD 4 then raiseDet 55 0 s else s, r.1)

/-! ## The test port (R130) -/

/-- A test configuration that converts nothing. -/
def CvtCfg.bad (c : CvtCfg) : Bool := c.widthCode = 3 || c.frac < -32 || 63 < c.frac

/-- A write of CVT_TEST_IN. (DEDUCED, log 46) -/
def testConvert (w : Word) (s : State) : State :=
  let c := cvtCfg s.cvt.testCfg.toNat
  if c.bad then { s with cvt.testStat := stBadArg }
  else
    let r := convert c w
    { s with cvt.testOut := r.1, cvt.testFlags := r.2, cvt.testStat := stOk }

end Sys2Proof.Machine
end

