-- ==== Sys2Proof/Machine/GridOps.lean ====
section
/-! DEFINITION. The common grid: cells, coverage, the placement of camera features and scanner points, the vote, and the
writing of the back buffer (R190 to R203 of 10_grid_vote_outputs.md, R178). -/
namespace Sys2Proof.Machine

/-! ## Cells (R191, R193) -/

/-- Address of a buffer of the grid; `true` is buffer 1. -/
def GridSec.buf (g : GridSec) (b : Bool) : Nat := if b then g.buf1 else g.buf0

/-- The back buffer's address (R194). -/
def State.backBuf (s : State) : Nat := s.im.grid.buf (!s.grd.front)
def State.frontBuf (s : State) : Nat := s.im.grid.buf s.grd.front

/-- Address of a stream's coverage map; none for a stream without one. -/
def State.coverAt (s : State) (n : Nat) : Option Nat :=
  match s.im.stream n with
  | some d => if d.cover = 0xFFFF then none else (s.im.payloads.find? (fun p => p.id = d.cover)).bind (fun p => p.addr)
  | none => none

/-- A cell lies in the coverage of a stream; a stream without a map covers no cell. -/
def State.covered (s : State) (n x y : Nat) : Bool :=
  match s.coverAt n with
  | some a => (Memory.get s.mem (a + 4 * (y * ceilDiv s.im.grid.x 32 + x / 32) + x % 32 / 8)).getLsbD (x % 8)
  | none => false

/-- A region of the vote holds a cell. -/
def VoteGroup.holds (g : VoteGroup) (x y : Nat) : Bool := g.x0 ≤ x && x < g.x0 + g.w && g.y0 ≤ y && y < g.y0 + g.h

/-! ## Cosine and sine to Q1.30 (R197)

The series in units of 2⁻¹⁰⁰, of an angle in units of 2⁻²⁹ rad. -/

/-- The sum of 42 terms of the series from `term`, whose power is `n`. -/
def trigSum (a : Int) : Nat → Nat → Int → Int → Int
  | 0, _, _, acc => acc
  | k + 1, n, term, acc => trigSum a k (n + 2) (-(term * (a * a)) / (2 ^ 58 * ((n + 1) * (n + 2)) : Nat)) (acc + term)

def cosQ30 (a : Int) : Int := nearEven (trigSum a 42 0 (2 ^ 100 : Nat) 0) (2 ^ 70)
def sinQ30 (a : Int) : Int := nearEven (trigSum a 42 1 (a * (2 ^ 71 : Nat)) 0) (2 ^ 70)

/-! ## Compensation records (R188) -/

/-- The six signed fields of a record: dx, dy, dz, droll, dpitch, dyaw. -/
def readComp (m : Mem) (a : Nat) : List Int := (List.range 6).map (fun i => (Memory.read32 m (a + 4 * i)).toInt)

/-- Ring index of the frame-start entry of the frame that a camera stream has assigned to tick `k` (R188). -/
def State.frameIndex (s : State) (d : StreamDecl) (k : BitVec 64) : Option Nat :=
  match s.im.streamQueue d.stream, (s.strm d.stream).captures.find? (fun e => e.1 = k) with
  | some q, some (_, c) =>
    (List.range (s.im.queue q).size).find? (fun i =>
      let e := readEntry (Memory.read s.mem ((s.im.queue q).base + 32 * i) 32)
      e.frameStart && e.capture = c && e.gen = genOf k)
  | _, _ => none

/-! ## Placement (R195 to R197) -/

/-- The cell that offsets XO, YO in the capture frame reach after the planar move of a record; none outside the grid. (DESIGN CHOICE, log 56) -/
def liftCell (g : GridSec) (rec : List Int) (xo yo : Int) : Option Nat :=
  let u := xo * g.cellMm
  let v := yo * g.cellMm
  let c := cosQ30 (rec.getD 5 0)
  let sn := sinQ30 (rec.getD 5 0)
  let x := g.originX + nearEven (u * c - v * sn + rec.getD 0 0 * 1024000) (g.cellMm * 2 ^ 30)
  let y := g.originY + nearEven (u * sn + v * c + rec.getD 1 0 * 1024000) (g.cellMm * 2 ^ 30)
  if 0 ≤ x && x < g.x && 0 ≤ y && y < g.y then some (y.toNat * g.x + x.toNat) else none

/-- The cell under a point of the validity frame, in units of 2⁻⁴⁰ mm. (DESIGN CHOICE, log 56) -/
def cellUnder (g : GridSec) (px py : Int) : Option Nat :=
  let x := g.originX + nearEven px (g.cellMm * 2 ^ 40)
  let y := g.originY + nearEven py (g.cellMm * 2 ^ 40)
  if 0 ≤ x && x < g.x && 0 ≤ y && y < g.y then some (y.toNat * g.x + x.toNat) else none

/-- A point carried by a full record: x, y and z in units of 2⁻⁴⁰ mm. -/
def carryPoint (rec : List Int) (x y z : Int) : List Int :=
  let r := rotation { roll := rec.getD 3 0, pitch := rec.getD 4 0, yaw := rec.getD 5 0 }
  (List.range 3).map (fun i =>
    let row := r.getD i []
    row.getD 0 0 * x + row.getD 1 0 * y + row.getD 2 0 * z + rec.getD i 0 * 1000 * 1048576)

/-- The lift table of a stream: its address, COLS and BINS. -/
def State.liftTable (s : State) (n : Nat) : Option (Nat × Nat × Nat) :=
  match s.im.grid.lifts.find? (fun l => l.stream = n) with
  | some l => match (s.im.payloads.find? (fun p => p.id = l.tableId)).bind (fun p => p.addr) with
    | some a => let w := (Memory.read32 s.mem a).toNat; some (a, field w 0 10, field w 16 7)
    | none => none
  | none => none

/-- Grid counters: 3 LIFT_OUT, 4 PT_OUT, 5 PT_OVF. -/
def grdCount (i : Nat) (s : State) : State := { s with grd.cnt := tinc s.grd.cnt i }

/-- The place of a (column group, depth bin) pair for tick `k`: none where it names no cell or leaves the grid, which is
counted. -/
def placePair (n grp bin : Nat) (k : BitVec 64) (s : State) : State × Option Nat :=
  match s.liftTable n, (s.im.stream n).bind (fun d => (s.frameIndex d k).map (fun i => d.compRing + 32 * i)) with
  | some (a, cols, bins), some ra =>
    if cols ≤ grp || bins ≤ bin then (s, none)
    else
      let w := (Memory.read32 s.mem (a + 16 + 4 * (grp * bins + bin))).toNat
      if field w 0 16 = 0x8000 then (s, none)
      else match liftCell s.im.grid (readComp s.mem ra) (sbitsOf w 0) (sbitsOf w 16) with
        | some c => (s, some c)
        | none => (grdCount 3 s, none)
  | _, _ => (s, none)
where
  /-- A signed halfword of a word. -/
  sbitsOf (w lo : Nat) : Int := toSigned (field w lo 16) 16

/-- A scanner point of entry `entry` of its stream's ring (R196): dropped and counted, or gathered under its cell. (DESIGN CHOICE, log 56) -/
def placePoint (n entry : Nat) (x y z : Int) (s : State) : State :=
  match s.im.grid.pillars.find? (fun p => p.stream = n), s.im.stream n with
  | some p, some d =>
    let v := carryPoint (readComp s.mem (d.compRing + 32 * entry)) x y z
    let inBand := decide (p.zMin * one40 ≤ v.getD 2 0) && decide (v.getD 2 0 ≤ p.zMax * one40)
    match cellUnder s.im.grid (v.getD 0 0) (v.getD 1 0), inBand with
    | some c, true =>
      let have_ := ((s.grd.pillars.find? (fun e => e.1 = n && e.2.1 = c)).map (fun e => e.2.2)).getD 0
      if p.maxPts ≤ have_ then grdCount 5 s
      else { s with grd.pillars := (n, c, have_ + 1) :: s.grd.pillars.filter (fun e => !(e.1 = n && e.2.1 = c)) }
    | _, _ => grdCount 4 s
  | _, _ => s

/-! ## The vote (R198 to R201) -/

/-- What one group's evaluation found. -/
structure GroupVote where
  part : Nat := 0
  consensus : Option (List Nat) := none
  struck : Option Nat := none
  dMax : Nat := 0
  clean : List Nat := []
  dirty : List Nat := []
deriving DecidableEq, Repr, Inhabited

/-- Sum of the absolute differences of two maps. -/
def mapDiff : List Byte → List Byte → Nat
  | a :: as, b :: bs => (if a.toNat ≤ b.toNat then b.toNat - a.toNat else a.toNat - b.toNat) + mapDiff as bs
  | _, _ => 0

/-- Agreement distance of two members' maps over a region. -/
def agreeDist (g : VoteGroup) (a b : List Byte) : Nat := mapDiff a b / max 1 (g.w * g.h)

/-- The consensus of participants that agree by `ok`: the set and the member struck (R199, step 3). -/
def formConsensus (ok : Nat → Nat → Bool) (p : List Nat) : Option (List Nat × Option Nat) :=
  let allAgree (l : List Nat) : Bool := l.all (fun i => l.all (fun j => i = j || ok i j))
  if 3 ≤ p.length then
    if allAgree p then some (p, none)
    else match p.find? (fun i => p.all (fun j => i = j || !ok i j) && allAgree (p.filter (fun j => j ≠ i))) with
      | some i => some (p.filter (fun j => j ≠ i), some i)
      | none => none
  else if p.length = 2 && allAgree p then some (p, none)
  else none

/-- One group against the vote state `out` and the masked streams `masked`; `maps` are its members' maps. (DESIGN CHOICE, log 57) -/
def evalGroup (g : VoteGroup) (maps : List (List Byte)) (out masked : Word) : GroupVote :=
  let idx := List.range g.members.length
  let st (m : Nat) : Nat := g.members.getD m 0
  let live := idx.filter (fun m => !masked.getLsbD (st m))
  let p := live.filter (fun m => !out.getLsbD (st m))
  let o := live.filter (fun m => out.getLsbD (st m))
  let d (i j : Nat) : Nat := agreeDist g (maps.getD i []) (maps.getD j [])
  let ok (i j : Nat) : Bool := d i j ≤ g.agreeThr
  let cons := formConsensus ok p
  let judged := match cons with
    | some (c, _) => if 2 ≤ c.length then o.map (fun m => (m, c.all (fun j => ok m j))) else []
    | none => []
  { part := p.length, consensus := cons.map (fun c => c.1), struck := cons.bind (fun c => c.2)
    dMax := live.foldl (fun a i => live.foldl (fun b j => if i < j then max b (d i j) else b) a) 0
    clean := (judged.filter (fun e => e.2)).map (fun e => st e.1), dirty := (judged.filter (fun e => !e.2)).map (fun e => st e.1) }

/-- A member's history after one evaluation (R199, step 4). (DESIGN CHOICE, log 57) -/
def shiftHist (h : Byte) (masked observer struck : Bool) : Byte :=
  if masked then h <<< 1 else if observer then h else (h <<< 1) ||| (if struck then 1 else 0)

/-- Strikes among the last `n` history bits. (DESIGN CHOICE, log 57) -/
def strikes (h : Byte) (n : Nat) : Nat := ((List.range n).filter (fun i => h.getLsbD i)).length

/-- Byte offset of each group's maps in the evidence tensor, which holds those of the groups in use. -/
def evidOffset (v : VoteSec) (g : Nat) : Nat := ((v.groups.take g).filter (fun x => x.used)).foldl (fun a x => a + x.members.length * x.w * x.h) 0

/-- The maps of a group's members. -/
def State.evidence (s : State) (v : VoteSec) (g : Nat) (gen : Byte) : List (List Byte) :=
  let x := v.groups.getD g {}
  let a := (s.tensorAt v.evidSlot gen).1 + evidOffset v g
  (List.range x.members.length).map (fun m => Memory.read s.mem (a + m * (x.w * x.h)) (x.w * x.h))

/-- The registers and histories of a group after its evaluation. (DESIGN CHOICE, log 57) -/
def groupAfter (v : VoteGroup) (r : GroupVote) (out masked : Word) (g : Group) : Group :=
  { part := BitVec.ofNat 3 r.part, cons := r.consensus.isSome, dMax := BitVec.ofNat 8 r.dMax
    outlier := match r.struck with | some m => BitVec.ofNat 5 (v.members.getD m 0) | none => 0x1F
    hist := (List.range v.members.length).foldl (fun h m =>
      let n := v.members.getD m 0
      tmod h m (fun b => shiftHist b (masked.getLsbD n) (out.getLsbD n) (r.struck = some m))) g.hist }

/-- Whether the histories vote a stream out: a participant with STRIKES_OUT strikes in its window in some group. (DESIGN CHOICE, log 57) -/
def votesOut (v : VoteSec) (groups : Vector Group 16) (out masked : Word) (n : Nat) : Bool :=
  !out.getLsbD n && !masked.getLsbD n &&
    (List.range v.groups.length).any (fun g =>
      let x := v.groups.getD g {}
      x.used && (List.range x.members.length).any (fun m => x.members.getD m 0 = n && v.strikesOut ≤ strikes (tget (tget groups g).hist m) v.windowTicks))

/-- A word of the streams that a test names. -/
def streamWord (f : Nat → Bool) : Word := pack ((List.range 32).map (fun n => (n, 1, b2n (f n))))

/-- The vote state changes in this state (R201). -/
def Mode.votes (m : Mode) : Bool := !(m = .safe || m = .quarantine)

/-- The vote of the GRID task (R199 to R201). Answers the streams voted out now and the groups without consensus. (DESIGN CHOICE, log 57) -/
def evalVote (gen : Byte) (masked : Word) (s : State) : State × Word × List Nat :=
  match s.im.vote with
  | none => (s, 0, [])
  | some v =>
    let out := s.grd.votedOut
    let used := (List.range v.groups.length).filter (fun g => (v.groups.getD g {}).used)
    let found := used.map (fun g => (g, evalGroup (v.groups.getD g {}) (s.evidence v g gen) out masked))
    let groups := found.foldl (fun gs e => tmod gs e.1 (groupAfter (v.groups.getD e.1 {}) e.2 out masked)) s.grd.groups
    let noCons := (found.filter (fun e => e.2.consensus.isNone)).map (fun e => e.1)
    let newOut := streamWord (votesOut v groups out masked)
    let cleanOf (n : Nat) : Nat :=
      if found.any (fun e => e.2.clean.contains n) && !found.any (fun e => e.2.dirty.contains n) then (tget s.grd.clean n).toNat + 1 else 0
    let back := streamWord (fun n => out.getLsbD n && decide (v.cleanTicks ≤ cleanOf n))
    let clean := (List.range 32).foldl (fun c n =>
      if newOut.getLsbD n then tset c n 0 else if out.getLsbD n then tset c n (BitVec.ofNat 10 (cleanOf n)) else c) s.grd.clean
    let groups := used.foldl (fun gs g => tmod gs g (fun x => { x with
      hist := (List.range 5).foldl (fun h m => if newOut.getLsbD ((v.groups.getD g {}).members.getD m 31) && m < (v.groups.getD g {}).members.length then tset h m 0 else h) x.hist })) groups
    let count (w : Word) : Nat := ((List.range 32).filter (fun n => w.getLsbD n)).length
    let cnt := tmod (tmod (tmod s.grd.cnt 0 (fun c => satAdd c (count newOut))) 1 (fun c => satAdd c (count back))) 2 (fun c => satAdd c noCons.length)
    if !s.mode.votes then (s, 0, noCons)
    else ({ s with grd.votedOut := (out ||| newOut) &&& ~~~back, grd.groups := groups, grd.clean := clean, grd.cnt := cnt }, newOut, noCons)

/-! ## Writing the back buffer (R203) -/

/-- A confidence scaled by a UQ0.8 factor (R178, R203). (DESIGN CHOICE, log 56) -/
def scaleConf (c scale : Nat) : Nat := c * scale / 256

/-- Confidence and mask byte of a cell, from its base confidence: steps 3 to 5 of R203. `masked` are the streams masked for
the tick, `mask` the task's output MASK. -/
def cellMarks (masked mask out : Word) (noCons : List Nat) (x y base : Nat) (s : State) : Nat × Byte :=
  let cover := (List.range 32).filter (fun n => s.covered n x y)
  let v := s.im.vote.getD {}
  let dis := noCons.filter (fun g => (v.groups.getD g {}).holds x y)
  let gathered := cover.any (fun n => match s.im.stream n with | some d => d.gather | none => false)
  let m := b2n (cover.any (fun n => masked.getLsbD n)) + 2 * b2n (cover.any (fun n => out.getLsbD n)) + 4 * b2n (!dis.isEmpty) + 8 * b2n (!gathered)
  let c := (cover.filter (fun n => out.getLsbD n)).foldl (fun c _ => scaleConf c v.voteScale) base
  let c := dis.foldl (fun c _ => scaleConf c v.disagreeScale) c
  let c := (cover.filter (fun n => mask.getLsbD n)).foldl (fun c n =>
    scaleConf c ((s.im.stream n).map (fun d => d.confScale) |>.getD 128)) c
  (c, BitVec.ofNat 8 m)

/-- The base confidence of a cell stands in FEAT_SLOT behind its features (R203, step 1), where the slot holds a byte for it; else it is left
open. (DESIGN CHOICE, log 56) -/
def State.hasConf (s : State) (gen : Byte) : Bool :=
  let g := s.im.grid
  decide (g.x * g.y * (g.c + 1) ≤ (s.tensorAt g.featSlot gen).2)

/-- Features and base confidence of cell `i` in FEAT_SLOT. (DESIGN CHOICE, log 56) -/
def State.featAt (s : State) (gen : Byte) (i : Nat) : List Byte × Byte :=
  let g := s.im.grid
  let a := (s.tensorAt g.featSlot gen).1
  if s.hasConf gen then let p := a + i * (g.c + 1); (Memory.read s.mem p g.c, Memory.get s.mem (p + g.c))
  else (Memory.read s.mem (a + i * g.c) g.c, Config.freeByte (s.freeCtr + i))

/-- The bytes of the grid as the GRID task leaves them. -/
def gridBytes (gen : Byte) (masked mask : Word) (noCons : List Nat) (s : State) : List Byte :=
  let g := s.im.grid
  (List.range (g.x * g.y)).flatMap (fun i =>
    let f := s.featAt gen i
    let m := cellMarks masked mask s.grd.votedOut noCons (i % g.x) (i / g.x) f.2.toNat s
    fitBytes g.stride (f.1 ++ [BitVec.ofNat 8 m.1, m.2]))

/-- The GRID task ends: the vote, then the back buffer. Answers the streams that the vote reports as voted out now. -/
def gridWrite (gen : Byte) (mask : Word) (s : State) : State × Word :=
  let g := s.im.grid
  let masked := match s.token s.im.streams.gatherSlot gen with | some t => t.mask | none => 0
  let (s, newOut, noCons) := evalVote gen masked s
  let bytes := gridBytes gen masked mask noCons s
  ({ s with freeCtr := s.freeCtr + g.x * g.y, mem := Memory.write s.mem s.backBuf bytes }, newOut)

end Sys2Proof.Machine
end

