-- ==== Sys2Proof/Machine/ImageCheck.lean ====
section
/-! DEFINITION. The checks of a Fenor image: header, authentication, variant, directory, and the field ranges of the
tick, time, port, graph, queue, format, solver and fabric sections (R17, R19, R45, R72 to R84, R96 to R105, R117,
R131, R133, R142, R146, R147, R303, R317). -/
namespace Sys2Proof.Machine

/-- A word of a section has no bit set outside `mask`. -/
def only (s : List Byte) (o mask : Nat) : Bool := at32 s o &&& (0xFFFFFFFF - mask) = 0

/-- `len` zero bytes from an offset. -/
def zeroAt (s : List Byte) (o len : Nat) : Bool := (part s o len).all (fun b => b = 0)

def within (lo v hi : Nat) : Bool := lo ≤ v && v ≤ hi

/-- No two entries of a list are equal. -/
def distinct (l : List Nat) : Bool := decide l.Nodup

/-- A list rises strictly. -/
def rising : List Nat → Bool
  | a :: b :: l => a < b && rising (b :: l)
  | _ => true

/-! ## Header, directory and authentication (R73, R74, R77 to R79) -/

/-- Step 1 of R84. -/
def headerOk (b : List Byte) : Bool :=
  at32 b 0 = 0x464E5231 && at16 b 4 = 1 && within 4096 (at32 b 8) 4194304 && at32 b 8 % 32 = 0 &&
    bits b 0x10 25 7 = 0 && zeroAt b 0x14 12

/-- The numbers of the signature block: X and Y of the key, r and s of the signature, little-endian (R72, R77). -/
def sigAt (b : List Byte) (k : Nat) : Nat := let len := at32 b 8; ofLe (part b (len - 128 + 32 * k) 32)

/-- Step 2: the key slot (R78). -/
def keyOk (otp : Otp) (b : List Byte) : Bool :=
  let i := bits b 0x10 16 8
  let k := tget otp.keys i
  i < 4 && !k.revoked && k.hash = some (digestOf (sha256 (part b (at32 b 8 - 128) 64)))

/-- Step 3: the signature (R77). -/
def signatureOk (b : List Byte) : Bool :=
  ecdsaVerify (sigAt b 0) (sigAt b 1) (sigAt b 2) (sigAt b 3) (digestOf (sha256 (b.take (at32 b 8 - 64))))

/-- Section types that every image has. -/
def requiredTypes : List Nat := [1, 2, 3, 4, 5, 7, 8, 9, 0xA, 0xD, 0xE, 0xF, 0x10, 0x11, 0x15]

/-- Step 7: the directory (R74). -/
def directoryOk (b : List Byte) : Bool :=
  let dir := readDir b
  let lo := 0x20 + 16 * dir.length
  let hi := at32 b 8 - 128
  within 1 dir.length 64 && distinct (dir.map (fun e => e.type)) &&
    dir.all (fun e => e.resv && e.offset % 32 = 0 && lo ≤ e.offset && e.offset + e.length ≤ hi && (within 1 e.type 0x16 || !e.mandatory)) &&
    (dir.zipIdx.all (fun e => (dir.drop (e.2 + 1)).all (fun f =>
      e.1.offset + e.1.length ≤ f.offset || f.offset + f.length ≤ e.1.offset || e.1.length = 0 || f.length = 0))) &&
    requiredTypes.all (fun t => dir.any (fun e => e.type = t))

/-! ## SKU (R75) -/

/-- Internal addresses that an image names (R96), but for the places of payloads. -/
def addressesNamed (im : Image) : List Nat :=
  im.queues.queues.flatMap (fun q => [q.base, q.dataBase]) ++ im.queues.slots.flatMap (fun d => [d.addr0, d.addr1]) ++
    im.streams.streams.map (fun d => d.compRing) ++ [im.grid.buf0, im.grid.buf1, im.outA.clBuf, im.outB.clBuf] ++
    (match im.incident with | some i => [i.ringBase] | none => [])

/-- Cores that an image names anywhere: by number, by a slot table, by a power cost, or by an address in their SRAM. (DEDUCED, log 10) -/
def coresNamed (im : Image) : List Nat :=
  im.tasks.flatMap (fun t => [t.core, t.altCore].filter (fun c => c ≠ 0x3F)) ++
    (im.payloads.map (fun p => p.dest)).filter (fun d => d < 48) ++ im.hotReserve.map (fun e => e.1) ++
    im.queues.queues.flatMap (fun q => (if q.prod = 6 then [q.prodIdx] else []) ++ (if q.cons = 6 then [q.consIdx] else [])) ++
    im.queues.tables.zipIdx.flatMap (fun e => if e.1.isEmpty then [] else [e.2]) ++
    (im.power.consumers.take 48).zipIdx.flatMap (fun e => if e.1.1 = 0 then [] else [e.2]) ++
    (addressesNamed im).filterMap (fun a => if coreBase 0 ≤ a && a < coreBase 48 then some ((a - coreBase 0) / coreSize) else none)

/-- Step 6 of R84, with the cores that the variant lacks and the PCIe interface that the card form lacks (R3, R4, R75). (DESIGN CHOICE, log 35) -/
def skuOk (otp : Otp) (s : List Byte) (im : Image) : Bool :=
  let cores := if otp.variant = 0 then 0 else 12 * 2 ^ (otp.variant.toNat - 1)
  16 ≤ s.length && zeroAt s 3 1 && zeroAt s 10 6 && 1 ≤ otp.variant.toNat && im.sku.variantMask.testBit (otp.variant.toNat - 1) &&
    im.sku.variantMask < 8 && im.sku.formMask < 4 && im.sku.formMask.testBit (if otp.cardForm then 1 else 0) &&
    im.sku.minStep ≤ otp.step.toNat && im.sku.coreMask < 2 ^ cores && (coresNamed im).all (fun c => c < cores) &&
    !(otp.cardForm && (im.outA.routes.testBit 0 || im.outB.routes.testBit 0))

/-! ## TICK and TIME (R15, R17, R19, R45) -/

def tickOk (s : List Byte) (im : Image) : Bool :=
  let t := im.tick
  let fab := im.fabric.isSome
  32 ≤ s.length && [0, 4, 8, 0xC, 0x10].all (fun o => only s o 0x1FFFF) && only s 0x14 0x1F7FFFFF && only s 0x18 0xFFFF001F && zeroAt s 0x1C 4 &&
    within 5000 t.period 100000 && within 1 t.ovrLimit 255 && within 1 t.recover 255 && within 1 t.inTol 100 && t.fallback ≤ 1 &&
    t.phaseOfs < t.period && within 100 t.armTimeout 60000 &&
    100 ≤ t.gather && im.streams.streams.all (fun d => d.limit ≤ t.gather) && 2 * t.gather ≤ t.period &&
    t.gather + 500 ≤ t.emit && within (t.emit + 50) t.quiet (t.emit + 5000) && t.quiet < t.period &&
    500000 + (if t.srcAllow.testBit 1 then t.period * t.inTol else 0) ≤ (t.period - t.quiet) * 1000 &&
    t.srcAllow ≠ 0 && t.initSrc ≤ 2 && t.srcAllow.testBit t.initSrc && !(t.initSrc = 2 && !fab) &&
    !(t.fallback = 1 && !t.srcAllow.testBit 0) && (if fab then t.mgrSrc ≤ 1 && t.srcAllow.testBit t.mgrSrc else t.mgrSrc = 0)

def timeOk (s : List Byte) (im : Image) : Bool :=
  let t := im.time
  32 ≤ s.length && only s 0 0x37F && only s 4 0xFFFFF && only s 8 0x0FFF3FFF && only s 0xC 0x7FFFF && only s 0x10 0x01FF01FF && zeroAt s 0x14 12 &&
    within 1 t.stepThr 1000000 && within 50 t.lockThr 10000 && within 1 t.holdLim 3600 && within 1 t.ppsWin 500000 &&
    within 1 t.slewRate 500 && within 1 t.ppsWidth 500 && t.discAllow ≠ 0 && t.discAllow.testBit t.initDisc &&
    !(t.discAllow.testBit 1 && !(im.ports.eths.getD t.gptpPort {}).en) && !(im.fabric.isSome && !t.discAllow.testBit 3)

/-! ## PORTS (R142, R146, R147) -/

/-- A stream is declared and of a kind. -/
def kindIs (im : Image) (s k : Nat) : Bool := match im.stream s with | some d => d.kind = k | none => false

def bindingOk (im : Image) (s : List Byte) (b : CamBinding) : Bool :=
  only s 0 0x1FFF7F7F && only s 4 0x00FF3FFF && only s 0xC 0x07FF07FF &&
    (!b.bound || (kindIs im b.stream 0 && [0x1E, 0x2B, 0x2C, 0x2E].contains b.dt && within 64 b.width 4096 && within 16 b.height 8192 &&
      -50000 ≤ b.capAdj && b.capAdj ≤ 0 && within 16 b.lringLines 1024 &&
      (match im.ingestOf b.stream with | some t => decide (t.qinGroup ≤ b.lringLines) | none => true)))

def camOk (im : Image) (s : List Byte) (c : CamPart) : Bool :=
  if !c.en then zeroAt s 0 80
  else
    only s 0 0xFFF7 && zeroAt s 4 12 && [1, 2, 4].contains c.lanes && within 160 c.rate 2500 &&
      c.bindings.zipIdx.all (fun e => bindingOk im (part s (0x10 + 16 * e.2) 16) e.1) &&
      distinct ((c.bindings.filter (fun b => b.bound)).map (fun b => b.vc * 64 + b.dt))

def matchOk (im : Image) (s : List Byte) (m : MatchEntry) : Bool :=
  only s 0 0x0FFF3FFF && only s 0x10 0x07FFFFFF && zeroAt s 0x14 12 && m.vlanId ≤ 4094 && m.capOfs ≤ 1472 && !(m.mVlan && m.mUntag) &&
    (!m.valid || kindIs im m.stream 1)

def ethOk (im : Image) (s : List Byte) (e : EthPart) : Bool :=
  if !e.en then zeroAt s 0 1040
  else
    only s 0 0x07FF07FF && only s 8 0xFFFF && zeroAt s 0xC 4 && e.rxLat ≤ 2000 && e.txLat ≤ 2000 &&
      e.entries.zipIdx.all (fun m => matchOk im (part s (0x10 + 32 * m.2) 32) m.1)

/-- Quanta of a bit and clocks of a quantum: (prescaler × (3 + segments)). -/
def bitClocks (l : List Nat) : Nat := (l.getD 0 0 + 1) * (3 + l.getD 1 0 + l.getD 2 0)

def canOk (im : Image) (s : List Byte) (c : CanPart) : Bool :=
  if !c.en then zeroAt s 0 1040
  else
    let n := bitClocks c.nominal
    let d := bitClocks c.dataPhase
    only s 0 3 && only s 4 0x7F7FFFFF && only s 8 0x0F0F1F1F && only s 0xC 0x17F &&
      -- nominal rate 80 MHz / n in 125 kbit/s to 1 Mbit/s; data rate 80 MHz / d
      n ≤ 640 && 80 ≤ n && 16 ≤ d && d ≤ n && (c.tdcEn || 80 ≤ d) &&
      c.filters.zipIdx.all (fun f =>
        let p := part s (0x10 + 16 * f.2) 16
        only p 0 0xBFFFFFFF && only p 4 0x1FFFFFFF && only p 8 0x1F && zeroAt p 0xC 4 && (!f.1.valid || kindIs im f.1.stream 2))

def spiOk (im : Image) (s : List Byte) (x : SpiPart) : Bool :=
  if !x.en then zeroAt s 0 32
  else
    only s 0 0x3FF && only s 4 0x1FFF7F0F && zeroAt s 0x10 16 && within 10 x.div 200 && x.div % 2 = 0 && within 1 x.cmdLen 8 &&
      within 1 x.readLen 64 && 1 ≤ x.drdyTo && kindIs im x.stream 3 &&
      (match im.stream x.stream with | some d => (x.cmdLen + x.readLen) * 8 * x.div * 5 ≤ d.period * 1000 | none => false)

/-- Port number and stream of every source that an image binds. -/
def portSources (p : PortsSec) : List (Nat × Nat) :=
  p.cams.zipIdx.flatMap (fun c => (c.1.bindings.filter (fun b => c.1.en && b.bound)).map (fun b => (c.2, b.stream))) ++
  p.eths.zipIdx.flatMap (fun e => (e.1.entries.filter (fun m => e.1.en && m.valid)).map (fun m => (8 + e.2, m.stream))) ++
  p.cans.zipIdx.flatMap (fun c => (c.1.filters.filter (fun f => c.1.en && f.valid)).map (fun f => (12 + c.2, f.stream))) ++
  p.spis.zipIdx.flatMap (fun x => if x.1.en then [(14 + x.2, x.1.stream)] else [])

def portsOk (s : List Byte) (im : Image) : Bool :=
  let p := im.ports
  let src := portSources p
  6976 ≤ s.length && only s 0 0xFFFF && only s 8 1 && only s 0xC 0x1F1F1F1F && (part s 0x10 16).all (fun b => b.toNat < 32) &&
    within 1 p.filtTickIn 20 && within 1 p.filtPpsIn 20 && p.filtDrdy.all (fun f => within 1 f 20) && p.filtGpio.all (fun f => within 1 f 20) &&
    p.cams.zipIdx.all (fun e => camOk im (part s (0x20 + 80 * e.2) 80) e.1) &&
    p.eths.zipIdx.all (fun e => ethOk im (part s (0x2A0 + 1040 * e.2) 1040) e.1) &&
    p.cans.zipIdx.all (fun e => canOk im (part s (0x12E0 + 1040 * e.2) 1040) e.1) &&
    p.spis.zipIdx.all (fun e => spiOk im (part s (0x1B00 + 32 * e.2) 32) e.1) &&
    src.all (fun e => src.all (fun f => e.2 ≠ f.2 || e.1 = f.1)) &&
    !(p.incTrig && p.gpioDir.testBit 15) && p.gpioOd &&& (0xFFFF - p.gpioDir) = 0

/-! ## GRAPH and QUEUES (R97, R102 to R105) -/

def taskOk (im : Image) (s : List Byte) (t : TaskDesc) : Bool :=
  let nIn := bits s 4 0 4
  let nOut := bits s 4 4 3
  let used (c : Nat) : Bool := c < 48 && im.sku.coreMask.testBit c
  only s 0 0x1FFFFFFF && only s 4 0x01FFFFFF && only s 8 0x01FFFFFF && only s 0xC 0x1FFFF && only s 0x30 0x1FFFFF && only s 0x34 0x1FFFFF &&
    zeroAt s 0x38 8 && t.kind ≤ 6 && (t.core = 0x3F || used t.core) && (t.altCore = 0x3F || used t.altCore) && nIn ≤ 8 && nOut ≤ 4 &&
    zeroAt s (0x18 + 2 * nIn) (16 - 2 * nIn) && zeroAt s (0x28 + 2 * nOut) (8 - 2 * nOut) &&
    (List.range 8).all (fun i => at16 s (0x18 + 2 * i) < 0x8000) && (List.range 4).all (fun i => at16 s (0x28 + 2 * i) < 0x2000) &&
    within 1 t.qinGroup 63 && t.qinHalo < t.qinGroup && (!t.queueIn || nIn = 0) && t.qoutReserve ≤ 4096 && t.releaseOfs < im.tick.period &&
    within 1 t.wcet 110000000 && !(t.kind = 3 && !t.queueIn) && !(t.core = 0x3F && (t.altCore ≠ 0x3F || t.essential))

def graphOk (s : List Byte) (im : Image) : Bool :=
  s.length % 64 = 0 && im.tasks.length ≤ 4096 && im.tasks.zipIdx.all (fun e => taskOk im (part s (64 * e.2) 64) e.1) &&
    distinct (im.tasks.map (fun t => t.id))

def bindOk (s : List Byte) (q : QueueBind) : Bool :=
  if q.prod = 0 && q.cons = 0 then zeroAt s 0 16
  else
    only s 0 0x3FFFFFFF && q.prod ≤ 0xA && q.cons ≤ 0xA && (!within 1 q.prod 4 || q.prodIdx < 32) && within 4 q.log2 12 && (q.vector = 0 || 16 ≤ q.vector) && q.base % (32 * 2 ^ q.log2) = 0 && q.dataBase % 64 = 0 &&
      (q.dataBase ≠ 0 || q.dataLen = 0) &&
      (q.prod ≠ 8 || (gridBase ≤ q.base && q.base + 32 * 2 ^ q.log2 ≤ gridBase + 0x2000000 &&
        (q.dataBase = 0 || (gridBase ≤ q.dataBase && q.dataBase + q.dataLen ≤ gridBase + 0x2000000))))

/-- Slots that sections other than GRAPH and QUEUES name. -/
def slotsNamed (im : Image) : List Nat :=
  [im.streams.gatherSlot, im.grid.featSlot, im.queues.gridSlot] ++
    (im.streams.streams.filter (fun d => d.gather && d.kind ≠ 0)).map (fun d => d.slot) ++
    (match im.ego with | some e => [e.sumSlot] ++ (if e.corrSlot = 0x1FFF then [] else [e.corrSlot]) | none => []) ++
    (match im.vote with | some v => [v.voteSlot, v.evidSlot] | none => []) ++
    (match im.incident with | some i => [i.sumSlot] | none => []) ++
    im.qformat.entries.map (fun e => e.slot)

def queuesOk (s : List Byte) (im : Image) : Bool :=
  let q := im.queues
  let n := bits s 0 0 14
  let ids := 0x10E0 + 16 * n
  let listLen := (s.length - ids) / 2
  let listEnd (c : Nat) : Nat := bits s (0x1020 + 4 * c) 0 16 + bits s (0x1020 + 4 * c) 16 12
  let listUsed := (List.range 48).foldl (fun k c => max k (listEnd c)) 0
  let declared (k : Nat) : Bool := q.slots.any (fun d => d.slot = k)
  only s 0 0x3FFF && only s 4 0x1FFF && zeroAt s 8 24 && within 1 n 8192 && ids ≤ s.length && s.length % 16 = 0 &&
    q.queues.zipIdx.all (fun e => bindOk (part s (0x20 + 16 * e.2) 16) e.1) &&
    rising (q.slots.map (fun d => d.slot)) &&
    q.slots.zipIdx.all (fun e => only s (0x10E0 + 16 * e.2) 0x3FFF && (e.1.double || e.1.addr1 = 0)) &&
    (q.slots.foldl (fun k d => k + if d.double then 2 else 1) 0) ≤ 8192 &&
    im.tasks.all (fun t => t.ins.all (fun i => declared i.slot && (!i.carry || q.slots.any (fun d => d.slot = i.slot && d.double))) && t.outs.all declared) &&
    (slotsNamed im).all declared && q.slots.all (fun d => im.consumers d.slot ≤ 63) &&
    (List.range 48).all (fun c => only s (0x1020 + 4 * c) 0x0FFFFFFF && listEnd c ≤ listLen) &&
    zeroAt s (ids + 2 * listUsed) (s.length - ids - 2 * listUsed) &&
    q.tables.zipIdx.all (fun e => distinct e.1 && e.1.all (fun id => im.tasks.any (fun t => t.id = id && !t.queueIn && t.core = e.2))) &&
    im.tasks.all (fun t => t.queueIn || t.core = 0x3F || (q.tables.getD t.core []).contains t.id) &&
    im.tasks.any (fun t => t.kind = 5 && t.outs.contains q.gridSlot)

/-! ## QFORMAT and SOLVER (R117, R131, R133) -/

/-- Smallest and largest stored integer of a format (R116). -/
def QFmt.lo (f : QFmt) : Int := if f.signed then -(2 ^ (f.width - 1) : Int) else 0
def QFmt.hi (f : QFmt) : Int := if f.signed then (2 ^ (f.width - 1) : Int) - 1 else (2 ^ f.width : Int) - 1

def qformatOk (s : List Byte) (im : Image) : Bool :=
  let q := im.qformat
  0x50 ≤ s.length && (s.length - 0x50) % 16 = 0 && zeroAt s 0x44 12 && only s 0x40 0xFFFF &&
    q.entries.zipIdx.all (fun e =>
      let p := part s (0x50 + 16 * e.2) 16
      let f := e.1
      only p 0 0xFFFF1FFF && bits p 0 16 2 ≠ 3 && -32 ≤ f.frac && f.frac ≤ 63 && f.rangeLo ≤ f.rangeHi && f.lo ≤ f.rangeLo && f.rangeHi ≤ f.hi &&
        only p 0xC 0x1F && (f.cvtCtx = 31 || (f.cvtCtx ≤ 15 && q.ctxUsed.testBit f.cvtCtx))) &&
    distinct (q.entries.map (fun e => e.slot)) &&
    q.ctxs.zipIdx.all (fun e => (e.1 = 0 || q.ctxUsed.testBit e.2) && field e.1 2 2 ≠ 3 &&
      -32 ≤ toSigned (field e.1 8 8) 8 && toSigned (field e.1 8 8) 8 ≤ 63)

/-- Cycle bounds of R133. -/
def factorBound (n : Nat) (chol : Bool) : Nat := ceilDiv (n ^ 3) 96 + (if chol then 72 else 32) * n + 256
def substBound (n : Nat) : Nat := ceilDiv (n ^ 2) 16 + 32 * n + 128

/-- The bound of one iteration; none for an operation without iterations. -/
def SolveEntry.iterBound (e : SolveEntry) : Option Nat :=
  let n := e.n
  let gn := e.evalWcc + ceilDiv (e.m * (n * (n + 1))) 2048 + factorBound n true + substBound n + ceilDiv n 32 + 128
  if e.op = 3 || e.op = 4 then some (ceilDiv (n ^ 2) 32 + substBound n + 64)
  else if e.op = 5 then some gn
  else if e.op = 6 then some (gn + ceilDiv e.m 32 + 64)
  else if e.op = 7 then some (ceilDiv (n * e.block * (2 * e.halfBw + 1)) 512 + ceilDiv (5 * n) 32 + 300 + if e.jacobi then ceilDiv n 32 else 0)
  else none

def solveOk (im : Image) (s : List Byte) (e : SolveEntry) : Bool :=
  let iterative := e.op = 5 || e.op = 6
  let direct := e.op = 3 || e.op = 4
  let cg := e.op = 7
  only s 0 0x7FFF && only s 4 0xFFFF1FFF && only s 8 0x1FFF1FFF && only s 0x14 0x1FFFF && only s 0x24 0xFF && only s 0x28 0x1FFFFF &&
    only s 0x2C 0x1FFFFF && zeroAt s 0x30 16 && e.op ≤ 7 && (e.spd || !(e.op = 1 || e.op = 4 || cg)) && (!e.jacobi || cg) &&
    (if cg then within 8 e.n 4096 && e.n % e.block = 0 else within 1 e.n 64) && (if iterative then within 1 e.m 65535 else e.m = 0) &&
    (if direct then e.k ≤ 8 else if iterative then within 1 e.k 64 else if cg then within 1 e.k 4096 else e.k = 0) &&
    bits s 8 24 2 ≠ 3 && e.halfBw ≤ 7 && 1 ≤ e.pivotMin &&
    im.tick.gather < e.deadlineOfs && e.deadlineOfs < im.tick.emit &&
    (match e.iterBound with | some b => b ≤ e.iterWcc | none => true) &&
    (e.op ≠ 6 || (within 1 e.upShift 4 && within 1 e.downShift 4))

/-- Archive address of the first halfword of a SOLVE task's parameter block, in the payload that fills it. -/
def paramPlace (im : Image) (t : TaskDesc) : Option Nat :=
  let a := coreBase t.core + t.paramOfs
  (im.payloads.find? (fun p => match p.addr with | some b => b ≤ a && a + 2 ≤ b + p.length | none => false)).map (fun p => p.arcAddr + (a - p.addr.getD 0))

/-- SOLVE_ID of a SOLVE task, as the payload that fills its parameter block holds it. (DESIGN CHOICE, log 39) -/
def paramId (read : Nat → Nat → List Byte) (im : Image) (t : TaskDesc) : Option Nat :=
  (paramPlace im t).map (fun o => ofLe (part (read (o / 32 * 32) 64) (o % 32) 2))

/-- PIVOT_MIN and REG_ADD of a solve are stored integers of its matrix's format, that of IN_0 (R131, R132); GN and LM form
their matrix themselves, in no format that the image names. (DESIGN CHOICE, log 39) -/
def pivotsFit (im : Image) (t : TaskDesc) (e : SolveEntry) : Bool :=
  if e.op = 5 || e.op = 6 then true
  else match (t.ins.head?).bind (fun i => im.qfmt i.slot) with
    | some f => (e.pivotMin : Int) ≤ f.hi && (e.regAdd : Int) ≤ f.hi
    | none => true

/-- DESIGN CHOICE, log 39. -/
def solverOk (read : Nat → Nat → List Byte) (s : List Byte) (im : Image) : Bool :=
  let ids := (im.tasks.filter (fun t => t.kind = 2)).map (paramId read im)
  s.length % 64 = 0 && im.solver.length ≤ 256 && im.solver.zipIdx.all (fun e => solveOk im (part s (64 * e.2) 64) e.1) &&
    distinct (im.solver.map (fun e => e.id)) && im.tasks.all (fun t => t.kind ≠ 2 || t.core ≠ 0x3F) &&
    ids.all (fun i => match i with | some k => im.solver.any (fun e => e.id = k) | none => false) && decide ids.Nodup &&
    (im.tasks.filter (fun t => t.kind = 2)).all (fun t => im.solver.all (fun e => paramId read im t ≠ some e.id || pivotsFit im t e))

/-! ## FABRIC (R303, R317) -/

def fabricOk (mgrSel : Bool) (s : List Byte) (im : Image) : Bool :=
  match im.fabric with
  | none => true
  | some f =>
    let n := bits s 0x40 0 3
    0xC0 ≤ s.length && only s 0 0x03FF0F13 && only s 4 0x00FF03FF && only s 8 0x7FF && zeroAt s 0x30 16 && only s 0x40 0x1307 &&
      only s 0x44 0x00FF3FFF && only s 0x48 0x03FFFF0F && zeroAt s 0x4C 4 && f.addrMode ≤ 2 && within 5 f.settle 200 && within 50 f.lead 2000 &&
      f.asym.all (fun a => -100 ≤ a && a ≤ 100) && n ≤ 4 && f.safePolicy ≤ 2 && within 100 f.ofsLimit 10000 && 1 ≤ f.rejoin &&
      within 1 f.missLimit 15 && within 2 f.freeRun 255 && within 1 f.degTicks 1000 && f.missLimit < f.freeRun &&
      zeroAt s (0x50 + 28 * n) (112 - 28 * n) && !(f.mgrDisc = 3 && (f.priority ≠ 0 || mgrSel)) &&
      (f.mgrDisc = 3 || im.time.discAllow.testBit f.mgrDisc) && im.tick.srcAllow.testBit 2

end Sys2Proof.Machine
end

