-- ==== Sys2Proof/Machine/SolveMath.lean ====
section
/-! DEFINITION. The arithmetic of the solves: factors, substitution, refinement, the normal equations and the conjugate-gradient
step, in fixed point (R132, R134, R135 of 07_solvers.md, R118 of 06_fixed_point.md). -/
namespace Sys2Proof.Machine

/-! ## Exact numbers and their stored values -/

/-- The number `m` × 2^`e`. -/
structure Dyad where
  m : Int := 0
  e : Int := 0
deriving DecidableEq, Repr, Inhabited

def Dyad.add (a b : Dyad) : Dyad :=
  let e := min a.e b.e
  { m := a.m * (2 ^ (a.e - e).toNat : Nat) + b.m * (2 ^ (b.e - e).toNat : Nat), e := e }
def Dyad.mul (a b : Dyad) : Dyad := { m := a.m * b.m, e := a.e + b.e }
def Dyad.sub (a b : Dyad) : Dyad := a.add { b with m := -b.m }
def Dyad.sum (l : List Dyad) : Dyad := l.foldl Dyad.add {}

/-- The number that a stored integer of a format represents (R116), and a number stored in a format: rounded once, and saturated. -/
def QFmt.num (f : QFmt) (n : Int) : Dyad := { m := n, e := -f.frac }
/-- DESIGN CHOICE, log 47. -/
def QFmt.store (f : QFmt) (v : Dyad) : Int × Bool :=
  let q := scaled v.m (v.e + f.frac)
  saturate f.width f.signed (roundQuot f.towardZero q.1 q.2)

/-- The reciprocal of a pivot to 32 bits, with the destination's rounding (R132); of zero, for which the spec states none, `free`. (DESIGN CHOICE, log 47) -/
def Dyad.recip (towardZero : Bool) (free d : Dyad) : Dyad :=
  if d.m = 0 then free
  else
    let top := 31 + Nat.log2 d.m.natAbs
    let r := roundQuot towardZero (2 ^ top : Nat) d.m.natAbs
    { m := if d.m < 0 then -r else r, e := -(top : Int) - d.e }

/-- The integer square root, rounded down: from bit `fuel` of the root downwards. -/
def rootBits (n : Nat) : Nat → Nat → Nat
  | 0, r => r
  | b + 1, r => let r' := r + 2 ^ b; rootBits n b (if r' * r' ≤ n then r' else r)

/-- The square root of a number that is not negative, stored in a format. -/
def QFmt.storeRoot (f : QFmt) (v : Dyad) : Int × Bool :=
  let q := scaled v.m (v.e + 2 * f.frac)
  let sq := q.1.toNat * q.2
  let r := rootBits sq (Nat.log2 sq / 2 + 1) 0
  let low := r / q.2
  let half := (2 * low + 1) * q.2
  let up := !f.towardZero && (half * half < 4 * sq || (half * half = 4 * sq && low % 2 = 1))
  saturate f.width f.signed ((low + b2n up : Nat) : Int)

/-! ## What a step stores -/

/-- One value that a solve stores: the element of an output that it goes into or goes to make, whether it saturated, and for a pivot
its index and its value before a replacement. -/
structure Stored where
  dest : Dest
  sat : Bool
  pivot : Option (Nat × Int) := none
deriving DecidableEq, Repr, Inhabited

/-- The formats of a solve: the matrix, the factor, the right-hand side, the result; the output whose elements the factor's are. -/
structure SolveFmts where
  mat : QFmt := {}
  fac : QFmt := {}
  rhs : QFmt := {}
  x : QFmt := {}
  facOut : Option Nat := none
deriving DecidableEq, Repr, Inhabited

/-- Numbers stored in a format, as elements of OUT_0 in order. -/
def storeAll (f : QFmt) (l : List Dyad) : List Int × List Stored :=
  let r := l.map f.store
  (r.map (fun v => v.1), r.zipIdx.map (fun v => { dest := { out := 0, elem := v.2 }, sat := v.1.2 : Stored }))

/-- The output element that an element of the factor is, or goes to make. -/
def SolveFmts.facDest (q : SolveFmts) (n i j : Nat) : Dest :=
  match q.facOut with
  | some o => { out := o, elem := i * n + j }
  | none => { out := 0, elem := i }

/-! ## Small pivots (R135) -/

/-- A pivot that is replaced. -/
def pivotSmall (e : SolveEntry) (v : Int) : Bool := if e.spd then decide (v < e.pivotMin) else decide (v.natAbs < e.pivotMin)

/-- What stands in place of a small pivot. -/
def pivotFor (e : SolveEntry) (v : Int) : Int :=
  if !pivotSmall e v then v else if !e.spd && v < 0 then -((e.pivotMin + e.regAdd : Nat) : Int) else ((e.pivotMin + e.regAdd : Nat) : Int)

/-- A pivot as it is used: its number, the value compared, and whether its replacement saturated. It is compared in the matrix's format. (DESIGN CHOICE, log 47) -/
def usePivot (e : SolveEntry) (f : QFmt) (v : Dyad) : Dyad × Int × Bool :=
  let p := f.store v
  if pivotSmall e p.1 then
    let r := saturate f.width f.signed (pivotFor e p.1)
    (f.num r.1, p.1, r.2)
  else (v, p.1, false)

/-! ## Factors and substitution (R132)

Each stored value is the exact sum of its exact products, with the reciprocal of its pivot, rounded once. -/

/-- Row `i` of a factor from the rows above it: unit lower L with D on the diagonal, or Cholesky's L. (DESIGN CHOICE, log 47) -/
def factorRow (e : SolveEntry) (q : SolveFmts) (chol : Bool) (free : Dyad) (a : Nat → Nat → Dyad) (rows : List (List Int)) (i : Nat) :
    List Int × List Stored :=
  let el (r : List Int) (k : Nat) : Dyad := q.fac.num (r.getD k 0)
  let diag (k : Nat) : Dyad := el (rows.getD k []) k
  let r := (List.range (i + 1)).foldl (fun (acc : List Int × List Stored) j =>
    let row := if j = i then acc.1 else rows.getD j []
    let v := (List.range j).foldl (fun v k => v.sub ((el acc.1 k).mul (if chol then el row k else (el row k).mul (diag k)))) (a i j)
    if j = i then
      let p := usePivot e q.mat v
      let d := if chol then q.fac.storeRoot p.1 else q.fac.store p.1
      (acc.1 ++ [d.1], acc.2 ++ [{ dest := q.facDest e.n i j, sat := p.2.2 || d.2, pivot := some (i, p.2.1) }])
    else
      let d := q.fac.store (v.mul (Dyad.recip q.fac.towardZero free (diag j)))
      (acc.1 ++ [d.1], acc.2 ++ [{ dest := q.facDest e.n i j, sat := d.2 }])) ([], [])
  (r.1 ++ List.replicate (e.n - i - 1) 0, r.2)

/-- A factor: its rows, and what was stored. -/
def factorise (e : SolveEntry) (q : SolveFmts) (chol : Bool) (free : Dyad) (a : Nat → Nat → Dyad) : List (List Int) × List Stored :=
  (List.range e.n).foldl (fun acc i => let r := factorRow e q chol free a acc.1 i; (acc.1 ++ [r.1], acc.2 ++ r.2)) ([], [])

/-- Forward, diagonal and back substitution with a factor; the values between stand in the result's format. (DESIGN CHOICE, log 47) -/
def substitute (n : Nat) (q : SolveFmts) (chol : Bool) (free : Dyad) (rows : List (List Int)) (b : Nat → Dyad) : List Int × List Stored :=
  let el (i k : Nat) : Dyad := q.fac.num ((rows.getD i []).getD k 0)
  let scale (i : Nat) (v : Dyad) : Dyad := v.mul (Dyad.recip q.x.towardZero free (el i i))
  let put (i : Nat) (v : Dyad) : Int × Stored := let r := q.x.store v; (r.1, { dest := { out := 0, elem := i }, sat := r.2 })
  let y := (List.range n).foldl (fun (acc : List Int × List Stored) i =>
    let v := (List.range i).foldl (fun v k => v.sub ((el i k).mul (q.x.num (acc.1.getD k 0)))) (b i)
    let r := put i (if chol then scale i v else v)
    (acc.1 ++ [r.1], acc.2 ++ [r.2])) ([], [])
  let z := if chol then y else
    (List.range n).foldl (fun (acc : List Int × List Stored) i =>
      let r := put i (scale i (q.x.num (y.1.getD i 0)))
      (acc.1 ++ [r.1], acc.2 ++ [r.2])) ([], y.2)
  (List.range n).reverse.foldl (fun (acc : List Int × List Stored) i =>
    let v := acc.1.zipIdx.foldl (fun v e => v.sub ((el (i + 1 + e.2) i).mul (q.x.num e.1))) (q.x.num (z.1.getD i 0))
    let r := put i (if chol then scale i v else v)
    (r.1 :: acc.1, acc.2 ++ [r.2])) ([], z.2)

/-! ## Operands (R132) -/

/-- The generation that an input reads: CARRY reads that of the tick before. (DEDUCED, log 42) -/
def inputGen (i : InRef) (k : BitVec 64) : Byte := if i.carry then genOf (k - 1) else genOf k

/-- The format of output `o` of a task. (DEDUCED, log 46) -/
def State.outFmt (s : State) (t : TaskDesc) (o : Nat) : QFmt :=
  match t.outs[o]? with
  | some slot => (s.im.qformat.entries.find? (fun q => q.slot = slot)).getD {}
  | none => {}

/-- The format of input `i` of a task. -/
def State.inFmt (s : State) (t : TaskDesc) (i : Nat) : QFmt :=
  match t.ins[i]? with
  | some r => (s.im.qformat.entries.find? (fun q => q.slot = r.slot)).getD {}
  | none => {}

/-- A stored integer of a format from its bytes, and the bytes of stored integers. -/
def QFmt.read (f : QFmt) (b : List Byte) : Int := let raw := ofLe b; if f.signed then toSigned raw f.width else (raw : Int)
def QFmt.bytes (f : QFmt) (l : List Int) : List Byte := l.flatMap (fun v => leBytes (f.width / 8) (BitVec.ofInt f.width v).toNat)

/-- Element `o` of input `i` of a task of tick `k`, as it is stored and as a number. -/
def State.inElem (s : State) (t : TaskDesc) (k : BitVec 64) (i o : Nat) : Int :=
  match t.ins[i]? with
  | some r =>
    let f := s.inFmt t i
    f.read (Memory.read s.mem ((s.tensorAt r.slot (inputGen r k)).1 + o * (f.width / 8)) (f.width / 8))
  | none => 0
def State.inNum (s : State) (t : TaskDesc) (k : BitVec 64) (i o : Nat) : Dyad := (s.inFmt t i).num (s.inElem t k i o)

/-- The elements that stored bytes hold, in order. -/
def QFmt.elems (f : QFmt) (n : Nat) (b : List Byte) : List Int := (List.range n).map (fun i => f.read ((b.drop (i * (f.width / 8))).take (f.width / 8)))

/-- The formats of a solve. GN and LM form their matrix in 32 bits with the fraction of their parameters, and their residuals and Jacobian
are of that format; a factor that is no output has the matrix's. (DESIGN CHOICE, log 47) -/
def solveFmts (e : SolveEntry) (t : TaskDesc) (s : State) : SolveFmts :=
  let x := s.outFmt t 0
  if e.op = 5 || e.op = 6 then
    let f : QFmt := { x with width := 32, signed := true }
    { mat := f, fac := f, rhs := f, x := x }
  else
    let a := s.inFmt t 0
    let direct := e.op = 3 || e.op = 4
    let second := decide (1 < t.outs.length)
    { mat := a, fac := if e.op ≤ 1 then x else if direct && second then s.outFmt t 1 else a, rhs := s.inFmt t 1, x := x
      facOut := if e.op ≤ 1 then some 0 else if direct && second then some 1 else none }

/-- A factor that SUBST reads is Cholesky's where a solve that makes one writes its slot. (DESIGN CHOICE, log 47) -/
def cholFactor (t : TaskDesc) (opOf : TaskDesc → Option Nat) (s : State) : Bool :=
  s.im.tasks.any (fun p => (match opOf p with | some o => o = 1 || o = 4 | none => false) &&
    (match t.ins[0]? with | some r => p.outs.contains r.slot | none => false))

/-- Element (i, j) of a symmetric matrix whose lower triangle is read, and of one stored in blocks: for each block row its diagonal and the
`h` blocks right of it. (DESIGN CHOICE, log 47) -/
def denseAt (n : Nat) (elem : Nat → Dyad) (i j : Nat) : Dyad := elem (max i j * n + min i j)
/-- DESIGN CHOICE, log 47. -/
def bandAt (e : SolveEntry) (elem : Nat → Dyad) (i j : Nat) : Dyad :=
  let b := e.block
  let row := min i j
  let col := max i j
  let d := col / b - row / b
  if e.halfBw < d then {} else elem ((row / b * (e.halfBw + 1) + d) * (b * b) + row % b * b + col % b)

/-- A row of a matrix times a vector. -/
def rowTimes (n : Nat) (a : Nat → Nat → Dyad) (f : QFmt) (v : List Int) (i : Nat) : Dyad :=
  Dyad.sum ((List.range n).map (fun j => (a i j).mul (f.num (v.getD j 0))))

/-! ## Steps -/

/-- What a step leaves: the result, the factor, and for CG the residual and the direction. -/
structure StepOut where
  x : List Int := []
  factor : List (List Int) := []
  resid : List Int := []
  dir : List Int := []
  log : List Stored := []
deriving DecidableEq, Repr, Inhabited

/-- One refinement: r := b − A x, d by the factor, x := x + d. (DESIGN CHOICE, log 47) -/
def refine (n : Nat) (q : SolveFmts) (chol : Bool) (free : Dyad) (a : Nat → Nat → Dyad) (b : Nat → Dyad) (rows : List (List Int)) (x : List Int) : StepOut :=
  let r := storeAll q.rhs ((List.range n).map (fun i => (b i).sub (rowTimes n a q.x x i)))
  let d := substitute n q chol free rows (fun i => q.rhs.num (r.1.getD i 0))
  let u := storeAll q.x ((List.range n).map (fun i => (q.x.num (x.getD i 0)).add (q.x.num (d.1.getD i 0))))
  { x := u.1, log := r.2 ++ d.2 ++ u.2 }

/-- The normal equations of residuals `r` and Jacobian `jac`, row-major, with λ on the diagonal, solved; the parameters less the solution. (DESIGN CHOICE, log 47) -/
def normalStep (e : SolveEntry) (q : SolveFmts) (free : Dyad) (lam : Nat) (r jac x : List Int) : StepOut :=
  let n := e.n
  let j (k i : Nat) : Dyad := q.mat.num (jac.getD (k * n + i) 0)
  let ks := List.range e.m
  let cell (i c : Nat) : Dyad := Dyad.sum (ks.map (fun k => (j k i).mul (j k c)))
  let a := (List.range n).map (fun i => storeAll q.mat ((List.range (i + 1)).map (fun c => if c = i then (cell i c).add (q.mat.num lam) else cell i c)))
  let g := storeAll q.rhs ((List.range n).map (fun i => Dyad.sum (ks.map (fun k => (j k i).mul (q.mat.num (r.getD k 0))))))
  let made := (a.zipIdx.flatMap (fun v => v.1.2.map (fun w => { w with dest := { out := 0, elem := v.2 : Dest } : Stored }))) ++ g.2
  let fac := factorise e q true free (fun i c => q.mat.num (((a.getD (max i c) ([], [])).1).getD (min i c) 0))
  let d := substitute n q true free fac.1 (fun i => q.rhs.num (g.1.getD i 0))
  let u := storeAll q.x ((List.range n).map (fun i => (q.x.num (x.getD i 0)).sub (q.x.num (d.1.getD i 0))))
  { x := u.1, factor := fac.1, log := made ++ fac.2 ++ d.2 ++ u.2 }

/-- The preconditioned residual of CG, in the result's format. -/
def precondition (e : SolveEntry) (q : SolveFmts) (free : Dyad) (a : Nat → Nat → Dyad) (r : List Int) : List Int × List Stored :=
  storeAll q.x (r.zipIdx.map (fun v => if e.jacobi then (q.rhs.num v.1).mul (Dyad.recip q.x.towardZero free (a v.2 v.2)) else q.rhs.num v.1))

/-- The product of a residual and its preconditioned one. -/
def dotTwo (q : SolveFmts) (r z : List Int) : Dyad := Dyad.sum ((r.zip z).map (fun v => (q.rhs.num v.1).mul (q.x.num v.2)))

/-- One conjugate-gradient step; where the residual is 0, x stands (the corner on converged CG). (DESIGN CHOICE, log 47) -/
def cgStep (e : SolveEntry) (q : SolveFmts) (free : Dyad) (a : Nat → Nat → Dyad) (b : Nat → Dyad) (x r0 p0 : List Int) : StepOut :=
  let n := e.n
  let at0 (f : QFmt) (l : List Int) (i : Nat) : Dyad := f.num (l.getD i 0)
  let start := r0.isEmpty
  let r := if start then storeAll q.rhs ((List.range n).map (fun i => (b i).sub (rowTimes n a q.x x i))) else (r0, [])
  let z := precondition e q free a r.1
  let p := if start then z.1 else p0
  if r.1.all (fun v => v = 0) then { x := x, resid := r.1, dir := p, log := r.2 ++ z.2 }
  else
    let ap := storeAll q.rhs ((List.range n).map (fun i => rowTimes n a q.x p i))
    let c := usePivot e q.mat (dotTwo q ap.1 p)
    let rz := dotTwo q r.1 z.1
    let alpha := rz.mul (Dyad.recip q.x.towardZero free c.1)
    let x' := storeAll q.x ((List.range n).map (fun i => (at0 q.x x i).add (alpha.mul (at0 q.x p i))))
    let r' := storeAll q.rhs ((List.range n).map (fun i => (at0 q.rhs r.1 i).sub (alpha.mul (at0 q.rhs ap.1 i))))
    let z' := precondition e q free a r'.1
    let beta := (dotTwo q r'.1 z'.1).mul (Dyad.recip q.x.towardZero free rz)
    let p' := storeAll q.x ((List.range n).map (fun i => (at0 q.x z'.1 i).add (beta.mul (at0 q.x p i))))
    { x := x'.1, resid := r'.1, dir := p'.1
      log := r.2 ++ z.2 ++ ap.2 ++ [{ dest := { out := 0, elem := 0 }, sat := c.2.2, pivot := some (0, c.2.1) }] ++ x'.2 ++ r'.2 ++ z'.2 ++ p'.2 }

end Sys2Proof.Machine
end

