-- ==== Sys2Proof/Machine/Solve.lean ====
section
/-! DEFINITION. Solves: the check before each step, small pivots, the result by where a solve stood, delivery and the
fallback (07_solvers.md). -/
namespace Sys2Proof.Machine

/-! ## Steps and their bounds (R132, R133, R136) -/

/-- One step does the whole operation: FACTOR and SUBST. -/
def SolveEntry.single (e : SolveEntry) : Bool := e.op ≤ 2

/-- DIRECT operations, which have a step 0. -/
def SolveEntry.direct (e : SolveEntry) : Bool := e.op = 3 || e.op = 4

/-- The bound of the next step, in core cycles. -/
def SolveRun.nextBound (r : SolveRun) : Nat :=
  let e := r.entry
  if e.op ≤ 1 then factorBound e.n (e.op = 1)
  else if e.op = 2 then substBound e.n
  else if e.direct && !r.step0 then factorBound e.n (e.op = 4) + substBound e.n
  else e.iterWcc

/-- All steps are done. -/
def SolveRun.finished (r : SolveRun) : Bool :=
  let e := r.entry
  if e.single then r.step0 else if e.direct then r.step0 && e.k ≤ r.iter else e.k ≤ r.iter

/-- The core PLL's spread in units of 0.1 % (R335). -/
def State.spreadMil (s : State) : Nat := (if s.gctl.everArmed then [0, 5, 10, 20].getD s.im.power.spread 0 else 0)

/-- Cycles as time, at the lowest frequency of the profile, rounded up to a whole ns (R136, R347). -/
def State.cyclesNs (s : State) (cycles : Nat) : Nat := ceilDiv (cycles * 1000000) (s.clk.coreMhz * (1000 - s.spreadMil))

/-- The check before a step: the solve is complete, or the step is refused (R136, R137), or it goes on. -/
def checkNext (r : SolveRun) (s : State) : SolveRun :=
  if r.finished then { r with result := .complete }
  else if r.deadline - s.mono < s.cyclesNs r.nextBound then
    if r.entry.single || (r.entry.direct && !r.step0) then { r with result := .abandoned, notStarted := true, useFallback := true }
    else { r with result := .partialResult }
  else r

/-! ## Starting (R136, R137, R139) -/

/-- A core's fallback buffer of a solve. -/
def State.fallback (s : State) (id core : Nat) : Option Fallback := s.sch.fallbacks.find? (fun f => f.id = id && f.core = core)

/-- The bytes of a fallback buffer or of the default result. -/
def startBytes (t : TaskDesc) (e : SolveEntry) (core : Nat) (cold : Bool) (s : State) : List Byte :=
  Memory.read s.mem (coreBase core + (if cold then e.defaultOfs else e.fallbackOfs)) (s.solveLen t)

/-- A SOLVE task starts on a core: its buffer is filled where it first runs there, and the first check is made. (DESIGN CHOICE, log 47) -/
def startSolve (t : TaskDesc) (core : Nat) (s : State) : State × Option SolveRun :=
  match solveOf s.im s.mem t with
  | none => (s, none)
  | some e =>
    let s := if (s.fallback e.id core).isNone then fillFallback t e core s else s
    let r : SolveRun := { entry := e, deadline := s.tck.boundMono + e.deadlineOfs * 1000, startMono := s.mono, lam := e.lambda0
                          current := startBytes t e core e.cold s }
    (s, some (if r.deadline ≤ s.mono then { r with result := .abandoned, notStarted := true, useFallback := true } else checkNext r s))

/-! ## One step (R134, R135) -/

/-- The number of the step in progress: 0 for step 0 and for operations without iterations. -/
def SolveRun.stepNo (r : SolveRun) : Nat := if r.entry.single || (r.entry.direct && !r.step0) then 0 else r.iter + 1

/-- The pivots of a step are judged. -/
def countPivots (ps : List (Nat × Int)) (r : SolveRun) : SolveRun :=
  let small := ps.filter (fun p => pivotSmall r.entry p.2)
  match small.head? with
  | none => r
  | some p =>
    let first := if r.entry.op = 7 then r.stepNo else p.1
    { r with smallPivot := true, pivCount := r.pivCount + small.length
             pivFirst := if r.smallPivot then r.pivFirst else first, pivIter := if r.smallPivot then r.pivIter else r.stepNo }

/-- The damping of LM after a trial (R134). (DESIGN CHOICE, log 47) -/
def nextLambda (r : SolveRun) (accepted : Bool) : Nat :=
  if accepted then max r.entry.pivotMin (r.lam / 2 ^ r.entry.downShift) else min 0x7FFFFFFF (r.lam * 2 ^ r.entry.upShift)

/-- The cost of an iterate: the sum of the squared residuals (R134). -/
def costOf (residuals : List Int) : Nat := (residuals.map (fun x => x.natAbs * x.natAbs)).sum

/-- An iteration of LM: the first point is evaluated at the start, and a later trial is accepted, with its J and r, when its cost is lower than
that of the last accepted; then the next trial is formed (R134). (DESIGN CHOICE, log 47) -/
def lmStep (q : SolveFmts) (free : Dyad) (step : SolveStep) (r : SolveRun) : SolveRun × List Stored :=
  let n := r.entry.n
  let cost := costOf step.residuals
  let take (lam : Nat) (x : List Byte) : SolveRun := { r with current := x, cost := some cost, resid := step.residuals, jac := step.jacobian, lam := lam }
  let r := match r.cost with
    | none => take r.lam r.current
    | some c => if cost < c then take (nextLambda r true) (q.x.bytes r.trial) else { r with lam := nextLambda r false }
  let o := normalStep r.entry q free r.lam r.resid r.jac (q.x.elems n r.current)
  ({ r with trial := o.x }, o.log)

/-- What the step in progress computes (R132), and what it stores in order. (DESIGN CHOICE, log 47) -/
def runStep (t : TaskDesc) (k : BitVec 64) (step : SolveStep) (r : SolveRun) (s : State) : SolveRun × List Stored :=
  let e := r.entry
  let q := solveFmts e t s
  let free : Dyad := { m := (Config.freeWord s.freeCtr).toInt }
  let x := q.x.elems e.n r.current
  let chol := e.op = 1 || e.op = 4
  let a := denseAt e.n (s.inNum t k 0)
  let b := s.inNum t k 1
  if e.op ≤ 1 then
    let f := factorise e q chol free a
    ({ r with current := q.fac.bytes f.1.flatten }, f.2)
  else if e.op = 2 then
    let rows := (List.range e.n).map (fun i => (List.range e.n).map (fun j => s.inElem t k 0 (i * e.n + j)))
    let y := substitute e.n q (cholFactor t (fun p => (solveOf s.im s.mem p).map (fun o => o.op)) s) free rows b
    ({ r with current := q.x.bytes y.1 }, y.2)
  else if e.direct && !r.step0 then
    let f := factorise e q chol free a
    let y := substitute e.n q chol free f.1 b
    ({ r with current := q.x.bytes y.1, factor := f.1 }, f.2 ++ y.2)
  else if e.direct then
    let o := refine e.n q chol free a b r.factor x
    ({ r with current := q.x.bytes o.x }, o.log)
  else if e.op = 5 then
    let o := normalStep e q free 0 step.residuals step.jacobian x
    ({ r with current := q.x.bytes o.x }, o.log)
  else if e.op = 6 then lmStep q free step r
  else
    let o := cgStep e q free (bandAt e (s.inNum t k 0)) b x r.resid r.dir
    ({ r with current := q.x.bytes o.x, resid := o.resid, dir := o.dir }, o.log)

/-- The stored values of a step are judged: its pivots (R135), and the output elements that saturate for the first time (R123). -/
def takeStored (log : List Stored) (r : SolveRun) : SolveRun × List Dest :=
  let hit := ((log.filter (fun v => v.sat)).map (fun v => v.dest)).eraseDups.filter (fun d => !r.hits.contains d)
  let r := countPivots (log.filterMap (fun v => v.pivot)) r
  ({ r with sat := r.sat || log.any (fun v => v.sat), hits := r.hits ++ hit }, hit)

/-- A step ends: what it computed is taken, and the next check is made. Answers the elements to count. (DESIGN CHOICE, log 47) -/
def stepSolve (t : TaskDesc) (k : BitVec 64) (step : SolveStep) (r : SolveRun) (s : State) : SolveRun × List Dest :=
  let o := runStep t k step r s
  let j := takeStored o.2 r
  let r' := { o.1 with sat := j.1.sat, hits := j.1.hits, smallPivot := j.1.smallPivot, pivCount := j.1.pivCount, pivFirst := j.1.pivFirst, pivIter := j.1.pivIter }
  (checkNext (if r.entry.single || (r.entry.direct && !r.step0) then { r' with step0 := true } else { r' with iter := r.iter + 1 }) s, j.2)

/-! ## The hard deadline (R137) -/

/-- Where the deadline finds a solve, and what the values that the interrupted step had stored did to the status. Answers the elements to
count. (DESIGN CHOICE, log 47) -/
def deadlineResult (t : TaskDesc) (k : BitVec 64) (r : SolveRun) (cut : SolveCut) (s : State) : SolveRun × List Dest :=
  let j := takeStored ((runStep t k cut.eval r s).2.take cut.stores) r
  let lost := r.entry.single || (r.entry.direct && !r.step0) || (r.entry.op ≠ 7 && cut.stood = .factorisation)
  (if lost then { j.1 with result := .abandoned, hard := true, useFallback := true } else { j.1 with result := .partialResult, hard := true }, j.2)

/-- The report of R138. -/
def reportStop (n : Nat) (r : SolveRun) (s : State) : State :=
  if r.hard || r.result = .abandoned then raiseDet 56 (BitVec.ofNat 32 n) s else s

/-! ## Delivery (R132, R138 to R141) -/

/-- A result is accepted (R140). -/
def SolveRun.accepted (r : SolveRun) : Bool := r.result = .complete || (r.result = .partialResult && r.entry.minAccept ≠ 255 && r.entry.minAccept ≤ r.iter)

/-- The result that a stopped solve delivers. -/
def solveBytes (t : TaskDesc) (r : SolveRun) (core : Nat) (s : State) : List Byte :=
  if r.useFallback then startBytes t r.entry core false s else fitBytes (s.solveLen t) r.current

/-- OLDEST of the output token (R141), from that of R110. -/
def solveOldest (r : SolveRun) (core : Nat) (o : Oldest) (s : State) : Oldest :=
  if r.useFallback || (r.iter = 0 && !r.entry.single) then
    match s.fallback r.entry.id core with
    | some f => o.min f.oldest
    | none => o
  else o

/-- The result and its status record enter OUT_0, the factor of a DIRECT operation OUT_1, the core's registers report the solve, and an accepted result with its
OLDEST enters the fallback buffer. -/
def deliverSolve (n : Nat) (t : TaskDesc) (r : SolveRun) (gen : Byte) (oldest : Oldest) (s : State) : State :=
  let fb := s.fallback r.entry.id n
  let isDef := r.useFallback && (match fb with | some f => f.isDefault | none => false)
  let bytes := solveBytes t r n s
  let ws := solveWords r isDef r.accepted (s.cyclesOf (s.mono - r.startMono))
  let s := match t.outs.head? with
    | some o => writeTensor o gen 0 (bytes ++ bytesOf ws) s
    | none => s
  let s := match r.entry.direct && r.step0, t.outs[1]? with
    | true, some o => writeTensor o gen 0 ((solveFmts r.entry t s).fac.bytes r.factor.flatten) s
    | _, _ => s
  let s := reportSolve n r isDef r.accepted s
  if r.accepted then
    { s with
      mem := Memory.write s.mem (coreBase n + r.entry.fallbackOfs) bytes
      sch.fallbacks := { id := r.entry.id, core := n, oldest := oldest, isDefault := false : Fallback } ::
        s.sch.fallbacks.filter (fun f => !(f.id = r.entry.id && f.core = n)) }
  else s

end Sys2Proof.Machine
end

