-- ==== Sys2Proof/Machine/Tasks.lean ====
section
/-! DEFINITION. The curator: release, start and end of tasks, WCET, solver steps and deadlines, TAIL writes, the scoreboard
peek and the conversion test port (05_cores_and_curator.md, 06_fixed_point.md, 07_solvers.md). -/
namespace Sys2Proof.Machine

/-! ## Time and the phase edges (R18) -/

/-- A phase edge of the tick in progress comes before a monotonic instant and has not been made. (DESIGN CHOICE, log 6; DEDUCED, log 44) -/
def State.edgeBefore (s : State) (m : Nat) : Bool :=
  s.tck.ticked && s.mode.ticks &&
    ((!s.tck.gDone && s.tck.gMono < m) || (!s.tck.eDone && s.tck.eMono < m) || (!s.tck.qDone && s.tck.qMono < m))

/-! ## Inputs (R109, R110, R111) -/

/-- What a task's inputs give its outputs. -/
structure Folded where
  oldest : Oldest := {}
  mask : Word := 0
  vote : Word := 0
deriving DecidableEq, Repr, Inhabited

/-- The fold of one entry (R110). (DESIGN CHOICE, log 41) -/
def foldToken (exempt : Bool) (t : Token) (f : Folded) : Folded :=
  { oldest := if exempt then f.oldest else f.oldest.min t.oldest, mask := f.mask ||| t.mask, vote := f.vote ||| t.vote }

/-- A task of tick `k` reads its inputs: each entry counts the read. A CARRY input that is not present is a void token. (DESIGN CHOICE, log 41) -/
def readInputs (ins : List InRef) (k : BitVec 64) (s : State) : State × Folded :=
  ins.foldl (fun (acc : State × Folded) i =>
    let gen := inputGen i k
    match acc.1.token i.slot gen with
    | some t => (putToken i.slot gen { t with consLeft := if t.consLeft = 0 then 0 else t.consLeft - 1 } acc.1, foldToken i.ageExempt t acc.2)
    | none => acc) (s, {})

/-! ## Release (R106) -/

/-- Jobs that hold a reservation: released or running. -/
def State.jobs (s : State) : List Job := s.sch.ready ++ s.sch.cores.toList.filterMap (fun c => c.job)

/-- Entries of a queue that released tasks have reserved. -/
def State.reserved (s : State) (q : Nat) : Nat :=
  s.jobs.foldl (fun n j => match s.im.task j.task with
    | some t => if t.qoutEn && t.qout = q then n + t.qoutReserve else n
    | none => n) 0

/-- The ring space that a task reserves is free. -/
def State.qoutFree (s : State) (t : TaskDesc) : Bool := !t.qoutEn || t.qoutReserve + s.reserved t.qout ≤ s.room t.qout

/-- The output entries of tick `k` are free. An INGEST task whose token was voided runs on without setting it (R112). -/
def State.outsFree (s : State) (t : TaskDesc) (k : BitVec 64) : Bool :=
  s.sch.late.contains (t.id, k) || t.outs.all (fun o => s.entryFree o (genOf k))

/-- Every input without CARRY is present for tick `k`. -/
def State.inputsReady (s : State) (t : TaskDesc) (k : BitVec 64) : Bool :=
  t.ins.all (fun i => i.carry || (s.token i.slot (genOf k)).isSome)

/-- Table and ready-list tasks run in a tick that computes, until its Emit edge (R33, R416). -/
def State.computing (s : State) : Bool := s.tck.ticked && s.tck.compute && !s.tck.eDone && s.mode.ticks

/-- Queue-driven tasks run in the computing states and until the Emit edge of a computing tick; in ARMED ingest alone. -/
def State.queueRuns (s : State) (t : TaskDesc) : Bool := s.mode.computes || s.computing || (s.mode = .armed && t.kind = 3)

/-- The entries that the next release of a queue-driven task takes: a group, or fewer up to a FRAME_END. (DEDUCED, log 42) -/
def State.nextGroup (s : State) (t : TaskDesc) : Option (List QEntry) :=
  let l := ((s.queued t.qin).map (fun e => e.2)).take t.qinGroup
  let upto := match l.findIdx? (fun e => e.frameEnd) with
    | some i => l.take (i + 1)
    | none => l
  if upto.length = t.qinGroup || (match upto.getLast? with | some e => e.frameEnd | none => false) then some upto else none

/-- The latest tick, at most one ahead of the present one, whose index has the low bits `gen`. -/
def State.tickOf (s : State) (gen : Byte) : BitVec 64 :=
  let top := s.tck.index + 1
  top - (genOf top - gen).setWidth 64

/-- The job of a release. -/
def jobOf (t : TaskDesc) (core : Option Nat) (k : BitVec 64) (es : List QEntry) : Job :=
  let last := es.getLast?.getD {}
  { task := t.id, tick := k, entries := es.length, capture := last.capture, gen := genOf k, frameEnd := last.frameEnd
    broken := last.broken, core := core, moved := decide (t.core ≠ 0x3F) && decide (core ≠ some t.core) }

/-- The entries of its queue that a release consumes: all up to a frame's end, else all but those kept for the next release. -/
def takenOf (t : TaskDesc) (entries : Nat) (frameEnd : Bool) : Nat := if frameEnd then entries else entries - t.qinHalo

/-- A task that no core can run, at the instant at which it would be released (R113, steps 3 and 4). A queue-driven one consumes its entries,
and its outputs of one tick are voided once. (DESIGN CHOICE, log 45) -/
def releaseLost (t : TaskDesc) (k : BitVec 64) (es : List QEntry) (s : State) : State :=
  if t.queueIn then
    let s := consume t.qin (takenOf t es.length (es.getLast?.getD {}).frameEnd) s
    if !t.essential && t.outs.any (fun o => (s.token o (genOf k)).isSome) then s else loseTask t k s
  else loseTask t k (if t.essential then s else (readInputs t.ins k s).1)

/-- A task that is due joins the released tasks; without a core it is void or lost (R113), and a core under a slice waits
(R114). (DESIGN CHOICE, log 45) -/
def releaseOn (t : TaskDesc) (k : BitVec 64) (es : List QEntry) (s : State) : State :=
  match s.placeOf t with
  | none => releaseLost t k es s
  | some c =>
    if (match c with | some n => s.coreTested n | none => false) then s
    else { s with sch.ready := s.sch.ready ++ [jobOf t c k es] }

/-- The release of a task of the graph. (DEDUCED, log 42) -/
def releaseTask (t : TaskDesc) (s : State) : State :=
  if s.jobs.any (fun j => j.task = t.id) then s
  else if t.queueIn then
    match s.nextGroup t with
    | some es =>
      let frame := match s.im.stream (es.head?.getD {}).stream with | some d => decide (d.kind = 0) | none => false
      let k := if frame then s.tickOf (es.head?.getD {}).gen else s.tck.index
      if s.queueRuns t && s.outsFree t k && s.qoutFree t then releaseOn t k es s else s
    | none => s
  else
    let k := s.tck.index
    let m := s.tck.boundMono + t.releaseOfs * 1000
    if s.computing && !s.taskDone t.id k && s.inputsReady t k && s.outsFree t k && s.qoutFree t && !s.edgeBefore m then
      releaseOn t k [] (advanceTo m s)
    else s

/-- TASK_RELEASE (R106). -/
def execTaskRelease (task : Nat) (s : State) : Answer :=
  done (match s.im.task task with
    | some t => releaseTask t s
    | none => s)

/-! ## Choice and start (R107, R108) -/

/-- The job with the least key. -/
def leastJob (key : Job → Nat) (l : List Job) : Option Job :=
  l.foldl (fun b j => match b with
    | some x => if key j < key x then some j else some x
    | none => some j) none

/-- The head of a core's slot table: its position and TASK_ID; entries whose task has ended or was moved are passed. -/
def State.tableHead (s : State) (n : Nat) : Option (Nat × Nat) :=
  let tab := s.im.queues.tables.getD n []
  (((tab.zipIdx).drop (s.core n).slotPos).find? (fun e => !(s.taskDone e.1 s.tck.index || s.sch.moved.contains e.1))).map (fun e => (e.2, e.1))

/-- The task of a job. -/
def State.taskOf (s : State) (j : Job) : TaskDesc := (s.im.task j.task).getD {}

/-- A job's task may run now (R33, R416). -/
def State.mayRun (s : State) (j : Job) : Bool := let t := s.taskOf j; if t.queueIn then s.queueRuns t else s.computing

/-- The job that a core chooses, and the slot-table position after it. -/
def chooseJob (n : Nat) (s : State) : Option (Job × Nat) :=
  let pos := (s.core n).slotPos
  let ready := s.sch.ready.filter s.mayRun
  match leastJob (fun j => (s.taskOf j).qin) (ready.filter (fun j => (s.taskOf j).queueIn && j.core = some n)) with
  | some j => some (j, pos)
  | none =>
    let head := match s.tableHead n with
      | some (p, id) => (ready.find? (fun j => j.task = id && j.core = some n && !j.moved)).map (fun j => (j, p + 1))
      | none => none
    match head with
    | some r => some r
    | none => (leastJob (fun j => j.task) (ready.filter (fun j => j.core.isNone || (j.core = some n && j.moved)))).map (fun j => (j, pos))

/-- A core starts a job: it reads its inputs and requests power; without a grant it stalls until a window grants it, and during a relock of
the core PLL until its end (R338). (DEDUCED, log 43) -/
def startJob (n : Nat) (j : Job) (pos : Nat) (s : State) : State :=
  let t := s.taskOf j
  let s := { s with sch.ready := s.sch.ready.erase j }
  let (s, f) := if t.queueIn then (s, ({} : Folded)) else readInputs t.ins j.tick s
  let (s, sv) := if t.kind = 2 then startSolve t n s else (s, none)
  let held := s.pwr.grants.getLsbD n
  let relock := if held then s.pwr.relockUntil - s.mono else 0
  let j := { j with startMono := s.mono + relock, oldest := f.oldest, mask := f.mask, vote := f.vote, solve := sv }
  let c := s.core n
  let s := s.setCore n { c with job := some j, slotPos := pos, stalled := !held, stallCyc := satAdd c.stallCyc (s.cyclesOf relock) }
  match sv with
  | some r => reportStop n r s
  | none => s

/-- TASK_START (R107). -/
def execTaskStart (core : Nat) (s : State) : Answer :=
  done (if s.coreUsable core && !s.coreTested core && (s.core core).job.isNone && s.mode.ticks then
    match chooseJob core s with
    | some (j, pos) => startJob core j pos s
    | none => s
  else s)

/-! ## WCET (R115) -/

/-- A task's cycles are compared with its WCET. -/
def judgeWcet (n cycles : Nat) (s : State) : State :=
  match (s.core n).job with
  | some j =>
    if (s.taskOf j).wcet < cycles && !j.wcetSeen then
      let c := s.core n
      let s := s.setCore n { c with job := some { j with wcetSeen := true }, wcetExceed := satInc c.wcetExceed }
      raiseDet 53 (BitVec.ofNat 32 n) (schVec { s with sch.wcetCnt := satInc s.sch.wcetCnt })
    else s
  | none => s

/-- WCET_EXCEED (R115). -/
def execWcetExceed (core : Nat) (cycles : Nat) (s : State) : Answer :=
  done (if (s.core core).stalled then s else judgeWcet core cycles s)

/-! ## What a task's work does to its outputs (R118 to R125, R195, R196) -/

/-- Counts `k` in a saturation counter of a core (R123): of a class, or 16 ACC_SAT, or 17 LUT_CLAMP. -/
def countSat (n cls k : Nat) (s : State) : State := s.setCore n ((s.core n).satNow s.mono cls k)

/-- The elements of a task's outputs that saturated are counted, each once (R123). -/
def countHits (n : Nat) (t : TaskDesc) (hits : List Dest) (s : State) : State :=
  hits.eraseDups.foldl (fun s d => countSat n (s.outFmt t d.out).cls 1 s) s

/-- Stores an element of an output tensor. -/
def putElem (t : TaskDesc) (gen : Byte) (d : Dest) (v : Int) (s : State) : State :=
  match t.outs[d.out]? with
  | some slot => let w := (s.outFmt t d.out).width; writeTensor slot gen (d.elem * (w / 8)) (leBytes (w / 8) (BitVec.ofInt w v).toNat) s
  | none => s

/-- An element reaches its tensor, where it saturates in the tensor's format. Answers the element, where it saturated at any step. -/
def storeElem (t : TaskDesc) (gen : Byte) (d : Dest) (v : Int) (already : Bool) (s : State) : State × List Dest :=
  let f := s.outFmt t d.out
  let r := saturate f.width f.signed v
  (putElem t gen d r.1 s, if r.2 || already then [d] else [])

/-- A task whose elements pass the conversion unit (R125): MOVE from a queue that the host fills, EMIT to one that the host empties. -/
def State.converts (s : State) (t : TaskDesc) : Bool :=
  (t.kind = 4 && t.queueIn && (s.im.queue t.qin).prod = 8) || (t.kind = 6 && t.qoutEn && (s.im.queue t.qout).cons = 8)

/-- One element passes the conversion unit under its tensor's context (R125), and takes the width of the result. -/
def storeConverted (t : TaskDesc) (gen : Byte) (d : Dest) (w : Word) (s : State) : State :=
  let f := s.outFmt t d.out
  if f.cvtCtx = 31 then s
  else
    let (s, r) := convertIn f.cvtCtx w s
    let b := (cvtCfg (s.im.qformat.ctxs.getD f.cvtCtx 0)).outBytes
    match t.outs[d.out]? with
    | some slot => writeTensor slot gen (d.elem * b) (leBytes b r.toNat) s
    | none => s

/-- The output that a micro-operation stores elements in without conversion. -/
def plainOut : CoreOp → Option Nat
  | .mac _ _ _ _ d => some d.out
  | .vec _ _ d => some d.out
  | .lut _ _ d => some d.out
  | .store o _ _ => some o
  | .lift _ _ _ _ o => some o
  | .pillar _ _ o => some o
  | .cvt .. | .point .. | .post .. | .emit .. => none

/-- The micro-operations that a task can carry out: conversion is for the tasks that R125 names, and where such a task's tensor has a
context no element of it goes unconverted. (DESIGN CHOICE, log 9) -/
def State.opFits (s : State) (t : TaskDesc) (op : CoreOp) : Bool :=
  match op, plainOut op with
  | .cvt _ _, _ => s.converts t
  | .emit .., _ => t.kind = 6 && s.converts t
  | .post _, _ => !(t.kind = 6 && s.converts t && (List.range t.ins.length).any (fun i => (s.inFmt t i).cvtCtx ≠ 31))
  | _, some o => !(s.converts t && (s.outFmt t o).cvtCtx ≠ 31)
  | _, none => true

/-- Elements of an input tensor of a task of tick `k` as they leave a converting EMIT: each passes the context of its tensor, where it has one (R125). -/
def emitBytes (t : TaskDesc) (k : BitVec 64) (input first count : Nat) (s : State) : State × List Byte :=
  let f := s.inFmt t input
  (List.range count).foldl (fun acc i =>
    let w := BitVec.ofInt 32 (acc.1.inElem t k input (first + i))
    if f.cvtCtx = 31 then (acc.1, acc.2 ++ leBytes (f.width / 8) w.toNat)
    else
      let r := convertIn f.cvtCtx w acc.1
      (r.1, acc.2 ++ leBytes (cvtCfg (acc.1.im.qformat.ctxs.getD f.cvtCtx 0)).outBytes r.2.toNat)) (s, [])

/-- A task writes an entry with converted elements to its output queue: the data enters the queue's data area. (DESIGN CHOICE, log 9) -/
def emitEntry (t : TaskDesc) (k : BitVec 64) (input first count : Nat) (entry : List Byte) (s : State) : State :=
  if t.qoutEn then
    let r := emitBytes t k input first count s
    (postData t.qout (readEntry entry) r.2 r.1).1
  else s

/-- One micro-operation of a task of tick `k` but for placement into cells, which `placeOps` gathers. Answers the elements that saturated. (DESIGN CHOICE, log 9) -/
def runOp (n : Nat) (t : TaskDesc) (k : BitVec 64) (op : CoreOp) (s : State) : State × List Dest :=
  let gen := genOf k
  let chanOf (c : Nat) : Nat × Nat := channelAt s.mem (coreBase n + t.paramOfs + c)
  match op with
  | .mac wide bias terms chan d =>
    let f := s.outFmt t d.out
    let a := macSum wide bias terms
    let c := chanOf chan
    let r := requantise f.towardZero f.width f.signed c.1 c.2 a.1
    storeElem t gen d r.1 (a.2 || r.2) (countSat n 16 (b2n a.2) s)
  | .vec a steps d => let r := vecLane (s.outFmt t d.out).towardZero a steps; storeElem t gen d r.1 r.2 s
  | .lut input table d =>
    let r := lookup (s.outFmt t d.out).towardZero chanOf input table
    storeElem t gen d r.1 false (countSat n 17 (b2n r.2) s)
  | .cvt w d => (storeConverted t gen d w s, [])
  | .store o off bytes => match t.outs[o]? with
    | some slot => (writeTensor slot gen off bytes s, [])
    | none => (s, [])
  | .point stream entry x y z => (placePoint stream entry x y z s, [])
  | .post entry => (if t.qoutEn then (postEntry t.qout entry s).1 else s, [])
  | .emit input first count entry => (emitEntry t k input first count entry s, [])
  | .lift .. | .pillar .. => (s, [])

/-- Adds features into one cell of output `o`, with saturation (R195). Answers the elements that saturated. -/
def addCell (t : TaskDesc) (gen : Byte) (o cell : Nat) (features : List Int) (s : State) : State × List Dest :=
  let f := s.outFmt t o
  match t.outs[o]? with
  | none => (s, [])
  | some slot =>
    let base := (s.tensorAt slot gen).1
    features.zipIdx.foldl (fun (acc : State × List Dest) e =>
      let d : Dest := { out := o, elem := cell * s.im.grid.c + e.2 }
      let raw := ofLe (Memory.read acc.1.mem (base + d.elem * (f.width / 8)) (f.width / 8))
      let r := saturate f.width f.signed ((if f.signed then toSigned raw f.width else (raw : Int)) + e.1)
      (putElem t gen d r.1 acc.1, if r.2 then d :: acc.2 else acc.2)) (s, [])

/-- The pairs and pillars of a task's work that go into output `o`: pairs in ascending order of lift-table entry, pillars in
ascending order of cell (R195, R196). Answers the elements that saturated. -/
def placeOps (t : TaskDesc) (k : BitVec 64) (ops : List CoreOp) (o : Nat) (s : State) : State × List Dest :=
  let lifts := (ops.filterMap (fun p => match p with
    | .lift st g b fs out => if out = o then some (st, g, b, fs) else none
    | _ => none)).mergeSort (fun a b => a.2.1 < b.2.1 || (a.2.1 = b.2.1 && a.2.2.1 ≤ b.2.2.1))
  let pillars := (ops.filterMap (fun p => match p with
    | .pillar c fs out => if out = o then some (c, fs) else none
    | _ => none)).mergeSort (fun a b => a.1 ≤ b.1)
  if lifts.isEmpty && pillars.isEmpty then (s, [])
  else
    let gen := genOf k
    let s := match t.outs[o]? with
      | some slot => let a := s.tensorAt slot gen; { s with mem := Memory.clear s.mem a.1 a.2 }
      | none => s
    let r := lifts.foldl (fun (acc : State × List Dest) e =>
      match placePair e.1 e.2.1 e.2.2.1 k acc.1 with
      | (u, some c) => let r := addCell t gen o c e.2.2.2 u; (r.1, r.2 ++ acc.2)
      | (u, none) => (u, acc.2)) (s, [])
    pillars.foldl (fun (acc : State × List Dest) e => let r := addCell t gen o e.1 e.2 acc.1; (r.1, r.2 ++ acc.2)) r

/-- A task's work: the micro-operations in their order, at most QOUT_RESERVE entries posted, then the cells, then the counts. (DESIGN CHOICE, log 9) -/
def runWork (n : Nat) (t : TaskDesc) (k : BitVec 64) (work : List CoreOp) (s : State) : State :=
  let work := work.filter (s.opFits t)
  let isPost (p : CoreOp) : Bool := match p with | .post _ | .emit .. => true | _ => false
  let posts := (work.filter isPost).take t.qoutReserve
  let keep (f : State → State × List Dest) (acc : State × List Dest) : State × List Dest := let r := f acc.1; (r.1, acc.2 ++ r.2)
  let r := ((work.filter (fun p => !isPost p)) ++ posts).foldl (fun acc p => keep (runOp n t k p) acc) (s, [])
  let r := (List.range 4).foldl (fun acc o => keep (placeOps t k work o) acc) r
  countHits n t r.2 r.1

/-! ## The end of a task (R110, R112) -/

/-- Writes the output entries of a generation. -/
def writeOutputs (t : TaskDesc) (gen : Byte) (oldest : Oldest) (mask vote : Word) (s : State) : State :=
  t.outs.foldl (fun s o =>
    let s := putToken o gen (newToken s o gen oldest mask vote) s
    if s.im.ego.any (fun e => e.corrSlot = o) then { s with ego.corrNew := some gen } else s) s

/-- The latency of a camera stream's frame (R101). (DESIGN CHOICE, log 48) -/
def ingestLatency (stream posted : Nat) (s : State) : State :=
  let us := (s.mono - posted) / 1000
  let v : BitVec 16 := BitVec.ofNat 16 (min us 0xFFFF)
  let s := { s with sch.latLast := tset s.sch.latLast stream v
                    sch.latMax := tmod s.sch.latMax stream (fun m => if m.toNat < v.toNat then v else m) }
  if Config.ingestBound s.im.hdr.digest stream < us then raiseDet 51 (BitVec.ofNat 32 stream) s else s

/-- An INGEST release ends: only the one that takes FRAME_END sets the outputs. A frame whose token was voided sets none,
and the entries that it consumes are counted; a broken frame completes no token (R100, R110, R112). -/
def endIngest (t : TaskDesc) (j : Job) (s : State) : State :=
  if s.sch.late.contains (t.id, j.tick) || t.outs.any (fun o => (s.token o j.gen).isSome) then
    schVec { s with sch.voidCnt := satAdd s.sch.voidCnt (takenOf t j.entries j.frameEnd) }
  else if j.frameEnd && !j.broken then
    let s := writeOutputs t j.gen { stamp := j.capture, off := last.1 } 0 0 s
    match s.im.streams.streams.find? (fun d => d.kind = 0 && s.im.streamQueue d.stream = some t.qin) with
    | some d => ingestLatency d.stream last.2 s
    | none => s
  else s
where
  /-- Of the entry that ends the release, which still stands in its ring: the offset of its stamps, and the instant at which it was posted. -/
  last : Int × Nat := match (s.queued t.qin)[j.entries - 1]? with
    | some e => (s.entryOff t.qin e.1, alookup s.mono s.sch.frameEnds (offKey t.qin e.1))
    | none => (s.offset, s.mono)

/-- The GRID task ends: the vote and the back buffer, then the grid token (R203). -/
def endGrid (t : TaskDesc) (j : Job) (s : State) : State :=
  let (s, out) := gridWrite j.gen j.mask s
  writeOutputs t j.gen j.oldest j.mask (j.vote ||| out) s

/-- The outputs of a task that ends on core `n`. -/
def endOutputs (n : Nat) (t : TaskDesc) (j : Job) (s : State) : State :=
  if t.kind = 3 then endIngest t j s
  else if t.kind = 5 then endGrid t j s
  else match j.solve with
    | some r =>
      let o := solveOldest r n j.oldest s
      writeOutputs t j.gen o j.mask j.vote (deliverSolve n t r j.gen o s)
    | none => writeOutputs t j.gen j.oldest j.mask j.vote s

/-- A task ends on a core (R110). -/
def endTask (n : Nat) (j : Job) (cycles : Nat) (work : List CoreOp) (s : State) : State :=
  let t := s.taskOf j
  let s := judgeWcet n cycles s
  let c := s.core n
  let s := s.setCore n { c with
    job := none, tasksRun := satInc c.tasksRun, busyCyc := satAdd c.busyCyc cycles }
  let s := endOutputs n t j (runWork n t j.tick work s)
  let s := if t.queueIn then consume t.qin (takenOf t j.entries j.frameEnd) s else s
  markDone t.id j.tick { s with sch.ended := t.id :: s.sch.ended }

/-- TASK_END (R110): a running task that does not stall ends when its cycles have passed; a solve must have stopped. (DEDUCED, log 44) -/
def execTaskEnd (core : Nat) (cycles : Nat) (work : List CoreOp) (s : State) : Answer :=
  done (match (s.core core).job with
    | none => s
    | some j =>
      let m := j.startMono + ceilDiv (cycles * 1000) (max 1 s.clk.coreMhz)
      let stopped := match j.solve with | some r => decide (r.result ≠ .none) | none => true
      if (s.core core).stalled || !stopped || s.edgeBefore m then s
      else endTask core j cycles work (advanceTo m s))

/-! ## Solver steps (R134 to R137) -/

/-- The solve that runs on a core. -/
def State.solving (s : State) (n : Nat) : Option (Job × SolveRun) :=
  match (s.core n).job with
  | some j => match j.solve with
    | some r => if r.result = .none && !(s.core n).stalled && s.pwr.relockUntil ≤ s.mono then some (j, r) else none
    | none => none
  | none => none

/-- Puts a solve back on its core. -/
def putSolve (n : Nat) (j : Job) (r : SolveRun) (s : State) : State := s.setCore n { s.core n with job := some { j with solve := some r } }

/-- SOLVE_STEP_END (R136): before its deadline a step ends, and the next is checked. -/
def execSolveStepEnd (core : Nat) (step : SolveStep) (s : State) : Answer :=
  done (match s.solving core with
    | some (j, r) =>
      if r.deadline ≤ s.mono then s
      else
        let r' := stepSolve (s.taskOf j) j.tick step r s
        let s := countHits core (s.taskOf j) r'.2 (putSolve core j r'.1 s.drawn)
        if r'.1.result = .none then s else reportStop core r'.1 s
    | none => s)

/-- SOLVE_DEADLINE (R136, R137): the hard deadline stops a solve, stalled or not. -/
def execSolveDeadline (core : Nat) (cut : SolveCut) (s : State) : Answer :=
  done (match (s.core core).job with
    | some j => match j.solve with
      | some r =>
        if r.result ≠ .none || s.edgeBefore r.deadline then s
        else
          let r' := deadlineResult (s.taskOf j) j.tick r cut s
          let s := countHits core (s.taskOf j) r'.2 (advanceTo r.deadline s.drawn)
          reportStop core r'.1 (putSolve core j r'.1 s)
      | none => s
    | none => s)

/-! ## TAIL writes of the host (R97, R99) -/

/-- An entry that the host has written in the ring is taken: as `postEntry`, at the producer index. -/
def acceptEntry (q : Nat) (s : State) : State := (postEntry q (Memory.read s.mem ((s.im.queue q).entryAddr (s.que q).tail) 32) s).1

/-- Steps from the producer index to the index written; none for an index that the ring does not have. (DEDUCED, log 40) -/
def tailSteps (b : QueueBind) (tail value : BitVec 13) : Option Nat :=
  let pos (i : BitVec 13) : Nat := (if i.toNat < 4096 then 0 else b.size) + b.place i
  if b.size ≤ value.toNat % 4096 then none else some ((pos value + 2 * b.size - pos tail) % (2 * b.size))

/-- A write of TAIL of a queue with a host producer; a queue of another producer ignores it. -/
def tailWrite (q : Nat) (value : BitVec 13) (s : State) : State :=
  let b := s.im.queue q
  if b.prod ≠ 8 then s
  else match tailSteps b (s.que q).tail value with
    | none => s.setQue q { s.que q with stat := stBadArg }
    | some n =>
      let room := s.room q
      let s := (List.range (min n room)).foldl (fun s _ => acceptEntry q s) s
      s.setQue q { s.que q with stat := if room < n then stBadArg else stOk, drop := satAdd (s.que q).drop (n - room) }

/-- QUEUE_TAIL_WRITE (R97). -/
def execQueueTailWrite (src : Source) (queue : Nat) (value : BitVec 13) (s : State) : Answer :=
  done (judged src (0x2100C + 0x20 * queue) (tailWrite queue value) s)

/-! ## The scoreboard peek -/

/-- A write of PEEK_SLOT. (DEDUCED, log 40) -/
def peekWrite (slot : BitVec 13) (entry : Bool) (s : State) : State :=
  let s := { s with sch.peekSlot := slot, sch.peekEntry := entry }
  match s.im.slot slot.toNat with
  | some d => { s with sch.peekStat := stOk, sch.peekDouble := d.double
                       sch.peek := alookup {} s.sch.tokens (2 * slot.toNat + b2n (d.double && entry)) }
  | none => { s with sch.peekStat := stBadArg }

/-- SCOREBOARD_PEEK (R105). -/
def execScoreboardPeek (src : Source) (slot : BitVec 13) (entry : Bool) (s : State) : Answer := done (judged src 0x20020 (peekWrite slot entry) s)

/-- CVT_TEST_CONVERT (R130). -/
def execCvtTestConvert (src : Source) (value : Word) (s : State) : Answer := done (judged src 0xC014 (testConvert value) s)

end Sys2Proof.Machine
end

