-- ==== Sys2Proof/Machine/ArcCmd.lean ====
section
/-! DEFINITION. The archive's window, its command sequence, its commands and the device's own repairs (R217, R219, R225 to
R251 of 11_archive_array.md and 12_archive_commands.md). -/
namespace Sys2Proof.Machine

/-! ## The end of a program, an erase, a blank check and a swap -/

/-- The operation in progress ends where it has the code of the command. -/
def endOf (code : Byte) (s : State) : State :=
  match s.arc.prog with
  | some p => if p.code = code && decide (p.since ≤ s.mono) then progEnds s else s
  | none => s

/-- PROGRAM_END (R251). -/
def execProgramEnd (s : State) : Answer := done (endOf 0x10 s)

/-- SWAP_BOOT_END (R249). -/
def execSwapBootEnd (s : State) : Answer := done (endOf 0x60 s)

/-- BLANK_CHECK_END (R248). -/
def execBlankCheckEnd (s : State) : Answer := done (endOf 0x70 s)

/-- ERASE_END (R237): a running erase completes. -/
def execEraseEnd (s : State) : Answer :=
  let s := arcNow s
  done (match s.arc.erase with
    | some e =>
      if e.suspended || e.byDevice || decide (s.mono < e.since) then s
      else
        let s := eraseDone e.bank e.index { s with arc.erase := none, arc.eraseRunUs := BitVec.ofNat 32 (e.ran s.mono / 1000) }
        answerErase e.owner (arcEnd e.code stOk (arcCount 1 s))
    | none => s)

/-- SUSPEND_EFFECT (R239): the deferred suspension, once the minimum is met. -/
def execSuspendEffect (s : State) : Answer :=
  let s := arcNow s
  done (match s.arc.erase with
    | some e => if e.pendHost && !e.suspended && !s.edgeBefore e.minMet then
        let s := advanceTo e.minMet s
        if e.byDevice then arcNow s else suspendNow e s
      else s
    | none => s)

/-! ## The judgement of a completed sequence (R233) -/

/-- Data words that a command requires (R234). -/
def arcWords (code : Byte) : Nat := if code = 0x10 then 8 else if code = 0x50 then 1 else if code = 0x60 then 1 else 0

/-- The codes of R234. -/
def arcCodes : List Byte := [0x01, 0x10, 0x20, 0x21, 0x30, 0x31, 0x40, 0x50, 0x58, 0x60, 0x70, 0x7F]

/-- Step 3: the address and the data fields. -/
def arcArgsOk (code : Byte) (a : Nat) (data : List Word) : Bool :=
  let d := (data.getD 0 0).toNat
  if [0x01, 0x30, 0x31, 0x58, 0x60, 0x7F].contains code then a = 0 && !(code = 0x60 && 2 ≤ d)
  else match sectorOf a with
    | none => false
    | some (b, i) =>
      if code = 0x10 then a % 32 = 0
      else a = sectorBase b i &&
        (if code = 0x20 then 8 ≤ i else if code = 0x21 then i < 8
          else if code = 0x50 then decide (1 ≤ field d 0 10) && field d 10 21 = 0 && decide (i + field d 0 10 ≤ 518)
          else true)

/-- A command that programs or erases a named word or sector. -/
def arcWrites (code : Byte) : Bool := code = 0x10 || code = 0x20 || code = 0x21

/-- Step 4: the target is protected. -/
def arcProtected (code : Byte) (a : Nat) (s : State) : Bool :=
  if code = 0x50 then s.arc.locked
  else arcWrites code && (match sectorOf a with | some (b, i) => s.fixedArea b i || s.arc.wp b i | none => false)

/-- A host program or erase aimed at the sector, or in its bank, waits for the re-erase of marked sectors (R238). -/
def State.reeraseDue (s : State) (bank : Bool) : Bool :=
  s.arc.markedList.any (fun m => m.1 = bank && !(match s.arc.erase with | some e => e.bank = m.1 && e.index = m.2 | none => false))

/-- The sector of an address carries INCOMPLETE. -/
def State.markedAt (s : State) (a : Nat) : Bool := match sectorOf a with | some (b, i) => (s.arc.hdr b i).incomplete | none => false

/-- Step 5: the array is not free for the command (R230, R238, R240, R270); READ_ID, SET_WP, LOCK_WP and CLEAR_STATUS do not need it. (DESIGN CHOICE, log 61) -/
def arcBusy (code : Byte) (a : Nat) (s : State) : Bool :=
  if code = 0x30 then decide (s.crd.ejState ≠ 0)
  else if code = 0x31 then s.arc.prog.isSome || s.devRuns
  else if s.devRuns || (code ≠ 0x60 && s.markedAt a) then true
  else
    let at_ := sectorOf a
    let onErase := match s.arc.erase, at_ with
      | some e, some (b, i) => !e.suspended || code = 0x20 || code = 0x21 || code = 0x60 || (e.bank = b && e.index = i)
      | some _, none => true
      | none, _ => false
    let bank := if code = 0x60 then false else (match at_ with | some (b, _) => b | none => false)
    let writing := arcWrites code || code = 0x60
    s.arc.prog.isSome || onErase || (writing && s.reeraseDue bank) || (arcWrites code && s.crd.ejState ≠ 0)

/-! ## The commands (R235 to R250) -/

/-- PROGRAM_WORD: the blank test, then the program begins (R235). (DESIGN CHOICE, log 61) -/
def startProgram (src : Source) (a : Nat) (data : List Word) (s : State) : State :=
  if s.arc.isBlank a then
    arcStat 0x10 stOk { s with arc.prog := some { owner := .host src, code := 0x10, addr := a, data := bytesOf data, since := s.mono } }
  else arcEnd 0x10 stProgramTwice (arcCount 2 s)

/-- ERASE_SECTOR and ERASE_PARAM: INCOMPLETE is set and the erase runs (R237). (DESIGN CHOICE, log 61) -/
def startErase (src : Source) (code : Byte) (a : Nat) (s : State) : State :=
  match sectorOf a with
  | some (b, i) =>
    let arc := (s.arc.setHdr b i { s.arc.hdr b i with incomplete := true }).invalidate (sectorBase b i) (sectorSize i)
    arcStat code stOk { s with arc := { arc with erase := some { owner := .host src, code := code, bank := b, index := i, since := s.mono } } }
  | none => s

/-- SUSPEND (R239). (DESIGN CHOICE, log 61) -/
def doSuspend (s : State) : State :=
  match s.arc.erase with
  | none => arcStat 0x30 stBadArg s
  | some e =>
    if e.suspended || e.pendHost || e.hostSusp then arcStat 0x30 stBadArg s
    else if e.byDevice && decide (e.since ≤ s.mono) then suspendNow e s
    else if e.minMet ≤ s.mono then suspendNow e s
    else arcStat 0x30 stSuspendDeferred { s with arc.erase := some { e with pendHost := true } }

/-- RESUME (R241). (DESIGN CHOICE, log 61) -/
def doResume (s : State) : State :=
  match s.arc.erase with
  | none => arcStat 0x31 stBadArg s
  | some e =>
    if e.suspended then arcEnd 0x31 stOk { s with arc.erase := some { e with suspended := false, hostSusp := false, since := s.mono } }
    else if e.pendHost then arcEnd 0x31 stOk { s with arc.erase := some { e with pendHost := false } }
    else arcStat 0x31 stBadArg s

/-- READ_ID (R246). -/
def doReadId (s : State) : State := arcStat 0x01 stOk (arcResults [0x02564C59, 0x01FE0802, 0x00000320, 0] s)

/-- READ_COUNTER (R247). (DESIGN CHOICE, log 61) -/
def doReadCounter (a : Nat) (s : State) : State :=
  match sectorOf a with
  | some (b, i) =>
    let h := s.arc.hdr b i
    arcEnd 0x40 stOk (arcResults [pack [(0, 24, h.count.toNat), (24, 1, b2n h.incomplete), (25, 1, b2n (decide (endurance i < h.count.toNat)))],
      pack [(0, 10, i), (10, 1, b2n b)], tget s.arc.results 2, tget s.arc.results 3] s)
  | none => s

/-- SET_WP (R244): the base of a range. -/
def doSetWp (a : Nat) (d : Nat) (s : State) : State :=
  match sectorOf a with
  | some (b, i) =>
    let mask := overlayOf ((List.range (field d 0 10)).map (fun k => (b, i + k))) b
    let upd (v : BitVec 544) : BitVec 544 := if bitOf d 31 then v ||| mask else v &&& ~~~mask
    arcStat 0x50 stOk (if b then { s with arc.base1 := upd s.arc.base1 } else { s with arc.base0 := upd s.arc.base0 })
  | none => s

/-- The digest prefix of the twin that SWAP_BOOT may name (R249). -/
def swapPrefix (twin : Twin) (s : State) : Option Word :=
  if s.img.stage = 3 && s.img.stgTwin = twin then some (digestPrefixOf s.img.stgDigest)
  else if s.img.run.isSome && s.img.runTwin = twin then some s.runPrefix
  else none

/-- SWAP_BOOT (R249): the selector word is programmed; a sector without room is erased first (R219). (DESIGN CHOICE, log 61) -/
def startSwap (src : Source) (d : Nat) (s : State) : State :=
  let twin : Twin := if bitOf d 0 then .b else .a
  match swapPrefix twin s, s.arc.selectorRoom with
  | some p, true =>
    let seq := s.arc.nextSeq
    let (s, place) := selectorSpace s
    arcStat 0x60 stOk { s with arc.prog := some { owner := .host src, code := 0x60, addr := 32 * place, data := selectorBytes seq twin p, since := s.mono } }
  | _, _ => arcStat 0x60 stBadArg s

/-- CLEAR_STATUS (R250). -/
def doClearStatus (s : State) : State := { s with arc.stat := 0, arc.echo := 0, arc.worn := false, arc.done := false }

/-- Step 6: execution. -/
def arcRun (src : Source) (code : Byte) (a : Nat) (data : List Word) (s : State) : State :=
  let d := (data.getD 0 0).toNat
  if code = 0x01 then doReadId s
  else if code = 0x10 then startProgram src a data s
  else if code = 0x20 || code = 0x21 then startErase src code a s
  else if code = 0x30 then doSuspend s
  else if code = 0x31 then doResume s
  else if code = 0x40 then doReadCounter a s
  else if code = 0x50 then doSetWp a d s
  else if code = 0x58 then arcStat 0x58 stOk { s with arc.locked := true }
  else if code = 0x60 then startSwap src d s
  else if code = 0x70 then arcStat 0x70 stOk { s with arc.prog := some { owner := .host src, code := 0x70, addr := a, since := s.mono } }
  else doClearStatus s

/-- A completed sequence, judged in the order of R233. -/
def arcJudge (src : Source) (code : Byte) (a : Nat) (data : List Word) (s : State) : State :=
  if !s.mode.fromArmed then rejectCmd src 0x8000 code.toNat (arcStat code stNotInState s)
  else if !arcCodes.contains code || !arcArgsOk code a data then arcStat code stBadArg s
  else if arcProtected code a s then arcCount 4 (arcStat code stProtected s)
  else if [0x01, 0x50, 0x58, 0x7F].contains code then arcRun src code a data s
  else
    let s := arcNow s
    if arcBusy code a s then arcStat code stBusy s else arcRun src code a data s

/-! ## The sequence (R231, R232) -/

/-- The command code of a sequence, where it has one. -/
def SeqStep.code : SeqStep → Option Byte
  | .cmd c => some c
  | .addr c _ _ _ => some c
  | _ => none

/-- A sequence fails: it closes, and STAT tells why, with CMD_ECHO the code of its command, or 0 where it had none yet (R251). (DESIGN CHOICE, log 60) -/
def seqFail (st : Byte) (s : State) : State :=
  arcCount 3 { arcStat ((s.arc.seq.bind (fun q => q.step.code)).getD 0) st s with arc.seq := none }

/-- A sequence whose limit has passed has failed at that instant. (DESIGN CHOICE, log 60) -/
def seqLapse (s : State) : State :=
  match s.arc.seq with
  | some q =>
    if q.step = .key1 then (if q.key1 + 1000 < s.mono then seqFail stKeyError s else s)
    else if q.key2 + 1000000 < s.mono then seqFail stTimeout s else s
  | none => s

/-- The open sequence advances. -/
def seqStep (q : ArcSeq) (st : SeqStep) (s : State) : State := { s with arc.seq := some { q with step := st } }

/-- The sequence completes. -/
def seqDone (src : Source) (code : Byte) (a : Nat) (data : List Word) (s : State) : State := arcJudge src code a data { s with arc.seq := none }

/-- A write of ARC_KEY. (DESIGN CHOICE, log 60) -/
def keyWrite (src : Source) (key : Byte) (s : State) : State :=
  let s := seqLapse s
  match s.arc.seq with
  | none => if key = 0xA9 then { s with arc.seq := some { src := src, step := .key1, key1 := s.mono, key2 := 0 } } else seqFail stKeyError s
  | some q =>
    if q.src ≠ src then { s with arc.seqBusy := satInc s.arc.seqBusy }
    else if q.step = .key1 && key = 0x6C then seqStep { q with key2 := s.mono } .key2 s
    else seqFail stKeyError s

/-- A write of ARC_CMD, ARC_ADDR or an ARC_DATA register. (DESIGN CHOICE, log 60) -/
def seqWrite (src : Source) (reg : ArcReg) (v : Word) (s : State) : State :=
  let s := seqLapse s
  match s.arc.seq with
  | none => seqFail stKeyError s
  | some q =>
    if q.src ≠ src then { s with arc.seqBusy := satInc s.arc.seqBusy }
    else match q.step, reg with
      | .key2, .cmd => seqStep q (.cmd (v.setWidth 8)) s
      | .cmd c, .addr =>
        let a := v.toNat % 0x10000000
        if arcWords c = 0 then seqDone src c a [] s else seqStep q (.addr c a [] (arcWords c)) s
      | .addr c a ds n, .data i =>
        if i ≠ ds.length then seqFail stKeyError s
        else if ds.length + 1 = n then seqDone src c a (ds ++ [v]) s
        else seqStep q (.addr c a (ds ++ [v]) n) s
      | _, _ => seqFail stKeyError s

/-- A write of the sequence's registers: the block must be live; the state is judged when the sequence completes. (DESIGN CHOICE, log 60) -/
def arcJudged (src : Source) (a : Nat) (f : State → State) (s : State) : State :=
  if !s.hears src then s else if !s.live 8 then rejectReg src a s else f s

/-- Address of a register of the sequence. -/
def arcRegAddr : ArcReg → Nat
  | .cmd => 0x8004
  | .addr => 0x8008
  | .data i => 0x800C + 4 * i

/-- ARC_KEY (R232). -/
def execArcKey (src : Source) (key : Byte) (s : State) : Answer := done (arcJudged src 0x8000 (keyWrite src key) s)

/-- ARC_SEQUENCE_WRITE (R232). -/
def execArcSequenceWrite (src : Source) (reg : ArcReg) (value : Word) (s : State) : Answer :=
  done (arcJudged src (arcRegAddr reg) (seqWrite src reg value) s)

/-- ARC_KEY_TIMEOUT (R232). -/
def execArcKeyTimeout (s : State) : Answer :=
  done (match s.arc.seq with
    | some q => if q.step = .key1 && !s.edgeBefore (q.key1 + 1000) then seqFail stKeyError (advanceTo (q.key1 + 1000) s) else s
    | none => s)

/-- ARC_SEQ_TIMEOUT (R232). -/
def execArcSeqTimeout (s : State) : Answer :=
  done (match s.arc.seq with
    | some q => if q.step ≠ .key1 && !s.edgeBefore (q.key2 + 1000000) then seqFail stTimeout (advanceTo (q.key2 + 1000000) s) else s
    | none => s)

/-- The write that completes the sequence of a command: a write of ARC_ADDR, or of the last data word. Nothing happens
where the open sequence of the source has another command. (DESIGN CHOICE, log 60) -/
def arcLast (src : Source) (code : Byte) (last : Word) (s : State) : State :=
  let reg : ArcReg := if arcWords code = 0 then .addr else .data (arcWords code - 1)
  let other := match s.arc.seq with
    | some q => q.src = src && (match q.step.code with | some c => c ≠ code | none => false)
    | none => false
  if other then s else arcJudged src (arcRegAddr reg) (seqWrite src reg last) s

/-- READ_ID (R246). -/
def execReadId (src : Source) (last : Word) (s : State) : Answer := done (arcLast src 0x01 last s)

/-- PROGRAM_WORD (R235). -/
def execProgramWord (src : Source) (last : Word) (s : State) : Answer := done (arcLast src 0x10 last s)

/-- ERASE_SECTOR (R237). -/
def execEraseSector (src : Source) (last : Word) (s : State) : Answer := done (arcLast src 0x20 last s)

/-- ERASE_PARAM (R237). -/
def execEraseParam (src : Source) (last : Word) (s : State) : Answer := done (arcLast src 0x21 last s)

/-- SUSPEND (R239). -/
def execSuspend (src : Source) (last : Word) (s : State) : Answer := done (arcLast src 0x30 last s)

/-- RESUME (R241). -/
def execResume (src : Source) (last : Word) (s : State) : Answer := done (arcLast src 0x31 last s)

/-- READ_COUNTER (R247). -/
def execReadCounter (src : Source) (last : Word) (s : State) : Answer := done (arcLast src 0x40 last s)

/-- SET_WP (R244). -/
def execSetWp (src : Source) (last : Word) (s : State) : Answer := done (arcLast src 0x50 last s)

/-- LOCK_WP (R245). -/
def execLockWp (src : Source) (last : Word) (s : State) : Answer := done (arcLast src 0x58 last s)

/-- SWAP_BOOT (R249). -/
def execSwapBoot (src : Source) (last : Word) (s : State) : Answer := done (arcLast src 0x60 last s)

/-- BLANK_CHECK (R248). -/
def execBlankCheck (src : Source) (last : Word) (s : State) : Answer := done (arcLast src 0x70 last s)

/-- CLEAR_STATUS (R250). -/
def execClearStatus (src : Source) (last : Word) (s : State) : Answer := done (arcLast src 0x7F last s)

/-! ## The window (R222, R226 to R229) -/

/-- The area that hides a sector from window reads. -/
def State.hides (s : State) (bank : Bool) (i : Nat) : Bool :=
  s.im.arcArea.areas.any (fun a => a.hide && decide (a.bank = 1) = bank && decide (a.first ≤ i) && decide (i < a.first + a.count))

/-- The status of a window read that is refused. -/
def winRefuse (st : Byte) (s : State) : State × Word := ({ s with arc.winLast := st, arc.winTorn := false }, refusal st)

/-- Line 3 holds the line of an address: it is filled on a miss, and the fill reports (R225, R226). (DESIGN CHOICE, log 62) -/
def fillLine3 (line : Nat) (s : State) : State :=
  match s.arc.line3 with
  | some (b, _, _) => if b = line then s else fill
  | none => fill
where
  fill : State := { eccLine line s with arc.line3 := some (line, s.arc.errsAt line, s.arc.errsAt (line + 32)) }

/-- The bit errors of the addressed word of line 3, as it was filled. -/
def Arc.held3 (arc : Arc) (a : Nat) : Nat :=
  match arc.line3 with
  | some (b, e0, e1) => if a = b then e0 else e1
  | none => 0

/-- A window read of the archive address `a` (R229). (DESIGN CHOICE, log 62) -/
def winRead (a : Nat) (s : State) : State × Word :=
  match sectorOf a with
  | none => winRefuse stProtected s
  | some (b, i) =>
    if s.hides b i then winRefuse stProtected s
    else if (match s.arc.erase with | some e => decide (e.bank = b) | none => false) || s.devNow.any (fun o => o.erases && o.bank = b) then
      winRefuse stBusy { s with arc.winBusy := satInc s.arc.winBusy }
    else
      let s := if s.arc.hostOccupies b then progEnds s else s
      let s := fillLine3 (a / 64 * 64) s
      let w := a / 32 * 32
      match s.arc.classAs (s.arc.held3 w) w with
      | .uncorrectable =>
        let s := { s.drawn with arc.eccLast := BitVec.ofNat 2 (Config.freeNat s.freeCtr) }
        winRefuse stCrcError s
      | c => ({ s with arc.winLast := stOk, arc.winTorn := decide (c = .torn), arc.eccLast := BitVec.ofNat 2 c.count },
              BitVec.ofNat 32 (at32 c.data (a % 32)))

/-- The archive address of a window offset (R227). -/
def State.winAddr (s : State) (off : Nat) : Nat := s.arc.winPage.toNat * 0x02000000 + off

/-- ARC_WINDOW_READ (R228, R229). The row's offset counts from the window's first byte; a read that is not word aligned or
not of a whole word has no effect (R9). -/
def execArcWindowRead (src : Source) (place : Access) (ecc : EccView) (s : State) : Answer :=
  let a := 0x02000000 + place.addr
  done (if !s.hears src then s
    else if place.addr % 4 ≠ 0 || !place.whole then s.say (.read src a (refusal stBadArg))
    else if !s.live 8 then s.say (.read src a (refusal stNotInState))
    else
      let (s, w) := winRead (s.winAddr place.addr) (s.showing ecc)
      s.say (.read src a w))

/-- ARC_WINDOW_WRITE (R228). -/
def execArcWindowWrite (src : Source) (_off : Nat) (s : State) : Answer :=
  done (if s.hears src && s.live 8 then { s with arc.winWrIgn := satInc s.arc.winWrIgn } else s)

/-- ECC_WARN_WRITE (R225): a write of 0 leaves the threshold unchanged. (DEDUCED, log 16) -/
def eccWarnWrite (value : BitVec 2) (s : State) : State := if value = 0 then s else { s with arc.eccWarn := value }

/-- ECC_WARN_WRITE (R225). -/
def execEccWarnWrite (src : Source) (value : BitVec 2) (s : State) : Answer := done (judged src 0x8108 (eccWarnWrite value) s)

/-! ## Repairs (R217, R238) -/

/-- No operation is on the array. -/
def State.arrayFree (s : State) : Bool := s.arc.prog.isNone && s.arc.erase.isNone && decide (s.arc.devUntil ≤ s.mono)

/-- A host erase that is suspended is resumed (R270, step 3). -/
def ejectErase (s : State) : State :=
  match s.arc.erase with
  | some e => if e.suspended then { s with arc.erase := some { e with suspended := false, hostSusp := false, since := s.mono } } else s
  | none => s

/-- INCOMPLETE_REERASE (R238): the first marked sector. (DESIGN CHOICE, log 62) -/
def execIncompleteReerase (s : State) : Answer :=
  done (match s.mode.fromArmed && s.arrayFree, s.arc.markedList with
    | true, (b, i) :: _ => devErase b i (arcCount 6 s)
    | _, _ => s)

/-- First word number of a firmware copy, and its words. -/
def fwWord (bank : Bool) : Nat := sectorBase bank 510 / 32
def fwWords : Nat := 8 * 0x40000 / 32

/-- The words of the valid copy that the other copy lacks, at their addresses there. -/
def Arc.fwMissing (arc : Arc) (fromBank : Bool) : List (Nat × List Byte) :=
  let lo := fwWord fromBank
  let hi := fwWord (!fromBank)
  (arc.words.filter (fun w => lo ≤ w.1 && w.1 < lo + fwWords && arc.isBlank (32 * (w.1 - lo + hi)))).filterMap (fun w => match w.2 with
    | .prog b => some (32 * (w.1 - lo + hi), b)
    | .torn => none)

/-- The firmware reads the valid copy and programs the words into the other as a device operation (R217). (DESIGN CHOICE, log 62) -/
def copyFirmware (fromBank : Bool) (s : State) : State :=
  let s := ctlRead (32 * fwWord fromBank) (32 * fwWords) s
  devRun (s.arc.fwMissing fromBank) s

/-- FIRMWARE_REPAIR (R217). -/
def execFirmwareRepair (sigOk : Bool) (s : State) : Answer :=
  done (if s.mode.fromArmed && s.arrayFree && s.arc.fw0 ≠ s.arc.fw1 then
    let bad := s.arc.fw0
    if s.arc.markedList.any (fun m => m.1 = bad && 510 ≤ m.2) then s
    else
      let s := copyFirmware (!bad) s
      if !sigOk then s else if bad then { s with arc.fw1 := true } else { s with arc.fw0 := true }
  else s)

end Sys2Proof.Machine
end

