-- ==== Sys2Proof/Machine/Ports.lean ====
section
/-! DEFINITION. The commands of the sensor ports: cameras, Ethernet, CAN FD, SPI and GPIO (08_sensor_ports.md). -/
namespace Sys2Proof.Machine

/-! ## Common rules (R70, R143, R144) -/

/-- The states in which ports post entries. -/
def Mode.posts : Mode → Bool
  | .armed | .run | .degraded => true
  | _ => false

/-- An entry of a port goes to the queue of its stream, if it has one, with the offset at which its capture was stamped. Answers whether it was
posted. (DEDUCED, log 40) -/
def portPost (stream : Nat) (off : Int) (e : QEntry) (data : List Byte) (s : State) : State × Bool :=
  match s.im.streamQueue stream with
  | some q =>
    let r := postData q { e with stream := stream } data s
    if r.2 then (setOff q (s.nextPlace q) off r.1, true) else r
  | none => (s, false)

/-- SEQ of a port entry: the count of received frames of the stream, this one included (R159). (DEDUCED, log 40) -/
def nextSeq (stream : Nat) (s : State) : State × Nat :=
  let x := s.strm stream
  (s.setStrm stream { x with seq := x.seq + 1 }, (x.seq + 1).toNat)

/-- GEN of an entry that is assigned to no single tick (R172): left open. -/
def openGen (s : State) : State × Byte := (s.drawn, Config.freeByte s.freeCtr)

/-! ## Cameras (R148 to R154, R100, R173) -/

/-- Counters of a receiver. -/
def camCount (r i : Nat) (s : State) : State := s.setCam r { s.cam r with cnt := tinc (s.cam r).cnt i }

/-- The part of the image for a receiver, and one of its bindings. -/
def State.camPart (s : State) (r : Nat) : CamPart := s.im.ports.cams.getD r {}
def State.binding (s : State) (r b : Nat) : CamBinding := (s.camPart r).bindings.getD b {}

/-- The receiver is bound and terminated: it has a binding in use. -/
def State.camBound (s : State) (r : Nat) : Bool := (s.camPart r).en && (s.camPart r).bindings.any (fun b => b.bound)

/-- Lines for each entry of a binding: QIN_GROUP of the stream's ingest task. (DEDUCED, log 42) -/
def groupOf (s : State) (b : CamBinding) : Nat := match s.im.ingestOf b.stream with | some t => max 1 t.qinGroup | none => b.height

/-- Lines received that no entry has posted: the open group. (DEDUCED, log 42) -/
def pendingLines (f : OpenFrame) : Nat := f.line - f.sent

/-- LENGTH of an entry of `n` lines; where 16 bits cannot hold it, its value is left open. (DESIGN CHOICE, log 49) -/
def lineBytes (n step : Nat) (s : State) : State × Nat := if n * step < 65536 then (s, n * step) else (s.drawn, Config.freeNat s.freeCtr % 65536)

def setOpen (r b : Nat) (f : Option OpenFrame) (s : State) : State := s.setCam r { s.cam r with opens := tset (s.cam r).opens b f }

/-- Posts the open group of a frame (R98, R149). (DEDUCED, log 42; DESIGN CHOICE, log 49) -/
def postGroup (r b : Nat) (f : OpenFrame) (last cut : Bool) (status : Byte) (s : State) : State :=
  let bd := s.binding r b
  let n := pendingLines f
  let ring := max 1 bd.lringLines
  let first := (tget (s.cam r).pos b + ring - n % ring) % ring
  let (s, len) := lineBytes n bd.lineStep s
  let e : QEntry := {
    len := len, stream := bd.stream, capValid := true, frameStart := !f.posted, frameEnd := last, broken := cut
    addr := bd.ringBase + first * bd.lineStep, arrival := f.arrival, capture := f.capture, seq := f.sent, frameNo := f.frameNo.toNat
    status := if status ≠ stOk then status else if f.groupBad then stCrcError else stOk, gen := f.gen }
  let s := match s.im.streamQueue bd.stream with
    | some q =>
      let place := s.nextPlace q
      let (s, ok) := postEntry q e.bytes s
      if ok then
        let s := setOff q place f.off s
        let s := s.setCam r { s.cam r with used := tmod (s.cam r).used b (fun l => l ++ [n]) }
        if last then { s with sch.frameEnds := aset 0 s.sch.frameEnds (offKey q place) s.mono } else s
      else s
    | none => s
  setOpen r b (some { f with posted := true, sent := f.line, groupBad := false }) s

/-- A frame is cut (R100, R152): a last entry with FRAME_END and BROKEN, and the rest of the frame is discarded. -/
def cutFrame (r b : Nat) (f : OpenFrame) (status : Byte) (s : State) : State :=
  let s := camCount r 1 (postGroup r b f true true status s)
  setOpen r b (some { f with drop := true, posted := true }) s

/-- The cut of a line-ring overrun (R100). -/
def cutOverrun (r b : Nat) (f : OpenFrame) (s : State) : State :=
  let s := cutFrame r b f stAborted s
  raiseDet (58 + r) (BitVec.ofNat 32 r) (schVec { s with sch.lineOvr := satInc s.sch.lineOvr })

/-- The cut of a frame with too many damaged lines (R152): as in R100, its third step included. (DESIGN CHOICE, log 49) -/
def cutDamaged (r b : Nat) (f : OpenFrame) (s : State) : State :=
  let s := cutFrame r b f stCrcError s
  raiseDet (58 + r) (BitVec.ofNat 32 r) { s with sch.lineOvr := satInc s.sch.lineOvr }

/-- Line buffers of a binding that are in use: of posted entries and of the open group. -/
def linesUsed (r b : Nat) (f : OpenFrame) (s : State) : Nat :=
  ((tget (s.cam r).used b).foldl (· + ·) 0) + pendingLines f

/-- One line enters the line ring, `data` none for a line that is written as zeros (R151). A full group is posted. (DESIGN CHOICE, log 49) -/
def takeLine (r b : Nat) (data : Option (List Byte)) (bad : Bool) (s : State) : State :=
  match tget (s.cam r).opens b with
  | none => s
  | some f =>
    if f.drop then s
    else
      let bd := s.binding r b
      let ring := max 1 bd.lringLines
      if ring ≤ linesUsed r b f s then cutOverrun r b f s
      else
        let pos := tget (s.cam r).pos b
        let bytes := match data with | some d => fitBytes bd.lineLen d | none => zeros bd.lineLen
        let s := { s with mem := Memory.write s.mem (bd.ringBase + pos * bd.lineStep) bytes }
        let s := s.setCam r { s.cam r with pos := tset (s.cam r).pos b ((pos + 1) % ring) }
        let f := { f with line := f.line + 1, damaged := f.damaged + (if bad then 1 else 0), groupBad := f.groupBad || bad }
        if bd.lineErrMax < f.damaged then cutDamaged r b f s
        else if pendingLines f = groupOf s bd && f.line < bd.height then postGroup r b f false false stOk s
        else setOpen r b (some f) s

/-- Lines that never came are written as zeros (R151). -/
def fillLines (r b : Nat) : Nat → State → State
  | 0, s => s
  | n + 1, s =>
    match tget (s.cam r).opens b with
    | some f => if f.drop || (s.binding r b).height ≤ f.line then s else fillLines r b n (takeLine r b none true s)
    | none => s

/-- A packet reaches a receiver: ignored where its lanes are unterminated; its header is judged (R151), and a receiver
outside the posting states counts it (R144). `k` goes on with a readable header. -/
def camPacket (r : Nat) (ecc : HdrEcc) (bad : State → State) (k : State → State) (s : State) : State :=
  if !s.mode.ticks || !s.camBound r then s
  else
    let s := s.setCam r { s.cam r with hs := true }
    let s := match ecc with
      | .clean => s
      | .corrected => camCount r 2 s
      | .uncorrectable => camCount r 3 s
    if !s.mode.posts then camCount r 9 s
    else if ecc = .uncorrectable then bad s else k s

/-- The bindings in use of a virtual channel. -/
def State.bindingsOf (s : State) (r vc : Nat) : List Nat := (List.range 4).filter (fun b => (s.binding r b).bound && (s.binding r b).vc = vc)

/-- Stream counters LATE, OUT_WIN and SURPLUS. (DESIGN CHOICE, log 49) -/
def strmLate (n : Nat) (s : State) : State := s.setStrm n { s.strm n with late := satInc (s.strm n).late }
/-- DESIGN CHOICE, log 49. -/
def strmOut (n : Nat) (s : State) : State := s.setStrm n { s.strm n with outWin := satInc (s.strm n).outWin }
/-- DESIGN CHOICE, log 49. -/
def strmSurplus (n : Nat) (s : State) : State := s.setStrm n { s.strm n with surplus := satInc (s.strm n).surplus }

/-- The registrar assigns a camera frame to a tick at its frame start, or discards it (R173). -/
def assignFrame (n : Nat) (c : BitVec 64) (s : State) : State × Option (BitVec 64) :=
  match s.im.stream n with
  | none => (s, none)
  | some d =>
    if !d.gather then (s, none)
    else if !s.tck.ticked then (strmOut n s, none)
    else
      let past := decide (c.toNat < s.tck.bound)
      let k := if past then s.tck.index else s.tck.index + 1
      let tk := if past then s.tck.bound else s.tck.bound + s.period
      let x := s.strm n
      if !inWindow d c.toNat tk then (strmOut n s, none)
      else if past && s.tck.boundMono + d.limit * 1000 < s.mono then (strmLate n s, none)
      else if x.assigned.contains k then (strmSurplus n s, none)
      else
        let x := { x with assigned := (k :: x.assigned).take 4, captures := ((k, c) :: x.captures).take 4 }
        let x := if past && s.gatherOpen && !x.masked && !x.delivered then { x with delivered := true, delivUs := BitVec.ofNat 24 s.sinceBound } else x
        (s.setStrm n x, some k)

/-- A frame start on one binding (R150, R153). (DESIGN CHOICE, log 49) -/
def frameStart (r b : Nat) (no : BitVec 16) (s : State) : State :=
  let bd := s.binding r b
  let s := match tget (s.cam r).opens b with
    | some f => if f.drop then s else cutFrame r b f stAborted s
    | none => s
  let arr := w64 s.stamp
  let cap := w64 ((s.stamp : Int) + bd.capAdj * 1000).toNat
  let (s, k) := if (s.cam r).fenced then (s, none) else assignFrame bd.stream cap s
  match k with
  | some k => setOpen r b (some { gen := genOf k, tick := k, capture := cap, arrival := arr, off := s.offset, frameNo := no }) s
  | none => setOpen r b (some { drop := true, capture := cap, arrival := arr, off := s.offset, frameNo := no }) s

/-- CSI_FRAME_START (R150). -/
def execCsiFrameStart (rx vc : Nat) (frameNo : BitVec 16) (ecc : HdrEcc) (s : State) : Answer :=
  done (camPacket rx ecc id (fun s =>
    if 4 ≤ vc then camCount rx 6 s
    else (s.bindingsOf rx vc).foldl (fun t b => frameStart rx b frameNo t) (s.setCam rx { s.cam rx with fsStamp := w64 s.stamp })) s)

/-- A long packet of a pair (R149, R151, R153). -/
def longPacket (r vc dt : Nat) (crcOk : Bool) (data : List Byte) (s : State) : State :=
  if dt = 0x12 then s
  else match (s.bindingsOf r vc).find? (fun b => (s.binding r b).dt = dt) with
    | none => camCount r 6 s
    | some b => match tget (s.cam r).opens b with
      | none => camCount r 7 s
      | some f =>
        if f.drop then s
        else if (s.binding r b).height ≤ f.line then camCount r 5 s
        else if data.length ≠ (s.binding r b).lineLen then takeLine r b none true (camCount r 5 s)
        else if crcOk then takeLine r b (some data) false s
        else takeLine r b (some data) true (camCount r 4 s)

/-- A long packet whose header cannot be corrected: its line is written as zeros. (DESIGN CHOICE, log 49) -/
def lostLine (r vc dt : Nat) (s : State) : State :=
  match (s.bindingsOf r vc).find? (fun b => (s.binding r b).dt = dt) with
  | none => s
  | some b => match tget (s.cam r).opens b with
    | some f => if (s.binding r b).height ≤ f.line then s else takeLine r b none true s
    | none => s

/-- CSI_LINE (R151). -/
def execCsiLine (rx vc dt : Nat) (ecc : HdrEcc) (crcOk : Bool) (data : List Byte) (s : State) : Answer :=
  done (camPacket rx ecc (lostLine rx vc dt) (longPacket rx vc dt crcOk data) s)

/-- A frame end on one binding (R151 to R153). -/
def frameEnd (r b : Nat) (s : State) : State :=
  match tget (s.cam r).opens b with
  | none => camCount r 7 s
  | some _ =>
    let s := fillLines r b (s.binding r b).height s
    match tget (s.cam r).opens b with
    | some f => if f.drop then setOpen r b none s else setOpen r b none (camCount r 0 (postGroup r b f true false stOk s))
    | none => s

/-- CSI_FRAME_END (R153). -/
def execCsiFrameEnd (rx vc : Nat) (ecc : HdrEcc) (s : State) : Answer :=
  done (camPacket rx ecc id (fun s =>
    if 4 ≤ vc then camCount rx 6 s else (s.bindingsOf rx vc).foldl (fun t b => frameEnd rx b t) s) s)

/-- CSI_SOT_ERROR (R154): the burst in question brings no packet. -/
def execCsiSotError (rx : Nat) (s : State) : Answer := done (if s.mode.ticks && s.camBound rx then camCount rx 8 s else s)

/-- GENERIC_SHORT_PACKET (R148). -/
def execGenericShortPacket (rx : Nat) (packet : ShortPacket) (s : State) : Answer :=
  done (camPacket rx packet.ecc id (fun s => if packet.kind = .generic then camCount rx 6 s else s) s)

/-! ## Ethernet (R155 to R159) -/

/-- DESIGN CHOICE, log 51. -/
def ethCount (p i : Nat) (s : State) : State := s.setEth p { s.eth p with cnt := tinc (s.eth p).cnt i }
def State.ethPart (s : State) (p : Nat) : EthPart := s.im.ports.eths.getD p {}

/-- The MAC has a match entry in use. (DESIGN CHOICE, log 51) -/
def State.ethBound (s : State) (p : Nat) : Bool := (s.ethPart p).en && (s.ethPart p).entries.any (fun e => e.valid)

/-- The MAC works as the image configures it. -/
def State.ethOn (s : State) (p : Nat) : Bool := s.mode.ticks && s.ethBound p

/-- ETH_LINK_CHANGE (R155): the level detector of the MAC follows. (DESIGN CHOICE, log 50) -/
def ethLink (p : Nat) (l : EthLink) (s : State) : State :=
  let e := s.eth p
  match l with
  | .up => levelOff (66 + p) (s.setEth p { e with link := true, anDone := true, speedBad := false })
  | .badSpeed =>
    let e := if e.link then { e with cnt := tinc e.cnt 11 } else e
    raiseDet (66 + p) (BitVec.ofNat 32 p) (s.setEth p { e with link := false, anDone := true, speedBad := true, asCapable := false, pdelayT1 := none })
  | .down =>
    let e := if e.link then { e with cnt := tinc e.cnt 11 } else e
    raiseDet (66 + p) (BitVec.ofNat 32 p) (s.setEth p { e with link := false, anDone := false, speedBad := false, asCapable := false, pdelayT1 := none })

def execEthLinkChange (mac : Nat) (link : EthLink) (s : State) : Answer := done (if s.ethOn mac then ethLink mac link s else s)

/-- What an Ethernet frame shows: its VLAN, EtherType, source, IPv4 destination and UDP port with the payload. -/
structure EthView where
  vlan : Option Nat := none
  double : Bool := false
  etherType : Nat := 0
  smac : Nat := 0
  ipDst : Option Nat := none
  udp : Option (Nat × List Byte) := none
deriving DecidableEq, Repr, Inhabited

/-- IPv4 with UDP, from the bytes behind the EtherType. -/
def readUdp (ip : List Byte) : Option (Nat × Nat × List Byte) :=
  let ihl := at8 ip 0 % 16 * 4
  if at8 ip 0 / 16 = 4 && 20 ≤ ihl && ihl + 8 ≤ ip.length && at8 ip 9 = 17 && ofBe (part ip 6 2) % 8192 = 0 then
    let u := ip.drop ihl
    some (ofBe (part ip 16 4), ofBe (part u 2 2), (u.drop 8).take (ofBe (part u 4 2) - 8))
  else none

/-- Reads a frame from its destination address to the byte before its FCS. (DESIGN CHOICE, log 51) -/
def readFrame (f : List Byte) : EthView :=
  let t0 := ofBe (part f 12 2)
  let tagged := t0 = 0x8100
  let et := if tagged then ofBe (part f 16 2) else t0
  let body := if tagged then f.drop 18 else f.drop 14
  let u := if et = 0x0800 then readUdp body else none
  { vlan := if tagged then some (ofBe (part f 14 2) % 4096) else none
    double := t0 = 0x88A8 || (tagged && (et = 0x8100 || et = 0x88A8))
    etherType := et, smac := ofBe (part f 6 6), ipDst := u.map (fun x => x.1), udp := u.map (fun x => x.2) }

/-- A match entry matches a frame (R146, R156). -/
def entryMatches (m : MatchEntry) (v : EthView) : Bool :=
  m.valid && (!m.mVlan || v.vlan = some m.vlanId) && (!m.mUntag || v.vlan.isNone) && (!m.mEtype || v.etherType = m.etherType) &&
    (!m.mSmac || v.smac = m.smac) && (!m.mIpDst || v.ipDst = some m.ipDst) && (!m.mUdp || (match v.udp with | some u => u.1 = m.udpDst | none => false))

/-- The sensor's capture stamp in a payload (R158). -/
def readCapture (fmt ofs : Nat) (pay : List Byte) : Option Nat :=
  let b := pay.drop ofs
  if fmt = 1 then (if 8 ≤ b.length then some (ofBe (b.take 8)) else none)
  else if fmt = 2 then (if 8 ≤ b.length then some (ofLe (b.take 8)) else none)
  else if 10 ≤ b.length then some (ofBe (b.take 6) * 1000000000 + ofBe (part b 6 4)) else none

/-- A frame for a stream becomes an entry (R143, R158, R159). (DESIGN CHOICE, log 51) -/
def ethPost (p : Nat) (m : MatchEntry) (v : EthView) (body : List Byte) (s : State) : State :=
  let arr := stampLess (s.ethPart p).rxLat s
  let cap := if m.capFmt = 0 then none else readCapture m.capFmt m.capOfs ((v.udp.map (fun u => u.2)).getD [])
  let good := match cap with | some c => decide (c ≤ arr.toNat && arr.toNat ≤ c + 1000000000) | none => false
  let s := if m.capFmt ≠ 0 && !good then ethCount p 5 s else s
  let (s, seq) := nextSeq m.stream s
  let (s, gen) := openGen s
  (portPost m.stream s.offset { capValid := good, arrival := arr, capture := if good then w64 (cap.getD 0) else arr, seq := seq, gen := gen } body s).1

/-- A frame arrives at a MAC (R155, R156). (DESIGN CHOICE, log 51) -/
def ethFrame (p : Nat) (fcsOk : Bool) (bytes : List Byte) (s : State) : State :=
  if s.mode = .off || s.mode = .removal then s
  else if !s.ethOn p then ethCount p 6 s
  else if !(s.eth p).link then s
  else
    let s := if fcsOk then s else ethCount p 1 s
    let s := if bytes.length < 64 then ethCount p 2 s else s
    let s := if 2048 < bytes.length then ethCount p 3 s else s
    if !fcsOk || bytes.length < 64 || 2048 < bytes.length then s
    else
      let body := bytes.take (bytes.length - 4)
      let v := readFrame body
      if v.etherType = 0x8808 && v.vlan.isNone && ofBe (part body 14 2) = 1 then s
      else
        let s := ethCount p 0 s
        if !v.double && v.etherType = 0x88F7 then s
        else if !s.mode.posts then ethCount p 6 s
        else match if v.double then none else (s.ethPart p).entries.find? (fun m => entryMatches m v) with
          | none => ethCount p 4 s
          | some m => if (s.eth p).fenced then s else ethPost p m v body s

/-- ETH_FRAME_RX (R156). -/
def execEthFrameRx (mac : Nat) (fcsOk : Bool) (bytes : List Byte) (s : State) : Answer := done (ethFrame mac fcsOk bytes s)

/-- gPTP works on the MAC (R159, R355). -/
def State.gptpOn (s : State) (p : Nat) : Bool := s.ethOn p && (s.eth p).link && !(s.eth p).fenced

/-- Stamps of gPTP messages (R157): received at the delimiter less PHY_RX_LAT, sent at the delimiter plus PHY_TX_LAT. -/
def State.ptpRx (s : State) (p : Nat) : Int := s.stamp - (s.ethPart p).rxLat
def State.ptpTx (s : State) (p : Nat) : Nat := s.stamp + (s.ethPart p).txLat

/-- The peer delay by the four stamps of one exchange, as IEEE 802.1AS has it, on a MAC whose request waits for its answer. -/
def peerAnswered (p t2 t3 : Nat) (s : State) : State :=
  match (s.eth p).pdelayT1 with
  | some t1 =>
    let d := roundDiv ((s.ptpRx p - t1) - ((t3 : Int) - t2)) 2
    s.setEth p { s.eth p with asCapable := true, pdelayT1 := none, peerDelay := BitVec.ofInt 32 d }
  | none => s

/-- GPTP_MESSAGE (R157, R159): every message is stamped as it arrives. The syncs of a grandmaster come every 125 ms. -/
def execGptpMessage (mac : Nat) (msg : GptpMsg) (s : State) : Answer :=
  done (if s.gptpOn mac then
    let s := ethCount mac 9 s
    match msg with
    | .sync ref => if s.tim.discAct = discGptp && s.im.time.gptpPort = mac then measure 1 (s.ptpRx mac - ref) 125000000 s else s
    | .peerDelay t2 t3 => peerAnswered mac t2 t3 s
    | .peerRequest => (ethCount mac 10 s).say (.gptp mac (some (s.ptpRx mac)) (s.ptpTx mac))
    | .other => s
  else s)

/-- PEER_DELAY_MEASUREMENT (R159). -/
def execPeerDelayMeasurement (mac : Nat) (s : State) : Answer :=
  done (if s.gptpOn mac then
    let s := ethCount mac 10 s
    (s.setEth mac { s.eth mac with pdelayT1 := some (s.ptpTx mac) }).say (.gptp mac none (s.ptpTx mac))
  else s)

/-! ## CAN FD (R161 to R164) -/

def canCount (c i : Nat) (s : State) : State := s.setCan c { s.can c with cnt := tinc (s.can c).cnt i }
def State.canPart (s : State) (c : Nat) : CanPart := s.im.ports.cans.getD c {}

/-- The controller is integrated: it has a filter in use, and the device is in a state that keeps it on the bus. -/
def State.canOn (s : State) (c : Nat) : Bool := s.mode.ticks && (s.canPart c).en && (s.canPart c).filters.any (fun f => f.valid) && !(s.can c).busOff

/-- A filter matches an identifier. -/
def filterMatches (f : CanFilter) (id : BitVec 29) (ide : Bool) : Bool :=
  f.valid && f.ide = ide && (id.toNat &&& f.mask) = (f.id &&& f.mask)

/-- The receive error counter after a frame was received well; above 127 the standard gives a range from 119 to 127. (PRESUMED, log 52) -/
def canGood (c : Nat) (s : State) : State :=
  let x := s.can c
  if (s.canPart c).restricted then s
  else if x.rxErr.toNat ≤ 127 then s.setCan c { x with rxErr := if x.rxErr = 0 then 0 else x.rxErr - 1 }
  else s.drawn.setCan c { x with rxErr := BitVec.ofNat 8 (119 + Config.freeNat s.freeCtr % 9) }

/-- A valid frame (R161 to R163); its ESI bit is recorded. (DESIGN CHOICE, log 53) -/
def canFrame (c : Nat) (id : BitVec 29) (ide remote esi : Bool) (data : List Byte) (s : State) : State :=
  let s := canGood c s
  let s := s.setCan c { s.can c with esi := esi }
  let s := if (s.canPart c).restricted || (s.can c).fenced then s else s.say (.canAck c)
  if remote then canCount c 2 s
  else
    let s := canCount c 0 s
    if !s.mode.posts then canCount c 9 s
    else match (s.canPart c).filters.find? (fun f => filterMatches f id ide) with
      | none => canCount c 1 s
      | some f =>
        if (s.can c).fenced then s
        else
          let arr := w64 s.stamp
          let (s, gen) := openGen s
          let (s, ok) := portPost f.stream s.offset { arrival := arr, capture := arr, seq := id.toNat % 65536, gen := gen } data s
          if ok then egoCan f.stream id ide { stamp := arr, off := s.offset } data s else s

/-- CAN_FRAME_RX (R163). -/
def execCanFrameRx (ctl : Nat) (id : BitVec 29) (ide : Bool) (bits : CanBits) (data : List Byte) (s : State) : Answer :=
  done (if s.canOn ctl then canFrame ctl id ide bits.remote bits.esi data s else s)

/-- Index of a category's counter. -/
def canCat : CanCat → Nat
  | .bit => 3 | .stuff => 4 | .crc => 5 | .form => 6 | .ack => 7

/-- An error (R164): signalled in NORMAL (R162), by an active flag while the controller is error-active, with the step that the standard gives the error counters. (DESIGN CHOICE, log 50; PRESUMED, log 52) -/
def canErr (c : Nat) (cat : CanCat) (role : CanRole) (s : State) : State :=
  let s := canCount c (canCat cat) s
  if (s.canPart c).restricted then s
  else
    let x := s.can c
    let x := match role with
      | .receiver => { x with rxErr := BitVec.ofNat 8 (min 255 (x.rxErr.toNat + 1)) }
      | .receiverDominant => { x with rxErr := BitVec.ofNat 8 (min 255 (x.rxErr.toNat + 8)) }
      | .transmitter => { x with txErr := BitVec.ofNat 9 (min 511 (x.txErr.toNat + 8)) }
    let s := if (s.can c).fenced then s else s.say (.canErrorFlag c ((s.can c).rxErr.toNat ≤ 127 && (s.can c).txErr.toNat ≤ 127))
    let s := s.setCan c x
    if 256 ≤ x.txErr.toNat then raiseDet (70 + c) (BitVec.ofNat 32 c) (canCount c 8 (s.setCan c { x with busOff := true })) else s

/-- CAN_ERROR (R164). -/
def execCanError (ctl : Nat) (cat : CanCat) (role : CanRole) (s : State) : Answer := done (if s.canOn ctl then canErr ctl cat role s else s)

/-- CAN_BUSOFF_RECOVERY (R164). -/
def execCanBusoffRecovery (ctl : Nat) (s : State) : Answer :=
  done (if s.mode.ticks && (s.can ctl).busOff && (s.canPart ctl).busoffRec then
    levelOff (70 + ctl) (s.setCan ctl { s.can ctl with busOff := false, rxErr := 0, txErr := 0 })
  else s)

/-! ## SPI (R165 to R167) -/

def spiCount (u i : Nat) (s : State) : State := s.setSpi u { s.spi u with cnt := tinc (s.spi u).cnt i }
def State.spiPart (s : State) (u : Nat) : SpiPart := s.im.ports.spis.getD u {}

/-- The controller heeds its DRDY pin. -/
def State.spiOn (s : State) (u : Nat) : Bool := s.mode.ticks && (s.spiPart u).en && !(s.spi u).fenced

/-- The inertial units of EGO that a controller carries deliver anew (R183). -/
def imuBack (stream : Nat) (s : State) : State :=
  match s.im.ego with
  | none => s
  | some e => (List.range 2).foldl (fun t u =>
      if e.imu.getD u 31 = stream then { t with ego.imus := tmod t.ego.imus u (fun m => { m with goodFrom := t.mono }) } else t) s

/-- An edge of DRDY (R166, R167). (DESIGN CHOICE, log 50; DESIGN CHOICE, log 53) -/
def drdy (u : Nat) (s : State) : State :=
  let x := s.spi u
  let s := if x.silent then imuBack (s.spiPart u).stream (levelOff (72 + u) s) else s
  let s := s.setSpi u { x with silent := false, lastMono := s.mono }
  if x.busy then spiCount u 1 s
  else (s.setSpi u { s.spi u with busy := true, drdy := stampLess (10 * s.im.ports.filtDrdy.getD u 0) s, drdyOff := s.offset }).say
    (.spiStart u ((s.spiPart u).cmd.take (s.spiPart u).cmdLen))

/-- DRDY_EDGE (R166). -/
def execDrdyEdge (unit : Nat) (s : State) : Answer := done (if s.spiOn unit then drdy unit s else s)

/-- CS_N rises (R167). -/
def spiEnd (u : Nat) (data : List Byte) (s : State) : State :=
  let x := s.spi u
  let n := (s.spiPart u).stream
  let s := spiCount u 0 (s.setSpi u { x with busy := false })
  if !s.mode.posts then spiCount u 3 s
  else
    let (s, seq) := nextSeq n s
    let (s, gen) := openGen s
    let bytes := fitBytes (s.spiPart u).readLen data
    let (s, ok) := portPost n x.drdyOff { capValid := true, arrival := w64 s.stamp, capture := x.drdy, seq := seq, gen := gen } bytes s
    if ok then egoImu n { stamp := x.drdy, off := x.drdyOff } bytes s else s

/-- SPI_TRANSFER_END (R167). -/
def execSpiTransferEnd (unit : Nat) (data : List Byte) (s : State) : Answer :=
  done (if s.spiOn unit && (s.spi unit).busy then spiEnd unit data s else s)

/-- DRDY_TIMEOUT (R167): DRDY_TO expected periods without an edge, counted once per silence. -/
def execDrdyTimeout (unit : Nat) (s : State) : Answer :=
  done (if s.mode.ticks && (s.spiPart unit).en && !(s.spi unit).silent then
    let p := ((s.im.stream (s.spiPart unit).stream).map (fun d => d.period)).getD 0
    let s := advanceTo ((s.spi unit).lastMono + (s.spiPart unit).drdyTo * p * 1000) s
    raiseDet (72 + unit) (BitVec.ofNat 32 unit) (spiCount unit 2 (s.setSpi unit { s.spi unit with silent := true }))
  else s)

/-- The level of SCLK while a controller has no transaction (R165, R70): that of its mode from ARMED, low before. (DESIGN CHOICE, log 53) -/
def State.sclkIdle (s : State) (u : Nat) : Bool := s.mode.ticks && (s.spiPart u).en && (s.spiPart u).mode3

/-! ## GPIO (R168, R169, R274) -/

/-- The level that the device drives on a pin, none for high impedance (R168): outputs carry GPIO_OUT where the image configures the
ports, an open-drain one only its low level. -/
def State.gpioPin (s : State) (n : Nat) : Option Bool :=
  let p := s.im.ports
  let v := s.gpio.out.getLsbD n
  if s.mode.ticks && !s.pins.outputsIdle && p.gpioDir.testBit n && !(p.incTrig && n = 15) && !(p.gpioOd.testBit n && v) then some v else none

/-- A pin is an input, and inputs are heeded. (DESIGN CHOICE, log 53) -/
def State.pinHeard (s : State) (n : Nat) : Bool := s.mode.ticks && !(s.im.ports.gpioDir.testBit n)

/-- A filtered edge of a pin: its level, its edge bit and its stamp, which marks the pin's edge. (DESIGN CHOICE, log 53) -/
def gpioEdge (n : Nat) (rising : Bool) (s : State) : State :=
  let st := stampLess (10 * s.im.ports.filtGpio.getD n 0) s
  let g := s.gpio
  if rising then { s with
    gpio.inp := g.inp ||| BitVec.twoPow 16 n, gpio.edge := g.edge ||| BitVec.twoPow 32 n, gpio.rise := tset g.rise n st }
  else { s with
    gpio.inp := g.inp &&& ~~~(BitVec.twoPow 16 n), gpio.edge := g.edge ||| BitVec.twoPow 32 (16 + n), gpio.fall := tset g.fall n st }

/-- GPIO_EDGE (R168). -/
def execGpioEdge (pin : Nat) (rising : Bool) (s : State) : Answer := done (if s.pinHeard pin then gpioEdge pin rising s else s)

/-- INC_TRIG_EDGE (R274): an edge of GPIO15 that carries INC_TRIG; the selected one makes a PIN trigger, at the instant of
the edge less the filter's delay (R169). -/
def execIncTrigEdge (rising : Bool) (s : State) : Answer :=
  done (if s.pinHeard 15 && s.im.ports.incTrig then
    let s := gpioEdge 15 rising s
    if rising = !s.incSec.pinFall then vitTriggerAt (10 * s.im.ports.filtGpio.getD 15 0) cauPin 0 0 0 s else s
  else s)

end Sys2Proof.Machine
end

