-- ==== Sys2Proof/Machine/Gather.lean ====
section
/-! DEFINITION. The registrar's limits and close, and the rows of ego-motion (R112, R172 to R189, R202). -/
namespace Sys2Proof.Machine

/-! ## Limits (R176) -/

/-- The registrar works in the posting states, and in a tick that began in RUN or DEGRADED. -/
def State.registers (s : State) : Bool := s.mode.posts || s.tck.compute

/-- A gathered stream that has not delivered is masked for the tick. -/
def limitMask (d : StreamDecl) (s : State) : State :=
  let x := s.strm d.stream
  if d.gather && !x.delivered && !(d.kind = 0 && x.assigned.contains s.tck.index) then s.setStrm d.stream { x with masked := true } else s

/-- STREAM_LIMIT (R176). -/
def execStreamLimit (stream : Nat) (s : State) : Answer :=
  done (match s.im.stream stream with
    | some d =>
      let m := s.tck.boundMono + d.limit * 1000
      if s.gatherOpen && s.registers && !s.edgeBefore m then limitMask d (advanceTo m s) else s
    | none => s)

/-! ## Captures on the monotonic counter (R186) -/

/-- The capture of an entry, and its arrival, on the monotonic counter: by the offset in force when the device took the stamp, for a capture that the
sensor supplied the one at arrival. (DEDUCED, log 46) -/
def captureMono (off : Int) (e : QEntry) : Int := (e.capture.toNat : Int) - off
def arrivalMono (off : Int) (e : QEntry) : Int := (e.arrival.toNat : Int) - off

/-- A step lies between a sensor-supplied capture (R158) and its arrival. -/
def stepBetween (d : StreamDecl) (off : Int) (e : QEntry) (s : State) : Bool :=
  let a := arrivalMono off e
  let c := captureMono off e
  d.kind = 1 && e.capValid && s.tim.steps.any (fun r => (c < r.mono && r.mono ≤ a) || (a < r.mono && r.mono ≤ c))

/-! ## Compensation (R187, R188) -/

/-- What the two lookups of a contribution give: the record's six values, the larger extrapolation in ns, whether one was
needed. Without a valid history entry the values are left open and the extrapolation has no bound. -/
def lookupPair (off : Int) (e : QEntry) (s : State) : State × List Int × Nat :=
  match poseAt (captureMono off e).toNat s, poseAt s.tck.boundMono s with
  | some (c, ec), some (v, ev) => (s, relative c v, max ec ev)
  | _, _ => ({ s with freeCtr := s.freeCtr + 6 }, (List.range 6).map (fun i => (Config.freeWord (s.freeCtr + i)).toInt), 2 ^ 63)

/-- One contribution's compensation: its ring index, the record's values, extrapolation in ns, masked for EXTRAP, for STEP. -/
structure Comp where
  place : Nat
  rel : List Int
  extrap : Nat
  far : Bool
  step : Bool
deriving DecidableEq, Repr, Inhabited

/-- The compensation of a contribution (R186 to R188). -/
def compOf (d : StreamDecl) (place : Nat) (e : QEntry) (s : State) : State × Comp :=
  let off := s.entryOff ((s.im.streamQueue d.stream).getD 0) place
  match s.im.ego with
  | none => (s, { place := place, rel := [0, 0, 0, 0, 0, 0], extrap := 0, far := false, step := stepBetween d off e s })
  | some g =>
    let (s, rel, x) := lookupPair off e s
    (s, { place := place, rel := rel, extrap := x, far := decide (g.extrapMax * 1000 < x), step := stepBetween d off e s })

/-- The contributions of a stream for the tick: the frame-start entry of its frame, or the entries in the window. -/
def contributions (d : StreamDecl) (s : State) : List (Nat × QEntry) :=
  match s.im.streamQueue d.stream with
  | none => []
  | some q =>
    if d.kind = 0 then
      match s.frameIndex d s.tck.index with
      | some i => [(i, readEntry (Memory.read s.mem ((s.im.queue q).base + 32 * i) 32))]
      | none => []
    else (s.queued q).filter (fun e => inWindow d e.2.capture.toNat s.tck.bound)

/-- Writes the records of a stream, with MASKED where the stream is masked, and counts extrapolations. -/
def writeComps (d : StreamDecl) (masked : Bool) (cs : List Comp) (s : State) : State :=
  cs.foldl (fun s c =>
    let bytes := compRecord c.rel (nearEven c.extrap 1000).toNat (decide (c.extrap ≠ 0)) masked c.step s.im.ego.isNone
    let s := { s with mem := Memory.write s.mem (d.compRing + 32 * c.place) bytes }
    let cnt := if c.extrap ≠ 0 then tinc s.ego.cnt 7 else s.ego.cnt
    { s with ego.cnt := if c.far then tinc cnt 8 else cnt }) s

/-! ## Closing (R112, R174, R177, R189) -/

/-- Reasons of ALN: 0 delivered, 1 LIMIT, 2 VOID, 3 EXTRAP, 4 STEP. -/
abbrev rsDelivered : BitVec 4 := 0
abbrev rsLimit : BitVec 4 := 1
abbrev rsVoid : BitVec 4 := 2
abbrev rsExtrap : BitVec 4 := 3
abbrev rsStep : BitVec 4 := 4

/-- The frame token of a camera stream stands for the tick. -/
def State.frameToken (s : State) (stream : Nat) : Bool :=
  match s.im.ingestOf stream with
  | some t => !t.outs.isEmpty && t.outs.all (fun o => match s.token o (genOf s.tck.index) with | some x => !x.isVoid | none => false)
  | none => false

/-- The reason of a gathered stream at the close, from its contributions. (DESIGN CHOICE, log 54) -/
def closeReason (d : StreamDecl) (cs : List Comp) (s : State) : BitVec 4 :=
  let x := s.strm d.stream
  let came := if d.kind = 0 then x.assigned.contains s.tck.index else x.delivered
  if !came then rsLimit
  else if d.kind = 0 && !s.frameToken d.stream then rsVoid
  else if cs.any (fun c => c.step) then rsStep
  else if cs.any (fun c => c.far) then rsExtrap
  else rsDelivered

/-- The token and the tensor of a stream other than FRAME (R177, step 1), and the capture floor (R207). (DESIGN CHOICE, log 54) -/
def closeToken (d : StreamDecl) (r : BitVec 4) (es : List (Nat × QEntry)) (s : State) : State × Option (BitVec 64) :=
  let gen := genOf s.tck.index
  let bit : Word := BitVec.twoPow 32 d.stream
  if d.kind = 0 then
    (s, if r = rsDelivered || r = rsExtrap then ((s.strm d.stream).captures.find? (fun e => e.1 = s.tck.index)).map (fun e => e.2) else none)
  else if r = rsDelivered then
    let off (place : Nat) : Int := s.entryOff ((s.im.streamQueue d.stream).getD 0) place
    let oldest := es.foldl (fun (o : Oldest) e => o.min { stamp := e.2.capture, off := off e.1 }) {}
    let first := match es.head? with | some e => e.1 | none => 0
    let s := writeTensor d.slot gen 0 (leBytes 4 (pack [(0, 13, first), (16, 13, es.length)]).toNat ++ zeros 4) s
    (putToken d.slot gen (newToken s d.slot gen oldest 0 0) s, some oldest.stamp)
  else (putToken d.slot gen { newToken s d.slot gen {} bit 0 with isVoid := true } s, none)

/-- One gathered stream at the close: its token, its records and its registers. The floor counts only where it is not
masked. (DESIGN CHOICE, log 54) -/
def closeStream (d : StreamDecl) (acc : State × Word × List (Nat × BitVec 64)) : State × Word × List (Nat × BitVec 64) :=
  let (s, mask, floors) := acc
  let es := contributions d s
  let (s, cs) := es.foldl (fun (a : State × List Comp) e => let r := compOf d e.1 e.2 a.1; (r.1, a.2 ++ [r.2])) (s, [])
  let r := closeReason d cs s
  let masked := decide (r ≠ rsDelivered)
  let (s, floor) := closeToken d r es s
  let s := if r = rsLimit then s else writeComps d masked cs s
  let x := s.strm d.stream
  let run := if masked then x.maskedRun + 1 else 0
  let s := s.setStrm d.stream { x with
    reason := r, masked := masked, maskedCnt := if masked then satInc x.maskedCnt else x.maskedCnt, maskedRun := run, cut := false
    cLast := if 16 ≤ run then none else x.cLast }
  (s, if masked then mask ||| BitVec.twoPow 32 d.stream else mask,
    match floor with | some f => if masked then floors else (d.stream, f) :: floors | none => floors)

/-- The curator's void tokens for camera streams whose frame token is absent (R112). (DESIGN CHOICE, log 54) -/
def voidCameras (s : State) : State :=
  (s.im.streams.streams.filter (fun d => d.kind = 0 && d.gather)).foldl (fun s d =>
    match s.im.ingestOf d.stream with
    | some t =>
      if t.outs.any (fun o => (s.token o (genOf s.tck.index)).isNone) then
        let s := voidOutputs t (genOf s.tck.index) (BitVec.twoPow 32 d.stream) s
        { s with sch.late := (t.id, s.tck.index) :: s.sch.late.filter (fun e => (s.tck.index - e.2).toNat < 255) }
      else s
    | none => s) s

/-- HEAD of each ring that the registrar consumes passes the entries below the next window; entries that no window held are
counted (R177, step 4, and the corner on a re-phase interval). -/
def advanceRings (s : State) : State :=
  (s.im.streams.streams.filter (fun d => d.kind ≠ 0)).foldl (fun s d =>
    match s.im.streamQueue d.stream with
    | some q =>
      if (s.im.queue q).cons ≠ 5 then s
      else
        let gone := (s.queued q).takeWhile (fun e => e.2.capture.toNat + d.window * 1000 < s.tck.bound + s.period)
        let lost := (gone.filter (fun e => s.tck.prevBound ≤ e.2.capture.toNat && !inWindow d e.2.capture.toNat s.tck.bound)).length
        let s := if d.gather then s.setStrm d.stream { s.strm d.stream with outWin := satAdd (s.strm d.stream).outWin lost } else s
        consume q gone.length s
    | none => s) s

/-- A token of generation k with no age and no mask. -/
def plainToken (slot : Nat) (oldest : Oldest) (mask vote : Word) (s : State) : State :=
  putToken slot (genOf s.tck.index) (newToken s slot (genOf s.tck.index) oldest mask vote) s

/-- The grid block writes VOTE_SLOT (R202). -/
def writeVote (s : State) : State :=
  match s.im.vote with
  | some v => plainToken v.voteSlot {} 0 s.grd.votedOut (writeTensor v.voteSlot (genOf s.tck.index) 0 (leBytes 4 s.grd.votedOut.toNat) s)
  | none => s

/-- What SUM_SLOT holds (R184): the pose at Tₖ, the means of the tick's raw samples, the updates, the OR of their flags. -/
def summaryOf (s : State) : SumRec :=
  { pose := (poseAt s.tck.boundMono s).map (fun p => p.1), imus := s.ego.imus.toList.map (fun m => { n := m.tickN, sums := m.tickSum })
    sigs := s.ego.sigs.toList.map (fun x => { n := x.tickN, sums := [x.tickSum] }), updates := s.ego.tickUpd, flags := s.ego.tickFlags }

/-- The contents in the order of R184. -/
def summaryList (r : SumRec) : List Int :=
  (match r.pose with | some p => (poseWords p).map (fun w => w.toInt) | none => []) ++ r.imus.flatMap (fun m => (m.n : Int) :: m.sums) ++
    r.sigs.flatMap (fun m => (m.n : Int) :: m.sums) ++ [(r.updates : Int), (r.flags.toNat : Int)]

/-- EGO writes SUM_SLOT and begins the next tick's means (R184). -/
def writeSummary (write : Bool) (s : State) : State :=
  match s.im.ego with
  | none => s
  | some e =>
    let s := if write then
        let r := summaryOf s
        plainToken e.sumSlot s.ego.tickOldest 0 0
          (writeTensor e.sumSlot (genOf s.tck.index) 0 (Config.egoSummary (summaryList r)) { s with ego.summary := some r })
      else s
    { s with ego.tickUpd := 0, ego.tickFlags := 0, ego.tickOldest := {}
             ego.imus := s.ego.imus.map (fun m => { m with tickN := 0, tickSum := [0, 0, 0, 0, 0, 0] })
             ego.sigs := s.ego.sigs.map (fun x => { x with tickN := 0, tickSum := 0 }) }

/-- The registrar closes Gather (R177), the curator voids cameras (R112), and VOTE_SLOT and SUM_SLOT are written. -/
def registrarClose (s : State) : State :=
  let gathered := s.im.streams.streams.filter (fun d => d.gather)
  let (s, mask, floors) := gathered.foldl (fun acc d => closeStream d acc) (s, (0 : Word), ([] : List (Nat × BitVec 64)))
  let s := voidCameras s
  let s := plainToken s.im.streams.gatherSlot {} mask 0 s
  let s := { s with aln.gen := genOf s.tck.index, aln.maskLast := mask, aln.maskAcc := s.aln.maskAcc ||| mask
                    aln.floors := (List.range 32).map (fun n => (floors.find? (fun f => f.1 = n)).map (fun f => f.2)) }
  writeSummary true (writeVote (advanceRings s))

/-- The Gather edge. -/
def gatherEdge (s : State) : State :=
  let s := advanceTo s.tck.gMono s
  let s := { s with tck.gDone := true, tck.phase := 1 }
  let s := if s.registers then registrarClose s else writeSummary false s
  judgeReports s

/-- GATHER_CLOSE (R177). -/
def execGatherClose (s : State) : Answer := done (if s.gatherOpen then gatherEdge s else s)

/-! ## Ego-motion -/

/-- The next instant of an update: a whole multiple of 500,000 ns after the newest entry. -/
def nextUpdate (s : State) : Nat :=
  let m := ceilDiv s.mono 500000 * 500000
  match s.ego.hist.head? with
  | some p => if m ≤ p.mono then p.mono + 500000 else m
  | none => m

/-- EGO_UPDATE (R180). The warden takes a fault of the update before DECEL is judged, in the order of the causes and in the state that the
fault leaves (R275, R276). -/
def execEgoUpdate (s : State) : Answer :=
  done (match s.im.ego with
    | some e =>
      if s.mode.fromArmed && !s.edgeBefore (nextUpdate s) then
        let s := settle (egoUpdate e (advanceTo (nextUpdate s) s))
        if s.mode.fromArmed then decelJudge (egoAx e s) s else s
      else s
    | none => s)

/-- A write of HIST_SEL copies the entry of that age. (DESIGN CHOICE, log 55) -/
def histSelWrite (age : BitVec 9) (s : State) : State :=
  let ws := match s.ego.hist[age.toNat]? with | some p => poseWords p | none => []
  { s with ego.histSel := age, ego.histWords := (List.range 16).foldl (fun v i => tset v i (ws.getD i 0)) s.ego.histWords }

/-- EGO_HIST_SELECT (R181): an entry that the history does not hold reads as 0. -/
def execEgoHistSelect (src : Source) (age : BitVec 9) (s : State) : Answer := done (judged src 0x14040 (histSelWrite age) s)

end Sys2Proof.Machine
end

