-- ==== Sys2Proof/Machine/Emit.lean ====
section
/-! DEFINITION. The Emit edge, the frames of the two channels and their routes, and the end of the Emit phase (R25 to R30,
R204 to R209, R272, R363, R396, R416). -/
namespace Sys2Proof.Machine

/-! ## Frames (R205 to R207) -/

/-- The six routes. -/
def routes : List Nat := [0, 1, 2, 3, 4, 5]

/-- Age of a stamp at an output stamp: a negative difference reads 0 (R54); all ones for no contribution. -/
def ageAt (out : Nat) (oldest : BitVec 64) : BitVec 64 := if oldest = noStamp then noStamp else w64 (out - oldest.toNat)

/-- STREAM_AGE: all ones where there is no floor, else the age, held below all ones. (DESIGN CHOICE, log 41) -/
def streamAge (out : Nat) (floor : Option (BitVec 64)) : Word :=
  match floor with
  | some f => BitVec.ofNat 32 (min 0xFFFFFFFE (out - f.toNat))
  | none => 0xFFFFFFFF

/-- The ages of the 32 streams. -/
def streamAges (out : Nat) (floors : List (Option (BitVec 64))) : List Word := (List.range 32).map (fun n => streamAge out (floors.getD n none))

/-- The age of an oldest contribution spans a step of device time (R54): one came after the instant of its stamp. -/
def State.spansStep (s : State) (oldest : Oldest) : Bool :=
  oldest.stamp ≠ noStamp && s.tim.steps.any (fun r => (oldest.stamp.toNat : Int) - oldest.off < r.mono)

/-- TIME_STEP in FLAGS. (DESIGN CHOICE, log 58) -/
def withStep (b : Bool) (flags : BitVec 16) : BitVec 16 := if b then flags ||| 8 else flags

/-- The cells of a channel's window: those of the safe frame, or as the front buffer stores them. -/
def windowBytes (c : OutChan) (isSafe : Bool) (s : State) : List Byte :=
  let g := s.im.grid
  (List.range c.winH).flatMap (fun y =>
    if isSafe then (List.replicate c.winW (emptyCell g)).flatten
    else Memory.read s.mem (s.frontBuf + ((c.winY0 + y) * g.x + c.winX0) * g.stride) (c.winW * g.stride))

/-- The frame of a channel at output stamp `out` (R205). -/
def frameBytes (w : Wait) (out : Nat) (s : State) : List Byte :=
  let c := s.im.chan w.chan
  let g := s.im.grid
  let h (v : Nat) : List Byte := leBytes 2 v
  let win := h c.winX0 ++ h c.winY0 ++ h c.winW ++ h c.winH
  let len := leBytes 4 (c.winW * c.winH * g.stride)
  let head : List Byte := match w.chan with
    | .a => leBytes 4 0x4F5A4741 ++ h 1 ++ h w.flags.toNat ++ leBytes 8 w.tick.toNat ++ leBytes 8 out ++ win ++
        [BitVec.ofNat 8 g.c, BitVec.ofNat 8 g.stride, 0, 0] ++ len
    | .b => leBytes 4 0x4F5A4742 ++ h 1 ++ h w.flags.toNat ++ leBytes 8 w.tick.toNat ++
        leBytes 8 w.validity.toNat ++ leBytes 8 out ++ leBytes 8 (ageAt out w.oldest.stamp).toNat ++ leBytes 4 w.mask.toNat ++
        leBytes 4 w.vote.toNat ++ h g.x ++ h g.y ++ win ++ [BitVec.ofNat 8 g.c, BitVec.ofNat 8 g.stride] ++ h g.cellMm ++
        bytesOf (streamAges out w.floors) ++ len ++ leBytes 4 (digestPrefixOf s.im.hdr.digest).toNat ++ leBytes 4 s.im.hdr.imageVer ++ zeros 52
  let body := head ++ windowBytes c w.isSafe s
  body ++ leBytes 4 (crc32 body).toNat

/-! ## The vitrine's tick block (R272) -/

/-- The fields of a tick block that follow the output stamp: OUTPUT and OLDEST_AGE, and STREAM_AGE. -/
def blockAges (w : Wait) (out : Nat) : List Byte × List Byte :=
  (leBytes 8 out ++ leBytes 8 (ageAt out w.oldest.stamp).toNat, bytesOf (streamAges out w.floors))

/-- The pose at the boundary in the layout of R181; without a pose its words are left open. (DESIGN CHOICE, log 59) -/
def blockPose (s : State) : State × List Byte :=
  match poseAt s.tck.boundMono s with
  | some (p, _) => (s, bytesOf (poseWords p))
  | none => ({ s with freeCtr := s.freeCtr + 16 }, bytesOf ((List.range 16).map (fun i => Config.freeWord (s.freeCtr + i))))

/-- Writes the tick block of an Emit edge; `summary` says that the summary token of the tick was present. (DESIGN CHOICE, log 59) -/
def tickBlock (w : Wait) (summary : Bool) (s : State) : State :=
  if !s.incOn then s
  else
    let out := s.stamp
    let flags := withStep (s.spansStep w.oldest) w.flags
    let (s, pose) := blockPose s
    let (a, len) := s.tensorAt s.incSec.sumSlot (genOf w.tick)
    let room := s.incSec.sumBytes - 544
    let sum := if summary then Memory.read s.mem a (min len room) else []
    let ages := blockAges w out
    let bytes := leBytes 4 0x564B4231 ++ leBytes 2 flags.toNat ++ leBytes 2 (if summary then stOk else stAborted).toNat ++
      leBytes 8 w.tick.toNat ++ leBytes 8 w.validity.toNat ++ ages.1 ++ leBytes 4 w.mask.toNat ++ leBytes 4 w.vote.toNat ++
      leBytes 4 (if summary then len else 0) ++ zeros 12 ++ pose ++ ages.2 ++
      (List.range 32).map (fun n => (s.strm n).reason.setWidth 8) ++ zeros 224 ++ fitBytes room sum ++
      leBytes 4 0x444E4531 ++ leBytes 8 w.tick.toNat ++ zeros 20
    ringWrite w.tick flags bytes s

/-- The block of the tick, and its position in an open record, take the output stamp, the ages and the flags of the first route of channel B. (DESIGN CHOICE, log 59) -/
def patchBlock (w : Wait) (out : Nat) (s : State) : State :=
  match s.inc.ring.find? (fun b => b.tick = w.tick) with
  | some b =>
    let a := slotAddr s b.slot
    let ages := blockAges w out
    let flags := w.flags
    let m := Memory.write (Memory.write (Memory.write s.mem (a + 0x18) ages.1) (a + 0x80) ages.2) (a + 4) (leBytes 2 flags.toNat)
    { s with mem := m, inc.ring := s.inc.ring.map (fun (x : RingBlock) => if x.slot = b.slot then { x with flags := flags } else x)
             inc.record := s.inc.record.map (fun r => { r with positions := r.positions.zipIdx.map (fun e =>
               if b.pos = some e.2 then { e.1 with flags := flags.setWidth 7 } else e.1) }) }
  | none => s

/-! ## The decision (R25 to R29, R416) -/

/-- The grid token of the tick in progress. (DESIGN CHOICE, log 59) -/
def State.gridToken (s : State) : Option Token := s.token s.im.queues.gridSlot (genOf s.tck.index)

/-- The heads of the camera queues pass the entries of a cancelled tick. (DESIGN CHOICE, log 59) -/
def passCut (k : BitVec 64) (s : State) : State :=
  (List.range 8).foldl (fun s r => (List.range 4).foldl (fun s b =>
    let bd := (s.im.ports.cams.getD r {}).bindings.getD b {}
    match bd.bound, s.im.streamQueue bd.stream with
    | true, some q => consume q ((s.queued q).takeWhile (fun e => e.2.gen = genOf k)).length s
    | _, _ => s) s) s

/-- Cancels what is left of the tick in progress (R26, step 1), and counts the tasks where an overrun cancels them. (DESIGN CHOICE, log 97) -/
def cancelNow (byOverrun : Bool) (s : State) : State :=
  let (s, n) := cancelTick s.tck.index s
  passCut s.tck.index (if byOverrun then { s with tck.cancelCnt := satAdd s.tck.cancelCnt n } else s)

/-- SAFE and QUARANTINE compute nothing (R33): what is left of queue-driven tasks is dropped. (DESIGN CHOICE, log 97) -/
def stopIngest (s : State) : State :=
  match s.mode with
  | .safe | .quarantine => dropTasks s
  | _ => s

/-- An on-time tick: the buffers exchange roles (R25, R194). -/
def exchange (t : Token) (s : State) : State :=
  let s := { s with
    grd.front := !s.grd.front, grd.exchCnt := satInc s.grd.exchCnt, grd.frontIdx := s.tck.index, grd.oldest := t.oldest, grd.mask := t.mask
    grd.vote := t.vote, grd.validity := w64 s.tck.bound, grd.floors := s.aln.floors }
  { s with grd.frontEmpty := (Memory.get s.mem (s.frontBuf + s.im.grid.c + 1)).getLsbD 7 }

/-- An overrun is counted and reported (R26, step 4). -/
def countOverrun (s : State) : State :=
  let s := { s with tck.ovrCnt := satInc s.tck.ovrCnt, tck.consecOvr := satInc s.tck.consecOvr, gctl.onTimeRun := 0 }
  raiseDet 50 s.tck.consecOvr.toNat (msix 3 (s.tck.intEn.getLsbD 2) s)

/-- CONSEC_OVR reaches the limit: DEGRADED (R28). -/
def overrunLimit (s : State) : State :=
  if s.im.tick.ovrLimit ≤ s.tck.consecOvr.toNat then degrade { s with gctl.degOvr := true } else s

/-- The decision of a tick that began in RUN or DEGRADED. Answers whether the frame is STALE. The warden takes an overrun before the frame
is formed (the corner on overrun, DEGRADED entry and SAFE at one Emit edge). (DESIGN CHOICE, log 59) -/
def decide25 (s : State) : State × Bool :=
  match s.mode with
  | .run | .degraded =>
    match s.gridToken with
    | some t => ({ exchange t s with tck.consecOvr := 0, gctl.onTimeRun := s.gctl.onTimeRun + 1 }, false)
    | none =>
      let s := settle (countOverrun (cancelNow true s))
      if s.mode.computes then (overrunLimit s, true) else (s, false)
  | .safe =>
    match s.gridToken with
    | some _ => ({ s with tck.consecOvr := 0, gctl.onTimeRun := s.gctl.onTimeRun + 1 }, false)
    | none => (countOverrun (cancelNow true s), false)
  | _ => (cancelNow false s, false)

/-- FLAGS of the frames of this Emit, but for TIME_STEP. (DESIGN CHOICE, log 58) -/
def emitFlags (stale isEmpty : Bool) (s : State) : BitVec 16 :=
  let isSafe := decide (s.mode = .safe)
  (pack [(0, 1, b2n stale), (1, 1, b2n (decide (s.mode = .degraded))), (2, 1, b2n isSafe), (4, 1, b2n s.gctl.freeRun), (5, 1, b2n isEmpty),
    (6, 1, b2n s.tim.holdover), (8, 4, s.mode.code.toNat)]).setWidth 16

/-- What a frame of this Emit carries: the front grid, the empty grid or the safe frame (R26, R205, R363). -/
def emitWait (stale : Bool) (s : State) : Wait :=
  let isSafe := decide (s.mode = .safe)
  let isEmpty := isSafe || s.grd.frontEmpty
  let w : Wait := {
    chan := .a, route := 0, flags := emitFlags (stale || (isEmpty && !isSafe)) isEmpty s, tick := s.tck.index, validity := w64 s.tck.bound
    isEmpty := isEmpty, isSafe := isSafe, oldest := {}, mask := 0xFFFFFFFF, vote := 0, floors := [] }
  if isEmpty then w
  else { w with validity := s.grd.validity, oldest := s.grd.oldest, mask := s.grd.mask, vote := s.grd.vote, floors := s.grd.floors }

/-- The frames of an enabled channel wait for its routes, and the channel counts. -/
def emitChan (c : Channel) (stale : Bool) (w : Wait) (s : State) : State :=
  let d := s.im.chan c
  if !d.en then s
  else
    let x := s.chan c
    let x := { x with frames := satInc x.frames, staleCnt := if stale then satInc x.staleCnt else x.staleCnt
                      safeCnt := if w.isSafe then satInc x.safeCnt else x.safeCnt }
    let ws := (routes.filter (fun r => d.routes.testBit r)).map (fun r => { w with chan := c, route := r })
    { s.setChan c x with outb.waits := (s.setChan c x).outb.waits ++ ws }

/-- The frames of the Emit edge and the vitrine's block. -/
def emitFrames (stale summary : Bool) (s : State) : State :=
  let w := emitWait stale s
  let st := w.flags.getLsbD 0
  tickBlock w summary (emitChan .b st w (emitChan .a st w { s with tck.staleLast := st }))

/-- Tokens of ticks other than the next leave the scoreboard where the tick has no decision. (DESIGN CHOICE, log 59) -/
def dropTokens (s : State) : State :=
  { s with sch.tokens := s.sch.tokens.filter (fun e => e.2.gen = genOf (s.tck.index + 1)) }

/-- The Emit edge. -/
def emitEdge (s : State) : State :=
  let s := advanceTo s.tck.eMono s
  let s := { s with tck.eDone := true, tck.phase := 2 }
  let summary := (s.token s.incSec.sumSlot (genOf s.tck.index)).isSome
  let (s, stale) := if s.tck.compute then decide25 s else (dropTokens s, false)
  let s := stopIngest { s with tck.emitRun := s.mode.computes }
  match s.mode with
  | .run | .degraded | .safe => emitFrames stale summary s
  | _ => s

/-- EMIT_EDGE (R25). -/
def execEmitEdge (s : State) : Answer :=
  done (if s.tck.ticked && s.mode.ticks && s.tck.gDone && !s.tck.eDone then emitEdge s else s)

/-! ## Routes (R206, R208, R209, R396) -/

/-- A ring is full. -/
def Ring.full (r : Ring) : Bool := (r.tail.toNat + 1) % max 1 r.slots.toNat = r.head.toNat

/-- The 802.1Q frames that carry a frame on MAC `e` (R208). (DESIGN CHOICE, log 58) -/
def segments (w : Wait) (e : Nat) (frame : List Byte) (s : State) : List (List Byte) :=
  let m := s.im.ports.eths.getD e {}
  let n := ceilDiv frame.length 1484
  (List.range n).map (fun i =>
    let data := (frame.drop (1484 * i)).take 1484
    let head := [0x01, BitVec.ofNat 8 (chanNum w.chan)] ++ leBytes 2 w.tick.toNat ++ leBytes 2 i ++ leBytes 2 n ++ leBytes 4 (1484 * i) ++ leBytes 4 frame.length
    let payload := head ++ data
    let f := beBytes 6 (m.entries.getD 31 {}).smac ++ beBytes 6 m.ownMac ++ [0x81, 0x00] ++ beBytes 2 (tci e) ++ [0x88, 0xB5] ++ fitBytes (max 42 payload.length) payload
    f ++ leBytes 4 (crc32 f).toNat)
where
  /-- VLAN ID and priority of the channel on the MAC (R204). -/
  tci (e : Nat) : Nat := let v := (s.im.chan w.chan).vlans.getD e 0; field v 12 3 * 8192 + field v 0 12

/-- A route can take a frame now. (DESIGN CHOICE, log 58) -/
def routeReady (w : Wait) (s : State) : Bool :=
  if w.route = 0 then let r := s.ring w.chan; r.en && s.hst.bme && !r.full && !r.busy
  else if w.route = 1 then true
  else (s.im.ports.eths.getD (w.route - 2) {}).en && (s.eth (w.route - 2)).link && !(s.eth (w.route - 2)).fenced

/-- The frame enters a card-link buffer: buffer 0 first, then the two in turn (R209). (DESIGN CHOICE, log 58) -/
def toCardBuf (w : Wait) (frame : List Byte) (s : State) : State :=
  let b := match (s.chan w.chan).clBuf with | some (x, _, _) => !x | none => false
  let a := (s.im.chan w.chan).clBuf + (if b then s.im.frameSpan (w.chan = .b) else 0)
  { s.setChan w.chan { s.chan w.chan with clBuf := some (b, w.tick, frame.length) } with mem := Memory.write s.mem a frame }

/-- The frame goes out on its route. -/
def sendFrame (w : Wait) (frame : List Byte) (s : State) : State :=
  if w.route = 0 then
    let r := s.ring w.chan
    (s.setRing w.chan { r with busy := true }).say (.hostWrite (r.base + w64 (r.tail.toNat * r.slotKib.toNat * 1024)) frame)
  else if w.route = 1 then toCardBuf w frame s
  else
    let e := w.route - 2
    let fs := segments w e frame s
    let s := s.setEth e { s.eth e with cnt := tmod (s.eth e).cnt 7 (fun c => satAdd c fs.length) }
    fs.foldl (fun s f => s.say (.frame w.chan w.route f)) s

/-- Vector 2 when every route has accepted the frames of the tick (R30). -/
def emitDone (s : State) : State := if s.outb.waits.isEmpty then msix 2 (s.tck.intEn.getLsbD 1) s else s

/-- TIME_STEP is judged at the first hand-off of channel B; the copies of a frame differ in nothing but what R206 names. (DESIGN CHOICE, log 58) -/
def stepSeen (w : Wait) (s : State) : Wait :=
  if w.chan = .b && !(s.chan .b).stamped then { w with flags := withStep (s.spansStep w.oldest) w.flags } else w

/-- A route accepts the frame that waits for it. (DESIGN CHOICE, log 58) -/
def acceptFrame (w : Wait) (s : State) : State :=
  let out := s.stamp
  let w := stepSeen w s
  let s := { s with outb.waits := s.outb.waits.map (fun v => if v.chan = w.chan then { v with flags := w.flags } else v) }
  let s := sendFrame w (frameBytes w out s) s
  let x := s.chan w.chan
  let s := if x.stamped then s
    else
      let s := s.setChan w.chan { x with stamped := true, lastOut := w64 out, lastAge := if w.chan = .b then ageAt out w.oldest.stamp else 0 }
      if w.chan = .b then patchBlock w out s else s
  emitDone { s with outb.waits := s.outb.waits.filter (fun v => !(v.chan = w.chan && v.route = w.route)) }

/-- FRAME_ACCEPT (R209). -/
def execFrameAccept (chan : Channel) (route : Nat) (s : State) : Answer :=
  done (match s.outb.waits.find? (fun w => w.chan = chan && w.route = route) with
    | some w => if s.tck.eDone && !s.tck.qDone && s.mode.ticks && decide (s.mono ≤ s.tck.qMono) && routeReady w s then acceptFrame w s else s
    | none => s)

/-! ## The Quiet edge (R30) -/

/-- A frame that its route has not accepted is discarded for that route. -/
def dropFrame (w : Wait) (s : State) : State :=
  let x := s.chan w.chan
  let s := { s.setChan w.chan { x with drops := tinc x.drops w.route } with tck.emitLate := satInc s.tck.emitLate }
  if w.route = 0 then
    let r := s.ring w.chan
    if r.en && r.full then s.setRing w.chan { r with fullDrop := satInc r.fullDrop } else s
  else if w.route = 1 then s
  else s.setEth (w.route - 2) { s.eth (w.route - 2) with cnt := tinc (s.eth (w.route - 2)).cnt 8 }

/-- QUIET_EDGE (R16, R30). -/
def execQuietEdge (s : State) : Answer :=
  done (if s.tck.ticked && s.mode.ticks && s.tck.eDone && !s.tck.qDone then
    let s := advanceTo s.tck.qMono s
    let s := s.outb.waits.foldl (fun s w => dropFrame w s) s
    { s with outb.waits := [], tck.qDone := true, tck.phase := 3 }
  else s)

end Sys2Proof.Machine
end

