-- ==== Sys2Proof/Machine/ImagePlace.lean ====
section
/-! DEFINITION. The checks of a Fenor image, continued: streams, ego-motion, grid, vote, outputs, power, fault map,
self-test, archive areas, ledger, incidents, payloads and placements (R80 to R82, R96, R170, R171, R179, R190 to R198,
R204, R215, R220, R271, R282, R335, R353, R383), and their order (R84). -/
namespace Sys2Proof.Machine

/-! ## STREAMS and EGO (R170, R171, R179) -/

/-- The payload of an ID. -/
def Image.payload (im : Image) (id : Nat) : Option Payload := im.payloads.find? (fun p => p.id = id)

/-- A slot is an input of the GRID task. -/
def Image.gridReads (im : Image) (slot : Nat) : Bool := im.tasks.any (fun t => t.kind = 5 && t.ins.any (fun i => i.slot = slot))

/-- Bytes of the compensation ring of a stream: one record for each entry of its queue. -/
def Image.compLen (im : Image) (d : StreamDecl) : Nat :=
  match im.streamQueue d.stream with
  | some q => 32 * 2 ^ (im.queue q).log2
  | none => 0

def streamOk (im : Image) (s : List Byte) (d : StreamDecl) : Bool :=
  only s 0 0x00FF01FF && only s 4 0x3FFFF && only s 8 0x3FFFF && only s 0xC 0x1FFFF && only s 0x10 0x1FFFF && only s 0x14 0x1FFFFFFF &&
    zeroAt s 0x1C 4 && within 100 d.period 200000 && within 100 d.window 200000 && 2 * d.limit ≤ im.tick.period && 2 * d.jitter ≤ d.period &&
    (d.kind ≠ 0 || d.slot = 0) && d.window + im.tick.emit ≤ 256000 && !(d.kind = 0 && (im.tick.period < d.period || d.period < d.window)) &&
    !(d.gather && d.kind ≠ 0 && d.window < d.period) && !(d.toEgo && d.kind ≤ 1) && (d.gather || d.toEgo) &&
    (d.cover = 0xFFFF || (im.payload d.cover).isSome)

def streamsOk (s : List Byte) (im : Image) : Bool :=
  let n := bits s 0 0 6
  within 1 n 32 && 16 + 32 * n ≤ s.length && only s 0 0x3F && only s 4 0x1FFF && zeroAt s 8 8 &&
    im.streams.streams.zipIdx.all (fun e => streamOk im (part s (16 + 32 * e.2) 32) e.1) &&
    distinct (im.streams.streams.map (fun d => d.stream)) && im.gridReads im.streams.gatherSlot

/-- DESIGN CHOICE, log 35. -/
def egoOk (s : List Byte) (im : Image) : Bool :=
  match im.ego with
  | none => true
  | some e =>
    128 ≤ s.length && only s 0 0x00FF3F1F && only s 4 0x3FFFF && only s 0x54 0xFFFF3FFF && only s 0x58 0x1FFF1FFF && zeroAt s 0x68 24 &&
      (List.range 5).all (fun i => only s (0x10 + 8 * i) 0xBFFFFFFF && only s (0x14 + 8 * i) 0x3FFFFF) &&
      e.imu.all (fun n => n = 31 || kindIs im n 3) && e.imuOfs ≤ 52 &&
      e.sigs.all (fun g => !g.used || (within 1 g.len 32 && g.start + g.len ≤ 512 && (match im.stream g.stream with | some d => d.toEgo | none => false))) &&
      within 1000 e.wheelbase 6000 && within 256 e.steerRatio 10240 && within 1 e.slipThr 100 && within 2 e.wheelTo 100 && e.drMax ≤ 2000 &&
      e.extrapMax ≤ 10000 && within 100 e.tau 10000 &&
      (e.corrSlot = 0x1FFF || im.tasks.any (fun t => t.kind = 2 && t.outs.head? = some e.corrSlot))

/-! ## GRID, VOTE and OUTPUT (R190 to R198, R204) -/

/-- A lift table's header (R197): COLS, BINS, STREAM, as the archive holds it. -/
def liftTableOk (read : Nat → Nat → List Byte) (p : Payload) (stream : Nat) : Bool :=
  let h := read p.arcAddr 32
  let cols := bits h 0 0 10
  let bins := bits h 0 16 7
  p.kind = 3 && (p.dest < 48 || p.dest = 0xFE) && only h 0 0x007F03FF && only h 4 0x1F && zeroAt h 8 8 && within 1 cols 512 && within 1 bins 64 && bits h 4 0 5 = stream && p.length = 16 + 4 * cols * bins

def gridOk (read : Nat → Nat → List Byte) (s : List Byte) (im : Image) : Bool :=
  let g := im.grid
  let nl := g.lifts.length
  0x20 + 8 * nl + 8 * g.pillars.length ≤ s.length && only s 0 0x03FF03FF && only s 4 0x007F07FF && only s 8 0x03FF03FF && only s 0x14 0x1FFF &&
    only s 0x18 0x3F3F && zeroAt s 0x1C 4 && within 16 g.x 512 && g.x % 8 = 0 && within 16 g.y 512 && g.y % 8 = 0 && within 50 g.cellMm 1600 &&
    g.cellMm % 10 = 0 && within 1 g.c 64 && g.originX < g.x && g.originY < g.y && g.buf0 % 4096 = 0 && g.buf1 % 4096 = 0 &&
    inGrid g.buf0 g.bytes && inGrid g.buf1 g.bytes && nl ≤ 32 && g.pillars.length ≤ 32 &&
    (List.range nl).all (fun i => only s (0x20 + 8 * i) 0xFFFF001F && zeroAt s (0x24 + 8 * i) 4) &&
    (List.range g.pillars.length).all (fun i => only s (0x20 + 8 * nl + 8 * i) 0x7F1F) &&
    distinct (g.lifts.map (fun l => l.stream)) && distinct (g.pillars.map (fun l => l.stream)) &&
    g.lifts.all (fun l => kindIs im l.stream 0 && (match im.payload l.tableId with | some p => liftTableOk read p l.stream | none => false)) &&
    g.pillars.all (fun l => kindIs im l.stream 1 && within 1 l.maxPts 64 && l.zMin < l.zMax && -5000 ≤ l.zMin && l.zMax ≤ 10000) &&
    im.streams.streams.all (fun d => match im.payload d.cover with
      | some p => d.cover = 0xFFFF || (p.dest = 0xFE && p.length = g.y * ceilDiv g.x 32 * 4)
      | none => true)

def groupOk (im : Image) (s : List Byte) (v : VoteGroup) : Bool :=
  let n := bits s 0 0 3
  only s 0 0xFF0F && only s 4 0x03FF03FF && only s 8 0x03FF03FF && only s 0xC 0x1FFFFFF &&
    (!v.used || (within 3 n 5 && 1 ≤ v.agreeThr && 1 ≤ v.w && 1 ≤ v.h && v.x0 + v.w ≤ im.grid.x && v.y0 + v.h ≤ im.grid.y &&
      bits s 0xC (5 * n) (25 - 5 * n) = 0 && distinct v.members &&
      v.members.all (fun m => match im.stream m with | some d => d.gather | none => false)))

def voteOk (s : List Byte) (im : Image) : Bool :=
  match im.vote with
  | none => true
  | some v =>
    let n := bits s 0 0 5
    let need := v.groups.foldl (fun k g => k + if g.used then g.members.length * g.w * g.h else 0) 0
    n ≤ 16 && 16 + 16 * n ≤ s.length && only s 0 0x1FFF001F && only s 4 0x1FFF && only s 8 0x03FF00FF && only s 0xC 0xFFFF &&
      within 1 v.windowTicks 8 && within 1 v.strikesOut v.windowTicks && within 1 v.cleanTicks 1000 &&
      v.groups.zipIdx.all (fun e => groupOk im (part s (16 + 16 * e.2) 16) e.1) &&
      im.tasks.any (fun t => t.ins.any (fun i => i.slot = v.voteSlot)) && im.gridReads v.evidSlot &&
      (match im.slot v.evidSlot with | some d => need ≤ d.len | none => false)

/-- The fields and limits of an output channel (R204), which hold whatever its EN is. -/
def chanOk (im : Image) (isB : Bool) (s : List Byte) (c : OutChan) : Bool :=
  only s 0 0x3F01 && only s 4 0x03FF03FF && only s 8 0x03FF03FF && zeroAt s 0x18 8 && c.vlans.all (fun v => v < 0x8000) &&
    (c.routes.testBit 1 || c.clBuf = 0) &&
    c.winX0 + c.winW ≤ im.grid.x && c.winY0 + c.winH ≤ im.grid.y &&
    (List.range 4).all (fun e => !c.routes.testBit (2 + e) || (im.ports.eths.getD e {}).en) &&
    (!c.routes.testBit 1 || (c.clBuf % 4096 = 0 && inStream c.clBuf (2 * im.frameSpan isB)))

def outputOk (s : List Byte) (im : Image) : Bool :=
  64 ≤ s.length && chanOk im false (part s 0 32) im.outA && chanOk im true (part s 32 32) im.outB

/-! ## POWER, FAULTMAP and SELFTEST (R334, R335, R353, R383) -/

/-- Classes that the table of consumers permits. -/
def classPermitted (c k : Nat) : Bool := if c < 48 then k ≤ 2 else if c = 57 then k ≤ 1 else k = 0

def powerOk (otp : Otp) (s : List Byte) (im : Image) : Bool :=
  let p := im.power
  let n := bits s 0x94 0 11
  let cores := if otp.variant = 0 then 0 else 12 * 2 ^ (otp.variant.toNat - 1)
  let ceil := if otp.variant = 1 then 180 else if otp.variant = 2 then 340 else 750
  let crit := (p.consumers.filter (fun e => e.2 = 0)).foldl (fun k e => k + e.1) p.base
  n ≤ 1024 && 0xA0 + 4 * n ≤ s.length && only s 8 0xFF && only s 0xC 0x77FF && only s 0x90 0x3FF && (List.range 5).all (fun g => bits s 0x90 (2 * g) 2 ≠ 3) && only s 0x94 0x7FF && zeroAt s 0x98 8 &&
    (List.range 64).all (fun c => at16 s (0x10 + 2 * c) < 0x4000) && (List.range n).all (fun i => only s (0xA0 + 4 * i) 0xFFFF03FF) &&
    within 90 p.thermThr 125 && within 500 p.coreMhz 1100 && p.coreMhz % 50 = 0 && crit ≤ p.floor && p.floor ≤ p.budget && p.budget ≤ ceil &&
    p.consumers.zipIdx.all (fun e => classPermitted e.2 e.1.2) && (p.consumers.drop 62).all (fun e => e = (0, 0)) &&
    (List.range cores).all (fun c => im.sku.coreMask.testBit c || (p.consumers.getD c (0, 0)).1 = 0) && distinct (p.fab.map (fun e => e.1))

def faultMapOk (s : List Byte) (im : Image) : Bool :=
  let f := im.faultMap
  1040 ≤ s.length && only s 0 0x03FFFF07 && zeroAt s 4 12 && within 1 f.extFilt 20 && within 1 f.extHold 1000 &&
    f.entries.zipIdx.all (fun e =>
      let m := e.1
      only s (0x10 + 4 * e.2) 0xFFF7 && m.react ≠ 5 && m.react ≠ 6 && m.escN ≠ 1 && (decide (m.escT = 0) == decide (m.escN = 0)) &&
        (e.2 < 92 || at32 s (0x10 + 4 * e.2) = 0) && !(within 86 e.2 89 && m.react < 3))

def selfTestOk (s : List Byte) (im : Image) : Bool :=
  16 ≤ s.length && only s 0 0xFF01 && only s 4 0xFFFF && zeroAt s 8 8 && 1 ≤ im.selfTest.skipWarn && within 100 im.selfTest.rotLimit 60000 &&
    (im.selfTest.slices || im.hdr.dev)

/-! ## ARCAREA, LEDGER and INCIDENT (R215, R220, R271, R282) -/

/-- Fixed areas: bank, first sector index, count. -/
def fixedAreas (ledger : Bool) : List (Nat × Nat × Nat) :=
  [(0, 0, 2), (0, 8, 16), (1, 8, 16), (0, 510, 8), (1, 510, 8)] ++ if ledger then [(1, 0, 8)] else []

/-- Two runs of sectors overlap. -/
def runsMeet (a b : Nat × Nat × Nat) : Bool := a.1 = b.1 && a.2.1 < b.2.1 + b.2.2 && b.2.1 < a.2.1 + a.2.2

def Area.run (a : Area) : Nat × Nat × Nat := (a.bank, a.first, a.count)

/-- The sectors of a payload (R80). -/
def Payload.run (p : Payload) : Nat × Nat × Nat := (p.bank, 8 + p.sector, ceilDiv p.length 0x40000)

/-- No two runs of a list meet. -/
def runsApart : List (Nat × Nat × Nat) → Bool
  | [] => true
  | a :: l => l.all (fun b => !runsMeet a b) && runsApart l

def arcAreaOk (s : List Byte) (im : Image) : Bool :=
  let a := im.arcArea
  let n := bits s 0 0 6
  n ≤ 32 && 0xA0 + 16 * n ≤ s.length && only s 0 0x3013F && 1 ≤ a.eccWarn && zeroAt s 4 12 && zeroAt s 0x98 8 &&
    a.wp0.toNat < 2 ^ 518 && a.wp1.toNat < 2 ^ 518 &&
    (List.range n).all (fun i => only s (0xA0 + 16 * i) 0xFF3F && only s (0xA4 + 16 * i) 0x03FF03FF && zeroAt s (0xA8 + 16 * i) 8) &&
    distinct (a.areas.map (fun x => x.id)) && (a.areas.filter (fun x => x.kind = 1)).length ≤ 1 &&
    a.areas.all (fun x => within 1 x.kind 2 && 1 ≤ x.count && x.first + x.count ≤ 518 &&
      (x.kind ≠ 1 || (8 ≤ x.first && within 4 x.count 256)) && (x.kind ≠ 2 || x.first + x.count ≤ 8 || 8 ≤ x.first) &&
      (fixedAreas im.ledger.isSome).all (fun f => !runsMeet f x.run) && im.payloads.all (fun p => !runsMeet p.run x.run)) &&
    runsApart (a.areas.map Area.run)

def ledgerOk (s : List Byte) (im : Image) : Bool :=
  match im.ledger with
  | none => true
  | some l =>
    let nf := bits s 0 0 5
    let nb := bits s 4 0 7
    only s 0 0x0FFF7F1F && only s 4 0x7F && zeroAt s 8 8 && within 1 nf 16 && l.slack ≤ 100 && within 60 l.ckpt 3600 && within 2 nb 64 &&
      0x50 + 8 * nb ≤ s.length && (List.range nf).all (fun f => only s (0x10 + 4 * f) 0x0FFFFFFF) && zeroAt s (0x10 + 4 * nf) (64 - 4 * nf) &&
      (l.bounds.zip (l.bounds.drop 1)).all (fun e => e.1 + 3600000000000 ≤ e.2 && e.2 ≤ e.1 + 2678400000000000) &&
      l.features.all (fun f => f.2 = 0xFFF || im.tasks.any (fun t => t.id = f.2))

def incidentOk (s : List Byte) (im : Image) : Bool :=
  match im.incident with
  | none => true
  | some i =>
    32 ≤ s.length && only s 0 0x7F7F7F01 && only s 4 0x017F1FFF && only s 0xC 0x371F && only s 0x14 0x7F && zeroAt s 0x18 8 && i.pre ≤ 64 &&
      i.post ≤ 64 && within 2 i.slots 64 && i.pre + 1 ≤ i.slots && within 4 i.sumKib 64 && i.ringBase % 4096 = 0 && within 1 i.faultLevel 4 &&
      within 0x1000000 i.decelThr (100 * 0x1000000) && within 1 i.decelWin 100 &&
      (!i.en || (match im.incArea with | some a => i.recSectors ≤ a.count | none => false)) &&
      im.tasks.any (fun t => t.outs.contains i.sumSlot) && inStream i.ringBase (i.slots * i.sumBytes)

/-! ## Payloads and placements (R80 to R82, R96) -/

/-- The banks of R95 that a range of a core's SRAM touches lie in a mask. -/
def banksHold (mask ofs len : Nat) : Bool :=
  (List.range 8).all (fun b => mask.testBit b || ofs + len ≤ b * 0x40000 || (b + 1) * 0x40000 ≤ ofs)

def payloadOk (s : List Byte) (p : Payload) : Bool :=
  only s 0 0x01FFFFFF && only s 4 0x3FF && only s 0xC 0xFFFF && zeroAt s 0x14 12 && within 1 p.kind 5 && within 16 p.sector 509 &&
    within 32 p.length 125829120 && p.length % 32 = 0 && (p.dest < 48 || p.dest = 0xFE || p.dest = 0xFF) && (p.dest < 48 || p.bankMask = 0)

def payloadsOk (s : List Byte) (im : Image) : Bool :=
  let n := bits s 0 0 9
  within 1 n 256 && s.length = 32 + 64 * n && only s 0 0x1FF && zeroAt s 8 24 && at32 s 4 = im.payloads.foldl (fun k p => k + p.length) 0 &&
    rising (im.payloads.map (fun p => p.id)) && im.payloads.zipIdx.all (fun e => payloadOk (part s (0x20 + 64 * e.2) 64) e.1)

/-- A run of memory: start and length. -/
abbrev Span := Nat × Nat

def spansMeet (a b : Span) : Bool := a.2 ≠ 0 && b.2 ≠ 0 && a.1 < b.1 + b.2 && b.1 < a.1 + a.2

def spansApart : List Span → Bool
  | [] => true
  | a :: l => l.all (fun b => !spansMeet a b) && spansApart l

/-- Destinations of payloads in memory. -/
def payloadSpans (im : Image) : List Span := im.payloads.filterMap (fun p => p.addr.map (fun a => (a, p.length)))

/-- Step 9: payload placement (R80). -/
def placementOk (im : Image) : Bool :=
  let runs := im.payloads.map Payload.run
  runs.all (fun r => r.2.1 + r.2.2 ≤ 518 && (fixedAreas im.ledger.isSome).all (fun f => !runsMeet f r) && im.arcArea.areas.all (fun a => !runsMeet a.run r)) &&
    runsApart runs &&
    im.payloads.all (fun p =>
      if p.dest < 48 then im.sku.coreMask.testBit p.dest && p.destOfs + p.length ≤ coreSize && banksHold p.bankMask p.destOfs p.length
      else if p.dest = 0xFE then p.destOfs + p.length ≤ gridSize else true) &&
    spansApart (payloadSpans im)

/-- Tensors of the scoreboard slots. -/
def tensorSpans (im : Image) : List Span :=
  im.queues.slots.flatMap (fun d => (d.addr0, d.len) :: (if d.double then [(d.addr1, d.len)] else []))

/-- Data areas of the queues in use. -/
def dataSpans (im : Image) : List Span :=
  (im.queues.queues.filter (fun q => q.prod ≠ 0 || q.cons ≠ 0)).map (fun q => (q.dataBase, q.dataLen))

/-- Placements in grid memory or stream memory: rings (R97), line rings, grid buffers, card-link frame buffers and the vitrine's
ring. -/
def sharedSpans (im : Image) : List Span :=
  (im.queues.queues.filter (fun q => q.prod ≠ 0 || q.cons ≠ 0)).map (fun q => (q.base, 32 * 2 ^ q.log2)) ++
    (im.ports.cams.filter (fun c => c.en)).flatMap (fun c => (c.bindings.filter (fun b => b.bound)).map (fun b => (b.ringBase, b.lringLines * b.lineStep))) ++
    [(im.grid.buf0, im.grid.bytes), (im.grid.buf1, im.grid.bytes)] ++
    (if im.outA.routes.testBit 1 then [(im.outA.clBuf, 2 * im.frameSpan false)] else []) ++
    (if im.outB.routes.testBit 1 then [(im.outB.clBuf, 2 * im.frameSpan true)] else []) ++
    (match im.incident with | some i => [(i.ringBase, i.slots * i.sumBytes)] | none => [])

/-- Placements that no other placement may overlap. -/
def strictSpans (im : Image) : List Span := sharedSpans im ++ dataSpans im

/-- Compensation rings. -/
def compSpans (im : Image) : List Span := (im.streams.streams.filter (fun d => d.gather)).map (fun d => (d.compRing, im.compLen d))

/-- A span lies in one memory of R96, where the image may place it. -/
def spanIn (im : Image) (a : Span) : Bool := a.2 = 0 || inGrid a.1 a.2 || inStream a.1 a.2 || inCores im.sku.coreMask a.1 a.2

/-- Step 8 for the memories of R96: where rings, tensors and areas lie, and that they do not overlap. Where payloads lie is
judged in step 9 (R80, R84). -/
def spansOk (im : Image) : Bool :=
  let strict := strictSpans im
  let loose := tensorSpans im ++ payloadSpans im ++ compSpans im
  (sharedSpans im).all (fun a => a.2 = 0 || inGrid a.1 a.2 || inStream a.1 a.2) &&
    (dataSpans im ++ tensorSpans im ++ compSpans im).all (spanIn im) && spansApart strict &&
    strict.all (fun a => loose.all (fun b => !spansMeet a b)) && spansApart (tensorSpans im)

/-- First bytes of a task's microprogram and parameter block, on its core and on its alternate; no section gives their lengths. (DESIGN CHOICE, log 39) -/
def taskPlaces (im : Image) : List Span :=
  im.tasks.flatMap (fun t => ([t.core, t.altCore].filter (fun c => c < 48)).flatMap (fun c =>
    [(coreBase c + t.progOfs, 1), (coreBase c + t.paramOfs, 1)]))

/-- HOTRESERVE (R82). -/
def hotReserveOk (s : List Byte) (im : Image) : Bool :=
  let n := bits s 0 0 6
  let banks := reserveRanges im.hotReserve
  n ≤ 48 && 16 + 4 * n ≤ s.length && only s 0 0x3F && zeroAt s 4 12 && (List.range n).all (fun i => only s (0x10 + 4 * i) 0xFF3F) &&
    im.hotReserve.all (fun e => e.1 < 48 && im.sku.coreMask.testBit e.1 && e.2 ≠ 0) && distinct (im.hotReserve.map (fun e => e.1)) &&
    banks.all (fun b => (payloadSpans im ++ strictSpans im ++ tensorSpans im ++ taskPlaces im).all (fun a => !spansMeet a b))

/-! ## The order of the checks (R84) -/

/-- A failed check: reason code and status. -/
abbrev CheckFail := Byte × Byte

/-- Step 8: field ranges. (DESIGN CHOICE, log 35) -/
def fieldsOk (otp : Otp) (mgrSel : Bool) (read : Nat → Nat → List Byte) (b : List Byte) (im : Image) : Bool :=
  let sec (t : Nat) : List Byte := (sectionOf b t).getD []
  tickOk (sec 2) im && timeOk (sec 3) im && streamsOk (sec 4) im && portsOk (sec 5) im && egoOk (sec 6) im && gridOk read (sec 7) im &&
    graphOk (sec 8) im && queuesOk (sec 9) im && qformatOk (sec 0xA) im && solverOk read (sec 0xB) im && voteOk (sec 0xC) im &&
    outputOk (sec 0xD) im && powerOk otp (sec 0xE) im && faultMapOk (sec 0xF) im && selfTestOk (sec 0x10) im && arcAreaOk (sec 0x11) im &&
    fabricOk mgrSel (sec 0x12) im && ledgerOk (sec 0x13) im && incidentOk (sec 0x14) im && payloadsOk (sec 0x15) im && spansOk im &&
    (match sectionOf b 0x16 with | some h => hotReserveOk h im | none => true)

/-- The archive ranges that step 8 of R84 reads beside the structure section: the headers of lift tables, and the words that hold SOLVE_ID. (DESIGN CHOICE, log 35) -/
def fieldReads (im : Image) : List (Nat × Nat) :=
  im.grid.lifts.filterMap (fun l => (im.payload l.tableId).map (fun p => (p.arcAddr, 32))) ++
    (im.tasks.filter (fun t => t.kind = 2)).filterMap (fun t => (paramPlace im t).map (fun o => (o / 32 * 32, 64)))

/-- Steps 2 to 9 of R84 on the bytes of a structure section: the first failure. `bad` tells the ranges that hold an UNCORRECTABLE word. (DESIGN CHOICE, log 35) -/
def staticFail (otp : Otp) (mgrSel : Bool) (read : Nat → Nat → List Byte) (bad : Nat → Nat → Bool) (b : List Byte) (im : Image) : Option CheckFail :=
  if !keyOk otp b then some (0x02, stAuthFail)
  else if !signatureOk b then some (0x03, stAuthFail)
  else if im.hdr.dev && otp.isSealed then some (0x04, stAuthFail)
  else if im.hdr.secVer < otp.floor.toNat then some (0x05, stAuthFail)
  else if !skuOk otp ((sectionOf b 1).getD []) im then some (0x06, stNotPresent)
  else if !directoryOk b then some (0x07, stBadArg)
  else if (fieldReads im).any (fun r => bad r.1 r.2) then some (0x0B, stCrcError)
  else if !fieldsOk otp mgrSel read b im then some (0x08, stBadArg)
  else if !placementOk im then some (0x09, stBadArg)
  else none

/-- The hot payload rule (R89). -/
def hotRuleOk (old new : Image) : Bool :=
  let unchanged (p : Payload) : Option Payload := old.payloads.find? (fun q => q.id = p.id && q.digest = p.digest)
  let banks := reserveRanges old.hotReserve
  let heldIn (a : Span) : Bool := match (reserveRanges old.hotReserve).find? (fun b => b.1 ≤ a.1 && a.1 < b.1 + b.2) with
    | some _ => (List.range (ceilDiv a.2 0x40000 + 1)).all (fun k =>
        let x := min (a.1 + k * 0x40000) (a.1 + a.2 - 1)
        banks.any (fun b => b.1 ≤ x && x < b.1 + b.2))
    | none => false
  new.payloads.all (fun p => match unchanged p with
    | some q => p.dest = q.dest && p.bankMask = q.bankMask && p.destOfs = q.destOfs
    | none => match p.addr with
      | some a => p.hot && p.dest < 48 && heldIn (a, p.length)
      | none => true) &&
    (reserveRanges new.hotReserve).all (fun b => (payloadSpans new).all (fun a => !spansMeet a b))

/-- Payloads that verification streams: those the running image does not hold unchanged. -/
def changedPayloads (old new : Image) : List Payload :=
  new.payloads.filter (fun p => !(old.payloads.any (fun q => q.id = p.id && q.digest = p.digest)))

end Sys2Proof.Machine
end

