-- ==== Sys2Proof/Machine/Startup.lean ====
section
/-! DEFINITION. The commands of power, resets, start-up and GCTL (03_states_and_startup.md, 20_conservator.md). -/
namespace Sys2Proof.Machine

/-! ## Power and resets (R56, R58, R62, R63, R406, R411) -/

/-- PORESET_N is released with every supply inside its window: OFF to HOLD at t₀, with the straps sampled. -/
def powerOn (mgrSel : Bool) (fabAddr : BitVec 10) (s : State) : State :=
  if s.mode = .off then
    let s := afterReset rstPower s
    drivePair (some (false, true)) { s with pins.mgrSel := mgrSel, pins.fabAddr := fabAddr, pins.faultPair := none }
  else s

/-- POWER_ON (R56). -/
def execPowerOn (mgrSel : Bool) (fabAddr : BitVec 10) (s : State) : Answer := done (powerOn mgrSel fabAddr s)

/-- PORESET_ASSERT (R411): OFF, while the archive completes a code word in progress. -/
def execPoresetAssert (s : State) : Answer := done (if s.mode = .off then s else goOff (finishWord s))

/-- The code word in progress when a supply leaves its window (R332): completed, or on the board form, which may have no hold-up, left TORN
(R214). (DESIGN CHOICE, log 33) -/
def dropWord (s : State) : State :=
  match s.arc.prog with
  | some p =>
    if p.data.isEmpty then { s with arc.prog := none }
    else if !s.otp.cardForm && Config.tornOnSupplyLoss s.freeCtr then
      { s.drawn with arc := { s.arc.invalidate p.addr 32 with words := wput s.arc.words (p.addr / 32) .torn, prog := none } }
    else finishWord s.drawn
  | none => s

/-- SUPPLY_LOSS (R406): a supply counts as below its window. -/
def execSupplyLoss (_supply : Supply) (s : State) : Answer := done (if s.mode = .off then s else goOff (dropWord s))

/-- The filtered RESET_N falls (R62); in REMOVAL the reset waits for step 6 of R268 (R58). (DEDUCED, log 68) -/
def pinReset (s : State) : State :=
  if s.mode = .off || s.pins.resetLow then s
  else if s.mode = .removal && !s.pins.quiescent then { s with pins.resetLow := true, pins.resetWaits := true }
  else resetTo rstPin { s with pins.resetLow := true }

/-- PIN_RESET (R62). -/
def execPinReset (s : State) : Answer := done (pinReset s)

/-- PIN_RESET_RELEASE (R63): the straps are sampled (R406) and the schedule begins at the end of the reset. -/
def execPinResetRelease (mgrSel : Bool) (fabAddr : BitVec 10) (s : State) : Answer :=
  done (if s.pins.resetLow then
    { s with pins.resetLow := false, pins.mgrSel := mgrSel, pins.fabAddr := fabAddr, gctl.t0 := s.mono, gctl.holdGood := 0 }
  else s)

/-! ## The boot twins (R72, R83, R84, R215) -/

/-- Archive address of a boot twin (R215), and its bank and first sector. -/
def twinBase : Twin → Nat
  | .a => 0x00010000
  | .b => 0x08010000
def twinBank : Twin → Bool
  | .a => false
  | .b => true
def otherTwin : Twin → Twin
  | .a => .b
  | .b => .a

/-- Step 1 of R84 on the header word of a twin. -/
def headerFail (t : Twin) (s : State) : Option CheckFail :=
  if s.arc.uncorrIn (twinBase t) 32 then some (0x0B, stCrcError)
  else if headerOk (s.arc.readBytes (twinBase t) 32) then none
  else some (0x01, stBadArg)

/-- The bytes of a twin's structure section, at most 4,194,304 (R72). (DESIGN CHOICE, log 38) -/
def twinBytes (t : Twin) (s : State) : List Byte :=
  s.arc.readBytes (twinBase t) (min 4194304 (at32 (s.arc.readBytes (twinBase t) 32) 8))

/-- The twin to be tried next. -/
def twinToTry (s : State) : Twin :=
  match s.gctl.tried with
  | t :: _ => otherTwin t
  | [] => match s.arc.newestSelector with
    | some (_, _, true, _) => .b
    | _ => .a

/-! ## HOLD, SELFTEST and LOAD (R64, R71, R370 to R374) -/

/-- The bytes of payload of the twin that LOAD tries; none where its header does not stand. -/
def payloadBytes (s : State) : Nat :=
  let t := twinToTry s
  if (headerFail t s).isSome then 0 else ((readImage (twinBytes t s)).payloads.map (fun p => p.length)).sum

/-- The time to ARMED that is expected from now on, by the fused test plan and the image's payload length (R71). (DESIGN CHOICE, log 5) -/
def expectFrom (inLoad : Bool) (s : State) : State := { s with gctl.expectAt := s.mono + Config.expectNs inLoad (payloadBytes s) }

/-- Reasons that end only by reset. -/
def holdFixed (r : Byte) : Bool := 3 ≤ r.toNat

/-- The first unmet condition of R64, as a HOLD_REASON; none when all are met. -/
def holdReasonOf (s : State) (refclkOk suppliesOk pllOk : Bool) : Option Byte :=
  if s.otp.variant = 0 then some 4 else if !pllOk then some 3 else if !refclkOk then some 1 else if !suppliesOk then some 2 else none

/-- HOLD ends: SELFTEST. (DESIGN CHOICE, log 31) -/
def toSelftest (s : State) : State :=
  let s := enter .selftest s
  planWait (expectFrom false { s with gctl.selfMono := s.mono, gctl.holdReason := 0 })

/-- The 1 ms check in HOLD: REFCLK and the supplies must hold for 10 ms once one of them has failed. -/
def holdCheck (refclkOk suppliesOk pllOk : Bool) (s : State) : State :=
  if s.mode ≠ .hold || s.pins.resetLow || holdFixed s.gctl.holdReason || s.pins.scan.isSome then s
  else
    let s := advanceTo (s.gctl.t0 + ((s.mono - s.gctl.t0) / 1000000 + 1) * 1000000) s
    let s := { s with clk.refclkOk := refclkOk, clk.lock := if pllOk then 0x3F else s.clk.lock }
    match holdReasonOf s refclkOk suppliesOk pllOk with
    | some r => idleFabric { s with gctl.holdReason := r, gctl.holdBad := true, gctl.holdGood := 0 }
    | none =>
      let n := s.gctl.holdGood + 1
      if s.gctl.holdBad && n < 10 then { s with gctl.holdGood := n } else toSelftest { s with gctl.holdGood := n }

/-- HOLD_CHECK (R64). -/
def execHoldCheck (refclkOk suppliesOk pllOk : Bool) (s : State) : Answer := done (holdCheck refclkOk suppliesOk pllOk s)

/-- Back from SELFTEST to HOLD, with a reason; fabric ports may be idled by it (R295). -/
def toHold (r : Byte) (s : State) : State :=
  idleFabric { enter .hold s with gctl.holdReason := r, gctl.holdBad := true, gctl.holdGood := 0, gctl.expectMs := 0xFFFF, gctl.waitFrom := none }

/-- CONDITION_LOST (R370): REFCLK or a supply leaves its limits during SELFTEST. -/
def execConditionLost (what : Condition) (s : State) : Answer :=
  done (if s.mode = .selftest then
    match what with
    | .refclk => toHold 1 { s with clk.refclkOk := false }
    | .supply => toHold 2 s
  else s)

/-- A failure of the plan (R374). (DESIGN CHOICE, log 32) -/
def planFails (code index : Byte) (s : State) : State := toHold 5 { s with tst.puCode := code, tst.puIndex := index }

/-- The plan ends: LOAD. A firmware copy with a marked sector is not valid (R217). `warn` code words were warned of by the read-margin check (R373). (DESIGN CHOICE, log 32) -/
def planDone (fw0 fw1 : Bool) (warn : Nat) (s : State) : State :=
  let whole (bank : Bool) : Bool := !s.arc.markedList.any (fun m => m.1 = bank && 510 ≤ m.2)
  let fw0 := fw0 && whole false
  let fw1 := fw1 && whole true
  let s := { s with arc.fw0 := fw0, arc.fw1 := fw1, tst.marginWarn := satAdd s.tst.marginWarn warn }
  if !fw0 && !fw1 then planFails 0x0C 0 s
  else
    let s := enter .load s
    expectFrom true { s with
      tst.puMs := BitVec.ofNat 16 ((s.mono - s.gctl.selfMono) / 1000000), gctl.loadMono := s.mono, gctl.tried := [] }

/-- POWERUP_PLAN_DONE (R370): a plan that waits for its budget does not end. -/
def execPowerupPlanDone (fw0 fw1 : Bool) (marginWarn : Nat) (s : State) : Answer :=
  done (if s.mode = .selftest && s.planAdmitted then planDone fw0 fw1 marginWarn s else s)

/-- POWERUP_FAIL (R374). -/
def execPowerupFail (code index : Byte) (s : State) : Answer := done (if s.mode = .selftest then planFails code index s else s)

/-! ## GCTL commands (R56, R65, R67, R68, R414) -/

/-- HALT (R56). -/
def execHalt (src : Source) (s : State) : Answer := done (gctlCmd src gHalt (doHalt src) s)

/-- GO (R65). -/
def execGo (src : Source) (s : State) : Answer := done (gctlCmd src gGo doGo s)

/-- RECOVER (R67). -/
def execRecover (src : Source) (s : State) : Answer := done (gctlCmd src gRecover doRecover s)

/-- ENTER_MAINT (R68). -/
def execEnterMaint (src : Source) (s : State) : Answer := done (gctlCmd src gMaint doMaint s)

/-- RESTART (R414). -/
def execRestart (src : Source) (key : Byte) (s : State) : Answer := done (gctlByCode src gRestart key s)

/-- CLR_CNT (R414). -/
def execClrCnt (src : Source) (s : State) : Answer := done (gctlCmd src gClrCnt doClrCnt s)

/-- CNT_CLR (R414): a write of a block's CNT_CLR bit. -/
def execCntClr (src : Source) (blk : CntBlk) (s : State) : Answer := done (judged src (cntAddr blk) (clearBlk blk) s)

end Sys2Proof.Machine
end

