-- ==== Sys2Proof/Machine/Fenor.lean ====
section
/-! DEFINITION. Loading a Fenor image at boot and changing it while running (04_fenor_image.md). -/
namespace Sys2Proof.Machine

/-! ## Reading a twin -/

/-- The sectors of a boot twin. -/
def twinSectors (t : Twin) : List (Bool × Nat) := (List.range 16).map (fun i => (twinBank t, 8 + i))

/-- The sectors of payloads. -/
def payloadSectors (l : List Payload) : List (Bool × Nat) :=
  l.flatMap (fun p => (List.range p.run.2.2).map (fun i => (decide (p.bank = 1), p.run.2.1 + i)))

/-- Sectors under the overlay of R87 and R88. -/
def setOverlay (l : List (Bool × Nat)) (s : State) : State := { s with arc.over0 := overlayOf l false, arc.over1 := overlayOf l true }

/-- Steps 1 to 9 of R84: the image, or the first failure. The whole section is read over channel S. (DESIGN CHOICE, log 35) -/
def checkTwin (t : Twin) (s : State) : State × Except CheckFail Image :=
  match headerFail t s with
  | some f => (streamS (twinBase t) 32 s, .error f)
  | none =>
    let b := twinBytes t s
    let im := readImage b
    let u := streamS (twinBase t) b.length s
    if s.arc.uncorrIn (twinBase t) b.length then (u, .error (0x0B, stCrcError))
    else match staticFail s.otp s.pins.mgrSel s.arc.readBytes s.arc.uncorrIn b im with
      | some f => (u, .error f)
      | none => (u, .ok im)

/-- Step 10 for one payload: streamed, written to its destination, digested (R85). -/
def streamPayload (p : Payload) (s : State) : State × Option CheckFail :=
  let u := streamS p.arcAddr p.length s
  if s.arc.uncorrIn p.arcAddr p.length then (u, some (0x0B, stCrcError))
  else
    let bytes := s.arc.readBytes p.arcAddr p.length
    let u := match p.addr with
      | some a => { u with mem := Memory.write u.mem a bytes }
      | none => u
    (u, if digestOf (sha256 bytes) = p.digest then none else some (0x0A, stDigestMismatch))

/-- Step 10 for a list of payloads, up to the first failure. -/
def streamPayloads : List Payload → State → State × Option CheckFail
  | [], s => (s, none)
  | p :: l, s =>
    let r := streamPayload p s
    match r.2 with
    | some f => (r.1, some f)
    | none => streamPayloads l r.1

/-! ## The selector (R218, R219) -/

/-- The selector registers show the newest valid word. -/
def showSelector (s : State) : State :=
  match s.arc.newestSelector with
  | some (k, seq, twin, pre) =>
    { s with arc.selSeq := BitVec.ofNat 32 seq, arc.selTwin := twin, arc.selSector := decide (256 ≤ k), arc.selWord := BitVec.ofNat 8 (k % 256), arc.selDigest := pre }
  | none => { s with arc.selSeq := 0, arc.selTwin := false, arc.selSector := false, arc.selWord := 0, arc.selDigest := 0 }

/-! ## LOAD (R83 to R86) -/

/-- A twin has failed: the other one is tried, or the device enters MAINT without an image. -/
def twinFails (t : Twin) (f : CheckFail) (s : State) : State :=
  let s := { s with gctl.loadStat := f.2, gctl.loadTwin := decide (t = Twin.b), mem := [] }
  let s := match t with
    | .a => { s with img.bootReasonA := f.1 }
    | .b => { s with img.bootReasonB := f.1 }
  if s.gctl.tried.isEmpty then
    raiseDet 74 0 (expectFrom true { s with gctl.tried := [t], img.fallback := true })
  else
    { enter .maint s with gctl.noImage := true, gctl.expectMs := 0xFFFF, gctl.loadMs := BitVec.ofNat 16 ((s.mono - s.gctl.loadMono) / 1000000) }

/-- A twin has passed: the blocks take their sections, and the device enters ARMED (R86). -/
def twinPasses (t : Twin) (im : Image) (s : State) : State :=
  let s := configureAll im t { s with gctl.loadStat := stOk, gctl.loadTwin := decide (t = Twin.b)
                                      gctl.loadMs := BitVec.ofNat 16 ((s.mono - s.gctl.loadMono) / 1000000) }
  let s := { s with spis := s.spis.map (fun x => { x with lastMono := s.mono }), tst.rotMono := s.mono, flt.hbMono := s.mono }
  ldgStart (extDropped (rejudge (idleFabric (enter .armed s))))

/-- LOAD_DONE (R84): the checking and streaming of one twin ends. (DESIGN CHOICE, log 36) -/
def execLoadDone (ecc : EccView) (s : State) : Answer :=
  done (if s.mode ≠ .load then s
    else
      let s := showSelector (ctlRead 0 0x4000 (s.showing ecc))
      let t := twinToTry s
      let r := checkTwin t s
      match r.2 with
      | .error f => twinFails t f r.1
      | .ok im =>
        let q := streamPayloads im.payloads { r.1 with mem := [] }
        match q.2 with
        | some f => twinFails t f q.1
        | none => twinPasses t im q.1)

/-! ## The commands of IMG (R87 to R94) -/

def imgStat (st : Byte) (s : State) : State := { s with img.stat := st }

/-- Vector 10 (R14). -/
def imgVec (s : State) : State := msix 10 s.img.intEn s

/-- IMG_STAGE (R87). (DESIGN CHOICE, log 36) -/
def stage (t : Twin) (s : State) : State :=
  if s.img.run.isSome && t = s.img.runTwin then imgStat stProtected s
  else if !(s.img.stage = 0 || s.img.stage = 1 || s.img.stage = 3) then imgStat stBusy s
  else
    let u := streamS (twinBase t) 32 s
    match headerFail t s with
    | some f => imgStat f.2 { u with img.reason := f.1 }
    | none =>
      imgVec (imgStat stOk (setOverlay (twinSectors t) { u with
        img.stage := 1, img.stgTwin := t, img.cand := none, img.reason := 0, img.stgDigest := 0, img.verifyBytes := 0
        img.stgVer := BitVec.ofNat 32 (at32 (s.arc.readBytes (twinBase t) 32) 0x0C) }))

/-- IMG_STAGE (R87): a register command of IMG. -/
def execImgStage (src : Source) (twin : Twin) (s : State) : Answer :=
  done (judgedCmd src 0x3000 Mode.fromArmed (imgStat stNotInState) (stage twin) s)

/-- IMG_VERIFY (R88): verification starts; the candidate's payload sectors are protected. (DESIGN CHOICE, log 36) -/
def verify (s : State) : State :=
  if s.img.stage = 1 then
    imgStat stOk (setOverlay (twinSectors s.img.stgTwin ++ payloadSectors (readImage (twinBytes s.img.stgTwin s)).payloads)
      { s with img.stage := 2, img.fillBad := false, img.verifyBytes := 0, img.reason := 0 })
  else imgStat stBadArg s

/-- IMG_VERIFY (R88). -/
def execImgVerify (src : Source) (s : State) : Answer :=
  done (judgedCmd src 0x3004 Mode.fromArmed (imgStat stNotInState) verify s)

/-- Fabric compatibility of a candidate (R90): against the manager's running image, which on the manager is its own, with the
lists of both. (DEDUCED, log 37) -/
def fabricCompatible (im : Image) (s : State) : Bool :=
  let mgr := if s.fab.role = roleManager then s.im.hdr.digest else s.fab.mgrDigest
  if s.fabricOn && (s.isWorker || s.fab.role = roleManager) && mgr ≠ 0 then
    compatible im.hdr.digest ((im.fabric.getD {}).compat) mgr (if s.fab.role = roleManager then s.fabSec.compat else s.fab.mgrCompat)
  else true

/-- The checks of a candidate after its steps 1 to 9: the hot payload rule, fabric compatibility, changed payloads. (DEDUCED, log 37) -/
def candidateFail (im : Image) (s : State) : State × Option CheckFail :=
  if !hotRuleOk s.im im then (s, some (0x0C, stBadArg))
  else if !fabricCompatible im s then (s, some (0x0D, stDigestMismatch))
  else streamPayloads (changedPayloads s.im im) s

/-- Verification ends with a failure: STAGED, and the payload sectors are released. -/
def verifyFails (f : CheckFail) (s : State) : State :=
  imgVec (imgStat f.2 (setOverlay (twinSectors s.img.stgTwin)
    { s with img.stage := 1, img.reason := f.1, img.verifyFail := satInc s.img.verifyFail, img.cand := none }))

/-- Verification ends: it fails also where the warden has reported an uncorrectable error in what it fills (the corner on a fault during
verification). (DEDUCED, log 37) -/
def verifyEnds (s : State) : State :=
  let r := checkTwin s.img.stgTwin s
  match if s.img.fillBad then .error (0x0B, stCrcError) else r.2 with
  | .error f => verifyFails f r.1
  | .ok im =>
    let u := { r.1 with img.stgDigest := im.hdr.digest }
    let q := candidateFail im u
    let bytes := im.hdr.structLen + (changedPayloads s.im im).foldl (fun k p => k + p.length) 0
    match q.2 with
    | some f => verifyFails f q.1
    | none => imgVec (imgStat stOk { q.1 with img.stage := 3, img.cand := some im, img.verifyBytes := BitVec.ofNat 32 bytes })

/-- VERIFY_DONE (R88). -/
def execVerifyDone (ecc : EccView) (s : State) : Answer := done (if s.img.stage = 2 then verifyEnds (s.showing ecc) else s)

/-- IMG_COMMIT (R91): deferred to the next boundary. -/
def commitReq (persist : Bool) (s : State) : State :=
  if s.img.stage = 3 then imgStat stOk { s with img.stage := 4, img.persist := persist, img.commitMono := s.mono }
  else if s.img.stage = 2 || s.img.stage = 4 then imgStat stBusy s
  else imgStat stBadArg s

/-- IMG_COMMIT (R91). -/
def execImgCommit (src : Source) (persist : Bool) (s : State) : Answer :=
  done (judgedCmd src 0x3008 Mode.ticks (imgStat stNotInState) (commitReq persist) s)

/-- IMG_CTL.CANCEL (R94). -/
def imgCancel (s : State) : State :=
  if s.img.stage = 0 then imgStat stBadArg s
  else if s.img.stage = 5 then imgStat stBusy s
  else imgStat stAborted (setOverlay [] { s with img.stage := 0, img.cand := none })

/-- IMG_CANCEL (R94). -/
def execImgCancel (src : Source) (s : State) : Answer :=
  done (judgedCmd src 0x300C (rowLegal 3) (imgStat stNotInState) imgCancel s)

/-- PERSIST_SELECTOR (R93): in the Quiet of the commit tick the selector word is programmed and verified. The selector registers keep the
word used at boot (R218). (DESIGN CHOICE, log 63) -/
def execPersistSelector (s : State) : Answer :=
  done (if s.img.stage = 5 && s.tck.qDone then
    { writeSelector s.img.runTwin (digestPrefixOf s.im.hdr.digest) (agentTurn s) with img.stage := 0 }
  else s)

end Sys2Proof.Machine
end

