-- ==== Sys2Proof/Machine/Power.lean ====
section
/-! DEFINITION. The rows of the power arbiter and of the clocks (R336 to R349 of 18_power_and_clocks.md). -/
namespace Sys2Proof.Machine

/-! ## A window (R337 to R339) -/

/-- What has been granted so far in a window. -/
structure Window where
  sum : Nat := 0
  grants : List Nat := []
  /-- Cores that passed from not granted to granted. -/
  started : Nat := 0
  denied : Bool := false
  /-- The lowest class of which a request has been denied. -/
  floor : Nat := 3
  limited : Nat := 0
deriving DecidableEq, Repr, Inhabited

/-- The consumers that a list names, in the arbiter's order from its pointer. (DESIGN CHOICE, log 71) -/
def arbiterOrder (pointer : Nat) (l : List Nat) : List Nat :=
  ((List.range 64).map (fun i => (pointer + i) % 64)).filter (fun c => l.contains c)

/-- The consumer held a grant in the last window. -/
def State.held (s : State) (c : Nat) : Bool := s.pwr.grants.getLsbD c

/-- A request is denied for the window. (DESIGN CHOICE, log 71) -/
def Window.deny (w : Window) (cls : Nat) (limit : Bool) : Window :=
  { w with denied := true, floor := min w.floor cls, limited := if limit then w.limited + 1 else w.limited }

/-- A request is granted. (DESIGN CHOICE, log 71) -/
def Window.grant (w : Window) (cost : Nat) (c : Nat) (starts : Bool) : Window :=
  { w with sum := w.sum + cost, grants := c :: w.grants, started := if starts then w.started + 1 else w.started }

/-- One request of a group. -/
def judgeRequest (s : State) (w : Window) (c : Nat) : Window :=
  let (cost, cls) := s.consumer c
  let starts := decide (c < 48) && !s.held c
  if cls = 0 then w.grant cost c starts
  else if w.floor < cls || s.pwr.classFloor.toNat < cls || s.pwr.effective - s.pwrBase < w.sum + cost then w.deny cls false
  else if starts && decide (4 ≤ w.started) then w.deny cls true
  else w.grant cost c starts

/-- The requests in the order of R337: class 0, then renewals and new requests of class 1 and of class 2. (DEDUCED, log 43) -/
def State.arbiterQueue (s : State) (reqs : List Nat) : List Nat :=
  let l := arbiterOrder s.pwr.pointer reqs
  let grp (cls : Nat) (renewal : Bool) : List Nat := l.filter (fun c => (s.consumer c).2 = cls && s.held c = renewal)
  l.filter (fun c => (s.consumer c).2 = 0) ++ grp 1 true ++ grp 1 false ++ grp 2 true ++ grp 2 false

/-- A core of a window that starts at `m`: the time that it stalled until then counts, and its task goes on or stalls. (DEDUCED, log 43) -/
def coreWindow (m : Nat) (granted : Bool) (n : Nat) (s : State) : State :=
  let c := s.core n
  match c.job with
  | none => s
  | some j =>
    let d := s.stallSince n m + (if c.stalled && granted then s.pwr.relockUntil - m else 0)
    s.setCore n { c with stalled := !granted, stallCyc := satAdd c.stallCyc (s.cyclesOf d), job := some { j with startMono := j.startMono + d } }

/-- The archive charge pumps are wanted: a program or an erase runs or is about to begin. -/
def State.pumpBusy (s : State) : Bool :=
  s.arc.prog.any (fun p => !p.data.isEmpty) || s.arc.erase.any (fun e => !e.stopped s.mono) || decide (s.mono < s.arc.devUntil)

/-- The requests of a window: a core requests while it holds a task or is under a slice, the charge pumps while the array works; a row lists
the other consumers. In REMOVAL the charge
pumps alone are granted (R343). -/
def State.windowRequests (s : State) (others : List Nat) : List Nat :=
  let pump := if s.pumpBusy then [57] else []
  if s.mode = .removal then pump ++ others.filter (fun c => c = 57)
  else pump ++ others.filter (fun c => 48 ≤ c && c < 64) ++ (List.range 48).filter (fun n => (s.core n).job.isSome || s.coreTested n)

/-- What a window that starts now grants (R337). -/
def State.judgeWindow (s : State) (reqs : List Nat) : Window := (s.arbiterQueue reqs).foldl (judgeRequest s) {}

/-- A denied charge pump delays the start of its program or erase to the next window, which judges it again (R338). (DESIGN CHOICE, log 71) -/
def pumpWindow (m : Nat) (asked granted : Bool) (s : State) : State :=
  if !asked || granted || s.held 57 then s
  else
    let nxt := m + 1000
    let late := match s.arc.dev.find? (fun o => m < o.stop) with | some o => nxt - o.start | none => 0
    { s with
      arc.erase := s.arc.erase.map (fun e => if e.runNs = 0 && !e.suspended && !e.byDevice then { e with since := max e.since nxt } else e)
      arc.prog := s.arc.prog.map (fun p => { p with since := max p.since nxt })
      arc.dev := s.arc.dev.map (fun o => if m < o.stop then { o with start := o.start + late, stop := o.stop + late } else o)
      arc.devUntil := if late = 0 then s.arc.devUntil else s.arc.devUntil + late }

/-- What the start of a window settles before it grants: the budget in MAINT, and FLOOR after an alert (R336, R340, R343). (DESIGN CHOICE, log 71) -/
def windowSettle (s : State) : State :=
  let s :=
    if s.gctl.everArmed then (if s.mode = .maint then settleBudget s else s)
    else { s with pwr.alert := s.pwr.alertPin }
  let s := { s with pwr.alert := s.pwr.alert || s.pwr.alertDue, pwr.alertDue := false }
  { s with pwr.effective := effectiveOf s }

/-- The start of window `k`. -/
def openWindow (k : Nat) (requests : List Nat) (s : State) : State :=
  let m := k * 1000
  let s := windowSettle s
  let s := { s with pwr.pointer := (s.pwr.pointer + (k - s.pwr.window)) % 64 }
  let reqs := s.windowRequests requests
  let w := s.judgeWindow reqs
  let demand := (arbiterOrder 0 reqs).foldl (fun a c => a + (s.consumer c).1) 0
  let s := (List.range 48).foldl (fun s n => coreWindow m (w.grants.contains n) n s) s
  let s := pumpWindow m (reqs.contains 57) (w.grants.contains 57) s
  let cnt := if w.denied then tinc s.pwr.cnt 1 else s.pwr.cnt
  { s with
    pwr.window := k, pwr.grants := w.grants.foldl (fun g c => g ||| BitVec.twoPow 64 c) 0, pwr.granted := BitVec.ofNat 16 w.sum
    pwr.demand := BitVec.ofNat 16 demand, pwr.cnt := tmod cnt 2 (fun x => satAdd x w.limited) }

/-- ARBITER_WINDOW (R337): the first window start that has not been judged. Cores request while they hold a task; the row
lists the other consumers. -/
def execArbiterWindow (requests : List Nat) (s : State) : Answer :=
  let k := max (ceilDiv s.mono 1000) (s.pwr.window + 1)
  done (if s.mode = .off || s.edgeBefore (k * 1000) then s else openWindow k requests (advanceTo (k * 1000) s))

/-! ## Alerts and budgets (R340, R341, R344) -/

/-- PWR_ALERT (R340). -/
def execPwrAlert (s : State) : Answer :=
  done (if s.mode = .off || s.pwr.alertPin then s
    else raiseDet 82 0 (pwrVec (planWait { s with pwr.alertPin := true, pwr.alertDue := true, pwr.cnt := tinc s.pwr.cnt 0 })))

/-- PWR_ALERT_RELEASE (R340). -/
def execPwrAlertRelease (s : State) : Answer := done (planWait { s with pwr.alertPin := false })

/-- A write of PWR_BUDGET (R341). (DESIGN CHOICE, log 72) -/
def budgetWrite (value : BitVec 16) (s : State) : State :=
  let st := if s.isWorker then stProtected else if s.ceiling < value.toNat then stBadArg
    else if value.toNat < s.pwrFloor then stBudgetDenied else stOk
  { s with pwr.stat := st, pwr.staged := if st = stOk then some value.toNat else s.pwr.staged }

/-- BUDGET_WRITE (R341). -/
def execBudgetWrite (src : Source) (value : BitVec 16) (s : State) : Answer := done (judged src 0x4004 (budgetWrite value) s)

/-- A write of PWR_FAB_BUDGET (R344). (DESIGN CHOICE, log 72) -/
def fabBudgetWrite (value : BitVec 16) (s : State) : State :=
  if !s.isManager then { s with pwr.fabStat := stNotInState }
  else match s.fab.member (s.pwr.fabAddr.setWidth 12) with
    | some m =>
      if m.mstate = 1 then sendTo m.addr false (.budget (s.tck.index + 2) value 2) { s with pwr.fabStat := stOk }
      else { s with pwr.fabStat := stNotPresent }
    | none => { s with pwr.fabStat := stNotPresent }

/-- FAB_BUDGET_WRITE (R344). -/
def execFabBudgetWrite (src : Source) (value : BitVec 16) (s : State) : Answer := done (judged src 0x4044 (fabBudgetWrite value) s)

/-! ## Clocks (R349) -/

/-- LOSS_OF_LOCK (R349). -/
def execLossOfLock (clock : ClockFault) (s : State) : Answer :=
  done (if s.mode = .off then s
    else
      let s := { s with clk.lolCnt := satInc s.clk.lolCnt }
      match clock with
      | .lockLost p => raiseDet 83 0 (idleFabric { s with clk.lock := s.clk.lock &&& ~~~(BitVec.twoPow 7 p) })
      | .coreSlow => raiseDet 83 0 s)

end Sys2Proof.Machine
end

