-- ==== Sys2Proof/Machine/WardenCmd.lean ====
section
/-! DEFINITION. The warden's commands and events: detector reports, clearing, the record snapshot, the heartbeat of the
fault pair and the board fault input (19_warden.md). -/
namespace Sys2Proof.Machine

/-- EXT_EN in force: the fused default until the first entry to ARMED, the image's from then on (R354). -/
def State.extOn (s : State) : Bool := if s.gctl.everArmed then s.im.faultMap.extEn else s.otp.extEn

/-- EXT_HB in force. -/
def State.extHb (s : State) : Bool := s.gctl.everArmed && s.im.faultMap.extHb

/-- What detector 87 finds (R367): its DETAIL gives the levels read on FAULT_P in bit 1 and on FAULT_N in bit 0, which the device compares with
those that it drives. A broken pair stays one. (DESIGN CHOICE, log 75) -/
def readback (x : DetPattern) (s : State) : DetPattern :=
  if x.det ≠ 87 || x.p = x.n then x
  else match s.pins.faultPair with
    | some (p, n) =>
      let badP := x.detail.getLsbD 1 ≠ p
      let bad := badP || x.detail.getLsbD 0 ≠ n
      { x with p := !bad, n := bad, detail := if badP then 0 else 1 }
    | none => { x with p := true, n := false, detail := 0 }

/-- DETECTOR_REPORT (R352 to R361). With EXT_EN 0 detector 86 is never raised (R368). -/
def execDetectorReport (patterns : List DetPattern) (s : State) : Answer :=
  done (takePatterns false ((patterns.filter (fun x => x.det ≠ 86 || s.extOn)).map (fun x => readback x s)) s)

/-! ## Clearing and the snapshot (R360, R362) -/

/-- The status field of FLT_CLR. -/
def fltStat (st : Byte) (s : State) : State := { s with flt.clrStat := st }

/-- FAULT_CLEAR (R362). -/
def execFaultClear (src : Source) (det : Byte) (s : State) : Answer :=
  done (judgedCmd src 0x6008 Mode.fromArmed (fltStat stNotInState) (clearRec det.toNat) s)

/-- FAULT_CLEAR_ALL (R362). -/
def execFaultClearAll (src : Source) (s : State) : Answer :=
  done (judgedCmd src 0x6008 Mode.fromArmed (fltStat stNotInState) clearAllRecs s)

/-- A write of FLT_CLR: ALL goes before the detector number. (DESIGN CHOICE, log 74) -/
def fltClrWrite (v : Word) (s : State) : State := if v.getLsbD 8 then clearAllRecs s else clearRec (v.toNat % 256) s

/-- The eight words of a fault record (R360). -/
def recWords (r : FaultRec) : List Word :=
  [pack [(0, 8, r.det), (8, 3, r.react.toNat), (11, 1, b2n r.line), (12, 1, b2n r.esc), (13, 1, b2n r.active),
     (14, 1, b2n r.preArmed), (16, 4, r.state.toNat), (20, 12, r.count.toNat)],
   lo32 r.first, hi32 r.first, lo32 r.last, hi32 r.last, lo32 r.lastTick, hi32 r.lastTick, r.detail]

/-- A write of REC_SEL: the record of that index, oldest first, is copied; zeros where it is unused. -/
def recSelWrite (i : BitVec 6) (s : State) : State :=
  let ws := match s.flt.records[i.toNat]? with
    | some r => recWords r
    | none => []
  { s with flt.recSel := i, flt.recWords := Vector.ofFn (fun (k : Fin 8) => ws.getD k.val 0) }

/-- REC_SELECT (R360). -/
def execRecSelect (src : Source) (index : BitVec 6) (s : State) : Answer := done (judged src 0x6080 (recSelWrite index) s)

/-! ## The fault pair (R364, R365) -/

/-- HEARTBEAT_TOGGLE (R365): at the next multiple of 500,000 ns both pins change. -/
def execHeartbeatToggle (s : State) : Answer :=
  let m := (s.mono / 500000 + 1) * 500000
  done (if s.mode.healthy && s.im.faultMap.heartbeat && !s.edgeBefore m then
    match s.pins.faultPair with
    | some (p, n) => drivePair (some (!p, !n)) (advanceTo m s)
    | none => s
  else s)

/-! ## The board fault input (R368) -/

/-- A pattern of the EXT_FLT pair that has held for EXT_HOLD. With EXT_HB a change between the two complementary patterns is
a toggle, and neither of them is an error. (DESIGN CHOICE, log 75) -/
def extInput (p n : Bool) (s : State) : State :=
  if !s.extOn || !s.mode.answers then s
  else
    let pat : BitVec 2 := BitVec.ofNat 2 (2 * b2n p + b2n n)
    let toggled := p ≠ n && s.flt.extPat ≠ pat
    let s := { s with flt.extPat := pat, flt.hbMono := if toggled then s.mono else s.flt.hbMono }
    if s.extHb && p ≠ n then takePatterns false (if toggled then [{ det := 86, p := true, n := false, detail := 0 }] else []) s
    else takePatterns false [{ det := 86, p := p, n := n, detail := 0 }] s

/-- EXT_FLT_INPUT (R368). -/
def execExtFltInput (p n : Bool) (s : State) : Answer := done (extInput p n s)

/-- EXT_HB_TIMEOUT (R368): a half-period longer than 2 ms. (DESIGN CHOICE, log 75) -/
def execExtHbTimeout (s : State) : Answer :=
  let m := max s.flt.hbMono s.gctl.armedMono + 2000000
  done (if s.extOn && s.extHb && s.mode.answers && !s.edgeBefore m then
    takePatterns false [{ det := 86, p := false, n := true, detail := 1 }] (advanceTo m s)
  else s)

end Sys2Proof.Machine
end

