-- ==== Sys2Proof/Machine/Conservator.lean ====
section
/-! DEFINITION. The conservator's slices: the rotation, start, skip, the end of the test phases, the latest end and
RESTORE (20_conservator.md). While a slice runs, reads and writes of its target go to the copy (R377), so the target's
place in `State.mem` stands for the copy and no access sees a difference. -/
namespace Sys2Proof.Machine

/-! ## The rotation (R376, R378) -/

/-- The target at a place of the whole sequence: A0, the cores, A1, grid regions, stream regions. -/
def targetAt (p : Nat) : Target :=
  if p = 0 then .analogue 0 else if p < 49 then .core (p - 1) else if p = 49 then .analogue 1
  else if p < 66 then .grid (p - 50) else .stream (p - 66)

/-- Whether a target stands in the rotation (R378, R382). -/
def State.inRotation (s : State) : Target → Bool
  | .analogue _ => true
  | .core n => s.tst.saveOk && s.coreUsable n
  | .grid _ | .stream _ => s.tst.saveOk

/-- The places of the sequence that stand in the rotation. -/
def State.rotation (s : State) : List Nat := (List.range 70).filter (fun p => s.inRotation (targetAt p))

/-- The place of the target that is next: the first at or after the position, or the first of all. -/
def State.rotNext (s : State) : Nat := (s.rotation.find? (fun p => s.tst.rotPos ≤ p)).getD 0

/-- Vector 13. -/
def tstVec (s : State) : State := msix 13 s.tst.intEn s
def tstCount (i : Nat) (s : State) : State := { s with tst.cnt := tinc s.tst.cnt i }

/-- A rotation is complete (R379). (DESIGN CHOICE, log 76) -/
def rotDone (s : State) : State :=
  let ms := (s.mono - s.tst.rotMono) / 1000000
  let late := decide (s.im.selfTest.rotLimit * 1000000 < s.mono - s.tst.rotMono)
  let s := if 65535 < ms then { s.drawn with tst.lastRotMs := BitVec.ofNat 16 (Config.freeNat s.freeCtr) }
    else { s with tst.lastRotMs := BitVec.ofNat 16 ms }
  let s := { s with tst.rotCount := satInc s.tst.rotCount, tst.rotMono := s.mono }
  if late then tstVec (tstCount 9 s) else s

/-- The rotation advances after the target at place `p` (R378). (DESIGN CHOICE, log 76) -/
def rotAdvance (p : Nat) (s : State) : State :=
  let s := if p < s.tst.rotPos then rotDone s else s
  match s.rotation.find? (fun q => p < q) with
  | some q => { s with tst.rotPos := q }
  | none => rotDone { s with tst.rotPos := 0 }

/-- The place of a target in the sequence. (DESIGN CHOICE, log 76) -/
def placeOfTarget : Target → Nat
  | .analogue a => if a = 0 then 0 else 49
  | .core n => n + 1
  | .grid g => 50 + g
  | .stream r => 66 + r

/-- Whether the slice of a target has SAVE and RESTORE (R376). -/
def Target.saves : Target → Bool
  | .analogue _ => false
  | .stream r => decide (r < 3)
  | _ => true

/-- The length of a slice in ns (R376). -/
def Target.sliceNs : Target → Nat
  | .core _ => 400000
  | .grid _ => 280000
  | .stream r => if r < 3 then 280000 else 140000
  | .analogue _ => 150000

/-! ## Start and skip (R32, R375, R379) -/

/-- The monotonic instant before which the next boundary cannot fall (R32). -/
def State.earliestNext (s : State) : Nat :=
  if s.tck.active = srcTickIn then s.tck.boundMono + s.tolEarly else s.tck.boundMono + s.period

/-- The latest start of a target's slice (R375). -/
def State.latestStart (s : State) (t : Target) : Nat := s.earliestNext - t.sliceNs

/-- A slice may be tried: Quiet of a tick that has tried none, slices enabled, none in progress. -/
def State.mayTry (s : State) : Bool :=
  s.mode.ticks && s.tck.ticked && s.tck.qDone && !s.tst.tickDone && s.tst.slice.isNone && s.im.selfTest.slices

/-- The target is idle (R375). -/
def State.targetIdle (s : State) : Target → Bool
  | .core n => (s.core n).job.isNone
  | _ => true

/-- A slice starts. -/
def sliceBegin (s : State) : State :=
  let t := targetAt s.rotNext
  { s with
    tst.phase := if t.saves then .saving else .testing
    tst.slice := some { target := t, startMono := s.mono, latestEnd := s.earliestNext - 70000 }
    tst.tickDone := true, tst.skipRun := 0 }

/-- The arbiter grants the power of a slice that starts now: a core's cost in the core's class, beside the other requests; memories and
analogue targets request nothing (R375, and the corner on a slice refused). (DESIGN CHOICE, log 76) -/
def State.sliceGranted (s : State) (requests : List Nat) (t : Target) : Bool :=
  let s := windowSettle s
  match t with
  | .core n => (s.judgeWindow (s.windowRequests requests ++ [n])).grants.contains n
  | _ => true

/-- SLICE_START (R375): `requests` are the other consumers that request power, `condOk` that the conditions of R370 hold. -/
def execSliceStart (requests : List Nat) (condOk : Bool) (s : State) : Answer :=
  let t := targetAt s.rotNext
  done (if s.mayTry && s.targetIdle t && decide (s.mono ≤ s.latestStart t) && s.sliceGranted requests t && condOk && !s.inRephase then sliceBegin s else s)

/-- A tick is skipped for the reason with counter `i` (R379). (DESIGN CHOICE, log 76) -/
def skip (i : Nat) (s : State) : State :=
  let s := { tstCount i s with tst.tickDone := true, tst.skipRun := s.tst.skipRun + 1 }
  if s.tst.skipRun = s.im.selfTest.skipWarn then tstVec (tstCount 8 s) else s

/-- SLICE_SKIP (R379): at the latest start, or at the start of Quiet where no latest start lies within it. -/
def execSliceSkip (requests : List Nat) (condFailed : Bool) (s : State) : Answer :=
  let t := targetAt s.rotNext
  done (if !s.mayTry then s
  else if s.latestStart t < s.tck.qMono then skip 2 s
  else
    let s' := advanceTo (s.latestStart t) s
    if !s.targetIdle t then skip 3 s' else if !s'.sliceGranted requests t then skip 4 s' else if condFailed then skip 5 s' else s)

/-! ## Ends (R378, R380 to R382) -/

/-- The slice is over with a result: 1 PASS, 2 FAIL, 3 INCOMPLETE. -/
def sliceOver (result : BitVec 2) (s : State) : State :=
  tstCount (if result = 1 then 0 else if result = 2 then 1 else 6)
    { s with tst.phase := .idle, tst.slice := none, tst.lastResult := result }

/-- PASS: counted, and the rotation advances. (DESIGN CHOICE, log 76) -/
def slicePass (t : Target) (s : State) : State := rotAdvance (placeOfTarget t) (sliceOver 1 s)

/-- The detector that a failed target reports, with its DETAIL (R382). -/
def failDet (t : Target) (detail : Nat) : Nat × Nat :=
  match t with
  | .core n => (n, detail)
  | .grid g => (48, g)
  | .stream r => (49, r)
  | .analogue _ => (84, detail)

/-- What a failure takes out of service (R382). (DESIGN CHOICE, log 76) -/
def failKeep (t : Target) (s : State) : State :=
  match t with
  | .core n => fenceCore n 2 s
  | .grid g => { s with tst.remap := s.tst.remap ||| BitVec.twoPow 20 g, tst.saveOk := false }
  | .stream r => { s with tst.remap := s.tst.remap ||| BitVec.twoPow 20 (16 + r), tst.saveOk := false }
  | .analogue _ => s

/-- FAIL (R382), with the detector reported. (DESIGN CHOICE, log 76) -/
def sliceFail (t : Target) (det detail : Nat) (s : State) : State :=
  let s := failKeep t (tstVec (sliceOver 2 s))
  raiseDet det (BitVec.ofNat 32 detail) (rotAdvance (placeOfTarget t) s)

/-- The test phases end with a result. (DESIGN CHOICE, log 76) -/
def testEnd (x : Slice) (r : SliceOutcome) (s : State) : State :=
  match r with
  | .pass => if x.target.saves then { s with tst.phase := .restoring } else slicePass x.target s
  | .fail d => let f := failDet x.target d; sliceFail x.target f.1 f.2 s
  | .pairFail p => if x.target = .analogue 1 then sliceFail x.target 88 p s else s

/-- A slice is in its SAVE or test phases. -/
def State.testing (s : State) : Option Slice := if s.tst.phase = .saving || s.tst.phase = .testing then s.tst.slice else none

/-- SLICE_TEST_END (R376, R382). -/
def execSliceTestEnd (result : SliceOutcome) (s : State) : Answer :=
  match s.testing with
  | some x => done (if s.mono ≤ x.latestEnd then testEnd x result s else s)
  | none => done s

/-- SLICE_LATEST_END (R380): the test stops; a slice with a copy runs RESTORE, another is over. -/
def execSliceLatestEnd (s : State) : Answer :=
  match s.testing with
  | some x =>
    let s' := advanceTo x.latestEnd s
    done (if x.target.saves then { s' with tst.phase := .restoring, tst.slice := some { x with incomplete := true } }
      else sliceOver 3 s')
  | none => done s

/-- SLICE_RESTORE_END (R377, R380): the target returns to service. -/
def execSliceRestoreEnd (s : State) : Answer :=
  match s.tst.phase, s.tst.slice with
  | .restoring, some x => done (if x.incomplete then sliceOver 3 s else slicePass x.target s)
  | _, _ => done s

end Sys2Proof.Machine
end

