-- ==== Sys2Proof/Machine/Flags.lean ====
section
/-! DEFINITION. What a register reads as: one function for each block of R13, by offset, with 0 for an offset that its
tables do not list. -/
namespace Sys2Proof.Machine

/-! ## GCTL, TIM, TCK and IMG -/

/-- The cores that the fuses leave (R2). (DESIGN CHOICE, log 77) -/
def State.corePres (s : State) : BitVec 64 := BitVec.ofNat 64 (2 ^ s.coreCount - 1)

def gctlWord (o : Nat) (s : State) : Word :=
  let g := s.gctl
  match o with
  | 0x00 => pack [(16, 16, 0x4F5A), (8, 8, s.otp.step.toNat), (6, 2, s.otp.variant.toNat), (5, 1, b2n s.otp.cardForm), (4, 1, b2n s.otp.isSealed)]
  | 0x04 => pack [(16, 16, s.expectMs.toNat), (8, 8, g.holdReason.toNat), (4, 4, g.prev.code.toNat), (0, 4, g.mode.code.toNat)]
  | 0x08 => pack [(9, 1, b2n g.noImage), (8, 1, b2n g.ejectReady), (7, 1, b2n g.degFabric), (6, 1, b2n g.degTime), (5, 1, b2n g.degWarden),
      (4, 1, b2n g.degFlywheel), (3, 1, b2n g.degOvr), (1, 1, b2n g.freeRun), (0, 1, b2n g.held)]
  | 0x0C => s.liveWord
  | 0x24 => pack [(0, 8, g.cmdStat.toNat), (8, 8, g.cmdEcho.toNat)]
  | 0x28 => pack [(0, 2, g.rstType.toNat), (8, 8, g.rstCount.toNat)]
  | 0x2C => g.rejectCnt
  | 0x30 => g.lastReject
  | 0x34 => pack [(0, 1, b2n s.im.tick.freeRunOk), (16, 16, s.im.tick.armTimeout)]
  | 0x38 => pack [(0, 8, g.loadStat.toNat), (8, 1, b2n g.loadTwin), (16, 16, g.loadMs.toNat)]
  | _ => 0

/-- DESIGN CHOICE, log 77. -/
def timWord (o : Nat) (s : State) : Word :=
  let t := s.tim
  match o with
  | 0x00 => pack [(8, 2, t.disc.toNat)]
  | 0x04 => pack [(8, 8, t.applyStat.toNat), (6, 1, b2n t.timeclkOk), (5, 1, b2n t.holdover), (4, 1, b2n (decide (t.slewRest ≠ 0))),
      (3, 1, b2n t.pend.isSome), (2, 1, b2n t.locked), (0, 2, t.discAct.toNat)]
  | 0x08 => BitVec.ofNat 32 (t.dev % sec9)
  | 0x24 => t.setNsec.setWidth 32
  | 0x28 => t.setSecLo
  | 0x2C => t.setSecHi.setWidth 32
  | 0x30 => t.setOfs
  | 0x34 => BitVec.ofInt 32 t.rate
  | 0x38 => t.offset
  | 0x3C => pack [(0, 1, b2n t.ppsEn), (1, 9, s.im.time.ppsWidth)]
  | 0x40 => pack [(0, 16, t.stepCnt.toNat), (16, 3, t.stepSrc.toNat)]
  | 0x54 => t.slewCnt
  | 0x58 => pack [(0, 16, t.ppsAcc.toNat), (16, 16, t.ppsRej.toNat)]
  | 0x5C => pack [(0, 1, b2n t.intEn)]
  | _ => 0

/-- DESIGN CHOICE, log 77. -/
def tckWord (o : Nat) (s : State) : Word :=
  let t := s.tck
  let i := s.im.tick
  match o with
  | 0x00 => pack [(0, 2, t.src.toNat)]
  | 0x04 => pack [(16, 8, t.srcStat.toNat), (8, 8, t.consecOvr.toNat), (7, 1, b2n t.ticked), (6, 1, b2n t.flywheel), (5, 1, b2n t.staleLast),
      (4, 1, b2n s.inRephase), (2, 2, t.phase.toNat), (0, 2, t.active.toNat)]
  | 0x08 => pack [(0, 17, i.period)]
  | 0x0C => pack [(0, 17, i.gather)]
  | 0x10 => pack [(0, 17, i.emit)]
  | 0x14 => pack [(0, 17, i.quiet)]
  | 0x18 => pack [(0, 17, i.phaseOfs)]
  | 0x1C => pack [(0, 8, i.ovrLimit), (8, 8, i.recover), (16, 7, i.inTol), (24, 3, i.srcAllow), (27, 2, i.fallback)]
  | 0x30 => t.ovrCnt
  | 0x34 => t.emitLate
  | 0x38 => t.rephaseCnt
  | 0x3C => pack [(0, 16, t.inEarly.toNat), (16, 16, t.inMiss.toNat)]
  | 0x40 => t.cancelCnt
  | 0x44 => pack [(0, 4, t.intEn.toNat)]
  | _ => 0

/-- IMG_HOT_KIB: 256 KiB for each reserved bank (R82). (DESIGN CHOICE, log 36) -/
def hotKib (im : Image) : Nat :=
  im.hotReserve.foldl (fun a r => a + 256 * ((List.range 8).filter (fun i => r.2.testBit i)).length) 0

/-- DESIGN CHOICE, log 36. -/
def imgWord (o : Nat) (s : State) : Word :=
  let g := s.img
  let h := s.im.hdr
  match o with
  | 0x0C => pack [(1, 1, b2n g.intEn)]
  | 0x10 => pack [(26, 1, b2n g.fallback), (25, 1, b2n h.dev), (24, 1, b2n (decide (g.stgTwin = .b))), (16, 8, g.reason.toNat), (8, 8, g.stat.toNat),
      (0, 3, g.stage.toNat)]
  | 0x14 => BitVec.ofNat 32 h.imageVer
  | 0x18 => pack [(0, 16, h.secVer), (16, 2, h.keyIdx), (24, 8, s.otp.floor.toNat)]
  | 0x1C => if g.run.isSome then digestWord h.digest 0 else 0
  | 0x3C => digestWord g.stgDigest 0
  | 0x5C => g.stgVer
  | 0x60 => g.verifyBytes
  | 0x6C => pack [(0, 16, g.commitCnt.toNat), (16, 16, g.verifyFail.toNat)]
  | 0x70 => pack [(0, 8, g.bootReasonA.toNat), (8, 8, g.bootReasonB.toNat)]
  | 0x74 => pack [(0, 16, hotKib s.im)]
  | 0x78 => pack [(0, 16, s.im.payloads.length)]
  | _ => 0

/-! ## PWR, CLK, FLT and TST -/

/-- DESIGN CHOICE, log 77. -/
def pwrWord (o : Nat) (s : State) : Word :=
  let p := s.pwr
  match o with
  | 0x00 => pack [(1, 1, b2n p.intEn)]
  | 0x04 => BitVec.ofNat 32 ((p.staged.getD p.setBudget) % 65536)
  | 0x08 => pack [(0, 16, p.effective), (16, 1, b2n p.alert), (17, 1, b2n p.therm), (18, 1, b2n p.fabOwned), (24, 8, p.stat.toNat)]
  | 0x0C => pack [(0, 16, s.pwrFloor), (16, 16, s.ceiling)]
  | 0x10 => pack [(0, 16, s.pwrBase), (16, 2, p.classFloor.toNat)]
  | 0x14 => pack [(0, 16, p.granted.toNat), (16, 16, p.demand.toNat)]
  | 0x40 => p.fabAddr.setWidth 32
  | 0x48 => p.fabStat.setWidth 32
  | _ => if 0x18 ≤ o && o ≤ 0x28 then tget p.cnt ((o - 0x18) / 4) else 0

/-- DESIGN CHOICE, log 77. -/
def clkWord (o : Nat) (s : State) : Word :=
  let c := s.clk
  match o with
  | 0x00 => pack [(0, 7, c.lock.toNat), (8, 1, b2n c.refclkOk), (9, 1, b2n (c.refclkOk && s.pins.crystal))]
  | 0x04 => pack [(0, 11, c.coreMhz), (12, 2, s.im.power.spread), (14, 1, b2n s.im.power.fabSpread)]
  | 0x0C => (tget s.otp.vcoreReq ((c.coreMhz - 500) / 50)).setWidth 32
  | 0x10 => pack [(0, 16, s.im.power.slew)]
  | 0x14 => c.lolCnt
  | _ => 0

/-- Word `k` of 256 bits. -/
def word256 (v : BitVec 256) (k : Nat) : Word := v.extractLsb' (32 * k) 32

/-- The fault pair shows healthy: static, or the heartbeat. -/
def State.pairHealthy (s : State) : Bool := s.mode.healthy

def fltWord (o : Nat) (s : State) : Word :=
  let f := s.flt
  match o with
  | 0x00 => pack [(1, 1, b2n f.intEn)]
  | 0x04 => pack [(0, 3, f.records.foldl (fun m r => max m r.react.toNat) 0), (4, 1, b2n s.pairHealthy),
      (5, 1, b2n (s.gctl.everArmed && s.im.faultMap.heartbeat)), (8, 2, f.extPat.toNat), (10, 1, b2n s.extOn), (16, 7, f.records.length)]
  | 0x0C => f.clrStat.setWidth 32
  | 0x80 => f.recSel.setWidth 32
  | 0xC0 => f.mapSel.setWidth 32
  | 0xC4 => let m := mapOf s f.mapSel.toNat; pack [(0, 3, m.1), (4, 4, m.2.1), (8, 8, m.2.2)]
  | _ =>
    if 0x10 ≤ o && o ≤ 0x2C then word256 f.active ((o - 0x10) / 4)
    else if 0x30 ≤ o && o ≤ 0x4C then word256 f.line ((o - 0x30) / 4)
    else if 0x50 ≤ o && o ≤ 0x64 then tget f.cnt ((o - 0x50) / 4)
    else if 0x84 ≤ o && o ≤ 0xA0 then tget f.recWords ((o - 0x84) / 4)
    else 0

/-- KIND and INDEX of a target (R376). -/
def targetCode : Target → Nat × Nat
  | .core n => (0, n)
  | .grid g => (1, g)
  | .stream r => (2, r)
  | .analogue a => (3, a)

/-- The target shown: that of the slice in progress, else the next one; zeros before the first ARMED. (DESIGN CHOICE, log 76) -/
def State.shownTarget (s : State) : Nat × Nat :=
  if !s.gctl.everArmed then (0, 0)
  else match s.tst.slice with
    | some x => targetCode x.target
    | none => targetCode (targetAt s.rotNext)

/-- TST_STAT.PHASE: SAVE lasts 70 µs at most, and is over then. -/
def State.phaseCode (s : State) : Nat :=
  match s.tst.phase, s.tst.slice with
  | .saving, some x => if s.mono < x.startMono + 70000 then 1 else 2
  | .testing, some _ => 2
  | .restoring, some _ => 3
  | _, _ => 0

def tstWord (o : Nat) (s : State) : Word :=
  let t := s.tst
  match o with
  | 0x00 => pack [(1, 1, b2n t.intEn)]
  | 0x04 => pack [(0, 2, s.phaseCode), (2, 2, s.shownTarget.1), (4, 6, s.shownTarget.2), (10, 1, b2n t.saveOk), (12, 2, t.lastResult.toNat)]
  | 0x08 => if s.gctl.everArmed then pack [(0, 7, (s.rotation.filter (fun p => p < s.rotNext)).length), (16, 7, s.rotation.length)] else 0
  | 0x0C => t.rotCount
  | 0x10 => t.lastRotMs.setWidth 32
  | 0x40 => t.remap.setWidth 32
  | 0x44 => pack [(0, 8, t.puCode.toNat), (16, 8, t.puIndex.toNat)]
  | 0x48 => t.puMs.setWidth 32
  | 0x4C => t.marginWarn
  | 0x50 => pack [(0, 8, s.im.selfTest.skipWarn), (16, 16, s.im.selfTest.rotLimit)]
  | _ => if 0x14 ≤ o && o ≤ 0x38 then tget t.cnt ((o - 0x14) / 4) else 0

/-! ## ARC -/

/-- The operation on the array is a host command; without one a device operation may occupy it. -/
def ArcOwner.isHost : ArcOwner → Bool
  | .device => false
  | _ => true

/-- RUNNING: a host command is in progress. (DESIGN CHOICE, log 77) -/
def State.hostRuns (s : State) : Bool :=
  s.arc.prog.any (fun p => p.owner.isHost) || s.arc.erase.any (fun e => e.owner.isHost && !e.stopped s.mono)

/-- Code, bank and sector index of the operation that occupies the array. -/
def Arc.operation (a : Arc) : Nat × Bool × Nat :=
  match a.prog, a.erase with
  | some p, _ => let l := (sectorOf p.addr).getD (false, 0); (p.code.toNat, l.1, l.2)
  | none, some e => (e.code.toNat, e.bank, e.index)
  | none, none => (0, false, 0)

/-- The firmware copy fetched: that of the bank that no operation occupies, FIRMWARE_0 where both are free; a copy that is not
valid is not used (R217). -/
def State.fwAct (s : State) : Bool := if !s.arc.fw0 then s.arc.fw1 else if !s.arc.fw1 then false else s.occupied false && !s.occupied true

def arcWord (o : Nat) (s : State) : Word :=
  let s := arcNow s
  let a := s.arc
  match o with
  | 0x02C => pack [(0, 8, a.stat.toNat), (8, 8, a.echo.toNat), (16, 1, b2n s.hostRuns),
      (17, 1, b2n (a.erase.any (fun e => e.stopped s.mono))), (18, 1, b2n (match a.erase with | some e => e.pendHost | none => false)),
      (19, 1, b2n s.devRuns), (20, 1, b2n (match a.erase with | some e => e.byDevice && e.since ≤ s.mono | none => false)),
      (21, 1, b2n a.locked), (22, 1, b2n a.seq.isSome), (23, 1, b2n a.worn), (24, 1, b2n a.done)]
  | 0x030 => pack [(0, 8, a.operation.1), (8, 10, a.operation.2.2), (18, 1, b2n a.operation.2.1)]
  | 0x034 => match a.erase with | some e => BitVec.ofNat 32 (e.ran s.mono / 1000) | none => a.eraseRunUs
  | 0x068 => pack [(0, 1, b2n a.doneIntEn)]
  | 0x06C => a.seqBusy
  | 0x100 => a.winPage.setWidth 32
  | 0x104 => pack [(0, 8, a.winLast.toNat), (8, 1, b2n a.winTorn)]
  | 0x108 => a.eccWarn.setWidth 32
  | 0x10C => pack [(0, 2, a.eccLast.toNat), (2, 2, a.eccMax.toNat), (4, 1, b2n a.eccWarned), (5, 1, b2n a.eccUncorr)]
  | 0x110 => a.warnCnt
  | 0x114 => a.uncorrCnt
  | 0x118 => (a.warnAddr &&& 0xFFFFFE0).setWidth 32
  | 0x11C => (a.uncorrAddr &&& 0xFFFFFE0).setWidth 32
  | 0x120 => a.winBusy
  | 0x124 => a.winWrIgn
  | 0x128 => pack [(1, 1, b2n a.warnIntEn)]
  | 0x12C => a.selSeq
  | 0x130 => pack [(0, 1, b2n a.selTwin), (1, 1, b2n a.selSector), (8, 8, a.selWord.toNat)]
  | 0x134 => a.selDigest
  | 0x138 => pack [(0, 1, b2n (s.occupied false)), (1, 1, b2n (s.occupied true)), (4, 1, b2n a.fw0), (5, 1, b2n a.fw1), (6, 1, b2n s.fwAct)]
  | 0x13C => a.sBursts
  | 0x140 => a.sPauses
  | 0x144 => pack [(0, 6, s.im.arcArea.areas.length)]
  | _ =>
    if 0x038 ≤ o && o ≤ 0x044 then tget a.results ((o - 0x038) / 4)
    else if o = 0x05C then tget a.cnt 5 - (if a.erase.any (fun e => e.byDevice && decide (s.mono < e.since)) then 1 else 0)
    else if 0x048 ≤ o && o ≤ 0x064 then tget a.cnt ((o - 0x048) / 4)
    else if 0x070 ≤ o && o < 0x0B4 then (a.base0 ||| a.over0).extractLsb' (32 * ((o - 0x070) / 4)) 32
    else if 0x0B4 ≤ o && o < 0x0F8 then (a.base1 ||| a.over1).extractLsb' (32 * ((o - 0x0B4) / 4)) 32
    else 0

/-! ## CRD, INC, LDG and CVT -/

/-- CRD_STAT. (DESIGN CHOICE, log 77) -/
def crdStat (s : State) : Word :=
  pack [(0, 1, b2n s.crd.linkUp), (1, 2, s.crd.lanes.toNat), (3, 1, b2n s.pins.cardPresent), (4, 4, s.crd.queue.length), (8, 2, s.crd.ejState.toNat),
    (16, 16, s.crd.estMs.toNat)]

def crdWord (o : Nat) (s : State) : Word :=
  match o with
  | 0x00 => pack [(1, 1, b2n s.crd.intEn)]
  | 0x04 => crdStat s
  | 0x28 => pack [(0, 8, s.crd.lastTag.toNat), (8, 8, s.crd.lastStat.toNat)]
  | _ => if 0x08 ≤ o && o ≤ 0x24 then tget s.crd.cnt ((o - 0x08) / 4) else 0

/-- The code of VSTATE (R276). -/
def VState.code : VState → Nat
  | .disabled => 0 | .preparing => 1 | .ready => 2 | .capture => 3 | .commit => 4 | .closing => 5 | .full => 6

def incWord (o : Nat) (s : State) : Word :=
  let i := s.inc
  match o with
  | 0x00 => pack [(2, 1, b2n i.intEn)]
  | 0x04 => pack [(0, 3, i.vstate.code), (8, 8, i.hostStat.toNat), (16, 7, i.ringFill), (24, 7, i.preCount)]
  | 0x08 => i.recSeq
  | 0x0C => pack [(0, 16, i.positions), (16, 16, i.committed)]
  | 0x10 => pack [(0, 4, i.trigCount), (8, 4, i.lastCause.toNat)]
  | 0x14 => i.records
  | 0x18 => i.trigLost
  | 0x1C => i.gapCnt
  | 0x20 => i.sealCnt
  | 0x24 => pack [(0, 10, i.writePt), (16, 10, s.incSec.recSectors)]
  | _ => 0

/-- The boundaries are not judged: device time is not locked, or never was (R284). -/
def State.unjudged (s : State) : Bool := s.ldg.on && !s.tim.locked

/-- Usage is read at the instant of the read. -/
def ldgWord (o : Nat) (s : State) : Word :=
  let s := ldgTouch s
  let l := s.ldg
  match o with
  | 0x00 => pack [(2, 1, b2n l.intEn)]
  | 0x04 => pack [(0, 2, l.lstate.toNat), (2, 1, b2n s.unjudged), (3, 1, b2n l.backstop.isSome), (4, 1, b2n l.endMissing), (8, 8, l.appendStat.toNat),
      (16, 16, l.period.getD 0)]
  | 0x08 => l.seq
  | 0x0C => lo32 l.bnd
  | 0x10 => hi32 l.bnd
  | 0x14 => if l.period.isSome then BitVec.ofNat 32 (l.elapsedNs / sec9) else 0
  | 0x18 => BitVec.ofNat 32 (l.backstop.getD 0 / sec9)
  | 0x1C => pack [(0, 7, l.bounds.length)]
  | 0x60 => l.ackedSeq
  | 0x64 => l.lost
  | 0x68 => l.closeCnt
  | 0x6C => l.skipCnt
  | 0x70 => l.setbackCnt
  | 0x74 => l.backstopCnt
  | 0x78 => BitVec.ofNat 32 (l.unperiodNs / sec9)
  | _ => if 0x20 ≤ o && o < 0x60 then BitVec.ofNat 32 (tget l.accNs ((o - 0x20) / 4) / sec9) else 0

def cvtWord (o : Nat) (s : State) : Word :=
  match o with
  | 0x10 => s.cvt.testCfg.setWidth 32
  | 0x18 => s.cvt.testOut
  | 0x1C => pack [(0, 5, s.cvt.testFlags.toNat), (8, 8, s.cvt.testStat.toNat)]
  | _ =>
    if o < 0x40 || 0x140 ≤ o then 0
    else
      let n := (o - 0x40) / 16
      let c := tget s.cvt.ctx n
      match o % 16 with
      | 0 => pack [(0, 16, s.im.qformat.ctxs.getD n 0), (16, 1, b2n (s.im.qformat.ctxUsed.testBit n))]
      | 4 => c.flags.setWidth 32
      | 8 => c.satCnt
      | _ => c.invCnt

/-! ## ALN, EGO, GRD, OUT and SCH -/

def alnWord (o : Nat) (s : State) : Word :=
  match o with
  | 0x04 => s.aln.gen.setWidth 32
  | 0x08 => s.aln.maskLast
  | 0x0C => s.aln.maskAcc
  | 0x10 => BitVec.ofNat 32 s.im.streams.gatherSlot
  | _ =>
    if o < 0x100 || 0x500 ≤ o then 0
    else
      let n := (o - 0x100) / 32
      let d := (s.im.stream n).getD {}
      let x := s.strm n
      match o % 32 with
      | 0x00 => BitVec.ofNat 32 d.decl
      | 0x04 => BitVec.ofNat 32 d.period
      | 0x08 => BitVec.ofNat 32 d.window
      | 0x0C => BitVec.ofNat 32 d.limit
      | 0x10 => pack [(0, 4, x.reason.toNat), (8, 24, x.delivUs.toNat)]
      | 0x14 => x.maskedCnt
      | 0x18 => x.late
      | _ => pack [(0, 16, x.outWin.toNat), (16, 16, x.surplus.toNat)]

def egoWord (o : Nat) (s : State) : Word :=
  let e := s.ego
  match o with
  | 0x04 => pack [(0, 2, e.imuAct.toNat), (4, 4, e.wheelValid.toNat), (8, 1, b2n e.steerValid), (9, 7, e.flags.toNat), (16, 8, e.corrStat.toNat)]
  | 0x40 => e.histSel.setWidth 32
  | _ =>
    if 0x08 ≤ o && o ≤ 0x28 then tget e.cnt ((o - 0x08) / 4)
    else if 0x80 ≤ o && o ≤ 0xBC then tget e.histWords ((o - 0x80) / 4)
    else if 0xC0 ≤ o && o ≤ 0xFC then BitVec.ofInt 32 (e.corr.getD ((o - 0xC0) / 4) 0)
    else 0

def grdWord (o : Nat) (s : State) : Word :=
  let g := s.grd
  let i := s.im.grid
  match o with
  | 0x04 => pack [(0, 10, i.x), (16, 10, i.y)]
  | 0x08 => pack [(0, 11, i.cellMm), (16, 7, i.c), (24, 8, i.stride)]
  | 0x0C => BitVec.ofNat 32 i.buf0
  | 0x10 => BitVec.ofNat 32 i.buf1
  | 0x14 => pack [(0, 1, b2n g.front), (1, 1, b2n g.frontEmpty)]
  | 0x18 => g.exchCnt
  | 0x24 => g.votedOut
  | _ =>
    if 0x28 ≤ o && o ≤ 0x3C then tget g.cnt ((o - 0x28) / 4)
    else if 0x100 ≤ o && o < 0x200 then
      let x := tget g.groups ((o - 0x100) / 16)
      match o % 16 with
      | 0 => pack [(0, 3, x.part.toNat), (3, 1, b2n x.cons), (8, 5, x.outlier.toNat), (16, 8, x.dMax.toNat)]
      | 4 => pack ((List.range 4).map (fun k => (8 * k, 8, (tget x.hist k).toNat)))
      | 8 => (tget x.hist 4).setWidth 32
      | _ => 0
    else if 0x200 ≤ o && o < 0x280 then (tget g.clean ((o - 0x200) / 4)).setWidth 32
    else 0

def chanWord (c : Channel) (o : Nat) (s : State) : Word :=
  let x := s.chan c
  let d := s.im.chan c
  match o with
  | 0x00 => pack [(0, 1, b2n d.en), (8, 6, d.routes)]
  | 0x04 => x.frames
  | 0x08 => x.staleCnt
  | 0x0C => x.safeCnt
  | _ => if 0x20 ≤ o && o < 0x38 then tget x.drops ((o - 0x20) / 4) else 0

def outWord (o : Nat) (s : State) : Word :=
  if 0x100 ≤ o && o < 0x140 then chanWord .a (o - 0x100) s else if 0x140 ≤ o && o < 0x180 then chanWord .b (o - 0x140) s else 0

def queueWord (q o : Nat) (s : State) : Word :=
  let b := s.im.queue q
  let x := s.que q
  let bound := b.prod ≠ 0 || b.cons ≠ 0
  match o with
  | 0x00 => pack [(0, 4, b.prod), (4, 4, b.cons), (8, 6, b.prodIdx), (14, 6, b.consIdx), (20, 4, b.log2), (24, 6, b.vector)]
  | 0x04 => BitVec.ofNat 32 b.base
  | 0x08 => x.head.setWidth 32
  | 0x0C => x.tail.setWidth 32
  | 0x10 => pack [(0, 8, x.stat.toNat), (8, 1, b2n (bound && decide (b.size ≤ s.fill q))), (9, 1, b2n (!bound || decide (s.fill q = 0)))]
  | 0x14 => x.drop
  | 0x18 => x.hiwater.setWidth 32
  | 0x1C => x.posted
  | _ => 0

/-- Scoreboard entries in use (R105). (DESIGN CHOICE, log 77) -/
def entriesUsed (im : Image) : Nat := im.queues.slots.foldl (fun a d => a + if d.double then 2 else 1) 0

def schWord (o : Nat) (s : State) : Word :=
  let c := s.sch
  match o with
  | 0x00 => pack [(1, 1, b2n c.intEn)]
  | 0x04 => pack [(0, 13, s.im.tasks.length), (16, 14, entriesUsed s.im)]
  | 0x10 => c.voidCnt
  | 0x14 => c.lineOvr
  | 0x18 => c.wcetCnt
  | 0x1C => c.essLost
  | 0x20 => pack [(0, 13, c.peekSlot.toNat), (13, 1, b2n c.peekEntry)]
  | 0x24 => pack [(0, 1, b2n c.peek.present), (1, 1, b2n c.peek.isVoid), (2, 1, b2n c.peekDouble), (8, 8, c.peek.gen.toNat),
      (16, 6, c.peek.consLeft.toNat)]
  | 0x30 => c.peek.mask
  | 0x34 => c.peek.vote
  | 0x38 => c.peekStat.setWidth 32
  | _ =>
    if 0x40 ≤ o && o ≤ 0xBC then pack [(0, 16, (tget c.latLast ((o - 0x40) / 4)).toNat), (16, 16, (tget c.latMax ((o - 0x40) / 4)).toNat)]
    else if 0x1000 ≤ o then queueWord ((o - 0x1000) / 32) (o % 32) s
    else 0

/-! ## Ports -/

def camWord (r o : Nat) (s : State) : Word :=
  let c := s.cam r
  let p := s.im.ports.cams.getD r {}
  match o with
  | 0x00 => pack [(0, 3, p.lanes), (3, 1, b2n p.en), (4, 1, b2n (s.mode.ticks && p.en && p.bindings.any (fun b => b.bound)))]
  | 0x04 => pack [(0, 1, b2n c.hs), (4, 12, p.rate)]
  | _ =>
    if 0x08 ≤ o && o ≤ 0x2C then tget c.cnt ((o - 0x08) / 4)
    else if 0x40 ≤ o && o < 0x50 then
      let b := p.bindings.getD ((o - 0x40) / 4) {}
      pack [(0, 5, b.stream), (5, 2, b.vc), (8, 6, b.dt), (14, 1, b2n b.bound)]
    else 0

def ethWord (p o : Nat) (s : State) : Word :=
  let e := s.eth p
  match o with
  | 0x00 => pack [(0, 1, b2n (s.img.run.isSome && s.im.time.gptpPort = p))]
  | 0x04 => pack [(0, 1, b2n e.link), (1, 1, b2n e.anDone), (2, 1, b2n e.speedBad), (3, 1, b2n e.asCapable)]
  | 0x38 => e.peerDelay
  | _ =>
    if 0x08 ≤ o && o ≤ 0x34 then tget e.cnt ((o - 0x08) / 4)
    else if 0x100 ≤ o && o < 0x500 then
      BitVec.ofNat 32 ((((s.im.ports.eths.getD p {}).entries.getD ((o - 0x100) / 32) {}).words.getD (o % 32 / 4) 0))
    else 0

def canWord (c o : Nat) (s : State) : Word :=
  let x := s.can c
  match o with
  | 0x00 => pack [(0, 1, b2n ((s.im.ports.cans.getD c {}).restricted))]
  | 0x04 => pack [(0, 2, if x.busOff then 2 else if 128 ≤ x.rxErr.toNat || 128 ≤ x.txErr.toNat then 1 else 0), (8, 8, x.rxErr.toNat),
      (16, 9, x.txErr.toNat)]
  | _ => if 0x08 ≤ o && o ≤ 0x2C then tget x.cnt ((o - 0x08) / 4) else 0

def spiWord (u o : Nat) (s : State) : Word :=
  let x := s.spi u
  let p := s.im.ports.spis.getD u {}
  match o with
  | 0x00 => pack [(0, 1, b2n p.mode3), (1, 8, p.div)]
  | 0x04 => pack [(0, 1, b2n x.busy), (1, 1, b2n x.silent)]
  | _ => if 0x08 ≤ o && o ≤ 0x14 then tget x.cnt ((o - 0x08) / 4) else 0

def gpioWord (o : Nat) (s : State) : Word :=
  match o with
  | 0x00 => BitVec.ofNat 32 s.im.ports.gpioDir
  | 0x04 => BitVec.ofNat 32 s.im.ports.gpioOd
  | 0x08 => s.gpio.inp.setWidth 32
  | 0x0C => s.gpio.out.setWidth 32
  | 0x10 => pack [(0, 1, b2n s.im.ports.incTrig)]
  | 0x14 => s.gpio.edge
  | _ => 0

/-! ## FAB and HST -/

/-- PSTATE as it reads: a lane that may train and has no link is training from t₀ + 6 ms on (R295). (DESIGN CHOICE, log 86) -/
def portState (p : Nat) (s : State) : BitVec 3 :=
  if (s.port p).pstate = 0 && portMayTrain p s && s.gctl.t0 + 6000000 ≤ s.mono then 1 else (s.port p).pstate

def portWord (p o : Nat) (s : State) : Word :=
  let x := s.port p
  match o with
  | 0x00 => pack [(0, 3, (portState p s).toNat), (16, 12, x.nbAddr.toNat), (28, 2, x.nbPort.toNat)]
  | 0x04 => x.peerDelay.setWidth 32
  | _ => if 0x10 ≤ o && o ≤ 0x2C then tget x.cnt ((o - 0x10) / 4) else 0

def fabWord (o : Nat) (s : State) : Word :=
  let f := s.fab
  let c := s.fabSec
  match o with
  | 0x000 => pack [(1, 1, b2n f.intEn)]
  | 0x004 => pack ([(0, 3, f.role.toNat), (3, 1, b2n f.settled), (4, 1, b2n f.dupAddr), (5, 1, b2n f.deep), (16, 12, f.addr.toNat)] ++
      (List.range 4).map (fun p => (8 + p, 1, b2n (s.port p).up)))
  | 0x008 => pack [(0, 12, f.mgr.toNat), (16, 12, f.stby.toNat)]
  | 0x00C => pack [(0, 2, c.addrMode), (2, 1, b2n s.pins.mgrSel), (8, 8, c.priority), (16, 10, s.pins.fabAddr.toNat)]
  | 0x010 => pack [(0, 11, f.devices.toNat), (16, 6, f.hopsMgr.toNat)]
  | 0x014 => f.pathDelay
  | 0x080 => f.routeSel.setWidth 32
  | 0x084 => pack [(0, 3, f.routePort.toNat), (8, 6, f.routeHops.toNat)]
  | 0x200 => pack [(0, 4, f.cause.toNat), (8, 8, f.timeOk.toNat), (16, 1, b2n f.joined), (24, 2, c.safePolicy)]
  | 0x20C => BitVec.ofNat 32 (min 255 f.missConsec)
  | 0x210 => pack [(0, 14, c.ofsLimit), (16, 8, c.rejoin)]
  | 0x214 => pack [(0, 4, c.missLimit), (8, 8, c.freeRun), (16, 10, c.degTicks)]
  | 0x240 => f.memberSel.setWidth 32
  | 0x244 => pack [(0, 2, f.mstate.toNat), (8, 4, f.mcause.toNat)]
  | 0x248 => f.moffset
  | 0x24C => pack [(0, 11, (f.members.filter (fun m => m.mstate = 1)).length)]
  | _ =>
    if 0x020 ≤ o && o ≤ 0x03C then tget f.cnt ((o - 0x020) / 4)
    else if 0x100 ≤ o && o < 0x200 then portWord ((o - 0x100) / 64) (o % 64) s
    else if 0x218 ≤ o && o ≤ 0x230 then tget f.acnt ((o - 0x218) / 4)
    else 0

def ringWord (r : Ring) (o : Nat) : Word :=
  match o with
  | 0x00 => lo32 r.base
  | 0x04 => hi32 r.base
  | 0x08 => r.slots.setWidth 32
  | 0x0C => r.slotKib.setWidth 32
  | 0x10 => pack [(0, 1, b2n r.en), (8, 8, r.stat.toNat), (16, 6, r.vec.toNat)]
  | 0x14 => r.head.setWidth 32
  | 0x18 => r.tail.setWidth 32
  | 0x1C => lo32 r.wb
  | 0x20 => hi32 r.wb
  | 0x24 => r.frames
  | 0x28 => r.fullDrop
  | _ => 0

/-- The bytes of a mailbox message (R398). -/
def mbxBytes (m : MbxMsg) : List Byte := [m.type, m.tag] ++ leBytes 2 m.payload.length ++ [m.status, 0, 0, 0] ++ m.payload

/-- An entry of the MSI-X table, and the pending bits (R393). -/
def msixWord (o : Nat) (s : State) : Word :=
  if 0x9000 ≤ o then (if o = 0x9000 then lo32 s.hst.msixPend else if o = 0x9004 then hi32 s.hst.msixPend else 0)
  else if 0x8000 ≤ o && o < 0x8400 then
    let e := tget s.hst.msix ((o - 0x8000) / 16)
    match o % 16 with
    | 0 => lo32 e.addr
    | 4 => hi32 e.addr
    | 8 => e.data
    | _ => pack [(0, 1, b2n e.masked)]
  else 0

def hstWord (o : Nat) (s : State) : Word :=
  let h := s.hst
  match o with
  | 0x000 => pack [(1, 1, b2n h.intEn)]
  | 0x004 => pack [(0, 1, b2n h.linkUp), (1, 3, h.speed.toNat), (4, 3, h.width.toNat), (7, 1, b2n h.bme)]
  | 0x204 => pack [(0, 1, b2n (s.mbx.reqs.any (fun r => r.src = .pcie))), (1, 3, s.mbx.outPcie.length), (8, 8, h.mbxStat.toNat)]
  | _ =>
    if 0x010 ≤ o && o ≤ 0x01C then tget h.cnt ((o - 0x010) / 4)
    else if 0x100 ≤ o && o < 0x140 then ringWord h.ringA (o - 0x100)
    else if 0x140 ≤ o && o < 0x180 then ringWord h.ringB (o - 0x140)
    else if 0x1000 ≤ o && o < 0x2000 then alookup 0 h.mbxIn ((o - 0x1000) / 4)
    else if 0x2000 ≤ o && o < 0x3000 then
      match s.mbx.outPcie.head? with
      | some m => BitVec.ofNat 32 (at32 (mbxBytes m) (o - 0x2000))
      | none => 0
    else msixWord o s

/-! ## Core windows -/

/-- CORE_STAT.COND. -/
def State.coreCond (s : State) (n : Nat) : Nat :=
  let c := s.core n
  if c.fence ≠ 0 then 4 else if s.coreTested n then 3 else if c.job.isNone then 0 else if c.stalled || decide (s.mono < s.pwr.relockUntil) then 2 else 1

def coreWord (n o : Nat) (s : State) : Word :=
  let c := s.core n
  match o with
  | 0x000 => pack [(0, 3, s.coreCond n), (8, 12, match c.job with | some j => j.task | none => 0xFFF), (24, 2, c.fence.toNat)]
  | 0x004 => pack [(0, 12, c.slotPos), (16, 12, (s.im.queues.tables.getD n []).length)]
  | 0x018 => c.tasksRun
  | 0x01C => c.wcetExceed
  | 0x020 => pack [(2, 19, c.memAddr.toNat)]
  | 0x024 => Memory.read32 s.mem (coreBase n + 4 * c.memAddr.toNat)
  | 0x140 => c.accSat
  | 0x144 => c.lutClamp
  | 0x148 => c.satTick.setWidth 32
  | 0x200 => c.solStat
  | 0x204 => c.solIter
  | 0x208 => c.solPiv
  | 0x20C => c.solCycles
  | 0x228 => c.marginMin.setWidth 32
  | _ =>
    if 0x100 ≤ o && o < 0x140 then tget c.satCls ((o - 0x100) / 4)
    else if 0x210 ≤ o && o ≤ 0x224 then tget c.solCnt ((o - 0x210) / 4)
    else 0

/-! ## Pairs and their shadows (R10, R46, R390) -/

/-- The 64-bit value whose low half stands in the _LO register at an address (R10). -/
def pairAt (a : Nat) (s : State) : Option (BitVec 64) :=
  match a with
  | 0x00010 => some s.corePres
  | 0x00018 => some (if s.live 25 then s.corePres else 0)
  | 0x01014 => some (w64 s.tim.dev)
  | 0x0101C => some (w64 s.tim.mono)
  | 0x01044 => some s.tim.stepOld
  | 0x0104C => some s.tim.stepNew
  | 0x02020 => some s.tck.index
  | 0x02028 => some (w64 s.tck.bound)
  | 0x03064 => some s.img.commitIndex
  | 0x04030 => some s.pwr.grants
  | 0x0B00C => some s.ldg.bnd
  | 0x50100 => some s.hst.ringA.base
  | 0x5011C => some s.hst.ringA.wb
  | 0x50140 => some s.hst.ringB.base
  | 0x5015C => some s.hst.ringB.wb
  | 0x1801C => some s.grd.frontIdx
  | 0x1C110 => some s.outb.a.lastOut
  | 0x1C118 => some 0
  | 0x1C150 => some s.outb.b.lastOut
  | 0x1C158 => some s.outb.b.lastAge
  | 0x20008 => some (BitVec.ofNat 64 ((List.range 48).foldl (fun v n => v + if (s.core n).fence ≠ 0 then 2 ^ n else 0) 0))
  | 0x20028 => some s.sch.peek.oldest.stamp
  | 0x40018 => some s.otp.serial
  | 0x40204 => some s.fab.epoch
  | _ =>
    if 0x30000 ≤ a && a < 0x38000 && a % 4096 = 0x30 then some (s.cam ((a - 0x30000) / 4096)).fsStamp
    else if a = 0x3D018 then some (s.spi 0).drdy
    else if a = 0x3D118 then some (s.spi 1).drdy
    else if 0x3E040 ≤ a && a < 0x3E140 && a % 16 = 0 then some (tget s.gpio.rise ((a - 0x3E040) / 16))
    else if 0x3E040 ≤ a && a < 0x3E140 && a % 16 = 8 then some (tget s.gpio.fall ((a - 0x3E040) / 16))
    else if 0x40100 ≤ a && a < 0x40200 && a % 64 = 8 then some (s.port ((a - 0x40100) / 64)).nbSerial
    else if 0x100000 ≤ a && a < 0x1C0000 && a % 0x4000 = 8 then some (s.core ((a - 0x100000) / 0x4000)).busyCyc
    else if 0x100000 ≤ a && a < 0x1C0000 && a % 0x4000 = 16 then some (s.core ((a - 0x100000) / 0x4000)).stallCyc
    else none

/-- What a read at an address copies into the shadows: companion registers and their values at this instant. -/
def companions (a : Nat) (s : State) : List (Nat × Word) :=
  match pairAt a s with
  | some v => [(a + 4, hi32 v)]
  | none =>
    if a = 0x01008 then
      let sec := s.tim.dev / sec9
      [(0x0100C, BitVec.ofNat 32 sec), (0x01010, BitVec.ofNat 32 (sec / 2 ^ 32 % 65536))]
    else if a = 0x0301C then (List.range 7).map (fun i => (0x03020 + 4 * i, if s.img.run.isSome then digestWord s.im.hdr.digest (i + 1) else 0))
    else if a = 0x0303C then (List.range 7).map (fun i => (0x03040 + 4 * i, digestWord s.img.stgDigest (i + 1)))
    else []

/-- The register is a shadow: it reads as the reading source's last copy. -/
def isShadow (a : Nat) (s : State) : Bool :=
  (4 ≤ a && (pairAt (a - 4) s).isSome) || a = 0x0100C || a = 0x01010 || (0x03020 ≤ a && a ≤ 0x03038) || (0x03040 ≤ a && a ≤ 0x03058)

/-! ## A register read -/

/-- The register at an address of a live block that is no shadow. -/
def plainWord (a : Nat) (s : State) : Word :=
  match pairAt a s with
  | some v => lo32 v
  | none =>
    match blockOf a with
    | some 0 => gctlWord a s
    | some 1 => timWord (a % 4096) s
    | some 2 => tckWord (a % 4096) s
    | some 3 => imgWord (a % 4096) s
    | some 4 => pwrWord (a % 4096) s
    | some 5 => clkWord (a % 4096) s
    | some 6 => fltWord (a % 4096) s
    | some 7 => tstWord (a % 4096) s
    | some 8 => arcWord (a % 4096) s
    | some 9 => crdWord (a % 4096) s
    | some 10 => incWord (a % 4096) s
    | some 11 => ldgWord (a % 4096) s
    | some 12 => cvtWord (a % 4096) s
    | some 13 => alnWord (a - 0x10000) s
    | some 14 => egoWord (a - 0x14000) s
    | some 15 => grdWord (a - 0x18000) s
    | some 16 => outWord (a - 0x1C000) s
    | some 17 => schWord (a - 0x20000) s
    | some 18 => camWord ((a - 0x30000) / 4096) (a % 4096) s
    | some 19 => ethWord ((a - 0x38000) / 4096) (a % 4096) s
    | some 20 => canWord ((a - 0x3C000) / 2048) (a % 2048) s
    | some 21 => if a < 0x3D200 then spiWord ((a - 0x3D000) / 256) (a % 256) s else 0
    | some 22 => gpioWord (a % 4096) s
    | some 23 => fabWord (a % 4096) s
    | some 24 => hstWord (a - 0x50000) s
    | some _ => coreWord ((a - 0x100000) / 0x4000) (a % 0x4000) s
    | none => 0

/-- The shadows of a source. -/
def Shadows.of (h : Shadows) : Source → List (Nat × Word)
  | .card => h.card
  | _ => h.pcie

/-- Copies into the shadows of a source. -/
def shadowPut (src : Source) (l : List (Nat × Word)) (s : State) : State :=
  match src with
  | .card => { s with shadows.card := l.foldl (fun m e => aset 0 m e.1 e.2) s.shadows.card }
  | _ => { s with shadows.pcie := l.foldl (fun m e => aset 0 m e.1 e.2) s.shadows.pcie }

/-- A read of a live block: CORE_KHZ is a measurement, and the local SRAM of a core that failed its self-test holds nothing that
is stated. -/
def liveRead (src : Source) (a : Nat) (s : State) : State × Word :=
  if isShadow a s then (s, alookup 0 (s.shadows.of src) a)
  else if a = 0x5008 then (s.drawn, (Config.coreKhz s.freeCtr).setWidth 32)
  else if blockOf a = some 25 && a % 0x4000 = 0x24 && (s.core ((a - 0x100000) / 0x4000)).fence = 2 then (s.drawn, Config.freeWord s.freeCtr)
  else (shadowPut src (companions a s) s, plainWord a s)

/-- A 32-bit register read at an offset of BAR0 (R9 to R13, R389). (DESIGN CHOICE, log 77) -/
def regRead (src : Source) (a : Nat) (s : State) : State × Word :=
  if a % 4 ≠ 0 then (s, refusal stBadArg)
  else match blockOf a with
    | none => ({ s with hst.cnt := tinc s.hst.cnt 0 }, refusal stNotPresent)
    | some row =>
      if s.absent a then (s, refusal stNotPresent)
      else if !s.live row then (s, refusal stNotInState)
      else liveRead src a s

end Sys2Proof.Machine
end

