-- ==== Sys2Proof/Machine/HostOps.lean ====
section
/-! DEFINITION. Operations of the host interface: output rings, MSI-X table, the mailbox as PCIe sees it and the grid window
(21_host_access.md). -/
namespace Sys2Proof.Machine

/-! ## Rings (R395 to R397) -/

/-- The status of a ring write. -/
def ringStat (c : Channel) (st : Byte) (s : State) : State := s.setRing c { s.ring c with stat := st }

/-- A write of a field that is fixed while the ring is enabled. -/
def ringField (c : Channel) (f : Ring → Ring) (s : State) : State :=
  if (s.ring c).en then ringStat c stBusy s else s.setRing c { f (s.ring c) with stat := stOk }

/-- Writing EN = 1 checks the configuration (R395). (DESIGN CHOICE, log 79) -/
def ringOk (c : Channel) (s : State) : Bool :=
  let r := s.ring c
  r.base.toNat % 4096 = 0 && 2 ≤ r.slots.toNat && r.slots.toNat ≤ 1024 && s.im.frameLen (c = .b) ≤ r.slotKib.toNat * 1024 && r.wb.toNat % 8 = 0

/-- Writing EN = 1. (DESIGN CHOICE, log 79) -/
def ringEnable (c : Channel) (s : State) : State :=
  if (s.ring c).en then ringStat c stBusy s
  else if ringOk c s then s.setRing c { s.ring c with en := true, stat := stOk }
  else ringStat c stBadArg s

/-- Writing EN = 0: a transfer in progress completes before the ring stops (R397). (DESIGN CHOICE, log 79) -/
def ringDisable (c : Channel) (s : State) : State :=
  s.setRing c { s.ring c with en := false, stopping := (s.ring c).en && (s.ring c).busy, stat := stOk }

/-- A write of the register that holds EN and RING_VEC. (DESIGN CHOICE, log 79) -/
def ringCtlWrite (c : Channel) (v : Word) (s : State) : State :=
  let vec := (v.extractLsb' 16 6).toNat
  if (s.ring c).en then (if v.getLsbD 0 then ringStat c stBusy s else ringDisable c s)
  else if 1 ≤ vec && vec < 16 then ringStat c stBadArg s
  else
    let s := s.setRing c { s.ring c with vec := v.extractLsb' 16 6, stat := stOk }
    if v.getLsbD 0 then ringEnable c s else s

/-- HEAD is advanced (R396): a value beyond SLOTS − 1 is refused. -/
def ringHead (c : Channel) (v : BitVec 10) (s : State) : State :=
  if v.toNat < (s.ring c).slots.toNat then s.setRing c { s.ring c with head := v, stat := stOk } else ringStat c stBadArg s

/-- A transfer ends: TAIL advances, the writeback follows, RING_VEC is raised. -/
def ringWriteback (c : Channel) (s : State) : State :=
  let r := s.ring c
  if !r.busy || !s.mode.answers then s
  else
    let tail : BitVec 10 := BitVec.ofNat 10 ((r.tail.toNat + 1) % max 1 r.slots.toNat)
    let s := s.setRing c { r with tail := tail, frames := satInc r.frames, busy := false, stopping := false }
    msix r.vec.toNat (r.vec ≠ 0) (s.say (.hostWrite r.wb (leBytes 4 tail.toNat ++ leBytes 4 r.fullDrop.toNat)))

/-- A write of a ring's register at offset `o` of its channel. -/
def ringWrite32 (c : Channel) (o : Nat) (v : Word) (s : State) : State :=
  match o with
  | 0x00 => ringField c (fun r => { r with base := (r.base &&& 0xFFFFFFFF00000000) ||| v.setWidth 64 }) s
  | 0x04 => ringField c (fun r => { r with base := (r.base &&& 0xFFFFFFFF) ||| (v.setWidth 64 <<< 32) }) s
  | 0x08 => ringField c (fun r => { r with slots := v.setWidth 11 }) s
  | 0x0C => ringField c (fun r => { r with slotKib := v.setWidth 16 }) s
  | 0x10 => ringCtlWrite c v s
  | 0x14 => ringHead c (v.setWidth 10) s
  | 0x1C => ringField c (fun r => { r with wb := (r.wb &&& 0xFFFFFFFF00000000) ||| v.setWidth 64 }) s
  | 0x20 => ringField c (fun r => { r with wb := (r.wb &&& 0xFFFFFFFF) ||| (v.setWidth 64 <<< 32) }) s
  | _ => s

/-! ## MSI-X (R393, R394) -/

/-- The pending message of a vector is sent, once nothing holds it. -/
def msixSend (v : Nat) (s : State) : State :=
  if s.hst.msixPend.getLsbD v && !(tget s.hst.msix v).masked && s.hst.bme then
    { s.say (.msix v) with hst.msixPend := s.hst.msixPend &&& ~~~(BitVec.twoPow 64 v) }
  else s

/-- A write of an entry of the MSI-X table at byte offset `o`. -/
def msixWrite (o : Nat) (v : Word) (s : State) : State :=
  let n := o / 16
  let upd (f : MsixEntry → MsixEntry) : State := { s with hst.msix := tmod s.hst.msix n f }
  match o % 16 with
  | 0 => upd (fun e => { e with addr := (e.addr &&& 0xFFFFFFFF00000000) ||| v.setWidth 64 })
  | 4 => upd (fun e => { e with addr := (e.addr &&& 0xFFFFFFFF) ||| (v.setWidth 64 <<< 32) })
  | 8 => upd (fun e => { e with data := v })
  | _ => msixSend n (upd (fun e => { e with masked := v.getLsbD 0 }))

/-- Bus Master Enable is written: set, it sends every pending message that is not masked. (DESIGN CHOICE, log 80) -/
def setBme (on : Bool) (s : State) : State :=
  let s := { s with hst.bme := on }
  if on then (List.range 64).foldl (fun t v => msixSend v t) s else s

/-! ## The mailbox as PCIe sees it (R398) -/

/-- The status of a PUT or GET. -/
def mbxStat (st : Byte) (s : State) : State := { s with hst.mbxStat := st }

/-- A message from its bytes; none where its LENGTH is out of range. -/
def readMbx (b : List Byte) : Option MbxMsg :=
  let n := at16 b 2
  if n ≤ 4088 && n % 4 = 0 then
    some { type := BitVec.ofNat 8 (at8 b 0), tag := BitVec.ofNat 8 (at8 b 1), payload := part b 8 n }
  else none

/-- The bytes of MBX_IN. -/
def State.mbxInBytes (s : State) : List Byte := (List.range 1024).flatMap (fun i => leBytes 4 (alookup 0 s.hst.mbxIn i).toNat)

/-- MBX_CTL.PUT. (DESIGN CHOICE, log 81) -/
def mbxPut (s : State) : State :=
  if s.mbx.reqs.any (fun r => r.src = .pcie) then mbxStat stBusy { s with hst.cnt := tinc s.hst.cnt 3 }
  else match readMbx s.mbxInBytes with
    | some m => mbxStat stOk { s with mbx.reqs := s.mbx.reqs ++ [{ src := .pcie, msg := m }] }
    | none => mbxStat stBadArg s

/-- MBX_CTL.GET; its status with no reply waiting is left open. (DESIGN CHOICE, log 81) -/
def mbxGet (s : State) : State :=
  match s.mbx.outPcie with
  | [] => mbxStat (someStatus s.freeCtr) s.drawn
  | _ :: rest => mbxStat stOk { s with mbx.outPcie := rest }

/-- A write of MBX_CTL. (DESIGN CHOICE, log 81) -/
def mbxCtlWrite (v : Word) (s : State) : State :=
  let s := if v.getLsbD 0 then mbxPut s else s
  if v.getLsbD 1 then mbxGet s else s

/-- A write to the HST block at offset `o`, but for MBX_CTL. -/
def hstWrite (o : Nat) (v : Word) (s : State) : State :=
  if o = 0 then { (if v.getLsbD 0 then clearBlk .hst s else s) with hst.intEn := v.getLsbD 1 }
  else if 0x100 ≤ o && o < 0x140 then ringWrite32 .a (o - 0x100) v s
  else if 0x140 ≤ o && o < 0x180 then ringWrite32 .b (o - 0x140) v s
  else if 0x1000 ≤ o && o < 0x2000 then { s with hst.mbxIn := aset 0 s.hst.mbxIn ((o - 0x1000) / 4) v }
  else if 0x8000 ≤ o && o < 0x8400 then msixWrite (o - 0x8000) v s
  else s

/-! ## The grid window (R392, R97) -/

/-- A range of grid memory lies within the ring or the data area of a queue whose producer is the host. -/
def State.hostRange (s : State) (a n : Nat) : Bool :=
  s.im.queues.queues.any (fun b => b.prod = 8 &&
    ((b.base ≤ a && a + n ≤ b.base + 32 * b.size) || (b.dataBase ≠ 0 && b.dataBase ≤ a && a + n ≤ b.dataBase + b.dataLen)))

/-- A 32-bit write of the grid window at byte offset `off`. -/
def gridWinWrite (off : Nat) (v : Word) (s : State) : State :=
  let a := gridBase + off
  if s.hostRange a 4 then { s with mem := Memory.write s.mem a (leBytes 4 v.toNat) } else { s with hst.cnt := tinc s.hst.cnt 1 }

/-- A 32-bit read of the grid window. (DEDUCED, log 93) -/
def gridWinRead (off : Nat) (s : State) : Word := if s.mode.fromArmed then Memory.read32 s.mem (gridBase + off) else refusal stNotInState

end Sys2Proof.Machine
end

