-- ==== Sys2Proof/Machine/Records.lean ====
section
/-! DEFINITION. The rows of the vitrine and of the turnstile (R274 to R281 of 14_vitrine.md, R283 to R294 of
15_turnstile.md). -/
namespace Sys2Proof.Machine

/-! ## The vitrine -/

/-- A trigger that is accepted now is lost (R276). -/
def State.trigFull (s : State) : Bool :=
  match s.inc.vstate, s.inc.record with
  | .ready, _ => false
  | .capture, some r => decide (8 ≤ r.trigs.length)
  | .commit, some r => decide (8 ≤ r.trigs.length)
  | _, _ => true

/-- A host trigger (R274) leaves its status in HOST_STAT. (DESIGN CHOICE, log 69) -/
def hostTrigger (s : State) : State :=
  if !s.incOn then { s with inc.hostStat := stNotPresent }
  else
    let lost := s.incSec.trigEn.testBit (cauHost - 1) && s.trigFull
    vitTrigger cauHost 0 0 0 { s with inc.hostStat := if lost then stBusy else stOk }

/-- States in which a host trigger is legal (R61). -/
def trigLegal (m : Mode) : Bool := m = .run || m = .degraded || m = .safe

/-- HOST_TRIGGER (R274). -/
def execHostTrigger (src : Source) (s : State) : Answer :=
  done (judgedCmd src 0xA000 trigLegal (fun s => { s with inc.hostStat := stNotInState }) hostTrigger s)

/-- VITRINE_BLOCK_COMMIT (R278): a program of the host is waited for. -/
def execVitrineBlockCommit (s : State) : Answer := done (if s.mode.fromArmed && s.arc.prog.isNone then commitBlock s else s)

/-- A record whose capture has ended and whose blocks are all committed. -/
def State.sealReady (s : State) : Bool := (match s.inc.record with | some r => !r.capturing | none => false) && s.recDrained

/-- VITRINE_SEAL (R278): the erase ahead and the closing words, as an agent's turn at the array. During an ejection a host erase that is
suspended is resumed afterwards (R270). (DESIGN CHOICE, log 67; DESIGN CHOICE, log 69) -/
def execVitrineSeal (s : State) : Answer :=
  done (if s.mode.fromArmed && s.sealReady then
    let s := sealComplete s
    if s.crd.ejState = 1 then ejectErase s else s
  else s)

/-- VITRINE_PREPARE (R280). -/
def execVitrinePrepare (s : State) : Answer :=
  done (if (s.mode.fromArmed || s.mode = .load) && s.arrayFree && s.inc.vstate = .preparing then vitPrepare s else s)

/-- VITRINE_START_SEAL (R279). -/
def execVitrineStartSeal (s : State) : Answer :=
  done (if s.mode.fromArmed && s.arc.prog.isNone && s.incOn then startSeal s else s)

/-- The EXPORTED marker of the record that starts at a sector, where it carries CLOSE (R281). The marker's bytes are
left open. (DESIGN CHOICE, log 18; DESIGN CHOICE, log 69) -/
def ackRecord (seq : Nat) (s : State) : State × Byte :=
  let s := scanArea s
  match (recordsIn s.arc s.incArea).find? (fun f => f.seq = seq) with
  | none => (s, stNotPresent)
  | some f =>
    if !f.isSealed then (s, stBusy)
    else if f.exported then (s, stOk)
    else
      let a := recWord s.incArea f.first 28
      let s := devPut a ((List.range 32).map (fun i => Config.freeByte (s.freeCtr + i))) (agentTurn { s with freeCtr := s.freeCtr + 32 })
      if s.inc.vstate = .full then
        let (t, ok) := eraseAhead s.inc.writePt s
        (if ok then { t with inc.vstate := .ready } else t, stOk)
      else (s, stOk)

/-! ## The turnstile -/

/-- Time passes to a stamp, unless a phase edge comes first. -/
def untilStamp (b : Nat) (s : State) : Option State :=
  let u := advanceStamp b s
  if b ≤ s.stamp then some s else if s.edgeBefore u.mono then none else some u

/-- The stamp of the boundary that the turnstile waits for: the end of the open period, or the first boundary. -/
def State.periodEnd (s : State) : Option Nat :=
  match s.ldg.period with
  | some p => s.ldg.endOf p
  | none => s.ldg.bounds.head?

/-- The instant at which ELAPSED reaches the backstop, where it runs. -/
def backstopMono (limit : Nat) (s : State) : Option Nat :=
  if limit ≤ s.ldg.elapsedNs then some s.mono else if s.mode.ticks then some (s.mono + (limit - s.ldg.elapsedNs)) else none

/-- An armed backstop is reached before the instant `m` (R291). -/
def State.backstopBefore (s : State) (m : Nat) : Bool :=
  match s.ldg.backstop with
  | some limit => (backstopMono limit (ldgTouch s)).any (fun x => decide (x < m))
  | none => false

/-- PERIOD_BOUNDARY (R284), unless a backstop is reached first (R291). -/
def execPeriodBoundary (s : State) : Answer :=
  done (if s.ldg.on && s.tim.locked && s.mode ≠ .removal then
    match s.periodEnd with
    | some b => match untilStamp b s with
      | some t => if s.backstopBefore t.mono then s else ldgJudge t.stamp t
      | none => s
    | none => s
  else s)

/-- Device time, on its present course, reaches the open period's end by the instant `m`, while boundaries are judged. -/
def State.endsBefore (s : State) (m : Nat) : Bool :=
  s.tim.locked && (match s.periodEnd with | some b => decide (b ≤ stampOf m s) | none => false)

/-- BACKSTOP (R291): whichever comes first closes the period, its end or its backstop. -/
def execBackstop (s : State) : Answer :=
  let s := ldgTouch s
  done (match s.ldg.on && s.mode ≠ .removal, s.ldg.backstop with
    | true, some limit => match backstopMono limit s with
      | some m => if s.edgeBefore m || s.endsBefore m then s else ldgBackstop (ldgTouch (advanceTo m s))
      | none => s
    | _, _ => s)

/-- CHECKPOINT (R289): CKPT seconds after the last one. -/
def execCheckpoint (s : State) : Answer :=
  let m := s.ldg.ckptMono + s.ledgerSec.ckpt * 1000000000
  done (if s.ldg.on && s.mode ≠ .removal && s.arc.prog.isNone && !s.edgeBefore m then ldgCheckpoint false (advanceTo m s) else s)

/-- The boundary `b` may be appended (R282, R293). (DESIGN CHOICE, log 17; DESIGN CHOICE, log 70) -/
def Ldg.mayAppend (l : Ldg) (b : Nat) : Bool :=
  match l.bounds.getLast? with
  | none => false
  | some last => decide (last + 3600 * sec9 ≤ b) && decide (b ≤ last + 2678400 * sec9) && !(64 ≤ l.bounds.length && l.period = some l.first)

/-- The append of the staged boundary (R293). (DESIGN CHOICE, log 70) -/
def doAppend (s : State) : State :=
  let b := s.ldg.bnd.toNat
  if !s.ldg.mayAppend b then { s with ldg.appendStat := stBadArg }
  else
    let full := decide (64 ≤ s.ldg.bounds.length)
    let l := (if full then s.ldg.bounds.drop 1 else s.ldg.bounds) ++ [b]
    let s := ldgTouch { s with ldg.appendStat := stOk, ldg.bounds := l, ldg.first := if full then s.ldg.first + 1 else s.ldg.first }
    ldgEndCheck (ldgWrite { ldgEntry 6 0 s with stamp := w64 b, extra := leBytes 4 (s.ldg.first + l.length - 1) } s)

/-- APPEND (R293). -/
def execAppendBound (src : Source) (s : State) : Answer :=
  done (judgedCmd src 0xB000 Mode.fromArmed (fun s => { s with ldg.appendStat := stNotInState }) doAppend s)

/-- The sector that stands in the way of the next entry in FULL; the one that holds the newest entry is never erased (R288). -/
def State.ledgerBlock (s : State) : Option Nat :=
  ((List.range 4).find? (fun i => !s.arc.isBlank (ledgerAddr (s.ldg.writePt + i)))).map (fun i => (s.ldg.writePt + i) % 2048 / 256)

/-- In FULL, once the sector in the way is acknowledged: it is erased, the queued entries are written, then a checkpoint
(R288). (DESIGN CHOICE, log 70) -/
def ldgFree (s : State) : State :=
  match decide (s.ldg.lstate = 3), s.ledgerBlock with
  | true, some k =>
    if tget s.ldg.secSeq k ≤ s.ldg.ackedSeq.toNat && k ≠ (s.ldg.writePt + 2047) % 2048 / 256 then
      let q := s.ldg.queued
      let s := devErase true k (agentTurn { s with ldg.secSeq := tset s.ldg.secSeq k 0, ldg.lstate := 2, ldg.queued := [] })
      ldgCheckpoint false (q.foldl (fun s e => ldgWrite e s) s)
    else s
  | _, _ => s

/-- An acknowledgement of entries up to SEQ `n` (R294). (DESIGN CHOICE, log 70) -/
def ldgAck (n : Nat) (s : State) : State × Byte :=
  if !s.ldg.on then (s, stNotPresent)
  else if n < s.ldg.ackedSeq.toNat || s.ldg.seq.toNat < n then (s, stBadArg)
  else
    let s := ldgFree (ldgTouch { s with ldg.ackedSeq := BitVec.ofNat 32 n })
    (ldgWrite { ldgEntry 7 0 s with extra := leBytes 4 n } s, stOk)

end Sys2Proof.Machine
end

