-- ==== Sys2Proof/Machine/Ticks.lean ====
section
/-! DEFINITION. The commands of the tick sources and boundaries (01_tick.md). -/
namespace Sys2Proof.Machine

/-- TICK_BOUNDARY (R20, R31): the source in force makes the next boundary. What the hottest temperature sensor reads is kept, also where no
boundary is due (R336, R342). (DESIGN CHOICE, log 71) -/
def execTickBoundary (hottest : Int) (s : State) : Answer := done (nextBoundary (settle (thermalLevel { s with pwr.hottest := hottest })))

/-- STAGED_APPLY (R31, step 1): a boundary at which staged fields take effect. -/
def execStagedApply (s : State) : Answer :=
  done (boundaryIf (fun s => s.pwr.staged.isSome || s.tck.req.isSome || !s.fab.budgets.isEmpty) s)

/-- COMMIT_TAKE_EFFECT (R91): the boundary of a pending commit. -/
def execCommitTakeEffect (s : State) : Answer := done (boundaryIf (fun s => s.img.stage = 4) s)

/-- RUN_ENTRY (R65): the boundary at which the conditions hold. -/
def execRunEntry (s : State) : Answer := done (boundaryIf (fun s => s.mode = .armed && s.runReady) s)

/-- DEGRADED_EXIT (R66): the boundary at which no cause is active. -/
def execDegradedExit (s : State) : Answer :=
  done (boundaryIf (fun s => s.mode = .degraded && !(s.gctl.degOvr && s.gctl.onTimeRun < s.im.tick.recover) && !s.gctl.degFlywheel &&
    !s.degWardenCause && !s.gctl.degTime && !(s.gctl.degFabric && !s.gctl.fabricBack)) s)

/-- LOCK_LOSS_DEGRADE (R66). -/
def execLockLossDegrade (s : State) : Answer := done (boundaryIf (fun s => s.mode = .run && s.gctl.lockLost) s)

/-- QUARANTINE_EXIT (R322). -/
def execQuarantineExit (s : State) : Answer := done (boundaryIf (fun s => s.mode = .quarantine && s.gctl.admitted) s)

/-- ARM_TIMEOUT (R65): it runs from the latest entry to ARMED, where the image permits free-run. -/
def execArmTimeout (s : State) : Answer :=
  done (if s.mode = .armed && s.im.tick.freeRunOk && !s.gctl.armTimedOut then
    let s := advanceTo (s.gctl.armedMono + s.im.tick.armTimeout * 1000000) s
    if s.tim.locked then s else { s with gctl.armTimedOut := true }
  else s)

/-! ## Source requests and switches (R23, R417) -/

/-- The judgement of a request for a source (R23). -/
def srcJudge (value : BitVec 2) (s : State) : State :=
  if value = s.tck.src then s
  else if value = 3 then { s with tck.srcStat := stBadArg }
  else if !(s.im.tick.srcAllow.testBit value.toNat) || (value = srcFabric && s.isManager) then { s with tck.srcStat := stProtected }
  else { s with tck.req := some value, tck.src := value }

/-- SRC_REQUEST (R23): a write of TCK_CTL.SRC. -/
def execSrcRequest (src : Source) (value : BitVec 2) (s : State) : Answer := done (judged src 0x2000 (srcJudge value) s)

/-- SRC_SWITCH_EFFECT (R23): the boundary that the new source makes. -/
def execSrcSwitchEffect (s : State) : Answer := done (boundaryIf (fun s => s.tck.switch.isSome) s)

/-- The new source has delivered nothing within T after the end of tick k (R23, R417): TICK_IN resumes with a flywheel boundary at
the timeout itself. (DESIGN CHOICE, log 27) -/
def switchTimeout (s : State) : State :=
  match s.tck.switch with
  | none => s
  | some w =>
    let m := w.endMono + s.period
    if !s.boundaryFree || (switchNext w s).isSome then s
    else
      let s := endFly (advanceTo m s)
      let s := srcEvent { s with tck.switch := none, tck.src := s.tck.active, tck.srcStat := stTimeout, tck.req := none
                                 tck.lead := none, tck.gridAt := some s.mono }
      if s.tck.active = srcTickIn then
        boundary s.stamp none true (if s.isManager then 0 else s.filtTick) { s with tck.inMiss := satInc s.tck.inMiss }
      else s

/-- SRC_SWITCH_TIMEOUT (R23). -/
def execSrcSwitchTimeout (s : State) : Answer := done (switchTimeout s)

/-! ## TICK_IN (R21, R22, R418) -/

/-- The end of tick k under a switch away from TICK_IN, by an edge before the flywheel instant; on a manager LEAD after it.
Later edges are ignored (R417). -/
def endByEdge (w : Switch) (s : State) : State :=
  let e := s.mono - s.filtTick + (if s.isManager then s.leadNs else 0)
  if !w.flyEnd || w.endMono < e then s
  else if pinNow s < judgeFrom s + s.tolEarly then { s with tck.inEarly := satInc s.tck.inEarly }
  else { s with tck.switch := some { w with endMono := e, flyEnd := false } }

/-- An edge under TICK_IN (R21, R418). On a manager an edge between an accepted one and its boundary LEAD later is ignored and
counted nowhere. (DESIGN CHOICE, log 27; DESIGN CHOICE, log 96) -/
def judgeEdge (s : State) : State :=
  if s.tck.lead.isSome then s
  else if s.tck.ticked && decide (pinNow s < judgeFrom s + s.tolEarly) then { s with tck.inEarly := satInc s.tck.inEarly }
  else if pinNow s ≤ judgeFrom s + s.tolLate && s.boundaryFree then tickInBoundary (pinNow s).toNat false s
  else s

/-- The filtered rising edge of TICK_IN: under a switch to TICK_IN the boundary that it makes counts from the end of tick k to T after
it, and edges before are ignored. (DESIGN CHOICE, log 27) -/
def tickEdge (s : State) : State :=
  if !s.mode.ticks then s
  else
    let b := s.mono - s.filtTick + (if s.isManager then s.leadNs else 0)
    match s.tck.switch with
    | some w =>
      if s.tck.active = srcTickIn then endByEdge w s
      else if w.dest = srcTickIn && s.tck.lead.isNone && w.endMono ≤ b && b ≤ w.endMono + s.period && s.boundaryFree then
        tickInBoundary (pinNow s).toNat false s
      else s
    | none => if s.tck.active = srcTickIn then judgeEdge s else s

/-- TICK_IN_EDGE (R21). -/
def execTickInEdge (s : State) : Answer := done (tickEdge s)

/-- The flywheel instant of R21 comes with no edge: a boundary, or under a switch away only the end of tick k (R417). (DESIGN CHOICE, log 27) -/
def flyInstant (s : State) : State :=
  if s.tck.active ≠ srcTickIn || !s.boundaryFree then s
  else match s.tck.switch with
    | some w =>
      if w.flyEnd then endFly (advanceTo (w.endMono + s.filtTick) s) else s
    | none => if s.tck.lead.isNone then flywheel s else s

/-- FLYWHEEL_BOUNDARY (R21). -/
def execFlywheelBoundary (s : State) : Answer := done (flyInstant s)

/-- FALLBACK (R22): the boundary at which the fallback, or DEGRADED, takes effect with no edge come. -/
def execFallback (s : State) : Answer := done (if s.tck.fallbackDue || s.gctl.flyDegrade then flyInstant s else s)

end Sys2Proof.Machine
end

