-- ==== Sys2Proof/Machine/TimeBase.lean ====
section
/-! DEFINITION. The commands of device time (02_time_base.md). -/
namespace Sys2Proof.Machine

/-- The address of TIM_CTL, and of the registers that stage a time (R47). -/
abbrev timCtl : Nat := 0x1000
def timSetAddr : TimSet → Nat
  | .nsec => 0x1024 | .secLo => 0x1028 | .secHi => 0x102C | .ofs => 0x1030

/-- The status of an apply, cancel, discipline request or refused write (R40, R51). -/
def timStat (st : Byte) (s : State) : State := { s with tim.applyStat := st }

/-! ## Discipline requests (R40) -/

/-- A write of TIM_CTL whose DISC differs from the value read. An apply of an earlier write is not spared by it. -/
def discReq (d : BitVec 2) (s : State) : State :=
  if d = s.tim.disc then s
  else if s.im.time.discAllow.testBit d.toNat then
    timStat stOk (stageDisc d s)
  else timStat stProtected s

/-- TIM_DISC_REQUEST (R40). -/
def execTimDiscRequest (src : Source) (disc : BitVec 2) (s : State) : Answer := done (judged src timCtl (discReq disc) s)

/-! ## Applies (R47 to R52) -/

/-- The staged time as a stamp; none where a field is out of range (R36, SET_NSEC). -/
def Tim.staged (t : Tim) : Option Nat :=
  let sec := t.setSecHi.toNat * 0x100000000 + t.setSecLo.toNat
  if t.setNsec.toNat ≤ 999999999 && sec ≤ 18446744072 then some (sec * sec9 + t.setNsec.toNat) else none

/-- What an APPLY captures; none for a value that is refused with BAD_ARG. (DEDUCED, log 28) -/
def captureApply (slew : Bool) (s : State) : Option TimApply :=
  if slew then
    let o := s.tim.setOfs.toInt
    if o.natAbs ≤ 100000000 then some { slew := true, value := o, rate := s.im.time.slewRate, withDisc := s.tim.discPend.isSome } else none
  else s.tim.staged.map (fun t => { slew := false, value := t, rate := 0, withDisc := s.tim.discPend.isSome })

/-- TIM_CTL.APPLY, judged against the discipline requested in the same write, or the one in force. (DEDUCED, log 28) -/
def applyReq (slew atSecond : Bool) (s : State) : State :=
  let d := s.tim.discPend.getD s.tim.discAct
  if s.tim.pend.isSome then timStat stBusy s
  else if d = discGptp || d = discFabric then timStat stProtected s
  else if d = discPps && (slew || !atSecond) then timStat stBadArg s
  else match captureApply slew s with
    | none => timStat stBadArg s
    | some a => timStat stOk (if atSecond then { s with tim.pend := some a } else { s with tim.now := s.tim.now ++ [a] })

/-- A command of TIM_CTL, with the status that a rejection leaves. -/
def timCmd (src : Source) (f : State → State) : State → State := judgedCmd src timCtl (rowLegal 1) (timStat stNotInState) f

/-- APPLY_STEP (R49). -/
def execApplyStep (src : Source) (atSecond : Bool) (s : State) : Answer := done (timCmd src (applyReq false atSecond) s)

/-- APPLY_SLEW (R52). -/
def execApplySlew (src : Source) (atSecond : Bool) (s : State) : Answer := done (timCmd src (applyReq true atSecond) s)

/-- TIM_CTL.CANCEL (R51). -/
def cancelReq (s : State) : State :=
  if s.tim.pend.isSome then timStat stAborted { s with tim.pend := none } else timStat stBadArg s

/-- TIM_CANCEL (R51). -/
def execTimCancel (src : Source) (s : State) : Answer := done (timCmd src cancelReq s)

/-- A write of a TIM_SET register (R51). -/
def timSet (reg : TimSet) (v : Word) (s : State) : State :=
  if s.tim.pend.isSome then timStat stBusy s
  else match reg with
    | .nsec => { s with tim.setNsec := v.setWidth 30 }
    | .secLo => { s with tim.setSecLo := v }
    | .secHi => { s with tim.setSecHi := v.setWidth 16 }
    | .ofs => { s with tim.setOfs := v }

/-- TIM_SET_WRITE (R51). -/
def execTimSetWrite (src : Source) (reg : TimSet) (value : Word) (s : State) : Answer :=
  done (judged src (timSetAddr reg) (timSet reg value) s)

/-- A whole write of TIM_CTL acts on its fields in the order of R40: CNT_CLR, DISC, CANCEL, APPLY. With CANCEL or APPLY it is
a register command, otherwise a plain write. (DEDUCED, log 28; DESIGN CHOICE, log 78) -/
def timCtlWrite (src : Source) (v : Word) (s : State) : State :=
  let act (s : State) : State :=
    let s := discReq (v.extractLsb' 8 2) (if v.getLsbD 16 then clearBlk .tim s else s)
    let s := if v.getLsbD 4 then cancelReq s else s
    if v.getLsbD 0 then applyReq (v.getLsbD 3) (v.getLsbD 2) s else s
  if v.getLsbD 0 || v.getLsbD 4 then timCmd src act s else judged src timCtl act s

/-! ## Timed effects (R49, R52, R43, R55) -/

/-- Time passes over the next second boundary, at which a pending apply takes effect. -/
def overSecond : Nat → State → State
  | 0, s => s
  | n + 1, s =>
    if s.tim.pend.isSome then overSecond n (advanceStamp ((s.tim.dev / sec9 + 1) * sec9) s) else s

/-- APPLY_AT_SECOND_EFFECT (R49). -/
def execApplyAtSecondEffect (s : State) : Answer := done (overSecond 4 s)

/-- SLEW_END (R52). -/
def execSlewEnd (s : State) : Answer :=
  done (if s.tim.slewRest = 0 || s.tim.slewPpm = 0 then s
    else updates 16 (ceilDiv s.tim.slewRest.natAbs (4 * s.tim.slewPpm * 1000000)) s)

/-- The monotonic instant at which the reference in force counts as silent (R43). (DESIGN CHOICE, log 29) -/
def silentAt (s : State) : Option Nat :=
  let t := s.tim
  if t.discAct = discGptp then some (t.refMono + 375000000)
  else if t.discAct = discPps then
    some (if t.timeclkOk then t.refMono + 2000000000 else min t.refMono t.tclkMono + 2000000000)
  else if t.discAct = discFabric then some (t.refMono + 3 * s.period)
  else none

/-- REFERENCE_SILENCE (R43): a discipline that takes effect on the way has its own reference. -/
def execReferenceSilence (s : State) : Answer :=
  done (if s.tim.holdover then s
    else match silentAt s with
      | some m =>
        let u := advanceTo m s
        if (silentAt u).any (fun k => decide (k ≤ u.mono)) then enterHoldover u else u
      | none => s)

/-- HOLDOVER_LIMIT (R43), where holdover lasts until then. The run of good measurements of R42 is kept. (DESIGN CHOICE, log 95) -/
def execHoldoverLimit (s : State) : Answer :=
  done (if s.tim.holdover && s.tim.locked then
    let u := advanceTo (s.tim.holdMono + s.im.time.holdLim * sec9) s
    if u.tim.holdover then setLocked false u else u
  else s)

/-- PPS_OUT rises as device time reaches the second boundary `g`; after a step on the way, at the next boundary of the new
time, which is the stamp set where that is one (R55). (DESIGN CHOICE, log 30) -/
def ppsPulse : Nat → Nat → State → State
  | 0, _, s => s
  | n + 1, g, s =>
    let u := advanceStamp g s
    if u.tim.steps.length ≠ s.tim.steps.length then ppsPulse n (ceilDiv u.tim.dev sec9 * sec9) u
    else if u.tim.ppsEn && u.tim.locked then { u with pins.ppsOutUntil := u.mono + s.im.time.ppsWidth * 1000000 }.say (.ppsOut g)
    else u

/-- PPS_OUT_PULSE (R55): at the next second boundary, while enabled and locked. -/
def execPpsOutPulse (s : State) : Answer :=
  done (if s.tim.ppsEn && s.tim.locked && s.armedOn && !s.pins.outputsIdle then
    ppsPulse 3 ((s.tim.dev / sec9 + 1) * sec9) s
  else s)

/-! ## PPS_IN and TIMECLK (R44) -/

/-- PPS inputs are heeded. -/
def State.heedsPps (s : State) : Bool := s.armedOn && s.tim.discAct = discPps

/-- The PPS_IN filter setting in ns. -/
def State.filtPps (s : State) : Nat := 10 * s.im.ports.filtPpsIn

/-- Signed distance of a stamp from the second boundary nearest to it. -/
def fromSecond (e : Nat) : Int := if e % sec9 < 500000000 then ((e % sec9 : Nat) : Int) else ((e % sec9 : Nat) : Int) - sec9

/-- An accepted edge with the stamp `e`: the first one steps device time to the second boundary nearest to the edge, later
ones are measured (R44). (DESIGN CHOICE, log 30) -/
def ppsAccepted (e : Nat) (s : State) : State :=
  let o := fromSecond e
  let s := { s with tim.ppsAcc := satInc s.tim.ppsAcc }
  if s.tim.ppsStep then
    let s := { s with tim.ppsStep := false, tim.refMono := s.mono, tim.holdover := false, tim.pTerm := 0 }
    timeStep 2 s.stamp ((e : Int) - o).toNat s
  else measure 2 o sec9 s

/-- PPS_IN_EDGE (R44): the stamp marks the pin's edge (R169). -/
def execPpsInEdge (s : State) : Answer :=
  done (if s.heedsPps then
    let e := s.stamp - s.filtPps
    if s.tim.locked && s.im.time.ppsWin * 1000 < (fromSecond e).natAbs then { s with tim.ppsRej := satInc s.tim.ppsRej }
    else ppsAccepted e s
  else s)

/-- TIMECLK_PRESENT (R44). -/
def execTimeclkPresent (present : Bool) (s : State) : Answer :=
  done (if s.heedsPps then
    { s with tim.tclkMono := if s.tim.timeclkOk && !present then s.mono else s.tim.tclkMono, tim.timeclkOk := present }
  else s)

end Sys2Proof.Machine
end

