-- ==== Sys2Proof/Machine/Operands.lean ====
section
/-! DEFINITION. What a write of a register does: the command or the fields that stand at its address, for every block of R13.
A command row of the table and a write of its register share one operation. -/
namespace Sys2Proof.Machine

/-! ## Plain writes of live blocks -/

/-- CNT_CLR, where its bit is written with 1. -/
def cntIf (b : Bool) (k : CntBlk) (s : State) : State := if b then clearBlk k s else s

/-- DESIGN CHOICE, log 78. -/
def tckWrite (o : Nat) (v : Word) (s : State) : State :=
  match o with
  | 0x00 => srcJudge (v.extractLsb' 0 2) (cntIf (v.getLsbD 8) .tck s)
  | 0x44 => { s with tck.intEn := v.setWidth 4 }
  | _ => s

def pwrWrite (o : Nat) (v : Word) (s : State) : State :=
  match o with
  | 0x00 => { cntIf (v.getLsbD 0) .pwr s with pwr.intEn := v.getLsbD 1 }
  | 0x04 => budgetWrite (v.setWidth 16) s
  | 0x40 => { s with pwr.fabAddr := v.setWidth 10 }
  | 0x44 => fabBudgetWrite (v.setWidth 16) s
  | _ => s

def fltWrite (o : Nat) (v : Word) (s : State) : State :=
  match o with
  | 0x00 => { cntIf (v.getLsbD 0) .flt s with flt.intEn := v.getLsbD 1 }
  | 0x80 => recSelWrite (v.setWidth 6) s
  | 0xC0 => { s with flt.mapSel := v.setWidth 8 }
  | _ => s

def arcWrite (o : Nat) (v : Word) (s : State) : State :=
  match o with
  | 0x068 => { s with arc.doneIntEn := v.getLsbD 0 }
  | 0x100 => { s with arc.winPage := v.setWidth 3 }
  | 0x108 => eccWarnWrite (v.setWidth 2) s
  | 0x10C => { s with arc.eccWarned := s.arc.eccWarned && !v.getLsbD 4, arc.eccUncorr := s.arc.eccUncorr && !v.getLsbD 5 }
  | 0x128 => { cntIf (v.getLsbD 0) .arc s with arc.warnIntEn := v.getLsbD 1 }
  | _ => s

/-- The fields of INC_CTL but TRIGGER, and of LDG_CTL but APPEND. (DESIGN CHOICE, log 78) -/
def incCtl (v : Word) (s : State) : State := { cntIf (v.getLsbD 1) .inc s with inc.intEn := v.getLsbD 2 }
/-- DESIGN CHOICE, log 78. -/
def ldgCtl (v : Word) (s : State) : State := { cntIf (v.getLsbD 1) .ldg s with ldg.intEn := v.getLsbD 2 }

def ldgRegWrite (o : Nat) (v : Word) (s : State) : State :=
  match o with
  | 0x00 => ldgCtl v s
  | 0x0C => { s with ldg.bnd := (s.ldg.bnd &&& 0xFFFFFFFF00000000) ||| v.setWidth 64 }
  | 0x10 => { s with ldg.bnd := (s.ldg.bnd &&& 0xFFFFFFFF) ||| (v.setWidth 64 <<< 32) }
  | _ => s

def cvtWrite (o : Nat) (v : Word) (s : State) : State :=
  match o with
  | 0x00 => cntIf (v.getLsbD 0) .cvt s
  | 0x10 => { s with cvt.testCfg := v.setWidth 16 }
  | 0x14 => testConvert v s
  | _ =>
    if 0x40 ≤ o && o < 0x140 && o % 16 = 4 then
      { s with cvt.ctx := tmod s.cvt.ctx ((o - 0x40) / 16) (fun (c : CvtCtx) => { c with flags := c.flags &&& ~~~(v.setWidth 5) }) }
    else s

def alnWrite (o : Nat) (v : Word) (s : State) : State :=
  match o with
  | 0x00 => cntIf (v.getLsbD 0) .aln s
  | 0x0C => { s with aln.maskAcc := s.aln.maskAcc &&& ~~~v }
  | _ => s

def egoWrite (o : Nat) (v : Word) (s : State) : State :=
  match o with
  | 0x00 => cntIf (v.getLsbD 0) .ego s
  | 0x40 => histSelWrite (v.setWidth 9) s
  | _ => s

def schWrite (o : Nat) (v : Word) (s : State) : State :=
  match o with
  | 0x00 => { cntIf (v.getLsbD 0) .sch s with sch.intEn := v.getLsbD 1 }
  | 0x20 => peekWrite (v.setWidth 13) (v.getLsbD 13) s
  | _ => if 0x1000 ≤ o && o % 32 = 0x0C then tailWrite ((o - 0x1000) / 32) (v.setWidth 13) s else s

def gpioWrite (o : Nat) (v : Word) (s : State) : State :=
  match o with
  | 0x0C => { s with gpio.out := v.setWidth 16 }
  | 0x14 => { s with gpio.edge := s.gpio.edge &&& ~~~v }
  | _ => s

def fabWrite (o : Nat) (v : Word) (s : State) : State :=
  match o with
  | 0x000 => { cntIf (v.getLsbD 0) .fab s with fab.intEn := v.getLsbD 1 }
  | 0x080 => routeSelWrite (v.setWidth 12) s
  | 0x240 => memberSelWrite (v.setWidth 10) s
  | _ => s

/-- A write of the fields at an offset `o` of a live block in a state that permits it. -/
def plainWrite (row a : Nat) (v : Word) (s : State) : State :=
  let o := a % 4096
  match row with
  | 1 => if o = 0x3C then { s with tim.ppsEn := v.getLsbD 0 } else if o = 0x5C then { s with tim.intEn := v.getLsbD 0 } else s
  | 2 => tckWrite o v s
  | 3 => if o = 0x0C then { s with img.intEn := v.getLsbD 1 } else s
  | 4 => pwrWrite o v s
  | 5 => if o = 0x18 then cntIf (v.getLsbD 0) .clk s else s
  | 6 => fltWrite o v s
  | 7 => if o = 0 then { cntIf (v.getLsbD 0) .tst s with tst.intEn := v.getLsbD 1 } else s
  | 8 => arcWrite o v s
  | 9 => if o = 0 then { cntIf (v.getLsbD 0) .crd s with crd.intEn := v.getLsbD 1 } else s
  | 10 => if o = 0 then incCtl v s else s
  | 11 => ldgRegWrite o v s
  | 12 => cvtWrite o v s
  | 13 => alnWrite (a - 0x10000) v s
  | 14 => egoWrite (a - 0x14000) v s
  | 15 => if a = 0x18000 then cntIf (v.getLsbD 0) .grd s else s
  | 16 => if a = 0x1C000 then cntIf (v.getLsbD 0) .out s else s
  | 17 => schWrite (a - 0x20000) v s
  | 18 => if o = 0 then cntIf (v.getLsbD 8) (.cam ((a - 0x30000) / 4096)) s else s
  | 19 => if o = 0 then cntIf (v.getLsbD 8) (.eth ((a - 0x38000) / 4096)) s else s
  | 20 => if a % 2048 = 0 then cntIf (v.getLsbD 8) (.can ((a - 0x3C000) / 2048)) s else s
  | 21 => if a % 256 = 0 && a < 0x3D200 then cntIf (v.getLsbD 16) (.spi ((a - 0x3D000) / 256)) s else s
  | 22 => gpioWrite o v s
  | 23 => fabWrite o v s
  | 24 => hstWrite (a - 0x50000) v s
  | 25 =>
    let n := (a - 0x100000) / 0x4000
    if a % 0x4000 = 0x20 then s.setCore n { s.core n with memAddr := v.extractLsb' 2 19 } else s
  | _ => s

/-! ## A register write -/

/-- The register that a TIM_SET address names. -/
def timSetAt (a : Nat) : Option TimSet :=
  if a = 0x1024 then some .nsec else if a = 0x1028 then some .secLo else if a = 0x102C then some .secHi else if a = 0x1030 then some .ofs else none

/-- The register of a command sequence that an address names. -/
def arcRegAt (a : Nat) : Option ArcReg :=
  if a = 0x8004 then some .cmd else if a = 0x8008 then some .addr
  else if 0x800C ≤ a && a ≤ 0x8028 && a % 4 = 0 then some (.data ((a - 0x800C) / 4)) else none

/-- The register commands: a write that asks for one is judged as it (R59). None where the write is a plain one. (DESIGN CHOICE, log 78) -/
def cmdWrite (src : Source) (a : Nat) (v : Word) : Option (State → State) :=
  match a with
  | 0x0020 => some (gctlByCode src (v.setWidth 8) (v.extractLsb' 8 8))
  | 0x1000 => some (timCtlWrite src v)
  | 0x3000 => some (judgedCmd src a Mode.fromArmed (imgStat stNotInState) (stage (if v.getLsbD 0 then .b else .a)))
  | 0x3004 => if v.getLsbD 0 then some (judgedCmd src a Mode.fromArmed (imgStat stNotInState) verify) else none
  | 0x3008 => if v.getLsbD 0 then some (judgedCmd src a Mode.ticks (imgStat stNotInState) (commitReq (v.getLsbD 1))) else none
  | 0x300C =>
    if v.getLsbD 0 then
      some (judgedCmd src a (rowLegal 3) (imgStat stNotInState) (fun s => imgCancel { s with img.intEn := v.getLsbD 1 }))
    else none
  | 0x6008 => some (judgedCmd src a Mode.fromArmed (fltStat stNotInState) (fltClrWrite v))
  | 0xA000 =>
    if v.getLsbD 0 then
      some (judgedCmd src a trigLegal (fun s => { s with inc.hostStat := stNotInState }) (fun s => hostTrigger (incCtl v s)))
    else none
  | 0xB000 =>
    if v.getLsbD 0 then
      some (judgedCmd src a Mode.fromArmed (fun s => { s with ldg.appendStat := stNotInState }) (fun s => doAppend (ldgCtl v s)))
    else none
  | 0x50200 =>
    if v.getLsbD 0 || v.getLsbD 1 then some (judgedCmd src a Mode.fromArmed (mbxStat stNotInState) (mbxCtlWrite v)) else none
  | _ =>
    match timSetAt a, arcRegAt a with
    | some r, _ => some (judged src a (timSet r v))
    | none, some r => some (arcJudged src a (seqWrite src r v))
    | none, none => if a = 0x8000 then some (arcJudged src a (keyWrite src (v.setWidth 8))) else none

/-- A 32-bit register write at an offset of BAR0 (R9 to R13, R59, R61, R414). (DESIGN CHOICE, log 78) -/
def regWrite (src : Source) (a : Nat) (v : Word) (s : State) : State :=
  if a % 4 ≠ 0 || !s.hears src then s
  else match cmdWrite src a v with
    | some f => f s
    | none =>
      match blockOf a with
      | none | some 0 => s
      | some row => judged src a (plainWrite row a v) s

end Sys2Proof.Machine
end

