-- ==== Sys2Proof/Machine/Host.lean ====
section
/-! DEFINITION. Register accesses without a row of their own, the grid window, MSI-X, rings, resets of the endpoint and
configuration requests (00_scope.md, 21_host_access.md). -/
namespace Sys2Proof.Machine

/-! ## Register accesses (R9 to R13, R46, R59, R389, R390) -/

/-- REGISTER_WRITE (R59): a write of another width than 32 bits has no effect (R9). -/
def execRegisterWrite (src : Source) (addr : Nat) (value : Word) (whole : Bool) (s : State) : Answer :=
  done (if whole then regWrite src addr value s else s)

/-- A register read, with its data to the source; one of another width than 32 bits has no effect and returns a refusal (R9). -/
def readOut (src : Source) (a : Nat) (whole : Bool) (s : State) : State :=
  if !s.hears src then s
  else if !whole then s.say (.read src a (refusal stBadArg))
  else
    let r := regRead src a s
    r.1.say (.read src a r.2)

/-- SNAPSHOT_READ (R46, R390). -/
def execSnapshotRead (src : Source) (place : Access) (s : State) : Answer := done (readOut src place.addr place.whole s)

/-- UNMAPPED_READ (R389). -/
def execUnmappedRead (src : Source) (place : Access) (s : State) : Answer :=
  done (if (blockOf place.addr).isNone then readOut src place.addr place.whole s else s)

/-- GRID_WINDOW_WRITE (R392); one that is not of a whole aligned word has no effect (R9). (DEDUCED, log 93) -/
def execGridWindowWrite (src : Source) (place : Access) (value : Word) (s : State) : Answer :=
  done (if s.hears src && place.whole && decide (place.addr % 4 = 0) then gridWinWrite place.addr value s else s)

/-! ## MSI-X and rings (R394 to R397) -/

/-- The device has a PCIe endpoint that answers (R11, R61). -/
def State.hasPcie (s : State) : Bool := !s.otp.cardForm && s.mode.answers

/-- MSIX_UNMASK (R394). -/
def execMsixUnmask (what : Unmask) (s : State) : Answer :=
  done (match what with
    | .vector v => judged .pcie (0x5800C + 16 * v) (fun s => msixSend v { s with hst.msix := tmod s.hst.msix v (fun (e : MsixEntry) => { e with masked := false }) }) s
    | .busMaster => if s.hasPcie && s.mode ≠ .selftest then setBme true s else s)

/-- Address of a channel's ring register at offset `o`. -/
def ringAddr (c : Channel) (o : Nat) : Nat := 0x50100 + 0x40 * chanNum c + o

/-- RING_ENABLE (R395). -/
def execRingEnable (src : Source) (chan : Channel) (s : State) : Answer := done (judged src (ringAddr chan 0x10) (ringEnable chan) s)

/-- RING_DISABLE (R397). -/
def execRingDisable (src : Source) (chan : Channel) (s : State) : Answer := done (judged src (ringAddr chan 0x10) (ringDisable chan) s)

/-- RING_HEAD_WRITE (R396). -/
def execRingHeadWrite (src : Source) (chan : Channel) (value : BitVec 10) (s : State) : Answer :=
  done (judged src (ringAddr chan 0x14) (ringHead chan value) s)

/-- RING_WRITEBACK (R396). -/
def execRingWriteback (chan : Channel) (s : State) : Answer := done (ringWriteback chan s)

/-! ## Resets of the endpoint and configuration requests (R70, R386, R391, R403) -/

/-- The link is lost by the reset. (DESIGN CHOICE, log 67) -/
def resetDropsLink : PcieReset → Bool
  | .linkDown | .perst => true
  | _ => false

/-- The HST block alone is reset (R391): FLR_CNT goes on, and the mailbox state of PCIe is discarded. (DESIGN CHOICE, log 80) -/
def endpointReset (drops : Bool) (s : State) : State :=
  let h : Hst := {}
  { s with
    hst := { h with
      linkUp := s.hst.linkUp && !drops, speed := if drops then 0 else s.hst.speed, width := if drops then 0 else s.hst.width
      cnt := tset h.cnt 2 (satInc (tget s.hst.cnt 2)) }
    mbx := { s.mbx with
      reqs := s.mbx.reqs.filter (fun r => r.src ≠ .pcie), outPcie := []
      current := match s.mbx.current with | some r => if r.src = .pcie then none else some r | none => none } }

/-- PCIE_RESET (R391, R403). -/
def execPcieReset (kind : PcieReset) (s : State) : Answer := done (if s.hasPcie then endpointReset (resetDropsLink kind) s else s)

/-- PCIE_LINK_UP (R403). -/
def execPcieLinkUp (speed width : Nat) (s : State) : Answer :=
  done (if s.hasPcie then { s with hst.linkUp := true, hst.speed := BitVec.ofNat 3 speed, hst.width := BitVec.ofNat 3 width } else s)

/-- A doubleword of configuration space: identity, Bus Master Enable and class code are stated (R386), the rest is left open. (DESIGN CHOICE, log 80) -/
def configWord (dw : Nat) (s : State) : Word :=
  let f := Config.freeWord s.freeCtr
  if dw = 0 then BitVec.ofNat 32 ((0x4F30 + s.otp.variant.toNat) * 65536 + 0x1F4C)
  else if dw = 1 then (f &&& ~~~(4 : Word)) ||| (if s.hst.bme then 4 else 0)
  else if dw = 2 then 0x12000000 ||| (f &&& 0xFF)
  else f

/-- CONFIGURATION_REQUEST (R70). -/
def execConfigurationRequest (req : CfgReq) (s : State) : Answer :=
  done (if !s.hasPcie then s
  else if s.mode = .selftest then s.say (.config none)
  else match req with
    | .read dw => s.drawn.say (.config (some (configWord dw s)))
    | .busMaster on => (setBme on s).say (.config (some 0)))

end Sys2Proof.Machine
end

