-- ==== Sys2Proof/Machine/Mailbox.lean ====
section
/-! DEFINITION. The mailbox: PUT and GET over PCIe, the controller taking a request, and the messages of R399
(21_host_access.md). -/
namespace Sys2Proof.Machine

/-- MBX_PUT (R398). -/
def execMbxPut (src : Source) (s : State) : Answer := done (judgedCmd src 0x50200 Mode.fromArmed (mbxStat stNotInState) mbxPut s)

/-- MBX_GET (R398). -/
def execMbxGet (src : Source) (s : State) : Answer := done (judgedCmd src 0x50200 Mode.fromArmed (mbxStat stNotInState) mbxGet s)

/-! ## Taking a request (R399) -/

/-- A payload's length fits its TYPE; none for an unknown TYPE. (DESIGN CHOICE, log 82) -/
def mbxLenOk (m : MbxMsg) : Bool :=
  let n := m.payload.length
  if m.type = 0x10 then 36 ≤ n && n ≤ 4068 && (n - 4) % 32 = 0
  else if m.type = 0x11 || m.type = 0x20 || m.type = 0x22 || m.type = 0x31 || m.type = 0x40 then n = 4
  else if m.type = 0x21 then n = 12
  else m.type = 0x30 && n = 8

/-- The first request whose source's reply queue has room. (DESIGN CHOICE, log 82) -/
def State.nextReq (s : State) : Option MbxReq := s.mbx.reqs.find? (fun r => (s.replies r.src).length < 4)

/-- The controller takes the next request: an unknown TYPE or a payload of the wrong length is answered BAD_ARG at once. (DESIGN CHOICE, log 82) -/
def takeReq (s : State) : State :=
  match s.mbx.current, s.nextReq with
  | none, some r =>
    let s := { s with mbx.current := some r, mbx.reqs := s.mbx.reqs.erase r }
    if !s.mode.fromArmed then rejectFrame .mailbox r.msg.type (answerMbx stNotInState [] s)
    else if mbxLenOk r.msg then s else answerMbx stBadArg [] s
  | _, _ => s

/-- MAILBOX_TAKE (R399). -/
def execMailboxTake (s : State) : Answer := done (if s.mode.answers then takeReq s else s)

/-- The request in execution, where it has the type of the row's message. -/
def withReq (type : Byte) (f : MbxReq → State → State) (s : State) : Answer :=
  done (match s.mbx.current with
    | some r => if r.msg.type = type && s.mode.fromArmed then f r s else s
    | none => s)

/-! ## Staging (R399, R235, R237) -/

/-- Programs code words as host programs until one fails: words programmed, and the status of the first that fails. -/
def stageWords : List (List Byte) → Nat → Nat → State → State × Nat × Byte
  | [], _, n, s => (s, n, stOk)
  | w :: ws, a, n, s =>
    let s := arcJudge .mailbox 0x10 a (wordsOf w) s
    if s.arc.stat = stOk && s.arc.prog.isSome then stageWords ws (a + 32) (n + 1) (progEnds s) else (s, n, s.arc.stat)

/-- The address of STAGE_PROGRAM and its words. (DESIGN CHOICE, log 82) -/
def stageProgram (r : MbxReq) (s : State) : State :=
  let p := r.msg.payload
  let x := stageWords (chunk32 (p.length / 32) (p.drop 4)) (at32 p 0) 0 s
  answerMbx stOk (leBytes 4 x.2.1 ++ leBytes 4 x.2.2.toNat) x.1

/-- STAGE_PROGRAM (R399). -/
def execStageProgram (s : State) : Answer := withReq 0x10 stageProgram s

/-- The erase of a request has begun and has not ended. -/
def State.erasingFor (s : State) (r : MbxReq) : Bool :=
  match s.arc.erase with | some e => e.owner = .mailbox r.src r.msg.tag | none => false

/-- The erase of STAGE_ERASE belongs to its request, which is answered when it ends. (DESIGN CHOICE, log 82) -/
def stageErase (r : MbxReq) (s : State) : State :=
  let a := at32 r.msg.payload 0
  let code : Byte := match sectorOf a with | some (_, i) => if i < 8 then 0x21 else 0x20 | none => 0x20
  if s.erasingFor r then s
  else
    let t := arcJudge .mailbox code a [] s
    match t.arc.erase with
    | some e => if t.arc.stat = stOk then { t with arc.erase := some { e with owner := .mailbox r.src r.msg.tag } } else answerMbx t.arc.stat [] t
    | none => answerMbx t.arc.stat [] t

/-- STAGE_ERASE (R399). -/
def execStageErase (s : State) : Answer := withReq 0x11 stageErase s

/-! ## Export of records and entries -/

/-- POSITIONS and the CLOSE cause of a record: from its CLOSE word, or for the record that is open, from the vitrine. (DESIGN CHOICE, log 83) -/
def recClose (s : State) (f : FoundRec) : Nat × Byte :=
  match decide (f.isSealed), s.arc.classOf (recWord s.incArea f.first 25) with
  | true, .programmed c _ => (at16 c 6, BitVec.ofNat 8 (at8 c 4))
  | _, _ => (if s.inc.record.isSome && s.inc.recSeq.toNat = f.seq then s.inc.positions else 0, Config.freeByte s.freeCtr)

/-- An entry of INC_LIST. (DESIGN CHOICE, log 83) -/
def listEntry (s : State) (f : FoundRec) : List Byte :=
  let c := recClose s f
  leBytes 4 f.seq ++ leBytes 2 f.first ++ leBytes 2 c.1 ++ [c.2, BitVec.ofNat 8 (b2n f.isSealed + 2 * b2n f.exported), 0, 0] ++ leBytes 4 (f.tick0 % 2 ^ 32)

/-- INC_LIST: records from REC_SEQ on, in ascending order. -/
def incList (r : MbxReq) (s : State) : State :=
  let l := ((recordsIn s.arc s.incArea).filter (fun f => at32 r.msg.payload 0 ≤ f.seq)).mergeSort (fun a b => a.seq ≤ b.seq)
  answerMbx stOk ((l.take 255).flatMap (listEntry s)) s.drawn

/-- INC_LIST (R399): the controller scans the area. -/
def execIncList (s : State) : Answer := withReq 0x20 (fun r s => incList r (scanArea s)) s

/-- Addresses of the 64-byte lines of a record that a range of its bytes touches. -/
def recordLines (s : State) (f : FoundRec) (ofs len : Nat) : List Nat :=
  if len = 0 then [] else (List.range ((ofs + len - 1) / 64 + 1 - ofs / 64)).map (fun k => recAddr s.incArea f.first (64 * (ofs / 64 + k)))

/-- Bytes of a record as stored, over one channel S stream (R223), and whether one of its code words is UNCORRECTABLE (R226). -/
def recordBytes (f : FoundRec) (ofs len : Nat) (s : State) : State × List Byte × Bool :=
  let lines := recordLines s f ofs len
  let words := lines.flatMap (fun l => [l, l + 32])
  let u := streamCount (decide (s.incArea.bank = 1)) lines.length s
  (eccLines (lines.filter (fun l => !(s.arc.errLines l 64).isEmpty)) u, (words.flatMap (fun a => (s.arc.classOf a).data)).drop (ofs % 64) |>.take len,
    words.any (fun a => s.arc.classOf a = .uncorrectable))

/-- INC_EXPORT; a burst that carries CRC_ERROR (R226) ends it with that status. (DESIGN CHOICE, log 83) -/
def incExport (r : MbxReq) (s : State) : State :=
  let ofs := at32 r.msg.payload 4
  let len := at32 r.msg.payload 8
  match (recordsIn s.arc s.incArea).find? (fun f => f.seq = at32 r.msg.payload 0) with
  | none => answerMbx stNotPresent [] s
  | some f =>
    if 4064 < len || len % 4 ≠ 0 || s.incSec.recSectors * 0x40000 < ofs + len then answerMbx stBadArg [] s
    else
      let x := recordBytes f ofs len s
      if x.2.2 then answerMbx stCrcError [] x.1 else answerMbx stOk x.2.1 x.1

/-- INC_EXPORT (R399). -/
def execIncExport (ecc : EccView) (s : State) : Answer := withReq 0x21 (fun r s => incExport r (scanArea s)) (s.showing ecc)

/-- INC_ACK (R281). -/
def execIncAck (s : State) : Answer :=
  withReq 0x22 (fun r s => let x := ackRecord (at32 r.msg.payload 0) s; answerMbx x.2 [] x.1) s

/-- The words of an entry as stored. -/
def storedEntry (f : FoundEntry) : List Byte := f.data ++ digestBytes f.mac

/-- Whole entries, as many as fit in `room` bytes. -/
def fitEntries : List FoundEntry → Nat → List Byte
  | [], _ => []
  | f :: fs, room => if 32 * f.words ≤ room then storedEntry f ++ fitEntries fs (room - 32 * f.words) else []

/-- Entries of consecutive SEQ from `q` on, of a list in ascending SEQ. -/
def runFrom : Nat → List FoundEntry → List FoundEntry
  | _, [] => []
  | q, f :: fs => if f.seq = q then f :: runFrom (q + 1) fs else runFrom q fs

/-- LDG_EXPORT: the MAC before the first entry, then whole entries; where an UNCORRECTABLE word stands in the place of an entry that is to be
read, the status is CRC_ERROR (R226). (DESIGN CHOICE, log 83) -/
def ldgExport (r : MbxReq) (s : State) : State :=
  let bad := s.arc.uncorrIn ledgerBase 0x10000
  let s := streamS ledgerBase 0x10000 s
  let first := at32 r.msg.payload 0
  let wanted := min (at32 r.msg.payload 4) (s.ldg.seq.toNat + 1 - first)
  let run := (runFrom first ((foundEntries s.otp.deviceKey s.arc).mergeSort (fun a b => a.seq ≤ b.seq))).take (at32 r.msg.payload 4)
  let data := fitEntries run 4056
  let lost := bad && run.length < wanted && data = run.flatMap storedEntry
  match run.head? with
  | none => answerMbx (if bad && 1 ≤ first && first ≤ s.ldg.seq.toNat then stCrcError else stNotPresent) [] s
  | some f => if lost then answerMbx stCrcError [] s else answerMbx stOk (digestBytes f.last ++ data) s

/-- LDG_EXPORT (R399). -/
def execLdgExport (s : State) : Answer := withReq 0x30 ldgExport s

/-- LDG_ACK (R294). -/
def execLdgAck (s : State) : Answer :=
  withReq 0x31 (fun r s => let x := ldgAck (at32 r.msg.payload 0) s; answerMbx x.2 [] x.1) s

/-- FLOOR_RAISE (R79): up to the SEC_VER of the running image; the floor never falls. (DESIGN CHOICE, log 84) -/
def floorRaise (r : MbxReq) (s : State) : State :=
  let v := at32 r.msg.payload 0 % 65536
  if s.img.run.isSome && v ≤ s.im.hdr.secVer then
    answerMbx stOk [] { s with otp.floor := if s.otp.floor.toNat < v then BitVec.ofNat 16 v else s.otp.floor }
  else answerMbx stBadArg [] s

/-- FLOOR_RAISE (R79). -/
def execFloorRaise (s : State) : Answer := withReq 0x40 floorRaise s

end Sys2Proof.Machine
end

