-- ==== Sys2Proof/Machine/Card.lean ====
section
/-! DEFINITION. The card link, sudden removal and orderly ejection (13_card_and_removal.md). -/
namespace Sys2Proof.Machine

/-! ## Removal (R255, R268, R269) -/

/-- Steps 1 to 3 of R268: computing stops, the interfaces go idle, the word in progress ends, an erase is abandoned. (DEDUCED, log 68) -/
def removalStart (s : State) : State :=
  let s := abandonErase (finishWord s)
  let s := idlePorts (enter .removal { s with arc := { s.arc with seq := none } })
  { idleFabric s with
    hst.ringA.busy := false, hst.ringB.busy := false
    sch.tokens := [], sch.ready := [], tst.phase := .idle, tst.slice := none, crd.linkUp := false, crd.lanes := 0, crd.queue := []
    pins.outputsIdle := true, pins.tickOutUntil := 0, pins.ppsOutUntil := 0 }

/-- CARD_PRES_LOSS (R255, R268). -/
def execCardPresLoss (s : State) : Answer :=
  done (if s.mode = .off || s.mode = .removal then s else removalStart { s with pins.cardPresent := false })

/-- Steps 4 to 6 of R268: the open record is sealed, the turnstile writes its closing entry, the pumps are switched off. A
pin reset that waited is taken then (R58). (DEDUCED, log 68) -/
def removalSeal (s : State) : State :=
  let s := { ldgCheckpoint true (sealNow 1 s) with pins.quiescent := true }
  if s.pins.resetWaits then resetTo rstPin { s with pins.resetWaits := false } else s

/-- REMOVAL_SEAL (R268). -/
def execRemovalSeal (s : State) : Answer := done (if s.mode = .removal && !s.pins.quiescent then removalSeal s else s)

/-! ## Responses (R258) -/

/-- Vector 14. -/
def crdVec (s : State) : State := msix 14 s.crd.intEn s
def crdCount (i : Nat) (s : State) : State := { s with crd.cnt := tinc s.crd.cnt i }

/-- The bytes of a frame (R258): an 8-byte header whose last word is ADDRESS or the STATUS word, the payload, the CRC-32. -/
def cardBytes (cmd tag : Byte) (length : Nat) (word : Word) (payload : List Byte) : List Byte :=
  [cmd, tag] ++ leBytes 2 length ++ leBytes 4 word.toNat ++ payload

/-- A frame with its trailer. -/
def sealedFrame (body : List Byte) : List Byte := body ++ leBytes 4 (crc32 body).toNat

/-- The bytes of a response (R258). -/
def responseBytes (cmd tag st code : Byte) (aux : BitVec 16) (payload : List Byte) : List Byte :=
  sealedFrame (cardBytes (cmd ||| 0x80) tag payload.length (pack [(0, 8, st.toNat), (8, 4, code.toNat), (16, 16, aux.toNat)]) payload)

/-- A response is sent while the link is up. -/
def cardSend (cmd tag st code : Byte) (aux : BitVec 16) (payload : List Byte) (s : State) : State :=
  if !s.crd.linkUp then s
  else
    let s := if st = stBusy then crdCount 5 s else s
    { crdCount 1 s with crd.lastTag := tag, crd.lastStat := st }.say (.cardResponse (responseBytes cmd tag st code aux payload))

/-- The state code now, and the AUX of a BUSY: the expected time to ARMED (R71). -/
def State.codeNow (s : State) : Byte := s.mode.code.setWidth 8
def State.auxOf (s : State) (st : Byte) : BitVec 16 := if st = stBusy then s.expectMs else 0

/-- A request that is answered on decoding. (DESIGN CHOICE, log 64) -/
def cardReply (cmd tag st : Byte) (s : State) : State := cardSend cmd tag st s.codeNow (s.auxOf st) [] s

/-! ## Decoding (R59, R61, R259, R260, R267) -/

/-- The command codes of R261. -/
def cardCodes : List Byte := [0x01, 0x02, 0x10, 0x11, 0x20, 0x21, 0x30, 0x40, 0x41, 0x50, 0x5F]

/-- The status that a request is answered with unexecuted, judged at its decoding (R61, R270). (DESIGN CHOICE, log 64) -/
def cardVerdict (cmd : Byte) (s : State) : Option Byte :=
  if cmd = 0x50 && !s.otp.cardForm then some stNotPresent
  else if s.crd.ejState = 2 && !([0x01, 0x02, 0x10].contains cmd) then some stBusy
  else if [0x01, 0x02, 0x10, 0x11].contains cmd then none
  else if !s.mode.fromArmed then some stBusy
  else if cmd = 0x30 && !(s.mode.computes || s.mode = .safe) then some stNotInState
  else none

/-- ABORT (R267): whether the oldest request has begun to execute when it comes is left open; a later one has not. (DESIGN CHOICE, log 65) -/
def abortReq (tag : Byte) (address : Word) (payload : List Byte) (s : State) : State :=
  let target := address.setWidth 8
  if !payload.isEmpty || 256 ≤ address.toNat then cardReply 0x5F tag stBadArg s
  else match s.crd.queue.find? (fun r => r.tag = target), s.crd.queue with
    | none, _ => cardReply 0x5F tag stBadArg s
    | some r, q =>
      let first := match q with | h :: _ => decide (h.tag = target) | [] => false
      let begun := first && (r.begun || Config.freeNat s.freeCtr % 2 = 1)
      let s := s.drawn
      if begun then
        cardReply 0x5F tag stBusy { s with crd.queue := q.map (fun x => if x.tag = target then { x with begun := true } else x) }
      else
        let s := cardReply 0x5F tag stOk (crdCount 6 { s with crd.queue := q.filter (fun x => x.tag ≠ target) })
        cardSend r.cmd r.tag stAborted r.code 0 [] s

/-- The bytes of a request that its CRC-32 covers. -/
def frameBody (f : CardFrame) : List Byte := cardBytes f.cmd f.tag f.length f.address f.payload

/-- The payload ends where LENGTH says, and the trailer is the CRC-32 of header and payload (R259). -/
def frameWhole (f : CardFrame) : Bool := decide (f.payload.length = f.length) && f.crc = crc32 (frameBody f)

/-- A whole request arrives. (DESIGN CHOICE, log 64) -/
def cardDecode (f : CardFrame) (s : State) : State :=
  let s := crdCount 0 s
  if 4096 < f.length || f.length % 4 ≠ 0 then cardReply f.cmd f.tag stBadArg (crdVec (crdCount 4 s))
  else if !frameWhole f then cardReply f.cmd f.tag stCrcError (crdVec (crdCount 2 s))
  else if !cardCodes.contains f.cmd then cardReply f.cmd f.tag stBadArg (crdVec (crdCount 4 s))
  else if s.crd.queue.any (fun r => r.tag = f.tag) then cardReply f.cmd f.tag stBadArg (crdCount 4 s)
  else if f.cmd = 0x5F then abortReq f.tag f.address f.payload s
  else if 8 ≤ s.crd.queue.length then cardReply f.cmd f.tag stBusy s
  else
    let v := cardVerdict f.cmd s
    let s := if v = some stNotInState then rejectFrame .card f.cmd s else s
    { s with crd.queue := s.crd.queue ++
        [{ cmd := f.cmd, tag := f.tag, address := f.address, payload := f.payload, code := s.codeNow
           aux := match v with | some st => s.auxOf st | none => 0, verdict := v }] }

/-- The link carries requests: it is up, and the device answers. -/
def State.cardOn (s : State) : Bool := s.crd.linkUp && s.mode.answers

/-- CARD_REQUEST (R258, R260). -/
def execCardRequest (frame : CardFrame) (s : State) : Answer := done (if s.cardOn then cardDecode frame s else s)

/-- A frame that carries a command whole. -/
def frameOf (cmd tag : Byte) (address : Word) (payload : List Byte) : CardFrame :=
  { cmd := cmd, tag := tag, length := payload.length, address := address, payload := payload
    crc := crc32 (cardBytes cmd tag payload.length address payload) }

/-- ABORT (R267). -/
def execAbort (tag target : Byte) (s : State) : Answer :=
  done (if s.cardOn then cardDecode (frameOf 0x5F tag (target.setWidth 32) []) s else s)

/-- A damaged or malformed request (R259). (DESIGN CHOICE, log 64) -/
def cardBad (kind : BadFrame) (cmd tag : Byte) (symErrs : Nat) (s : State) : State :=
  let s := crdVec (crdCount 0 s)
  match kind with
  | .crc | .misplacedEnd => cardReply cmd tag stCrcError (crdCount 2 s)
  | .symbol => cardReply cmd tag stCrcError (crdCount 2 { s with crd.cnt := tmod s.crd.cnt 3 (fun (c : Word) => satAdd c symErrs) })
  | .length | .unknown => cardReply cmd tag stBadArg (crdCount 4 s)

/-- CARD_BAD_FRAME (R259). -/
def execCardBadFrame (kind : BadFrame) (cmd tag : Byte) (symErrs : Nat) (s : State) : Answer :=
  done (if s.cardOn then cardBad kind cmd tag symErrs s else s)

/-! ## Execution (R261 to R266, R270) -/

/-- What an execution answers: status, AUX, payload. -/
abbrev CardAns := State × Byte × BitVec 16 × List Byte

def cardBadArg (s : State) : CardAns := (s, stBadArg, 0, [])

/-- COUNT of a read command; none where the payload or the count is not of the command's range. (DESIGN CHOICE, log 66) -/
def cardCount (r : CardReq) (lo hi : Nat) : Option Nat :=
  let w := at32 r.payload 0
  if r.payload.length = 4 && lo ≤ w && w ≤ hi && w % 4 = 0 then some w else none

/-- IDENT (R262). (DESIGN CHOICE, log 66) -/
def cardIdent (s : State) : CardAns :=
  (s, stOk, 0, bytesOf [gctlWord 0 s, lo32 s.otp.serial, hi32 s.otp.serial, 0x10000001, 8, imgWord 0x14 s, s.arc.selSeq, s.gctl.loadStat.setWidth 32])

/-- STATUS (R262). -/
def cardStatus (s : State) : CardAns := (s, stOk, 0, bytesOf [gctlWord 4 s, gctlWord 8 s, lo32 s.tck.index, crdStat s])

/-- The first register address of READ_REG and WRITE_REG, and REPEAT (R263). -/
def regRange (r : CardReq) : Option (Nat × Bool) :=
  let a := r.address.toNat
  if field a 22 8 = 0 && !bitOf a 31 then some (a % 0x400000, bitOf a 30) else none

/-- READ_REG (R263). -/
def cardReadReg (r : CardReq) (s : State) : CardAns :=
  match regRange r, cardCount r 4 256 with
  | some (a, rep), some n =>
    let x := (List.range (n / 4)).foldl (fun (acc : State × List Byte) i =>
      let y := regRead .card (if rep then a else a + 4 * i) acc.1
      (y.1, acc.2 ++ leBytes 4 y.2.toNat)) (s, [])
    (x.1, stOk, 0, x.2)
  | _, _ => cardBadArg s

/-- WRITE_REG (R263): a write that the block rejects still answers OK (R59). -/
def cardWriteReg (r : CardReq) (s : State) : CardAns :=
  match regRange r, decide (4 ≤ r.payload.length ∧ r.payload.length ≤ 256) with
  | some (a, rep), true =>
    ((wordsOf r.payload).zipIdx.foldl (fun t e => regWrite .card (if rep then a else a + 4 * e.2) e.1 t) s, stOk, 0, [])
  | _, _ => cardBadArg s

/-- A block of `n` bytes lies within the grid window. -/
def gridRange (r : CardReq) (n : Nat) : Option Nat :=
  let o := r.address.toNat
  if o % 4 = 0 && o + n ≤ gridSize then some o else none

/-- Words of the archive from `a` up, until the first refusal (R229, R264). -/
def readArchive : Nat → Nat → State → List Byte → State × Byte × List Byte
  | 0, _, s, got => (s, stOk, got)
  | n + 1, a, s, got =>
    let x := winRead a s
    if x.1.arc.winLast = stOk then readArchive n (a + 4) x.1 (got ++ leBytes 4 x.2.toNat) else (x.1, x.1.arc.winLast, got)

/-- READ_BLOCK (R264). -/
def cardReadBlock (r : CardReq) (s : State) : CardAns :=
  match cardCount r 32 4096 with
  | none => cardBadArg s
  | some n =>
    if r.address.getLsbD 31 then
      let a := r.address.toNat % 0x80000000
      if a % 32 = 0 && a + n ≤ 0x10000000 then
        let x := readArchive (n / 4) a s []
        (x.1, x.2.1, s.auxOf x.2.1, x.2.2)
      else cardBadArg s
    else match gridRange r n with
      | some o => (s, stOk, 0, (List.range (n / 4)).flatMap (fun i => leBytes 4 (gridWinRead (o + 4 * i) s).toNat))
      | none => cardBadArg s

/-- WRITE_BLOCK (R264). -/
def cardWriteBlock (r : CardReq) (s : State) : CardAns :=
  match decide (4 ≤ r.payload.length), gridRange r r.payload.length with
  | true, some o => ((wordsOf r.payload).zipIdx.foldl (fun t e => gridWinWrite (o + 4 * e.2) e.1 t) s, stOk, 0, [])
  | _, _ => cardBadArg s

/-- GRID_READ (R265): a read that runs past the frame's end returns the bytes up to it. (DESIGN CHOICE, log 66) -/
def cardGridRead (r : CardReq) (s : State) : CardAns :=
  let c : Channel := if r.address.getLsbD 31 then .b else .a
  let o := r.address.toNat % 0x80000000
  match cardCount r 4 4096 with
  | none => cardBadArg s
  | some n =>
    if !((s.im.chan c).routes.testBit 1) then (s, stNotPresent, 0, [])
    else match (s.chan c).clBuf with
      | none => (s, stNotPresent, 0, [])
      | some (b, tick, len) =>
        if o % 4 ≠ 0 || len ≤ o then cardBadArg s
        else
          let a := (s.im.chan c).clBuf + (if b then s.im.frameSpan (c = .b) else 0)
          (s, stOk, tick.setWidth 16, Memory.read s.mem (a + o) (min n (len - o)))

/-- MAILBOX_PUT (R266, R398). (DESIGN CHOICE, log 66) -/
def cardMailboxPut (r : CardReq) (s : State) : CardAns :=
  match readMbx r.payload with
  | some m =>
    if r.payload.length = 8 + at16 r.payload 2 then ({ s with mbx.reqs := s.mbx.reqs ++ [{ src := .card, msg := m }] }, stOk, 0, []) else cardBadArg s
  | none => cardBadArg s

/-- MAILBOX_GET (R266). -/
def cardMailboxGet (s : State) : CardAns :=
  match s.mbx.outCard with
  | m :: rest => ({ s with mbx.outCard := rest }, stOk, 0, mbxBytes m)
  | [] => (s, stOk, 0, [])

/-- EJECT_REQUEST (R270): MAINT at once, and the drain begins. (DESIGN CHOICE, log 34; DESIGN CHOICE, log 67) -/
def cardEject (s : State) : CardAns :=
  let est := Config.estMs s.freeCtr
  let s := if s.crd.ejState = 0 then { enter .maint s with crd.ejState := 1, crd.estMs := est } else s
  ((if s.inc.record.isNone then ejectErase s else s).drawn, stOk, 0, leBytes 4 s.crd.estMs.toNat)

/-- A command executes. Where the table gives ADDRESS 0 or no payload, another one is BAD_ARG. (DESIGN CHOICE, log 66) -/
def cardExec (r : CardReq) (s : State) : CardAns :=
  let c := r.cmd
  if [0x01, 0x02, 0x40, 0x41, 0x50].contains c && r.address ≠ 0 then cardBadArg s
  else if [0x01, 0x02, 0x41, 0x50].contains c && !r.payload.isEmpty then cardBadArg s
  else if c = 0x01 then cardIdent s
  else if c = 0x02 then cardStatus s
  else if c = 0x10 then cardReadReg r s
  else if c = 0x11 then cardWriteReg r s
  else if c = 0x20 then cardReadBlock r s
  else if c = 0x21 then cardWriteBlock r s
  else if c = 0x30 then cardGridRead r s
  else if c = 0x40 then cardMailboxPut r s
  else if c = 0x41 then cardMailboxGet s
  else if c = 0x50 then cardEject s
  else cardBadArg s

/-- The oldest request is executed, or answered with its verdict, and leaves the queue. -/
def cardAnswer (r : CardReq) (s : State) : State :=
  let x : CardAns := match r.verdict with
    | some v => (s, v, r.aux, [])
    | none => cardExec r s
  cardSend r.cmd r.tag x.2.1 r.code x.2.2.1 x.2.2.2 { x.1 with crd.queue := x.1.crd.queue.drop 1 }

/-- The row of a command: it executes where that command is the oldest request. -/
def cardRow (cmd : Byte) (s : State) : Answer :=
  done (match s.crd.queue with
    | r :: _ => if s.cardOn && r.cmd = cmd then cardAnswer r s else s
    | [] => s)

/-- IDENT (R262). -/
def execIdent (s : State) : Answer := cardRow 0x01 s

/-- STATUS (R262). -/
def execStatus (s : State) : Answer := cardRow 0x02 s

/-- READ_REG (R263). -/
def execReadReg (s : State) : Answer := cardRow 0x10 s

/-- WRITE_REG (R263). -/
def execWriteReg (s : State) : Answer := cardRow 0x11 s

/-- READ_BLOCK (R264). -/
def execReadBlock (ecc : EccView) (s : State) : Answer := cardRow 0x20 (s.showing ecc)

/-- WRITE_BLOCK (R264). -/
def execWriteBlock (s : State) : Answer := cardRow 0x21 s

/-- GRID_READ (R265). -/
def execGridRead (s : State) : Answer := cardRow 0x30 s

/-- MAILBOX_PUT (R266). -/
def execMailboxPut (s : State) : Answer := cardRow 0x40 s

/-- MAILBOX_GET (R266). -/
def execMailboxGet (s : State) : Answer := cardRow 0x41 s

/-- EJECT_REQUEST (R270). -/
def execEjectRequest (s : State) : Answer := cardRow 0x50 s

/-! ## The link and the end of an ejection (R257, R270) -/

/-- CARD_LINK_UP (R257). -/
def execCardLinkUp (s : State) : Answer :=
  done (if s.mode.answers && !s.crd.linkUp then crdVec { s with crd.linkUp := true, crd.lanes := 3 } else s)

/-- The link goes down: a command that has begun completes without a response, the others are dropped. Whether the oldest has
begun, and which lane still holds lock, is left open. (DESIGN CHOICE, log 64) -/
def cardDown (s : State) : State :=
  let q := s.crd.queue
  let begun := Config.freeNat s.freeCtr % 2 = 1
  let lanes : BitVec 2 := BitVec.ofNat 2 (Config.freeNat (s.freeCtr + 1))
  let s := { s with freeCtr := s.freeCtr + 2, crd.linkUp := false, crd.lanes := lanes, crd.queue := [] }
  let s := match q with
    | r :: _ => if r.verdict.isNone && (r.begun || begun) then (cardExec r s).1 else s
    | [] => s
  raiseDet 90 0 (crdVec (crdCount 7 s))

/-- CARD_LINK_DOWN (R257). -/
def execCardLinkDown (s : State) : Answer := done (if s.cardOn then cardDown s else s)

/-- Everything that an ejection waits for has ended (R270, steps 2 and 3). -/
def State.ejectDrained (s : State) : Bool :=
  s.mode = .maint && s.crd.ejState = 1 && s.inc.record.isNone && s.arrayFree

/-- EJECT_READY (R270, steps 4 and 5). -/
def ejectReady (s : State) : State :=
  let s := drivePair (some (false, true)) (ldgCheckpoint true s)
  crdVec { idleFabric { s with pins.outputsIdle := true } with gctl.ejectReady := true, crd.ejState := 2 }

/-- EJECT_READY (R270): a host erase that is suspended is first resumed, once the record is committed. (DESIGN CHOICE, log 67) -/
def execEjectReady (s : State) : Answer :=
  done (if s.ejectDrained then ejectReady s
  else if s.mode = .maint && s.crd.ejState = 1 && s.inc.record.isNone then ejectErase s
  else s)

end Sys2Proof.Machine
end

