-- ==== Sys2Proof/Machine/FabData.lean ====
section
/-! DEFINITION. Queue entries that come over the fabric (R316, R323). -/
namespace Sys2Proof.Machine

/-- The mark of an assembly whose entry is dropped: no segment follows it. -/
def asmDropped : Nat := 0x100

/-- The assembly of a source and queue. -/
def Fab.asmOf (f : Fab) (src : BitVec 12) (q : Nat) : Option Assembly := f.asm.find? (fun a => a.src = src && a.queue = q)
def Fab.putAsm (f : Fab) (a : Assembly) : Fab := { f with asm := a :: f.asm.filter (fun x => !(x.src = a.src && x.queue = a.queue)) }
def Fab.endAsm (f : Fab) (src : BitVec 12) (q : Nat) : Fab := { f with asm := f.asm.filter (fun x => !(x.src = src && x.queue = q)) }

/-- An entry is dropped: counted once, and the rest of its segments is passed over. (DESIGN CHOICE, log 89) -/
def dataDrop (src : BitVec 12) (g : DataSeg) (s : State) : State :=
  let f := s.fab.count 6
  { s with fab := if g.seg + 1 < g.nseg then f.putAsm { src := src, queue := g.queue, next := asmDropped, nseg := g.nseg, total := 0, entry := [], data := [] }
                  else f.endAsm src g.queue }

/-- All segments have come: the entry is posted with the sender's fields but for DATA_ADDR. -/
def dataPost (g : DataSeg) (entry data : List Byte) (s : State) : State :=
  let e := readEntry entry
  if s.room g.queue = 0 then (postEntry g.queue e.bytes s).1
  else match storeData g.queue data s with
    | some (t, a) => (postEntry g.queue { e with addr := a }.bytes t).1
    | none => s.setQue g.queue { s.que g.queue with drop := satInc (s.que g.queue).drop }

/-- What of a data header is in range: NSEG from 1 to 72, SEG below it, TOTAL up to 16,384 bytes (R316). -/
def dataInRange (g : DataSeg) : Bool := 1 ≤ g.nseg && g.nseg ≤ 72 && g.seg < g.nseg && g.total ≤ 16384

/-- One more segment of an assembly. The payload of the last one is padded to a multiple of 8 bytes (R300). -/
def dataNext (src : BitVec 12) (g : DataSeg) (a : Assembly) (s : State) : State × Byte :=
  let data := a.data ++ g.data
  if g.seg + 1 < g.nseg then ({ s with fab := s.fab.putAsm { a with next := g.seg + 1, data := data } }, stOk)
  else if a.total ≤ data.length && data.length < a.total + 8 then (dataPost g a.entry (data.take a.total) { s with fab := s.fab.endAsm src g.queue }, stOk)
  else (dataDrop src g s, stAborted)

/-- A segment reaches its destination. (DESIGN CHOICE, log 89) -/
def dataTaken (hdr : MsgHdr) (g : DataSeg) (s : State) : State × Byte :=
  let fenced := s.isManager && (match s.fab.member hdr.src with | some m => decide (2 ≤ m.mstate.toNat) | none => false)
  if fenced then ({ s with fab := s.fab.acount 6 }, stFenced)
  else
    let asm := s.fab.asmOf hdr.src g.queue
    let gone := match asm with | some a => a.next = asmDropped | none => false
    -- a first segment ends an entry that misses its later ones
    let s := if g.seg = 0 && asm.isSome && !gone then { s with fab := s.fab.count 6 } else s
    if g.seg ≠ 0 && gone then ({ s with fab := if g.seg + 1 < g.nseg then s.fab else s.fab.endAsm hdr.src g.queue }, stAborted)
    else if !dataInRange g then (dataDrop hdr.src g s, stBadArg)
    else if !s.mode.posts then (dataDrop hdr.src g s, stNotInState)
    else if (s.im.queue g.queue).prod ≠ 9 then (dataDrop hdr.src g s, stNotPresent)
    else if g.seg = 0 then dataNext hdr.src g { src := hdr.src, queue := g.queue, next := 0, nseg := g.nseg, total := g.total, entry := g.entry, data := [] } s
    else match asm with
      | some a => if a.next = g.seg then dataNext hdr.src g a s else (dataDrop hdr.src g s, stAborted)
      | none => (dataDrop hdr.src g s, stAborted)

/-- DATA (R316). -/
def execData (port : Nat) (hdr : MsgHdr) (seg : DataSeg) (s : State) : Answer :=
  done (arrive port hdr (.data seg) none (dataTaken hdr seg) s)

end Sys2Proof.Machine
end

