-- ==== Sys2Proof/Machine/Jtag.lean ====
section
/-! DEFINITION. The JTAG instructions (R384, R385, R400, R401). -/
namespace Sys2Proof.Machine

/-- The port is live (R400). (DEDUCED, log 85) -/
def jtag (f : State → State) (s : State) : State := if s.mode.answers then f s else s

/-- An instruction permitted in HOLD and MAINT only; elsewhere it is BYPASS. (DEDUCED, log 85) -/
def jtagPins (i : JtagIr) (s : State) : State := jtag (fun s => { s with pins.ir := if s.mode.bscan then i else .bypass }) s

/-- EXTEST (R401). -/
def execExtest (s : State) : Answer := done (jtagPins .extest s)

/-- IDCODE (R400). -/
def execIdcode (s : State) : Answer := done (jtag (fun s => { s with pins.ir := .idcode }) s)

/-- The identification register: stepping, 0x4F48, 0x2C5, 1 (R400). -/
def idcodeWord (s : State) : Word := pack [(28, 4, s.otp.step.toNat), (12, 16, 0x4F48), (1, 11, 0x2C5), (0, 1, 1)]

/-- SAMPLE_PRELOAD (R400): the boundary-scan register takes the bits. -/
def execSamplePreload (bits : List Bool) (s : State) : Answer := done (jtag (fun s => { s with pins.ir := .sample, pins.bsr := bits }) s)

/-- CLAMP (R401). -/
def execClamp (s : State) : Answer := done (jtagPins .clamp s)

/-- HIGHZ (R401). -/
def execHighz (s : State) : Answer := done (jtagPins .highz s)

/-- The state that internal scan clears: SRAM, session keys, the ledger key copy and the image verification state (R384). (DEDUCED, log 85) -/
def scanClear (s : State) : State :=
  { s with
    mem := [], sch := {}, cvt := {}, aln := {}, ego := {}, grd := {}, outb := {}, ldg := {}, inc := {}, mbx := {}, shadows := {}
    img := {}, fab := { s.fab with ports := s.fab.ports.map (fun p => { p with key := 0, held := [] }) } }

/-- INT_SCAN: the steps of R384; an open part leaves the OTP path open (R385). (DEDUCED, log 85) -/
def intScan (s : State) : State :=
  if s.pins.scan.isSome then { s with pins.ir := .intScan }
  else
    let s := abandonErase (finishWord s)
    let s := scanClear (enter .hold s)
    drivePair (some (false, true)) { s.say .scanChains with
      otp.keysOff := s.otp.keysOff || s.otp.isSealed, gctl.holdReason := 5, gctl.everArmed := false, gctl.expectMs := 0xFFFF, pins.ir := .intScan, pins.scan := some s.mono }

/-- INT_SCAN (R384, R385). -/
def execIntScan (s : State) : Answer := done (jtag intScan s)

/-- BYPASS (R401). -/
def execBypass (s : State) : Answer := done (jtag (fun s => { s with pins.ir := .bypass }) s)

end Sys2Proof.Machine
end

