-- ==== Sys2Proof/Machine/Dispatch.lean ====
section
/-! DEFINITION. One arm for each command: the meaning it has. -/
namespace Sys2Proof.Machine

/-- The effect of a command on everything but the queue. -/
def exec (i : Instr) (s : State) : Host.Outcome State Fault Refusal :=
  match i with
  | .powerOn mgrSel fabAddr => Sys2Proof.Machine.execPowerOn mgrSel fabAddr s
  | .poresetAssert => Sys2Proof.Machine.execPoresetAssert s
  | .supplyLoss supply => Sys2Proof.Machine.execSupplyLoss supply s
  | .pinReset => Sys2Proof.Machine.execPinReset s
  | .holdCheck refclkOk suppliesOk pllOk => Sys2Proof.Machine.execHoldCheck refclkOk suppliesOk pllOk s
  | .conditionLost what => Sys2Proof.Machine.execConditionLost what s
  | .powerupPlanDone fw0 fw1 marginWarn => Sys2Proof.Machine.execPowerupPlanDone fw0 fw1 marginWarn s
  | .powerupFail code index => Sys2Proof.Machine.execPowerupFail code index s
  | .loadDone ecc => Sys2Proof.Machine.execLoadDone ecc s
  | .halt src => Sys2Proof.Machine.execHalt src s
  | .go src => Sys2Proof.Machine.execGo src s
  | .recover src => Sys2Proof.Machine.execRecover src s
  | .enterMaint src => Sys2Proof.Machine.execEnterMaint src s
  | .restart src key => Sys2Proof.Machine.execRestart src key s
  | .clrCnt src => Sys2Proof.Machine.execClrCnt src s
  | .cntClr src blk => Sys2Proof.Machine.execCntClr src blk s
  | .registerWrite src addr value whole => Sys2Proof.Machine.execRegisterWrite src addr value whole s
  | .snapshotRead src place => Sys2Proof.Machine.execSnapshotRead src place s
  | .tickBoundary hottest => Sys2Proof.Machine.execTickBoundary hottest s
  | .stagedApply => Sys2Proof.Machine.execStagedApply s
  | .commitTakeEffect => Sys2Proof.Machine.execCommitTakeEffect s
  | .runEntry => Sys2Proof.Machine.execRunEntry s
  | .armTimeout => Sys2Proof.Machine.execArmTimeout s
  | .degradedExit => Sys2Proof.Machine.execDegradedExit s
  | .lockLossDegrade => Sys2Proof.Machine.execLockLossDegrade s
  | .quarantineExit => Sys2Proof.Machine.execQuarantineExit s
  | .srcRequest src value => Sys2Proof.Machine.execSrcRequest src value s
  | .srcSwitchEffect => Sys2Proof.Machine.execSrcSwitchEffect s
  | .srcSwitchTimeout => Sys2Proof.Machine.execSrcSwitchTimeout s
  | .tickInEdge => Sys2Proof.Machine.execTickInEdge s
  | .flywheelBoundary => Sys2Proof.Machine.execFlywheelBoundary s
  | .fallback => Sys2Proof.Machine.execFallback s
  | .gatherClose => Sys2Proof.Machine.execGatherClose s
  | .streamLimit stream => Sys2Proof.Machine.execStreamLimit stream s
  | .emitEdge => Sys2Proof.Machine.execEmitEdge s
  | .frameAccept chan route => Sys2Proof.Machine.execFrameAccept chan route s
  | .quietEdge => Sys2Proof.Machine.execQuietEdge s
  | .timDiscRequest src disc => Sys2Proof.Machine.execTimDiscRequest src disc s
  | .applyStep src atSecond => Sys2Proof.Machine.execApplyStep src atSecond s
  | .applySlew src atSecond => Sys2Proof.Machine.execApplySlew src atSecond s
  | .timCancel src => Sys2Proof.Machine.execTimCancel src s
  | .timSetWrite src reg value => Sys2Proof.Machine.execTimSetWrite src reg value s
  | .applyAtSecondEffect => Sys2Proof.Machine.execApplyAtSecondEffect s
  | .slewEnd => Sys2Proof.Machine.execSlewEnd s
  | .gptpMessage mac msg => Sys2Proof.Machine.execGptpMessage mac msg s
  | .ppsInEdge => Sys2Proof.Machine.execPpsInEdge s
  | .referenceSilence => Sys2Proof.Machine.execReferenceSilence s
  | .holdoverLimit => Sys2Proof.Machine.execHoldoverLimit s
  | .ppsOutPulse => Sys2Proof.Machine.execPpsOutPulse s
  | .imgStage src twin => Sys2Proof.Machine.execImgStage src twin s
  | .imgVerify src => Sys2Proof.Machine.execImgVerify src s
  | .verifyDone ecc => Sys2Proof.Machine.execVerifyDone ecc s
  | .imgCommit src persist => Sys2Proof.Machine.execImgCommit src persist s
  | .imgCancel src => Sys2Proof.Machine.execImgCancel src s
  | .persistSelector => Sys2Proof.Machine.execPersistSelector s
  | .taskRelease task => Sys2Proof.Machine.execTaskRelease task s
  | .taskStart core => Sys2Proof.Machine.execTaskStart core s
  | .taskEnd core cycles work => Sys2Proof.Machine.execTaskEnd core cycles work s
  | .wcetExceed core cycles => Sys2Proof.Machine.execWcetExceed core cycles s
  | .solveStepEnd core step => Sys2Proof.Machine.execSolveStepEnd core step s
  | .solveDeadline core cut => Sys2Proof.Machine.execSolveDeadline core cut s
  | .queueTailWrite src queue value => Sys2Proof.Machine.execQueueTailWrite src queue value s
  | .scoreboardPeek src slot entry => Sys2Proof.Machine.execScoreboardPeek src slot entry s
  | .cvtTestConvert src value => Sys2Proof.Machine.execCvtTestConvert src value s
  | .csiFrameStart rx vc frameNo ecc => Sys2Proof.Machine.execCsiFrameStart rx vc frameNo ecc s
  | .csiLine rx vc dt ecc crcOk data => Sys2Proof.Machine.execCsiLine rx vc dt ecc crcOk data s
  | .csiFrameEnd rx vc ecc => Sys2Proof.Machine.execCsiFrameEnd rx vc ecc s
  | .csiSotError rx => Sys2Proof.Machine.execCsiSotError rx s
  | .ethFrameRx mac fcsOk bytes => Sys2Proof.Machine.execEthFrameRx mac fcsOk bytes s
  | .ethLinkChange mac link => Sys2Proof.Machine.execEthLinkChange mac link s
  | .canFrameRx ctl id ide bits data => Sys2Proof.Machine.execCanFrameRx ctl id ide bits data s
  | .canError ctl cat role => Sys2Proof.Machine.execCanError ctl cat role s
  | .canBusoffRecovery ctl => Sys2Proof.Machine.execCanBusoffRecovery ctl s
  | .drdyEdge unit => Sys2Proof.Machine.execDrdyEdge unit s
  | .spiTransferEnd unit data => Sys2Proof.Machine.execSpiTransferEnd unit data s
  | .drdyTimeout unit => Sys2Proof.Machine.execDrdyTimeout unit s
  | .gpioEdge pin rising => Sys2Proof.Machine.execGpioEdge pin rising s
  | .incTrigEdge rising => Sys2Proof.Machine.execIncTrigEdge rising s
  | .hostTrigger src => Sys2Proof.Machine.execHostTrigger src s
  | .vitrineBlockCommit => Sys2Proof.Machine.execVitrineBlockCommit s
  | .vitrineSeal => Sys2Proof.Machine.execVitrineSeal s
  | .vitrinePrepare => Sys2Proof.Machine.execVitrinePrepare s
  | .vitrineStartSeal => Sys2Proof.Machine.execVitrineStartSeal s
  | .egoUpdate => Sys2Proof.Machine.execEgoUpdate s
  | .egoHistSelect src age => Sys2Proof.Machine.execEgoHistSelect src age s
  | .arcWindowRead src place ecc => Sys2Proof.Machine.execArcWindowRead src place ecc s
  | .arcWindowWrite src off => Sys2Proof.Machine.execArcWindowWrite src off s
  | .eccWarnWrite src value => Sys2Proof.Machine.execEccWarnWrite src value s
  | .firmwareRepair sigOk => Sys2Proof.Machine.execFirmwareRepair sigOk s
  | .arcKey src key => Sys2Proof.Machine.execArcKey src key s
  | .arcSequenceWrite src reg value => Sys2Proof.Machine.execArcSequenceWrite src reg value s
  | .arcKeyTimeout => Sys2Proof.Machine.execArcKeyTimeout s
  | .arcSeqTimeout => Sys2Proof.Machine.execArcSeqTimeout s
  | .readId src last => Sys2Proof.Machine.execReadId src last s
  | .programWord src last => Sys2Proof.Machine.execProgramWord src last s
  | .programEnd => Sys2Proof.Machine.execProgramEnd s
  | .eraseSector src last => Sys2Proof.Machine.execEraseSector src last s
  | .eraseParam src last => Sys2Proof.Machine.execEraseParam src last s
  | .eraseEnd => Sys2Proof.Machine.execEraseEnd s
  | .suspend src last => Sys2Proof.Machine.execSuspend src last s
  | .suspendEffect => Sys2Proof.Machine.execSuspendEffect s
  | .resume src last => Sys2Proof.Machine.execResume src last s
  | .readCounter src last => Sys2Proof.Machine.execReadCounter src last s
  | .setWp src last => Sys2Proof.Machine.execSetWp src last s
  | .lockWp src last => Sys2Proof.Machine.execLockWp src last s
  | .swapBoot src last => Sys2Proof.Machine.execSwapBoot src last s
  | .swapBootEnd => Sys2Proof.Machine.execSwapBootEnd s
  | .blankCheck src last => Sys2Proof.Machine.execBlankCheck src last s
  | .blankCheckEnd => Sys2Proof.Machine.execBlankCheckEnd s
  | .clearStatus src last => Sys2Proof.Machine.execClearStatus src last s
  | .incompleteReerase => Sys2Proof.Machine.execIncompleteReerase s
  | .cardPresLoss => Sys2Proof.Machine.execCardPresLoss s
  | .removalSeal => Sys2Proof.Machine.execRemovalSeal s
  | .cardLinkUp => Sys2Proof.Machine.execCardLinkUp s
  | .cardLinkDown => Sys2Proof.Machine.execCardLinkDown s
  | .cardRequest frame => Sys2Proof.Machine.execCardRequest frame s
  | .cardBadFrame kind cmd tag symErrs => Sys2Proof.Machine.execCardBadFrame kind cmd tag symErrs s
  | .ident => Sys2Proof.Machine.execIdent s
  | .status => Sys2Proof.Machine.execStatus s
  | .readReg => Sys2Proof.Machine.execReadReg s
  | .writeReg => Sys2Proof.Machine.execWriteReg s
  | .readBlock ecc => Sys2Proof.Machine.execReadBlock ecc s
  | .writeBlock => Sys2Proof.Machine.execWriteBlock s
  | .gridRead => Sys2Proof.Machine.execGridRead s
  | .mailboxPut => Sys2Proof.Machine.execMailboxPut s
  | .mailboxGet => Sys2Proof.Machine.execMailboxGet s
  | .ejectRequest => Sys2Proof.Machine.execEjectRequest s
  | .ejectReady => Sys2Proof.Machine.execEjectReady s
  | .abort tag target => Sys2Proof.Machine.execAbort tag target s
  | .periodBoundary => Sys2Proof.Machine.execPeriodBoundary s
  | .backstop => Sys2Proof.Machine.execBackstop s
  | .checkpoint => Sys2Proof.Machine.execCheckpoint s
  | .appendBound src => Sys2Proof.Machine.execAppendBound src s
  | .fabricLinkUp port partner => Sys2Proof.Machine.execFabricLinkUp port partner s
  | .fabricLinkDown port => Sys2Proof.Machine.execFabricLinkDown port s
  | .helloTimeout port => Sys2Proof.Machine.execHelloTimeout port s
  | .linkAck port ack => Sys2Proof.Machine.execLinkAck port ack s
  | .linkNak port missing => Sys2Proof.Machine.execLinkNak port missing s
  | .helloSend => Sys2Proof.Machine.execHelloSend s
  | .hello port hello => Sys2Proof.Machine.execHello port hello s
  | .lsaRefresh => Sys2Proof.Machine.execLsaRefresh s
  | .lsa port hdr lsa => Sys2Proof.Machine.execLsa port hdr lsa s
  | .lsaExpiry => Sys2Proof.Machine.execLsaExpiry s
  | .election => Sys2Proof.Machine.execElection s
  | .addrAssign port hdr serial addr => Sys2Proof.Machine.execAddrAssign port hdr serial addr s
  | .role port hdr mgr stby devices epoch => Sys2Proof.Machine.execRole port hdr mgr stby devices epoch s
  | .tickSend => Sys2Proof.Machine.execTickSend s
  | .tick port hdr tick => Sys2Proof.Machine.execTick port hdr tick s
  | .tickMiss => Sys2Proof.Machine.execTickMiss s
  | .delayMeasure port => Sys2Proof.Machine.execDelayMeasure port s
  | .delayReq port hdr t1 => Sys2Proof.Machine.execDelayReq port hdr t1 s
  | .delayResp port hdr t1 t2 t3 => Sys2Proof.Machine.execDelayResp port hdr t1 t2 t3 s
  | .budget port hdr applyIndex budget classFloor => Sys2Proof.Machine.execBudget port hdr applyIndex budget classFloor s
  | .trigger port hdr originTick cause => Sys2Proof.Machine.execTrigger port hdr originTick cause s
  | .safe port hdr tickIndex cause => Sys2Proof.Machine.execSafe port hdr tickIndex cause s
  | .data port hdr seg => Sys2Proof.Machine.execData port hdr seg s
  | .reply port hdr reply => Sys2Proof.Machine.execReply port hdr reply s
  | .joinReq port hdr join => Sys2Proof.Machine.execJoinReq port hdr join s
  | .joinAck port hdr ack => Sys2Proof.Machine.execJoinAck port hdr ack s
  | .report port hdr report => Sys2Proof.Machine.execReport port hdr report s
  | .verdict port hdr cause action epoch => Sys2Proof.Machine.execVerdict port hdr cause action epoch s
  | .mgrClaimSend => Sys2Proof.Machine.execMgrClaimSend s
  | .mgrClaim port hdr claim => Sys2Proof.Machine.execMgrClaim port hdr claim s
  | .memberSelect src value => Sys2Proof.Machine.execMemberSelect src value s
  | .routeSelect src value => Sys2Proof.Machine.execRouteSelect src value s
  | .arbiterWindow requests => Sys2Proof.Machine.execArbiterWindow requests s
  | .pwrAlert => Sys2Proof.Machine.execPwrAlert s
  | .pwrAlertRelease => Sys2Proof.Machine.execPwrAlertRelease s
  | .budgetWrite src value => Sys2Proof.Machine.execBudgetWrite src value s
  | .fabBudgetWrite src value => Sys2Proof.Machine.execFabBudgetWrite src value s
  | .lossOfLock clock => Sys2Proof.Machine.execLossOfLock clock s
  | .detectorReport patterns => Sys2Proof.Machine.execDetectorReport patterns s
  | .faultClear src det => Sys2Proof.Machine.execFaultClear src det s
  | .faultClearAll src => Sys2Proof.Machine.execFaultClearAll src s
  | .recSelect src index => Sys2Proof.Machine.execRecSelect src index s
  | .heartbeatToggle => Sys2Proof.Machine.execHeartbeatToggle s
  | .extFltInput p n => Sys2Proof.Machine.execExtFltInput p n s
  | .extHbTimeout => Sys2Proof.Machine.execExtHbTimeout s
  | .sliceStart requests condOk => Sys2Proof.Machine.execSliceStart requests condOk s
  | .sliceSkip requests condFailed => Sys2Proof.Machine.execSliceSkip requests condFailed s
  | .sliceTestEnd result => Sys2Proof.Machine.execSliceTestEnd result s
  | .sliceLatestEnd => Sys2Proof.Machine.execSliceLatestEnd s
  | .sliceRestoreEnd => Sys2Proof.Machine.execSliceRestoreEnd s
  | .unmappedRead src place => Sys2Proof.Machine.execUnmappedRead src place s
  | .gridWindowWrite src place value => Sys2Proof.Machine.execGridWindowWrite src place value s
  | .msixUnmask what => Sys2Proof.Machine.execMsixUnmask what s
  | .ringEnable src chan => Sys2Proof.Machine.execRingEnable src chan s
  | .ringDisable src chan => Sys2Proof.Machine.execRingDisable src chan s
  | .ringHeadWrite src chan value => Sys2Proof.Machine.execRingHeadWrite src chan value s
  | .ringWriteback chan => Sys2Proof.Machine.execRingWriteback chan s
  | .pcieReset kind => Sys2Proof.Machine.execPcieReset kind s
  | .mbxPut src => Sys2Proof.Machine.execMbxPut src s
  | .mbxGet src => Sys2Proof.Machine.execMbxGet src s
  | .mailboxTake => Sys2Proof.Machine.execMailboxTake s
  | .stageProgram => Sys2Proof.Machine.execStageProgram s
  | .stageErase => Sys2Proof.Machine.execStageErase s
  | .incList => Sys2Proof.Machine.execIncList s
  | .incExport ecc => Sys2Proof.Machine.execIncExport ecc s
  | .incAck => Sys2Proof.Machine.execIncAck s
  | .ldgExport => Sys2Proof.Machine.execLdgExport s
  | .ldgAck => Sys2Proof.Machine.execLdgAck s
  | .floorRaise => Sys2Proof.Machine.execFloorRaise s
  | .extest => Sys2Proof.Machine.execExtest s
  | .idcode => Sys2Proof.Machine.execIdcode s
  | .samplePreload bits => Sys2Proof.Machine.execSamplePreload bits s
  | .clamp => Sys2Proof.Machine.execClamp s
  | .highz => Sys2Proof.Machine.execHighz s
  | .intScan => Sys2Proof.Machine.execIntScan s
  | .bypass => Sys2Proof.Machine.execBypass s
  | .pinResetRelease mgrSel fabAddr => Sys2Proof.Machine.execPinResetRelease mgrSel fabAddr s
  | .pcieLinkUp speed width => Sys2Proof.Machine.execPcieLinkUp speed width s
  | .configurationRequest req => Sys2Proof.Machine.execConfigurationRequest req s
  | .timeclkPresent present => Sys2Proof.Machine.execTimeclkPresent present s
  | .peerDelayMeasurement mac => Sys2Proof.Machine.execPeerDelayMeasurement mac s
  | .genericShortPacket rx packet => Sys2Proof.Machine.execGenericShortPacket rx packet s
  | .dupAddrRecovery => Sys2Proof.Machine.execDupAddrRecovery s

end Sys2Proof.Machine
end

