-- ==== Sys2Proof/Machine/Step.lean ====
section
/-! DEFINITION. One step: the command at the front of the queue, or one counter update on an empty queue. -/
namespace Sys2Proof.Machine

/-- Takes the command at the front and runs it on the state with the queue's rest; on an empty queue device
time and the monotonic counter advance by one update (R38). (DESIGN CHOICE, log 1; DESIGN CHOICE, log 2) -/
def step (s : State) : Host.Outcome State Fault Refusal :=
  match s.pending with
  | [] => done (counterUpdate s)
  | c :: cs => exec c { s with pending := cs }

/-- The state with the command that a word spells at the front of its queue; unchanged where it spells none. (DESIGN CHOICE, log 23) -/
def State.withFetchWord (s : State) (nbits w : Nat) : State :=
  match decodeTableWord nbits w with
  | some c => { s with pending := c :: s.pending }
  | none => s

end Sys2Proof.Machine
end

