-- ==== Sys2Proof/Safety.lean ====
section
/-! DEFINITION. What claims are stated in: properties of a state that every command keeps, and what a step must leave alone. -/
namespace Sys2Proof.Machine

/-- The warden has taken every pulse and the fabric ports have sent what waited: nothing waits between commands. -/
def Settled (s : State) : Prop := s.flt.due = [] ∧ s.fab.outq = []

/-- The memories of R96 are in their canonical form. -/
def MemoryOk (s : State) : Prop := Memory.wf s.mem = true

/-- The parts of the OTP that no command changes (R1, R78, R295, R343): everything but the security floor and the gate of the
key read path. -/
def SameFuses (s t : State) : Prop := { t.otp with floor := 0, keysOff := false } = { s.otp with floor := 0, keysOff := false }

/-- No apply and no discipline is staged, so that the coming counter updates only count (R38, R49). -/
def QuietClock (s : State) : Prop := s.tim.discPend = none ∧ s.tim.now = [] ∧ s.tim.pend = none

/-- Between two states only time has passed: the counter, device time and what is left of a slew. -/
def TimePasses (s u : State) : Prop :=
  u = { s with tim := { s.tim with mono := u.tim.mono, dev := u.tim.dev, frac := u.tim.frac, slewRest := u.tim.slewRest, knots := u.tim.knots } }

/-- A link frame with that message leaves the port (R296). -/
def Sends (p : Nat) (msg : FabMsg) (t : State) : Prop := ∃ ts f h, Out.fabric p ts f ∈ t.out ∧ f.kind = 1 ∧ f.body = some (h, msg)

/-- A boundary may be made and brings nothing beyond the actions of R31: the tick in progress stands in Quiet, nothing is staged in
the time base, no commit, switch or change of office is due, and no class counter has moved since the last boundary. -/
def BoundaryReady (s : State) : Prop :=
  s.boundaryFree = true ∧ Settled s ∧ QuietClock s ∧ s.tck.switch = none ∧ s.tck.mgrSrc = none ∧ s.img.stage ≠ 4 ∧
    s.fab.officeDue = false ∧ ∀ n, (s.core n).satCls = (s.core n).satBase

/-- The monotonic instant of the coming boundary whose stamp is `tk` (R18). -/
def boundInstant (tk : Nat) (s : State) : Nat := (advanceStamp tk s).mono - ((advanceStamp tk s).stamp - tk)

/-- What no boundary without a commit touches (R31): the OTP, the archive, the memories of R96, the clocks, and the blocks of the host,
the card, the conversion unit, CAN, GPIO and the ego-motion. -/
def BoundaryKeeps (s t : State) : Prop :=
  t.otp = s.otp ∧ t.cvt = s.cvt ∧ t.cans = s.cans ∧ t.gpio = s.gpio ∧ t.ego = s.ego ∧ t.arc = s.arc ∧ t.crd = s.crd ∧ t.clk = s.clk ∧
    t.mbx = s.mbx ∧ t.mem = s.mem ∧ t.shadows = s.shadows ∧ t.freeCtr = s.freeCtr ∧ t.pending = s.pending

/-- What no change of state but a reset touches (R65 to R69). -/
def EnterKeeps (s t : State) : Prop :=
  t.otp = s.otp ∧ t.cvt = s.cvt ∧ t.cans = s.cans ∧ t.gpio = s.gpio ∧ t.ego = s.ego ∧ t.pwr = s.pwr ∧ t.mbx = s.mbx ∧
    t.shadows = s.shadows ∧ t.pending = s.pending

/-- The block TIM takes writes (R61). -/
def State.timWritable (s : State) : Prop := s.mode = .load ∨ s.mode.fromArmed = true

/-- The archive's sequence of a source has taken both keys and the command code, within its time (R232): the address is the next word. -/
def AwaitsAddress (src : Source) (code : Byte) (s : State) : Prop :=
  Settled s ∧ s.hears src = true ∧ s.mode.fromArmed = true ∧ ∃ q, s.arc.seq = some q ∧ q.src = src ∧ q.step = .cmd code ∧ s.tim.mono ≤ q.key2 + 1000000

/-- The same, with the address and all data words but the last taken. -/
def AwaitsLastWord (src : Source) (code : Byte) (a : Nat) (data : List Word) (s : State) : Prop :=
  Settled s ∧ s.hears src = true ∧ s.mode.fromArmed = true ∧
    ∃ q, s.arc.seq = some q ∧ q.src = src ∧ q.step = .addr code a data (data.length + 1) ∧ s.tim.mono ≤ q.key2 + 1000000

/-- A message comes in a frame that arrives whole and in its order, with a TYPE that the device knows, on a port that is up (R298, R301). -/
def InOrder (p : Nat) (hdr : MsgHdr) (s : State) : Prop :=
  Settled s ∧ p < 4 ∧ (s.port p).up = true ∧ hdr.rx.fate = .whole ∧ hdr.rx.odd = none ∧ hdr.rx.lseq = (s.port p).rxNext

/-- A message of the fabric reaches the device itself: its frame is in order, the device is in ARMED or beyond, and the message names its
address and asks for no REPLY (R300, R301). -/
def Unicast (p : Nat) (hdr : MsgHdr) (s : State) : Prop :=
  InOrder p hdr s ∧ s.armedOn = true ∧ hdr.dst = s.fab.addr ∧ s.fab.addr.toNat < 0x400 ∧ hdr.replyReq = false

/-- A broadcast that is new to the device, on its only link (R302, R307). -/
def Broadcast (p : Nat) (hdr : MsgHdr) (s : State) : Prop :=
  InOrder p hdr s ∧ s.armedOn = true ∧ upPorts p s = [] ∧ hdr.dst = 0xFFF ∧ hdr.src ≠ 0xFFF ∧
    hdr.src ≠ s.fab.addr ∧ hdr.replyReq = false ∧ (∀ m, s.fab.seenOf hdr.src = some m → newer16 hdr.mseq m = true)

/-- The message's frame is counted and acknowledged (R298). -/
def State.heard (p : Nat) (hdr : MsgHdr) (s : State) : State := acceptLink p hdr.rx s

/-- The message's frame is counted and acknowledged, and its number is kept. -/
def State.heardCast (p : Nat) (hdr : MsgHdr) (s : State) : State :=
  { s.heard p hdr with fab.seen := (hdr.src, hdr.mseq) :: s.fab.seen.filter (fun e => e.1 ≠ hdr.src) }

/-- The oldest request over the card link is `r`, to be executed, and the link carries it. -/
def CardFront (cmd : Byte) (r : CardReq) (rest : List CardReq) (s : State) : Prop :=
  Settled s ∧ s.cardOn = true ∧ s.crd.queue = r :: rest ∧ r.cmd = cmd ∧ r.verdict = none

/-- The mailbox controller executes the request `r` of that type. -/
def Executes (type : Byte) (r : MbxReq) (s : State) : Prop :=
  Settled s ∧ s.mode.fromArmed = true ∧ s.mbx.current = some r ∧ r.msg.type = type

/-- The replies that wait for a source after one more: its TYPE with bit 7 set, and the request's TAG. -/
def Replied (r : MbxReq) (status : Byte) (payload : List Byte) (s t : State) : Prop :=
  t.mbx.current = none ∧ t.replies r.src = s.replies r.src ++ [{ type := r.msg.type ||| 0x80, tag := r.msg.tag, status := status, payload := payload }]

/-- The image that a twin holds (R72). -/
def twinImage (t : Twin) (s : State) : Image := readImage (twinBytes t s)

/-- Steps 1 to 9 of R84 pass for a twin, and no word of its structure section is UNCORRECTABLE. -/
def TwinHolds (t : Twin) (s : State) : Prop :=
  headerFail t s = none ∧ s.arc.uncorrIn (twinBase t) (twinBytes t s).length = false ∧
    staticFail s.otp s.pins.mgrSel s.arc.readBytes s.arc.uncorrIn (twinBytes t s) (twinImage t s) = none

/-- Step 10 of R84: each payload reads without an UNCORRECTABLE word and matches its digest (R85). -/
def PayloadsHold (l : List Payload) (arc : Arc) : Prop :=
  ∀ p ∈ l, arc.uncorrIn p.arcAddr p.length = false ∧ digestOf (sha256 (arc.readBytes p.arcAddr p.length)) = p.digest

/-- No fault record that waits for the map of an image leads to SAFE or to a reset under it (R354). -/
def RecordsPermit (im : Image) (s : State) : Prop :=
  ∀ r ∈ s.flt.records, r.judged = false → (mapOf { s with gctl.everArmed := true, img.run := some im } r.det).1 < 3

/-- One application of `exec` answers a next state. -/
def Completes (i : Instr) (s : State) : Prop := ∃ t, exec i s = .next t

/-- The machine runs a list of commands to its end. -/
def runs : List Instr → State → Option State
  | [], s => some s
  | i :: is, s => match exec i s with
    | .next t => runs is t
    | _ => none

end Sys2Proof.Machine
end

