-- ==== Sys2Proof/WellFormed.lean ====
section
/-! DEFINITION. Which commands are well formed: the operands that name a register, a port, a table entry or a place lie in the
range that the rules give it. -/
namespace Sys2Proof

/-- A register address, inside the 4 MiB of BAR0 (R387); R9 says what an access that is not word aligned does. -/
def regAddrOk (a : Nat) : Bool := decide (a < 0x400000)

/-- An offset in a window of BAR2 (R387, R392). -/
def winOffOk (off : Nat) : Bool := decide (off < 0x2000000)

/-- An archive address: 28 bits, a multiple of the code word's 32 bytes; at most three bits are judged (R214). -/
def eccOk (v : EccView) : Bool := v.all (fun e => e.1 % 32 == 0 && decide (e.1 < 0x10000000))

/-- A block with several units names one that the device has (R145). -/
def CntBlk.wf : CntBlk → Bool
  | .cam r => decide (r < 8)
  | .eth p => decide (p < 4)
  | .can c => decide (c < 2)
  | .spi u => decide (u < 2)
  | _ => true

/-- ARC_DATA holds eight words (R231). -/
def ArcReg.wf : ArcReg → Bool
  | .data i => decide (i < 8)
  | _ => true

/-- A place in an output tensor of a task, which has at most four outputs (R131, 04_fenor_image.md). -/
def Dest.wf (d : Dest) : Bool := decide (d.out < 4)

/-- A value of `w` bits: signed, or of either signedness. -/
def signedIn (w : Nat) (v : Int) : Bool := decide (-(2 ^ (w - 1) : Nat) ≤ v) && decide (v < (2 ^ (w - 1) : Nat))
def storedIn (w : Nat) (v : Int) : Bool := decide (-(2 ^ (w - 1) : Nat) ≤ v) && decide (v < (2 ^ w : Nat))

/-- The place of a channel's multiplier and shift: inside a core's local SRAM (R96, R120). -/
def chanOk (chan : Nat) : Bool := decide (chan < 0x200000)

/-- The input of a lookup: a signed 8-bit index, or an accumulator with its requantisation (R119, R120, R122). -/
def LutIn.wf : LutIn → Bool
  | .index n => signedIn 8 n
  | .wide acc chan => signedIn 48 acc && chanOk chan

/-- A micro-operation names an output, a stream and a table that exist, and its values fit the units that take them: int8 products in a
32-bit accumulator and int16 products in a 48-bit one (R119), the place of R120's multiplier and shift, 32-bit lanes and shifts to 63 (R121), the
256-entry table of R122. -/
def CoreOp.wf : CoreOp → Bool
  | .mac wide bias terms chan dst =>
    let w := if wide then 16 else 8
    signedIn (if wide then 48 else 32) bias && terms.all (fun p => signedIn w p.1 && signedIn w p.2) && chanOk chan && dst.wf
  | .vec a steps dst => signedIn 32 a && steps.all (fun p => signedIn 32 p.b && decide (p.shift ≤ 63)) && dst.wf
  | .lut input table dst => input.wf && decide (table.length = 256) && table.all (storedIn 32) && dst.wf
  | .cvt _ dst => dst.wf
  | .lift stream _ _ _ out => decide (stream < 32) && decide (out < 4)
  | .point stream _ _ _ _ => decide (stream < 32)
  | .pillar _ _ out => decide (out < 4)
  | .store out _ _ => decide (out < 4)
  | .post entry => decide (entry.length = 32)
  | .emit input _ _ entry => decide (input < 8) && decide (entry.length = 32)

/-- A fabric message names an EPOCH, a device and a port in range. -/
def Lsa.wf (l : Lsa) : Bool := decide (l.nbrs.length = 4)

/-- A DATA segment: fields of the data header's widths, the entry in segment 0 alone, and a payload of at most 240 bytes in a multiple of 8
(R300, R316). -/
def DataSeg.wf (d : DataSeg) : Bool :=
  decide (d.queue < 256) && decide (d.seg < 256) && decide (d.nseg < 256) && decide (d.total < 65536) &&
    decide (d.entry.length = if d.seg = 0 then 32 else 0) && decide (d.entry.length + d.data.length ≤ 232) && d.data.length % 8 == 0

/-- The codes of TYPE that messages have (R300, R320). -/
def fabTypes : List Byte := [0x01, 0x02, 0x03, 0x04, 0x10, 0x11, 0x12, 0x20, 0x21, 0x22, 0x30, 0x31, 0x32, 0x33, 0x34, 0x40, 0x7F]

/-- A message on a port of the device; a TYPE that it brings in place of its own is one that no message has (R301). -/
def msgOk (port : Nat) (hdr : MsgHdr) : Bool := decide (port < 4) && hdr.rx.odd.all (fun t => !fabTypes.contains t)

/-- The operand ranges of a command. (DESIGN CHOICE, log 92) -/
def Instr.wf : Instr → Bool
  | .loadDone ecc | .verifyDone ecc | .readBlock ecc | .incExport ecc => eccOk ecc
  | .cntClr _ blk => blk.wf
  | .registerWrite _ addr _ _ | .snapshotRead _ ⟨addr, _⟩ | .unmappedRead _ ⟨addr, _⟩ => regAddrOk addr
  | .streamLimit stream => decide (stream < 32)
  | .frameAccept _ route => decide (route < 6)
  | .gptpMessage mac _ | .ethFrameRx mac _ _ | .ethLinkChange mac _ | .peerDelayMeasurement mac => decide (mac < 4)
  | .taskRelease task => decide (task < 0x10000)
  | .taskStart core | .wcetExceed core _ | .solveStepEnd core _ | .solveDeadline core _ => decide (core < 48)
  | .taskEnd core _ work => decide (core < 48) && work.all CoreOp.wf
  | .queueTailWrite _ queue _ => decide (queue < 256)
  | .csiFrameStart rx vc _ _ | .csiFrameEnd rx vc _ => decide (rx < 8) && decide (vc < 4)
  | .csiLine rx vc dt _ _ _ => decide (rx < 8) && decide (vc < 4) && decide (dt < 64)
  | .csiSotError rx | .genericShortPacket rx _ => decide (rx < 8)
  | .canFrameRx ctl id ide _ bytes => decide (ctl < 2) && (ide || decide (id.toNat < 2048)) && decide (bytes.length ≤ 64)
  | .canError ctl _ _ | .canBusoffRecovery ctl => decide (ctl < 2)
  | .drdyEdge unit | .drdyTimeout unit | .spiTransferEnd unit _ => decide (unit < 2)
  | .gpioEdge pin _ => decide (pin < 16)
  | .arcWindowRead _ ⟨off, _⟩ ecc => winOffOk off && eccOk ecc
  | .arcWindowWrite _ off => winOffOk off
  | .arcSequenceWrite _ reg _ => reg.wf
  | .fabricLinkUp port _ | .fabricLinkDown port | .helloTimeout port | .linkAck port _ | .linkNak port _ | .delayMeasure port => decide (port < 4)
  | .hello port h => msgOk port h.1 && decide (h.2.port < 4)
  | .lsa port hdr l => msgOk port hdr && l.wf
  | .data port hdr seg => msgOk port hdr && seg.wf
  | .addrAssign port hdr _ _ | .role port hdr _ _ _ _ | .tick port hdr _ | .delayReq port hdr _ | .delayResp port hdr _ _ _ | .budget port hdr _ _ _ |
    .trigger port hdr _ _ | .safe port hdr _ _ | .reply port hdr _ | .joinReq port hdr _ | .joinAck port hdr _ | .report port hdr _ | .verdict port hdr _ _ _ |
    .mgrClaim port hdr _ => msgOk port hdr
  | .arbiterWindow requests | .sliceStart requests _ | .sliceSkip requests _ => requests.all (fun c => decide (c < 62))
  | .lossOfLock (.lockLost pll) => decide (pll < 6)
  | .detectorReport patterns => patterns.all (fun p => decide (p.det < 92))
  | .gridWindowWrite _ ⟨off, _⟩ _ => winOffOk off
  | .msixUnmask (.vector v) => decide (v < 64)
  | .cardRequest f => decide (f.length < 65536)
  | .pcieLinkUp speed width => decide (1 ≤ speed && speed ≤ 4) && (width == 1 || width == 2 || width == 4)
  | .configurationRequest (.read dw) => decide (dw < 1024)
  | _ => true

end Sys2Proof
end

