-- ==== Sys2Proof/Certificates/Slice0/Obligations.lean ====
section
/-! DEFINITION. The statements for the provers. Each is about every state that meets its premises, and none is about a program.
Where a conclusion reads `.next (settle u)`, `u` is the state before the warden takes what the command raised (R351, log 14). A clause
`t = { s with f := t.f, … }` is a frame: it says that nothing but the named parts of the state changes. -/

section
open Sys2Proof Sys2Proof.Machine

/-- A step runs the command at the front of the queue on the state with the queue's rest; on an empty queue it is one counter update (log
2). -/
def Obligations.StepRunsFrontCommand : Prop :=
  (∀ c cs s, s.pending = c :: cs → step s = exec c { s with pending := cs }) ∧
  (∀ s, s.pending = [] → Settled s → QuietClock s → ∃ t, step s = .next t ∧ t.tim.mono = s.tim.mono + 4 ∧ TimePasses s t)

/-- R8, R11, R62, R96, R413: After reset the device is in HOLD with cleared memories, no running image and a dark tick; what is live is
GCTL, PWR, CLK, FLT, TST and CRD. -/
def Obligations.ResetState : Prop :=
  State.reset.mode = .hold ∧ State.reset.liveWord = 0x2F1 ∧ State.reset.mem = [] ∧ State.reset.img.run = none ∧
  State.reset.tck.ticked = false ∧ State.reset.tim.locked = false ∧ State.reset.gctl.rejectCnt = 0 ∧ State.reset.flt.records = [] ∧
  State.reset.sch.tokens = [] ∧ State.reset.inc.vstate = .disabled ∧ State.reset.ldg.lstate = 0 ∧ State.reset.fab.role = roleNone ∧
  State.reset.fab.addr = 0xFFF ∧ State.reset.pending = []

/-- Memory is canonical, and nothing waits for the warden, in the state after reset. -/
def Obligations.InvariantsAtReset : Prop :=
  MemoryOk State.reset ∧ Settled State.reset

/-- No command faults or is refused, and none leaves a detector that the warden has not taken. The model's own choice here: a command whose
condition does not hold leaves the state: log 8. -/
def Obligations.EveryCommandAnswers : Prop :=
  ∀ c s, ∃ t, exec c s = .next t ∧ Settled t

/-- Every step keeps memory in its canonical form. -/
def Obligations.MemoryStaysCanonical : Prop :=
  ∀ s t, MemoryOk s → step s = .next t → MemoryOk t

/-- A step takes one command off the queue and adds none. -/
def Obligations.QueueOnlyShrinks : Prop :=
  ∀ s t, step s = .next t → t.pending = s.pending.drop 1

/-- R1, R78, R79, R343: No step changes the fuses and keys of the OTP, and the security floor never falls. -/
def Obligations.FusesFixedFloorRises : Prop :=
  ∀ s t, step s = .next t → SameFuses s t ∧ s.otp.floor.toNat ≤ t.otp.floor.toNat

/-- R20, R31, R65, R66, R322: With INTERNAL in force the next boundary falls on the grid of INTERNAL; its index is one more than the last (0
for the first), Gather opens, TICK_OUT is given, and a staged budget takes effect. The changes of state that a boundary makes. ARM_TIMEOUT
permits RUN without time lock, and changes nothing but that and the time. The model's own choice here: one row makes the whole boundary: log
25. -/
def Obligations.InternalBoundaries : Prop :=
  (∀ h s, BoundaryReady s → s.tck.active = 0 → h < 125 → ∃ t, exec (.tickBoundary h) s = .next t ∧
      BoundaryKeeps s t ∧ t.tck.ticked = true ∧
    t.tck.bound = nextInternal s ∧ t.tck.prevBound = s.tck.bound ∧ t.tck.index = (if s.tck.ticked then s.tck.index + 1 else 0) ∧
    t.tck.phase = 0 ∧ t.tck.gDone = false ∧ t.tck.eDone = false ∧ t.tck.qDone = false ∧ t.pwr.hottest = h ∧
    Out.tickOut (nextInternal s) ∈ t.out ∧ t.pending = s.pending) ∧
  (∀ v s, BoundaryReady s → s.tck.active = 0 → s.pwr.staged = some v → s.fab.budgets = [] → ∃ t, exec .stagedApply s = .next t ∧
      BoundaryKeeps s t ∧
    t.pwr.setBudget = max v s.im.power.floor ∧ t.pwr.staged = none ∧ t.tck.bound = nextInternal s) ∧
  (∀ s, BoundaryReady s → s.tck.active = 0 → s.mode = .armed → s.runReady = true → s.anyCause = false → s.degWardenCause = false →
    ∃ t, exec .runEntry s = .next t ∧
      BoundaryKeeps s t ∧ t.mode = .run ∧ t.gctl.prev = .armed ∧ t.gctl.freeRun = (s.gctl.freeRun || !s.tim.locked) ∧
      t.tck.bound = nextInternal s) ∧
  (∀ s, BoundaryReady s → s.tck.active = 0 → s.mode = .degraded → s.gctl.degOvr = false → s.gctl.degFlywheel = false →
    s.gctl.degTime = false → s.gctl.lockLost = false → s.gctl.degFabric = false → s.degWardenCause = false →
    ∃ t, exec .degradedExit s = .next t ∧
      BoundaryKeeps s t ∧ t.mode = .run ∧ t.gctl.prev = .degraded) ∧
  (∀ s, BoundaryReady s → s.tck.active = 0 → s.mode = .run → s.gctl.lockLost = true →
    ∃ t, exec .lockLossDegrade s = .next t ∧
      BoundaryKeeps s t ∧ t.mode = .degraded ∧ t.gctl.degTime = true) ∧
  (∀ s, BoundaryReady s → s.tck.active = 0 → s.mode = .quarantine → s.gctl.admitted = true →
    ∃ t, exec .quarantineExit s = .next t ∧
      BoundaryKeeps s t ∧ t.mode = .armed ∧ t.fab.cause = 0 ∧ t.gctl.admitted = false) ∧
  (∀ s, Settled s → QuietClock s → s.mode = .armed → s.im.tick.freeRunOk = true → s.tim.locked = false → s.gctl.armTimedOut = false →
    ∃ t, exec .armTimeout s = .next t ∧ t.gctl = { s.gctl with armTimedOut := true } ∧
      s.gctl.armedMono + s.im.tick.armTimeout * 1000000 ≤ t.tim.mono ∧ TimePasses { s with gctl := t.gctl } t)

/-- R91, R92, R60, R94, R59, R61, R93, R218: A pending commit makes the candidate the running image at the boundary, whose index it records.
IMG_COMMIT is taken only of a verified candidate and waits for a boundary; while verification runs or a commit waits it is BUSY. CANCEL
withdraws the candidate with its protection; it is BUSY while the selector is persisted, and BAD_ARG with no candidate. In MAINT, which has
no boundary, IMG_COMMIT is rejected with NOT_IN_STATE and has no other effect. In the Quiet of the commit tick the selector word is
programmed in the next free place, with a SEQ one higher and the running twin; every other code word stays. The model's own choice here: one
row makes the whole boundary: log 25. -/
def Obligations.CommitAtBoundary : Prop :=
  (∀ im s, s.boundaryFree = true → Settled s → QuietClock s → s.tck.switch = none → s.tck.mgrSrc = none → s.tck.active = 0 →
    s.fab.officeDue = false → (∀ n, (s.core n).satCls = (s.core n).satBase) → s.img.stage = 4 → s.img.cand = some im →
    s.img.persist = false → s.im.ledger = none → im.ledger = none → s.img.commitMono < boundInstant (nextInternal s) s →
    ∃ t, exec .commitTakeEffect s = .next t ∧
      t.otp = s.otp ∧ t.cvt = s.cvt ∧ t.cans = s.cans ∧ t.gpio = s.gpio ∧ t.crd = s.crd ∧ t.mbx = s.mbx ∧ t.shadows = s.shadows ∧ t.pending = s.pending ∧ t.img.run = some im ∧ t.img.runTwin = s.img.stgTwin ∧ t.img.cand = none ∧
      t.img.stage = 0 ∧ t.img.stat = 0 ∧ t.img.commitIndex = t.tck.index ∧ t.img.commitCnt = satInc s.img.commitCnt ∧
      t.arc.base0 = im.arcArea.wp0 ∧ t.arc.base1 = im.arcArea.wp1 ∧ t.arc.over0 = 0 ∧ t.arc.over1 = 0) ∧
  (∀ src p s, Settled s → s.hears src = true → s.mode.ticks = true → s.img.stage = 3 → exec (.imgCommit src p) s = .next { s with
    img.stage := 4, img.persist := p, img.commitMono := s.tim.mono, img.stat := 0x00 }) ∧
  (∀ src p s, Settled s → s.hears src = true → s.mode.ticks = true → s.img.stage = 2 ∨ s.img.stage = 4 →
    exec (.imgCommit src p) s = .next { s with img.stat := 0x01 }) ∧
  (∀ src p s, Settled s → s.hears src = true → s.mode.ticks = true → s.img.stage ≠ 2 → s.img.stage ≠ 3 → s.img.stage ≠ 4 →
    exec (.imgCommit src p) s = .next { s with img.stat := 0x03 }) ∧
  (∀ src s, Settled s → s.hears src = true → s.mode.fromArmed = true → s.img.stage ≠ 0 → s.img.stage ≠ 5 → exec (.imgCancel src) s = .next { s with
    img.stage := 0, img.cand := none, img.stat := 0x09, arc.over0 := 0, arc.over1 := 0 }) ∧
  (∀ src s, Settled s → s.hears src = true → s.mode.fromArmed = true → s.img.stage = 5 →
    exec (.imgCancel src) s = .next { s with img.stat := 0x01 }) ∧
  (∀ src s, Settled s → s.hears src = true → s.mode.fromArmed = true → s.img.stage = 0 →
    exec (.imgCancel src) s = .next { s with img.stat := 0x03 }) ∧
  (∀ src p s, Settled s → s.hears src = true → s.mode = .maint → exec (.imgCommit src p) s = .next { s with
    img.stat := 0x02, gctl.rejectCnt := satInc s.gctl.rejectCnt
    gctl.lastReject := BitVec.ofNat 32 (8 * 0x10000000 + srcCode src * 0x4000000 + 0x1000000 + 3 * 0x1000 + 8) }) ∧
  (∀ k q w d p s, Settled s → s.img.stage = 5 → s.tck.qDone = true → s.arc.prog = none → s.arc.erase = none → s.arc.weak = [] →
    s.arc.newestSelector = some (k, q, w, d) →
    s.arc.selectorPlace = (none, p) → p % 256 ≠ 0 → ∃ t, exec .persistSelector s = .next t ∧
      t = { s with img := t.img, arc := t.arc, flt := t.flt, hst := t.hst, out := t.out, freeCtr := t.freeCtr } ∧ t.img.stage = 0 ∧
      t.arc.words = wput s.arc.words p (.prog (fitBytes 32 (selectorBytes (q + 1) s.img.runTwin (digestPrefixOf s.im.hdr.digest)))) ∧
      t.arc.hdrs = s.arc.hdrs)

/-- R23, R59, R417: A write of TCK_CTL.SRC stages a permitted source, refuses one that the image does not permit with PROTECTED, and the
reserved code with BAD_ARG; nothing else changes. A switch to INTERNAL takes effect at the boundary that INTERNAL makes; a new source that
delivers nothing within T ends the switch with TIMEOUT, and the old source stays. The model's own choice here: a source that delivers at the
end of its T is in time: log 27. -/
def Obligations.SourceSwitches : Prop :=
  (∀ src v s, Settled s → s.hears src = true → s.mode.fromArmed = true → v ≠ s.tck.src → v ≠ 3 → s.im.tick.srcAllow.testBit v.toNat = true →
    (v = 2 → s.isManager = false) → exec (.srcRequest src v) s = .next { s with tck.req := some v, tck.src := v }) ∧
  (∀ src v s, Settled s → s.hears src = true → s.mode.fromArmed = true → v ≠ s.tck.src → v ≠ 3 → s.im.tick.srcAllow.testBit v.toNat = false →
    exec (.srcRequest src v) s = .next { s with tck.srcStat := 0x04 }) ∧
  (∀ src s, Settled s → s.hears src = true → s.mode.fromArmed = true → s.tck.src ≠ 3 →
    exec (.srcRequest src 3) s = .next { s with tck.srcStat := 0x03 }) ∧
  (∀ w s, s.boundaryFree = true → Settled s → QuietClock s → s.tck.switch = some w → w.dest = 0 → s.tck.mgrSrc = none →
    s.tck.req = none → s.tck.fallbackDue = false → s.img.stage ≠ 4 → s.fab.officeDue = false →
    (∀ n, (s.core n).satCls = (s.core n).satBase) →
    ∃ t, exec .srcSwitchEffect s = .next t ∧
      BoundaryKeeps s t ∧ t.tck.active = 0 ∧ t.tck.src = 0 ∧ t.tck.switch = none ∧ t.tck.srcStat = 0 ∧
      t.tck.bound = gridFrom s (firstFrom w.endMono s)) ∧
  (∀ w s, s.boundaryFree = true → Settled s → QuietClock s → s.tck.switch = some w → w.dest ≠ 0 → s.tck.lead = none →
    s.tck.active = 0 → ∃ t, exec .srcSwitchTimeout s = .next t ∧
      t = { s with tim := t.tim, tck := t.tck, hst := t.hst, out := t.out } ∧ t.tck.switch = none ∧ t.tck.src = 0 ∧ t.tck.active = 0 ∧
      t.tck.srcStat = 0x08 ∧ t.tck.req = none ∧ t.tck.gridAt = some t.tim.mono ∧ w.endMono + s.period ≤ t.tim.mono)

/-- R21, R22: An early edge of TICK_IN is only counted; an edge in the window makes the boundary at its stamp, on a manager LEAD after it;
without one the device makes a flywheel boundary at T × (1 + tol) and counts it; a fallback that is due ends with INTERNAL in force. The
model's own choice here: the window is judged by the stamp of the pin: log 27; the fallback takes effect at the next boundary: log 26. -/
def Obligations.TickInEdges : Prop :=
  (∀ s, Settled s → s.mode.ticks = true → s.tck.switch = none → s.tck.active = 1 → s.tck.lead = none → s.tck.ticked = true →
    pinNow s < judgeFrom s + s.tolEarly →
    exec .tickInEdge s = .next { s with tck.inEarly := satInc s.tck.inEarly }) ∧
  (∀ s, BoundaryReady s → s.tck.active = 1 → s.tck.lead = none → s.isManager = false →
    judgeFrom s + s.tolEarly ≤ pinNow s → pinNow s ≤ judgeFrom s + s.tolLate →
    ∃ t, exec .tickInEdge s = .next t ∧
      BoundaryKeeps s t ∧ t.tck.ticked = true ∧ t.tck.bound = (pinNow s).toNat ∧
      t.tck.flywheel = false ∧ t.tck.inEarly = s.tck.inEarly ∧ t.tck.inMiss = s.tck.inMiss) ∧
  (∀ s, Settled s → s.boundaryFree = true → s.tck.switch = none → s.tck.active = 1 → s.tck.lead = none → s.isManager = true →
    judgeFrom s + s.tolEarly ≤ pinNow s → pinNow s ≤ judgeFrom s + s.tolLate →
    exec .tickInEdge s = .next { s with tck.lead := some ((pinNow s).toNat + s.leadNs, none, false) }) ∧
  (∀ s, BoundaryReady s → s.tck.active = 1 → s.tck.lead = none → s.isManager = false →
    ∃ t, exec .flywheelBoundary s = .next t ∧
      BoundaryKeeps s t ∧ t.tck.inMiss = satInc s.tck.inMiss ∧ t.tck.flywheel = true ∧
      t.tck.bound = (judgeFrom s + s.tolLate).toNat ∧ t.tck.flyRun = s.tck.flyRun + 1) ∧
  (∀ s, BoundaryReady s → s.tck.active = 1 → s.tck.lead = none → s.isManager = false → s.tck.fallbackDue = true →
    ∃ t, exec .fallback s = .next t ∧
      BoundaryKeeps s t ∧ t.tck.active = 0 ∧ t.tck.src = 0 ∧ t.tck.fallbackDue = false ∧ t.tck.req = none)

/-- R40, R47, R49, R52: A permitted discipline is staged for the next counter update, one that the image does not permit is refused with
PROTECTED. In FREE an APPLY captures the staged time or offset, for the next counter update or for the next second boundary. A TIM_SET
register takes the value written. -/
def Obligations.DisciplineAndApplies : Prop :=
  (∀ src d s, Settled s → s.hears src = true → s.timWritable → d ≠ s.tim.disc → s.im.time.discAllow.testBit d.toNat = true →
    exec (.timDiscRequest src d) s = .next { s with
      tim.disc := d, tim.discPend := (if d = s.tim.discAct then none else some d), tim.applyStat := 0x00
      tim.pend := s.tim.pend.map (fun a => { a with withDisc := false }) }) ∧
  (∀ src d s, Settled s → s.hears src = true → s.timWritable → d ≠ s.tim.disc → s.im.time.discAllow.testBit d.toNat = false →
    exec (.timDiscRequest src d) s = .next { s with tim.applyStat := 0x04 }) ∧
  (∀ src v s, Settled s → s.hears src = true → s.timWritable → s.tim.discPend = none → s.tim.discAct = 0 → s.tim.pend = none → s.tim.staged = some v →
    exec (.applyStep src false) s = .next { s with tim.now := s.tim.now ++ [{ slew := false, value := v, rate := 0 }], tim.applyStat := 0x00 } ∧
    exec (.applyStep src true) s = .next { s with tim.pend := some { slew := false, value := v, rate := 0 }, tim.applyStat := 0x00 }) ∧
  (∀ src s, Settled s → s.hears src = true → s.timWritable → s.tim.discPend = none → s.tim.discAct = 0 → s.tim.pend = none →
    s.tim.setOfs.toInt.natAbs ≤ 100000000 → exec (.applySlew src false) s = .next { s with
      tim.now := s.tim.now ++ [{ slew := true, value := s.tim.setOfs.toInt, rate := s.im.time.slewRate }], tim.applyStat := 0x00 }) ∧
  (∀ src v s, Settled s → s.hears src = true → s.timWritable → s.tim.pend = none →
    exec (.timSetWrite src .nsec v) s = .next { s with tim.setNsec := v.setWidth 30 } ∧
    exec (.timSetWrite src .secLo v) s = .next { s with tim.setSecLo := v } ∧
    exec (.timSetWrite src .secHi v) s = .next { s with tim.setSecHi := v.setWidth 16 } ∧
    exec (.timSetWrite src .ofs v) s = .next { s with tim.setOfs := v })

/-- R51: While an apply is pending, a further APPLY and a write of TIM_SET set APPLY_STAT to BUSY and change nothing else; CANCEL withdraws
the apply and sets ABORTED; a CANCEL with none pending sets BAD_ARG and changes nothing else. -/
def Obligations.PendingApplyStands : Prop :=
  (∀ src b r v s, Settled s → s.hears src = true → s.timWritable → s.tim.pend.isSome = true →
    exec (.applyStep src b) s = .next { s with tim.applyStat := 0x01 } ∧
    exec (.applySlew src b) s = .next { s with tim.applyStat := 0x01 } ∧
    exec (.timSetWrite src r v) s = .next { s with tim.applyStat := 0x01 } ∧
    exec (.timCancel src) s = .next { s with tim.pend := none, tim.applyStat := 0x09 }) ∧
  (∀ src s, Settled s → s.hears src = true → s.timWritable → s.tim.pend = none → exec (.timCancel src) s = .next { s with tim.applyStat := 0x03 })

/-- R48: In GPTP and FABRIC an APPLY sets PROTECTED and changes nothing else; in PPS a STEP at the second is accepted, and any other APPLY
sets BAD_ARG and changes nothing else. An apply that is pending is R51's. -/
def Obligations.ApplyUnderReference : Prop :=
  (∀ src b s, Settled s → s.hears src = true → s.timWritable → s.tim.pend = none → s.tim.discPend = none → s.tim.discAct = 1 ∨ s.tim.discAct = 3 →
    exec (.applyStep src b) s = .next { s with tim.applyStat := 0x04 } ∧
    exec (.applySlew src b) s = .next { s with tim.applyStat := 0x04 }) ∧
  (∀ src b s, Settled s → s.hears src = true → s.timWritable → s.tim.pend = none → s.tim.discPend = none → s.tim.discAct = 2 →
    exec (.applyStep src false) s = .next { s with tim.applyStat := 0x03 } ∧
    exec (.applySlew src b) s = .next { s with tim.applyStat := 0x03 }) ∧
  (∀ src v s, Settled s → s.hears src = true → s.timWritable → s.tim.pend = none → s.tim.discPend = none → s.tim.discAct = 2 → s.tim.staged = some v →
    exec (.applyStep src true) s = .next { s with
      tim.pend := some { slew := false, value := v, rate := 0 }, tim.applyStat := 0x00 })

/-- R49, R52, R43, R44, R55: A pending STEP replaces device time at the second boundary and is counted and recorded; a slew ends when its
offset is spent. The silence of the reference brings HOLDOVER, which keeps F and drops P; HOLD_LIM of it ends LOCKED. An edge of PPS_IN
outside the window of a locked device is counted and ignored, any other is accepted; PPS_OUT rises on a second boundary; TIMECLK_OK follows
TIMECLK. The model's own choice here: the instants of silence and the step by PPS are the model's: logs 29 and 30. -/
def Obligations.TimeEffects : Prop :=
  (∀ v s, Settled s → s.tim.discPend = none → s.tim.now = [] → s.tim.pend = some { slew := false, value := Int.ofNat v, rate := 0 } →
    s.tim.fTerm = 0 → s.tim.pTerm = 0 → s.tim.slewRest = 0 → s.tim.frac = 0 → s.tim.discAct = 0 → s.ldg.lstate = 0 →
    ∃ t, exec .applyAtSecondEffect s = .next t ∧
      t = { s with pins := t.pins, gctl := t.gctl, tim := t.tim, tck := t.tck, arc := t.arc, ldg := t.ldg, flt := t.flt, hst := t.hst, out := t.out, freeCtr := t.freeCtr } ∧ t.tim.pend = none ∧ t.tim.dev = v ∧ t.tim.locked = true ∧
      t.tim.stepCnt = satInc s.tim.stepCnt ∧ t.tim.stepSrc = 0 ∧ t.tim.stepNew = BitVec.ofNat 64 v ∧ s.tim.mono ≤ t.tim.mono) ∧
  (∀ s, Settled s → QuietClock s → s.tim.slewRest ≠ 0 → 0 < s.tim.slewPpm →
    ∃ t, exec .slewEnd s = .next t ∧ t.tim.slewRest = 0 ∧ TimePasses s t) ∧
  (∀ s, Settled s → QuietClock s → s.tim.holdover = false → s.tim.discAct = 1 → ∃ t, exec .referenceSilence s = .next t ∧
      t = { s with tim := t.tim, hst := t.hst, out := t.out } ∧
    t.tim.holdover = true ∧ t.tim.fTerm = s.tim.fTerm ∧ t.tim.pTerm = 0 ∧ t.tim.holdMono = t.tim.mono ∧
    s.tim.refMono + 375000000 ≤ t.tim.mono ∧ t.tim.locked = s.tim.locked) ∧
  (∀ s, Settled s → QuietClock s → s.tim.holdover = true → s.tim.locked = true → ∃ t, exec .holdoverLimit s = .next t ∧
      t = { s with pins := t.pins, gctl := t.gctl, tim := t.tim, arc := t.arc, ldg := t.ldg, flt := t.flt, hst := t.hst, out := t.out, freeCtr := t.freeCtr } ∧
    t.tim.locked = false ∧ s.tim.holdMono + s.im.time.holdLim * 1000000000 ≤ t.tim.mono ∧
    t.gctl = { s.gctl with lockLost := decide (s.mode = .run) && !s.im.tick.freeRunOk }) ∧
  (∀ s, Settled s → s.heedsPps = true → s.tim.locked = true →
    s.im.time.ppsWin * 1000 < (fromSecond (stampOf (s.tim.mono - s.filtPps) s)).natAbs →
    exec .ppsInEdge s = .next { s with tim.ppsRej := satInc s.tim.ppsRej }) ∧
  (∀ s, Settled s → s.heedsPps = true → s.tim.locked = false → s.ldg.lstate = 0 → ∃ t, exec .ppsInEdge s = .next t ∧
      t = { s with pins := t.pins, gctl := t.gctl, tim := t.tim, tck := t.tck, arc := t.arc, ldg := t.ldg, flt := t.flt, hst := t.hst, out := t.out, freeCtr := t.freeCtr } ∧
    t.tim.ppsAcc = satInc s.tim.ppsAcc ∧ t.tim.ppsRej = s.tim.ppsRej ∧ t.tim.refMono = s.tim.mono ∧ t.tim.holdover = false ∧
    (s.tim.ppsStep = true → t.tim.ppsStep = false ∧ t.tim.stepCnt = satInc s.tim.stepCnt ∧ t.tim.stepSrc = 2)) ∧
  (∀ s, Settled s → QuietClock s → s.tim.ppsEn = true → s.tim.locked = true → s.armedOn = true → s.pins.outputsIdle = false →
    ∃ t, exec .ppsOutPulse s = .next t ∧
      t = { s with pins := t.pins, tim := t.tim, out := t.out } ∧ t.out = .ppsOut ((s.tim.dev / 1000000000 + 1) * 1000000000) :: s.out ∧
      t.pins.ppsOutUntil = t.tim.mono + s.im.time.ppsWidth * 1000000) ∧
  (∀ b s, Settled s → s.heedsPps = true → ∃ t, exec (.timeclkPresent b) s = .next t ∧ t.tim.timeclkOk = b ∧
    t = { s with tim := { s.tim with timeclkOk := b, tclkMono := t.tim.tclkMono } })

/-- R56, R411, R406, R62, R63, R414: POWER_ON takes OFF to HOLD with everything but fuses, archive and straps at its reset value; PORESET_N
and the loss of a supply take every other state to OFF, PORESET_N with the code word in progress completed. A pin reset enters HOLD, keeps
the monotonic counter, device time and the archive, clears every memory and counts itself; its release samples the straps and starts the
schedule, and changes nothing else. RESTART performs a soft reset under its key 0x5A, ends with KEY_ERROR under any other, and is rejected
with NOT_IN_STATE in SELFTEST and LOAD. The model's own choice here: what a torn word reads and what a reset keeps of the detectors is the
model's: logs 20 and 33. -/
def Obligations.ResetsAndOff : Prop :=
  (∀ m f s, s.mode = .off → ∃ t, exec (.powerOn m f) s = .next t ∧
      t = { State.reset with otp := t.otp, pins := t.pins, gctl := t.gctl, tim := t.tim, arc := t.arc, out := t.out, freeCtr := t.freeCtr, pending := t.pending, pwr := { State.reset.pwr with alertPin := s.pwr.alertPin, alert := s.pwr.alertPin, effective := t.pwr.effective } } ∧ t.mode = .hold ∧ t.gctl.prev = .off ∧ t.gctl.rstType = 0 ∧
    t.pins.mgrSel = m ∧ t.pins.fabAddr = f ∧ t.pins.faultPair = some (false, true) ∧ t.mem = [] ∧ t.tim = {} ∧ t.flt = {} ∧
    t.arc.words = s.arc.words ∧ t.arc.hdrs = s.arc.hdrs ∧ t.otp = { s.otp with keysOff := false } ∧ t.pending = s.pending) ∧
  (∀ s, s.mode ≠ .off → ∃ t, exec .poresetAssert s = .next t ∧
      t = { State.reset with otp := t.otp, pins := t.pins, gctl := t.gctl, arc := t.arc, flt := t.flt, out := t.out, freeCtr := t.freeCtr, pending := t.pending, pwr := { State.reset.pwr with alertPin := s.pwr.alertPin, alert := s.pwr.alertPin, effective := t.pwr.effective } } ∧ t.mode = .off ∧ t.pins.faultPair = none ∧
    t.arc.words = (finishWord s).arc.words ∧ t.arc.prog = none ∧ t.mem = [] ∧ t.pending = s.pending) ∧
  (∀ x s, s.mode ≠ .off → ∃ t, exec (.supplyLoss x) s = .next t ∧
      t = { State.reset with otp := t.otp, pins := t.pins, gctl := t.gctl, arc := t.arc, flt := t.flt, out := t.out, freeCtr := t.freeCtr, pending := t.pending, pwr := { State.reset.pwr with alertPin := s.pwr.alertPin, alert := s.pwr.alertPin, effective := t.pwr.effective } } ∧ t.mode = .off ∧ t.pins.faultPair = none ∧ t.arc.prog = none ∧
    t.mem = [] ∧ (s.arc.prog = none → t.arc.words = s.arc.words) ∧ t.pending = s.pending) ∧
  (∀ s, s.mode ≠ .off → s.mode ≠ .removal → s.pins.resetLow = false → s.pins.scan = none →
    ∃ t, exec .pinReset s = .next t ∧
      t = { State.reset with otp := t.otp, pins := t.pins, gctl := t.gctl, tim := t.tim, arc := t.arc, flt := t.flt, hst := t.hst, out := t.out, freeCtr := t.freeCtr, pending := t.pending, pwr := { State.reset.pwr with alertPin := s.pwr.alertPin, alert := s.pwr.alertPin, effective := t.pwr.effective } } ∧ t.mode = .hold ∧ t.gctl.rstType = 1 ∧ t.gctl.rstCount = satInc s.gctl.rstCount ∧
      t.gctl.prev = s.prevFor .hold ∧ t.pins.resetLow = true ∧ t.tim.mono = s.tim.mono ∧ t.tim.dev = s.tim.dev ∧ t.mem = [] ∧ t.mbx = {} ∧
      t.arc.words = (finishWord s).arc.words ∧ t.pending = s.pending) ∧
  (∀ m f s, Settled s → s.pins.resetLow = true → exec (.pinResetRelease m f) s = .next { s with
      pins.resetLow := false, pins.mgrSel := m, pins.fabAddr := f, gctl.t0 := s.tim.mono, gctl.holdGood := 0 }) ∧
  (∀ src s, s.hears src = true → s.mode ≠ .selftest → s.mode ≠ .load → s.pins.scan = none →
    ∃ t, exec (.restart src 0x5A) s = .next t ∧
      t = { State.reset with otp := t.otp, pins := t.pins, gctl := t.gctl, tim := t.tim, arc := t.arc, flt := t.flt, hst := t.hst, out := t.out, freeCtr := t.freeCtr, pending := t.pending, pwr := { State.reset.pwr with alertPin := s.pwr.alertPin, alert := s.pwr.alertPin, effective := t.pwr.effective } } ∧ t.mode = .hold ∧ t.gctl.rstType = 2 ∧ t.gctl.prev = s.prevFor .hold ∧
      t.gctl.rstCount = satInc s.gctl.rstCount ∧ t.tim.mono = s.tim.mono ∧ t.mem = []) ∧
  (∀ src key s, Settled s → s.hears src = true → s.mode ≠ .selftest → s.mode ≠ .load → key ≠ 0x5A →
    exec (.restart src key) s = .next { s with gctl.cmdStat := 0x05, gctl.cmdEcho := 0x06 }) ∧
  (∀ src key s, Settled s → s.hears src = true → s.mode = .selftest ∨ s.mode = .load → exec (.restart src key) s = .next { s with
    gctl.cmdStat := 0x02, gctl.cmdEcho := 0x06, gctl.rejectCnt := satInc s.gctl.rejectCnt
    gctl.lastReject := BitVec.ofNat 32 (s.mode.code.toNat * 0x10000000 + srcCode src * 0x4000000 + 0x1000000 + 6) })

/-- R64, R370, R374, R83, R84: The way from HOLD through SELFTEST to LOAD, and the ways back to HOLD with their reasons. A boot twin whose
header does not hold leads to a try of the other twin, which is reported; with both tried the device enters MAINT without an image, with the
reason of the twin. The model's own choice here: HOLD_REASON on entering SELFTEST is the model's: log 31; the twins of LOAD_DONE: log 36. -/
def Obligations.HoldSelftestLoad : Prop :=
  (∀ s, Settled s → QuietClock s → s.mode = .hold → s.pins.resetLow = false → s.pins.scan = none → s.gctl.holdReason.toNat < 3 →
    s.otp.variant ≠ 0 → (s.gctl.holdBad = false ∨ 9 ≤ s.gctl.holdGood) →
    ∃ t, exec (.holdCheck true true true) s = .next t ∧
      EnterKeeps s t ∧ t.grd = s.grd ∧ t.crd = s.crd ∧ t.tst = s.tst ∧ t.mem = s.mem ∧ t.mode = .selftest ∧ t.gctl.prev = .hold ∧ t.gctl.holdReason = 0 ∧
      t.clk.refclkOk = true) ∧
  (∀ p s, Settled s → QuietClock s → s.mode = .hold → s.pins.resetLow = false → s.pins.scan = none → s.gctl.holdReason.toNat < 3 →
    s.otp.variant ≠ 0 → ∃ t, exec (.holdCheck false p true) s = .next t ∧
      EnterKeeps s t ∧ t.grd = s.grd ∧ t.crd = s.crd ∧ t.tst = s.tst ∧ t.mem = s.mem ∧ t.mode = .hold ∧ t.gctl.holdReason = 1 ∧ t.gctl.holdGood = 0) ∧
  (∀ s, Settled s → s.mode = .selftest → ∃ t, exec (.conditionLost .refclk) s = .next t ∧
      EnterKeeps s t ∧ t.grd = s.grd ∧ t.arc = s.arc ∧ t.crd = s.crd ∧ t.tst = s.tst ∧ t.mem = s.mem ∧ t.freeCtr = s.freeCtr ∧ t.mode = .hold ∧ t.gctl.holdReason = 1 ∧
    t.clk.refclkOk = false) ∧
  (∀ s, Settled s → s.mode = .selftest → ∃ t, exec (.conditionLost .supply) s = .next t ∧
      EnterKeeps s t ∧ t.grd = s.grd ∧ t.arc = s.arc ∧ t.crd = s.crd ∧ t.tst = s.tst ∧ t.mem = s.mem ∧ t.freeCtr = s.freeCtr ∧ t.mode = .hold ∧ t.gctl.holdReason = 2) ∧
  (∀ a b n s, Settled s → s.mode = .selftest → s.planAdmitted = true → s.arc.markedList = [] → (a || b) = true → ∃ t, exec (.powerupPlanDone a b n) s = .next t ∧
      EnterKeeps s t ∧ t.grd = s.grd ∧ t.crd = s.crd ∧ t.clk = s.clk ∧ t.mem = s.mem ∧ t.freeCtr = s.freeCtr ∧ t.mode = .load ∧
    t.gctl.prev = .selftest ∧ t.arc.fw0 = a ∧ t.arc.fw1 = b ∧ t.tst.marginWarn = satAdd s.tst.marginWarn n) ∧
  (∀ n s, Settled s → s.mode = .selftest → s.planAdmitted = true → ∃ t, exec (.powerupPlanDone false false n) s = .next t ∧
      EnterKeeps s t ∧ t.grd = s.grd ∧ t.crd = s.crd ∧ t.clk = s.clk ∧ t.mem = s.mem ∧ t.freeCtr = s.freeCtr ∧ t.mode = .hold ∧
    t.gctl.holdReason = 5) ∧
  (∀ c i s, Settled s → s.mode = .selftest → ∃ t, exec (.powerupFail c i) s = .next t ∧
      EnterKeeps s t ∧ t.grd = s.grd ∧ t.arc = s.arc ∧ t.crd = s.crd ∧ t.clk = s.clk ∧ t.mem = s.mem ∧ t.freeCtr = s.freeCtr ∧ t.mode = .hold ∧ t.gctl.holdReason = 5 ∧
    t.tst.puCode = c ∧ t.tst.puIndex = i) ∧
  (∀ a b n s, Settled s → s.mode = .selftest → s.planAdmitted = false → exec (.powerupPlanDone a b n) s = .next s) ∧
  (∀ s, Settled s → s.mode = .load → s.gctl.tried = [.a] → headerOk ((s.showing []).arc.readBytes 0x08010000 32) = false →
    ∃ t, exec (.loadDone []) s = .next t ∧
      t.otp = s.otp ∧ t.cvt = s.cvt ∧ t.gpio = s.gpio ∧ t.crd = s.crd ∧ t.mbx = s.mbx ∧ t.shadows = s.shadows ∧ t.pending = s.pending ∧ t.mode = .maint ∧ t.gctl.noImage = true ∧ t.gctl.loadStat = 0x03 ∧ t.gctl.loadTwin = true ∧
      t.img.bootReasonB = 0x01 ∧ t.mem = []) ∧
  (∀ s, Settled s → s.mode = .load → s.gctl.tried = [] → (s.showing []).arc.newestSelector = none →
    headerOk ((s.showing []).arc.readBytes 0x00010000 32) = false → ∃ u, exec (.loadDone []) s = .next (settle u) ∧
      u = { s with gctl := u.gctl, img := u.img, arc := u.arc, flt := u.flt, mem := u.mem } ∧ u.mode = .load ∧
      u.gctl.tried = [.a] ∧ u.img.fallback = true ∧ u.img.bootReasonA = 0x01 ∧ u.flt.due = [(74, 0)])

/-- R56, R65, R67, R68, R59, R61, R11: The commands of GCTL in the states that permit them. A GCTL command in a state that does not permit
it has no effect but its rejection: NOT_IN_STATE and the echo, the count, and GCTL_LAST_REJECT with state, source, kind, page and code. A
plain write of a register in a block that is not live, or in a state that its row does not permit, changes nothing but the count of
rejections and GCTL_LAST_REJECT, which names state, source, page and offset. -/
def Obligations.GctlCommands : Prop :=
  (∀ src s, Settled s → s.hears src = true → s.mode = .run ∨ s.mode = .degraded → ∃ t, exec (.halt src) s = .next t ∧
      EnterKeeps s t ∧ t.grd = s.grd ∧ t.arc = s.arc ∧ t.crd = s.crd ∧ t.clk = s.clk ∧ t.tst = s.tst ∧ t.mem = s.mem ∧ t.freeCtr = s.freeCtr ∧ t.mode = .armed ∧
    t.gctl.held = true ∧ t.gctl.cmdStat = 0 ∧ t.gctl.cmdEcho = 0x01 ∧ t.tck = s.tck) ∧
  (∀ src s, Settled s → s.hears src = true → s.mode = .armed → exec (.go src) s = .next { s with
    gctl.held := false, gctl.cmdStat := 0, gctl.cmdEcho := 0x02 }) ∧
  (∀ src s, Settled s → s.hears src = true → s.mode = .safe → (∀ r ∈ s.flt.records, r.react ≠ 3) → ∃ t, exec (.recover src) s = .next t ∧
      EnterKeeps s t ∧ t.arc = s.arc ∧ t.crd = s.crd ∧ t.clk = s.clk ∧ t.tst = s.tst ∧ t.freeCtr = s.freeCtr ∧
    t.mode = .armed ∧ t.gctl.held = false ∧ t.gctl.cmdStat = 0 ∧ t.grd.frontEmpty = true) ∧
  (∀ src s, Settled s → s.hears src = true → s.mode = .safe → (∃ r ∈ s.flt.records, r.react = 3) → exec (.recover src) s = .next { s with
    gctl.cmdStat := 0x01, gctl.cmdEcho := 0x03 }) ∧
  (∀ src s, Settled s → s.hears src = true → s.mode = .armed ∨ s.mode = .safe ∨ s.mode = .quarantine → ∃ t, exec (.enterMaint src) s = .next t ∧
      EnterKeeps s t ∧ t.grd = s.grd ∧ t.arc = s.arc ∧ t.crd = s.crd ∧ t.clk = s.clk ∧ t.tst = s.tst ∧ t.mem = s.mem ∧ t.freeCtr = s.freeCtr ∧
    t.mode = .maint ∧ t.gctl.cmdStat = 0 ∧ t.gctl.cmdEcho = 0x04 ∧ t.img.stage ≠ 4) ∧
  (∀ src s, Settled s → s.hears src = true → ∃ t, exec (.clrCnt src) s = .next t ∧
      t = { s with gctl := t.gctl, tim := t.tim, tck := t.tck, sch := t.sch, cvt := t.cvt, cams := t.cams, eths := t.eths, cans := t.cans, spis := t.spis, aln := t.aln, ego := t.ego, grd := t.grd, outb := t.outb, arc := t.arc, crd := t.crd, inc := t.inc, ldg := t.ldg, fab := t.fab, pwr := t.pwr, clk := t.clk, flt := t.flt, tst := t.tst, hst := t.hst } ∧ t.gctl.rejectCnt = 0 ∧ t.gctl.lastReject = 0 ∧
    t.gctl.cmdStat = 0 ∧ t.mode = s.mode ∧ (s.live 6 = true → t.flt.cnt = Vector.replicate 6 0) ∧ t.tim.dev = s.tim.dev) ∧
  (∀ src s, Settled s → s.hears src = true → s.mode ≠ .run → s.mode ≠ .degraded →
    exec (.halt src) s = .next { s with
      gctl.cmdStat := 0x02, gctl.cmdEcho := 0x01, gctl.rejectCnt := satInc s.gctl.rejectCnt
      gctl.lastReject := BitVec.ofNat 32 (s.mode.code.toNat * 0x10000000 + srcCode src * 0x4000000 + 0x1000000 + 1) }) ∧
  (∀ src a v row s, Settled s → s.hears src = true → a % 4 = 0 → cmdWrite src a v = none → s.absent a = false → blockOf a = some row →
    row ≠ 0 → s.live row = false ∨ rowLegal row s.mode = false → exec (.registerWrite src a v true) s = .next { s with
      gctl.rejectCnt := satInc s.gctl.rejectCnt
      gctl.lastReject := BitVec.ofNat 32 (s.mode.code.toNat * 0x10000000 + srcCode src * 0x4000000 + a) })

/-- R414, R59: CNT_CLR clears the counters of its own block, the tick's and a camera receiver's among them, and leaves every other block; in
a block that is not live it is rejected as a register write. The model's own choice here: which registers are counters is the model's: log
15. -/
def Obligations.CounterClears : Prop :=
  (∀ src b s, Settled s → s.hears src = true → s.mode.fromArmed = true → s.absent (cntAddr b) = false → s.live (cntRow b) = true →
    ∃ t, exec (.cntClr src b) s = .next t ∧ t.gctl = s.gctl ∧ t.mem = s.mem ∧ t.out = s.out ∧ t.img = s.img ∧ t.gpio = s.gpio) ∧
  (∀ src s, Settled s → s.hears src = true → s.mode.fromArmed = true → exec (.cntClr src .tck) s = .next { s with
    tck.ovrCnt := 0, tck.emitLate := 0, tck.rephaseCnt := 0, tck.inEarly := 0, tck.inMiss := 0, tck.cancelCnt := 0 }) ∧
  (∀ src r s, Settled s → s.hears src = true → s.mode.fromArmed = true → r < 8 →
    exec (.cntClr src (.cam r)) s = .next (s.setCam r { s.cam r with cnt := Vector.replicate 10 0 })) ∧
  (∀ src s, Settled s → s.hears src = true → s.mode = .hold ∨ s.mode = .selftest ∨ s.mode = .load → exec (.cntClr src .tck) s = .next { s with
    gctl.rejectCnt := satInc s.gctl.rejectCnt
    gctl.lastReject := BitVec.ofNat 32 (s.mode.code.toNat * 0x10000000 + srcCode src * 0x4000000 + 2 * 0x1000) })

/-- R84, R85, R86, R87, R88: The checks of a twin end. At LOAD, a twin that passes and whose payloads match their digests runs, and the
device enters ARMED, unless a fault record then leads elsewhere. IMG_STAGE names a twin other than the running one and protects its sectors;
a header word that is UNCORRECTABLE ends it with CRC_ERROR. IMG_VERIFY protects the payload sectors of the candidate; verification leaves
the running image as it is, and ends VERIFIED, or STAGED with a reason. The model's own choice here: IMG_STAT.REASON after IMG_STAGE and
IMG_VERIFY: log 36; a candidate without a known digest: log 37; LOAD and VERIFY are checked in one step: log 94. -/
def Obligations.ImageCommands : Prop :=
  (∀ e t s, Settled s → s.mode = .load → twinToTry (s.showing e) = t → TwinHolds t (s.showing e) →
    PayloadsHold (twinImage t (s.showing e)).payloads (s.showing e).arc → RecordsPermit (twinImage t (s.showing e)) s →
    ∃ u, exec (.loadDone e) s = .next (settle u) ∧
      u.otp = s.otp ∧ u.cvt = s.cvt ∧ u.gpio = s.gpio ∧ u.crd = s.crd ∧ u.mbx = s.mbx ∧ u.shadows = s.shadows ∧ u.pending = s.pending ∧ u.mode = .armed ∧ u.img.run = some (twinImage t (s.showing e)) ∧ u.img.runTwin = t ∧
      u.gctl.loadStat = 0x00 ∧ u.gctl.loadTwin = decide (t = .b) ∧ u.arc.base0 = (twinImage t (s.showing e)).arcArea.wp0 ∧
      u.arc.base1 = (twinImage t (s.showing e)).arcArea.wp1 ∧ u.arc.locked = (s.arc.locked || (twinImage t (s.showing e)).arcArea.lockAtBoot) ∧
      u.tck.src = BitVec.ofNat 2 (twinImage t (s.showing e)).tick.initSrc) ∧
  (∀ src w s, Settled s → s.hears src = true → s.mode.fromArmed = true → s.img.run.isSome = true → s.img.runTwin = w →
    exec (.imgStage src w) s = .next { s with img.stat := 0x04 }) ∧
  (∀ src w s, Settled s → s.hears src = true → s.mode.fromArmed = true → s.img.run.isSome = false ∨ s.img.runTwin ≠ w →
    s.img.stage = 0 ∨ s.img.stage = 1 ∨ s.img.stage = 3 → headerFail w s = none →
    ∃ u, exec (.imgStage src w) s = .next (settle u) ∧
      u = { s with gctl := u.gctl, img := u.img, arc := u.arc, flt := u.flt, hst := u.hst, out := u.out } ∧ u.img.stage = 1 ∧ u.img.stgTwin = w ∧ u.img.stat = 0x00 ∧ u.img.reason = 0x00 ∧
      u.img.cand = none ∧ u.arc.over0 = overlayOf (twinSectors w) false ∧ u.arc.over1 = overlayOf (twinSectors w) true ∧
      u.arc.words = s.arc.words ∧ u.img.run = s.img.run ∧ u.mode = s.mode) ∧
  (∀ src w s, Settled s → s.hears src = true → s.mode.fromArmed = true → s.img.run.isSome = false ∨ s.img.runTwin ≠ w →
    s.img.stage = 0 ∨ s.img.stage = 1 ∨ s.img.stage = 3 → s.arc.uncorrIn (twinBase w) 32 = true →
    ∃ u, exec (.imgStage src w) s = .next (settle u) ∧
      u = { s with gctl := u.gctl, img := u.img, arc := u.arc, flt := u.flt, hst := u.hst, out := u.out } ∧ u.img.stage = s.img.stage ∧ u.img.stat = 0x06 ∧ u.img.reason = 0x0B ∧
      u.img.cand = s.img.cand ∧ u.arc.words = s.arc.words ∧ u.img.run = s.img.run ∧ u.mode = s.mode) ∧
  (∀ src s, Settled s → s.hears src = true → s.mode.fromArmed = true → s.img.stage = 1 → ∃ t, exec (.imgVerify src) s = .next t ∧
      t = { s with gctl := t.gctl, img := t.img, arc := t.arc } ∧
    t.img.stage = 2 ∧ t.img.stat = 0x00 ∧ t.img.verifyBytes = 0 ∧ t.img.run = s.img.run ∧
    t.arc.over0 = overlayOf (twinSectors s.img.stgTwin ++ payloadSectors (twinImage s.img.stgTwin s).payloads) false ∧
    t.arc.over1 = overlayOf (twinSectors s.img.stgTwin ++ payloadSectors (twinImage s.img.stgTwin s).payloads) true ∧
    t.arc.words = s.arc.words ∧ t.mode = s.mode) ∧
  (∀ src s, Settled s → s.hears src = true → s.mode.fromArmed = true → s.img.stage ≠ 1 →
    exec (.imgVerify src) s = .next { s with img.stat := 0x03 }) ∧
  (∀ e w im s, Settled s → MemoryOk s → s.img.stage = 2 → s.img.fillBad = false → s.img.stgTwin = w → TwinHolds w (s.showing e) →
    twinImage w (s.showing e) = im → hotRuleOk s.im im = true → fabricCompatible im s = true →
    PayloadsHold (changedPayloads s.im im) (s.showing e).arc →
    ∃ u, exec (.verifyDone e) s = .next (settle u) ∧
      u = { s with img := u.img, arc := u.arc, flt := u.flt, hst := u.hst, mem := u.mem, out := u.out } ∧ u.img.stage = 3 ∧ u.img.stat = 0x00 ∧ u.img.cand = some im ∧
      u.img.stgDigest = im.hdr.digest ∧ u.img.run = s.img.run ∧ u.img.runTwin = s.img.runTwin ∧ u.img.verifyFail = s.img.verifyFail ∧
      u.arc.words = s.arc.words ∧ u.arc.over0 = s.arc.over0 ∧ u.arc.over1 = s.arc.over1 ∧
      ∀ a, (∀ p ∈ changedPayloads s.im im, ∀ b, p.addr = some b → a < b ∨ b + p.length ≤ a) → Memory.get u.mem a = Memory.get s.mem a) ∧
  (∀ e w s, Settled s → s.img.stage = 2 → s.img.fillBad = false → s.img.stgTwin = w → (s.showing e).arc.uncorrIn (twinBase w) 32 = false →
    headerOk ((s.showing e).arc.readBytes (twinBase w) 32) = false →
    ∃ u, exec (.verifyDone e) s = .next (settle u) ∧
      u = { s with img := u.img, arc := u.arc, flt := u.flt, hst := u.hst, mem := u.mem, out := u.out } ∧ u.img.stage = 1 ∧ u.img.stat = 0x03 ∧ u.img.reason = 0x01 ∧ u.img.cand = none ∧
      u.img.verifyFail = satInc s.img.verifyFail ∧ u.img.run = s.img.run ∧ u.arc.over0 = overlayOf (twinSectors w) false ∧
      u.arc.over1 = overlayOf (twinSectors w) true ∧ u.arc.words = s.arc.words ∧ u.mem = s.mem) ∧
  (∀ e s, Settled s → s.img.stage = 2 → s.img.fillBad = true → ∃ u, exec (.verifyDone e) s = .next (settle u) ∧
      u = { s with img := u.img, arc := u.arc, flt := u.flt, hst := u.hst, mem := u.mem, out := u.out } ∧ u.img.stage = 1 ∧
    u.img.stat = 0x06 ∧ u.img.reason = 0x0B ∧ u.img.cand = none ∧ u.img.verifyFail = satInc s.img.verifyFail ∧ u.img.run = s.img.run ∧
    u.arc.words = s.arc.words ∧ u.mem = s.mem)

/-- R106, R107, R110, R115: A task whose inputs, time and outputs are ready joins the released tasks on its core, and an idle core starts
the task that it chooses. A task that ends frees its core, is counted with its cycles, and writes the token of its output for its tick.
Cycles beyond WCET are counted once per run, on the core and in all, and reported to detector 53; the task goes on. The model's own choice
here: the end of a task and its kernel are the model's: logs 9, 43 and 44. -/
def Obligations.TasksAndTokens : Prop :=
  (∀ id d c s, Settled s → QuietClock s → s.im.task id = some d → d.queueIn = false → (∀ j ∈ s.jobs, j.task ≠ d.id) →
    s.computing = true → s.taskDone d.id s.tck.index = false → s.inputsReady d s.tck.index = true →
    s.outsFree d s.tck.index = true → s.qoutFree d = true → s.edgeBefore (s.tck.boundMono + d.releaseOfs * 1000) = false →
    s.placeOf d = some (some c) → s.coreTested c = false → ∃ t, exec (.taskRelease id) s = .next t ∧
      t = { s with tim := t.tim, sch := t.sch, cams := t.cams, flt := t.flt, hst := t.hst, out := t.out } ∧
      t.sch.ready = s.sch.ready ++ [jobOf d (some c) s.tck.index []] ∧ s.tck.boundMono + d.releaseOfs * 1000 ≤ t.tim.mono ∧
      t.sch.cores = s.sch.cores) ∧
  (∀ n j p s, Settled s → s.coreUsable n = true → s.coreTested n = false → (s.core n).job = none → s.mode.ticks = true →
    chooseJob n s = some (j, p) → (s.taskOf j).kind ≠ 2 → ∃ t k, exec (.taskStart n) s = .next t ∧
      t = { s with sch := t.sch, flt := t.flt, mem := t.mem } ∧ (t.core n).job = some k ∧
      k.task = j.task ∧ k.tick = j.tick ∧ k.startMono = s.tim.mono + (if s.pwr.grants.getLsbD n then s.pwr.relockUntil - s.tim.mono else 0) ∧ (t.core n).slotPos = p ∧
      (t.core n).stalled = !s.pwr.grants.getLsbD n ∧ t.sch.ready = s.sch.ready.erase j ∧ t.mem = s.mem) ∧
  (∀ n c j o s, Settled s → QuietClock s → n < 48 → (s.core n).job = some j → j.solve = none → (s.core n).stalled = false →
    s.edgeBefore (max j.startMono s.pwr.relockUntil + ceilDiv (c * 1000) (max 1 s.clk.coreMhz)) = false →
    (s.taskOf j).outs = [o] → (s.taskOf j).kind ≠ 3 → (s.taskOf j).kind ≠ 5 → (s.taskOf j).queueIn = false → c ≤ (s.taskOf j).wcet →
    ∃ t, exec (.taskEnd n c []) s = .next t ∧
      t = { s with tim := t.tim, sch := t.sch, cvt := t.cvt, cams := t.cams, aln := t.aln, ego := t.ego, grd := t.grd, flt := t.flt, hst := t.hst, out := t.out, freeCtr := t.freeCtr } ∧ (t.core n).job = none ∧ (t.core n).tasksRun = satInc (s.core n).tasksRun ∧
      (t.core n).busyCyc = satAdd (s.core n).busyCyc c ∧ t.taskDone (s.taskOf j).id j.tick = true ∧
      t.token o j.gen = some (newToken s o j.gen j.oldest j.mask j.vote)) ∧
  (∀ n c j s, Settled s → n < 48 → (s.core n).job = some j → (s.core n).stalled = false → (s.taskOf j).wcet < c → j.wcetSeen = false →
    ∃ u, exec (.wcetExceed n c) s = .next (settle u) ∧
      u = { s with sch := u.sch, flt := u.flt, hst := u.hst, out := u.out } ∧ u.flt.due = [(53, BitVec.ofNat 32 n)] ∧
      (u.core n).wcetExceed = satInc (s.core n).wcetExceed ∧ u.sch.wcetCnt = satInc s.sch.wcetCnt ∧
      (u.core n).job = some { j with wcetSeen := true })

/-- R134, R135, R136, R137: A step of a solve ends before its deadline, the solve goes on with what the step computed, and an output element
that saturates for the first time in it is counted; a deadline that finds a solve between its steps ends it PARTIAL, HARD, and reports
detector 56. The model's own choice here: how the values between the stored ones are held, and where a solve stands at its deadline, are the
model's: log 47. -/
def Obligations.SolveStepsAndDeadline : Prop :=
  (∀ n x j r s, Settled s → n < 48 → s.solving n = some (j, r) → s.tim.mono < r.deadline → (stepSolve (s.taskOf j) j.tick x r s).1.result = .none →
    ∃ t, exec (.solveStepEnd n x) s = .next t ∧
      t = { s with sch := t.sch, flt := t.flt, freeCtr := t.freeCtr } ∧ (t.core n).job = some { j with solve := some (stepSolve (s.taskOf j) j.tick x r s).1 } ∧
      (∀ d, (stepSolve (s.taskOf j) j.tick x r s).2 = [d] → (s.outFmt (s.taskOf j) d.out).cls < 16 →
        tget (t.core n).satCls (s.outFmt (s.taskOf j) d.out).cls = satAdd (tget (s.core n).satCls (s.outFmt (s.taskOf j) d.out).cls) 1)) ∧
  (∀ n c j r s, Settled s → QuietClock s → n < 48 → (s.core n).job = some j → j.solve = some r → r.result = .none →
    s.edgeBefore r.deadline = false → r.entry.single = false → (r.entry.direct = true → r.step0 = true) → c.stood = .elsewhere →
    ∃ u, exec (.solveDeadline n c) s = .next (settle u) ∧
      u = { s with tim := u.tim, sch := u.sch, flt := u.flt, freeCtr := u.freeCtr } ∧ u.flt.due = [(56, BitVec.ofNat 32 n)] ∧
      (u.core n).job = some { j with solve := some (deadlineResult (s.taskOf j) j.tick r c s).1 } ∧
      (deadlineResult (s.taskOf j) j.tick r c s).1.result = .partialResult ∧ (deadlineResult (s.taskOf j) j.tick r c s).1.hard = true ∧
      (deadlineResult (s.taskOf j) j.tick r c s).1.current = r.current ∧ r.deadline ≤ u.tim.mono)

/-- R97, R99, R105: A host write of TAIL one entry ahead posts that entry; an index outside the ring is refused with BAD_ARG; the TAIL of a
queue with another producer is not the host's. An entry posted stands in the ring at the old producer index, and no other byte of memory
changes; a full ring drops it and counts the drop. The peek registers show the entry of a declared slot as the scoreboard holds it, and
BAD_ARG for a slot that is not declared; the scoreboard itself stays. The model's own choice here: BAD_ARG for a TAIL outside the ring and
for an undeclared slot is the model's: log 40. -/
def Obligations.QueuesAndScoreboard : Prop :=
  (∀ src q v s, Settled s → s.hears src = true → s.mode.fromArmed = true → q < 256 → (s.im.queue q).prod = 8 →
    tailSteps (s.im.queue q) (s.que q).tail v = some 1 → 1 ≤ s.room q → ∃ t, exec (.queueTailWrite src q v) s = .next t ∧
      t = { s with gctl := t.gctl, sch := t.sch, aln := t.aln, hst := t.hst, mem := t.mem, out := t.out } ∧
      (t.que q).tail = (s.im.queue q).next (s.que q).tail ∧ (t.que q).posted = satInc (s.que q).posted ∧ (t.que q).stat = 0 ∧
      (t.que q).head = (s.que q).head ∧ (t.que q).drop = (s.que q).drop) ∧
  (∀ src q v s, Settled s → s.hears src = true → s.mode.fromArmed = true → q < 256 → (s.im.queue q).prod = 8 →
    tailSteps (s.im.queue q) (s.que q).tail v = none →
    exec (.queueTailWrite src q v) s = .next (s.setQue q { s.que q with stat := 0x03 })) ∧
  (∀ src q v s, Settled s → s.hears src = true → s.mode.fromArmed = true → q < 256 → (s.im.queue q).prod ≠ 8 →
    exec (.queueTailWrite src q v) s = .next s) ∧
  (∀ q b s, Memory.wf s.mem = true → q < 256 → s.fill q < (s.im.queue q).size →
    Memory.read (postEntry q b s).1.mem ((s.im.queue q).entryAddr (s.que q).tail) 32 = fitBytes 32 b ∧
    (∀ a, a < (s.im.queue q).entryAddr (s.que q).tail ∨ (s.im.queue q).entryAddr (s.que q).tail + 32 ≤ a →
      Memory.get (postEntry q b s).1.mem a = Memory.get s.mem a) ∧
    ((postEntry q b s).1.que q).tail = (s.im.queue q).next (s.que q).tail ∧ (postEntry q b s).2 = true) ∧
  (∀ q b s, (s.im.queue q).size ≤ s.fill q →
    postEntry q b s = (s.setQue q { s.que q with drop := satInc (s.que q).drop }, false)) ∧
  (∀ src w e d s, Settled s → s.hears src = true → s.mode.fromArmed = true → s.im.slot w.toNat = some d → exec (.scoreboardPeek src w e) s = .next { s with
    sch.peekSlot := w, sch.peekEntry := e, sch.peekStat := 0x00, sch.peekDouble := d.double
    sch.peek := alookup {} s.sch.tokens (2 * w.toNat + b2n (d.double && e)) }) ∧
  (∀ src w e s, Settled s → s.hears src = true → s.mode.fromArmed = true → s.im.slot w.toNat = none → exec (.scoreboardPeek src w e) s = .next { s with
    sch.peekSlot := w, sch.peekEntry := e, sch.peekStat := 0x03 })

/-- R130: The test port converts one value under CVT_TEST_CFG with the rules of the conversion unit, and touches no context; a configuration
that names no conversion is refused with BAD_ARG. The model's own choice here: BAD_ARG leaves OUT and FLAGS: log 46. -/
def Obligations.ConversionTestPort : Prop :=
  (∀ src v s, Settled s → s.hears src = true → s.mode.fromArmed = true → (cvtCfg s.cvt.testCfg.toNat).bad = false →
    exec (.cvtTestConvert src v) s = .next { s with
      cvt.testOut := (convert (cvtCfg s.cvt.testCfg.toNat) v).1, cvt.testFlags := (convert (cvtCfg s.cvt.testCfg.toNat) v).2
      cvt.testStat := 0x00 }) ∧
  (∀ src v s, Settled s → s.hears src = true → s.mode.fromArmed = true → (cvtCfg s.cvt.testCfg.toNat).bad = true →
    exec (.cvtTestConvert src v) s = .next { s with cvt.testStat := 0x03 })

/-- R150, R151, R153, R173, R148, R154: A frame start is stamped and opens the frame of the tick that its capture stamp belongs to; a line
of the open frame enters the line ring and nothing else of memory changes; the frame end closes the frame and counts it. An error at the
start of a transmission, a generic short packet, a header whose error is corrected or not, and a frame end without an open frame are counted
on their receiver, and nothing else happens but that the receiver has seen HS. The model's own choice here: the order of the causes of a
refusal is the model's: log 49. -/
def Obligations.CameraPorts : Prop :=
  (∀ rx vc no b d s, Settled s → s.mode.posts = true → s.camBound rx = true → rx < 8 → vc < 4 → s.bindingsOf rx vc = [b] →
    (s.cam rx).fenced = false → tget (s.cam rx).opens b = none → s.im.stream (s.binding rx b).stream = some d → d.gather = true →
    (s.binding rx b).capAdj = 0 → s.tim.dev < 2 ^ 64 → s.tck.ticked = true → s.tck.bound ≤ s.tim.dev →
    inWindow d s.tim.dev (s.tck.bound + s.period) = true → (s.strm (s.binding rx b).stream).assigned.contains (s.tck.index + 1) = false →
    ∃ t, exec (.csiFrameStart rx vc no .clean) s = .next t ∧
      t = { s with sch := t.sch, cams := t.cams, aln := t.aln, hst := t.hst, mem := t.mem, out := t.out, freeCtr := t.freeCtr } ∧ (t.cam rx).hs = true ∧ (t.cam rx).fsStamp = BitVec.ofNat 64 s.tim.dev ∧
      tget (t.cam rx).opens b = some {
        gen := genOf (s.tck.index + 1), tick := s.tck.index + 1, capture := BitVec.ofNat 64 s.tim.dev,
        arrival := BitVec.ofNat 64 s.tim.dev, off := s.offset, frameNo := no } ∧ t.mem = s.mem) ∧
  (∀ rx vc dt b f bytes s, Settled s → Memory.wf s.mem = true → s.mode.posts = true → s.camBound rx = true → rx < 8 → b < 4 → dt ≠ 0x12 →
    (s.bindingsOf rx vc).find? (fun b => (s.binding rx b).dt = dt) = some b → tget (s.cam rx).opens b = some f → f.drop = false →
    f.line + 1 < (s.binding rx b).height → bytes.length = (s.binding rx b).lineLen → f.damaged ≤ (s.binding rx b).lineErrMax →
    linesUsed rx b f s < (s.binding rx b).lringLines → f.line + 1 - f.sent ≠ groupOf s (s.binding rx b) →
    ∃ t, exec (.csiLine rx vc dt .clean true bytes) s = .next t ∧
      t = { s with sch := t.sch, cams := t.cams, aln := t.aln, flt := t.flt, hst := t.hst, mem := t.mem, out := t.out, freeCtr := t.freeCtr } ∧ tget (t.cam rx).opens b = some { f with line := f.line + 1 } ∧
      Memory.read t.mem ((s.binding rx b).ringBase + tget (s.cam rx).pos b * (s.binding rx b).lineStep) bytes.length = bytes ∧
      (∀ a, a < (s.binding rx b).ringBase + tget (s.cam rx).pos b * (s.binding rx b).lineStep ∨
        (s.binding rx b).ringBase + tget (s.cam rx).pos b * (s.binding rx b).lineStep + bytes.length ≤ a →
        Memory.get t.mem a = Memory.get s.mem a)) ∧
  (∀ rx vc b f s, Settled s → s.mode.posts = true → s.camBound rx = true → rx < 8 → vc < 4 → b < 4 → s.bindingsOf rx vc = [b] →
    tget (s.cam rx).opens b = some f → f.drop = false → f.line = (s.binding rx b).height →
    ∃ t, exec (.csiFrameEnd rx vc .clean) s = .next t ∧
      t = { s with sch := t.sch, cams := t.cams, aln := t.aln, flt := t.flt, hst := t.hst, mem := t.mem, out := t.out, freeCtr := t.freeCtr } ∧ tget (t.cam rx).opens b = none ∧
      tget (t.cam rx).cnt 0 = satInc (tget (s.cam rx).cnt 0)) ∧
  (∀ rx s, Settled s → s.mode.ticks = true → s.camBound rx = true → rx < 8 →
    exec (.csiSotError rx) s = .next (s.setCam rx { s.cam rx with cnt := tinc (s.cam rx).cnt 8 })) ∧
  (∀ rx s, Settled s → s.mode.posts = true → s.camBound rx = true → rx < 8 →
    exec (.genericShortPacket rx ⟨.generic, .clean⟩) s = .next (s.setCam rx { s.cam rx with hs := true, cnt := tinc (s.cam rx).cnt 6 }) ∧
    exec (.genericShortPacket rx ⟨.lineStart, .clean⟩) s = .next (s.setCam rx { s.cam rx with hs := true }) ∧
    exec (.genericShortPacket rx ⟨.lineStart, .corrected⟩) s = .next (s.setCam rx { s.cam rx with hs := true, cnt := tinc (s.cam rx).cnt 2 })) ∧
  (∀ rx k s, Settled s → s.mode.posts = true → s.camBound rx = true → rx < 8 → exec (.genericShortPacket rx ⟨k, .uncorrectable⟩) s = .next
    (s.setCam rx { s.cam rx with hs := true, cnt := tinc (s.cam rx).cnt 3 })) ∧
  (∀ rx vc b s, Settled s → s.mode.posts = true → s.camBound rx = true → rx < 8 → vc < 4 → s.bindingsOf rx vc = [b] →
    tget (s.cam rx).opens b = none →
    exec (.csiFrameEnd rx vc .clean) s = .next (s.setCam rx { s.cam rx with hs := true, cnt := tinc (s.cam rx).cnt 7 }))

/-- R155, R156, R157, R158, R159, R41: A frame with a bad FCS is counted and dropped; a frame that a match entry takes is counted and posted
to the queue of its stream; a link that comes up clears its report, one that goes down is counted and reported. A sync of the followed
grandmaster is a time measurement, by its stamp at the pin; a measurement of the peer delay starts with a request of the MAC's and ends with
the answer, half of what the four stamps leave; a partner's request is answered, with the stamps at the pin of its arrival and of the
answer. The model's own choice here: what RX_FRAMES counts is the model's: log 51. -/
def Obligations.EthernetPort : Prop :=
  (∀ p bytes s, Settled s → p < 4 → s.ethOn p = true → (s.eth p).link = true → 64 ≤ bytes.length → bytes.length ≤ 2048 →
    exec (.ethFrameRx p false bytes) s = .next (s.setEth p { s.eth p with cnt := tinc (s.eth p).cnt 1 })) ∧
  (∀ p bytes m q s, Settled s → p < 4 → s.ethOn p = true → (s.eth p).link = true → 64 ≤ bytes.length → bytes.length ≤ 2048 →
    (readFrame (bytes.take (bytes.length - 4))).etherType ≠ 0x8808 → (readFrame (bytes.take (bytes.length - 4))).etherType ≠ 0x88F7 →
    (readFrame (bytes.take (bytes.length - 4))).double = false → s.mode.posts = true → (s.eth p).fenced = false →
    (s.ethPart p).entries.find? (fun m => entryMatches m (readFrame (bytes.take (bytes.length - 4)))) = some m → m.capFmt = 0 →
    s.im.streamQueue m.stream = some q → q < 256 → s.fill q = 0 → 0 < (s.im.queue q).size →
    bytes.length - 4 ≤ (s.im.queue q).dataLen → ∃ t, exec (.ethFrameRx p true bytes) s = .next t ∧
      t = { s with sch := t.sch, eths := t.eths, aln := t.aln, hst := t.hst, mem := t.mem, out := t.out, freeCtr := t.freeCtr } ∧
      tget (t.eth p).cnt 0 = satInc (tget (s.eth p).cnt 0) ∧ (t.que q).posted = satInc (s.que q).posted ∧
      (t.que q).tail = (s.im.queue q).next (s.que q).tail ∧ (t.que q).drop = (s.que q).drop) ∧
  (∀ p s, Settled s → s.ethOn p = true → exec (.ethLinkChange p .up) s = .next (levelOff (66 + p)
    (s.setEth p { s.eth p with link := true, anDone := true, speedBad := false }))) ∧
  (∀ p s, Settled s → p < 4 → s.ethOn p = true → (s.eth p).link = true → ∃ u, exec (.ethLinkChange p .down) s = .next (settle u) ∧
      u = { s with eths := u.eths, flt := u.flt } ∧
    u.flt.due = [(66 + p, BitVec.ofNat 32 p)] ∧ (u.eth p).link = false ∧ tget (u.eth p).cnt 11 = satInc (tget (s.eth p).cnt 11)) ∧
  (∀ p r s, Settled s → p < 4 → s.gptpOn p = true → s.tim.discAct = 1 → s.im.time.gptpPort = p → s.ldg.lstate = 0 →
    ∃ t, exec (.gptpMessage p (.sync r)) s = .next t ∧
      t = { s with pins := t.pins, gctl := t.gctl, tim := t.tim, tck := t.tck, eths := t.eths, arc := t.arc, ldg := t.ldg, flt := t.flt, hst := t.hst, out := t.out, freeCtr := t.freeCtr } ∧ t.tim.offset = BitVec.ofInt 32 (clampSigned 32 (s.ptpRx p - r)) ∧
      t.tim.refMono = s.tim.mono ∧ t.tim.holdover = false ∧ tget (t.eth p).cnt 9 = satInc (tget (s.eth p).cnt 9)) ∧
  (∀ p a b c s, Settled s → p < 4 → s.gptpOn p = true → (s.eth p).pdelayT1 = some a → exec (.gptpMessage p (.peerDelay b c)) s = .next
    (s.setEth p { s.eth p with
      cnt := tinc (s.eth p).cnt 9, asCapable := true, pdelayT1 := none
      peerDelay := BitVec.ofInt 32 (roundDiv ((s.ptpRx p - a) - ((c : Int) - b)) 2) })) ∧
  (∀ p s, Settled s → p < 4 → s.gptpOn p = true → exec (.peerDelayMeasurement p) s = .next { s with
    eths := tset s.eths p { s.eth p with cnt := tinc (s.eth p).cnt 10, pdelayT1 := some (s.ptpTx p) }
    out := .gptp p none (s.ptpTx p) :: s.out }) ∧
  (∀ p s, Settled s → p < 4 → s.gptpOn p = true → exec (.gptpMessage p .peerRequest) s = .next { s with
    eths := tset s.eths p { s.eth p with cnt := tinc (tinc (s.eth p).cnt 9) 10 }
    out := .gptp p (some (s.ptpRx p)) (s.ptpTx p) :: s.out })

/-- R161, R162, R163, R164: A valid frame is acknowledged, its ESI bit recorded, and it is counted and posted to the stream of the first
filter that matches; an error is counted in its category and signalled by an error flag; a transmit error counter of 256 or more takes the
controller off the bus, which it may leave again where the image permits. The model's own choice here: the error counters are those of the
standard: log 52. -/
def Obligations.CanPort : Prop :=
  (∀ c i e z bytes f q s, Settled s → c < 2 → s.canOn c = true → (s.canPart c).restricted = false → (s.can c).fenced = false →
    (s.can c).rxErr.toNat ≤ 127 → s.mode.posts = true → (s.canPart c).filters.find? (fun f => filterMatches f i e) = some f →
    s.im.streamQueue f.stream = some q → q < 256 → s.fill q = 0 → 0 < (s.im.queue q).size → bytes.length ≤ (s.im.queue q).dataLen →
    ∃ t, exec (.canFrameRx c i e ⟨false, z⟩ bytes) s = .next t ∧
      t = { s with sch := t.sch, cans := t.cans, aln := t.aln, ego := t.ego, hst := t.hst, mem := t.mem, out := t.out, freeCtr := t.freeCtr } ∧ (t.can c).esi = z ∧ tget (t.can c).cnt 0 = satInc (tget (s.can c).cnt 0) ∧
      (t.que q).posted = satInc (s.que q).posted ∧ (t.que q).tail = (s.im.queue q).next (s.que q).tail ∧ Out.canAck c ∈ t.out) ∧
  (∀ c x s, Settled s → c < 2 → s.canOn c = true → (s.canPart c).restricted = false → (s.can c).txErr.toNat < 256 →
    ∃ t, exec (.canError c x .receiver) s = .next t ∧
      t = { s with cans := t.cans, flt := t.flt, out := t.out } ∧ tget (t.can c).cnt (canCat x) = satInc (tget (s.can c).cnt (canCat x)) ∧
      (t.can c).rxErr = BitVec.ofNat 8 (min 255 ((s.can c).rxErr.toNat + 1)) ∧ (t.can c).txErr = (s.can c).txErr ∧
      (t.can c).busOff = (s.can c).busOff ∧
      ((s.can c).fenced = false → t.out = .canErrorFlag c (decide ((s.can c).rxErr.toNat ≤ 127 ∧ (s.can c).txErr.toNat ≤ 127)) :: s.out)) ∧
  (∀ c x s, Settled s → c < 2 → s.canOn c = true → (s.canPart c).restricted = false → 248 ≤ (s.can c).txErr.toNat →
    ∃ u, exec (.canError c x .transmitter) s = .next (settle u) ∧
      u = { s with cans := u.cans, flt := u.flt, out := u.out } ∧ u.flt.due = [(70 + c, BitVec.ofNat 32 c)] ∧ (u.can c).busOff = true) ∧
  (∀ c s, Settled s → c < 2 → s.mode.ticks = true → (s.can c).busOff = true → (s.canPart c).busoffRec = true →
    exec (.canBusoffRecovery c) s = .next (levelOff (70 + c) (s.setCan c { s.can c with busOff := false, rxErr := 0, txErr := 0 })))

/-- R165, R166, R167, R168, R169: An edge of DRDY starts a transaction with the command bytes of the image, or is counted while one runs;
its end posts the entry to the stream; silence is counted once and reported. An edge of an input pin sets its level, its edge bit and its
stamp, less the filter's delay, and nothing else. The model's own choice here: the pin filter's delay is taken off the stamp: log 53. -/
def Obligations.SpiAndGpio : Prop :=
  (∀ n s, Settled s → n < 2 → s.spiOn n = true → (s.spi n).silent = false → (s.spi n).busy = false →
    ∃ t, exec (.drdyEdge n) s = .next t ∧
      t = { s with spis := t.spis, ego := t.ego, flt := t.flt, out := t.out } ∧ (t.spi n).busy = true ∧ (t.spi n).lastMono = s.tim.mono ∧
      (t.spi n).drdy = BitVec.ofNat 64 (s.tim.dev - 10 * s.im.ports.filtDrdy.getD n 0) ∧
      t.out = .spiStart n ((s.spiPart n).cmd.take (s.spiPart n).cmdLen) :: s.out) ∧
  (∀ n s, Settled s → n < 2 → s.spiOn n = true → (s.spi n).silent = false → (s.spi n).busy = true →
    exec (.drdyEdge n) s = .next (s.setSpi n { s.spi n with lastMono := s.tim.mono, cnt := tinc (s.spi n).cnt 1 })) ∧
  (∀ n bytes q s, Settled s → n < 2 → s.spiOn n = true → (s.spi n).busy = true → s.mode.posts = true →
    s.im.streamQueue (s.spiPart n).stream = some q → q < 256 → s.fill q = 0 → 0 < (s.im.queue q).size →
    (s.spiPart n).readLen ≤ (s.im.queue q).dataLen → ∃ t, exec (.spiTransferEnd n bytes) s = .next t ∧
      t = { s with sch := t.sch, spis := t.spis, aln := t.aln, ego := t.ego, hst := t.hst, mem := t.mem, out := t.out, freeCtr := t.freeCtr } ∧ (t.spi n).busy = false ∧
      tget (t.spi n).cnt 0 = satInc (tget (s.spi n).cnt 0) ∧ (t.que q).posted = satInc (s.que q).posted ∧
      (t.que q).tail = (s.im.queue q).next (s.que q).tail) ∧
  (∀ n s, Settled s → QuietClock s → n < 2 → s.mode.ticks = true → (s.spiPart n).en = true → (s.spi n).silent = false →
    ∃ u, exec (.drdyTimeout n) s = .next (settle u) ∧
      u = { s with tim := u.tim, spis := u.spis, flt := u.flt } ∧ u.flt.due = [(72 + n, BitVec.ofNat 32 n)] ∧ (u.spi n).silent = true ∧
      tget (u.spi n).cnt 2 = satInc (tget (s.spi n).cnt 2)) ∧
  (∀ n s, Settled s → s.pinHeard n = true → exec (.gpioEdge n true) s = .next { s with
    gpio.inp := s.gpio.inp ||| BitVec.twoPow 16 n, gpio.edge := s.gpio.edge ||| BitVec.twoPow 32 n
    gpio.rise := tset s.gpio.rise n (BitVec.ofNat 64 (s.tim.dev - 10 * s.im.ports.filtGpio.getD n 0)) }) ∧
  (∀ n s, Settled s → s.pinHeard n = true → exec (.gpioEdge n false) s = .next { s with
    gpio.inp := s.gpio.inp &&& ~~~(BitVec.twoPow 16 n), gpio.edge := s.gpio.edge ||| BitVec.twoPow 32 (16 + n)
    gpio.fall := tset s.gpio.fall n (BitVec.ofNat 64 (s.tim.dev - 10 * s.im.ports.filtGpio.getD n 0)) })

/-- R176, R177, R180, R181, R275: At its limit a gathered stream that has delivered nothing is masked, one that has delivered is not; at the
close the registrar sets the last and the sticky mask and writes the gather token of the tick with the mask. An update, which the warden and
then the judgement of DECEL follow, puts one entry in front of the history of at most 512, with the instant and the flags of the update, and
counts itself; HIST_SEL copies the entry of that age into the window, or zeros where the history holds none. The model's own choice here: a
history entry that was not made reads as zeros: log 55. -/
def Obligations.GatherAndEgoMotion : Prop :=
  (∀ n d s, Settled s → QuietClock s → s.im.stream n = some d → d.gather = true → d.kind ≠ 0 → s.gatherOpen = true →
    s.registers = true → s.edgeBefore (s.tck.boundMono + d.limit * 1000) = false → (s.strm d.stream).delivered = false →
    ∃ t, exec (.streamLimit n) s = .next t ∧
      t.aln = { s.aln with streams := tset s.aln.streams d.stream { s.strm d.stream with masked := true } } ∧
      s.tck.boundMono + d.limit * 1000 ≤ t.tim.mono ∧ TimePasses { s with aln := t.aln } t) ∧
  (∀ n d s, Settled s → QuietClock s → s.im.stream n = some d → s.gatherOpen = true → s.registers = true →
    s.edgeBefore (s.tck.boundMono + d.limit * 1000) = false → (s.strm d.stream).delivered = true →
    ∃ t, exec (.streamLimit n) s = .next t ∧ TimePasses s t) ∧
  (∀ s, Settled s → QuietClock s → s.gatherOpen = true → s.registers = true → s.isManager = false →
    ∃ u, exec .gatherClose s = .next (settle u) ∧
      u = { s with tim := u.tim, tck := u.tck, sch := u.sch, cams := u.cams, aln := u.aln, ego := u.ego, fab := u.fab, hst := u.hst, mem := u.mem, out := u.out, freeCtr := u.freeCtr } ∧ u.tck.gDone = true ∧ u.tck.phase = 1 ∧ u.aln.gen = genOf s.tck.index ∧
      u.aln.maskAcc = s.aln.maskAcc ||| u.aln.maskLast ∧
      ((∀ v, s.im.vote = some v → v.voteSlot ≠ s.im.streams.gatherSlot) → (∀ e, s.im.ego = some e → e.sumSlot ≠ s.im.streams.gatherSlot) →
        ∃ x, u.token s.im.streams.gatherSlot (genOf s.tck.index) = some x ∧ x.mask = u.aln.maskLast ∧ x.isVoid = false)) ∧
  (∀ e s, Settled s → QuietClock s → s.im.ego = some e → s.mode.fromArmed = true → s.edgeBefore (nextUpdate s) = false →
    ∃ u, exec .egoUpdate s = .next (settle (if (settle u).mode.fromArmed = true then decelJudge (egoAx e (settle u)) (settle u) else settle u)) ∧
      u = { s with tim := u.tim, ego := u.ego, flt := u.flt } ∧ tget u.ego.cnt 0 = satInc (tget s.ego.cnt 0) ∧ nextUpdate s ≤ u.tim.mono ∧
      ∃ p, u.ego.hist = (p :: s.ego.hist).take 512 ∧ p.mono = u.tim.mono ∧ p.flags = u.ego.flags) ∧
  (∀ src a p s, Settled s → s.hears src = true → s.mode.fromArmed = true → s.ego.hist[BitVec.toNat a]? = some p →
    ∃ t, exec (.egoHistSelect src a) s = .next t ∧
      t = { s with gctl := t.gctl, ego := t.ego } ∧ t.ego.histSel = a ∧ (∀ i < 16, tget t.ego.histWords i = (poseWords p).getD i 0) ∧
      t.ego.hist = s.ego.hist) ∧
  (∀ src a s, Settled s → s.hears src = true → s.mode.fromArmed = true → s.ego.hist.length ≤ BitVec.toNat a →
    ∃ t, exec (.egoHistSelect src a) s = .next t ∧
      t = { s with gctl := t.gctl, ego := t.ego } ∧ t.ego.histSel = a ∧ ∀ i < 16, tget t.ego.histWords i = 0)

/-- R25, R26, R33, R30, R206, R209: On time, the grid buffers exchange roles and the front grid takes the token's mask and vote; an overrun
keeps the front grid, counts, and is reported to a warden that logs it; a tick of ARMED has neither. A route that is ready takes its frame,
the first of a channel stamps it; at the Quiet edge every frame that still waits is discarded and counted. The model's own choice here: the
warden takes an overrun within the Emit edge: log 59. -/
def Obligations.EmitAndFrames : Prop :=
  (∀ x s, Settled s → QuietClock s → s.tck.ticked = true → s.mode = .run ∨ s.mode = .degraded → s.tck.gDone = true →
    s.tck.eDone = false → s.tck.compute = true → s.gridToken = some x →
    ∃ t, exec .emitEdge s = .next t ∧
      t = { s with gctl := t.gctl, tim := t.tim, tck := t.tck, sch := t.sch, cams := t.cams, grd := t.grd, outb := t.outb, inc := t.inc, flt := t.flt, hst := t.hst, mem := t.mem, out := t.out, freeCtr := t.freeCtr } ∧ t.grd.front = !s.grd.front ∧ t.grd.exchCnt = satInc s.grd.exchCnt ∧
      t.grd.frontIdx = s.tck.index ∧ t.grd.mask = x.mask ∧ t.grd.vote = x.vote ∧ t.grd.oldest = x.oldest ∧ t.tck.consecOvr = 0 ∧
      t.tck.ovrCnt = s.tck.ovrCnt ∧ t.tck.eDone = true ∧ t.tck.phase = 2) ∧
  (∀ s, Settled s → QuietClock s → s.tck.ticked = true → s.mode = .run → s.tck.gDone = true → s.tck.eDone = false →
    s.tck.compute = true → s.gridToken = none → (satInc s.tck.consecOvr).toNat < s.im.tick.ovrLimit → mapOf s 50 = (0, 0, 0) →
    ∃ u, exec .emitEdge s = .next (settle u) ∧
      u = { s with gctl := u.gctl, tim := u.tim, tck := u.tck, sch := u.sch, cams := u.cams, grd := u.grd, outb := u.outb, inc := u.inc, flt := u.flt, hst := u.hst, mem := u.mem, out := u.out, freeCtr := u.freeCtr } ∧ tget u.flt.cnt 0 = satInc (tget s.flt.cnt 0) ∧
      u.grd.front = s.grd.front ∧ u.grd.exchCnt = s.grd.exchCnt ∧ u.tck.ovrCnt = satInc s.tck.ovrCnt ∧
      u.tck.consecOvr = satInc s.tck.consecOvr ∧ u.tck.staleLast = true ∧ u.mode = .run) ∧
  (∀ s, Settled s → QuietClock s → s.tck.ticked = true → s.mode = .armed → s.tck.gDone = true → s.tck.eDone = false →
    s.tck.compute = false → ∃ t, exec .emitEdge s = .next t ∧
      t = { s with tim := t.tim, tck := t.tck, sch := t.sch } ∧ t.tck.eDone = true) ∧
  (∀ c r w s, Settled s → s.outb.waits.find? (fun w => w.chan = c && w.route = r) = some w → s.tck.eDone = true →
    s.tck.qDone = false → s.mode.ticks = true → s.tim.mono ≤ s.tck.qMono → routeReady w s = true →
    ∃ t, exec (.frameAccept c r) s = .next t ∧
      t = { s with eths := t.eths, outb := t.outb, inc := t.inc, hst := t.hst, mem := t.mem, out := t.out } ∧
      t.outb.waits.map (fun v => (v.chan, v.route)) = (s.outb.waits.filter (fun v => !(v.chan = c && v.route = r))).map (fun v => (v.chan, v.route)) ∧ (t.chan c).stamped = true ∧
      ((s.chan c).stamped = false → (t.chan c).lastOut = BitVec.ofNat 64 s.tim.dev) ∧
      ((s.chan c).stamped = true → (t.chan c).lastOut = (s.chan c).lastOut)) ∧
  (∀ s, Settled s → QuietClock s → s.tck.ticked = true → s.mode.ticks = true → s.tck.eDone = true → s.tck.qDone = false →
    ∃ t, exec .quietEdge s = .next t ∧
      t = { s with tim := t.tim, tck := t.tck, eths := t.eths, outb := t.outb, hst := t.hst } ∧ t.outb.waits = [] ∧ t.tck.qDone = true ∧ t.tck.phase = 3 ∧
      t.tck.emitLate = s.outb.waits.foldl (fun n _ => satInc n) s.tck.emitLate)

/-- R274, R275, R276, R278, R279, R280: In RUN, DEGRADED and SAFE an enabled trigger of the host or of the pin opens a record while the
vitrine is READY; the other edge of the pin opens none; in another state a host trigger is rejected. A committed block leaves the ring; a
record whose blocks are all committed is sealed with cause 0; PREPARING ends in READY or FULL; an unsealed record found at start is sealed
with cause 3. The model's own choice here: blocks and trigger entries are programmed in one step: log 18. -/
def Obligations.Vitrine : Prop :=
  (∀ src s, Settled s → s.hears src = true → s.mode = .run ∨ s.mode = .degraded ∨ s.mode = .safe → s.incOn = true → s.incSec.trigEn.testBit 3 = true →
    s.inc.vstate = .ready → s.arc.prog = none → s.incSec.post ≠ 0 → s.inc.ringFill < 128 →
    ∃ t r, exec (.hostTrigger src) s = .next t ∧
      t = { s with gctl := t.gctl, arc := t.arc, inc := t.inc, fab := t.fab, flt := t.flt, hst := t.hst, out := t.out, freeCtr := t.freeCtr } ∧ t.inc.vstate = .capture ∧ t.inc.recSeq = s.inc.recSeq + 1 ∧ t.inc.hostStat = 0x00 ∧
      t.inc.trigCount = 1 ∧ t.inc.record = some r ∧ r.seq = t.inc.recSeq ∧ r.capturing = true ∧ t.mode = s.mode) ∧
  (∀ s, Settled s → s.pinHeard 15 = true → s.im.ports.incTrig = true → s.mode = .run ∨ s.mode = .degraded ∨ s.mode = .safe →
    s.incOn = true → s.incSec.trigEn.testBit 1 = true → s.inc.vstate = .ready → s.arc.prog = none → s.incSec.post ≠ 0 → s.inc.ringFill < 128 →
    ∃ t, exec (.incTrigEdge (!s.incSec.pinFall)) s = .next t ∧
      t = { s with gpio := t.gpio, arc := t.arc, inc := t.inc, fab := t.fab, flt := t.flt, hst := t.hst, out := t.out, freeCtr := t.freeCtr } ∧ t.inc.vstate = .capture ∧ t.inc.recSeq = s.inc.recSeq + 1 ∧
      t.inc.trigCount = 1) ∧
  (∀ s, Settled s → s.pinHeard 15 = true → s.im.ports.incTrig = true →
    ∃ t, exec (.incTrigEdge s.incSec.pinFall) s = .next t ∧
      t = { s with gpio := t.gpio, arc := t.arc, inc := t.inc, fab := t.fab, flt := t.flt, hst := t.hst, out := t.out, freeCtr := t.freeCtr } ∧ t.inc = s.inc ∧ t.arc = s.arc) ∧
  (∀ src s, Settled s → s.hears src = true → s.mode = .armed ∨ s.mode = .quarantine ∨ s.mode = .maint → exec (.hostTrigger src) s = .next { s with
    inc.hostStat := 0x02, gctl.rejectCnt := satInc s.gctl.rejectCnt
    gctl.lastReject := BitVec.ofNat 32 (s.mode.code.toNat * 0x10000000 + srcCode src * 0x4000000 + 0x1000000 + 0xA000) }) ∧
  (∀ r b s, Settled s → s.mode.fromArmed = true → s.arc.prog = none → s.inc.record = some r → r.capturing = true → nextBlock s = some b →
    ∃ t, exec .vitrineBlockCommit s = .next t ∧
      t = { s with arc := t.arc, inc := t.inc, flt := t.flt, hst := t.hst, out := t.out, freeCtr := t.freeCtr } ∧ t.inc.committed = s.inc.committed + 1 ∧
      t.inc.ring = s.inc.ring.filter (fun c => c ≠ b) ∧ t.inc.vstate = s.inc.vstate) ∧
  (∀ s, Settled s → s.mode.fromArmed = true → s.arrayFree = true → s.sealReady = true →
    ∃ u, exec .vitrineSeal s = .next (settle u) ∧
      u = { s with arc := u.arc, inc := u.inc, flt := u.flt, hst := u.hst, out := u.out, freeCtr := u.freeCtr } ∧ u.inc.record = none ∧ u.inc.records = satInc s.inc.records ∧ u.inc.lastCause = 0 ∧
      (u.inc.vstate = .ready ∨ u.inc.vstate = .full) ∧ u.inc.sealCnt = s.inc.sealCnt) ∧
  (∀ s, Settled s → s.mode.fromArmed = true ∨ s.mode = .load → s.arrayFree = true → s.inc.vstate = .preparing →
    ∃ u, exec .vitrinePrepare s = .next (settle u) ∧
      u = { s with arc := u.arc, inc := u.inc, flt := u.flt, hst := u.hst, out := u.out, freeCtr := u.freeCtr } ∧ (u.inc.vstate = .ready ∨ u.inc.vstate = .full) ∧ u.inc.record = s.inc.record) ∧
  (∀ f s, Settled s → s.mode.fromArmed = true → s.arc.prog = none → s.incOn = true → s.inc.record = none →
    newestRec (recordsIn s.arc s.incArea) = some f → f.isSealed = false → s.arc.bitErrs = [] →
    ∃ t, exec .vitrineStartSeal s = .next t ∧
      t = { s with arc := t.arc, inc := t.inc, flt := t.flt, hst := t.hst, out := t.out, freeCtr := t.freeCtr } ∧ t.inc.records = satInc s.inc.records ∧ t.inc.lastCause = 3 ∧
      t.inc.sealCnt = satInc s.inc.sealCnt)

/-- R284, R290, R291, R289, R293: Device time at the end of the open period closes it and opens the next; the backstop closes it where its
usage is reached first, and is counted; both restart ELAPSED. A checkpoint is written CKPT seconds after the last one and takes the next
SEQ; an APPEND takes a boundary that may be appended into the table, and refuses any other with BAD_ARG and no effect. The model's own
choice here: the instants let time pass to them: log 6. -/
def Obligations.Turnstile : Prop :=
  (∀ p b s, Settled s → s.mode ≠ .removal → s.backstopBefore s.tim.mono = false → s.ldg.on = true → s.tim.locked = true → s.ldg.period = some p → s.ldg.endOf p = some b → b ≤ s.tim.dev →
    s.ldg.holding s.tim.dev = some (p + 1) → ∃ u, exec .periodBoundary s = .next (settle u) ∧
      u = { s with pins := u.pins, gctl := u.gctl, tim := u.tim, tck := u.tck, arc := u.arc, ldg := u.ldg, flt := u.flt, hst := u.hst, out := u.out, freeCtr := u.freeCtr } ∧ u.ldg.period = some (p + 1) ∧
      u.ldg.elapsedNs = 0 ∧ u.ldg.closeCnt = satInc s.ldg.closeCnt ∧ u.ldg.skipCnt = s.ldg.skipCnt ∧
      u.ldg.backstopCnt = s.ldg.backstopCnt) ∧
  (∀ p b s, Settled s → s.mode ≠ .removal → s.backstopBefore s.tim.mono = false → s.ldg.on = true → s.tim.locked = true → s.ldg.period = none → s.ldg.bounds.head? = some b → b ≤ s.tim.dev →
    s.ldg.holding s.tim.dev = some p → ∃ u, exec .periodBoundary s = .next (settle u) ∧
      u = { s with pins := u.pins, gctl := u.gctl, tim := u.tim, tck := u.tck, arc := u.arc, ldg := u.ldg, flt := u.flt, hst := u.hst, out := u.out, freeCtr := u.freeCtr } ∧ u.ldg.period = some p ∧ u.ldg.elapsedNs = 0 ∧
      u.ldg.closeCnt = s.ldg.closeCnt) ∧
  (∀ p limit s, Settled s → s.mode ≠ .removal → s.ldg.on = true → s.tim.locked = false → s.ldg.period = some p → s.ldg.backstop = some limit →
    limit ≤ s.ldg.elapsedNs → s.edgeBefore s.tim.mono = false → ∃ u, exec .backstop s = .next (settle u) ∧
      u = { s with pins := u.pins, gctl := u.gctl, tim := u.tim, tck := u.tck, arc := u.arc, ldg := u.ldg, flt := u.flt, hst := u.hst, out := u.out, freeCtr := u.freeCtr } ∧
      u.ldg.period = some (p + 1) ∧ u.ldg.elapsedNs = 0 ∧ u.ldg.closeCnt = satInc s.ldg.closeCnt ∧
      u.ldg.backstopCnt = satInc s.ldg.backstopCnt) ∧
  (∀ s, Settled s → QuietClock s → s.mode ≠ .removal → s.ldg.on = true → s.arc.prog = none →
    s.edgeBefore (s.ldg.ckptMono + s.ledgerSec.ckpt * 1000000000) = false → ∃ u, exec .checkpoint s = .next (settle u) ∧
      u = { s with tim := u.tim, arc := u.arc, ldg := u.ldg, flt := u.flt, hst := u.hst, out := u.out, freeCtr := u.freeCtr } ∧
      u.ldg.ckptMono = u.tim.mono ∧ s.ldg.ckptMono + s.ledgerSec.ckpt * 1000000000 ≤ u.tim.mono ∧
      (s.ldg.lstate = 2 → s.ledgerSec.features.length ≤ 16 → s.arc.weak = [] → (∀ i < 4, s.arc.isBlank (ledgerAddr (s.ldg.writePt + i)) = true) →
        u.ldg.seq = s.ldg.seq + 1)) ∧
  (∀ src s, Settled s → s.hears src = true → s.mode.fromArmed = true → s.ldg.bounds.length ≤ 64 →
    s.ldg.mayAppend s.ldg.bnd.toNat = true → ∃ u, exec (.appendBound src) s = .next (settle u) ∧
      u = { s with gctl := u.gctl, arc := u.arc, ldg := u.ldg, flt := u.flt, hst := u.hst, out := u.out, freeCtr := u.freeCtr } ∧ u.ldg.appendStat = 0x00 ∧
      u.ldg.bounds.getLast? = some s.ldg.bnd.toNat ∧ u.ldg.bounds.length = min 64 (s.ldg.bounds.length + 1)) ∧
  (∀ src s, Settled s → s.hears src = true → s.mode.fromArmed = true → s.ldg.mayAppend s.ldg.bnd.toNat = false →
    exec (.appendBound src) s = .next { s with ldg.appendStat := 0x03 })

/-- R232: The sequence takes 0xA9, 0x6C within 1 µs, the command and the address in this order and from one source; another source is
counted and changes nothing; a wrong key ends it with KEY_ERROR, a late write with KEY_ERROR or TIMEOUT. The model's own choice here: the
ends of the times and the bits of the address are the model's: log 60. -/
def Obligations.ArchiveSequence : Prop :=
  (∀ src s, Settled s → s.hears src = true → s.mode.fromArmed = true → s.arc.seq = none → exec (.arcKey src 0xA9) s = .next { s with
    arc.seq := some { src := src, step := .key1, key1 := s.tim.mono, key2 := 0 } }) ∧
  (∀ src q s, Settled s → s.hears src = true → s.mode.fromArmed = true → s.arc.seq = some q → q.src = src → q.step = .key1 → s.tim.mono ≤ q.key1 + 1000 →
    exec (.arcKey src 0x6C) s = .next { s with arc.seq := some { q with key2 := s.tim.mono, step := .key2 } }) ∧
  (∀ src k q s, Settled s → s.hears src = true → s.mode.fromArmed = true → s.arc.seq = some q → q.src = src → q.step = .key1 → s.tim.mono ≤ q.key1 + 1000 →
    k ≠ 0x6C → exec (.arcKey src k) s = .next { s with arc.seq := none, arc.stat := 0x05, arc.echo := 0, arc.cnt := tinc s.arc.cnt 3 }) ∧
  (∀ src k q s, Settled s → s.hears src = true → s.mode.fromArmed = true → s.arc.seq = some q → q.src ≠ src → q.step = .key1 → s.tim.mono ≤ q.key1 + 1000 →
    exec (.arcKey src k) s = .next { s with arc.seqBusy := satInc s.arc.seqBusy }) ∧
  (∀ src v q s, Settled s → s.hears src = true → s.mode.fromArmed = true → s.arc.seq = some q → q.src = src → q.step = .key2 →
    s.tim.mono ≤ q.key2 + 1000000 → exec (.arcSequenceWrite src .cmd v) s = .next { s with
      arc.seq := some { q with step := .cmd (BitVec.setWidth 8 v) } }) ∧
  (∀ src v c q s, Settled s → s.hears src = true → s.mode.fromArmed = true → s.arc.seq = some q → q.src = src → q.step = .cmd c → arcWords c ≠ 0 →
    s.tim.mono ≤ q.key2 + 1000000 → exec (.arcSequenceWrite src .addr v) s = .next { s with
      arc.seq := some { q with step := .addr c (BitVec.toNat v % 0x10000000) [] (arcWords c) } }) ∧
  (∀ q s, Settled s → QuietClock s → s.arc.seq = some q → q.step = .key1 → s.edgeBefore (q.key1 + 1000) = false →
    ∃ t, exec .arcKeyTimeout s = .next t ∧ t.arc = { s.arc with seq := none, stat := 0x05, echo := 0, cnt := tinc s.arc.cnt 3 } ∧
      q.key1 + 1000 ≤ t.tim.mono ∧ TimePasses { s with arc := t.arc } t) ∧
  (∀ q s, Settled s → QuietClock s → s.arc.seq = some q → q.step ≠ .key1 → s.edgeBefore (q.key2 + 1000000) = false →
    ∃ t, exec .arcSeqTimeout s = .next t ∧ t.arc = { s.arc with seq := none, stat := 0x08, echo := q.step.code.getD 0, cnt := tinc s.arc.cnt 3 } ∧
      q.key2 + 1000000 ≤ t.tim.mono ∧ TimePasses { s with arc := t.arc } t)

/-- R235, R251: PROGRAM_WORD begins the program of a BLANK word of a sector that is not protected, and ends with PROGRAM_TWICE and no effect
on any other word; its end stores the word. The model's own choice here: PROGRAM_TWICE ends at once: log 61. -/
def Obligations.ProgramWord : Prop :=
  (∀ src a b i ds v s, AwaitsLastWord src 0x10 a ds s → ds.length = 7 → a % 32 = 0 → sectorOf a = some (b, i) →
    s.fixedArea b i = false → s.arc.wp b i = false → s.arrayFree = true → s.devRuns = false → s.reeraseDue b = false → s.crd.ejState = 0 →
    s.arc.isBlank a = true → ∃ t, exec (.programWord src v) s = .next t ∧
      t = { s with gctl := t.gctl, arc := t.arc, flt := t.flt, hst := t.hst, out := t.out } ∧ t.arc.words = s.arc.words ∧ t.arc.stat = 0x00 ∧
      t.arc.echo = 0x10 ∧ t.arc.seq = none ∧
      t.arc.prog = some { owner := .host src, code := 0x10, addr := a, data := bytesOf (ds ++ [v]), since := s.tim.mono }) ∧
  (∀ src a b i ds v s, AwaitsLastWord src 0x10 a ds s → ds.length = 7 → a % 32 = 0 → sectorOf a = some (b, i) →
    s.fixedArea b i = false → s.arc.wp b i = false → s.arrayFree = true → s.devRuns = false → s.reeraseDue b = false → s.crd.ejState = 0 →
    s.arc.isBlank a = false → ∃ t, exec (.programWord src v) s = .next t ∧
      t = { s with gctl := t.gctl, arc := t.arc, flt := t.flt, hst := t.hst, out := t.out } ∧ t.arc.words = s.arc.words ∧ t.arc.stat = 0x0B ∧
      t.arc.echo = 0x10 ∧ t.arc.prog = none ∧ tget t.arc.cnt 2 = satInc (tget s.arc.cnt 2)) ∧
  (∀ src a b i ds v s, AwaitsLastWord src 0x10 a ds s → ds.length = 7 → a % 32 = 0 → sectorOf a = some (b, i) →
    s.fixedArea b i = true ∨ s.arc.wp b i = true → exec (.programWord src v) s = .next { s with
      arc.seq := none, arc.stat := 0x04, arc.echo := 0x10, arc.cnt := tinc s.arc.cnt 4 }) ∧
  (∀ p s, Settled s → s.arc.prog = some p → p.since ≤ s.tim.mono → p.code = 0x10 → ∃ t, exec .programEnd s = .next t ∧
      t = { s with arc := t.arc, flt := t.flt, hst := t.hst, out := t.out, freeCtr := t.freeCtr } ∧ t.arc.prog = none ∧
    wfind t.arc.words (p.addr / 32) = some (.prog (fitBytes 32 p.data)) ∧
    (∀ k, k ≠ p.addr / 32 → wfind t.arc.words k = wfind s.arc.words k) ∧ t.arc.stat = 0x00 ∧ t.arc.done = true ∧
    tget t.arc.cnt 0 = satInc (tget s.arc.cnt 0) ∧ t.arc.hdrs = s.arc.hdrs)

/-- R237, R238, R239, R240, R241: An erase marks its sector INCOMPLETE and runs; its end leaves the sector BLANK with one more erase counted
and every word outside as it was; a marked sector is erased again. SUSPEND takes effect at once where the erase has run for 1 ms since it
started, else it is deferred until then; RESUME lets the erase run on. While a device operation holds the erase suspended, SUSPEND is
accepted at once (R242); one that waits for the minimum defers it. The model's own choice here: the header is marked when the erase starts:
log 61. -/
def Obligations.EraseSuspendResume : Prop :=
  (∀ src v b i s, AwaitsAddress src 0x20 s → BitVec.toNat v % 0x10000000 = sectorBase b i → sectorOf (sectorBase b i) = some (b, i) →
    8 ≤ i → s.fixedArea b i = false → s.arc.wp b i = false → s.arrayFree = true → s.devRuns = false → s.reeraseDue b = false → s.crd.ejState = 0 →
    ∃ t, exec (.eraseSector src v) s = .next t ∧
      t = { s with gctl := t.gctl, arc := t.arc, flt := t.flt, hst := t.hst, out := t.out } ∧ t.arc.erase = some { owner := .host src, code := 0x20, bank := b, index := i, since := s.tim.mono } ∧
      (t.arc.hdr b i).incomplete = true ∧ t.arc.words = s.arc.words ∧ t.arc.stat = 0x00 ∧ t.arc.echo = 0x20) ∧
  (∀ src v b i s, AwaitsAddress src 0x21 s → BitVec.toNat v % 0x10000000 = sectorBase b i → sectorOf (sectorBase b i) = some (b, i) →
    i < 8 → s.fixedArea b i = false → s.arc.wp b i = false → s.arrayFree = true → s.devRuns = false → s.reeraseDue b = false → s.crd.ejState = 0 →
    ∃ t, exec (.eraseParam src v) s = .next t ∧
      t = { s with gctl := t.gctl, arc := t.arc, flt := t.flt, hst := t.hst, out := t.out } ∧ t.arc.erase = some { owner := .host src, code := 0x21, bank := b, index := i, since := s.tim.mono } ∧
      (t.arc.hdr b i).incomplete = true ∧ t.arc.words = s.arc.words ∧ t.arc.stat = 0x00 ∧ t.arc.echo = 0x21) ∧
  (∀ src e s, Settled s → s.arc.erase = some e → e.suspended = false → e.byDevice = false → e.since ≤ s.tim.mono → e.owner = .host src → ∃ u, exec .eraseEnd s = .next (settle u) ∧
      u = { s with arc := u.arc, flt := u.flt, hst := u.hst, mbx := u.mbx, out := u.out } ∧
    u.arc.erase = none ∧ (u.arc.hdr e.bank e.index).incomplete = false ∧
    (u.arc.hdr e.bank e.index).count = satInc (s.arc.hdr e.bank e.index).count ∧ u.arc.stat = 0x00 ∧ u.arc.echo = e.code ∧
    (∀ k, sectorBase e.bank e.index / 32 ≤ k → k < sectorBase e.bank e.index / 32 + sectorSize e.index / 32 → wfind u.arc.words k = none) ∧
    (∀ k, k < sectorBase e.bank e.index / 32 ∨ sectorBase e.bank e.index / 32 + sectorSize e.index / 32 ≤ k →
      wfind u.arc.words k = wfind s.arc.words k)) ∧
  (∀ b i l s, Settled s → s.mode.fromArmed = true → s.arrayFree = true → s.arc.markedList = (b, i) :: l →
    ∃ u, exec .incompleteReerase s = .next (settle u) ∧
      u = { s with arc := u.arc, flt := u.flt } ∧ (u.arc.hdr b i).incomplete = false ∧
      tget u.arc.cnt 6 = satInc (tget s.arc.cnt 6)) ∧
  (∀ src v e s, AwaitsAddress src 0x30 s → BitVec.toNat v % 0x10000000 = 0 → s.arc.erase = some e → e.suspended = false →
    e.byDevice = false → e.pendHost = false → e.hostSusp = false → s.crd.ejState = 0 → e.since + 1000000 ≤ s.tim.mono → ∃ t e', exec (.suspend src v) s = .next t ∧
      t = { s with gctl := t.gctl, arc := t.arc, flt := t.flt, hst := t.hst, out := t.out } ∧ t.arc.erase = some e' ∧
      e'.suspended = true ∧ e'.runNs = e.runNs + (s.tim.mono - e.since) ∧ e'.bank = e.bank ∧ e'.index = e.index ∧ t.arc.stat = 0x00 ∧
      t.arc.echo = 0x30 ∧ tget t.arc.cnt 5 = satInc (tget s.arc.cnt 5)) ∧
  (∀ src v e s, AwaitsAddress src 0x30 s → BitVec.toNat v % 0x10000000 = 0 → s.arc.erase = some e → e.suspended = false →
    (e.byDevice = true → s.tim.mono < s.arc.devUntil) → e.pendHost = false → e.hostSusp = false → s.crd.ejState = 0 →
    s.tim.mono < e.minMet → exec (.suspend src v) s = .next { s with
      arc.seq := none, arc.erase := some { e with pendHost := true }, arc.stat := 0x0C, arc.echo := 0x30 }) ∧
  (∀ src v e s, AwaitsAddress src 0x30 s → BitVec.toNat v % 0x10000000 = 0 → s.arc.erase = some e → e.suspended = false →
    e.byDevice = true → e.since ≤ s.tim.mono → e.pendHost = false → e.hostSusp = false → s.crd.ejState = 0 → s.tim.mono < s.arc.devUntil →
    ∃ t, exec (.suspend src v) s = .next t ∧
      t = { s with gctl := t.gctl, arc := t.arc, flt := t.flt, hst := t.hst, out := t.out } ∧ t.arc.erase = some { e with hostSusp := true } ∧ t.arc.stat = 0x00 ∧ t.arc.echo = 0x30 ∧
      t.arc.done = true) ∧
  (∀ e s, Settled s → QuietClock s → s.arc.erase = some e → e.pendHost = true → e.suspended = false → e.byDevice = false →
    s.edgeBefore (e.since + 1000000) = false → ∃ t e', exec .suspendEffect s = .next t ∧
      t = { s with tim := t.tim, arc := t.arc, hst := t.hst, out := t.out } ∧ t.arc.erase = some e' ∧ e'.suspended = true ∧
      e'.pendHost = false ∧ e.since + 1000000 ≤ t.tim.mono ∧ t.arc.stat = 0x00 ∧ t.arc.done = true) ∧
  (∀ src v e s, AwaitsAddress src 0x31 s → BitVec.toNat v % 0x10000000 = 0 → s.arc.prog = none → s.devRuns = false →
    s.arc.erase = some e → e.suspended = true → e.byDevice = false → ∃ t e', exec (.resume src v) s = .next t ∧
      t = { s with gctl := t.gctl, arc := t.arc, flt := t.flt, hst := t.hst, out := t.out } ∧ t.arc.erase = some e' ∧ e'.suspended = false ∧ e'.runNs = e.runNs ∧
      e'.since = s.tim.mono ∧ t.arc.stat = 0x00 ∧ t.arc.echo = 0x31)

/-- R246, R247, R248, R243, R244, R245, R249, R219: READ_ID, READ_COUNTER and BLANK_CHECK leave their results; on a sector that awaits its
re-erase a command ends with BUSY (R238). SET_WP sets or clears the protection of a range of the bank's sectors until LOCK_WP; SWAP_BOOT
programs a selector word for the running twin, whose end leaves SEQ in the results. The model's own choice here: the erase of the other
selector sector is part of SWAP_BOOT: log 61. -/
def Obligations.ArchiveResults : Prop :=
  (∀ src v s, AwaitsAddress src 0x01 s → BitVec.toNat v % 0x10000000 = 0 → ∃ t, exec (.readId src v) s = .next t ∧
      t = { s with gctl := t.gctl, arc := t.arc, flt := t.flt, hst := t.hst, out := t.out } ∧
    tget t.arc.results 0 = 0x02564C59 ∧ tget t.arc.results 1 = 0x01FE0802 ∧ tget t.arc.results 2 = 0x00000320 ∧
    tget t.arc.results 3 = 0 ∧ t.arc.stat = 0x00 ∧ t.arc.echo = 0x01 ∧ t.arc.words = s.arc.words) ∧
  (∀ src v b i s, AwaitsAddress src 0x40 s → BitVec.toNat v % 0x10000000 = sectorBase b i → sectorOf (sectorBase b i) = some (b, i) →
    s.arrayFree = true → s.devRuns = false → (s.arc.hdr b i).incomplete = false → ∃ t, exec (.readCounter src v) s = .next t ∧
      t = { s with gctl := t.gctl, arc := t.arc, flt := t.flt, hst := t.hst, out := t.out } ∧
      (tget t.arc.results 0).toNat % 0x1000000 = (s.arc.hdr b i).count.toNat ∧ (tget t.arc.results 0).getLsbD 24 = false ∧ t.arc.stat = 0x00 ∧ t.arc.echo = 0x40 ∧ t.arc.hdrs = s.arc.hdrs) ∧
  (∀ src v b i s, AwaitsAddress src 0x40 s → BitVec.toNat v % 0x10000000 = sectorBase b i → sectorOf (sectorBase b i) = some (b, i) →
    s.arrayFree = true → s.devRuns = false → (s.arc.hdr b i).incomplete = true → exec (.readCounter src v) s = .next { s with
      arc.seq := none, arc.stat := 0x01, arc.echo := 0x40 }) ∧
  (∀ src v b i s, AwaitsAddress src 0x70 s → BitVec.toNat v % 0x10000000 = sectorBase b i → sectorOf (sectorBase b i) = some (b, i) →
    s.arrayFree = true → s.devRuns = false → (s.arc.hdr b i).incomplete = false → ∃ t, exec (.blankCheck src v) s = .next t ∧
      t = { s with gctl := t.gctl, arc := t.arc, flt := t.flt, hst := t.hst, out := t.out } ∧ t.arc.stat = 0x00 ∧ t.arc.echo = 0x70 ∧ t.arc.words = s.arc.words ∧
      t.arc.prog = some { owner := .host src, code := 0x70, addr := sectorBase b i, since := s.tim.mono }) ∧
  (∀ p s, Settled s → s.arc.prog = some p → p.since ≤ s.tim.mono → p.code = 0x70 → ∃ t, exec .blankCheckEnd s = .next t ∧
      t = { s with arc := t.arc, flt := t.flt, hst := t.hst, out := t.out, freeCtr := t.freeCtr } ∧ t.arc.prog = none ∧
    t.arc.words = s.arc.words ∧ t.arc.stat = 0x00 ∧ t.arc.done = true ∧
    (tget t.arc.results 0 = 1 ↔ ∀ a ∈ wordsIn p.addr, s.arc.isBlank a = true)) ∧
  (∀ src i d s, AwaitsLastWord src 0x50 (sectorBase false i) [] s → sectorOf (sectorBase false i) = some (false, i) → s.arc.locked = false →
    1 ≤ BitVec.toNat d % 1024 → i + BitVec.toNat d % 1024 ≤ 518 → BitVec.toNat d / 1024 % 0x200000 = 0 →
    ∃ t, exec (.setWp src d) s = .next t ∧
      t = { s with gctl := t.gctl, arc := t.arc, flt := t.flt, hst := t.hst, out := t.out } ∧ t.arc.stat = 0x00 ∧ t.arc.echo = 0x50 ∧ t.arc.base1 = s.arc.base1 ∧
      ∀ j < 544, t.arc.base0.getLsbD j = (if i ≤ j ∧ j < i + BitVec.toNat d % 1024 then BitVec.getLsbD d 31 else s.arc.base0.getLsbD j)) ∧
  (∀ src a b i d s, AwaitsLastWord src 0x50 a [] s → sectorOf a = some (b, i) → a = sectorBase b i → s.arc.locked = true →
    1 ≤ BitVec.toNat d % 1024 → i + BitVec.toNat d % 1024 ≤ 518 → BitVec.toNat d / 1024 % 0x200000 = 0 →
    exec (.setWp src d) s = .next { s with arc.seq := none, arc.stat := 0x04, arc.echo := 0x50, arc.cnt := tinc s.arc.cnt 4 }) ∧
  (∀ src v s, AwaitsAddress src 0x58 s → BitVec.toNat v % 0x10000000 = 0 → exec (.lockWp src v) s = .next { s with
    arc.seq := none, arc.locked := true, arc.stat := 0x00, arc.echo := 0x58 }) ∧
  (∀ src d pre k seq x y s, AwaitsLastWord src 0x60 0 [] s → BitVec.toNat d < 2 → s.arrayFree = true → s.devRuns = false → s.reeraseDue false = false →
    swapPrefix (if BitVec.getLsbD d 0 then .b else .a) s = some pre → s.arc.newestSelector = some (k, seq, x, y) → seq ≠ 0xFFFFFFFE →
    (s.arc.selectorPlace).1 = none → ∃ t, exec (.swapBoot src d) s = .next t ∧
      t = { s with gctl := t.gctl, arc := t.arc, flt := t.flt, hst := t.hst, out := t.out } ∧ t.arc.stat = 0x00 ∧ t.arc.echo = 0x60 ∧
      t.arc.prog = some { owner := .host src, code := 0x60, addr := 32 * (s.arc.selectorPlace).2,
                          data := selectorBytes (seq + 1) (if BitVec.getLsbD d 0 then .b else .a) pre, since := s.tim.mono } ∧ t.arc.words = s.arc.words) ∧
  (∀ p s, Settled s → s.arc.prog = some p → p.since ≤ s.tim.mono → p.code = 0x60 → p.addr / 32 % 256 ≠ 0 →
    s.arc.weak.contains (p.addr / 32) = false → ∃ t, exec .swapBootEnd s = .next t ∧
      t = { s with arc := t.arc, flt := t.flt, hst := t.hst, out := t.out, freeCtr := t.freeCtr } ∧
    t.arc.prog = none ∧ wfind t.arc.words (p.addr / 32) = some (.prog (fitBytes 32 p.data)) ∧ t.arc.stat = 0x00 ∧
    tget t.arc.results 0 = BitVec.ofNat 32 (at32 p.data 4))

/-- R250: CLEAR_STATUS, with its sequence completed, clears STAT, CMD_ECHO, WORN and DONE, closes the sequence and changes nothing else,
whatever runs or is suspended. -/
def Obligations.ClearStatusClears : Prop :=
  ∀ src v s, AwaitsAddress src 0x7F s → BitVec.toNat v % 0x10000000 = 0 → exec (.clearStatus src v) s = .next { s with
    arc.seq := none, arc.stat := 0, arc.echo := 0, arc.worn := false, arc.done := false }

/-- R217, R225, R229: A window read of a word without bit errors answers its data; a write of ECC_WARN sets the threshold, 0 leaves it; the
valid firmware copy repairs the other. The model's own choice here: the offset counts from the start of the window: log 62. -/
def Obligations.ArchiveWindow : Prop :=
  (∀ src o b i bytes s, Settled s → s.hears src = true → s.mode.fromArmed = true → o % 4 = 0 → sectorOf (s.winAddr o) = some (b, i) → s.hides b i = false →
    s.occupied b = false → s.arc.line3 = none → (s.arc.hdr b i).incomplete = false →
    wfind s.arc.words (s.winAddr o / 32) = some (.prog bytes) →
    ∃ t, exec (.arcWindowRead src ⟨o, true⟩ []) s = .next t ∧
      t = { s with arc := t.arc, flt := t.flt, hst := t.hst, out := t.out, freeCtr := t.freeCtr } ∧ t.arc.winLast = 0x00 ∧ t.arc.winTorn = false ∧
      t.out = .read src (0x02000000 + o) (BitVec.ofNat 32 (at32 bytes (s.winAddr o % 32))) :: s.out ∧ t.arc.words = s.arc.words) ∧
  (∀ src o e s, Settled s → s.hears src = true → s.mode.fromArmed = true → o % 4 = 0 → sectorOf (s.winAddr o) = none → ∃ t, exec (.arcWindowRead src ⟨o, true⟩ e) s = .next t ∧
      t = { s with arc := t.arc, flt := t.flt, hst := t.hst, out := t.out, freeCtr := t.freeCtr } ∧
    t.arc.winLast = 0x04 ∧ t.out = .read src (0x02000000 + o) (refusal 0x04) :: s.out) ∧
  (∀ src n s, Settled s → s.hears src = true → s.mode.fromArmed = true → n ≠ 0 → exec (.eccWarnWrite src n) s = .next { s with arc.eccWarn := n }) ∧
  (∀ src s, Settled s → s.hears src = true → s.mode.fromArmed = true → exec (.eccWarnWrite src 0) s = .next s) ∧
  (∀ s, Settled s → s.mode.fromArmed = true → s.arrayFree = true → s.arc.fw0 = true → s.arc.fw1 = false → s.arc.markedList = [] →
    s.arc.bitErrs = [] →
    ∃ t, exec (.firmwareRepair true) s = .next t ∧
      t = { s with arc := t.arc, flt := t.flt, hst := t.hst, out := t.out, freeCtr := t.freeCtr } ∧ t.arc.fw1 = true ∧ t.arc.fw0 = true ∧ t.arc.hdrs = s.arc.hdrs)

/-- R228: The archive window accepts only aligned reads, counts writes and does nothing else with them, and is live from LOAD onward. -/
def Obligations.ArchiveWindowAccepts : Prop :=
  (∀ src o w e s, Settled s → s.hears src = true → o % 4 ≠ 0 ∨ w = false → exec (.arcWindowRead src ⟨o, w⟩ e) s = .next { s with
    out := .read src (0x02000000 + o) 0xFFFFFF03 :: s.out }) ∧
  (∀ src o e s, Settled s → s.hears src = true → s.mode = .hold ∨ s.mode = .selftest → o % 4 = 0 → exec (.arcWindowRead src ⟨o, true⟩ e) s = .next { s with
    out := .read src (0x02000000 + o) 0xFFFFFF02 :: s.out }) ∧
  (∀ src o s, Settled s → s.hears src = true → s.mode = .load ∨ s.mode.fromArmed = true → s.live 8 = true ∧
    exec (.arcWindowWrite src o) s = .next { s with arc.winWrIgn := satInc s.arc.winWrIgn })

/-- R258, R259, R260, R267, R257: A request whose LENGTH is out of range, or that does not end where LENGTH says with the right CRC-32, is
answered and counted; a whole request joins the queue or is refused; a damaged one is answered and counted; ABORT of a request that waits
behind another removes it, and both are answered. The link comes up with both lanes; it goes down with everything in its queue dropped,
counted and reported. The model's own choice here: legality is judged at arrival: log 64; the order of the answers of ABORT: log 65. -/
def Obligations.CardRequestsArrive : Prop :=
  (∀ f s, Settled s → s.cardOn = true → frameWhole f = true → f.length ≤ 4096 → f.length % 4 = 0 → cardCodes.contains f.cmd = true →
    f.cmd ≠ 0x5F → (∀ r ∈ s.crd.queue, r.tag ≠ f.tag) → s.crd.queue.length < 8 → cardVerdict f.cmd s = none →
    exec (.cardRequest f) s = .next { s with
      crd.cnt := tinc s.crd.cnt 0
      crd.queue := s.crd.queue ++ [{ cmd := f.cmd, tag := f.tag, address := f.address, payload := f.payload, code := s.codeNow }] }) ∧
  (∀ f s, Settled s → s.cardOn = true → frameWhole f = true → f.length ≤ 4096 → f.length % 4 = 0 → cardCodes.contains f.cmd = true →
    f.cmd ≠ 0x5F → (∀ r ∈ s.crd.queue, r.tag ≠ f.tag) → 8 ≤ s.crd.queue.length → ∃ t, exec (.cardRequest f) s = .next t ∧
      t = { s with gctl := t.gctl, crd := t.crd, hst := t.hst, out := t.out, freeCtr := t.freeCtr } ∧
      t.crd.queue = s.crd.queue ∧ tget t.crd.cnt 5 = satInc (tget s.crd.cnt 5) ∧
      t.out = .cardResponse (responseBytes f.cmd f.tag 0x01 s.codeNow s.expectMs []) :: s.out) ∧
  (∀ f s, Settled s → s.cardOn = true → 4096 < f.length ∨ f.length % 4 ≠ 0 → ∃ t, exec (.cardRequest f) s = .next t ∧
      t = { s with gctl := t.gctl, crd := t.crd, hst := t.hst, out := t.out, freeCtr := t.freeCtr } ∧
    t.crd.queue = s.crd.queue ∧ t.out.head? = some (.cardResponse (responseBytes f.cmd f.tag 0x03 s.codeNow 0 [])) ∧
    tget t.crd.cnt 4 = satInc (tget s.crd.cnt 4) ∧ tget t.crd.cnt 2 = tget s.crd.cnt 2) ∧
  (∀ f s, Settled s → s.cardOn = true → f.length ≤ 4096 → f.length % 4 = 0 → frameWhole f = false →
    ∃ t, exec (.cardRequest f) s = .next t ∧
      t = { s with gctl := t.gctl, crd := t.crd, hst := t.hst, out := t.out, freeCtr := t.freeCtr } ∧ t.crd.queue = s.crd.queue ∧
      t.out.head? = some (.cardResponse (responseBytes f.cmd f.tag 0x06 s.codeNow 0 [])) ∧
      tget t.crd.cnt 2 = satInc (tget s.crd.cnt 2) ∧ tget t.crd.cnt 4 = tget s.crd.cnt 4) ∧
  (∀ c tag n s, Settled s → s.cardOn = true → ∃ t, exec (.cardBadFrame .crc c tag n) s = .next t ∧
      t = { s with crd := t.crd, hst := t.hst, out := t.out } ∧ t.crd.queue = s.crd.queue ∧
    t.out.head? = some (.cardResponse (responseBytes c tag 0x06 s.codeNow 0 [])) ∧ tget t.crd.cnt 2 = satInc (tget s.crd.cnt 2) ∧
    tget t.crd.cnt 0 = satInc (tget s.crd.cnt 0)) ∧
  (∀ tag target h q r s, Settled s → s.cardOn = true → s.crd.queue = h :: q → h.tag ≠ target → h.tag ≠ tag → (∀ x ∈ q, x.tag ≠ tag) →
    q.find? (fun x => x.tag = target) = some r → ∃ t, exec (.abort tag target) s = .next t ∧
      t = { s with gctl := t.gctl, crd := t.crd, hst := t.hst, out := t.out, freeCtr := t.freeCtr } ∧
      t.crd.queue = (h :: q).filter (fun x => x.tag ≠ target) ∧ t.out = .cardResponse (responseBytes r.cmd r.tag 0x09 r.code 0 []) ::
        .cardResponse (responseBytes 0x5F tag 0x00 s.codeNow 0 []) :: s.out ∧ tget t.crd.cnt 6 = satInc (tget s.crd.cnt 6)) ∧
  (∀ tag target s, Settled s → s.cardOn = true → (∀ x ∈ s.crd.queue, x.tag ≠ tag ∧ x.tag ≠ target) →
    ∃ t, exec (.abort tag target) s = .next t ∧
      t = { s with gctl := t.gctl, crd := t.crd, hst := t.hst, out := t.out, freeCtr := t.freeCtr } ∧ t.crd.queue = s.crd.queue ∧
      t.out = .cardResponse (responseBytes 0x5F tag 0x03 s.codeNow 0 []) :: s.out) ∧
  (∀ s, Settled s → s.mode.answers = true → s.crd.linkUp = false → ∃ t, exec .cardLinkUp s = .next t ∧
      t = { s with crd := t.crd, hst := t.hst, out := t.out } ∧
    t.crd = { s.crd with linkUp := true, lanes := 3 }) ∧
  (∀ s, Settled s → s.cardOn = true → (∀ r q, s.crd.queue = r :: q → r.verdict.isSome = true) →
    ∃ u, exec .cardLinkDown s = .next (settle u) ∧
      u = { s with crd := u.crd, flt := u.flt, hst := u.hst, out := u.out, freeCtr := u.freeCtr } ∧ u.crd.linkUp = false ∧ u.crd.queue = [] ∧
      tget u.crd.cnt 7 = satInc (tget s.crd.cnt 7) ∧ u.flt.due = [(90, 0)])

/-- R262, R263, R264: IDENT, STATUS, READ_REG, WRITE_REG, READ_BLOCK and WRITE_BLOCK, executed as the oldest request, answer OK with their
data and leave the queue. The model's own choice here: the last word of IDENT and operands out of range are the model's: log 66. -/
def Obligations.CardReadsAndWrites : Prop :=
  (∀ r q s, CardFront 0x01 r q s → r.address = 0 → r.payload = [] → exec .ident s = .next { s with
    crd.queue := q, crd.cnt := tinc s.crd.cnt 1, crd.lastTag := r.tag, crd.lastStat := 0x00
    out := .cardResponse (responseBytes 0x01 r.tag 0x00 r.code 0 (bytesOf [gctlWord 0 s, lo32 s.otp.serial, hi32 s.otp.serial, 0x10000001, 8,
      imgWord 0x14 s, s.arc.selSeq, BitVec.setWidth 32 s.gctl.loadStat])) :: s.out }) ∧
  (∀ r q s, CardFront 0x02 r q s → r.address = 0 → r.payload = [] → exec .status s = .next { s with
    crd.queue := q, crd.cnt := tinc s.crd.cnt 1, crd.lastTag := r.tag, crd.lastStat := 0x00
    out := .cardResponse (responseBytes 0x02 r.tag 0x00 r.code 0 (bytesOf [gctlWord 4 s, gctlWord 8 s, lo32 s.tck.index, crdStat s])) :: s.out }) ∧
  (∀ r q a rep n s, CardFront 0x10 r q s → regRange r = some (a, rep) → cardCount r 4 256 = some n → ∃ t data,
    exec .readReg s = .next t ∧
      t = { s with arc := t.arc, crd := t.crd, ldg := t.ldg, flt := t.flt, hst := t.hst, shadows := t.shadows, out := t.out, freeCtr := t.freeCtr } ∧ t.crd.queue = q ∧ t.out = .cardResponse (responseBytes 0x10 r.tag 0x00 r.code 0 data) :: s.out ∧ data.length = n ∧
      data.take 4 = leBytes 4 (regRead .card a s).2.toNat) ∧
  (∀ r q s, CardFront 0x11 r q s → s.mode.fromArmed = true → regRange r = some (0x3E00C, false) → r.payload.length = 4 →
    exec .writeReg s = .next { s with
      gpio.out := BitVec.ofNat 16 (at32 r.payload 0), crd.queue := q, crd.cnt := tinc s.crd.cnt 1, crd.lastTag := r.tag
      crd.lastStat := 0x00, out := .cardResponse (responseBytes 0x11 r.tag 0x00 r.code 0 []) :: s.out }) ∧
  (∀ e r q o n s, CardFront 0x20 r q s → s.mode.fromArmed = true → BitVec.getLsbD r.address 31 = false → cardCount r 32 4096 = some n →
    gridRange r n = some o → exec (.readBlock e) s = .next { s with
      arc.bitErrs := e, crd.queue := q, crd.cnt := tinc s.crd.cnt 1, crd.lastTag := r.tag, crd.lastStat := 0x00
      out := .cardResponse (responseBytes 0x20 r.tag 0x00 r.code 0 ((List.range (n / 4)).flatMap (fun i => leBytes 4 (Memory.read32 s.mem (gridBase + (o + 4 * i))).toNat))) :: s.out }) ∧
  (∀ r q o s, CardFront 0x21 r q s → MemoryOk s → r.payload.length = 4 → gridRange r 4 = some o → s.hostRange (gridBase + o) 4 = true →
    ∃ t, exec .writeBlock s = .next t ∧
      t = { s with crd := t.crd, mem := t.mem, out := t.out } ∧ t.crd.queue = q ∧ t.out = .cardResponse (responseBytes 0x21 r.tag 0x00 r.code 0 []) :: s.out ∧
      Memory.read t.mem (gridBase + o) 4 = r.payload ∧
      ∀ a, a < gridBase + o ∨ gridBase + o + 4 ≤ a → Memory.get t.mem a = Memory.get s.mem a)

/-- R265, R266, R270, R255, R268: GRID_READ answers bytes of the frame that stands in the channel's buffer; MAILBOX_PUT queues a message,
MAILBOX_GET takes the oldest reply; EJECT_REQUEST takes the device to MAINT and begins the drain. The loss of CARD_PRES_N takes the device
to REMOVAL with idle outputs, its word in progress completed and its erase abandoned; then the open record is sealed and the part is
quiescent. The model's own choice here: GRID_READ and MAILBOX_PUT: log 66; the steps of a removal: log 68. -/
def Obligations.CardMailboxEjectRemoval : Prop :=
  (∀ r q n b tick len s, CardFront 0x30 r q s → BitVec.getLsbD r.address 31 = false → cardCount r 4 4096 = some n →
    s.im.outA.routes.testBit 1 = true → s.outb.a.clBuf = some (b, tick, len) → BitVec.toNat r.address % 4 = 0 →
    BitVec.toNat r.address + n ≤ len → exec .gridRead s = .next { s with
      crd.queue := q, crd.cnt := tinc s.crd.cnt 1, crd.lastTag := r.tag, crd.lastStat := 0x00
      out := .cardResponse (responseBytes 0x30 r.tag 0x00 r.code (BitVec.setWidth 16 tick) (Memory.read s.mem (s.im.outA.clBuf + (if b then s.im.frameSpan false else 0) + BitVec.toNat r.address) n)) :: s.out }) ∧
  (∀ r q m s, CardFront 0x40 r q s → r.address = 0 → readMbx r.payload = some m → r.payload.length = 8 + at16 r.payload 2 →
    ∃ t, exec .mailboxPut s = .next t ∧
      t = { s with crd := t.crd, mbx := t.mbx, out := t.out } ∧ t.mbx = { s.mbx with reqs := s.mbx.reqs ++ [{ src := .card, msg := m }] } ∧ t.crd.queue = q ∧
      t.out = .cardResponse (responseBytes 0x40 r.tag 0x00 r.code 0 []) :: s.out) ∧
  (∀ r q m ms s, CardFront 0x41 r q s → r.address = 0 → r.payload = [] → s.mbx.outCard = m :: ms →
    ∃ t, exec .mailboxGet s = .next t ∧
      t = { s with crd := t.crd, mbx := t.mbx, out := t.out } ∧ t.mbx = { s.mbx with outCard := ms } ∧ t.crd.queue = q ∧
      t.out = .cardResponse (responseBytes 0x41 r.tag 0x00 r.code 0 ([m.type, m.tag] ++ leBytes 2 m.payload.length ++ [m.status, 0, 0, 0] ++ m.payload)) :: s.out) ∧
  (∀ r q s, CardFront 0x50 r q s → r.address = 0 → r.payload = [] → s.crd.ejState = 0 → s.mode.ticks = true →
    ∃ t est, exec .ejectRequest s = .next t ∧
      EnterKeeps s t ∧ t.grd = s.grd ∧ t.clk = s.clk ∧ t.tst = s.tst ∧ t.mem = s.mem ∧ t.mode = .maint ∧ t.crd.ejState = 1 ∧ t.crd.estMs = est ∧ t.crd.queue = q ∧
      t.out.head? = some (.cardResponse (responseBytes 0x50 r.tag 0x00 r.code 0 (leBytes 4 (BitVec.toNat est))))) ∧
  (∀ s, Settled s → s.ejectDrained = true → ∃ u, exec .ejectReady s = .next (settle u) ∧
      u = { s with pins := u.pins, gctl := u.gctl, arc := u.arc, crd := u.crd, ldg := u.ldg, fab := u.fab, flt := u.flt, hst := u.hst, out := u.out, freeCtr := u.freeCtr } ∧ u.gctl.ejectReady = true ∧ u.crd.ejState = 2 ∧
    u.pins.outputsIdle = true ∧ u.pins.faultPair = some (false, true) ∧ u.mode = .maint ∧
    ∀ p < 4, (u.port p).up = false) ∧
  (∀ s, Settled s → s.mode ≠ .off → s.mode ≠ .removal → ∃ t, exec .cardPresLoss s = .next t ∧
      EnterKeeps s t ∧ t.grd = s.grd ∧ t.clk = s.clk ∧ t.mem = s.mem ∧ t.freeCtr = s.freeCtr ∧ t.mode = .removal ∧
    t.gctl.prev = s.prevFor .removal ∧ t.pins.outputsIdle = true ∧ t.crd.linkUp = false ∧ t.arc.prog = none ∧ t.arc.erase = none ∧
    t.arc.words = (finishWord s).arc.words ∧ t.arc.hdrs = s.arc.hdrs ∧ t.sch.tokens = [] ∧
    t.hst.ringA.busy = false ∧ t.hst.ringB.busy = false ∧ ∀ p < 4, (t.port p).up = false ∧ (t.port p).held = []) ∧
  (∀ s, Settled s → s.mode = .removal → s.pins.quiescent = false → s.pins.resetWaits = false →
    ∃ u, exec .removalSeal s = .next (settle u) ∧
      u = { s with pins := u.pins, arc := u.arc, inc := u.inc, ldg := u.ldg, flt := u.flt, hst := u.hst, out := u.out } ∧ u.pins.quiescent = true ∧ u.inc.record = none ∧ u.mode = .removal ∧
      (s.inc.record.isSome = true → u.inc.lastCause = 1))

/-- R337, R340, R341, R344, R349: A window start is judged once, and every consumer of class 0 that requests is granted; an alert is
latched, counted and reported until its pin rises; a budget is staged or refused with the reason; a loss of lock is counted and reported.
The model's own choice here: rejections of budgets, the CLASS_FLOOR and LOCK are the model's: log 72. -/
def Obligations.PowerCommands : Prop :=
  (∀ rs s, Settled s → QuietClock s → s.mode ≠ .off → s.mode ≠ .removal →
    s.edgeBefore (max (ceilDiv s.tim.mono 1000) (s.pwr.window + 1) * 1000) = false → ∃ t, exec (.arbiterWindow rs) s = .next t ∧
      t = { s with tim := t.tim, sch := t.sch, arc := t.arc, fab := t.fab, pwr := t.pwr, hst := t.hst, out := t.out } ∧
      t.pwr.window = max (ceilDiv s.tim.mono 1000) (s.pwr.window + 1) ∧ t.pwr.window * 1000 ≤ t.tim.mono ∧
      ∀ c ∈ rs, 48 ≤ c → c < 64 → (s.consumer c).2 = 0 → t.pwr.grants.getLsbD c = true) ∧
  (∀ s, Settled s → s.mode ≠ .off → s.pwr.alertPin = false → ∃ u, exec .pwrAlert s = .next (settle u) ∧
      u = { s with gctl := u.gctl, pwr := u.pwr, flt := u.flt, hst := u.hst, out := u.out } ∧ u.pwr.alertPin = true ∧
    u.pwr.alertDue = true ∧ tget u.pwr.cnt 0 = satInc (tget s.pwr.cnt 0) ∧ u.flt.due = [(82, 0)] ∧ u.mode = s.mode) ∧
  (∀ s, Settled s → exec .pwrAlertRelease s = .next { s with pwr.alertPin := false }) ∧
  (∀ src v s, Settled s → s.hears src = true → s.mode.fromArmed = true → s.isWorker = false → s.pwrFloor ≤ BitVec.toNat v → BitVec.toNat v ≤ s.ceiling →
    exec (.budgetWrite src v) s = .next { s with pwr.stat := 0x00, pwr.staged := some (BitVec.toNat v) }) ∧
  (∀ src v s, Settled s → s.hears src = true → s.mode.fromArmed = true → s.isWorker = false → BitVec.toNat v < s.pwrFloor → BitVec.toNat v ≤ s.ceiling →
    exec (.budgetWrite src v) s = .next { s with pwr.stat := 0x0E }) ∧
  (∀ src v s, Settled s → s.hears src = true → s.mode.fromArmed = true → s.isWorker = false → s.ceiling < BitVec.toNat v →
    exec (.budgetWrite src v) s = .next { s with pwr.stat := 0x03 }) ∧
  (∀ src v s, Settled s → s.hears src = true → s.mode.fromArmed = true → s.isWorker = true → exec (.budgetWrite src v) s = .next { s with pwr.stat := 0x04 }) ∧
  (∀ src v s, Settled s → s.hears src = true → s.mode.fromArmed = true → s.isManager = false →
    exec (.fabBudgetWrite src v) s = .next { s with pwr.fabStat := 0x02 }) ∧
  (∀ src v m e s, Settled s → s.hears src = true → s.mode.fromArmed = true → s.isManager = true → s.fab.member (BitVec.setWidth 12 s.pwr.fabAddr) = some m →
    m.mstate = 1 → s.routeOf m.addr = some e → e.port < 4 → (s.port e.port).up = true → ∃ t ts f h, exec (.fabBudgetWrite src v) s = .next t ∧
      t = { s with gctl := t.gctl, fab := t.fab, pwr := t.pwr, out := t.out } ∧
      t.pwr = { s.pwr with fabStat := 0x00 } ∧ t.out = .fabric e.port ts f :: s.out ∧
      f.body = some (h, .budget (s.tck.index + 2) v 2) ∧ h.dst = m.addr) ∧
  (∀ p s, Settled s → s.mode ≠ .off → p < 7 → ∃ u, exec (.lossOfLock (.lockLost p)) s = .next (settle u) ∧
      u = { s with fab := u.fab, clk := u.clk, flt := u.flt, hst := u.hst, out := u.out } ∧ u.flt.due = [(83, 0)] ∧
    u.clk.lolCnt = satInc s.clk.lolCnt ∧ u.clk.lock.getLsbD p = false) ∧
  (∀ s, Settled s → s.mode ≠ .off → ∃ u, exec (.lossOfLock .coreSlow) s = .next (settle u) ∧
      u = { s with fab := u.fab, clk := u.clk, flt := u.flt, hst := u.hst, out := u.out } ∧ u.flt.due = [(83, 0)] ∧
    u.clk.lolCnt = satInc s.clk.lolCnt ∧ u.clk.lock = s.clk.lock)

/-- R352, R355, R356, R357, R358, R359, R367: The healthy pattern ends a detector's condition and does nothing else; the fault pair is read
back from its pads, and its detector tells which differs; an error pattern under LOG is counted and recorded and changes no state; a pair
with equal levels is an error LINE; under DEGRADE, SAFE and HOLD the device enters the state of the reaction. The model's own choice here:
the warden acts before the command ends: log 14. -/
def Obligations.DetectorReactions : Prop :=
  (∀ d x s, Settled s → s.mode ≠ .off → s.mode ≠ .removal → d < 92 → d ≠ 86 → d ≠ 87 →
    exec (.detectorReport [{ det := d, p := true, n := false, detail := x }]) s = .next (pairClean d s)) ∧
  (∀ p n a b x s, Settled s → s.mode ≠ .off → s.mode ≠ .removal → a ≠ b → s.pins.faultPair = some (p, n) → BitVec.getLsbD x 1 = p → BitVec.getLsbD x 0 = n →
    exec (.detectorReport [{ det := 87, p := a, n := b, detail := x }]) s = .next (pairClean 87 s)) ∧
  (∀ p n a b x s, Settled s → s.mode = .run → a ≠ b → s.pins.faultPair = some (p, n) → BitVec.getLsbD x 1 ≠ p ∨ BitVec.getLsbD x 0 ≠ n → mapOf s 87 = (0, 0, 0) →
    s.flt.active.getLsbD 87 = false → s.flt.recOf 87 = none → s.flt.records.length < 64 → ∃ t r,
      exec (.detectorReport [{ det := 87, p := a, n := b, detail := x }]) s = .next t ∧
      t = { s with gctl := t.gctl, arc := t.arc, inc := t.inc, fab := t.fab, flt := t.flt, hst := t.hst, out := t.out } ∧ t.flt.records = s.flt.records ++ [r] ∧
      r.det = 87 ∧ r.detail = (if BitVec.getLsbD x 1 = p then 1 else 0) ∧ t.mode = .run) ∧
  (∀ d x s, Settled s → s.mode ≠ .off → s.mode ≠ .removal → d < 92 → d ≠ 86 → isLevel d = false → mapOf s d = (0, 0, 0) →
    s.flt.recOf d = none → s.flt.records.length < 64 → s.flt.line.getLsbD d = false → ∃ t r, exec (.detectorReport [{ det := d, p := false, n := true, detail := x }]) s = .next t ∧
      t = { s with gctl := t.gctl, img := t.img, arc := t.arc, inc := t.inc, fab := t.fab, flt := t.flt, hst := t.hst, out := t.out } ∧
      tget t.flt.cnt 0 = satInc (tget s.flt.cnt 0) ∧ t.flt.records = s.flt.records ++ [r] ∧ r.det = d ∧ r.react = 0 ∧ r.active = false ∧
      r.detail = x ∧ r.state = s.mode.code ∧ r.first = BitVec.ofNat 64 s.tim.dev ∧ t.mode = s.mode ∧
      t.img = { s.img with fillBad := t.img.fillBad }) ∧
  (∀ d x s, Settled s → s.mode = .run → s.gctl.everArmed = true → d < 92 → d ≠ 86 → isLevel d = false → mapOf s d = (2, 0, 0) →
    ∃ u, exec (.detectorReport [{ det := d, p := false, n := true, detail := x }]) s = .next (settle u) ∧
      EnterKeeps s u ∧ u.mem = s.mem ∧ u.mode = .degraded ∧
      u.gctl.degWarden = true ∧ tget u.flt.cnt 4 = satInc (tget s.flt.cnt 4)) ∧
  (∀ d x s, Settled s → s.mode = .run → s.gctl.everArmed = true → s.fab.role ≠ roleManager → d < 92 → d ≠ 86 → isLevel d = false →
    mapOf s d = (3, 0, 0) → ∃ u, exec (.detectorReport [{ det := d, p := false, n := true, detail := x }]) s = .next (settle u) ∧
      EnterKeeps s u ∧ u.mem = s.mem ∧
      u.mode = .safe ∧ u.gctl.prev = s.prevFor .safe ∧ tget u.flt.cnt 5 = satInc (tget s.flt.cnt 5)) ∧
  (∀ d x s, Settled s → s.mode = .run → s.pins.scan = none → d < 92 → d ≠ 86 → isLevel d = false → mapOf s d = (4, 0, 0) →
    ∃ u, exec (.detectorReport [{ det := d, p := false, n := true, detail := x }]) s = .next (settle u) ∧
      u = { State.reset with otp := u.otp, pins := u.pins, gctl := u.gctl, tim := u.tim, arc := u.arc, flt := u.flt, hst := u.hst, out := u.out, freeCtr := u.freeCtr, pending := u.pending, pwr := { State.reset.pwr with alertPin := s.pwr.alertPin, alert := s.pwr.alertPin, effective := u.pwr.effective } } ∧ u.mode = .hold ∧
      u.gctl.rstType = 3 ∧ u.gctl.holdReason = 6 ∧ u.gctl.prev = s.prevFor .hold ∧ u.mem = []) ∧
  (∀ d a x s, Settled s → s.mode = .run → d < 92 → d ≠ 86 → mapOf s d = (0, 0, 0) → s.flt.active.getLsbD d = false → s.flt.recOf d = none →
    s.flt.records.length < 64 → ∃ t r, exec (.detectorReport [{ det := d, p := a, n := a, detail := x }]) s = .next t ∧
      t = { s with gctl := t.gctl, img := t.img, arc := t.arc, inc := t.inc, fab := t.fab, flt := t.flt, hst := t.hst, out := t.out } ∧
      t.flt.records = s.flt.records ++ [r] ∧ r.det = d ∧ r.line = true ∧ r.active = true ∧ r.detail = x ∧ t.flt.line.getLsbD d = true ∧
      tget t.flt.cnt 1 = satInc (tget s.flt.cnt 1) ∧ t.img = { s.img with fillBad := t.img.fillBad } ∧ t.mode = .run)

/-- R360, R362, R365, R368: REC_SEL copies the record of its index, or zeros; FLT_CLR clears a record whose condition has ended, and is
refused with BUSY while it is ACTIVE; ALL clears every record that is not ACTIVE. With HEARTBEAT the healthy pair toggles at the next
multiple of 500 µs; with EXT_EN 0 EXT_FLT is not observed; with EXT_HB a change between the complementary patterns is the heartbeat, and
equal levels or a half-period over 2 ms raise detector 86. The model's own choice here: EXT_FLT under EXT_HB is the model's: log 75. -/
def Obligations.FaultRecordsAndExtFault : Prop :=
  (∀ src i r s, Settled s → s.hears src = true → s.mode.fromArmed = true → s.flt.records[BitVec.toNat i]? = some r → ∃ t, exec (.recSelect src i) s = .next t ∧
      t = { s with gctl := t.gctl, flt := t.flt } ∧
    t.flt.recSel = i ∧ (∀ k < 8, tget t.flt.recWords k = (recWords r).getD k 0) ∧ t.flt.records = s.flt.records) ∧
  (∀ src i s, Settled s → s.hears src = true → s.mode.fromArmed = true → s.flt.records.length ≤ BitVec.toNat i → ∃ t, exec (.recSelect src i) s = .next t ∧
      t = { s with gctl := t.gctl, flt := t.flt } ∧
    t.flt.recSel = i ∧ ∀ k < 8, tget t.flt.recWords k = 0) ∧
  (∀ src d r s, Settled s → s.hears src = true → s.mode.fromArmed = true → s.flt.recOf (BitVec.toNat d) = some r → r.active = false →
    s.flt.active.getLsbD (BitVec.toNat d) = false → ∃ t, exec (.faultClear src d) s = .next t ∧
      t = { s with gctl := t.gctl, flt := t.flt, freeCtr := t.freeCtr } ∧ t.flt.clrStat = 0x00 ∧
      t.flt.records = s.flt.records.filter (fun x => x.det ≠ BitVec.toNat d) ∧ t.mode = s.mode) ∧
  (∀ src d r s, Settled s → s.hears src = true → s.mode.fromArmed = true → s.flt.recOf (BitVec.toNat d) = some r → r.active = true →
    exec (.faultClear src d) s = .next { s with flt.clrStat := 0x01 }) ∧
  (∀ src s, Settled s → s.hears src = true → s.mode.fromArmed = true → ∃ t, exec (.faultClearAll src) s = .next t ∧
      t = { s with gctl := t.gctl, flt := t.flt } ∧
    t.flt.records = s.flt.records.filter (fun r => r.active || s.flt.active.getLsbD r.det) ∧
    t.flt.clrStat = (if t.flt.records.isEmpty then 0x00 else 0x01) ∧ t.mode = s.mode) ∧
  (∀ p n s, Settled s → QuietClock s → s.mode.healthy = true → s.im.faultMap.heartbeat = true → s.pins.faultPair = some (p, n) →
    s.edgeBefore ((s.tim.mono / 500000 + 1) * 500000) = false → ∃ t, exec .heartbeatToggle s = .next t ∧
      t = { s with pins := t.pins, tim := t.tim, out := t.out } ∧
      t.pins.faultPair = some (!p, !n) ∧ t.out = .faultPair (!p) (!n) :: s.out ∧ (s.tim.mono / 500000 + 1) * 500000 ≤ t.tim.mono) ∧
  (∀ p n s, Settled s → s.extOn = false → exec (.extFltInput p n) s = .next s) ∧
  (∀ s, Settled s → s.extOn = true → s.extHb = true → s.mode.answers = true → s.flt.extPat ≠ 2 →
    ∃ t, exec (.extFltInput true false) s = .next t ∧
      t = { s with flt := t.flt } ∧ t.flt.extPat = 2 ∧ t.flt.hbMono = s.tim.mono ∧ t.flt.records.length = s.flt.records.length) ∧
  (∀ s, Settled s → s.extOn = true → s.mode.answers = true → s.flt.active.getLsbD 86 = false → mapOf s 86 = (0, 0, 0) →
    ∃ t, exec (.extFltInput true true) s = .next t ∧
      t = { s with gctl := t.gctl, arc := t.arc, inc := t.inc, fab := t.fab, flt := t.flt, hst := t.hst, out := t.out } ∧ t.flt.extPat = 3 ∧ t.flt.active.getLsbD 86 = true ∧ t.flt.line.getLsbD 86 = true ∧
      tget t.flt.cnt 0 = satInc (tget s.flt.cnt 0) ∧ t.mode = s.mode) ∧
  (∀ s, Settled s → QuietClock s → s.extOn = true → s.extHb = true → s.mode.answers = true → s.flt.active.getLsbD 86 = false →
    mapOf s 86 = (0, 0, 0) → s.edgeBefore (max s.flt.hbMono s.gctl.armedMono + 2000000) = false →
    ∃ t, exec .extHbTimeout s = .next t ∧
      t = { s with gctl := t.gctl, tim := t.tim, arc := t.arc, inc := t.inc, fab := t.fab, flt := t.flt, hst := t.hst, out := t.out } ∧ t.flt.active.getLsbD 86 = true ∧ tget t.flt.cnt 0 = satInc (tget s.flt.cnt 0) ∧
      max s.flt.hbMono s.gctl.armedMono + 2000000 ≤ t.tim.mono ∧ t.mode = s.mode)

/-- R375, R376, R377, R378, R379, R380, R381, R382: A slice starts for the next target of the rotation or is skipped with its reason; PASS
of a target with a copy goes on to RESTORE, which ends it; the latest end makes it INCOMPLETE; FAIL reports the detector of the target. The
model's own choice here: the order of the skip reasons and the copy are the model's: log 76. -/
def Obligations.SelfTestSlices : Prop :=
  (∀ rs s, Settled s → s.mayTry = true → s.targetIdle (targetAt s.rotNext) = true → s.tim.mono ≤ s.latestStart (targetAt s.rotNext) →
    s.sliceGranted rs (targetAt s.rotNext) = true → s.inRephase = false → ∃ t x, exec (.sliceStart rs true) s = .next t ∧
      t = { s with fab := t.fab, pwr := t.pwr, tst := t.tst, hst := t.hst, out := t.out } ∧ t.tst.slice = some x ∧ x.target = targetAt s.rotNext ∧ x.startMono = s.tim.mono ∧
      t.tst.phase = (if x.target.saves then .saving else .testing) ∧ t.tst.tickDone = true) ∧
  (∀ rs c s, Settled s → s.mayTry = true → s.sliceGranted rs (targetAt s.rotNext) = false ∨ c = false → exec (.sliceStart rs c) s = .next s) ∧
  (∀ rs c s, Settled s → s.mayTry = true → s.latestStart (targetAt s.rotNext) < s.tck.qMono → ∃ t, exec (.sliceSkip rs c) s = .next t ∧
      t = { s with tst := t.tst, hst := t.hst, out := t.out } ∧
    tget t.tst.cnt 2 = satInc (tget s.tst.cnt 2) ∧ t.tst.tickDone = true ∧ t.tst.slice = none ∧ t.tst.rotPos = s.tst.rotPos) ∧
  (∀ rs c s, Settled s → QuietClock s → s.mayTry = true → s.tck.qMono ≤ s.latestStart (targetAt s.rotNext) →
    s.targetIdle (targetAt s.rotNext) = true →
    (advanceTo (s.latestStart (targetAt s.rotNext)) s).sliceGranted rs (targetAt s.rotNext) = false → ∃ t, exec (.sliceSkip rs c) s = .next t ∧
      t = { s with tim := t.tim, fab := t.fab, pwr := t.pwr, tst := t.tst, hst := t.hst, out := t.out } ∧
      tget t.tst.cnt 4 = satInc (tget s.tst.cnt 4) ∧ t.tst.tickDone = true ∧ t.tst.slice = none) ∧
  (∀ x s, Settled s → s.testing = some x → s.tim.mono ≤ x.latestEnd → x.target.saves = true →
    exec (.sliceTestEnd .pass) s = .next { s with tst.phase := .restoring }) ∧
  (∀ x n d s, Settled s → s.testing = some x → s.tim.mono ≤ x.latestEnd → x.target = .core n → n < 48 →
    ∃ u, exec (.sliceTestEnd (.fail d)) s = .next (settle u) ∧
      u = { s with sch := u.sch, flt := u.flt, tst := u.tst, hst := u.hst, out := u.out, freeCtr := u.freeCtr } ∧ (n, BitVec.ofNat 32 d) ∈ u.flt.due ∧ u.tst.lastResult = 2 ∧
      u.tst.slice = none ∧ tget u.tst.cnt 1 = satInc (tget s.tst.cnt 1) ∧ (u.core n).fence ≠ 0) ∧
  (∀ x s, Settled s → QuietClock s → s.testing = some x → x.target.saves = true → ∃ t, exec .sliceLatestEnd s = .next t ∧
      t = { s with tim := t.tim, tst := t.tst } ∧
    t.tst.phase = .restoring ∧ t.tst.slice = some { x with incomplete := true } ∧ x.latestEnd ≤ t.tim.mono) ∧
  (∀ x s, Settled s → s.tst.phase = .restoring → s.tst.slice = some x → x.incomplete = true →
    exec .sliceRestoreEnd s = .next { s with tst.phase := .idle, tst.slice := none, tst.lastResult := 3, tst.cnt := tinc s.tst.cnt 6 }) ∧
  (∀ x s, Settled s → s.tst.phase = .restoring → s.tst.slice = some x → x.incomplete = false → ∃ t, exec .sliceRestoreEnd s = .next t ∧
      t = { s with tst := t.tst, hst := t.hst, out := t.out, freeCtr := t.freeCtr } ∧
    t.tst.phase = .idle ∧ t.tst.slice = none ∧ t.tst.lastResult = 1 ∧ tget t.tst.cnt 0 = satInc (tget s.tst.cnt 0))

/-- R4, R9, R11, R168, R389, R10, R46, R390, R392, R97: A write narrower than a register, of no block or of an absent resource has no
effect, and an interface that the part does not have is not answered; a write of GPIO_OUT sets the output latches, and the pins that are
outputs follow; a 1 written to GPIO_EDGE clears its bit. A read of the low half of a pair answers it and copies the high half for its
source; a read of a shadow answers the copy; a read narrower than a register answers BAD_ARG and does nothing else; one of no block answers
NOT_PRESENT and is counted, one of a block that is not live answers NOT_IN_STATE. A word written through the grid window inside a ring or
data area of a host queue is stored there and nowhere else; any other is ignored and counted. A write narrower than a word has no effect.
The model's own choice here: how a write with several effects acts is the model's: log 78. -/
def Obligations.RegisterAccesses : Prop :=
  (∀ src a v s, Settled s → exec (.registerWrite src a v false) s = .next s) ∧
  (∀ src a v s, Settled s → s.hears src = true → cmdWrite src a v = none → s.absent a = true ∨ blockOf a = none → exec (.registerWrite src a v true) s = .next s) ∧
  (∀ src a v s, Settled s → s.hears src = false → exec (.registerWrite src a v true) s = .next s ∧ exec (.snapshotRead src ⟨a, true⟩) s = .next s) ∧
  (∀ src v n s, Settled s → s.hears src = true → s.mode.ticks = true → s.pins.outputsIdle = false → n < 16 → s.im.ports.gpioDir.testBit n = true →
    s.im.ports.gpioOd.testBit n = false → (s.im.ports.incTrig && decide (n = 15)) = false →
    ∃ t, exec (.registerWrite src 0x3E00C v true) s = .next t ∧
      t = { s with gpio := t.gpio } ∧ t.gpioPin n = some (BitVec.getLsbD v n)) ∧
  (∀ src v s, Settled s → s.hears src = true → s.mode.fromArmed = true → exec (.registerWrite src 0x3E00C v true) s = .next { s with
    gpio.out := BitVec.setWidth 16 v }) ∧
  (∀ src v s, Settled s → s.hears src = true → s.mode.fromArmed = true → exec (.registerWrite src 0x3E014 v true) s = .next { s with
    gpio.edge := s.gpio.edge &&& ~~~v }) ∧
  (∀ src a row w s, Settled s → s.hears src = true → a % 4 = 0 → blockOf a = some row → s.absent a = false → s.live row = true →
    isShadow a s = false → a ≠ 0x5008 → pairAt a s = some w → (blockOf a = some 25 → a % 0x4000 ≠ 0x24) →
    ∃ t, exec (.snapshotRead src ⟨a, true⟩) s = .next t ∧
      t = { s with arc := t.arc, ldg := t.ldg, hst := t.hst, shadows := t.shadows, out := t.out, freeCtr := t.freeCtr } ∧ t.out = .read src a (BitVec.setWidth 32 w) :: s.out ∧
      alookup 0 (t.shadows.of src) (a + 4) = BitVec.extractLsb' 32 32 w) ∧
  (∀ src a row s, Settled s → s.hears src = true → a % 4 = 0 → blockOf a = some row → s.absent a = false → s.live row = true →
    isShadow a s = true → exec (.snapshotRead src ⟨a, true⟩) s = .next { s with out := .read src a (alookup 0 (s.shadows.of src) a) :: s.out }) ∧
  (∀ src a s, Settled s → s.hears src = true → a % 4 = 0 → blockOf a = none → exec (.unmappedRead src ⟨a, true⟩) s = .next { s with
    hst.cnt := tinc s.hst.cnt 0, out := .read src a 0xFFFFFF0A :: s.out }) ∧
  (∀ src a s, Settled s → s.hears src = true →
    exec (.snapshotRead src ⟨a, false⟩) s = .next { s with out := .read src a 0xFFFFFF03 :: s.out } ∧
    (blockOf a = none → exec (.unmappedRead src ⟨a, false⟩) s = .next { s with out := .read src a 0xFFFFFF03 :: s.out })) ∧
  (∀ src a row s, Settled s → s.hears src = true → a % 4 = 0 → blockOf a = some row → s.absent a = false → s.live row = false →
    exec (.snapshotRead src ⟨a, true⟩) s = .next { s with out := .read src a 0xFFFFFF02 :: s.out }) ∧
  (∀ src o v s, Settled s → MemoryOk s → s.hears src = true → o % 4 = 0 → s.hostRange (gridBase + o) 4 = true →
    ∃ t, exec (.gridWindowWrite src ⟨o, true⟩ v) s = .next t ∧
      t = { s with hst := t.hst, mem := t.mem } ∧ Memory.read32 t.mem (gridBase + o) = v ∧ t.hst = s.hst ∧
      ∀ a, a < gridBase + o ∨ gridBase + o + 4 ≤ a → Memory.get t.mem a = Memory.get s.mem a) ∧
  (∀ src o v s, Settled s → s.hears src = true → o % 4 = 0 → s.hostRange (gridBase + o) 4 = false →
    exec (.gridWindowWrite src ⟨o, true⟩ v) s = .next { s with hst.cnt := tinc s.hst.cnt 1 }) ∧
  (∀ src o v s, Settled s → exec (.gridWindowWrite src ⟨o, false⟩ v) s = .next s)

/-- R394, R395, R396, R397: Unmasking a vector sends its pending message; a ring is enabled where its configuration is in order, and refused
with BAD_ARG or BUSY; it is disabled at once, but for a transfer in progress; HEAD takes an index of the ring; a transfer's end advances
TAIL. The model's own choice here: EN again answers BUSY, a disable OK: log 79. -/
def Obligations.HostRings : Prop :=
  (∀ v s, Settled s → s.mode.fromArmed = true → s.otp.cardForm = false → v < 64 → s.hst.msixPend.getLsbD v = true → s.hst.bme = true →
    ∃ t, exec (.msixUnmask (.vector v)) s = .next t ∧
      t = { s with gctl := t.gctl, hst := t.hst, out := t.out } ∧ t.out = .msix v :: s.out ∧ t.hst.msixPend.getLsbD v = false ∧
      (tget t.hst.msix v).masked = false) ∧
  (∀ s, Settled s → s.mode.fromArmed = true → s.otp.cardForm = false → ∃ t, exec (.msixUnmask .busMaster) s = .next t ∧
      t = { s with gctl := t.gctl, hst := t.hst, out := t.out } ∧ t.hst.bme = true) ∧
  (∀ src c s, Settled s → s.mode.fromArmed = true → s.otp.cardForm = false → (s.ring c).en = false → (s.ring c).base.toNat % 4096 = 0 →
    2 ≤ (s.ring c).slots.toNat → (s.ring c).slots.toNat ≤ 1024 → s.im.frameLen (c = .b) ≤ (s.ring c).slotKib.toNat * 1024 →
    (s.ring c).wb.toNat % 8 = 0 → exec (.ringEnable src c) s = .next (s.setRing c { s.ring c with en := true, stat := 0x00 })) ∧
  (∀ src c s, Settled s → s.mode.fromArmed = true → s.otp.cardForm = false → (s.ring c).en = false → (s.ring c).base.toNat % 4096 ≠ 0 →
    exec (.ringEnable src c) s = .next (s.setRing c { s.ring c with stat := 0x03 })) ∧
  (∀ src c s, Settled s → s.mode.fromArmed = true → s.otp.cardForm = false → (s.ring c).en = true →
    exec (.ringEnable src c) s = .next (s.setRing c { s.ring c with stat := 0x01 })) ∧
  (∀ src c s, Settled s → s.mode.fromArmed = true → s.otp.cardForm = false → exec (.ringDisable src c) s = .next (s.setRing c { s.ring c with
    en := false, stopping := ((s.ring c).en && (s.ring c).busy), stat := 0x00 })) ∧
  (∀ src c h s, Settled s → s.mode.fromArmed = true → s.otp.cardForm = false → BitVec.toNat h < (s.ring c).slots.toNat →
    exec (.ringHeadWrite src c h) s = .next (s.setRing c { s.ring c with head := h, stat := 0x00 })) ∧
  (∀ src c h s, Settled s → s.mode.fromArmed = true → s.otp.cardForm = false → (s.ring c).slots.toNat ≤ BitVec.toNat h →
    exec (.ringHeadWrite src c h) s = .next (s.setRing c { s.ring c with stat := 0x03 })) ∧
  (∀ c s, Settled s → s.mode.answers = true → (s.ring c).busy = true → 2 ≤ (s.ring c).slots.toNat → ∃ t, exec (.ringWriteback c) s = .next t ∧
      t = { s with hst := t.hst, out := t.out } ∧
    (t.ring c).tail = BitVec.ofNat 10 (((s.ring c).tail.toNat + 1) % (s.ring c).slots.toNat) ∧ (t.ring c).busy = false ∧
    (t.ring c).frames = satInc (s.ring c).frames ∧
    Out.hostWrite (s.ring c).wb (leBytes 4 (t.ring c).tail.toNat ++ leBytes 4 (s.ring c).fullDrop.toNat) ∈ t.out)

/-- R70, R386, R391, R403: A reset of the endpoint resets the host block and its mailbox state and nothing else; a link comes up with its
speed and width; in SELFTEST a configuration request is answered with retry status, elsewhere it is completed. The model's own choice here:
what a reset of the endpoint keeps, and the answer of a configuration write, are the model's: log 80. -/
def Obligations.PcieEndpoint : Prop :=
  (∀ k s, Settled s → s.hasPcie = true → ∃ t, exec (.pcieReset k) s = .next t ∧ t = { s with hst := t.hst, mbx := t.mbx } ∧
    t.hst.bme = false ∧ t.hst.ringA = {} ∧ t.hst.ringB = {} ∧ t.mbx.outPcie = [] ∧ (∀ r ∈ t.mbx.reqs, r.src ≠ .pcie) ∧
    t.mbx.outCard = s.mbx.outCard ∧ tget t.hst.cnt 2 = satInc (tget s.hst.cnt 2) ∧
    t.hst.linkUp = (match k with | .functionLevel | .hot => s.hst.linkUp | .linkDown | .perst => false)) ∧
  (∀ sp w s, Settled s → s.hasPcie = true → exec (.pcieLinkUp sp w) s = .next { s with
    hst.linkUp := true, hst.speed := BitVec.ofNat 3 sp, hst.width := BitVec.ofNat 3 w }) ∧
  (∀ q s, Settled s → s.hasPcie = true → s.mode = .selftest →
    exec (.configurationRequest q) s = .next { s with out := .config none :: s.out }) ∧
  (∀ s, Settled s → s.hasPcie = true → s.mode ≠ .selftest → ∃ t, exec (.configurationRequest (.read 0)) s = .next t ∧
      t = { s with hst := t.hst, out := t.out, freeCtr := t.freeCtr } ∧
    t.out = .config (some (BitVec.ofNat 32 ((0x4F30 + s.otp.variant.toNat) * 0x10000 + 0x1F4C))) :: s.out ∧ t.hst = s.hst) ∧
  (∀ b s, Settled s → s.hasPcie = true → s.mode ≠ .selftest → ∃ t, exec (.configurationRequest (.busMaster b)) s = .next t ∧
      t = { s with hst := t.hst, out := t.out, freeCtr := t.freeCtr } ∧
    t.hst.bme = b ∧ t.out.head? = some (.config (some 0)))

/-- R398, R399: PUT queues the message of MBX_IN or is refused with BUSY while one waits, GET frees the oldest reply; the controller takes a
request whose reply has room, and answers one of the wrong length at once. STAGE_PROGRAM programs its words as a host would and answers how
many; STAGE_ERASE begins an erase that is answered at its end. The model's own choice here: a request of the wrong length is answered when
it is taken, and a staged erase when it ends: log 82. -/
def Obligations.MailboxQueues : Prop :=
  (∀ src m s, Settled s → s.mode.fromArmed = true → s.otp.cardForm = false → (∀ r ∈ s.mbx.reqs, r.src ≠ .pcie) →
    readMbx s.mbxInBytes = some m → exec (.mbxPut src) s = .next { s with
      mbx.reqs := s.mbx.reqs ++ [{ src := .pcie, msg := m }], hst.mbxStat := 0x00 }) ∧
  (∀ src s, Settled s → s.mode.fromArmed = true → s.otp.cardForm = false → (∃ r ∈ s.mbx.reqs, r.src = .pcie) →
    exec (.mbxPut src) s = .next { s with hst.cnt := tinc s.hst.cnt 3, hst.mbxStat := 0x01 }) ∧
  (∀ src m ms s, Settled s → s.mode.fromArmed = true → s.otp.cardForm = false → s.mbx.outPcie = m :: ms →
    exec (.mbxGet src) s = .next { s with mbx.outPcie := ms, hst.mbxStat := 0x00 }) ∧
  (∀ r s, Settled s → s.mode.fromArmed = true → s.mbx.current = none → s.nextReq = some r → mbxLenOk r.msg = true →
    exec .mailboxTake s = .next { s with mbx.current := some r, mbx.reqs := s.mbx.reqs.erase r }) ∧
  (∀ r s, Settled s → s.mode.fromArmed = true → s.mbx.current = none → s.nextReq = some r → mbxLenOk r.msg = false →
    ∃ t, exec .mailboxTake s = .next t ∧
      t = { s with gctl := t.gctl, hst := t.hst, mbx := t.mbx, out := t.out } ∧ Replied r 0x03 [] s t ∧ t.mbx.reqs = s.mbx.reqs.erase r) ∧
  (∀ r b i s, Executes 0x10 r s → r.msg.payload.length = 36 → at32 r.msg.payload 0 % 32 = 0 → sectorOf (at32 r.msg.payload 0) = some (b, i) →
    s.fixedArea b i = false → s.arc.wp b i = false → s.arrayFree = true → s.reeraseDue b = false → s.crd.ejState = 0 →
    s.arc.isBlank (at32 r.msg.payload 0) = true → ∃ t, exec .stageProgram s = .next t ∧
      t = { s with gctl := t.gctl, arc := t.arc, flt := t.flt, hst := t.hst, mbx := t.mbx, out := t.out, freeCtr := t.freeCtr } ∧ Replied r 0x00 (leBytes 4 1 ++ leBytes 4 0) s t ∧
      wfind t.arc.words (at32 r.msg.payload 0 / 32) = some (.prog (r.msg.payload.drop 4)) ∧ t.arc.prog = none) ∧
  (∀ r b i s, Executes 0x10 r s → r.msg.payload.length = 36 → at32 r.msg.payload 0 % 32 = 0 → sectorOf (at32 r.msg.payload 0) = some (b, i) →
    s.fixedArea b i = true ∨ s.arc.wp b i = true → ∃ t, exec .stageProgram s = .next t ∧
      t = { s with gctl := t.gctl, arc := t.arc, flt := t.flt, hst := t.hst, mbx := t.mbx, out := t.out, freeCtr := t.freeCtr } ∧ Replied r 0x00 (leBytes 4 0 ++ leBytes 4 4) s t ∧
      t.arc.words = s.arc.words) ∧
  (∀ r b i s, Executes 0x11 r s → at32 r.msg.payload 0 = sectorBase b i → sectorOf (sectorBase b i) = some (b, i) →
    s.fixedArea b i = false → s.arc.wp b i = false → s.arrayFree = true → s.reeraseDue b = false → s.crd.ejState = 0 →
    ∃ t, exec .stageErase s = .next t ∧
      t = { s with gctl := t.gctl, arc := t.arc, flt := t.flt, hst := t.hst, mbx := t.mbx, out := t.out } ∧ t.mbx = s.mbx ∧ t.arc.erase = some {
      owner := .mailbox r.src r.msg.tag, code := (if i < 8 then 0x21 else 0x20), bank := b, index := i, since := s.tim.mono }) ∧
  (∀ r e s, Settled s → s.mbx.current = some r → r.msg.type = 0x11 → s.arc.erase = some e → e.suspended = false → e.byDevice = false →
    e.owner = .mailbox r.src r.msg.tag → ∃ u, exec .eraseEnd s = .next (settle u) ∧
      u = { s with arc := u.arc, flt := u.flt, hst := u.hst, mbx := u.mbx, out := u.out } ∧ Replied r 0x00 [] s u ∧ u.arc.erase = none)

/-- R226, R399: INC_LIST answers an entry for each record from REC_SEQ on, in ascending order; INC_EXPORT answers bytes of a record as
stored, NOT_PRESENT where no record has the number, BAD_ARG outside the record, and CRC_ERROR where a code word that it reads is
UNCORRECTABLE. LDG_EXPORT answers the MAC before the first entry and whole entries of consecutive SEQ, and NOT_PRESENT where the ledger has
none. The model's own choice here: statuses and ranges that R399 does not name are the model's: log 83. -/
def Obligations.MailboxMessages : Prop :=
  (∀ r s, Executes 0x20 r s → ∃ u, exec .incList s = .next (settle u) ∧
      u = { s with arc := u.arc, flt := u.flt, hst := u.hst, mbx := u.mbx, out := u.out, freeCtr := u.freeCtr } ∧ Replied r 0x00
      (((((recordsIn s.arc s.incArea).filter (fun f => decide (at32 r.msg.payload 0 ≤ f.seq))).mergeSort (fun a b => a.seq ≤ b.seq)).take 255).flatMap (listEntry s)) s u ∧
    u.arc.words = s.arc.words) ∧
  (∀ r e s, Executes 0x21 r s → (∀ f ∈ recordsIn (s.showing e).arc s.incArea, f.seq ≠ at32 r.msg.payload 0) →
    ∃ u, exec (.incExport e) s = .next (settle u) ∧
      u = { s with arc := u.arc, flt := u.flt, hst := u.hst, mbx := u.mbx, out := u.out } ∧ Replied r 0x0A [] s u ∧ u.arc.words = s.arc.words) ∧
  (∀ r e f s, Executes 0x21 r s → (recordsIn (s.showing e).arc s.incArea).find? (fun f => f.seq = at32 r.msg.payload 0) = some f →
    4064 < at32 r.msg.payload 8 ∨ at32 r.msg.payload 8 % 4 ≠ 0 ∨ s.incSec.recSectors * 0x40000 < at32 r.msg.payload 4 + at32 r.msg.payload 8 →
    ∃ u, exec (.incExport e) s = .next (settle u) ∧
      u = { s with arc := u.arc, flt := u.flt, hst := u.hst, mbx := u.mbx, out := u.out } ∧ Replied r 0x03 [] s u ∧ u.arc.words = s.arc.words) ∧
  (∀ r e f s, Executes 0x21 r s → (recordsIn (s.showing e).arc s.incArea).find? (fun f => f.seq = at32 r.msg.payload 0) = some f →
    at32 r.msg.payload 8 ≤ 4064 → at32 r.msg.payload 8 % 4 = 0 → at32 r.msg.payload 4 + at32 r.msg.payload 8 ≤ s.incSec.recSectors * 0x40000 →
    ∃ u, exec (.incExport e) s = .next (settle u) ∧
      u = { s with arc := u.arc, flt := u.flt, hst := u.hst, mbx := u.mbx, out := u.out } ∧ u.arc.words = s.arc.words ∧
      ((recordBytes f (at32 r.msg.payload 4) (at32 r.msg.payload 8) (s.showing e)).2.2 = false →
        Replied r 0x00 (recordBytes f (at32 r.msg.payload 4) (at32 r.msg.payload 8) (s.showing e)).2.1 s u) ∧
      ((recordBytes f (at32 r.msg.payload 4) (at32 r.msg.payload 8) (s.showing e)).2.2 = true → Replied r 0x06 [] s u)) ∧
  (∀ r f l s, Executes 0x30 r s → s.arc.uncorrIn ledgerBase 0x10000 = false →
    (runFrom (at32 r.msg.payload 0) ((foundEntries s.otp.deviceKey s.arc).mergeSort (fun a b => a.seq ≤ b.seq))).take (at32 r.msg.payload 4) = f :: l →
    ∃ u, exec .ldgExport s = .next (settle u) ∧
      u = { s with arc := u.arc, flt := u.flt, hst := u.hst, mbx := u.mbx, out := u.out } ∧ Replied r 0x00 (digestBytes f.last ++ fitEntries (f :: l) 4056) s u ∧ u.arc.words = s.arc.words) ∧
  (∀ r s, Executes 0x30 r s → s.arc.uncorrIn ledgerBase 0x10000 = false →
    (runFrom (at32 r.msg.payload 0) ((foundEntries s.otp.deviceKey s.arc).mergeSort (fun a b => a.seq ≤ b.seq))).take (at32 r.msg.payload 4) = [] →
    ∃ u, exec .ldgExport s = .next (settle u) ∧
      u = { s with arc := u.arc, flt := u.flt, hst := u.hst, mbx := u.mbx, out := u.out } ∧ Replied r 0x0A [] s u ∧ u.arc.words = s.arc.words)

/-- R79, R281, R294, R399: INC_ACK marks a sealed record as exported, refuses an unsealed one with BUSY and answers NOT_PRESENT for none;
LDG_ACK moves ACKED_SEQ up to SEQ and never back; FLOOR_RAISE raises the floor to at most SEC_VER and never lowers it. The model's own
choice here: the EXPORTED marker is the model's: log 69; a FLOOR_RAISE above SEC_VER or below the floor: log 84. -/
def Obligations.MailboxAcknowledgements : Prop :=
  (∀ r f s, Executes 0x22 r s → (recordsIn s.arc s.incArea).find? (fun f => f.seq = at32 r.msg.payload 0) = some f → f.isSealed = true →
    f.exported = false → s.inc.vstate ≠ .full → s.arc.prog = none →
    ∃ u, exec .incAck s = .next (settle u) ∧
      u = { s with arc := u.arc, inc := u.inc, flt := u.flt, hst := u.hst, mbx := u.mbx, out := u.out, freeCtr := u.freeCtr } ∧ Replied r 0x00 [] s u ∧ (wfind u.arc.words (recWord s.incArea f.first 28 / 32)).isSome = true ∧
      u.inc = s.inc ∧ ∀ k, k ≠ recWord s.incArea f.first 28 / 32 → wfind u.arc.words k = wfind s.arc.words k) ∧
  (∀ r f s, Executes 0x22 r s → (recordsIn s.arc s.incArea).find? (fun f => f.seq = at32 r.msg.payload 0) = some f → f.isSealed = true →
    f.exported = true → ∃ u, exec .incAck s = .next (settle u) ∧
      u = { s with arc := u.arc, inc := u.inc, flt := u.flt, hst := u.hst, mbx := u.mbx, out := u.out, freeCtr := u.freeCtr } ∧ Replied r 0x00 [] s u ∧ u.arc.words = s.arc.words ∧ u.inc = s.inc) ∧
  (∀ r f s, Executes 0x22 r s → (recordsIn s.arc s.incArea).find? (fun f => f.seq = at32 r.msg.payload 0) = some f → f.isSealed = false →
    ∃ u, exec .incAck s = .next (settle u) ∧
      u = { s with arc := u.arc, inc := u.inc, flt := u.flt, hst := u.hst, mbx := u.mbx, out := u.out, freeCtr := u.freeCtr } ∧ Replied r 0x01 [] s u ∧ u.arc.words = s.arc.words ∧ u.inc = s.inc) ∧
  (∀ r s, Executes 0x22 r s → (∀ f ∈ recordsIn s.arc s.incArea, f.seq ≠ at32 r.msg.payload 0) →
    ∃ u, exec .incAck s = .next (settle u) ∧
      u = { s with arc := u.arc, inc := u.inc, flt := u.flt, hst := u.hst, mbx := u.mbx, out := u.out, freeCtr := u.freeCtr } ∧ Replied r 0x0A [] s u ∧ u.arc.words = s.arc.words ∧ u.inc = s.inc) ∧
  (∀ r s, Executes 0x31 r s → s.ldg.lstate = 2 → s.ldg.ackedSeq.toNat ≤ at32 r.msg.payload 0 → at32 r.msg.payload 0 ≤ s.ldg.seq.toNat →
    ∃ u, exec .ldgAck s = .next (settle u) ∧
      u = { s with arc := u.arc, ldg := u.ldg, flt := u.flt, hst := u.hst, mbx := u.mbx, out := u.out, freeCtr := u.freeCtr } ∧ Replied r 0x00 [] s u ∧ u.ldg.ackedSeq = BitVec.ofNat 32 (at32 r.msg.payload 0)) ∧
  (∀ r s, Executes 0x31 r s → s.ldg.lstate = 2 → at32 r.msg.payload 0 < s.ldg.ackedSeq.toNat ∨ s.ldg.seq.toNat < at32 r.msg.payload 0 →
    ∃ t, exec .ldgAck s = .next t ∧
      t = { s with arc := t.arc, ldg := t.ldg, flt := t.flt, hst := t.hst, mbx := t.mbx, out := t.out, freeCtr := t.freeCtr } ∧ Replied r 0x03 [] s t ∧ t.ldg = s.ldg) ∧
  (∀ r s, Executes 0x40 r s → s.img.run.isSome = true → at32 r.msg.payload 0 % 65536 ≤ s.im.hdr.secVer → ∃ t, exec .floorRaise s = .next t ∧
      t = { s with otp := t.otp, hst := t.hst, mbx := t.mbx, out := t.out } ∧
    Replied r 0x00 [] s t ∧ t.otp.floor.toNat = max s.otp.floor.toNat (at32 r.msg.payload 0 % 65536) ∧ SameFuses s t ∧ t.otp.keysOff = s.otp.keysOff) ∧
  (∀ r s, Executes 0x40 r s → s.img.run.isSome = true → s.im.hdr.secVer < at32 r.msg.payload 0 % 65536 → ∃ t, exec .floorRaise s = .next t ∧
      t = { s with otp := t.otp, hst := t.hst, mbx := t.mbx, out := t.out } ∧
    Replied r 0x03 [] s t ∧ t.otp = s.otp)

/-- R384, R385, R400, R401: IDCODE, BYPASS and SAMPLE_PRELOAD are taken wherever the port is live; EXTEST, CLAMP and HIGHZ in HOLD and
MAINT, and are BYPASS elsewhere; INT_SCAN enters HOLD, clears every memory, and shuts the key path of a sealed part. The model's own choice
here: entry to HOLD by INT_SCAN is the model's: log 85. -/
def Obligations.JtagInstructions : Prop :=
  (∀ s, Settled s → s.mode.answers = true → exec .idcode s = .next { s with pins.ir := .idcode } ∧
    exec .bypass s = .next { s with pins.ir := .bypass }) ∧
  (∀ bits s, Settled s → s.mode.answers = true → exec (.samplePreload bits) s = .next { s with pins.ir := .sample, pins.bsr := bits }) ∧
  (∀ s, Settled s → s.mode = .hold ∨ s.mode = .maint → exec .extest s = .next { s with pins.ir := .extest } ∧
    exec .clamp s = .next { s with pins.ir := .clamp } ∧ exec .highz s = .next { s with pins.ir := .highz }) ∧
  (∀ s, Settled s → s.mode.answers = true → s.mode ≠ .hold → s.mode ≠ .maint → exec .extest s = .next { s with pins.ir := .bypass } ∧
    exec .clamp s = .next { s with pins.ir := .bypass } ∧ exec .highz s = .next { s with pins.ir := .bypass }) ∧
  (∀ s, Settled s → s.mode.answers = true → s.pins.scan = none → ∃ t, exec .intScan s = .next t ∧
      t = { s with otp := t.otp, before := t.before, pins := t.pins, gctl := t.gctl, tim := t.tim, tck := t.tck, img := t.img, sch := t.sch, cvt := t.cvt, cams := t.cams, eths := t.eths, spis := t.spis, aln := t.aln, ego := t.ego, grd := t.grd, outb := t.outb, arc := t.arc, inc := t.inc, ldg := t.ldg, fab := t.fab, flt := t.flt, hst := t.hst, mbx := t.mbx, mem := t.mem, shadows := t.shadows, out := t.out } ∧ t.mode = .hold ∧ t.gctl.holdReason = 5 ∧
    t.mem = [] ∧ t.otp.keysOff = (s.otp.keysOff || s.otp.isSealed) ∧ t.pins.scan = some s.tim.mono ∧ t.pins.faultPair = some (false, true) ∧
    t.arc.erase = none ∧ t.arc.words = (finishWord s).arc.words ∧ Out.scanChains ∈ t.out ∧ t.tim.mono = s.tim.mono)

/-- R295, R296, R297, R298: A link comes up between partners of one kind and one spread, and is refused, with its state telling why, between
others; it goes down with its held frames dropped, at once or 3 ms after the last HELLO; acknowledgements release held frames and a negative
one replays them; a frame whose TAG fails, or that comes after a gap, is dropped and answered with a negative acknowledgement. -/
def Obligations.FabricLinks : Prop :=
  (∀ p b s, Settled s → p < 4 → (s.port p).up = false → portMayTrain p s = true → s.otp.isSealed = b.isSealed → (s.otp.isSealed = true → b.certOk = true) →
    b.spread = s.im.power.fabSpread → ∃ t, exec (.fabricLinkUp p b) s = .next t ∧
      t = { s with fab := t.fab, hst := t.hst, out := t.out } ∧ (t.port p).up = true ∧ (t.port p).nbSerial = b.serial ∧
      (t.port p).held = [] ∧ (t.port p).lseq = 0 ∧ (t.port p).nbReady = false ∧ t.fab.db = s.fab.db) ∧
  (∀ p b s, Settled s → p < 4 → (s.port p).up = false → portMayTrain p s = true → s.otp.isSealed = true → b.isSealed = false ∨ b.certOk = false →
    exec (.fabricLinkUp p b) s = .next (s.setPort p { s.port p with pstate := 4 })) ∧
  (∀ p b s, Settled s → p < 4 → (s.port p).up = false → portMayTrain p s = true → s.otp.isSealed = b.isSealed → (s.otp.isSealed = true → b.certOk = true) →
    b.spread ≠ s.im.power.fabSpread → exec (.fabricLinkUp p b) s = .next (s.setPort p { s.port p with pstate := 5 })) ∧
  (∀ p s, Settled s → p < 4 → (s.port p).up = true → ∃ u, exec (.fabricLinkDown p) s = .next (settle u) ∧
      u = { s with fab := u.fab, flt := u.flt, hst := u.hst, out := u.out } ∧ (u.port p).up = false ∧
    (u.port p).held = [] ∧ tget (u.port p).cnt 5 = satInc (tget (s.port p).cnt 5)) ∧
  (∀ p s, Settled s → QuietClock s → p < 4 → (s.port p).up = true → ∃ u, exec (.helloTimeout p) s = .next (settle u) ∧
      u = { s with tim := u.tim, fab := u.fab, flt := u.flt, hst := u.hst, out := u.out } ∧
    (u.port p).up = false ∧ tget (u.port p).cnt 5 = satInc (tget (s.port p).cnt 5) ∧ (s.port p).helloMono + 3000000 ≤ u.tim.mono) ∧
  (∀ p a s, Settled s → s.mode.answers = true → p < 4 → (s.port p).up = true → exec (.linkAck p ⟨a, .whole⟩) s = .next (s.setPort p { s.port p with
    cnt := tinc (s.port p).cnt 0, held := (s.port p).held.filter (fun h => !seqLe h.lseq a) })) ∧
  (∀ p m s, Settled s → s.mode.answers = true → p < 4 → (s.port p).up = true → (∀ h ∈ (s.port p).held, h.replays < 7) → (∃ h ∈ (s.port p).held, seqLe m h.lseq = true) →
    ∃ t, exec (.linkNak p ⟨m, .whole⟩) s = .next t ∧
      t = { s with fab := t.fab, flt := t.flt, hst := t.hst, out := t.out } ∧ (t.port p).up = true ∧
      (t.port p).held = ((s.port p).held.filter (fun h => seqLe m h.lseq)).map (fun h => { h with replays := h.replays + 1 }) ∧
      t.out = ((t.port p).held.map (fun h => Out.fabric p (BitVec.ofNat 64 s.tim.dev) (linkFrame (s.port p).key 1 h.msg.time h.lseq
        ((s.port p).rxNext - 1) (some (h.hdr, h.msg))))).reverse ++ s.out) ∧
  (∀ p hdr i c s, Settled s → s.mode.answers = true → p < 4 → (s.port p).up = true → hdr.rx.fate = .badTag →
    ∃ t ts f, exec (.trigger p hdr i c) s = .next t ∧
      t = { s with arc := t.arc, inc := t.inc, fab := t.fab, flt := t.flt, hst := t.hst, out := t.out, freeCtr := t.freeCtr } ∧ t.out = .fabric p ts f :: s.out ∧ f.kind = 3 ∧ f.ack = (s.port p).rxNext ∧
      tget (t.port p).cnt 3 = satInc (tget (s.port p).cnt 3) ∧ (t.port p).rxNext = (s.port p).rxNext ∧ (t.port p).held = (s.port p).held) ∧
  (∀ p hdr i c s, Settled s → s.mode.answers = true → p < 4 → (s.port p).up = true → hdr.rx.fate = .whole → seqLe hdr.rx.lseq (s.port p).rxNext = false →
    ∃ t ts f, exec (.trigger p hdr i c) s = .next t ∧
      t = { s with arc := t.arc, inc := t.inc, fab := t.fab, flt := t.flt, hst := t.hst, out := t.out, freeCtr := t.freeCtr } ∧ t.out = .fabric p ts f :: s.out ∧ f.kind = 3 ∧ f.ack = (s.port p).rxNext ∧
      (t.port p).rxNext = (s.port p).rxNext)

/-- R301, R312: Every trained port gets a HELLO each 1 ms; a HELLO names its neighbour, and one with the other spread takes the link down; a
link's delay is asked for each 125 ms, answered with stamps, and its mean of the last 8 kept. The model's own choice here: the phase of
periodic messages and the instant of a DELAY_RESP are the model's: logs 86 and 87. -/
def Obligations.HelloAndLinkDelay : Prop :=
  (∀ s, Settled s → QuietClock s → s.mode.answers = true → s.pins.outputsIdle = false → ∃ t, exec .helloSend s = .next t ∧
      t = { s with tim := t.tim, fab := t.fab, out := t.out } ∧
    t.fab.helloMono = t.tim.mono ∧ s.fab.helloMono + 1000000 ≤ t.tim.mono ∧
    ∀ p < 4, (s.port p).up = true → ∃ m, Sends p (.hello m) t ∧ m.serial = s.otp.serial ∧ m.port = p ∧ m.state = s.mode.code) ∧
  (∀ p hdr h s, InOrder p hdr s → reservedDst hdr.dst = false → s.mode.answers = true → h.spread = s.im.power.fabSpread →
    ∃ u, exec (.hello p (hdr, h)) s = .next (settle u) ∧
      u = { s with fab := u.fab, flt := u.flt, hst := u.hst, out := u.out } ∧ (u.port p).nbAddr = h.addr ∧ (u.port p).nbSerial = h.serial ∧
      (u.port p).helloMono = s.tim.mono ∧ (u.port p).nbReady = ((s.port p).nbReady || h.ready) ∧ (u.port p).up = true ∧
      tget (u.port p).cnt 0 = satInc (tget (s.port p).cnt 0)) ∧
  (∀ p hdr h s, InOrder p hdr s → reservedDst hdr.dst = false → s.mode.answers = true → h.spread ≠ s.im.power.fabSpread →
    ∃ u, exec (.hello p (hdr, h)) s = .next (settle u) ∧
      u = { s with fab := u.fab, flt := u.flt, hst := u.hst, out := u.out } ∧ (u.port p).pstate = 5 ∧ (u.port p).nbSerial = 0) ∧
  (∀ p s, Settled s → QuietClock s → p < 4 → (s.port p).up = true → s.armedOn = true → ∃ t ts f h, exec (.delayMeasure p) s = .next t ∧
      t = { s with tim := t.tim, fab := t.fab, out := t.out } ∧
    t.out = .fabric p ts f :: s.out ∧ f.time = true ∧ f.body = some (h, .delayReq (BitVec.ofNat 64 t.tim.dev)) ∧ (t.port p).t1 = some (BitVec.ofNat 64 t.tim.dev) ∧
      (s.port p).delayMono + 125000000 ≤ t.tim.mono) ∧
  (∀ p hdr t1 s, InOrder p hdr s → reservedDst hdr.dst = false → s.armedOn = true → ∃ t ts f h a n, exec (.delayReq p hdr t1) s = .next t ∧
      t = { s with fab := t.fab, out := t.out, freeCtr := t.freeCtr } ∧
    t.out = .fabric p ts f :: a :: s.out ∧ f.time = true ∧
      f.body = some (h, .delayResp t1 (BitVec.ofNat 64 s.tim.dev) (BitVec.ofNat 64 (s.tim.dev + n)))) ∧
  (∀ p hdr t1 t2 t3 s, InOrder p hdr s → reservedDst hdr.dst = false → s.armedOn = true → (s.port p).t1 = some t1 →
    ∃ t d, exec (.delayResp p hdr t1 t2 t3) s = .next t ∧
      t = { s with fab := t.fab, out := t.out } ∧ (t.port p).t1 = none ∧ (t.port p).delays = (d :: (s.port p).delays).take 8 ∧
      (t.port p).peerDelay = BitVec.ofInt 16 (roundDiv ((d :: (s.port p).delays).take 8).sum ((d :: (s.port p).delays).take 8).length) ∧
      d = roundDiv (((s.tim.dev : Int) - BitVec.toNat t1) - ((BitVec.toNat t3 : Int) - BitVec.toNat t2)) 2 + s.fabSec.asym.getD p 0)

/-- R304, R305, R306, R308: The device floods its LSA with the next number; a newer LSA is kept and forwarded, an older one is not; an LSA
that is not refreshed for 350 ms is discarded; an assignment to its SERIAL gives the device its address; ROUTE_SEL reads the table. The
model's own choice here: the phase of the LSA is the model's: log 86; the numbers of broadcasts: log 88. -/
def Obligations.FabricDatabase : Prop :=
  (∀ s, Settled s → QuietClock s → s.fabricOn = true → s.fab.dupAddr = false →
    (∀ r ∈ s.fab.db, r.addr = s.fab.addr → s.otp.serial.toNat ≤ r.lsa.serial.toNat) → ∃ u, exec .lsaRefresh s = .next (settle u) ∧
      u = { s with tim := u.tim, fab := u.fab, flt := u.flt, hst := u.hst, out := u.out } ∧
      u.fab.lsaSeq = s.fab.lsaSeq + 1 ∧ u.fab.lsaMono = u.tim.mono ∧ s.fab.lsaMono + 100000000 ≤ u.tim.mono ∧
      ∃ r, u.fab.lsaOf s.otp.serial = some r ∧ r.lsa.seq = u.fab.lsaSeq ∧ r.addr = s.fab.addr) ∧
  (∀ p hdr l s, Broadcast p hdr s → s.fabricOn = true → l.serial ≠ s.otp.serial →
    (∀ q, s.fab.lsaOf l.serial = some q → q.lsa.seq.toNat < l.seq.toNat) → ∃ u, exec (.lsa p hdr l) s = .next (settle u) ∧
      u = { s with fab := u.fab, flt := u.flt, hst := u.hst, out := u.out } ∧
      u.fab.lsaOf l.serial = some { lsa := l, addr := hdr.src, mono := s.tim.mono }) ∧
  (∀ p hdr l q s, Broadcast p hdr s → s.fabricOn = true → l.serial ≠ s.otp.serial → s.fab.lsaOf l.serial = some q →
    l.seq.toNat ≤ q.lsa.seq.toNat → exec (.lsa p hdr l) s = .next (s.heardCast p hdr)) ∧
  (∀ m s, Settled s → QuietClock s → oldestLsa s = some m → ∃ u, exec .lsaExpiry s = .next (settle u) ∧
      u = { s with tim := u.tim, fab := u.fab, flt := u.flt, hst := u.hst, out := u.out } ∧ m + 350000000 ≤ u.tim.mono ∧
    ∀ r ∈ u.fab.db, r.lsa.serial = s.otp.serial ∨ u.tim.mono < r.mono + 350000000) ∧
  (∀ p hdr a s, Broadcast p hdr s → s.fabSec.addrMode = 2 → ∃ u, exec (.addrAssign p hdr s.otp.serial a) s = .next (settle u) ∧
      u = { s with fab := u.fab, flt := u.flt, hst := u.hst, out := u.out } ∧
    u.fab.addr = a ∧ (s.otp.serial, a) ∈ u.fab.assigned) ∧
  (∀ p hdr x a s, Broadcast p hdr s → x ≠ s.otp.serial → ∃ t, exec (.addrAssign p hdr x a) s = .next t ∧
      t = { s with fab := t.fab, flt := t.flt, hst := t.hst, out := t.out } ∧ t.fab.addr = s.fab.addr ∧
    (x, a) ∈ t.fab.assigned) ∧
  (∀ m s, Settled s → QuietClock s → s.fab.dupGone = some m → s.fab.dupAddr = true → s.fabricOn = true → ∃ u,
    exec .dupAddrRecovery s = .next (settle u) ∧
      u = { s with tim := u.tim, fab := u.fab, flt := u.flt, hst := u.hst, out := u.out } ∧ u.fab.dupAddr = false ∧ u.fab.addr = wantAddr s ∧
      m + s.fabSec.settle * 1000000 ≤ u.tim.mono) ∧
  (∀ src a e s, Settled s → s.hears src = true → s.mode.fromArmed = true → s.routeOf a = some e → exec (.routeSelect src a) s = .next { s with
    fab.routeSel := a, fab.routePort := BitVec.ofNat 3 e.port, fab.routeHops := BitVec.ofNat 6 e.hops }) ∧
  (∀ src a s, Settled s → s.hears src = true → s.mode.fromArmed = true → s.routeOf a = none → exec (.routeSelect src a) s = .next { s with
    fab.routeSel := a, fab.routePort := 7, fab.routeHops := 0 })

/-- R309, R319, R330, R329: The candidate that ranks first takes office; a ROLE of the known manager makes the device standby or worker and
sets its EPOCH; a ROLE of another manager than it or its standby sends the device to QUARANTINE with MERGE. A worker obeys a SAFE of its
manager where OBEY_SAFE is set and leaves for QUARANTINE elsewhere; a manager broadcasts its claim, resigns into QUARANTINE before a better
one, and keeps its office before a worse. The model's own choice here: the CAUSE 8 of a SAFE and the phase of MGR_CLAIM are the model's:
logs 86 and 91. -/
def Obligations.FabricRolesAndClaims : Prop :=
  (∀ r l s, Settled s → QuietClock s → s.fabricOn = true → s.fab.db ≠ [] → s.fab.mgr = 0xFFF → s.fab.dupAddr = false →
    s.fab.role ≠ roleManager → s.fab.ranking s.otp.serial = r :: l → r.lsa.serial = s.otp.serial → ∃ u, exec .election s = .next (settle u) ∧
      u = { s with gctl := u.gctl, tim := u.tim, tck := u.tck, fab := u.fab, pwr := u.pwr, flt := u.flt, hst := u.hst, out := u.out } ∧
      u.fab.role = roleManager ∧ u.fab.mgr = u.fab.addr ∧ s.fab.changeMono + s.fabSec.settle * 1000000 ≤ u.tim.mono) ∧
  (∀ p hdr m b d e s, Broadcast p hdr s → s.fabricOn = true → s.fab.role ≠ roleManager → s.fab.dupAddr = false → m ≠ s.fab.addr →
    s.fab.mgr = m → s.fab.orphan = false → s.fab.lostMono = none → s.fab.addr ≠ 0xFFF → ∃ t, exec (.role p hdr m b d e) s = .next t ∧
      t = { s with gctl := t.gctl, tim := t.tim, tck := t.tck, fab := t.fab, flt := t.flt, hst := t.hst, out := t.out } ∧ t.fab.mgr = m ∧ t.fab.stby = b ∧ t.fab.epoch = e ∧
      t.fab.role = (if b = s.fab.addr then roleStandby else roleWorker) ∧ t.mode = s.mode) ∧
  (∀ p hdr m b d e s, Broadcast p hdr s → s.fabricOn = true → s.fab.role ≠ roleManager → s.fab.dupAddr = false → m ≠ s.fab.addr →
    s.fab.mgr ≠ 0xFFF → m ≠ s.fab.mgr → m ≠ s.fab.stby → s.mode = .run → ∃ u, exec (.role p hdr m b d e) s = .next (settle u) ∧
      EnterKeeps s u ∧ u.grd = s.grd ∧ u.arc = s.arc ∧ u.crd = s.crd ∧ u.clk = s.clk ∧ u.tst = s.tst ∧ u.mem = s.mem ∧ u.freeCtr = s.freeCtr ∧
      u.mode = .quarantine ∧ u.fab.cause = 7 ∧ u.fab.mgr = m ∧ u.tck.src = 2) ∧
  (∀ p hdr i c s, Broadcast p hdr s → s.isWorker = true → hdr.src = s.fab.mgr → s.mode = .run → s.fabSec.obeySafe = true →
    ∃ u, exec (.safe p hdr i c) s = .next (settle u) ∧
      EnterKeeps s u ∧ u.grd = s.grd ∧ u.arc = s.arc ∧ u.crd = s.crd ∧ u.clk = s.clk ∧ u.tst = s.tst ∧ u.mem = s.mem ∧ u.freeCtr = s.freeCtr ∧ u.mode = .safe ∧ u.gctl.prev = s.prevFor .safe) ∧
  (∀ p hdr i c s, Broadcast p hdr s → s.isWorker = true → hdr.src = s.fab.mgr → s.mode = .run → s.fabSec.obeySafe = false →
    ∃ u, exec (.safe p hdr i c) s = .next (settle u) ∧
      EnterKeeps s u ∧ u.grd = s.grd ∧ u.arc = s.arc ∧ u.crd = s.crd ∧ u.clk = s.clk ∧ u.tst = s.tst ∧ u.mem = s.mem ∧ u.freeCtr = s.freeCtr ∧ u.mode = .quarantine ∧ u.fab.cause = 8 ∧ u.fab.mgrSafe = true) ∧
  (∀ s, Settled s → QuietClock s → s.isManager = true → s.fabricOn = true → ∃ t, exec .mgrClaimSend s = .next t ∧
      t = { s with tim := t.tim, fab := t.fab, out := t.out } ∧ t.fab.claimDue = false ∧
    t.fab.claimMono = t.tim.mono ∧ ∀ p < 4, (s.port p).up = true → ∃ m, Sends p (.mgrClaim m) t ∧ m.serial = s.otp.serial ∧
      m.epoch = s.fab.epoch) ∧
  (∀ p hdr c s, Broadcast p hdr s → s.isManager = true → s.mode = .run →
    rankKey c.mgrSel c.priority c.serial < rankKey s.pins.mgrSel (BitVec.ofNat 8 s.fabSec.priority) s.otp.serial →
    ∃ u, exec (.mgrClaim p hdr c) s = .next (settle u) ∧
      EnterKeeps s u ∧ u.grd = s.grd ∧ u.arc = s.arc ∧ u.crd = s.crd ∧ u.clk = s.clk ∧ u.tst = s.tst ∧ u.mem = s.mem ∧ u.freeCtr = s.freeCtr ∧ u.mode = .quarantine ∧ u.fab.role = roleWorker ∧ u.fab.mgr = hdr.src ∧
      u.fab.cause = 7 ∧ tget u.fab.acnt 5 = satInc (tget s.fab.acnt 5)) ∧
  (∀ p hdr c s, Broadcast p hdr s → s.isManager = true →
    rankKey s.pins.mgrSel (BitVec.ofNat 8 s.fabSec.priority) s.otp.serial ≤ rankKey c.mgrSel c.priority c.serial →
    ∃ t, exec (.mgrClaim p hdr c) s = .next t ∧
      t = { s with fab := t.fab, hst := t.hst, out := t.out } ∧ t.fab.role = roleManager ∧ t.fab.mgr = s.fab.mgr ∧
      (BitVec.extractLsb' 32 32 c.epoch).toNat ≤ t.fab.genSeen.toNat)

/-- R311, R312, R313: The manager sends the TICK of the next boundary to its children; a worker takes the boundary of a TICK, or leaves for
QUARANTINE where the offset exceeds the limit; without a TICK it makes the boundary itself at T, and counts it. The model's own choice here:
how TIME_OK counts is the model's: log 87. -/
def Obligations.FabricTicks : Prop :=
  (∀ tk i f s, Settled s → QuietClock s → s.isManager = true → s.fabricOn = true → s.mode.ticks = true → s.tck.tickSent = false →
    nextKnown s = some (tk, i, f) → ∃ t, exec .tickSend s = .next t ∧ t.tck.tickSent = true ∧ TimePasses { s with fab := t.fab, tck := t.tck, out := t.out } t ∧
      ∀ p ∈ treeChildren s, ∃ m, Sends p (.tick m) t ∧ m.boundary = BitVec.ofNat 64 tk ∧ m.flywheel = f) ∧
  (∀ p hdr m s, InOrder p hdr s → reservedDst hdr.dst = false → s.armedOn = true → (treeChildren s).filter (fun c => c ≠ p) = [] →
    s.isWorker = true → hdr.src = s.fab.mgr → s.tck.active = 2 → s.tim.joinStep = false → s.tim.discAct ≠ 3 →
    s.tim.dev + 2000 ≤ m.boundary.toNat →
    (tickOffset s.tim.dev m (hdr.corr.toInt + toSigned (s.port p).peerDelay.toNat 16 * 65536)).natAbs ≤ s.fabSec.ofsLimit →
    ∃ t, exec (.tick p hdr m) s = .next t ∧
      t = { s with gctl := t.gctl, tck := t.tck, fab := t.fab, flt := t.flt, hst := t.hst, out := t.out } ∧ t.tck.lead = some (m.boundary.toNat, some m.index, m.flywheel) ∧ t.fab.missConsec = 0 ∧
      t.fab.timeOk = satInc s.fab.timeOk ∧ t.gctl = { s.gctl with fabricBack := s.gctl.degFabric } ∧ t.mode = s.mode) ∧
  (∀ p hdr m s, InOrder p hdr s → reservedDst hdr.dst = false → s.armedOn = true → (treeChildren s).filter (fun c => c ≠ p) = [] →
    s.isWorker = true → hdr.src = s.fab.mgr → s.tim.joinStep = false → s.tim.discAct ≠ 3 → s.mode = .run →
    s.fabSec.ofsLimit < (tickOffset s.tim.dev m (hdr.corr.toInt + toSigned (s.port p).peerDelay.toNat 16 * 65536)).natAbs →
    ∃ u, exec (.tick p hdr m) s = .next (settle u) ∧
      EnterKeeps s u ∧ u.grd = s.grd ∧ u.crd = s.crd ∧ u.clk = s.clk ∧ u.tst = s.tst ∧ u.mem = s.mem ∧ u.mode = .quarantine ∧ u.fab.cause = 3 ∧ u.fab.timeOk = 0 ∧ u.fab.joined = false) ∧
  (∀ s, BoundaryReady s → s.isWorker = true → s.fab.role = roleWorker → s.tck.active = 2 → s.tck.ticked = true → s.tck.lead = none →
    s.fab.missConsec + 1 < s.fabSec.freeRun → ∃ t, exec .tickMiss s = .next t ∧
      BoundaryKeeps s t ∧ t.tck.bound = s.tck.bound + s.period ∧
      t.tck.index = s.tck.index + 1 ∧ t.tck.flywheel = true ∧ t.fab.missConsec = s.fab.missConsec + 1 ∧ t.fab.timeOk = 0)

/-- R274, R300, R316, R345: A BUDGET of the manager is kept for its tick; a TRIGGER opens a record as one of the device's own; a DATA
segment that brings a whole entry is posted to its queue; a REPLY of the manager tells whether it is still in SAFE; a broadcast that the
device has seen is counted and passed over. The model's own choice here: what ends MGR_SAFE is the model's: log 91. -/
def Obligations.FabricMessages : Prop :=
  (∀ p hdr i b c s, Unicast p hdr s → s.isWorker = true → hdr.src = s.fab.mgr → exec (.budget p hdr i b c) s = .next { s.heard p hdr with
    fab.budgets := s.fab.budgets.filter (fun x => x.index ≠ i) ++ [{ index := i, budget := BitVec.toNat b, classFloor := BitVec.setWidth 2 c }] }) ∧
  (∀ p hdr i b c s, Unicast p hdr s → s.isWorker = true → hdr.src ≠ s.fab.mgr → exec (.budget p hdr i b c) s = .next (s.heard p hdr)) ∧
  (∀ p hdr i c s, Broadcast p hdr s → s.mode = .run ∨ s.mode = .degraded ∨ s.mode = .safe → s.incOn = true →
    s.incSec.trigEn.testBit 4 = true → s.inc.vstate = .ready → s.inc.record = none → s.incSec.post ≠ 0 → s.inc.ringFill < 128 →
    ∃ t r, exec (.trigger p hdr i c) s = .next t ∧
      t = { s with arc := t.arc, inc := t.inc, fab := t.fab, flt := t.flt, hst := t.hst, out := t.out, freeCtr := t.freeCtr } ∧ t.inc.vstate = .capture ∧ t.inc.recSeq = s.inc.recSeq + 1 ∧ t.inc.record = some r ∧
      r.trigs.map (fun x => (x.cause, x.detail, x.origin)) = [(5, BitVec.setWidth 16 hdr.src, i)]) ∧
  (∀ p hdr g s, Unicast p hdr s → s.isManager = false → s.mode.posts = true → (s.im.queue g.queue).prod = 9 → g.seg = 0 → g.nseg = 1 →
    g.total = g.data.length → g.total ≤ 16384 → s.fab.asmOf hdr.src g.queue = none → g.queue < 256 → s.fill g.queue = 0 → 0 < (s.im.queue g.queue).size →
    g.data.length ≤ (s.im.queue g.queue).dataLen → ∃ t, exec (.data p hdr g) s = .next t ∧
      t = { s with sch := t.sch, aln := t.aln, fab := t.fab, hst := t.hst, mem := t.mem, out := t.out, freeCtr := t.freeCtr } ∧
      (t.que g.queue).posted = satInc (s.que g.queue).posted ∧ (t.que g.queue).tail = (s.im.queue g.queue).next (s.que g.queue).tail ∧
      (t.que g.queue).drop = (s.que g.queue).drop) ∧
  (∀ p hdr r s, Unicast p hdr s → hdr.src = s.fab.mgr → hdr.src ≠ 0xFFF → exec (.reply p hdr r) s = .next { s.heard p hdr with
    fab.mgrSafe := (s.fab.mgrSafe && r.state = Mode.safe.code.setWidth 8) }) ∧
  (∀ p hdr i c m s, InOrder p hdr s → s.armedOn = true → hdr.dst = 0xFFF → hdr.src ≠ 0xFFF →
    s.fab.seenOf hdr.src = some m → newer16 hdr.mseq m = false → exec (.trigger p hdr i c) s = .next { s.heard p hdr with
      fab.cnt := tinc s.fab.cnt 1 })

/-- R318, R321, R322, R323: A JOIN_REQ of a compatible worker with enough good TICKs admits it, another is fenced with the first failure as
its cause; the worker takes the answer, the manager keeps reports, a worker obeys verdicts, and MEMBER_SEL reads what the manager keeps. The
model's own choice here: who counts JOIN and QUAR is the model's: log 90. -/
def Obligations.FabricMembership : Prop :=
  (∀ p hdr j s, Unicast p hdr s → s.isManager = true → fwAgree s.otp.fwVer j.fwVer = true → j.digest = s.im.hdr.digest →
    s.fabSec.rejoin ≤ j.timeOk.toNat → ∃ t m, exec (.joinReq p hdr j) s = .next t ∧
      t = { s with fab := t.fab, out := t.out } ∧ t.fab.member hdr.src = some m ∧ m.mstate = 1 ∧
      m.serial = j.serial ∧ m.cause = 0 ∧ tget t.fab.acnt 0 = satInc (tget s.fab.acnt 0)) ∧
  (∀ p hdr j s, Unicast p hdr s → s.isManager = true → fwAgree s.otp.fwVer j.fwVer = false → ∃ t m, exec (.joinReq p hdr j) s = .next t ∧
      t = { s with fab := t.fab, out := t.out } ∧
    t.fab.member hdr.src = some m ∧ m.mstate = 2 ∧ m.cause = 1 ∧ ((∀ x, s.fab.member hdr.src = some x → x.mstate ≠ 1) → t.fab.epoch = s.fab.epoch) ∧ tget t.fab.acnt 1 = satInc (tget s.fab.acnt 1)) ∧
  (∀ p hdr a s, Unicast p hdr s → s.isWorker = true → hdr.src = s.fab.mgr → s.mode = .armed → a.status = 0x00 →
    ∃ t, exec (.joinAck p hdr a) s = .next t ∧
      t = { s with gctl := t.gctl, fab := t.fab, flt := t.flt, hst := t.hst, out := t.out } ∧ t.fab.joined = true ∧ t.fab.cause = 0 ∧ t.fab.mgrDigest = a.digest ∧ t.mode = .armed) ∧
  (∀ p hdr a s, Unicast p hdr s → s.isWorker = true → hdr.src = s.fab.mgr → s.mode = .armed → a.status ≠ 0x00 →
    ∃ u, exec (.joinAck p hdr a) s = .next (settle u) ∧
      EnterKeeps s u ∧ u.grd = s.grd ∧ u.arc = s.arc ∧ u.crd = s.crd ∧ u.clk = s.clk ∧ u.tst = s.tst ∧ u.mem = s.mem ∧ u.freeCtr = s.freeCtr ∧ u.mode = .quarantine ∧ u.fab.cause = BitVec.setWidth 4 a.cause ∧ u.fab.joined = false) ∧
  (∀ p hdr r m s, Unicast p hdr s → s.isManager = true → s.fab.member hdr.src = some m → ∃ t, exec (.report p hdr r) s = .next t ∧
      t = { s with fab := t.fab, out := t.out } ∧
    t.fab.member hdr.src = some { m with report := if r.index = s.tck.index then some r else m.report, offset := r.offset }) ∧
  (∀ p hdr c e s, Unicast p hdr s → s.isWorker = true → hdr.src = s.fab.mgr → s.mode = .run → ∃ u,
    exec (.verdict p hdr c 2 e) s = .next (settle u) ∧
      EnterKeeps s u ∧ u.grd = s.grd ∧ u.arc = s.arc ∧ u.crd = s.crd ∧ u.clk = s.clk ∧ u.tst = s.tst ∧ u.mem = s.mem ∧ u.freeCtr = s.freeCtr ∧ u.mode = .quarantine ∧ u.fab.cause = BitVec.setWidth 4 c ∧ u.fab.joined = false) ∧
  (∀ p hdr c e s, Unicast p hdr s → s.isWorker = true → hdr.src = s.fab.mgr → exec (.verdict p hdr c 1 e) s = .next { s.heard p hdr with
    fab.acnt := tinc s.fab.acnt 3, fab.joined := false, fab.cause := BitVec.setWidth 4 c, fab.joinSent := false }) ∧
  (∀ src n m s, Settled s → s.hears src = true → s.mode.fromArmed = true → s.isManager = true → s.fab.member (BitVec.setWidth 12 n) = some m →
    exec (.memberSelect src n) s = .next { s with
      fab.memberSel := n, fab.mstate := m.mstate, fab.mcause := m.cause, fab.moffset := m.offset })

end
end

