-- ==== Sys2Proof/Laws/Bits.lean ====
section
/-! SUPPORT. The laws of the byte orders: a number comes back from its bytes, and the length of what is written is the length asked for. -/
namespace Sys2Proof.Machine

/-- A number comes back from its little-endian bytes, as far as they hold it. -/
@[simp] theorem ofLe_leBytes (k n : Nat) : ofLe (leBytes k n) = n % 256 ^ k := by
  induction k generalizing n with
  | zero => simp [leBytes, ofLe, Nat.mod_one]
  | succ k ih =>
    simp only [leBytes, ofLe, ih, BitVec.toNat_ofNat]
    rw [show 256 ^ (k + 1) = 256 * 256 ^ k from by ring, Nat.mod_mul]

@[simp] theorem length_leBytes (k n : Nat) : (leBytes k n).length = k := by
  induction k generalizing n with
  | zero => rfl
  | succ k ih => simp [leBytes, ih]

@[simp] theorem length_beBytes (k n : Nat) : (beBytes k n).length = k := by simp [beBytes]

/-- A number comes back from its big-endian bytes, as far as they hold it. -/
@[simp] theorem ofBe_beBytes (k n : Nat) : ofBe (beBytes k n) = n % 256 ^ k := by simp [ofBe, beBytes]

@[simp] theorem length_digestBytes (d : BitVec 256) : (digestBytes d).length = 32 := by simp [digestBytes]

/-- A digest comes back from its bytes. -/
@[simp] theorem digestOf_digestBytes (d : BitVec 256) : digestOf (digestBytes d) = d := by
  simp only [digestOf, digestBytes, ofBe_beBytes]
  rw [Nat.mod_eq_of_lt (by have := d.isLt; omega)]
  exact BitVec.ofNat_toNat ..

@[simp] theorem length_fitBytes (n : Nat) (l : List Byte) : (fitBytes n l).length = n := by
  simp [fitBytes, zeros]; omega

@[simp] theorem fitBytes_self (l : List Byte) : fitBytes l.length l = l := by simp [fitBytes, zeros]

end Sys2Proof.Machine
end

