-- ==== Sys2Proof/Laws/State.lean ====
section
/-! SUPPORT. The laws of the record updates that have a name: each leaves every other field of the state as it is. -/
namespace Sys2Proof.Machine

@[simp] theorem State.say_otp (s : State) (o : Out) : (s.say o).otp = s.otp := rfl
@[simp] theorem State.say_before (s : State) (o : Out) : (s.say o).before = s.before := rfl
@[simp] theorem State.say_pins (s : State) (o : Out) : (s.say o).pins = s.pins := rfl
@[simp] theorem State.say_gctl (s : State) (o : Out) : (s.say o).gctl = s.gctl := rfl
@[simp] theorem State.say_tim (s : State) (o : Out) : (s.say o).tim = s.tim := rfl
@[simp] theorem State.say_tck (s : State) (o : Out) : (s.say o).tck = s.tck := rfl
@[simp] theorem State.say_img (s : State) (o : Out) : (s.say o).img = s.img := rfl
@[simp] theorem State.say_sch (s : State) (o : Out) : (s.say o).sch = s.sch := rfl
@[simp] theorem State.say_cvt (s : State) (o : Out) : (s.say o).cvt = s.cvt := rfl
@[simp] theorem State.say_cams (s : State) (o : Out) : (s.say o).cams = s.cams := rfl
@[simp] theorem State.say_eths (s : State) (o : Out) : (s.say o).eths = s.eths := rfl
@[simp] theorem State.say_cans (s : State) (o : Out) : (s.say o).cans = s.cans := rfl
@[simp] theorem State.say_spis (s : State) (o : Out) : (s.say o).spis = s.spis := rfl
@[simp] theorem State.say_gpio (s : State) (o : Out) : (s.say o).gpio = s.gpio := rfl
@[simp] theorem State.say_aln (s : State) (o : Out) : (s.say o).aln = s.aln := rfl
@[simp] theorem State.say_ego (s : State) (o : Out) : (s.say o).ego = s.ego := rfl
@[simp] theorem State.say_grd (s : State) (o : Out) : (s.say o).grd = s.grd := rfl
@[simp] theorem State.say_outb (s : State) (o : Out) : (s.say o).outb = s.outb := rfl
@[simp] theorem State.say_arc (s : State) (o : Out) : (s.say o).arc = s.arc := rfl
@[simp] theorem State.say_crd (s : State) (o : Out) : (s.say o).crd = s.crd := rfl
@[simp] theorem State.say_inc (s : State) (o : Out) : (s.say o).inc = s.inc := rfl
@[simp] theorem State.say_ldg (s : State) (o : Out) : (s.say o).ldg = s.ldg := rfl
@[simp] theorem State.say_fab (s : State) (o : Out) : (s.say o).fab = s.fab := rfl
@[simp] theorem State.say_pwr (s : State) (o : Out) : (s.say o).pwr = s.pwr := rfl
@[simp] theorem State.say_clk (s : State) (o : Out) : (s.say o).clk = s.clk := rfl
@[simp] theorem State.say_flt (s : State) (o : Out) : (s.say o).flt = s.flt := rfl
@[simp] theorem State.say_tst (s : State) (o : Out) : (s.say o).tst = s.tst := rfl
@[simp] theorem State.say_hst (s : State) (o : Out) : (s.say o).hst = s.hst := rfl
@[simp] theorem State.say_mbx (s : State) (o : Out) : (s.say o).mbx = s.mbx := rfl
@[simp] theorem State.say_mem (s : State) (o : Out) : (s.say o).mem = s.mem := rfl
@[simp] theorem State.say_shadows (s : State) (o : Out) : (s.say o).shadows = s.shadows := rfl
@[simp] theorem State.say_freeCtr (s : State) (o : Out) : (s.say o).freeCtr = s.freeCtr := rfl
@[simp] theorem State.say_pending (s : State) (o : Out) : (s.say o).pending = s.pending := rfl

@[simp] theorem State.drawn_otp (s : State) : (s.drawn).otp = s.otp := rfl
@[simp] theorem State.drawn_before (s : State) : (s.drawn).before = s.before := rfl
@[simp] theorem State.drawn_pins (s : State) : (s.drawn).pins = s.pins := rfl
@[simp] theorem State.drawn_gctl (s : State) : (s.drawn).gctl = s.gctl := rfl
@[simp] theorem State.drawn_tim (s : State) : (s.drawn).tim = s.tim := rfl
@[simp] theorem State.drawn_tck (s : State) : (s.drawn).tck = s.tck := rfl
@[simp] theorem State.drawn_img (s : State) : (s.drawn).img = s.img := rfl
@[simp] theorem State.drawn_sch (s : State) : (s.drawn).sch = s.sch := rfl
@[simp] theorem State.drawn_cvt (s : State) : (s.drawn).cvt = s.cvt := rfl
@[simp] theorem State.drawn_cams (s : State) : (s.drawn).cams = s.cams := rfl
@[simp] theorem State.drawn_eths (s : State) : (s.drawn).eths = s.eths := rfl
@[simp] theorem State.drawn_cans (s : State) : (s.drawn).cans = s.cans := rfl
@[simp] theorem State.drawn_spis (s : State) : (s.drawn).spis = s.spis := rfl
@[simp] theorem State.drawn_gpio (s : State) : (s.drawn).gpio = s.gpio := rfl
@[simp] theorem State.drawn_aln (s : State) : (s.drawn).aln = s.aln := rfl
@[simp] theorem State.drawn_ego (s : State) : (s.drawn).ego = s.ego := rfl
@[simp] theorem State.drawn_grd (s : State) : (s.drawn).grd = s.grd := rfl
@[simp] theorem State.drawn_outb (s : State) : (s.drawn).outb = s.outb := rfl
@[simp] theorem State.drawn_arc (s : State) : (s.drawn).arc = s.arc := rfl
@[simp] theorem State.drawn_crd (s : State) : (s.drawn).crd = s.crd := rfl
@[simp] theorem State.drawn_inc (s : State) : (s.drawn).inc = s.inc := rfl
@[simp] theorem State.drawn_ldg (s : State) : (s.drawn).ldg = s.ldg := rfl
@[simp] theorem State.drawn_fab (s : State) : (s.drawn).fab = s.fab := rfl
@[simp] theorem State.drawn_pwr (s : State) : (s.drawn).pwr = s.pwr := rfl
@[simp] theorem State.drawn_clk (s : State) : (s.drawn).clk = s.clk := rfl
@[simp] theorem State.drawn_flt (s : State) : (s.drawn).flt = s.flt := rfl
@[simp] theorem State.drawn_tst (s : State) : (s.drawn).tst = s.tst := rfl
@[simp] theorem State.drawn_hst (s : State) : (s.drawn).hst = s.hst := rfl
@[simp] theorem State.drawn_mbx (s : State) : (s.drawn).mbx = s.mbx := rfl
@[simp] theorem State.drawn_mem (s : State) : (s.drawn).mem = s.mem := rfl
@[simp] theorem State.drawn_shadows (s : State) : (s.drawn).shadows = s.shadows := rfl
@[simp] theorem State.drawn_out (s : State) : (s.drawn).out = s.out := rfl
@[simp] theorem State.drawn_pending (s : State) : (s.drawn).pending = s.pending := rfl

@[simp] theorem State.setCam_otp (s : State) (r : Nat) (c : Cam) : (s.setCam r c).otp = s.otp := rfl
@[simp] theorem State.setCam_before (s : State) (r : Nat) (c : Cam) : (s.setCam r c).before = s.before := rfl
@[simp] theorem State.setCam_pins (s : State) (r : Nat) (c : Cam) : (s.setCam r c).pins = s.pins := rfl
@[simp] theorem State.setCam_gctl (s : State) (r : Nat) (c : Cam) : (s.setCam r c).gctl = s.gctl := rfl
@[simp] theorem State.setCam_tim (s : State) (r : Nat) (c : Cam) : (s.setCam r c).tim = s.tim := rfl
@[simp] theorem State.setCam_tck (s : State) (r : Nat) (c : Cam) : (s.setCam r c).tck = s.tck := rfl
@[simp] theorem State.setCam_img (s : State) (r : Nat) (c : Cam) : (s.setCam r c).img = s.img := rfl
@[simp] theorem State.setCam_sch (s : State) (r : Nat) (c : Cam) : (s.setCam r c).sch = s.sch := rfl
@[simp] theorem State.setCam_cvt (s : State) (r : Nat) (c : Cam) : (s.setCam r c).cvt = s.cvt := rfl
@[simp] theorem State.setCam_eths (s : State) (r : Nat) (c : Cam) : (s.setCam r c).eths = s.eths := rfl
@[simp] theorem State.setCam_cans (s : State) (r : Nat) (c : Cam) : (s.setCam r c).cans = s.cans := rfl
@[simp] theorem State.setCam_spis (s : State) (r : Nat) (c : Cam) : (s.setCam r c).spis = s.spis := rfl
@[simp] theorem State.setCam_gpio (s : State) (r : Nat) (c : Cam) : (s.setCam r c).gpio = s.gpio := rfl
@[simp] theorem State.setCam_aln (s : State) (r : Nat) (c : Cam) : (s.setCam r c).aln = s.aln := rfl
@[simp] theorem State.setCam_ego (s : State) (r : Nat) (c : Cam) : (s.setCam r c).ego = s.ego := rfl
@[simp] theorem State.setCam_grd (s : State) (r : Nat) (c : Cam) : (s.setCam r c).grd = s.grd := rfl
@[simp] theorem State.setCam_outb (s : State) (r : Nat) (c : Cam) : (s.setCam r c).outb = s.outb := rfl
@[simp] theorem State.setCam_arc (s : State) (r : Nat) (c : Cam) : (s.setCam r c).arc = s.arc := rfl
@[simp] theorem State.setCam_crd (s : State) (r : Nat) (c : Cam) : (s.setCam r c).crd = s.crd := rfl
@[simp] theorem State.setCam_inc (s : State) (r : Nat) (c : Cam) : (s.setCam r c).inc = s.inc := rfl
@[simp] theorem State.setCam_ldg (s : State) (r : Nat) (c : Cam) : (s.setCam r c).ldg = s.ldg := rfl
@[simp] theorem State.setCam_fab (s : State) (r : Nat) (c : Cam) : (s.setCam r c).fab = s.fab := rfl
@[simp] theorem State.setCam_pwr (s : State) (r : Nat) (c : Cam) : (s.setCam r c).pwr = s.pwr := rfl
@[simp] theorem State.setCam_clk (s : State) (r : Nat) (c : Cam) : (s.setCam r c).clk = s.clk := rfl
@[simp] theorem State.setCam_flt (s : State) (r : Nat) (c : Cam) : (s.setCam r c).flt = s.flt := rfl
@[simp] theorem State.setCam_tst (s : State) (r : Nat) (c : Cam) : (s.setCam r c).tst = s.tst := rfl
@[simp] theorem State.setCam_hst (s : State) (r : Nat) (c : Cam) : (s.setCam r c).hst = s.hst := rfl
@[simp] theorem State.setCam_mbx (s : State) (r : Nat) (c : Cam) : (s.setCam r c).mbx = s.mbx := rfl
@[simp] theorem State.setCam_mem (s : State) (r : Nat) (c : Cam) : (s.setCam r c).mem = s.mem := rfl
@[simp] theorem State.setCam_shadows (s : State) (r : Nat) (c : Cam) : (s.setCam r c).shadows = s.shadows := rfl
@[simp] theorem State.setCam_out (s : State) (r : Nat) (c : Cam) : (s.setCam r c).out = s.out := rfl
@[simp] theorem State.setCam_freeCtr (s : State) (r : Nat) (c : Cam) : (s.setCam r c).freeCtr = s.freeCtr := rfl
@[simp] theorem State.setCam_pending (s : State) (r : Nat) (c : Cam) : (s.setCam r c).pending = s.pending := rfl

@[simp] theorem State.setEth_otp (s : State) (p : Nat) (e : Eth) : (s.setEth p e).otp = s.otp := rfl
@[simp] theorem State.setEth_before (s : State) (p : Nat) (e : Eth) : (s.setEth p e).before = s.before := rfl
@[simp] theorem State.setEth_pins (s : State) (p : Nat) (e : Eth) : (s.setEth p e).pins = s.pins := rfl
@[simp] theorem State.setEth_gctl (s : State) (p : Nat) (e : Eth) : (s.setEth p e).gctl = s.gctl := rfl
@[simp] theorem State.setEth_tim (s : State) (p : Nat) (e : Eth) : (s.setEth p e).tim = s.tim := rfl
@[simp] theorem State.setEth_tck (s : State) (p : Nat) (e : Eth) : (s.setEth p e).tck = s.tck := rfl
@[simp] theorem State.setEth_img (s : State) (p : Nat) (e : Eth) : (s.setEth p e).img = s.img := rfl
@[simp] theorem State.setEth_sch (s : State) (p : Nat) (e : Eth) : (s.setEth p e).sch = s.sch := rfl
@[simp] theorem State.setEth_cvt (s : State) (p : Nat) (e : Eth) : (s.setEth p e).cvt = s.cvt := rfl
@[simp] theorem State.setEth_cams (s : State) (p : Nat) (e : Eth) : (s.setEth p e).cams = s.cams := rfl
@[simp] theorem State.setEth_cans (s : State) (p : Nat) (e : Eth) : (s.setEth p e).cans = s.cans := rfl
@[simp] theorem State.setEth_spis (s : State) (p : Nat) (e : Eth) : (s.setEth p e).spis = s.spis := rfl
@[simp] theorem State.setEth_gpio (s : State) (p : Nat) (e : Eth) : (s.setEth p e).gpio = s.gpio := rfl
@[simp] theorem State.setEth_aln (s : State) (p : Nat) (e : Eth) : (s.setEth p e).aln = s.aln := rfl
@[simp] theorem State.setEth_ego (s : State) (p : Nat) (e : Eth) : (s.setEth p e).ego = s.ego := rfl
@[simp] theorem State.setEth_grd (s : State) (p : Nat) (e : Eth) : (s.setEth p e).grd = s.grd := rfl
@[simp] theorem State.setEth_outb (s : State) (p : Nat) (e : Eth) : (s.setEth p e).outb = s.outb := rfl
@[simp] theorem State.setEth_arc (s : State) (p : Nat) (e : Eth) : (s.setEth p e).arc = s.arc := rfl
@[simp] theorem State.setEth_crd (s : State) (p : Nat) (e : Eth) : (s.setEth p e).crd = s.crd := rfl
@[simp] theorem State.setEth_inc (s : State) (p : Nat) (e : Eth) : (s.setEth p e).inc = s.inc := rfl
@[simp] theorem State.setEth_ldg (s : State) (p : Nat) (e : Eth) : (s.setEth p e).ldg = s.ldg := rfl
@[simp] theorem State.setEth_fab (s : State) (p : Nat) (e : Eth) : (s.setEth p e).fab = s.fab := rfl
@[simp] theorem State.setEth_pwr (s : State) (p : Nat) (e : Eth) : (s.setEth p e).pwr = s.pwr := rfl
@[simp] theorem State.setEth_clk (s : State) (p : Nat) (e : Eth) : (s.setEth p e).clk = s.clk := rfl
@[simp] theorem State.setEth_flt (s : State) (p : Nat) (e : Eth) : (s.setEth p e).flt = s.flt := rfl
@[simp] theorem State.setEth_tst (s : State) (p : Nat) (e : Eth) : (s.setEth p e).tst = s.tst := rfl
@[simp] theorem State.setEth_hst (s : State) (p : Nat) (e : Eth) : (s.setEth p e).hst = s.hst := rfl
@[simp] theorem State.setEth_mbx (s : State) (p : Nat) (e : Eth) : (s.setEth p e).mbx = s.mbx := rfl
@[simp] theorem State.setEth_mem (s : State) (p : Nat) (e : Eth) : (s.setEth p e).mem = s.mem := rfl
@[simp] theorem State.setEth_shadows (s : State) (p : Nat) (e : Eth) : (s.setEth p e).shadows = s.shadows := rfl
@[simp] theorem State.setEth_out (s : State) (p : Nat) (e : Eth) : (s.setEth p e).out = s.out := rfl
@[simp] theorem State.setEth_freeCtr (s : State) (p : Nat) (e : Eth) : (s.setEth p e).freeCtr = s.freeCtr := rfl
@[simp] theorem State.setEth_pending (s : State) (p : Nat) (e : Eth) : (s.setEth p e).pending = s.pending := rfl

@[simp] theorem State.setCan_otp (s : State) (c : Nat) (x : Can) : (s.setCan c x).otp = s.otp := rfl
@[simp] theorem State.setCan_before (s : State) (c : Nat) (x : Can) : (s.setCan c x).before = s.before := rfl
@[simp] theorem State.setCan_pins (s : State) (c : Nat) (x : Can) : (s.setCan c x).pins = s.pins := rfl
@[simp] theorem State.setCan_gctl (s : State) (c : Nat) (x : Can) : (s.setCan c x).gctl = s.gctl := rfl
@[simp] theorem State.setCan_tim (s : State) (c : Nat) (x : Can) : (s.setCan c x).tim = s.tim := rfl
@[simp] theorem State.setCan_tck (s : State) (c : Nat) (x : Can) : (s.setCan c x).tck = s.tck := rfl
@[simp] theorem State.setCan_img (s : State) (c : Nat) (x : Can) : (s.setCan c x).img = s.img := rfl
@[simp] theorem State.setCan_sch (s : State) (c : Nat) (x : Can) : (s.setCan c x).sch = s.sch := rfl
@[simp] theorem State.setCan_cvt (s : State) (c : Nat) (x : Can) : (s.setCan c x).cvt = s.cvt := rfl
@[simp] theorem State.setCan_cams (s : State) (c : Nat) (x : Can) : (s.setCan c x).cams = s.cams := rfl
@[simp] theorem State.setCan_eths (s : State) (c : Nat) (x : Can) : (s.setCan c x).eths = s.eths := rfl
@[simp] theorem State.setCan_spis (s : State) (c : Nat) (x : Can) : (s.setCan c x).spis = s.spis := rfl
@[simp] theorem State.setCan_gpio (s : State) (c : Nat) (x : Can) : (s.setCan c x).gpio = s.gpio := rfl
@[simp] theorem State.setCan_aln (s : State) (c : Nat) (x : Can) : (s.setCan c x).aln = s.aln := rfl
@[simp] theorem State.setCan_ego (s : State) (c : Nat) (x : Can) : (s.setCan c x).ego = s.ego := rfl
@[simp] theorem State.setCan_grd (s : State) (c : Nat) (x : Can) : (s.setCan c x).grd = s.grd := rfl
@[simp] theorem State.setCan_outb (s : State) (c : Nat) (x : Can) : (s.setCan c x).outb = s.outb := rfl
@[simp] theorem State.setCan_arc (s : State) (c : Nat) (x : Can) : (s.setCan c x).arc = s.arc := rfl
@[simp] theorem State.setCan_crd (s : State) (c : Nat) (x : Can) : (s.setCan c x).crd = s.crd := rfl
@[simp] theorem State.setCan_inc (s : State) (c : Nat) (x : Can) : (s.setCan c x).inc = s.inc := rfl
@[simp] theorem State.setCan_ldg (s : State) (c : Nat) (x : Can) : (s.setCan c x).ldg = s.ldg := rfl
@[simp] theorem State.setCan_fab (s : State) (c : Nat) (x : Can) : (s.setCan c x).fab = s.fab := rfl
@[simp] theorem State.setCan_pwr (s : State) (c : Nat) (x : Can) : (s.setCan c x).pwr = s.pwr := rfl
@[simp] theorem State.setCan_clk (s : State) (c : Nat) (x : Can) : (s.setCan c x).clk = s.clk := rfl
@[simp] theorem State.setCan_flt (s : State) (c : Nat) (x : Can) : (s.setCan c x).flt = s.flt := rfl
@[simp] theorem State.setCan_tst (s : State) (c : Nat) (x : Can) : (s.setCan c x).tst = s.tst := rfl
@[simp] theorem State.setCan_hst (s : State) (c : Nat) (x : Can) : (s.setCan c x).hst = s.hst := rfl
@[simp] theorem State.setCan_mbx (s : State) (c : Nat) (x : Can) : (s.setCan c x).mbx = s.mbx := rfl
@[simp] theorem State.setCan_mem (s : State) (c : Nat) (x : Can) : (s.setCan c x).mem = s.mem := rfl
@[simp] theorem State.setCan_shadows (s : State) (c : Nat) (x : Can) : (s.setCan c x).shadows = s.shadows := rfl
@[simp] theorem State.setCan_out (s : State) (c : Nat) (x : Can) : (s.setCan c x).out = s.out := rfl
@[simp] theorem State.setCan_freeCtr (s : State) (c : Nat) (x : Can) : (s.setCan c x).freeCtr = s.freeCtr := rfl
@[simp] theorem State.setCan_pending (s : State) (c : Nat) (x : Can) : (s.setCan c x).pending = s.pending := rfl

@[simp] theorem State.setSpi_otp (s : State) (u : Nat) (x : Spi) : (s.setSpi u x).otp = s.otp := rfl
@[simp] theorem State.setSpi_before (s : State) (u : Nat) (x : Spi) : (s.setSpi u x).before = s.before := rfl
@[simp] theorem State.setSpi_pins (s : State) (u : Nat) (x : Spi) : (s.setSpi u x).pins = s.pins := rfl
@[simp] theorem State.setSpi_gctl (s : State) (u : Nat) (x : Spi) : (s.setSpi u x).gctl = s.gctl := rfl
@[simp] theorem State.setSpi_tim (s : State) (u : Nat) (x : Spi) : (s.setSpi u x).tim = s.tim := rfl
@[simp] theorem State.setSpi_tck (s : State) (u : Nat) (x : Spi) : (s.setSpi u x).tck = s.tck := rfl
@[simp] theorem State.setSpi_img (s : State) (u : Nat) (x : Spi) : (s.setSpi u x).img = s.img := rfl
@[simp] theorem State.setSpi_sch (s : State) (u : Nat) (x : Spi) : (s.setSpi u x).sch = s.sch := rfl
@[simp] theorem State.setSpi_cvt (s : State) (u : Nat) (x : Spi) : (s.setSpi u x).cvt = s.cvt := rfl
@[simp] theorem State.setSpi_cams (s : State) (u : Nat) (x : Spi) : (s.setSpi u x).cams = s.cams := rfl
@[simp] theorem State.setSpi_eths (s : State) (u : Nat) (x : Spi) : (s.setSpi u x).eths = s.eths := rfl
@[simp] theorem State.setSpi_cans (s : State) (u : Nat) (x : Spi) : (s.setSpi u x).cans = s.cans := rfl
@[simp] theorem State.setSpi_gpio (s : State) (u : Nat) (x : Spi) : (s.setSpi u x).gpio = s.gpio := rfl
@[simp] theorem State.setSpi_aln (s : State) (u : Nat) (x : Spi) : (s.setSpi u x).aln = s.aln := rfl
@[simp] theorem State.setSpi_ego (s : State) (u : Nat) (x : Spi) : (s.setSpi u x).ego = s.ego := rfl
@[simp] theorem State.setSpi_grd (s : State) (u : Nat) (x : Spi) : (s.setSpi u x).grd = s.grd := rfl
@[simp] theorem State.setSpi_outb (s : State) (u : Nat) (x : Spi) : (s.setSpi u x).outb = s.outb := rfl
@[simp] theorem State.setSpi_arc (s : State) (u : Nat) (x : Spi) : (s.setSpi u x).arc = s.arc := rfl
@[simp] theorem State.setSpi_crd (s : State) (u : Nat) (x : Spi) : (s.setSpi u x).crd = s.crd := rfl
@[simp] theorem State.setSpi_inc (s : State) (u : Nat) (x : Spi) : (s.setSpi u x).inc = s.inc := rfl
@[simp] theorem State.setSpi_ldg (s : State) (u : Nat) (x : Spi) : (s.setSpi u x).ldg = s.ldg := rfl
@[simp] theorem State.setSpi_fab (s : State) (u : Nat) (x : Spi) : (s.setSpi u x).fab = s.fab := rfl
@[simp] theorem State.setSpi_pwr (s : State) (u : Nat) (x : Spi) : (s.setSpi u x).pwr = s.pwr := rfl
@[simp] theorem State.setSpi_clk (s : State) (u : Nat) (x : Spi) : (s.setSpi u x).clk = s.clk := rfl
@[simp] theorem State.setSpi_flt (s : State) (u : Nat) (x : Spi) : (s.setSpi u x).flt = s.flt := rfl
@[simp] theorem State.setSpi_tst (s : State) (u : Nat) (x : Spi) : (s.setSpi u x).tst = s.tst := rfl
@[simp] theorem State.setSpi_hst (s : State) (u : Nat) (x : Spi) : (s.setSpi u x).hst = s.hst := rfl
@[simp] theorem State.setSpi_mbx (s : State) (u : Nat) (x : Spi) : (s.setSpi u x).mbx = s.mbx := rfl
@[simp] theorem State.setSpi_mem (s : State) (u : Nat) (x : Spi) : (s.setSpi u x).mem = s.mem := rfl
@[simp] theorem State.setSpi_shadows (s : State) (u : Nat) (x : Spi) : (s.setSpi u x).shadows = s.shadows := rfl
@[simp] theorem State.setSpi_out (s : State) (u : Nat) (x : Spi) : (s.setSpi u x).out = s.out := rfl
@[simp] theorem State.setSpi_freeCtr (s : State) (u : Nat) (x : Spi) : (s.setSpi u x).freeCtr = s.freeCtr := rfl
@[simp] theorem State.setSpi_pending (s : State) (u : Nat) (x : Spi) : (s.setSpi u x).pending = s.pending := rfl

@[simp] theorem State.setCore_otp (s : State) (n : Nat) (c : Core) : (s.setCore n c).otp = s.otp := rfl
@[simp] theorem State.setCore_before (s : State) (n : Nat) (c : Core) : (s.setCore n c).before = s.before := rfl
@[simp] theorem State.setCore_pins (s : State) (n : Nat) (c : Core) : (s.setCore n c).pins = s.pins := rfl
@[simp] theorem State.setCore_gctl (s : State) (n : Nat) (c : Core) : (s.setCore n c).gctl = s.gctl := rfl
@[simp] theorem State.setCore_tim (s : State) (n : Nat) (c : Core) : (s.setCore n c).tim = s.tim := rfl
@[simp] theorem State.setCore_tck (s : State) (n : Nat) (c : Core) : (s.setCore n c).tck = s.tck := rfl
@[simp] theorem State.setCore_img (s : State) (n : Nat) (c : Core) : (s.setCore n c).img = s.img := rfl
@[simp] theorem State.setCore_cvt (s : State) (n : Nat) (c : Core) : (s.setCore n c).cvt = s.cvt := rfl
@[simp] theorem State.setCore_cams (s : State) (n : Nat) (c : Core) : (s.setCore n c).cams = s.cams := rfl
@[simp] theorem State.setCore_eths (s : State) (n : Nat) (c : Core) : (s.setCore n c).eths = s.eths := rfl
@[simp] theorem State.setCore_cans (s : State) (n : Nat) (c : Core) : (s.setCore n c).cans = s.cans := rfl
@[simp] theorem State.setCore_spis (s : State) (n : Nat) (c : Core) : (s.setCore n c).spis = s.spis := rfl
@[simp] theorem State.setCore_gpio (s : State) (n : Nat) (c : Core) : (s.setCore n c).gpio = s.gpio := rfl
@[simp] theorem State.setCore_aln (s : State) (n : Nat) (c : Core) : (s.setCore n c).aln = s.aln := rfl
@[simp] theorem State.setCore_ego (s : State) (n : Nat) (c : Core) : (s.setCore n c).ego = s.ego := rfl
@[simp] theorem State.setCore_grd (s : State) (n : Nat) (c : Core) : (s.setCore n c).grd = s.grd := rfl
@[simp] theorem State.setCore_outb (s : State) (n : Nat) (c : Core) : (s.setCore n c).outb = s.outb := rfl
@[simp] theorem State.setCore_arc (s : State) (n : Nat) (c : Core) : (s.setCore n c).arc = s.arc := rfl
@[simp] theorem State.setCore_crd (s : State) (n : Nat) (c : Core) : (s.setCore n c).crd = s.crd := rfl
@[simp] theorem State.setCore_inc (s : State) (n : Nat) (c : Core) : (s.setCore n c).inc = s.inc := rfl
@[simp] theorem State.setCore_ldg (s : State) (n : Nat) (c : Core) : (s.setCore n c).ldg = s.ldg := rfl
@[simp] theorem State.setCore_fab (s : State) (n : Nat) (c : Core) : (s.setCore n c).fab = s.fab := rfl
@[simp] theorem State.setCore_pwr (s : State) (n : Nat) (c : Core) : (s.setCore n c).pwr = s.pwr := rfl
@[simp] theorem State.setCore_clk (s : State) (n : Nat) (c : Core) : (s.setCore n c).clk = s.clk := rfl
@[simp] theorem State.setCore_flt (s : State) (n : Nat) (c : Core) : (s.setCore n c).flt = s.flt := rfl
@[simp] theorem State.setCore_tst (s : State) (n : Nat) (c : Core) : (s.setCore n c).tst = s.tst := rfl
@[simp] theorem State.setCore_hst (s : State) (n : Nat) (c : Core) : (s.setCore n c).hst = s.hst := rfl
@[simp] theorem State.setCore_mbx (s : State) (n : Nat) (c : Core) : (s.setCore n c).mbx = s.mbx := rfl
@[simp] theorem State.setCore_mem (s : State) (n : Nat) (c : Core) : (s.setCore n c).mem = s.mem := rfl
@[simp] theorem State.setCore_shadows (s : State) (n : Nat) (c : Core) : (s.setCore n c).shadows = s.shadows := rfl
@[simp] theorem State.setCore_out (s : State) (n : Nat) (c : Core) : (s.setCore n c).out = s.out := rfl
@[simp] theorem State.setCore_freeCtr (s : State) (n : Nat) (c : Core) : (s.setCore n c).freeCtr = s.freeCtr := rfl
@[simp] theorem State.setCore_pending (s : State) (n : Nat) (c : Core) : (s.setCore n c).pending = s.pending := rfl

@[simp] theorem State.setStrm_otp (s : State) (n : Nat) (x : Stream) : (s.setStrm n x).otp = s.otp := rfl
@[simp] theorem State.setStrm_before (s : State) (n : Nat) (x : Stream) : (s.setStrm n x).before = s.before := rfl
@[simp] theorem State.setStrm_pins (s : State) (n : Nat) (x : Stream) : (s.setStrm n x).pins = s.pins := rfl
@[simp] theorem State.setStrm_gctl (s : State) (n : Nat) (x : Stream) : (s.setStrm n x).gctl = s.gctl := rfl
@[simp] theorem State.setStrm_tim (s : State) (n : Nat) (x : Stream) : (s.setStrm n x).tim = s.tim := rfl
@[simp] theorem State.setStrm_tck (s : State) (n : Nat) (x : Stream) : (s.setStrm n x).tck = s.tck := rfl
@[simp] theorem State.setStrm_img (s : State) (n : Nat) (x : Stream) : (s.setStrm n x).img = s.img := rfl
@[simp] theorem State.setStrm_sch (s : State) (n : Nat) (x : Stream) : (s.setStrm n x).sch = s.sch := rfl
@[simp] theorem State.setStrm_cvt (s : State) (n : Nat) (x : Stream) : (s.setStrm n x).cvt = s.cvt := rfl
@[simp] theorem State.setStrm_cams (s : State) (n : Nat) (x : Stream) : (s.setStrm n x).cams = s.cams := rfl
@[simp] theorem State.setStrm_eths (s : State) (n : Nat) (x : Stream) : (s.setStrm n x).eths = s.eths := rfl
@[simp] theorem State.setStrm_cans (s : State) (n : Nat) (x : Stream) : (s.setStrm n x).cans = s.cans := rfl
@[simp] theorem State.setStrm_spis (s : State) (n : Nat) (x : Stream) : (s.setStrm n x).spis = s.spis := rfl
@[simp] theorem State.setStrm_gpio (s : State) (n : Nat) (x : Stream) : (s.setStrm n x).gpio = s.gpio := rfl
@[simp] theorem State.setStrm_ego (s : State) (n : Nat) (x : Stream) : (s.setStrm n x).ego = s.ego := rfl
@[simp] theorem State.setStrm_grd (s : State) (n : Nat) (x : Stream) : (s.setStrm n x).grd = s.grd := rfl
@[simp] theorem State.setStrm_outb (s : State) (n : Nat) (x : Stream) : (s.setStrm n x).outb = s.outb := rfl
@[simp] theorem State.setStrm_arc (s : State) (n : Nat) (x : Stream) : (s.setStrm n x).arc = s.arc := rfl
@[simp] theorem State.setStrm_crd (s : State) (n : Nat) (x : Stream) : (s.setStrm n x).crd = s.crd := rfl
@[simp] theorem State.setStrm_inc (s : State) (n : Nat) (x : Stream) : (s.setStrm n x).inc = s.inc := rfl
@[simp] theorem State.setStrm_ldg (s : State) (n : Nat) (x : Stream) : (s.setStrm n x).ldg = s.ldg := rfl
@[simp] theorem State.setStrm_fab (s : State) (n : Nat) (x : Stream) : (s.setStrm n x).fab = s.fab := rfl
@[simp] theorem State.setStrm_pwr (s : State) (n : Nat) (x : Stream) : (s.setStrm n x).pwr = s.pwr := rfl
@[simp] theorem State.setStrm_clk (s : State) (n : Nat) (x : Stream) : (s.setStrm n x).clk = s.clk := rfl
@[simp] theorem State.setStrm_flt (s : State) (n : Nat) (x : Stream) : (s.setStrm n x).flt = s.flt := rfl
@[simp] theorem State.setStrm_tst (s : State) (n : Nat) (x : Stream) : (s.setStrm n x).tst = s.tst := rfl
@[simp] theorem State.setStrm_hst (s : State) (n : Nat) (x : Stream) : (s.setStrm n x).hst = s.hst := rfl
@[simp] theorem State.setStrm_mbx (s : State) (n : Nat) (x : Stream) : (s.setStrm n x).mbx = s.mbx := rfl
@[simp] theorem State.setStrm_mem (s : State) (n : Nat) (x : Stream) : (s.setStrm n x).mem = s.mem := rfl
@[simp] theorem State.setStrm_shadows (s : State) (n : Nat) (x : Stream) : (s.setStrm n x).shadows = s.shadows := rfl
@[simp] theorem State.setStrm_out (s : State) (n : Nat) (x : Stream) : (s.setStrm n x).out = s.out := rfl
@[simp] theorem State.setStrm_freeCtr (s : State) (n : Nat) (x : Stream) : (s.setStrm n x).freeCtr = s.freeCtr := rfl
@[simp] theorem State.setStrm_pending (s : State) (n : Nat) (x : Stream) : (s.setStrm n x).pending = s.pending := rfl

@[simp] theorem State.setQue_otp (s : State) (q : Nat) (x : Queue) : (s.setQue q x).otp = s.otp := rfl
@[simp] theorem State.setQue_before (s : State) (q : Nat) (x : Queue) : (s.setQue q x).before = s.before := rfl
@[simp] theorem State.setQue_pins (s : State) (q : Nat) (x : Queue) : (s.setQue q x).pins = s.pins := rfl
@[simp] theorem State.setQue_gctl (s : State) (q : Nat) (x : Queue) : (s.setQue q x).gctl = s.gctl := rfl
@[simp] theorem State.setQue_tim (s : State) (q : Nat) (x : Queue) : (s.setQue q x).tim = s.tim := rfl
@[simp] theorem State.setQue_tck (s : State) (q : Nat) (x : Queue) : (s.setQue q x).tck = s.tck := rfl
@[simp] theorem State.setQue_img (s : State) (q : Nat) (x : Queue) : (s.setQue q x).img = s.img := rfl
@[simp] theorem State.setQue_cvt (s : State) (q : Nat) (x : Queue) : (s.setQue q x).cvt = s.cvt := rfl
@[simp] theorem State.setQue_cams (s : State) (q : Nat) (x : Queue) : (s.setQue q x).cams = s.cams := rfl
@[simp] theorem State.setQue_eths (s : State) (q : Nat) (x : Queue) : (s.setQue q x).eths = s.eths := rfl
@[simp] theorem State.setQue_cans (s : State) (q : Nat) (x : Queue) : (s.setQue q x).cans = s.cans := rfl
@[simp] theorem State.setQue_spis (s : State) (q : Nat) (x : Queue) : (s.setQue q x).spis = s.spis := rfl
@[simp] theorem State.setQue_gpio (s : State) (q : Nat) (x : Queue) : (s.setQue q x).gpio = s.gpio := rfl
@[simp] theorem State.setQue_aln (s : State) (q : Nat) (x : Queue) : (s.setQue q x).aln = s.aln := rfl
@[simp] theorem State.setQue_ego (s : State) (q : Nat) (x : Queue) : (s.setQue q x).ego = s.ego := rfl
@[simp] theorem State.setQue_grd (s : State) (q : Nat) (x : Queue) : (s.setQue q x).grd = s.grd := rfl
@[simp] theorem State.setQue_outb (s : State) (q : Nat) (x : Queue) : (s.setQue q x).outb = s.outb := rfl
@[simp] theorem State.setQue_arc (s : State) (q : Nat) (x : Queue) : (s.setQue q x).arc = s.arc := rfl
@[simp] theorem State.setQue_crd (s : State) (q : Nat) (x : Queue) : (s.setQue q x).crd = s.crd := rfl
@[simp] theorem State.setQue_inc (s : State) (q : Nat) (x : Queue) : (s.setQue q x).inc = s.inc := rfl
@[simp] theorem State.setQue_ldg (s : State) (q : Nat) (x : Queue) : (s.setQue q x).ldg = s.ldg := rfl
@[simp] theorem State.setQue_fab (s : State) (q : Nat) (x : Queue) : (s.setQue q x).fab = s.fab := rfl
@[simp] theorem State.setQue_pwr (s : State) (q : Nat) (x : Queue) : (s.setQue q x).pwr = s.pwr := rfl
@[simp] theorem State.setQue_clk (s : State) (q : Nat) (x : Queue) : (s.setQue q x).clk = s.clk := rfl
@[simp] theorem State.setQue_flt (s : State) (q : Nat) (x : Queue) : (s.setQue q x).flt = s.flt := rfl
@[simp] theorem State.setQue_tst (s : State) (q : Nat) (x : Queue) : (s.setQue q x).tst = s.tst := rfl
@[simp] theorem State.setQue_hst (s : State) (q : Nat) (x : Queue) : (s.setQue q x).hst = s.hst := rfl
@[simp] theorem State.setQue_mbx (s : State) (q : Nat) (x : Queue) : (s.setQue q x).mbx = s.mbx := rfl
@[simp] theorem State.setQue_mem (s : State) (q : Nat) (x : Queue) : (s.setQue q x).mem = s.mem := rfl
@[simp] theorem State.setQue_shadows (s : State) (q : Nat) (x : Queue) : (s.setQue q x).shadows = s.shadows := rfl
@[simp] theorem State.setQue_out (s : State) (q : Nat) (x : Queue) : (s.setQue q x).out = s.out := rfl
@[simp] theorem State.setQue_freeCtr (s : State) (q : Nat) (x : Queue) : (s.setQue q x).freeCtr = s.freeCtr := rfl
@[simp] theorem State.setQue_pending (s : State) (q : Nat) (x : Queue) : (s.setQue q x).pending = s.pending := rfl

@[simp] theorem State.setPort_otp (s : State) (p : Nat) (x : Port) : (s.setPort p x).otp = s.otp := rfl
@[simp] theorem State.setPort_before (s : State) (p : Nat) (x : Port) : (s.setPort p x).before = s.before := rfl
@[simp] theorem State.setPort_pins (s : State) (p : Nat) (x : Port) : (s.setPort p x).pins = s.pins := rfl
@[simp] theorem State.setPort_gctl (s : State) (p : Nat) (x : Port) : (s.setPort p x).gctl = s.gctl := rfl
@[simp] theorem State.setPort_tim (s : State) (p : Nat) (x : Port) : (s.setPort p x).tim = s.tim := rfl
@[simp] theorem State.setPort_tck (s : State) (p : Nat) (x : Port) : (s.setPort p x).tck = s.tck := rfl
@[simp] theorem State.setPort_img (s : State) (p : Nat) (x : Port) : (s.setPort p x).img = s.img := rfl
@[simp] theorem State.setPort_sch (s : State) (p : Nat) (x : Port) : (s.setPort p x).sch = s.sch := rfl
@[simp] theorem State.setPort_cvt (s : State) (p : Nat) (x : Port) : (s.setPort p x).cvt = s.cvt := rfl
@[simp] theorem State.setPort_cams (s : State) (p : Nat) (x : Port) : (s.setPort p x).cams = s.cams := rfl
@[simp] theorem State.setPort_eths (s : State) (p : Nat) (x : Port) : (s.setPort p x).eths = s.eths := rfl
@[simp] theorem State.setPort_cans (s : State) (p : Nat) (x : Port) : (s.setPort p x).cans = s.cans := rfl
@[simp] theorem State.setPort_spis (s : State) (p : Nat) (x : Port) : (s.setPort p x).spis = s.spis := rfl
@[simp] theorem State.setPort_gpio (s : State) (p : Nat) (x : Port) : (s.setPort p x).gpio = s.gpio := rfl
@[simp] theorem State.setPort_aln (s : State) (p : Nat) (x : Port) : (s.setPort p x).aln = s.aln := rfl
@[simp] theorem State.setPort_ego (s : State) (p : Nat) (x : Port) : (s.setPort p x).ego = s.ego := rfl
@[simp] theorem State.setPort_grd (s : State) (p : Nat) (x : Port) : (s.setPort p x).grd = s.grd := rfl
@[simp] theorem State.setPort_outb (s : State) (p : Nat) (x : Port) : (s.setPort p x).outb = s.outb := rfl
@[simp] theorem State.setPort_arc (s : State) (p : Nat) (x : Port) : (s.setPort p x).arc = s.arc := rfl
@[simp] theorem State.setPort_crd (s : State) (p : Nat) (x : Port) : (s.setPort p x).crd = s.crd := rfl
@[simp] theorem State.setPort_inc (s : State) (p : Nat) (x : Port) : (s.setPort p x).inc = s.inc := rfl
@[simp] theorem State.setPort_ldg (s : State) (p : Nat) (x : Port) : (s.setPort p x).ldg = s.ldg := rfl
@[simp] theorem State.setPort_pwr (s : State) (p : Nat) (x : Port) : (s.setPort p x).pwr = s.pwr := rfl
@[simp] theorem State.setPort_clk (s : State) (p : Nat) (x : Port) : (s.setPort p x).clk = s.clk := rfl
@[simp] theorem State.setPort_flt (s : State) (p : Nat) (x : Port) : (s.setPort p x).flt = s.flt := rfl
@[simp] theorem State.setPort_tst (s : State) (p : Nat) (x : Port) : (s.setPort p x).tst = s.tst := rfl
@[simp] theorem State.setPort_hst (s : State) (p : Nat) (x : Port) : (s.setPort p x).hst = s.hst := rfl
@[simp] theorem State.setPort_mbx (s : State) (p : Nat) (x : Port) : (s.setPort p x).mbx = s.mbx := rfl
@[simp] theorem State.setPort_mem (s : State) (p : Nat) (x : Port) : (s.setPort p x).mem = s.mem := rfl
@[simp] theorem State.setPort_shadows (s : State) (p : Nat) (x : Port) : (s.setPort p x).shadows = s.shadows := rfl
@[simp] theorem State.setPort_out (s : State) (p : Nat) (x : Port) : (s.setPort p x).out = s.out := rfl
@[simp] theorem State.setPort_freeCtr (s : State) (p : Nat) (x : Port) : (s.setPort p x).freeCtr = s.freeCtr := rfl
@[simp] theorem State.setPort_pending (s : State) (p : Nat) (x : Port) : (s.setPort p x).pending = s.pending := rfl

@[simp] theorem State.setChan_otp (s : State) (c : Channel) (x : Chan) : (s.setChan c x).otp = s.otp := by cases c <;> rfl
@[simp] theorem State.setChan_before (s : State) (c : Channel) (x : Chan) : (s.setChan c x).before = s.before := by cases c <;> rfl
@[simp] theorem State.setChan_pins (s : State) (c : Channel) (x : Chan) : (s.setChan c x).pins = s.pins := by cases c <;> rfl
@[simp] theorem State.setChan_gctl (s : State) (c : Channel) (x : Chan) : (s.setChan c x).gctl = s.gctl := by cases c <;> rfl
@[simp] theorem State.setChan_tim (s : State) (c : Channel) (x : Chan) : (s.setChan c x).tim = s.tim := by cases c <;> rfl
@[simp] theorem State.setChan_tck (s : State) (c : Channel) (x : Chan) : (s.setChan c x).tck = s.tck := by cases c <;> rfl
@[simp] theorem State.setChan_img (s : State) (c : Channel) (x : Chan) : (s.setChan c x).img = s.img := by cases c <;> rfl
@[simp] theorem State.setChan_sch (s : State) (c : Channel) (x : Chan) : (s.setChan c x).sch = s.sch := by cases c <;> rfl
@[simp] theorem State.setChan_cvt (s : State) (c : Channel) (x : Chan) : (s.setChan c x).cvt = s.cvt := by cases c <;> rfl
@[simp] theorem State.setChan_cams (s : State) (c : Channel) (x : Chan) : (s.setChan c x).cams = s.cams := by cases c <;> rfl
@[simp] theorem State.setChan_eths (s : State) (c : Channel) (x : Chan) : (s.setChan c x).eths = s.eths := by cases c <;> rfl
@[simp] theorem State.setChan_cans (s : State) (c : Channel) (x : Chan) : (s.setChan c x).cans = s.cans := by cases c <;> rfl
@[simp] theorem State.setChan_spis (s : State) (c : Channel) (x : Chan) : (s.setChan c x).spis = s.spis := by cases c <;> rfl
@[simp] theorem State.setChan_gpio (s : State) (c : Channel) (x : Chan) : (s.setChan c x).gpio = s.gpio := by cases c <;> rfl
@[simp] theorem State.setChan_aln (s : State) (c : Channel) (x : Chan) : (s.setChan c x).aln = s.aln := by cases c <;> rfl
@[simp] theorem State.setChan_ego (s : State) (c : Channel) (x : Chan) : (s.setChan c x).ego = s.ego := by cases c <;> rfl
@[simp] theorem State.setChan_grd (s : State) (c : Channel) (x : Chan) : (s.setChan c x).grd = s.grd := by cases c <;> rfl
@[simp] theorem State.setChan_arc (s : State) (c : Channel) (x : Chan) : (s.setChan c x).arc = s.arc := by cases c <;> rfl
@[simp] theorem State.setChan_crd (s : State) (c : Channel) (x : Chan) : (s.setChan c x).crd = s.crd := by cases c <;> rfl
@[simp] theorem State.setChan_inc (s : State) (c : Channel) (x : Chan) : (s.setChan c x).inc = s.inc := by cases c <;> rfl
@[simp] theorem State.setChan_ldg (s : State) (c : Channel) (x : Chan) : (s.setChan c x).ldg = s.ldg := by cases c <;> rfl
@[simp] theorem State.setChan_fab (s : State) (c : Channel) (x : Chan) : (s.setChan c x).fab = s.fab := by cases c <;> rfl
@[simp] theorem State.setChan_pwr (s : State) (c : Channel) (x : Chan) : (s.setChan c x).pwr = s.pwr := by cases c <;> rfl
@[simp] theorem State.setChan_clk (s : State) (c : Channel) (x : Chan) : (s.setChan c x).clk = s.clk := by cases c <;> rfl
@[simp] theorem State.setChan_flt (s : State) (c : Channel) (x : Chan) : (s.setChan c x).flt = s.flt := by cases c <;> rfl
@[simp] theorem State.setChan_tst (s : State) (c : Channel) (x : Chan) : (s.setChan c x).tst = s.tst := by cases c <;> rfl
@[simp] theorem State.setChan_hst (s : State) (c : Channel) (x : Chan) : (s.setChan c x).hst = s.hst := by cases c <;> rfl
@[simp] theorem State.setChan_mbx (s : State) (c : Channel) (x : Chan) : (s.setChan c x).mbx = s.mbx := by cases c <;> rfl
@[simp] theorem State.setChan_mem (s : State) (c : Channel) (x : Chan) : (s.setChan c x).mem = s.mem := by cases c <;> rfl
@[simp] theorem State.setChan_shadows (s : State) (c : Channel) (x : Chan) : (s.setChan c x).shadows = s.shadows := by cases c <;> rfl
@[simp] theorem State.setChan_out (s : State) (c : Channel) (x : Chan) : (s.setChan c x).out = s.out := by cases c <;> rfl
@[simp] theorem State.setChan_freeCtr (s : State) (c : Channel) (x : Chan) : (s.setChan c x).freeCtr = s.freeCtr := by cases c <;> rfl
@[simp] theorem State.setChan_pending (s : State) (c : Channel) (x : Chan) : (s.setChan c x).pending = s.pending := by cases c <;> rfl

@[simp] theorem State.setRing_otp (s : State) (c : Channel) (x : Ring) : (s.setRing c x).otp = s.otp := by cases c <;> rfl
@[simp] theorem State.setRing_before (s : State) (c : Channel) (x : Ring) : (s.setRing c x).before = s.before := by cases c <;> rfl
@[simp] theorem State.setRing_pins (s : State) (c : Channel) (x : Ring) : (s.setRing c x).pins = s.pins := by cases c <;> rfl
@[simp] theorem State.setRing_gctl (s : State) (c : Channel) (x : Ring) : (s.setRing c x).gctl = s.gctl := by cases c <;> rfl
@[simp] theorem State.setRing_tim (s : State) (c : Channel) (x : Ring) : (s.setRing c x).tim = s.tim := by cases c <;> rfl
@[simp] theorem State.setRing_tck (s : State) (c : Channel) (x : Ring) : (s.setRing c x).tck = s.tck := by cases c <;> rfl
@[simp] theorem State.setRing_img (s : State) (c : Channel) (x : Ring) : (s.setRing c x).img = s.img := by cases c <;> rfl
@[simp] theorem State.setRing_sch (s : State) (c : Channel) (x : Ring) : (s.setRing c x).sch = s.sch := by cases c <;> rfl
@[simp] theorem State.setRing_cvt (s : State) (c : Channel) (x : Ring) : (s.setRing c x).cvt = s.cvt := by cases c <;> rfl
@[simp] theorem State.setRing_cams (s : State) (c : Channel) (x : Ring) : (s.setRing c x).cams = s.cams := by cases c <;> rfl
@[simp] theorem State.setRing_eths (s : State) (c : Channel) (x : Ring) : (s.setRing c x).eths = s.eths := by cases c <;> rfl
@[simp] theorem State.setRing_cans (s : State) (c : Channel) (x : Ring) : (s.setRing c x).cans = s.cans := by cases c <;> rfl
@[simp] theorem State.setRing_spis (s : State) (c : Channel) (x : Ring) : (s.setRing c x).spis = s.spis := by cases c <;> rfl
@[simp] theorem State.setRing_gpio (s : State) (c : Channel) (x : Ring) : (s.setRing c x).gpio = s.gpio := by cases c <;> rfl
@[simp] theorem State.setRing_aln (s : State) (c : Channel) (x : Ring) : (s.setRing c x).aln = s.aln := by cases c <;> rfl
@[simp] theorem State.setRing_ego (s : State) (c : Channel) (x : Ring) : (s.setRing c x).ego = s.ego := by cases c <;> rfl
@[simp] theorem State.setRing_grd (s : State) (c : Channel) (x : Ring) : (s.setRing c x).grd = s.grd := by cases c <;> rfl
@[simp] theorem State.setRing_outb (s : State) (c : Channel) (x : Ring) : (s.setRing c x).outb = s.outb := by cases c <;> rfl
@[simp] theorem State.setRing_arc (s : State) (c : Channel) (x : Ring) : (s.setRing c x).arc = s.arc := by cases c <;> rfl
@[simp] theorem State.setRing_crd (s : State) (c : Channel) (x : Ring) : (s.setRing c x).crd = s.crd := by cases c <;> rfl
@[simp] theorem State.setRing_inc (s : State) (c : Channel) (x : Ring) : (s.setRing c x).inc = s.inc := by cases c <;> rfl
@[simp] theorem State.setRing_ldg (s : State) (c : Channel) (x : Ring) : (s.setRing c x).ldg = s.ldg := by cases c <;> rfl
@[simp] theorem State.setRing_fab (s : State) (c : Channel) (x : Ring) : (s.setRing c x).fab = s.fab := by cases c <;> rfl
@[simp] theorem State.setRing_pwr (s : State) (c : Channel) (x : Ring) : (s.setRing c x).pwr = s.pwr := by cases c <;> rfl
@[simp] theorem State.setRing_clk (s : State) (c : Channel) (x : Ring) : (s.setRing c x).clk = s.clk := by cases c <;> rfl
@[simp] theorem State.setRing_flt (s : State) (c : Channel) (x : Ring) : (s.setRing c x).flt = s.flt := by cases c <;> rfl
@[simp] theorem State.setRing_tst (s : State) (c : Channel) (x : Ring) : (s.setRing c x).tst = s.tst := by cases c <;> rfl
@[simp] theorem State.setRing_mbx (s : State) (c : Channel) (x : Ring) : (s.setRing c x).mbx = s.mbx := by cases c <;> rfl
@[simp] theorem State.setRing_mem (s : State) (c : Channel) (x : Ring) : (s.setRing c x).mem = s.mem := by cases c <;> rfl
@[simp] theorem State.setRing_shadows (s : State) (c : Channel) (x : Ring) : (s.setRing c x).shadows = s.shadows := by cases c <;> rfl
@[simp] theorem State.setRing_out (s : State) (c : Channel) (x : Ring) : (s.setRing c x).out = s.out := by cases c <;> rfl
@[simp] theorem State.setRing_freeCtr (s : State) (c : Channel) (x : Ring) : (s.setRing c x).freeCtr = s.freeCtr := by cases c <;> rfl
@[simp] theorem State.setRing_pending (s : State) (c : Channel) (x : Ring) : (s.setRing c x).pending = s.pending := by cases c <;> rfl

@[simp] theorem raiseDet_otp (d : Nat) (w : Word) (s : State) : (raiseDet d w s).otp = s.otp := rfl
@[simp] theorem levelOff_otp (d : Nat) (s : State) : (levelOff d s).otp = s.otp := rfl
@[simp] theorem raiseDet_before (d : Nat) (w : Word) (s : State) : (raiseDet d w s).before = s.before := rfl
@[simp] theorem levelOff_before (d : Nat) (s : State) : (levelOff d s).before = s.before := rfl
@[simp] theorem raiseDet_pins (d : Nat) (w : Word) (s : State) : (raiseDet d w s).pins = s.pins := rfl
@[simp] theorem levelOff_pins (d : Nat) (s : State) : (levelOff d s).pins = s.pins := rfl
@[simp] theorem raiseDet_gctl (d : Nat) (w : Word) (s : State) : (raiseDet d w s).gctl = s.gctl := rfl
@[simp] theorem levelOff_gctl (d : Nat) (s : State) : (levelOff d s).gctl = s.gctl := rfl
@[simp] theorem raiseDet_tim (d : Nat) (w : Word) (s : State) : (raiseDet d w s).tim = s.tim := rfl
@[simp] theorem levelOff_tim (d : Nat) (s : State) : (levelOff d s).tim = s.tim := rfl
@[simp] theorem raiseDet_tck (d : Nat) (w : Word) (s : State) : (raiseDet d w s).tck = s.tck := rfl
@[simp] theorem levelOff_tck (d : Nat) (s : State) : (levelOff d s).tck = s.tck := rfl
@[simp] theorem raiseDet_img (d : Nat) (w : Word) (s : State) : (raiseDet d w s).img = s.img := rfl
@[simp] theorem levelOff_img (d : Nat) (s : State) : (levelOff d s).img = s.img := rfl
@[simp] theorem raiseDet_sch (d : Nat) (w : Word) (s : State) : (raiseDet d w s).sch = s.sch := rfl
@[simp] theorem levelOff_sch (d : Nat) (s : State) : (levelOff d s).sch = s.sch := rfl
@[simp] theorem raiseDet_cvt (d : Nat) (w : Word) (s : State) : (raiseDet d w s).cvt = s.cvt := rfl
@[simp] theorem levelOff_cvt (d : Nat) (s : State) : (levelOff d s).cvt = s.cvt := rfl
@[simp] theorem raiseDet_cams (d : Nat) (w : Word) (s : State) : (raiseDet d w s).cams = s.cams := rfl
@[simp] theorem levelOff_cams (d : Nat) (s : State) : (levelOff d s).cams = s.cams := rfl
@[simp] theorem raiseDet_eths (d : Nat) (w : Word) (s : State) : (raiseDet d w s).eths = s.eths := rfl
@[simp] theorem levelOff_eths (d : Nat) (s : State) : (levelOff d s).eths = s.eths := rfl
@[simp] theorem raiseDet_cans (d : Nat) (w : Word) (s : State) : (raiseDet d w s).cans = s.cans := rfl
@[simp] theorem levelOff_cans (d : Nat) (s : State) : (levelOff d s).cans = s.cans := rfl
@[simp] theorem raiseDet_spis (d : Nat) (w : Word) (s : State) : (raiseDet d w s).spis = s.spis := rfl
@[simp] theorem levelOff_spis (d : Nat) (s : State) : (levelOff d s).spis = s.spis := rfl
@[simp] theorem raiseDet_gpio (d : Nat) (w : Word) (s : State) : (raiseDet d w s).gpio = s.gpio := rfl
@[simp] theorem levelOff_gpio (d : Nat) (s : State) : (levelOff d s).gpio = s.gpio := rfl
@[simp] theorem raiseDet_aln (d : Nat) (w : Word) (s : State) : (raiseDet d w s).aln = s.aln := rfl
@[simp] theorem levelOff_aln (d : Nat) (s : State) : (levelOff d s).aln = s.aln := rfl
@[simp] theorem raiseDet_ego (d : Nat) (w : Word) (s : State) : (raiseDet d w s).ego = s.ego := rfl
@[simp] theorem levelOff_ego (d : Nat) (s : State) : (levelOff d s).ego = s.ego := rfl
@[simp] theorem raiseDet_grd (d : Nat) (w : Word) (s : State) : (raiseDet d w s).grd = s.grd := rfl
@[simp] theorem levelOff_grd (d : Nat) (s : State) : (levelOff d s).grd = s.grd := rfl
@[simp] theorem raiseDet_outb (d : Nat) (w : Word) (s : State) : (raiseDet d w s).outb = s.outb := rfl
@[simp] theorem levelOff_outb (d : Nat) (s : State) : (levelOff d s).outb = s.outb := rfl
@[simp] theorem raiseDet_arc (d : Nat) (w : Word) (s : State) : (raiseDet d w s).arc = s.arc := rfl
@[simp] theorem levelOff_arc (d : Nat) (s : State) : (levelOff d s).arc = s.arc := rfl
@[simp] theorem raiseDet_crd (d : Nat) (w : Word) (s : State) : (raiseDet d w s).crd = s.crd := rfl
@[simp] theorem levelOff_crd (d : Nat) (s : State) : (levelOff d s).crd = s.crd := rfl
@[simp] theorem raiseDet_inc (d : Nat) (w : Word) (s : State) : (raiseDet d w s).inc = s.inc := rfl
@[simp] theorem levelOff_inc (d : Nat) (s : State) : (levelOff d s).inc = s.inc := rfl
@[simp] theorem raiseDet_ldg (d : Nat) (w : Word) (s : State) : (raiseDet d w s).ldg = s.ldg := rfl
@[simp] theorem levelOff_ldg (d : Nat) (s : State) : (levelOff d s).ldg = s.ldg := rfl
@[simp] theorem raiseDet_fab (d : Nat) (w : Word) (s : State) : (raiseDet d w s).fab = s.fab := rfl
@[simp] theorem levelOff_fab (d : Nat) (s : State) : (levelOff d s).fab = s.fab := rfl
@[simp] theorem raiseDet_pwr (d : Nat) (w : Word) (s : State) : (raiseDet d w s).pwr = s.pwr := rfl
@[simp] theorem levelOff_pwr (d : Nat) (s : State) : (levelOff d s).pwr = s.pwr := rfl
@[simp] theorem raiseDet_clk (d : Nat) (w : Word) (s : State) : (raiseDet d w s).clk = s.clk := rfl
@[simp] theorem levelOff_clk (d : Nat) (s : State) : (levelOff d s).clk = s.clk := rfl
@[simp] theorem raiseDet_tst (d : Nat) (w : Word) (s : State) : (raiseDet d w s).tst = s.tst := rfl
@[simp] theorem levelOff_tst (d : Nat) (s : State) : (levelOff d s).tst = s.tst := rfl
@[simp] theorem raiseDet_hst (d : Nat) (w : Word) (s : State) : (raiseDet d w s).hst = s.hst := rfl
@[simp] theorem levelOff_hst (d : Nat) (s : State) : (levelOff d s).hst = s.hst := rfl
@[simp] theorem raiseDet_mbx (d : Nat) (w : Word) (s : State) : (raiseDet d w s).mbx = s.mbx := rfl
@[simp] theorem levelOff_mbx (d : Nat) (s : State) : (levelOff d s).mbx = s.mbx := rfl
@[simp] theorem raiseDet_mem (d : Nat) (w : Word) (s : State) : (raiseDet d w s).mem = s.mem := rfl
@[simp] theorem levelOff_mem (d : Nat) (s : State) : (levelOff d s).mem = s.mem := rfl
@[simp] theorem raiseDet_shadows (d : Nat) (w : Word) (s : State) : (raiseDet d w s).shadows = s.shadows := rfl
@[simp] theorem levelOff_shadows (d : Nat) (s : State) : (levelOff d s).shadows = s.shadows := rfl
@[simp] theorem raiseDet_out (d : Nat) (w : Word) (s : State) : (raiseDet d w s).out = s.out := rfl
@[simp] theorem levelOff_out (d : Nat) (s : State) : (levelOff d s).out = s.out := rfl
@[simp] theorem raiseDet_freeCtr (d : Nat) (w : Word) (s : State) : (raiseDet d w s).freeCtr = s.freeCtr := rfl
@[simp] theorem levelOff_freeCtr (d : Nat) (s : State) : (levelOff d s).freeCtr = s.freeCtr := rfl
@[simp] theorem raiseDet_pending (d : Nat) (w : Word) (s : State) : (raiseDet d w s).pending = s.pending := rfl
@[simp] theorem levelOff_pending (d : Nat) (s : State) : (levelOff d s).pending = s.pending := rfl
@[simp] theorem levelOff_due (d : Nat) (s : State) : (levelOff d s).flt.due = s.flt.due := rfl
@[simp] theorem State.say_out (s : State) (o : Out) : (s.say o).out = o :: s.out := rfl
@[simp] theorem State.drawn_freeCtr (s : State) : s.drawn.freeCtr = s.freeCtr + 1 := rfl
@[simp] theorem reject_otp (src : Source) (k p i : Nat) (s : State) : (reject src k p i s).otp = s.otp := rfl
@[simp] theorem reject_before (src : Source) (k p i : Nat) (s : State) : (reject src k p i s).before = s.before := rfl
@[simp] theorem reject_pins (src : Source) (k p i : Nat) (s : State) : (reject src k p i s).pins = s.pins := rfl
@[simp] theorem reject_tim (src : Source) (k p i : Nat) (s : State) : (reject src k p i s).tim = s.tim := rfl
@[simp] theorem reject_tck (src : Source) (k p i : Nat) (s : State) : (reject src k p i s).tck = s.tck := rfl
@[simp] theorem reject_img (src : Source) (k p i : Nat) (s : State) : (reject src k p i s).img = s.img := rfl
@[simp] theorem reject_sch (src : Source) (k p i : Nat) (s : State) : (reject src k p i s).sch = s.sch := rfl
@[simp] theorem reject_cvt (src : Source) (k p i : Nat) (s : State) : (reject src k p i s).cvt = s.cvt := rfl
@[simp] theorem reject_cams (src : Source) (k p i : Nat) (s : State) : (reject src k p i s).cams = s.cams := rfl
@[simp] theorem reject_eths (src : Source) (k p i : Nat) (s : State) : (reject src k p i s).eths = s.eths := rfl
@[simp] theorem reject_cans (src : Source) (k p i : Nat) (s : State) : (reject src k p i s).cans = s.cans := rfl
@[simp] theorem reject_spis (src : Source) (k p i : Nat) (s : State) : (reject src k p i s).spis = s.spis := rfl
@[simp] theorem reject_gpio (src : Source) (k p i : Nat) (s : State) : (reject src k p i s).gpio = s.gpio := rfl
@[simp] theorem reject_aln (src : Source) (k p i : Nat) (s : State) : (reject src k p i s).aln = s.aln := rfl
@[simp] theorem reject_ego (src : Source) (k p i : Nat) (s : State) : (reject src k p i s).ego = s.ego := rfl
@[simp] theorem reject_grd (src : Source) (k p i : Nat) (s : State) : (reject src k p i s).grd = s.grd := rfl
@[simp] theorem reject_outb (src : Source) (k p i : Nat) (s : State) : (reject src k p i s).outb = s.outb := rfl
@[simp] theorem reject_arc (src : Source) (k p i : Nat) (s : State) : (reject src k p i s).arc = s.arc := rfl
@[simp] theorem reject_crd (src : Source) (k p i : Nat) (s : State) : (reject src k p i s).crd = s.crd := rfl
@[simp] theorem reject_inc (src : Source) (k p i : Nat) (s : State) : (reject src k p i s).inc = s.inc := rfl
@[simp] theorem reject_ldg (src : Source) (k p i : Nat) (s : State) : (reject src k p i s).ldg = s.ldg := rfl
@[simp] theorem reject_fab (src : Source) (k p i : Nat) (s : State) : (reject src k p i s).fab = s.fab := rfl
@[simp] theorem reject_pwr (src : Source) (k p i : Nat) (s : State) : (reject src k p i s).pwr = s.pwr := rfl
@[simp] theorem reject_clk (src : Source) (k p i : Nat) (s : State) : (reject src k p i s).clk = s.clk := rfl
@[simp] theorem reject_flt (src : Source) (k p i : Nat) (s : State) : (reject src k p i s).flt = s.flt := rfl
@[simp] theorem reject_tst (src : Source) (k p i : Nat) (s : State) : (reject src k p i s).tst = s.tst := rfl
@[simp] theorem reject_hst (src : Source) (k p i : Nat) (s : State) : (reject src k p i s).hst = s.hst := rfl
@[simp] theorem reject_mbx (src : Source) (k p i : Nat) (s : State) : (reject src k p i s).mbx = s.mbx := rfl
@[simp] theorem reject_mem (src : Source) (k p i : Nat) (s : State) : (reject src k p i s).mem = s.mem := rfl
@[simp] theorem reject_shadows (src : Source) (k p i : Nat) (s : State) : (reject src k p i s).shadows = s.shadows := rfl
@[simp] theorem reject_out (src : Source) (k p i : Nat) (s : State) : (reject src k p i s).out = s.out := rfl
@[simp] theorem reject_freeCtr (src : Source) (k p i : Nat) (s : State) : (reject src k p i s).freeCtr = s.freeCtr := rfl
@[simp] theorem reject_pending (src : Source) (k p i : Nat) (s : State) : (reject src k p i s).pending = s.pending := rfl

/-- A table entry that has just been written reads as written. -/
@[simp] theorem tget_tset_same {α : Type} [Inhabited α] {n : Nat} (v : Vector α n) (i : Nat) (a : α) (h : i < n) : tget (tset v i a) i = a := by
  simp [tget, tset, Vector.getD, h]

/-- Writing an entry of a table leaves every other entry. -/
@[simp] theorem tget_tset_other {α : Type} [Inhabited α] {n : Nat} (v : Vector α n) (i j : Nat) (a : α) (h : i ≠ j) : tget (tset v i a) j = tget v j := by
  by_cases hj : j < n
  · simp [tget, tset, Vector.getD, Array.getD, hj, h]
  · simp [tget, tset, Vector.getD, Array.getD, hj]

/-- MSI-X touches the pending bits and what leaves the device, nothing else. -/
@[simp] theorem msix_otp (v : Nat) (en : Bool) (s : State) : (msix v en s).otp = s.otp := by unfold msix; split_ifs <;> rfl
@[simp] theorem msix_before (v : Nat) (en : Bool) (s : State) : (msix v en s).before = s.before := by unfold msix; split_ifs <;> rfl
@[simp] theorem msix_pins (v : Nat) (en : Bool) (s : State) : (msix v en s).pins = s.pins := by unfold msix; split_ifs <;> rfl
@[simp] theorem msix_gctl (v : Nat) (en : Bool) (s : State) : (msix v en s).gctl = s.gctl := by unfold msix; split_ifs <;> rfl
@[simp] theorem msix_tim (v : Nat) (en : Bool) (s : State) : (msix v en s).tim = s.tim := by unfold msix; split_ifs <;> rfl
@[simp] theorem msix_tck (v : Nat) (en : Bool) (s : State) : (msix v en s).tck = s.tck := by unfold msix; split_ifs <;> rfl
@[simp] theorem msix_img (v : Nat) (en : Bool) (s : State) : (msix v en s).img = s.img := by unfold msix; split_ifs <;> rfl
@[simp] theorem msix_sch (v : Nat) (en : Bool) (s : State) : (msix v en s).sch = s.sch := by unfold msix; split_ifs <;> rfl
@[simp] theorem msix_cvt (v : Nat) (en : Bool) (s : State) : (msix v en s).cvt = s.cvt := by unfold msix; split_ifs <;> rfl
@[simp] theorem msix_cams (v : Nat) (en : Bool) (s : State) : (msix v en s).cams = s.cams := by unfold msix; split_ifs <;> rfl
@[simp] theorem msix_eths (v : Nat) (en : Bool) (s : State) : (msix v en s).eths = s.eths := by unfold msix; split_ifs <;> rfl
@[simp] theorem msix_cans (v : Nat) (en : Bool) (s : State) : (msix v en s).cans = s.cans := by unfold msix; split_ifs <;> rfl
@[simp] theorem msix_spis (v : Nat) (en : Bool) (s : State) : (msix v en s).spis = s.spis := by unfold msix; split_ifs <;> rfl
@[simp] theorem msix_gpio (v : Nat) (en : Bool) (s : State) : (msix v en s).gpio = s.gpio := by unfold msix; split_ifs <;> rfl
@[simp] theorem msix_aln (v : Nat) (en : Bool) (s : State) : (msix v en s).aln = s.aln := by unfold msix; split_ifs <;> rfl
@[simp] theorem msix_ego (v : Nat) (en : Bool) (s : State) : (msix v en s).ego = s.ego := by unfold msix; split_ifs <;> rfl
@[simp] theorem msix_grd (v : Nat) (en : Bool) (s : State) : (msix v en s).grd = s.grd := by unfold msix; split_ifs <;> rfl
@[simp] theorem msix_outb (v : Nat) (en : Bool) (s : State) : (msix v en s).outb = s.outb := by unfold msix; split_ifs <;> rfl
@[simp] theorem msix_arc (v : Nat) (en : Bool) (s : State) : (msix v en s).arc = s.arc := by unfold msix; split_ifs <;> rfl
@[simp] theorem msix_crd (v : Nat) (en : Bool) (s : State) : (msix v en s).crd = s.crd := by unfold msix; split_ifs <;> rfl
@[simp] theorem msix_inc (v : Nat) (en : Bool) (s : State) : (msix v en s).inc = s.inc := by unfold msix; split_ifs <;> rfl
@[simp] theorem msix_ldg (v : Nat) (en : Bool) (s : State) : (msix v en s).ldg = s.ldg := by unfold msix; split_ifs <;> rfl
@[simp] theorem msix_fab (v : Nat) (en : Bool) (s : State) : (msix v en s).fab = s.fab := by unfold msix; split_ifs <;> rfl
@[simp] theorem msix_pwr (v : Nat) (en : Bool) (s : State) : (msix v en s).pwr = s.pwr := by unfold msix; split_ifs <;> rfl
@[simp] theorem msix_clk (v : Nat) (en : Bool) (s : State) : (msix v en s).clk = s.clk := by unfold msix; split_ifs <;> rfl
@[simp] theorem msix_flt (v : Nat) (en : Bool) (s : State) : (msix v en s).flt = s.flt := by unfold msix; split_ifs <;> rfl
@[simp] theorem msix_tst (v : Nat) (en : Bool) (s : State) : (msix v en s).tst = s.tst := by unfold msix; split_ifs <;> rfl
@[simp] theorem msix_mbx (v : Nat) (en : Bool) (s : State) : (msix v en s).mbx = s.mbx := by unfold msix; split_ifs <;> rfl
@[simp] theorem msix_mem (v : Nat) (en : Bool) (s : State) : (msix v en s).mem = s.mem := by unfold msix; split_ifs <;> rfl
@[simp] theorem msix_shadows (v : Nat) (en : Bool) (s : State) : (msix v en s).shadows = s.shadows := by unfold msix; split_ifs <;> rfl
@[simp] theorem msix_freeCtr (v : Nat) (en : Bool) (s : State) : (msix v en s).freeCtr = s.freeCtr := by unfold msix; split_ifs <;> rfl
@[simp] theorem msix_pending (v : Nat) (en : Bool) (s : State) : (msix v en s).pending = s.pending := by unfold msix; split_ifs <;> rfl

end Sys2Proof.Machine
end

