-- ==== Sys2Proof/Laws/Settle.lean ====
section
/-! SUPPORT. What `settle` and `done` do: the warden leaves nothing waiting, and a state in which nothing waits is left alone. -/
namespace Sys2Proof.Machine

/-- Nothing waits: the warden leaves the state alone. -/
theorem settle_of_settled {s : State} (h : Settled s) : settle s = s := by
  obtain ⟨hd, hq⟩ := h
  simp [settle, settleN, flushPorts, hd, hq]

/-- Nothing waits: the command's effect is the next state. -/
theorem done_of_settled {s : State} (h : Settled s) : done s = .next s := by
  simp [done, settle_of_settled h]

/-- The warden leaves nothing waiting. -/
theorem due_settleN (n : Nat) (s : State) : (settleN n s).flt.due = [] := by
  induction n generalizing s with
  | zero => rfl
  | succ n ih =>
    unfold settleN
    split
    · next h => simpa using h
    · exact ih _

/-- A frame that starts changes its port and what leaves the device, and nothing else. -/
theorem transmit_frame (s : State) (m : OutMsg) :
    transmit s m = { s with fab := (transmit s m).fab, out := (transmit s m).out } ∧ (transmit s m).fab.outq = s.fab.outq := ⟨rfl, rfl⟩

/-- Sending changes the ports and what leaves the device, and nothing else. -/
theorem foldl_transmit_frame (l : List OutMsg) (s : State) :
    l.foldl transmit s = { s with fab := (l.foldl transmit s).fab, out := (l.foldl transmit s).out } ∧
      (l.foldl transmit s).fab.outq = s.fab.outq := by
  induction l generalizing s with
  | nil => exact ⟨rfl, rfl⟩
  | cons m l ih =>
    obtain ⟨h, hq⟩ := ih (transmit s m)
    exact ⟨h, hq.trans (transmit_frame s m).2⟩

/-- The ports send all that waits, and touch nothing but the fabric and what leaves the device. -/
theorem flushPorts_frame (s : State) :
    flushPorts s = { s with fab := (flushPorts s).fab, out := (flushPorts s).out } ∧ (flushPorts s).fab.outq = [] := by
  unfold flushPorts
  split
  · next h => exact ⟨rfl, by simpa using h⟩
  · exact foldl_transmit_frame (s.fab.outq.filter (fun m => m.msg.time) ++ s.fab.outq.filter (fun m => !m.msg.time)) { s with fab.outq := [] }

/-- Neither the warden nor the ports leave anything waiting. -/
theorem settled_settle (s : State) : Settled (settle s) := by
  have h := flushPorts_frame (settleN 4 s)
  refine ⟨?_, h.2⟩
  show (flushPorts (settleN 4 s)).flt.due = []
  rw [h.1]; exact due_settleN 4 s

/-- Whatever a meaning answers through `done` is a next state in which nothing waits. -/
theorem done_settled (s : State) : ∃ t, done s = .next t ∧ Settled t := ⟨_, rfl, settled_settle s⟩

end Sys2Proof.Machine
end

