-- ==== Sys2Proof/Laws/Clock.lean ====
section
/-! SUPPORT. How time passes while no apply and no discipline is staged: only the counter, device time and what is left of a
slew change. -/
namespace Sys2Proof.Machine

theorem TimePasses.refl (s : State) : TimePasses s s := rfl

theorem TimePasses.trans {s t u : State} (h : TimePasses s t) (k : TimePasses t u) : TimePasses s u := by
  unfold TimePasses at *
  rw [k, h]

/-- Time that passes leaves the clock quiet. -/
theorem TimePasses.quiet {s u : State} (h : TimePasses s u) (q : QuietClock s) : QuietClock u := by
  unfold TimePasses at h
  unfold QuietClock at *
  rw [h]
  exact q

/-- Time that passes leaves the warden settled. -/
theorem TimePasses.settled {s u : State} (h : TimePasses s u) (q : Settled s) : Settled u := by
  unfold TimePasses at h
  unfold Settled at *
  rw [h]
  exact q

/-- A stretch of counter updates under one rate. -/
theorem timePasses_plainUpdates (k : Nat) (s : State) : TimePasses s (plainUpdates k s) := rfl

theorem plainUpdates_mono (k : Nat) (s : State) : (plainUpdates k s).tim.mono = s.tim.mono + 4 * k := rfl

/-- With nothing staged a counter update only counts. -/
theorem counterUpdate_of_quiet {s : State} (q : QuietClock s) : counterUpdate s = plainUpdates 1 s := by
  obtain ⟨h1, h2, h3⟩ := q
  have n1 : (plainUpdates 1 s).tim.now = [] := h2
  have n2 : (plainUpdates 1 s).tim.pend = none := h3
  have n3 : { plainUpdates 1 s with tim.now := [] } = plainUpdates 1 s := by rw [← n1]
  unfold counterUpdate
  rw [h1]
  extract_lets b second c rolls src d
  have hd : d = plainUpdates 1 s := by
    refine Eq.trans ?_ n3
    change (plainUpdates 1 s).tim.now.foldl _ _ = _
    rw [n1]
    rfl
  rw [hd]
  split
  · rfl
  · rw [n2]

/-- With nothing staged the next updates pass at one rate, one of them at least. -/
theorem Tim.stretch_of_quiet {s : State} (q : QuietClock s) (n : Nat) : s.tim.stretch n ≤ n ∧ (n ≠ 0 → s.tim.stretch n ≠ 0) := by
  obtain ⟨h1, h2, h3⟩ := q
  unfold Tim.stretch
  simp only [h1, h2, h3, Option.isSome_none, List.isEmpty_nil, Bool.not_true, Bool.or_self, Bool.false_eq_true, if_false]
  split <;> omega

/-- Counter updates with nothing staged, and how far the monotonic counter comes. -/
theorem timePasses_updates (fuel n : Nat) (s : State) (q : QuietClock s) :
    TimePasses s (updates fuel n s) ∧ (updates fuel n s).tim.mono = s.tim.mono + 4 * n := by
  induction fuel generalizing n s with
  | zero => exact ⟨rfl, rfl⟩
  | succ fuel ih =>
    unfold updates
    obtain ⟨hk, hz⟩ := Tim.stretch_of_quiet q n
    extract_lets k
    change k ≤ n at hk
    change n ≠ 0 → k ≠ 0 at hz
    clear_value k
    by_cases h : n = 0
    · subst h; exact ⟨rfl, rfl⟩
    · rw [if_neg h, if_neg (hz h)]
      have hp := timePasses_plainUpdates k s
      obtain ⟨a, b⟩ := ih (n - k) (plainUpdates k s) (hp.quiet q)
      exact ⟨hp.trans a, by rw [b, plainUpdates_mono]; omega⟩

/-- Time passes to a monotonic instant. -/
theorem timePasses_advanceTo (m : Nat) {s : State} (q : QuietClock s) : TimePasses s (advanceTo m s) :=
  (timePasses_updates _ _ s q).1

/-- The monotonic counter reaches the instant it is advanced to. -/
theorem advanceTo_mono (m : Nat) {s : State} (q : QuietClock s) :
    m ≤ (advanceTo m s).tim.mono ∧ s.tim.mono ≤ (advanceTo m s).tim.mono := by
  have := (timePasses_updates 16 (ceilDiv (m - s.tim.mono) 4) s q).2
  unfold advanceTo
  rw [this]
  unfold ceilDiv
  omega

/-- An instant that has been reached leaves the state as it is. -/
theorem advanceTo_past {m : Nat} {s : State} (h : m ≤ s.tim.mono) : advanceTo m s = s := by
  have : ceilDiv (m - s.tim.mono) 4 = 0 := by unfold ceilDiv; omega
  simp [advanceTo, this, updates]

/-- Time passes until device time reads a stamp. -/
theorem timePasses_advanceStamp (g : Nat) {s : State} (q : QuietClock s) : TimePasses s (advanceStamp g s) := by
  unfold advanceStamp
  generalize List.range 16 = l
  suffices h : ∀ (t u : State), TimePasses s t → u = l.foldl (fun t _ =>
      if g ≤ t.tim.dev || t.tim.steps.length ≠ s.tim.steps.length then t
      else
        let k := t.tim.stretch (t.tim.updatesFor (g - t.tim.dev))
        if k = 0 then counterUpdate t else plainUpdates k t) t → TimePasses s u from
    h s _ (TimePasses.refl s) rfl
  induction l with
  | nil => intro t u h e; rw [e]; exact h
  | cons a l ih =>
    intro t u h e
    rw [List.foldl_cons] at e
    refine ih _ u ?_ e
    split
    · exact h
    · dsimp only
      split
      · rw [counterUpdate_of_quiet (h.quiet q)]
        exact h.trans (timePasses_plainUpdates 1 t)
      · exact h.trans (timePasses_plainUpdates _ t)

end Sys2Proof.Machine
end

