-- ==== Sys2Proof/Laws/Image.lean ====
section
/-! SUPPORT. How the bytes of an image are reached: pieces of a byte list, the blocks of a digest, code words in a row. -/
namespace Sys2Proof.Machine

/-- Digesting `m` whole blocks and what follows them is digesting the blocks and then the rest. -/
theorem shaBlocks_append (m n : Nat) (acc : List Nat) (x y : List Byte) (h : x.length = 64 * m) :
    shaBlocks (m + n) acc (x ++ y) = shaBlocks n (shaBlocks m acc x) y := by
  induction m generalizing acc x with
  | zero => rw [List.length_eq_zero_iff.mp h, Nat.zero_add]; rfl
  | succ m ih =>
    rw [Nat.succ_add, shaBlocks, shaBlocks, List.take_append_of_le_length (by omega), List.drop_append_of_le_length (by omega),
      ih _ _ (by rw [List.length_drop]; omega)]

/-- A piece that lies in a run of zero bytes. -/
theorem part_in_zeros (a z : List Byte) (n o k : Nat) (h : a.length ≤ o) (g : o + k ≤ a.length + n) : part (a ++ (zeros n ++ z)) o k = zeros k := by
  have e : o - a.length - n = 0 := by omega
  simp only [part, zeros, List.drop_append, List.drop_replicate, List.length_replicate, List.drop_eq_nil_of_le h, List.nil_append, e,
    List.drop_zero, List.take_append, List.take_replicate]
  rw [Nat.min_eq_left (by omega), show k - (n - (o - a.length)) = 0 by omega]
  simp

/-- Code words of a byte list in a row. -/
def wordsFrom : Nat → Nat → List Byte → List (Nat × ArcWord)
  | 0, _, _ => []
  | n + 1, k, bs => (k, .prog (bs.take 32)) :: wordsFrom n (k + 1) (bs.drop 32)

theorem wfind_wordsFrom (n k i : Nat) (bs : List Byte) (l : List (Nat × ArcWord)) (h : i < n) :
    wfind (wordsFrom n k bs ++ l) (k + i) = some (.prog ((bs.drop (32 * i)).take 32)) := by
  induction n generalizing k i bs with
  | zero => omega
  | succ n ih =>
    cases i with
    | zero => simp [wordsFrom, wfind]
    | succ i =>
      have hi := ih (k + 1) i (bs.drop 32) (by omega)
      simp only [wfind] at hi ⊢
      rw [wordsFrom, List.cons_append, List.find?_cons_of_neg (by simp), show k + (i + 1) = k + 1 + i by omega, hi, List.drop_drop]
      congr 4; omega

/-- Consecutive pieces of 32 bytes make up the bytes they are taken from. -/
theorem flatMap_pieces (n : Nat) (bs : List Byte) : (List.range n).flatMap (fun i => (bs.drop (32 * i)).take 32) = bs.take (32 * n) := by
  induction n with
  | zero => simp
  | succ n ih => rw [List.range_succ, List.flatMap_append, ih, Nat.mul_succ, List.take_add]; simp

/-- An archive without bit errors or marks that holds a byte list from `a` on reads as that list. -/
theorem readBytes_wordsFrom (arc : Arc) (n a len : Nat) (bs : List Byte) (l : List (Nat × ArcWord)) (hw : arc.words = wordsFrom n (a / 32) bs ++ l)
    (he : arc.bitErrs = []) (hm : arc.hdrs = []) (ha : a % 32 = 0) (hl : ceilDiv len 32 ≤ n) (hn : len ≤ 32 * ceilDiv len 32) :
    arc.readBytes a len = bs.take len := by
  have word (i : Nat) (h : i < ceilDiv len 32) : (arc.classOf (a + 32 * i)).data = (bs.drop (32 * i)).take 32 := by
    have q : (a + 32 * i) / 32 = a / 32 + i := by omega
    have e : arc.errsAt (a + 32 * i) = 0 := by rw [Arc.errsAt, he]; rfl
    rw [Arc.classOf, Arc.classAs, hw, q, wfind_wordsFrom n _ i bs l (by omega), e]
    simp only
    split
    · simp [Arc.hdr, hm, alookup, WordClass.data]
    · rfl
  have all : (List.range (ceilDiv len 32)).flatMap (fun i => (arc.classOf (a + 32 * i)).data) = bs.take (32 * ceilDiv len 32) := by
    rw [← flatMap_pieces]
    exact congrArg List.flatten (List.map_congr_left (fun i hi => word i (List.mem_range.mp hi)))
  rw [Arc.readBytes, Arc.readWords, all, List.take_take, Nat.min_eq_left hn]

end Sys2Proof.Machine
end

