-- ==== Sys2Proof/Laws/Memory.lean ====
section
/-! SUPPORT. The laws of the memories of R96: every operation keeps the canonical form, a read after a write gives what was
written, a write leaves every other address, and equal contents are equal lists. -/
namespace Sys2Proof.Machine

/-- The form of a list with a first cell. -/
theorem Memory.wfFrom_cons {m : Mem} {lo a : Nat} {b : Byte} :
    Memory.wfFrom lo ((a, b) :: m) = true ↔ (lo ≤ a ∧ b ≠ 0) ∧ Memory.wfFrom (a + 1) m = true := by
  simp only [Memory.wfFrom, Bool.and_eq_true, decide_eq_true_eq]

/-- The form from a bound holds from any lower bound. -/
theorem Memory.wfFrom_mono {m : Mem} {lo lo' : Nat} (h : Memory.wfFrom lo m = true) (hl : lo' ≤ lo) : Memory.wfFrom lo' m = true := by
  cases m with
  | nil => rfl
  | cons c m =>
    obtain ⟨a, b⟩ := c
    simp only [Memory.wfFrom, Bool.and_eq_true, decide_eq_true_eq] at h ⊢
    exact ⟨⟨by omega, h.1.2⟩, h.2⟩

/-- A write at or above a bound keeps the form from that bound. -/
theorem Memory.wfFrom_put {m : Mem} {lo x : Nat} {v : Byte} (h : Memory.wfFrom lo m = true) (hx : lo ≤ x) :
    Memory.wfFrom lo (Memory.put m x v) = true := by
  induction m generalizing lo with
  | nil => unfold Memory.put; split <;> simp_all [Memory.wfFrom]
  | cons c m ih =>
    obtain ⟨a, b⟩ := c
    simp only [Memory.wfFrom, Bool.and_eq_true, decide_eq_true_eq] at h
    obtain ⟨⟨ha, hb⟩, hm⟩ := h
    unfold Memory.put
    split_ifs with h1 h2 h3 h4
    · exact Memory.wfFrom_cons.2 ⟨⟨ha, hb⟩, hm⟩
    · exact Memory.wfFrom_cons.2 ⟨⟨hx, h2⟩, Memory.wfFrom_cons.2 ⟨⟨by omega, hb⟩, hm⟩⟩
    · exact Memory.wfFrom_mono hm (by omega)
    · subst h3; exact Memory.wfFrom_cons.2 ⟨⟨hx, h4⟩, hm⟩
    · exact Memory.wfFrom_cons.2 ⟨⟨ha, hb⟩, ih hm (by omega)⟩

/-- One byte written keeps the canonical form. -/
theorem Memory.wf_put {m : Mem} {x : Nat} {v : Byte} (h : Memory.wf m = true) : Memory.wf (Memory.put m x v) = true :=
  Memory.wfFrom_put h (Nat.zero_le x)

/-- A run of bytes written keeps the canonical form. -/
theorem Memory.wf_write {m : Mem} {x : Nat} {bs : List Byte} (h : Memory.wf m = true) : Memory.wf (Memory.write m x bs) = true := by
  induction bs generalizing m x with
  | nil => exact h
  | cons b bs ih => exact ih (Memory.wf_put h)

/-- Cells left out keep the form from a bound. -/
theorem Memory.wfFrom_filter {m : Mem} {lo : Nat} (p : Host.Cell → Bool) (h : Memory.wfFrom lo m = true) :
    Memory.wfFrom lo (m.filter p) = true := by
  induction m generalizing lo with
  | nil => rfl
  | cons c m ih =>
    obtain ⟨a, b⟩ := c
    simp only [Memory.wfFrom, Bool.and_eq_true, decide_eq_true_eq] at h
    obtain ⟨⟨ha, hb⟩, hm⟩ := h
    rw [List.filter_cons]
    split
    · exact Memory.wfFrom_cons.2 ⟨⟨ha, hb⟩, ih hm⟩
    · exact ih (Memory.wfFrom_mono hm (by omega))

/-- A range cleared keeps the canonical form. -/
theorem Memory.wf_clear {m : Mem} {x n : Nat} (h : Memory.wf m = true) : Memory.wf (Memory.clear m x n) = true :=
  Memory.wfFrom_filter _ h

/-- Below the bound of the form an address reads as blank. -/
theorem Memory.get_below {m : Mem} {lo x : Nat} (h : Memory.wfFrom lo m = true) (hx : x < lo) : Memory.get m x = Memory.blank := by
  induction m generalizing lo with
  | nil => rfl
  | cons c m ih =>
    obtain ⟨a, b⟩ := c
    simp only [Memory.wfFrom, Bool.and_eq_true, decide_eq_true_eq] at h
    unfold Memory.get
    rw [if_neg (by omega)]
    exact ih h.2 (by omega)

/-- A byte reads back as written. -/
theorem Memory.get_put_same {m : Mem} {x : Nat} {v : Byte} (h : Memory.wf m = true) : Memory.get (Memory.put m x v) x = v := by
  have key : ∀ (m : Mem) (lo : Nat), Memory.wfFrom lo m = true → Memory.get (Memory.put m x v) x = v := by
    intro m
    induction m with
    | nil => intro lo _; unfold Memory.put; split <;> simp_all [Memory.get, Memory.blank]
    | cons c m ih =>
      obtain ⟨a, b⟩ := c
      intro lo h
      simp only [Memory.wfFrom, Bool.and_eq_true, decide_eq_true_eq] at h
      unfold Memory.put
      split_ifs with h1 h2 h3 h4
      · simp only [Memory.get]
        rw [if_neg (by omega), Memory.get_below h.2 (by omega), h2]; rfl
      · simp [Memory.get]
      · rw [Memory.get_below h.2 (by omega), h4]; rfl
      · simp [Memory.get]
      · simp only [Memory.get]
        rw [if_neg h3]
        exact ih _ h.2
  exact key m 0 h

/-- Every other byte reads as before. -/
theorem Memory.get_put_other {m : Mem} {x y : Nat} {v : Byte} (h : Memory.wf m = true) (hy : y ≠ x) :
    Memory.get (Memory.put m x v) y = Memory.get m y := by
  have key : ∀ (m : Mem) (lo : Nat), Memory.wfFrom lo m = true → Memory.get (Memory.put m x v) y = Memory.get m y := by
    intro m
    induction m with
    | nil => intro lo _; unfold Memory.put; split <;> simp_all [Memory.get]
    | cons c m ih =>
      obtain ⟨a, b⟩ := c
      intro lo h
      simp only [Memory.wfFrom, Bool.and_eq_true, decide_eq_true_eq] at h
      unfold Memory.put
      split_ifs with h1 h2 h3 h4
      · rfl
      · simp [Memory.get, hy]
      · subst h3
        simp [Memory.get, hy]
      · subst h3
        simp [Memory.get, hy]
      · simp only [Memory.get]
        split
        · rfl
        · exact ih _ h.2
  exact key m 0 h

/-- A run of bytes leaves every address outside it. -/
theorem Memory.get_write_other {m : Mem} {x y : Nat} {bs : List Byte} (h : Memory.wf m = true) (hy : y < x ∨ x + bs.length ≤ y) :
    Memory.get (Memory.write m x bs) y = Memory.get m y := by
  induction bs generalizing m x with
  | nil => rfl
  | cons b bs ih =>
    simp only [List.length_cons] at hy
    have := ih (m := Memory.put m x b) (x := x + 1) (Memory.wf_put h) (by omega)
    rw [Memory.write, this]
    exact Memory.get_put_other h (by omega)

/-- Byte `i` of a run reads back as written. -/
theorem Memory.get_write_same {m : Mem} {x i : Nat} {bs : List Byte} (h : Memory.wf m = true) (hi : i < bs.length) :
    Memory.get (Memory.write m x bs) (x + i) = bs[i] := by
  induction bs generalizing m x i with
  | nil => simp at hi
  | cons b bs ih =>
    cases i with
    | zero =>
      rw [Memory.write, Memory.get_write_other (Memory.wf_put h) (by omega)]
      simpa using Memory.get_put_same h
    | succ i =>
      have := ih (m := Memory.put m x b) (x := x + 1) (i := i) (Memory.wf_put h) (by simpa using hi)
      simpa [Memory.write, Nat.add_assoc, Nat.add_comm 1 i] using this

/-- A run of bytes reads back as written. -/
theorem Memory.read_write {m : Mem} {x : Nat} {bs : List Byte} (h : Memory.wf m = true) :
    Memory.read (Memory.write m x bs) x bs.length = bs := by
  unfold Memory.read
  apply List.ext_getElem
  · simp
  · intro i h1 h2
    simpa using Memory.get_write_same h h2

/-- Canonical memories with equal contents are equal. -/
theorem Memory.ext_of_get {m n : Mem} {lo : Nat} (hm : Memory.wfFrom lo m = true) (hn : Memory.wfFrom lo n = true)
    (h : ∀ x, Memory.get m x = Memory.get n x) : m = n := by
  induction m generalizing n lo with
  | nil =>
    cases n with
    | nil => rfl
    | cons d n =>
      obtain ⟨a, b⟩ := d
      simp only [Memory.wfFrom, Bool.and_eq_true, decide_eq_true_eq] at hn
      have := h a
      simp [Memory.get, Memory.blank] at this
      exact absurd this.symm hn.1.2
  | cons c m ih =>
    obtain ⟨a, b⟩ := c
    simp only [Memory.wfFrom, Bool.and_eq_true, decide_eq_true_eq] at hm
    cases n with
    | nil =>
      have := h a
      simp [Memory.get, Memory.blank] at this
      exact absurd this hm.1.2
    | cons d n =>
      obtain ⟨a', b'⟩ := d
      simp only [Memory.wfFrom, Bool.and_eq_true, decide_eq_true_eq] at hn
      have ha : a = a' := by
        rcases Nat.lt_trichotomy a a' with hl | he | hl
        · have := h a
          rw [Memory.get, if_pos rfl, Memory.get, if_neg (by omega), Memory.get_below hn.2 (by omega)] at this
          exact absurd this hm.1.2
        · exact he
        · have := h a'
          rw [Memory.get, if_neg (by omega), Memory.get_below hm.2 (by omega), Memory.get, if_pos rfl] at this
          exact absurd this.symm hn.1.2
      subst ha
      have hb : b = b' := by simpa [Memory.get] using h a
      subst hb
      congr 1
      refine ih hm.2 hn.2 (fun x => ?_)
      by_cases hx : x = a
      · rw [hx, Memory.get_below hm.2 (by omega), Memory.get_below hn.2 (by omega)]
      · have := h x
        rwa [Memory.get, if_neg hx, Memory.get, if_neg hx] at this

end Sys2Proof.Machine
end

