-- ==== Sys2Proof/Laws/PerInstr.lean ====
section
/-! SUPPORT. The family of laws that is proved command by command: no row of the table gives bits, so no word spells the command. -/

namespace Sys2Proof.Laws.NoBits

/-- No word of any length is read as the command. -/
def Statement (i : Instr) : Prop := ∀ nbits w, decodeTableWord nbits w ≠ some i

theorem powerOn (mgrSel : Bool) (fabAddr : BitVec 10) : Statement (.powerOn mgrSel fabAddr) := fun _ _ h => by cases h
theorem poresetAssert : Statement (.poresetAssert) := fun _ _ h => by cases h
theorem supplyLoss (supply : Supply) : Statement (.supplyLoss supply) := fun _ _ h => by cases h
theorem pinReset : Statement (.pinReset) := fun _ _ h => by cases h
theorem holdCheck (refclkOk suppliesOk pllOk : Bool) : Statement (.holdCheck refclkOk suppliesOk pllOk) := fun _ _ h => by cases h
theorem conditionLost (what : Condition) : Statement (.conditionLost what) := fun _ _ h => by cases h
theorem powerupPlanDone (fw0 fw1 : Bool) (marginWarn : Nat) : Statement (.powerupPlanDone fw0 fw1 marginWarn) := fun _ _ h => by cases h
theorem powerupFail (code index : Byte) : Statement (.powerupFail code index) := fun _ _ h => by cases h
theorem loadDone (ecc : EccView) : Statement (.loadDone ecc) := fun _ _ h => by cases h
theorem halt (src : Source) : Statement (.halt src) := fun _ _ h => by cases h
theorem go (src : Source) : Statement (.go src) := fun _ _ h => by cases h
theorem recover (src : Source) : Statement (.recover src) := fun _ _ h => by cases h
theorem enterMaint (src : Source) : Statement (.enterMaint src) := fun _ _ h => by cases h
theorem restart (src : Source) (key : Byte) : Statement (.restart src key) := fun _ _ h => by cases h
theorem clrCnt (src : Source) : Statement (.clrCnt src) := fun _ _ h => by cases h
theorem cntClr (src : Source) (blk : CntBlk) : Statement (.cntClr src blk) := fun _ _ h => by cases h
theorem registerWrite (src : Source) (addr : Nat) (value : Word) (whole : Bool) : Statement (.registerWrite src addr value whole) := fun _ _ h => by cases h
theorem snapshotRead (src : Source) (place : Access) : Statement (.snapshotRead src place) := fun _ _ h => by cases h
theorem tickBoundary (hottest : Int) : Statement (.tickBoundary hottest) := fun _ _ h => by cases h
theorem stagedApply : Statement (.stagedApply) := fun _ _ h => by cases h
theorem commitTakeEffect : Statement (.commitTakeEffect) := fun _ _ h => by cases h
theorem runEntry : Statement (.runEntry) := fun _ _ h => by cases h
theorem armTimeout : Statement (.armTimeout) := fun _ _ h => by cases h
theorem degradedExit : Statement (.degradedExit) := fun _ _ h => by cases h
theorem lockLossDegrade : Statement (.lockLossDegrade) := fun _ _ h => by cases h
theorem quarantineExit : Statement (.quarantineExit) := fun _ _ h => by cases h
theorem srcRequest (src : Source) (value : BitVec 2) : Statement (.srcRequest src value) := fun _ _ h => by cases h
theorem srcSwitchEffect : Statement (.srcSwitchEffect) := fun _ _ h => by cases h
theorem srcSwitchTimeout : Statement (.srcSwitchTimeout) := fun _ _ h => by cases h
theorem tickInEdge : Statement (.tickInEdge) := fun _ _ h => by cases h
theorem flywheelBoundary : Statement (.flywheelBoundary) := fun _ _ h => by cases h
theorem fallback : Statement (.fallback) := fun _ _ h => by cases h
theorem gatherClose : Statement (.gatherClose) := fun _ _ h => by cases h
theorem streamLimit (stream : Nat) : Statement (.streamLimit stream) := fun _ _ h => by cases h
theorem emitEdge : Statement (.emitEdge) := fun _ _ h => by cases h
theorem frameAccept (chan : Channel) (route : Nat) : Statement (.frameAccept chan route) := fun _ _ h => by cases h
theorem quietEdge : Statement (.quietEdge) := fun _ _ h => by cases h
theorem timDiscRequest (src : Source) (disc : BitVec 2) : Statement (.timDiscRequest src disc) := fun _ _ h => by cases h
theorem applyStep (src : Source) (atSecond : Bool) : Statement (.applyStep src atSecond) := fun _ _ h => by cases h
theorem applySlew (src : Source) (atSecond : Bool) : Statement (.applySlew src atSecond) := fun _ _ h => by cases h
theorem timCancel (src : Source) : Statement (.timCancel src) := fun _ _ h => by cases h
theorem timSetWrite (src : Source) (reg : TimSet) (value : Word) : Statement (.timSetWrite src reg value) := fun _ _ h => by cases h
theorem applyAtSecondEffect : Statement (.applyAtSecondEffect) := fun _ _ h => by cases h
theorem slewEnd : Statement (.slewEnd) := fun _ _ h => by cases h
theorem gptpMessage (mac : Nat) (msg : GptpMsg) : Statement (.gptpMessage mac msg) := fun _ _ h => by cases h
theorem ppsInEdge : Statement (.ppsInEdge) := fun _ _ h => by cases h
theorem referenceSilence : Statement (.referenceSilence) := fun _ _ h => by cases h
theorem holdoverLimit : Statement (.holdoverLimit) := fun _ _ h => by cases h
theorem ppsOutPulse : Statement (.ppsOutPulse) := fun _ _ h => by cases h
theorem imgStage (src : Source) (twin : Twin) : Statement (.imgStage src twin) := fun _ _ h => by cases h
theorem imgVerify (src : Source) : Statement (.imgVerify src) := fun _ _ h => by cases h
theorem verifyDone (ecc : EccView) : Statement (.verifyDone ecc) := fun _ _ h => by cases h
theorem imgCommit (src : Source) (persist : Bool) : Statement (.imgCommit src persist) := fun _ _ h => by cases h
theorem imgCancel (src : Source) : Statement (.imgCancel src) := fun _ _ h => by cases h
theorem persistSelector : Statement (.persistSelector) := fun _ _ h => by cases h
theorem taskRelease (task : Nat) : Statement (.taskRelease task) := fun _ _ h => by cases h
theorem taskStart (core : Nat) : Statement (.taskStart core) := fun _ _ h => by cases h
theorem taskEnd (core : Nat) (cycles : Nat) (work : List CoreOp) : Statement (.taskEnd core cycles work) := fun _ _ h => by cases h
theorem wcetExceed (core : Nat) (cycles : Nat) : Statement (.wcetExceed core cycles) := fun _ _ h => by cases h
theorem solveStepEnd (core : Nat) (step : SolveStep) : Statement (.solveStepEnd core step) := fun _ _ h => by cases h
theorem solveDeadline (core : Nat) (cut : SolveCut) : Statement (.solveDeadline core cut) := fun _ _ h => by cases h
theorem queueTailWrite (src : Source) (queue : Nat) (value : BitVec 13) : Statement (.queueTailWrite src queue value) := fun _ _ h => by cases h
theorem scoreboardPeek (src : Source) (slot : BitVec 13) (entry : Bool) : Statement (.scoreboardPeek src slot entry) := fun _ _ h => by cases h
theorem cvtTestConvert (src : Source) (value : Word) : Statement (.cvtTestConvert src value) := fun _ _ h => by cases h
theorem csiFrameStart (rx vc : Nat) (frameNo : BitVec 16) (ecc : HdrEcc) : Statement (.csiFrameStart rx vc frameNo ecc) := fun _ _ h => by cases h
theorem csiLine (rx vc dt : Nat) (ecc : HdrEcc) (crcOk : Bool) (data : List Byte) : Statement (.csiLine rx vc dt ecc crcOk data) := fun _ _ h => by cases h
theorem csiFrameEnd (rx vc : Nat) (ecc : HdrEcc) : Statement (.csiFrameEnd rx vc ecc) := fun _ _ h => by cases h
theorem csiSotError (rx : Nat) : Statement (.csiSotError rx) := fun _ _ h => by cases h
theorem ethFrameRx (mac : Nat) (fcsOk : Bool) (bytes : List Byte) : Statement (.ethFrameRx mac fcsOk bytes) := fun _ _ h => by cases h
theorem ethLinkChange (mac : Nat) (link : EthLink) : Statement (.ethLinkChange mac link) := fun _ _ h => by cases h
theorem canFrameRx (ctl : Nat) (id : BitVec 29) (ide : Bool) (bits : CanBits) (data : List Byte) : Statement (.canFrameRx ctl id ide bits data) := fun _ _ h => by cases h
theorem canError (ctl : Nat) (cat : CanCat) (role : CanRole) : Statement (.canError ctl cat role) := fun _ _ h => by cases h
theorem canBusoffRecovery (ctl : Nat) : Statement (.canBusoffRecovery ctl) := fun _ _ h => by cases h
theorem drdyEdge (unit : Nat) : Statement (.drdyEdge unit) := fun _ _ h => by cases h
theorem spiTransferEnd (unit : Nat) (data : List Byte) : Statement (.spiTransferEnd unit data) := fun _ _ h => by cases h
theorem drdyTimeout (unit : Nat) : Statement (.drdyTimeout unit) := fun _ _ h => by cases h
theorem gpioEdge (pin : Nat) (rising : Bool) : Statement (.gpioEdge pin rising) := fun _ _ h => by cases h
theorem incTrigEdge (rising : Bool) : Statement (.incTrigEdge rising) := fun _ _ h => by cases h
theorem hostTrigger (src : Source) : Statement (.hostTrigger src) := fun _ _ h => by cases h
theorem vitrineBlockCommit : Statement (.vitrineBlockCommit) := fun _ _ h => by cases h
theorem vitrineSeal : Statement (.vitrineSeal) := fun _ _ h => by cases h
theorem vitrinePrepare : Statement (.vitrinePrepare) := fun _ _ h => by cases h
theorem vitrineStartSeal : Statement (.vitrineStartSeal) := fun _ _ h => by cases h
theorem egoUpdate : Statement (.egoUpdate) := fun _ _ h => by cases h
theorem egoHistSelect (src : Source) (age : BitVec 9) : Statement (.egoHistSelect src age) := fun _ _ h => by cases h
theorem arcWindowRead (src : Source) (place : Access) (ecc : EccView) : Statement (.arcWindowRead src place ecc) := fun _ _ h => by cases h
theorem arcWindowWrite (src : Source) (off : Nat) : Statement (.arcWindowWrite src off) := fun _ _ h => by cases h
theorem eccWarnWrite (src : Source) (value : BitVec 2) : Statement (.eccWarnWrite src value) := fun _ _ h => by cases h
theorem firmwareRepair (sigOk : Bool) : Statement (.firmwareRepair sigOk) := fun _ _ h => by cases h
theorem arcKey (src : Source) (key : Byte) : Statement (.arcKey src key) := fun _ _ h => by cases h
theorem arcSequenceWrite (src : Source) (reg : ArcReg) (value : Word) : Statement (.arcSequenceWrite src reg value) := fun _ _ h => by cases h
theorem arcKeyTimeout : Statement (.arcKeyTimeout) := fun _ _ h => by cases h
theorem arcSeqTimeout : Statement (.arcSeqTimeout) := fun _ _ h => by cases h
theorem readId (src : Source) (last : Word) : Statement (.readId src last) := fun _ _ h => by cases h
theorem programWord (src : Source) (last : Word) : Statement (.programWord src last) := fun _ _ h => by cases h
theorem programEnd : Statement (.programEnd) := fun _ _ h => by cases h
theorem eraseSector (src : Source) (last : Word) : Statement (.eraseSector src last) := fun _ _ h => by cases h
theorem eraseParam (src : Source) (last : Word) : Statement (.eraseParam src last) := fun _ _ h => by cases h
theorem eraseEnd : Statement (.eraseEnd) := fun _ _ h => by cases h
theorem suspend (src : Source) (last : Word) : Statement (.suspend src last) := fun _ _ h => by cases h
theorem suspendEffect : Statement (.suspendEffect) := fun _ _ h => by cases h
theorem resume (src : Source) (last : Word) : Statement (.resume src last) := fun _ _ h => by cases h
theorem readCounter (src : Source) (last : Word) : Statement (.readCounter src last) := fun _ _ h => by cases h
theorem setWp (src : Source) (last : Word) : Statement (.setWp src last) := fun _ _ h => by cases h
theorem lockWp (src : Source) (last : Word) : Statement (.lockWp src last) := fun _ _ h => by cases h
theorem swapBoot (src : Source) (last : Word) : Statement (.swapBoot src last) := fun _ _ h => by cases h
theorem swapBootEnd : Statement (.swapBootEnd) := fun _ _ h => by cases h
theorem blankCheck (src : Source) (last : Word) : Statement (.blankCheck src last) := fun _ _ h => by cases h
theorem blankCheckEnd : Statement (.blankCheckEnd) := fun _ _ h => by cases h
theorem clearStatus (src : Source) (last : Word) : Statement (.clearStatus src last) := fun _ _ h => by cases h
theorem incompleteReerase : Statement (.incompleteReerase) := fun _ _ h => by cases h
theorem cardPresLoss : Statement (.cardPresLoss) := fun _ _ h => by cases h
theorem removalSeal : Statement (.removalSeal) := fun _ _ h => by cases h
theorem cardLinkUp : Statement (.cardLinkUp) := fun _ _ h => by cases h
theorem cardLinkDown : Statement (.cardLinkDown) := fun _ _ h => by cases h
theorem cardRequest (frame : CardFrame) : Statement (.cardRequest frame) := fun _ _ h => by cases h
theorem cardBadFrame (kind : BadFrame) (cmd tag : Byte) (symErrs : Nat) : Statement (.cardBadFrame kind cmd tag symErrs) := fun _ _ h => by cases h
theorem ident : Statement (.ident) := fun _ _ h => by cases h
theorem status : Statement (.status) := fun _ _ h => by cases h
theorem readReg : Statement (.readReg) := fun _ _ h => by cases h
theorem writeReg : Statement (.writeReg) := fun _ _ h => by cases h
theorem readBlock (ecc : EccView) : Statement (.readBlock ecc) := fun _ _ h => by cases h
theorem writeBlock : Statement (.writeBlock) := fun _ _ h => by cases h
theorem gridRead : Statement (.gridRead) := fun _ _ h => by cases h
theorem mailboxPut : Statement (.mailboxPut) := fun _ _ h => by cases h
theorem mailboxGet : Statement (.mailboxGet) := fun _ _ h => by cases h
theorem ejectRequest : Statement (.ejectRequest) := fun _ _ h => by cases h
theorem ejectReady : Statement (.ejectReady) := fun _ _ h => by cases h
theorem abort (tag target : Byte) : Statement (.abort tag target) := fun _ _ h => by cases h
theorem periodBoundary : Statement (.periodBoundary) := fun _ _ h => by cases h
theorem backstop : Statement (.backstop) := fun _ _ h => by cases h
theorem checkpoint : Statement (.checkpoint) := fun _ _ h => by cases h
theorem appendBound (src : Source) : Statement (.appendBound src) := fun _ _ h => by cases h
theorem fabricLinkUp (port : Nat) (partner : LinkPartner) : Statement (.fabricLinkUp port partner) := fun _ _ h => by cases h
theorem fabricLinkDown (port : Nat) : Statement (.fabricLinkDown port) := fun _ _ h => by cases h
theorem helloTimeout (port : Nat) : Statement (.helloTimeout port) := fun _ _ h => by cases h
theorem linkAck (port : Nat) (ack : LinkAck) : Statement (.linkAck port ack) := fun _ _ h => by cases h
theorem linkNak (port : Nat) (missing : LinkAck) : Statement (.linkNak port missing) := fun _ _ h => by cases h
theorem helloSend : Statement (.helloSend) := fun _ _ h => by cases h
theorem hello (port : Nat) (hello : MsgHdr × Hello) : Statement (.hello port hello) := fun _ _ h => by cases h
theorem lsaRefresh : Statement (.lsaRefresh) := fun _ _ h => by cases h
theorem lsa (port : Nat) (hdr : MsgHdr) (lsa : Lsa) : Statement (.lsa port hdr lsa) := fun _ _ h => by cases h
theorem lsaExpiry : Statement (.lsaExpiry) := fun _ _ h => by cases h
theorem election : Statement (.election) := fun _ _ h => by cases h
theorem addrAssign (port : Nat) (hdr : MsgHdr) (serial : BitVec 64) (addr : BitVec 12) : Statement (.addrAssign port hdr serial addr) := fun _ _ h => by cases h
theorem role (port : Nat) (hdr : MsgHdr) (mgr stby : BitVec 12) (devices : BitVec 16) (epoch : BitVec 64) : Statement (.role port hdr mgr stby devices epoch) := fun _ _ h => by cases h
theorem tickSend : Statement (.tickSend) := fun _ _ h => by cases h
theorem tick (port : Nat) (hdr : MsgHdr) (tick : TickMsg) : Statement (.tick port hdr tick) := fun _ _ h => by cases h
theorem tickMiss : Statement (.tickMiss) := fun _ _ h => by cases h
theorem delayMeasure (port : Nat) : Statement (.delayMeasure port) := fun _ _ h => by cases h
theorem delayReq (port : Nat) (hdr : MsgHdr) (t1 : BitVec 64) : Statement (.delayReq port hdr t1) := fun _ _ h => by cases h
theorem delayResp (port : Nat) (hdr : MsgHdr) (t1 t2 t3 : BitVec 64) : Statement (.delayResp port hdr t1 t2 t3) := fun _ _ h => by cases h
theorem budget (port : Nat) (hdr : MsgHdr) (applyIndex : BitVec 64) (budget classFloor : BitVec 16) : Statement (.budget port hdr applyIndex budget classFloor) := fun _ _ h => by cases h
theorem trigger (port : Nat) (hdr : MsgHdr) (originTick : BitVec 64) (cause : Byte) : Statement (.trigger port hdr originTick cause) := fun _ _ h => by cases h
theorem safe (port : Nat) (hdr : MsgHdr) (tickIndex : BitVec 64) (cause : Byte) : Statement (.safe port hdr tickIndex cause) := fun _ _ h => by cases h
theorem data (port : Nat) (hdr : MsgHdr) (seg : DataSeg) : Statement (.data port hdr seg) := fun _ _ h => by cases h
theorem reply (port : Nat) (hdr : MsgHdr) (reply : ReplyMsg) : Statement (.reply port hdr reply) := fun _ _ h => by cases h
theorem joinReq (port : Nat) (hdr : MsgHdr) (join : JoinReq) : Statement (.joinReq port hdr join) := fun _ _ h => by cases h
theorem joinAck (port : Nat) (hdr : MsgHdr) (ack : JoinAck) : Statement (.joinAck port hdr ack) := fun _ _ h => by cases h
theorem report (port : Nat) (hdr : MsgHdr) (report : ReportMsg) : Statement (.report port hdr report) := fun _ _ h => by cases h
theorem verdict (port : Nat) (hdr : MsgHdr) (cause action : Byte) (epoch : BitVec 64) : Statement (.verdict port hdr cause action epoch) := fun _ _ h => by cases h
theorem mgrClaimSend : Statement (.mgrClaimSend) := fun _ _ h => by cases h
theorem mgrClaim (port : Nat) (hdr : MsgHdr) (claim : Claim) : Statement (.mgrClaim port hdr claim) := fun _ _ h => by cases h
theorem memberSelect (src : Source) (value : BitVec 10) : Statement (.memberSelect src value) := fun _ _ h => by cases h
theorem routeSelect (src : Source) (value : BitVec 12) : Statement (.routeSelect src value) := fun _ _ h => by cases h
theorem arbiterWindow (requests : List Nat) : Statement (.arbiterWindow requests) := fun _ _ h => by cases h
theorem pwrAlert : Statement (.pwrAlert) := fun _ _ h => by cases h
theorem pwrAlertRelease : Statement (.pwrAlertRelease) := fun _ _ h => by cases h
theorem budgetWrite (src : Source) (value : BitVec 16) : Statement (.budgetWrite src value) := fun _ _ h => by cases h
theorem fabBudgetWrite (src : Source) (value : BitVec 16) : Statement (.fabBudgetWrite src value) := fun _ _ h => by cases h
theorem lossOfLock (clock : ClockFault) : Statement (.lossOfLock clock) := fun _ _ h => by cases h
theorem detectorReport (patterns : List DetPattern) : Statement (.detectorReport patterns) := fun _ _ h => by cases h
theorem faultClear (src : Source) (det : Byte) : Statement (.faultClear src det) := fun _ _ h => by cases h
theorem faultClearAll (src : Source) : Statement (.faultClearAll src) := fun _ _ h => by cases h
theorem recSelect (src : Source) (index : BitVec 6) : Statement (.recSelect src index) := fun _ _ h => by cases h
theorem heartbeatToggle : Statement (.heartbeatToggle) := fun _ _ h => by cases h
theorem extFltInput (p n : Bool) : Statement (.extFltInput p n) := fun _ _ h => by cases h
theorem extHbTimeout : Statement (.extHbTimeout) := fun _ _ h => by cases h
theorem sliceStart (requests : List Nat) (condOk : Bool) : Statement (.sliceStart requests condOk) := fun _ _ h => by cases h
theorem sliceSkip (requests : List Nat) (condFailed : Bool) : Statement (.sliceSkip requests condFailed) := fun _ _ h => by cases h
theorem sliceTestEnd (result : SliceOutcome) : Statement (.sliceTestEnd result) := fun _ _ h => by cases h
theorem sliceLatestEnd : Statement (.sliceLatestEnd) := fun _ _ h => by cases h
theorem sliceRestoreEnd : Statement (.sliceRestoreEnd) := fun _ _ h => by cases h
theorem unmappedRead (src : Source) (place : Access) : Statement (.unmappedRead src place) := fun _ _ h => by cases h
theorem gridWindowWrite (src : Source) (place : Access) (value : Word) : Statement (.gridWindowWrite src place value) := fun _ _ h => by cases h
theorem msixUnmask (what : Unmask) : Statement (.msixUnmask what) := fun _ _ h => by cases h
theorem ringEnable (src : Source) (chan : Channel) : Statement (.ringEnable src chan) := fun _ _ h => by cases h
theorem ringDisable (src : Source) (chan : Channel) : Statement (.ringDisable src chan) := fun _ _ h => by cases h
theorem ringHeadWrite (src : Source) (chan : Channel) (value : BitVec 10) : Statement (.ringHeadWrite src chan value) := fun _ _ h => by cases h
theorem ringWriteback (chan : Channel) : Statement (.ringWriteback chan) := fun _ _ h => by cases h
theorem pcieReset (kind : PcieReset) : Statement (.pcieReset kind) := fun _ _ h => by cases h
theorem mbxPut (src : Source) : Statement (.mbxPut src) := fun _ _ h => by cases h
theorem mbxGet (src : Source) : Statement (.mbxGet src) := fun _ _ h => by cases h
theorem mailboxTake : Statement (.mailboxTake) := fun _ _ h => by cases h
theorem stageProgram : Statement (.stageProgram) := fun _ _ h => by cases h
theorem stageErase : Statement (.stageErase) := fun _ _ h => by cases h
theorem incList : Statement (.incList) := fun _ _ h => by cases h
theorem incExport (ecc : EccView) : Statement (.incExport ecc) := fun _ _ h => by cases h
theorem incAck : Statement (.incAck) := fun _ _ h => by cases h
theorem ldgExport : Statement (.ldgExport) := fun _ _ h => by cases h
theorem ldgAck : Statement (.ldgAck) := fun _ _ h => by cases h
theorem floorRaise : Statement (.floorRaise) := fun _ _ h => by cases h
theorem extest : Statement (.extest) := fun _ _ h => by cases h
theorem idcode : Statement (.idcode) := fun _ _ h => by cases h
theorem samplePreload (bits : List Bool) : Statement (.samplePreload bits) := fun _ _ h => by cases h
theorem clamp : Statement (.clamp) := fun _ _ h => by cases h
theorem highz : Statement (.highz) := fun _ _ h => by cases h
theorem intScan : Statement (.intScan) := fun _ _ h => by cases h
theorem bypass : Statement (.bypass) := fun _ _ h => by cases h
theorem pinResetRelease (mgrSel : Bool) (fabAddr : BitVec 10) : Statement (.pinResetRelease mgrSel fabAddr) := fun _ _ h => by cases h
theorem pcieLinkUp (speed width : Nat) : Statement (.pcieLinkUp speed width) := fun _ _ h => by cases h
theorem configurationRequest (req : CfgReq) : Statement (.configurationRequest req) := fun _ _ h => by cases h
theorem timeclkPresent (present : Bool) : Statement (.timeclkPresent present) := fun _ _ h => by cases h
theorem peerDelayMeasurement (mac : Nat) : Statement (.peerDelayMeasurement mac) := fun _ _ h => by cases h
theorem genericShortPacket (rx : Nat) (packet : ShortPacket) : Statement (.genericShortPacket rx packet) := fun _ _ h => by cases h
theorem dupAddrRecovery : Statement (.dupAddrRecovery) := fun _ _ h => by cases h

end Sys2Proof.Laws.NoBits
end

