-- ==== Sys2Proof/Tests/Slice0.lean ====
section
/-! SUPPORT. Tests: ill-formed commands that WellFormed refuses, the conversions of R129, a few steps, and for every clause of the
statements that has premises a state and operands that meet them all. -/

namespace Sys2Proof.Tests
open Sys2Proof Sys2Proof.Machine

/-! ## WellFormed -/

theorem test_wf_halt : Instr.wf (.halt .pcie) = true := by decide
theorem test_wf_register : Instr.wf (.registerWrite .pcie 0x400000 0 true) = false := by decide
theorem test_wf_window : Instr.wf (.gridWindowWrite .card ⟨0x2000000, true⟩ 0) = false := by decide
theorem test_wf_archive_window : Instr.wf (.arcWindowRead .pcie ⟨0x2000000, true⟩ []) = false := by decide
theorem test_wf_ecc : Instr.wf (.loadDone [(33, 1)]) = false := by decide
theorem test_wf_counter_block : Instr.wf (.cntClr .pcie (.cam 8)) = false := by decide
theorem test_wf_archive_data : Instr.wf (.arcSequenceWrite .pcie (.data 8) 0) = false := by decide
theorem test_wf_stream : Instr.wf (.streamLimit 32) = false := by decide
theorem test_wf_route : Instr.wf (.frameAccept .a 6) = false := by decide
theorem test_wf_mac : Instr.wf (.ethLinkChange 4 .up) = false := by decide
theorem test_wf_core : Instr.wf (.taskStart 48) = false := by decide
theorem test_wf_kernel : Instr.wf (.taskEnd 0 1 [.store 4 0 []]) = false := by decide
theorem test_wf_lookup : Instr.wf (.taskEnd 0 1 [.lut (.index 0) [0] { out := 0, elem := 0 }]) = false := by decide
theorem test_wf_post : Instr.wf (.taskEnd 0 1 [.post []]) = false := by decide
theorem test_wf_product : Instr.wf (.taskEnd 0 1 [.mac false 0 [(128, 1)] 0 { out := 0, elem := 0 }]) = false := by decide
theorem test_wf_multiplier : Instr.wf (.taskEnd 0 1 [.mac true 0 [] 0x200000 { out := 0, elem := 0 }]) = false := by decide
theorem test_wf_emit : Instr.wf (.taskEnd 0 1 [.emit 8 0 1 (List.replicate 32 0)]) = false := by decide
theorem test_wf_shift : Instr.wf (.taskEnd 0 1 [.vec 0 [{ op := .add, b := 1, shift := 64 }] { out := 0, elem := 0 }]) = false := by decide
theorem test_wf_card_length : Instr.wf (.cardRequest { cmd := 1, tag := 0, length := 65536, address := 0, payload := [], crc := 0 }) = false := by decide
theorem test_wf_queue : Instr.wf (.queueTailWrite .pcie 256 0) = false := by decide
theorem test_wf_channel : Instr.wf (.csiFrameEnd 0 4 .clean) = false := by decide
theorem test_wf_data_type : Instr.wf (.csiLine 0 0 64 .clean true []) = false := by decide
theorem test_wf_receiver : Instr.wf (.csiSotError 8) = false := by decide
theorem test_wf_standard_id : Instr.wf (.canFrameRx 0 2048 false ⟨false, false⟩ []) = false := by decide
theorem test_wf_can : Instr.wf (.canBusoffRecovery 2) = false := by decide
theorem test_wf_spi : Instr.wf (.drdyEdge 2) = false := by decide
theorem test_wf_pin : Instr.wf (.gpioEdge 16 true) = false := by decide
theorem test_wf_port : Instr.wf (.fabricLinkDown 4) = false := by decide
theorem test_wf_neighbours : Instr.wf (.lsa 0 default { (default : Lsa) with nbrs := [] }) = false := by decide
theorem test_wf_segment :
    Instr.wf (.data 0 default { queue := 0, seg := 0, nseg := 1, total := 0, entry := [], data := [] }) = false := by decide
theorem test_wf_type : Instr.wf (.safe 0 { (default : MsgHdr) with rx := { odd := some 0x22 } } 0 0) = false := by decide
theorem test_wf_slice : Instr.wf (.sliceSkip [62] false) = false := by decide
theorem test_wf_consumer : Instr.wf (.arbiterWindow [62]) = false := by decide
theorem test_wf_pll : Instr.wf (.lossOfLock (.lockLost 6)) = false := by decide
theorem test_wf_detector : Instr.wf (.detectorReport [{ det := 92, p := false, n := true, detail := 0 }]) = false := by decide
theorem test_wf_vector : Instr.wf (.msixUnmask (.vector 64)) = false := by decide
theorem test_wf_link_width : Instr.wf (.pcieLinkUp 4 3) = false := by decide
theorem test_wf_config : Instr.wf (.configurationRequest (.read 1024)) = false := by decide

/-! ## The conversions of R129 -/

/-- A float to fixed configuration of 16 or 32 bits. -/
def tFix (single : Bool) (code : Nat) (frac : Int) (zero : Bool := false) : CvtCfg :=
  { toFloat := false, single := single, widthCode := code, signed := true, towardZero := zero, ovfMax := false, tinyZero := false, frac := frac }

/-- A fixed to float configuration of 32 bits. -/
def tFlo (single : Bool) (frac : Int) (max tiny : Bool := false) : CvtCfg :=
  { toFloat := true, single := single, widthCode := 2, signed := true, towardZero := false, ovfMax := max, tinyZero := tiny, frac := frac }

/-- Every row of a table holds, where the result is compared in its low `n` bits. -/
def tRows (c : CvtCfg) (n : Nat) (rows : List (Word × Nat × Nat)) : Bool :=
  rows.all (fun r => decide ((convert c r.1).1.toNat % 2 ^ n = r.2.1) && decide ((convert c r.1).2.toNat = r.2.2))

theorem test_half_to_q7_8 : tRows (tFix false 1 8) 16 [(0, 0, 0), (0x8000, 0, 0), (1, 0, 13), (0x8001, 0, 13), (0x0400, 0, 5), (0x8400, 0, 5),
    (0x7BFF, 0x7FFF, 3), (0xFBFF, 0x8000, 3), (0x7C00, 0x7FFF, 3), (0xFC00, 0x8000, 3), (0x7E00, 0, 16)] = true := by decide +kernel

theorem test_half_to_q7_24 : tRows (tFix false 2 24) 32 [(0, 0, 0), (1, 1, 8), (0x8001, 0xFFFFFFFF, 8), (0x0400, 0x400, 0), (0x8400, 0xFFFFFC00, 0),
    (0x7BFF, 0x7FFFFFFF, 3), (0xFC00, 0x80000000, 3), (0x7E00, 0, 16)] = true := by decide +kernel

theorem test_single_to_q15_16 : tRows (tFix true 2 16) 32 [(1, 0, 13), (0x80000001, 0, 13), (0x00800000, 0, 5), (0x7F7FFFFF, 0x7FFFFFFF, 3),
    (0xFF800000, 0x80000000, 3), (0x7FC00000, 0, 16)] = true := by decide +kernel

theorem test_fixed_to_half : tRows (tFlo false 24) 16 [(0, 0, 0), (1, 1, 0), (0xFFFFFFFF, 0x8001, 0), (0x400, 0x0400, 0)] = true ∧
    tRows (tFlo false 24 false true) 16 [(1, 0, 5), (0xFFFFFFFF, 0x8000, 5), (0x400, 0x0400, 0)] = true ∧
    tRows (tFlo false 31) 16 [(1, 0, 5)] = true ∧
    tRows (tFlo false 0) 16 [(0xFFE0, 0x7BFF, 0), (0xFFEF, 0x7BFF, 1), (0xFFF0, 0x7C00, 3), (0x7FFFFFFF, 0x7C00, 3), (0x80000000, 0xFC00, 3)] = true ∧
    tRows (tFlo false 0 true) 16 [(0xFFF0, 0x7BFF, 3), (0x80000000, 0xFBFF, 3)] = true := by decide +kernel

theorem test_fixed_to_single : tRows (tFlo true 24) 32 [(1, 0x33800000, 0), (0xFFFFFFFF, 0xB3800000, 0), (0x400, 0x38800000, 0)] = true ∧
    tRows (tFlo true 31) 32 [(1, 0x30000000, 0)] = true ∧
    tRows (tFlo true 0) 32 [(0xFFE0, 0x477FE000, 0), (0xFFF0, 0x477FF000, 0), (0x7FFFFFFF, 0x4F000000, 1), (0x80000000, 0xCF000000, 0)] = true := by
  decide +kernel

/-- The worked case of 06_fixed_point.md: six elements through context 3. -/
theorem test_worked_case : tRows (tFix false 1 8) 16 [(0x3C04, 0x0101, 0), (0x1A00, 1, 1), (0x1800, 0, 5), (0x1E00, 2, 1), (0x5CB0, 0x7FFF, 3),
    (0x7E00, 0, 16)] = true := by decide +kernel

/-! ## A solve -/

/-- A format of 32 bits with 16 of fraction. -/
def tQ : QFmt := { width := 32, signed := true, frac := 16 }
def tSolve : SolveEntry := { op := 3, n := 3, spd := true, pivotMin := 0x1000, regAdd := 0x1000 }
def tFmts : SolveFmts := { mat := tQ, fac := tQ, rhs := tQ, x := tQ }

/-- L and D of the matrix 4, 2, 2 / 2, 1, 1 / 2, 1, 3, whose second pivot is 0 and takes 0.125 (R135), by hand, and the pivots before their
replacement. -/
theorem test_factor :
    (factorise tSolve tFmts false {} (denseAt 3 (fun o => tQ.num ([4, 0, 0, 2, 1, 0, 2, 1, 3].getD o 0 * 65536)))).1 =
      [[0x40000, 0, 0], [0x8000, 0x2000, 0], [0x8000, 0, 0x20000]] := by decide +kernel

/-- The right-hand side 2, 1, 3 gives 0, 0, 1. -/
theorem test_substitute : (substitute 3 tFmts false {} [[0x40000, 0, 0], [0x8000, 0x2000, 0], [0x8000, 0, 0x20000]]
    (fun i => tQ.num ([2, 1, 3].getD i 0 * 65536))).1 = [0, 0, 65536] := by decide +kernel

/-! ## Bytes and digests -/

/-- The check value of CRC-32 (log 11). -/
theorem test_crc32 : crc32 [0x31, 0x32, 0x33, 0x34, 0x35, 0x36, 0x37, 0x38, 0x39] = 0xCBF43926 := by decide +kernel

/-- The example of FIPS 180-4 for the message of three bytes (log 11): the digest's ends. -/
theorem test_sha256 : (sha256 [0x61, 0x62, 0x63]).take 4 = [0xBA, 0x78, 0x16, 0xBF] ∧
    (sha256 [0x61, 0x62, 0x63]).drop 28 = [0xF2, 0x00, 0x15, 0xAD] := by decide +kernel

/-! ## Steps -/

/-- An empty queue counts on (log 2), and a command leaves the queue. -/
theorem test_idle_step : (match step State.reset with | .next t => decide (t.tim.mono = 4) && t.pending.isEmpty | _ => false) = true := by
  decide +kernel

theorem test_front_step : (match step { State.reset with pending := [.idcode, .bypass] } with
    | .next t => decide (t.pins.ir = .idcode) && decide (t.pending = [.bypass]) | _ => false) = true := by decide +kernel

/-- The premises of StepRunsFrontCommand, and a step that answers a next state, as the invariants ask. -/
theorem witness_StepRunsFrontCommand_1 : ∃ c cs, ∃ s : State, s.pending = c :: cs := ⟨.idcode, [], { State.reset with pending := [.idcode] }, rfl⟩

theorem witness_StepRunsFrontCommand_2 : ∃ s : State, s.pending = [] ∧ Settled s ∧ QuietClock s := ⟨State.reset, rfl, ⟨rfl, rfl⟩, rfl, rfl, rfl⟩

theorem witness_MemoryStaysCanonical : ∃ s t, MemoryOk s ∧ step s = .next t := ⟨State.reset, _, rfl, rfl⟩

theorem witness_QueueOnlyShrinks : ∃ s t, step s = .next t := ⟨State.reset, _, rfl⟩

theorem witness_FusesFixedFloorRises : ∃ s t, step s = .next t := ⟨State.reset, _, rfl⟩

end Sys2Proof.Tests

namespace Sys2Proof.Tests
open Sys2Proof Sys2Proof.Machine

/-- A core of the default table has the class counters of its last boundary. -/
theorem satLevel_default (s : State) (h : s.sch.cores = Vector.replicate 48 {}) (n : Nat) : (s.core n).satCls = (s.core n).satBase := by
  unfold State.core tget
  rw [h]
  by_cases k : n < 48
  · simp [Vector.getD, k]
  · simp [Vector.getD, k]; rfl

/-- A tick of 20 ms. -/
def wTickSec : TickSec :=
  { period := 20000, gather := 5000, emit := 15000, quiet := 18000, ovrLimit := 3, recover := 16, inTol := 20, srcAllow := 7, armTimeout := 100 }

/-- An image with that tick. -/
def wIm : Image := { tick := wTickSec }

/-- Tick 5, which began at 1 s, in its Quiet. -/
def wTck : Tck :=
  { ticked := true, index := 5, bound := 1000000000, boundMono := 1000000000, prevBound := 980000000, gMono := 1005000000,
    eMono := 1015000000, qMono := 1018000000, endMono := 1020000000 }

/-- A device in a state after ARMED, 19 ms into the tick. -/
def wSt (m : Mode) (im : Image := wIm) : State :=
  { gctl := { mode := m, everArmed := true }, img := { run := some im }, tim := { mono := 1019000000, dev := 1019000000 }, tck := wTck }


end Sys2Proof.Tests

/-! ## Witnesses -/

namespace Sys2Proof.Tests.P01
open Sys2Proof Sys2Proof.Machine Sys2Proof.Tests

section
set_option Elab.async false
def wFree : TickSec := { wTickSec with freeRunOk := true }
def wSw (d : BitVec 2) : State := { wSt .run with tck := { wTck with switch := some { dest := d, endMono := 1020000000 } } }
def wEdge (m : Nat) : State := { wSt .run with tck := { wTck with active := 1 }, tim := { mono := m, dev := m } }
def wLead : State := { wSt .run { wIm with fabric := some {} } with tck := { wTck with active := 1, gDone := true, eDone := true, qDone := true }, tim := { mono := 1019700000, dev := 1019700000 }, fab := { role := roleManager } }
def wCommit : State :=
  { wSt .run with img := { run := some wIm, stage := 4, cand := some { wIm with arcArea := { wp0 := 5, wp1 := 6 } }, stgTwin := .b } }
def wSrc (r : BitVec 2) (allow : Nat) : State :=
  { wSt .safe { tick := { wTickSec with srcAllow := allow } } with tck := { wTck with src := r } }

theorem witness_InternalBoundaries_1 : ∃ h, ∃ s : State, (BoundaryReady s) ∧ (s.tck.active = 0) ∧ (h < 125) :=
  ⟨25, wSt .run, ⟨by decide +kernel, ⟨rfl, rfl⟩, ⟨rfl, rfl, rfl⟩, rfl, rfl, by decide +kernel, rfl, fun n => satLevel_default _ rfl n⟩, by decide +kernel⟩

theorem witness_InternalBoundaries_2 : ∃ v, ∃ s : State, (BoundaryReady s) ∧ (s.tck.active = 0) ∧ (s.pwr.staged = some v) ∧ (s.fab.budgets = []) :=
  ⟨300, { wSt .armed with pwr := { staged := some 300 } }, ⟨by decide +kernel, ⟨rfl, rfl⟩, ⟨rfl, rfl, rfl⟩, rfl, rfl, by decide +kernel, rfl, fun n => satLevel_default _ rfl n⟩, by decide +kernel⟩

theorem witness_InternalBoundaries_3 : ∃ s : State, (BoundaryReady s) ∧ (s.tck.active = 0) ∧ (s.mode = .armed) ∧ (s.runReady = true) ∧ (s.anyCause = false) ∧ (s.degWardenCause = false) :=
  ⟨{ wSt .armed with tim := { mono := 1019000000, dev := 1019000000, locked := true } }, ⟨by decide +kernel, ⟨rfl, rfl⟩, ⟨rfl, rfl, rfl⟩, rfl, rfl, by decide +kernel, rfl, fun n => satLevel_default _ rfl n⟩, by decide +kernel⟩

theorem witness_InternalBoundaries_4 : ∃ s : State, (BoundaryReady s) ∧ (s.tck.active = 0) ∧ (s.mode = .degraded) ∧ (s.gctl.degOvr = false) ∧ (s.gctl.degFlywheel = false) ∧ (s.gctl.degTime = false) ∧ (s.gctl.lockLost = false) ∧ (s.gctl.degFabric = false) ∧ (s.degWardenCause = false) :=
  ⟨wSt .degraded, ⟨by decide +kernel, ⟨rfl, rfl⟩, ⟨rfl, rfl, rfl⟩, rfl, rfl, by decide +kernel, rfl, fun n => satLevel_default _ rfl n⟩, by decide +kernel⟩

theorem witness_InternalBoundaries_5 : ∃ s : State, (BoundaryReady s) ∧ (s.tck.active = 0) ∧ (s.mode = .run) ∧ (s.gctl.lockLost = true) :=
  ⟨{ wSt .run with gctl := { mode := .run, everArmed := true, lockLost := true } }, ⟨by decide +kernel, ⟨rfl, rfl⟩, ⟨rfl, rfl, rfl⟩, rfl, rfl, by decide +kernel, rfl, fun n => satLevel_default _ rfl n⟩, by decide +kernel⟩

theorem witness_InternalBoundaries_6 : ∃ s : State, (BoundaryReady s) ∧ (s.tck.active = 0) ∧ (s.mode = .quarantine) ∧ (s.gctl.admitted = true) :=
  ⟨{ wSt .quarantine with gctl := { mode := .quarantine, everArmed := true, admitted := true }, fab := { cause := 3 } }, ⟨by decide +kernel, ⟨rfl, rfl⟩, ⟨rfl, rfl, rfl⟩, rfl, rfl, by decide +kernel, rfl, fun n => satLevel_default _ rfl n⟩, by decide +kernel⟩

theorem witness_InternalBoundaries_7 : ∃ s : State, (Settled s) ∧ (QuietClock s) ∧ (s.mode = .armed) ∧ (s.im.tick.freeRunOk = true) ∧ (s.tim.locked = false) ∧ (s.gctl.armTimedOut = false) :=
  ⟨wSt .armed { tick := wFree }, ⟨rfl, rfl⟩, ⟨rfl, rfl, rfl⟩, by decide +kernel⟩

theorem witness_CommitAtBoundary_1 : ∃ im, ∃ s : State, (Settled s) ∧ (QuietClock s) ∧ ((∀ n, (s.core n).satCls = (s.core n).satBase)) ∧ (s.boundaryFree = true) ∧ (s.tck.switch = none) ∧ (s.tck.mgrSrc = none) ∧ (s.tck.active = 0) ∧ (s.fab.officeDue = false) ∧ (s.img.stage = 4) ∧ (s.img.cand = some im) ∧ (s.img.persist = false) ∧ (s.im.ledger = none) ∧ (im.ledger = none) ∧ (s.img.commitMono < boundInstant (nextInternal s) s) :=
  ⟨{ wIm with arcArea := { wp0 := 5, wp1 := 6 } }, wCommit, ⟨rfl, rfl⟩, ⟨rfl, rfl, rfl⟩, fun n => satLevel_default _ rfl n, by decide +kernel⟩

theorem witness_SourceSwitches_1 : ∃ src, ∃ v, ∃ s : State, (Settled s) ∧ (s.hears src = true) ∧ (s.mode.fromArmed = true) ∧ (v ≠ s.tck.src) ∧ (v ≠ 3) ∧ (s.im.tick.srcAllow.testBit v.toNat = true) ∧ ((v = 2 → s.isManager = false)) :=
  ⟨.pcie, 1, wSrc 0 2, ⟨rfl, rfl⟩, by decide +kernel⟩

theorem witness_SourceSwitches_2 : ∃ src, ∃ v, ∃ s : State, (Settled s) ∧ (s.hears src = true) ∧ (s.mode.fromArmed = true) ∧ (v ≠ s.tck.src) ∧ (v ≠ 3) ∧ (s.im.tick.srcAllow.testBit v.toNat = false) :=
  ⟨.card, 1, wSrc 0 5, ⟨rfl, rfl⟩, by decide +kernel⟩

theorem witness_SourceSwitches_3 : ∃ src, ∃ s : State, (Settled s) ∧ (s.hears src = true) ∧ (s.mode.fromArmed = true) ∧ (s.tck.src ≠ 3) :=
  ⟨.pcie, wSrc 0 7, ⟨rfl, rfl⟩, by decide +kernel⟩

theorem witness_SourceSwitches_4 : ∃ w, ∃ s : State, (Settled s) ∧ (QuietClock s) ∧ ((∀ n, (s.core n).satCls = (s.core n).satBase)) ∧ (s.boundaryFree = true) ∧ (s.tck.switch = some w) ∧ (w.dest = 0) ∧ (s.tck.mgrSrc = none) ∧ (s.tck.req = none) ∧ (s.tck.fallbackDue = false) ∧ (s.img.stage ≠ 4) ∧ (s.fab.officeDue = false) :=
  ⟨{ dest := 0, endMono := 1020000000 }, wSw 0, ⟨rfl, rfl⟩, ⟨rfl, rfl, rfl⟩, fun n => satLevel_default _ rfl n, by decide +kernel⟩

theorem witness_SourceSwitches_5 : ∃ w, ∃ s : State, (Settled s) ∧ (QuietClock s) ∧ (s.boundaryFree = true) ∧ (s.tck.switch = some w) ∧ (w.dest ≠ 0) ∧ (s.tck.lead = none) ∧ (s.tck.active = 0) :=
  ⟨{ dest := 1, endMono := 1020000000 }, wSw 1, ⟨rfl, rfl⟩, ⟨rfl, rfl, rfl⟩, by decide +kernel⟩

theorem witness_TickInEdges_1 : ∃ s : State, (Settled s) ∧ (s.mode.ticks = true) ∧ (s.tck.switch = none) ∧ (s.tck.active = 1) ∧ (s.tck.lead = none) ∧ (s.tck.ticked = true) ∧ (pinNow s < judgeFrom s + s.tolEarly) :=
  ⟨wEdge 1019599999, ⟨rfl, rfl⟩, by decide +kernel⟩

theorem witness_TickInEdges_2 : ∃ s : State, (BoundaryReady s) ∧ (s.tck.active = 1) ∧ (s.tck.lead = none) ∧ (s.isManager = false) ∧ (judgeFrom s + s.tolEarly ≤ pinNow s) ∧ (pinNow s ≤ judgeFrom s + s.tolLate) :=
  ⟨wEdge 1019600000, ⟨by decide +kernel, ⟨rfl, rfl⟩, ⟨rfl, rfl, rfl⟩, rfl, rfl, by decide +kernel, rfl, fun n => satLevel_default _ rfl n⟩, by decide +kernel⟩

theorem witness_TickInEdges_3 : ∃ s : State, (Settled s) ∧ (s.boundaryFree = true) ∧ (s.tck.switch = none) ∧ (s.tck.active = 1) ∧ (s.tck.lead = none) ∧ (s.isManager = true) ∧ (judgeFrom s + s.tolEarly ≤ pinNow s) ∧ (pinNow s ≤ judgeFrom s + s.tolLate) :=
  ⟨wLead, ⟨rfl, rfl⟩, by decide +kernel⟩

theorem witness_TickInEdges_4 : ∃ s : State, (BoundaryReady s) ∧ (s.tck.active = 1) ∧ (s.tck.lead = none) ∧ (s.isManager = false) :=
  ⟨wEdge 1019000000, ⟨by decide +kernel, ⟨rfl, rfl⟩, ⟨rfl, rfl, rfl⟩, rfl, rfl, by decide +kernel, rfl, fun n => satLevel_default _ rfl n⟩, by decide +kernel⟩

theorem witness_TickInEdges_5 : ∃ s : State, (BoundaryReady s) ∧ (s.tck.active = 1) ∧ (s.tck.lead = none) ∧ (s.isManager = false) ∧ (s.tck.fallbackDue = true) :=
  ⟨{ wSt .run with tck := { wTck with active := 1, fallbackDue := true } }, ⟨by decide +kernel, ⟨rfl, rfl⟩, ⟨rfl, rfl, rfl⟩, rfl, rfl, by decide +kernel, rfl, fun n => satLevel_default _ rfl n⟩, by decide +kernel⟩
end

end Sys2Proof.Tests.P01

/-! ## Witnesses -/

namespace Sys2Proof.Tests.P02
open Sys2Proof Sys2Proof.Machine Sys2Proof.Tests

section
set_option Elab.async false
def wTim (m : Mode) (t : Tim) (x : TimeSec := { discAllow := 5, stepThr := 1000, lockThr := 500, holdLim := 10, ppsWin := 50, slewRate := 100, ppsWidth := 100 }) : State :=
  { wSt m { wIm with time := x } with tim := { t with mono := 1019000000, dev := 1019000000 } }
def wMaint (t : Tim) : State := wTim .maint t

theorem witness_DisciplineAndApplies_1 : ∃ src, ∃ d, ∃ s : State, (Settled s) ∧ (s.timWritable) ∧ (s.hears src = true) ∧ (d ≠ s.tim.disc) ∧ (s.im.time.discAllow.testBit d.toNat = true) :=
  ⟨.pcie, 2, wTim .run {}, ⟨rfl, rfl⟩, by unfold State.timWritable; decide +kernel, by decide +kernel⟩

theorem witness_DisciplineAndApplies_2 : ∃ src, ∃ d, ∃ s : State, (Settled s) ∧ (s.timWritable) ∧ (s.hears src = true) ∧ (d ≠ s.tim.disc) ∧ (s.im.time.discAllow.testBit d.toNat = false) :=
  ⟨.card, 1, wTim .load {}, ⟨rfl, rfl⟩, by unfold State.timWritable; decide +kernel, by decide +kernel⟩

theorem witness_DisciplineAndApplies_3 : ∃ src, ∃ v, ∃ s : State, (Settled s) ∧ (s.timWritable) ∧ (s.hears src = true) ∧ (s.tim.discPend = none) ∧ (s.tim.discAct = 0) ∧ (s.tim.pend = none) ∧ (s.tim.staged = some v) :=
  ⟨.pcie, 5000000007, wTim .load { setSecLo := 5, setNsec := 7 }, ⟨rfl, rfl⟩, by unfold State.timWritable; decide +kernel, by decide +kernel⟩

theorem witness_DisciplineAndApplies_4 : ∃ src, ∃ s : State, (Settled s) ∧ (s.timWritable) ∧ (s.hears src = true) ∧ (s.tim.discPend = none) ∧ (s.tim.discAct = 0) ∧ (s.tim.pend = none) ∧ (s.tim.setOfs.toInt.natAbs ≤ 100000000) :=
  ⟨.card, wTim .safe { setOfs := 100000000 }, ⟨rfl, rfl⟩, by unfold State.timWritable; decide +kernel, by decide +kernel⟩

theorem witness_DisciplineAndApplies_5 : ∃ src, ∃ s : State, (Settled s) ∧ (s.timWritable) ∧ (s.hears src = true) ∧ (s.tim.pend = none) :=
  ⟨.pcie, wTim .run {}, ⟨rfl, rfl⟩, by unfold State.timWritable; decide +kernel, by decide +kernel⟩

theorem witness_PendingApplyStands_1 : ∃ src, ∃ s : State, (Settled s) ∧ (s.timWritable) ∧ (s.hears src = true) ∧ (s.tim.pend.isSome = true) :=
  ⟨.pcie, wTim .maint { pend := some { slew := false, value := 5, rate := 0 } }, ⟨rfl, rfl⟩, by unfold State.timWritable; decide +kernel, by decide +kernel⟩

theorem witness_PendingApplyStands_2 : ∃ src, ∃ s : State, (Settled s) ∧ (s.timWritable) ∧ (s.hears src = true) ∧ (s.tim.pend = none) :=
  ⟨.card, wTim .armed {}, ⟨rfl, rfl⟩, by unfold State.timWritable; decide +kernel, by decide +kernel⟩

theorem witness_ApplyUnderReference_1 : ∃ src, ∃ s : State, (Settled s) ∧ (s.timWritable) ∧ (s.hears src = true) ∧ (s.tim.pend = none) ∧ (s.tim.discPend = none) ∧ (s.tim.discAct = 1 ∨ s.tim.discAct = 3) :=
  ⟨.pcie, wTim .run { discAct := 3 }, ⟨rfl, rfl⟩, by unfold State.timWritable; decide +kernel, by decide +kernel⟩

theorem witness_ApplyUnderReference_2 : ∃ src, ∃ s : State, (Settled s) ∧ (s.timWritable) ∧ (s.hears src = true) ∧ (s.tim.pend = none) ∧ (s.tim.discPend = none) ∧ (s.tim.discAct = 2) :=
  ⟨.pcie, wTim .run { discAct := 2 }, ⟨rfl, rfl⟩, by unfold State.timWritable; decide +kernel, by decide +kernel⟩

theorem witness_ApplyUnderReference_3 : ∃ src, ∃ v, ∃ s : State, (Settled s) ∧ (s.timWritable) ∧ (s.hears src = true) ∧ (s.tim.pend = none) ∧ (s.tim.discPend = none) ∧ (s.tim.discAct = 2) ∧ (s.tim.staged = some v) :=
  ⟨.pcie, 0, wTim .run { discAct := 2 }, ⟨rfl, rfl⟩, by unfold State.timWritable; decide +kernel, by decide +kernel⟩

theorem witness_TimeEffects_1 : ∃ v, ∃ s : State, (Settled s) ∧ (s.tim.discPend = none) ∧ (s.tim.now = []) ∧ (s.tim.pend = some { slew := false, value := Int.ofNat v, rate := 0 }) ∧ (s.tim.fTerm = 0) ∧ (s.tim.pTerm = 0) ∧ (s.tim.slewRest = 0) ∧ (s.tim.frac = 0) ∧ (s.tim.discAct = 0) ∧ (s.ldg.lstate = 0) :=
  ⟨77, wTim .maint { pend := some { slew := false, value := 77, rate := 0 } }, ⟨rfl, rfl⟩, by decide +kernel⟩

theorem witness_TimeEffects_2 : ∃ s : State, (Settled s) ∧ (QuietClock s) ∧ (s.tim.slewRest ≠ 0) ∧ (0 < s.tim.slewPpm) :=
  ⟨wTim .maint { slewRest := 5000, slewPpm := 100 }, ⟨rfl, rfl⟩, ⟨rfl, rfl, rfl⟩, by decide +kernel⟩

theorem witness_TimeEffects_3 : ∃ s : State, (Settled s) ∧ (QuietClock s) ∧ (s.tim.holdover = false) ∧ (s.tim.discAct = 1) :=
  ⟨wTim .maint { discAct := 1, locked := true, pTerm := 5, fTerm := 7 }, ⟨rfl, rfl⟩, ⟨rfl, rfl, rfl⟩, by decide +kernel⟩

theorem witness_TimeEffects_4 : ∃ s : State, (Settled s) ∧ (QuietClock s) ∧ (s.tim.holdover = true) ∧ (s.tim.locked = true) :=
  ⟨wTim .run { discAct := 1, locked := true, holdover := true }, ⟨rfl, rfl⟩, ⟨rfl, rfl, rfl⟩, by decide +kernel⟩

theorem witness_TimeEffects_5 : ∃ s : State, (Settled s) ∧ (s.heedsPps = true) ∧ (s.tim.locked = true) ∧ (s.im.time.ppsWin * 1000 < (fromSecond (stampOf (s.tim.mono - s.filtPps) s)).natAbs) :=
  ⟨wTim .run { discAct := 2, locked := true }, ⟨rfl, rfl⟩, by decide +kernel⟩

theorem witness_TimeEffects_6 : ∃ s : State, (Settled s) ∧ (s.heedsPps = true) ∧ (s.tim.locked = false) ∧ (s.ldg.lstate = 0) :=
  ⟨wTim .run { discAct := 2 }, ⟨rfl, rfl⟩, by decide +kernel⟩

theorem witness_TimeEffects_7 : ∃ s : State, (Settled s) ∧ (QuietClock s) ∧ (s.tim.ppsEn = true) ∧ (s.tim.locked = true) ∧ (s.armedOn = true) ∧ (s.pins.outputsIdle = false) :=
  ⟨wTim .maint { ppsEn := true, locked := true }, ⟨rfl, rfl⟩, ⟨rfl, rfl, rfl⟩, by decide +kernel⟩

theorem witness_TimeEffects_8 : ∃ s : State, (Settled s) ∧ (s.heedsPps = true) :=
  ⟨wTim .run { discAct := 2 }, ⟨rfl, rfl⟩, by decide +kernel⟩
end

end Sys2Proof.Tests.P02

/-! ## Witnesses -/

namespace Sys2Proof.Tests.P03
open Sys2Proof Sys2Proof.Machine Sys2Proof.Tests

section
set_option Elab.async false
def wMode (m : Mode) : State := { gctl := { mode := m }, tim := { mono := 2000000, dev := 2000000 } }
def wProg : State :=
  { wSt .run with arc := { prog := some { owner := .device, code := 0x10, addr := 64, data := [1, 2] } }, mem := [(5, 1)] }
def wSafe (r : BitVec 3) : State :=
  { wSt .safe with flt := { records := [{ det := 3, react := r, state := 5, first := 0, last := 0, lastTick := 0, detail := 0 }] } }

theorem witness_ResetsAndOff_1 : ∃ s : State, (s.mode = .off) :=
  ⟨{ wMode .off with arc := { words := [(3, .torn)] } }, by decide +kernel⟩

theorem witness_ResetsAndOff_2 : ∃ s : State, (s.mode ≠ .off) :=
  ⟨wProg, by decide +kernel⟩

theorem witness_ResetsAndOff_3 : ∃ s : State, (s.mode ≠ .off) :=
  ⟨wProg, by decide +kernel⟩

theorem witness_ResetsAndOff_4 : ∃ s : State, (s.mode ≠ .off) ∧ (s.mode ≠ .removal) ∧ (s.pins.resetLow = false) ∧ (s.pins.scan = none) :=
  ⟨wProg, by decide +kernel⟩

theorem witness_ResetsAndOff_5 : ∃ s : State, (Settled s) ∧ (s.pins.resetLow = true) :=
  ⟨{ wMode .hold with pins := { resetLow := true } }, ⟨rfl, rfl⟩, by decide +kernel⟩

theorem witness_ResetsAndOff_6 : ∃ src, ∃ s : State, (s.hears src = true) ∧ (s.mode ≠ .selftest) ∧ (s.mode ≠ .load) ∧ (s.pins.scan = none) :=
  ⟨.pcie, wSt .quarantine, by decide +kernel⟩

theorem witness_ResetsAndOff_7 : ∃ src, ∃ key, ∃ s : State, (Settled s) ∧ (s.hears src = true) ∧ (s.mode ≠ .selftest) ∧ (s.mode ≠ .load) ∧ (key ≠ 0x5A) :=
  ⟨.card, 0x5B, wMode .hold, ⟨rfl, rfl⟩, by decide +kernel⟩

theorem witness_ResetsAndOff_8 : ∃ src, ∃ s : State, (Settled s) ∧ (s.hears src = true) ∧ (s.mode = .selftest ∨ s.mode = .load) :=
  ⟨.pcie, wMode .load, ⟨rfl, rfl⟩, by decide +kernel⟩

theorem witness_HoldSelftestLoad_1 : ∃ s : State, (Settled s) ∧ (QuietClock s) ∧ (s.mode = .hold) ∧ (s.pins.resetLow = false) ∧ (s.pins.scan = none) ∧ (s.gctl.holdReason.toNat < 3) ∧ (s.otp.variant ≠ 0) ∧ ((s.gctl.holdBad = false ∨ 9 ≤ s.gctl.holdGood)) :=
  ⟨wMode .hold, ⟨rfl, rfl⟩, ⟨rfl, rfl, rfl⟩, by decide +kernel⟩

theorem witness_HoldSelftestLoad_2 : ∃ s : State, (Settled s) ∧ (QuietClock s) ∧ (s.mode = .hold) ∧ (s.pins.resetLow = false) ∧ (s.pins.scan = none) ∧ (s.gctl.holdReason.toNat < 3) ∧ (s.otp.variant ≠ 0) :=
  ⟨{ wMode .hold with gctl := { mode := .hold, holdReason := 2 } }, ⟨rfl, rfl⟩, ⟨rfl, rfl, rfl⟩, by decide +kernel⟩

theorem witness_HoldSelftestLoad_3 : ∃ s : State, (Settled s) ∧ (s.mode = .selftest) :=
  ⟨wMode .selftest, ⟨rfl, rfl⟩, by decide +kernel⟩

theorem witness_HoldSelftestLoad_4 : ∃ s : State, (Settled s) ∧ (s.mode = .selftest) :=
  ⟨wMode .selftest, ⟨rfl, rfl⟩, by decide +kernel⟩

theorem witness_HoldSelftestLoad_5 : ∃ a, ∃ b, ∃ s : State, (Settled s) ∧ (s.mode = .selftest) ∧ (s.planAdmitted = true) ∧ (s.arc.markedList = []) ∧ ((a || b) = true) :=
  ⟨false, true, wMode .selftest, ⟨rfl, rfl⟩, by decide +kernel⟩

theorem witness_HoldSelftestLoad_6 : ∃ s : State, (Settled s) ∧ (s.mode = .selftest) ∧ (s.planAdmitted = true) :=
  ⟨wMode .selftest, ⟨rfl, rfl⟩, by decide +kernel⟩

theorem witness_HoldSelftestLoad_7 : ∃ s : State, (Settled s) ∧ (s.mode = .selftest) :=
  ⟨wMode .selftest, ⟨rfl, rfl⟩, by decide +kernel⟩

theorem witness_HoldSelftestLoad_8 : ∃ s : State, (Settled s) ∧ (s.mode = .selftest) ∧ (s.planAdmitted = false) :=
  ⟨{ wMode .selftest with pwr := { alertPin := true } }, ⟨rfl, rfl⟩, by decide +kernel⟩

theorem witness_GctlCommands_1 : ∃ src, ∃ s : State, (Settled s) ∧ (s.hears src = true) ∧ (s.mode = .run ∨ s.mode = .degraded) :=
  ⟨.pcie, { wSt .degraded with mem := [(5, 1)] }, ⟨rfl, rfl⟩, by decide +kernel⟩

theorem witness_GctlCommands_2 : ∃ src, ∃ s : State, (Settled s) ∧ (s.hears src = true) ∧ (s.mode = .armed) :=
  ⟨.card, wSt .armed, ⟨rfl, rfl⟩, by decide +kernel⟩

theorem witness_GctlCommands_3 : ∃ src, ∃ s : State, (Settled s) ∧ (s.hears src = true) ∧ (s.mode = .safe) ∧ ((∀ r ∈ s.flt.records, r.react ≠ 3)) :=
  ⟨.pcie, wSafe 2, ⟨rfl, rfl⟩, by decide +kernel⟩

theorem witness_GctlCommands_4 : ∃ src, ∃ s : State, (Settled s) ∧ (s.hears src = true) ∧ (s.mode = .safe) ∧ ((∃ r ∈ s.flt.records, r.react = 3)) :=
  ⟨.pcie, wSafe 3, ⟨rfl, rfl⟩, by decide +kernel⟩

theorem witness_GctlCommands_5 : ∃ src, ∃ s : State, (Settled s) ∧ (s.hears src = true) ∧ (s.mode = .armed ∨ s.mode = .safe ∨ s.mode = .quarantine) :=
  ⟨.card, wSt .quarantine, ⟨rfl, rfl⟩, by decide +kernel⟩

theorem witness_GctlCommands_6 : ∃ src, ∃ s : State, (Settled s) ∧ (s.hears src = true) :=
  ⟨.pcie, wMode .hold, ⟨rfl, rfl⟩, by decide +kernel⟩

theorem witness_GctlCommands_7 : ∃ src, ∃ s : State, (Settled s) ∧ (s.hears src = true) ∧ (s.mode ≠ .run) ∧ (s.mode ≠ .degraded) :=
  ⟨.card, wMode .hold, ⟨rfl, rfl⟩, by decide +kernel⟩

theorem witness_CounterClears_1 : ∃ src, ∃ b, ∃ s : State, (Settled s) ∧ (s.hears src = true) ∧ (s.mode.fromArmed = true) ∧ (s.absent (cntAddr b) = false) ∧ (s.live (cntRow b) = true) :=
  ⟨.pcie, .hst, wSt .maint, ⟨rfl, rfl⟩, by decide +kernel⟩

theorem witness_CounterClears_2 : ∃ src, ∃ s : State, (Settled s) ∧ (s.hears src = true) ∧ (s.mode.fromArmed = true) :=
  ⟨.pcie, { wSt .safe with tck := { wTck with ovrCnt := 5, inMiss := 3 } }, ⟨rfl, rfl⟩, by decide +kernel⟩

theorem witness_CounterClears_3 : ∃ src, ∃ r, ∃ s : State, (Settled s) ∧ (s.hears src = true) ∧ (s.mode.fromArmed = true) ∧ (r < 8) :=
  ⟨.card, 7, wSt .armed, ⟨rfl, rfl⟩, by decide +kernel⟩

theorem witness_CounterClears_4 : ∃ src, ∃ s : State, (Settled s) ∧ (s.hears src = true) ∧ (s.mode = .hold ∨ s.mode = .selftest ∨ s.mode = .load) :=
  ⟨.card, wMode .load, ⟨rfl, rfl⟩, by decide +kernel⟩
end

end Sys2Proof.Tests.P03

/-! ## Witnesses -/

namespace Sys2Proof.Tests.P04
open Sys2Proof Sys2Proof.Machine Sys2Proof.Tests

section
set_option Elab.async false
def wImg (m : Mode) (i : Img) : State := { wSt m with img := i }
def wLoad (t : List Twin) : State := { gctl := { mode := .load, tried := t }, tim := { mono := 2000000, dev := 2000000 }, mem := [(5, 1)] }
/-- The header word of a twin of 4,096 bytes. -/
def wHdr : ArcWord := .prog ([0x31, 0x52, 0x4E, 0x46, 1, 0, 0, 0, 0, 0x10] ++ zeros 22)
def wTwins : Arc := { words := [(0, .prog (selectorBytes 1 .a 7)), (0x400800, wHdr)] }
/-- The bytes of the payload. -/
def wPayload : List Byte := (List.range 32).map (BitVec.ofNat 8)

def wBytes0 : List Byte :=
  [49, 82, 78, 70, 1, 0, 15, 0, 96, 53, 0, 0, 1] ++ zeros 19 ++ [1, 0, 1, 0, 32, 1, 0, 0, 16, 0, 0, 0, 0, 0, 0, 0, 2, 0, 1, 0, 64, 1, 0,
  0, 32, 0, 0, 0, 0, 0, 0, 0, 3, 0, 1, 0, 96, 1, 0, 0, 32, 0, 0, 0, 0, 0, 0, 0, 4, 0, 1, 0, 128, 1, 0, 0, 48, 0, 0, 0, 0, 0, 0, 0, 5, 0,
  1, 0, 192, 1, 0, 0, 64, 27, 0, 0, 0, 0, 0, 0, 7, 0, 1, 0, 0, 29, 0, 0, 32, 0, 0, 0, 0, 0, 0, 0, 8, 0, 1, 0, 32, 29, 0, 0, 64, 0, 0, 0,
  0, 0, 0, 0, 9, 0, 1, 0, 96, 29, 0, 0, 0, 17, 0, 0, 0, 0, 0, 0, 10, 0, 1, 0, 96, 46, 0, 0, 80, 0, 0, 0, 0, 0, 0, 0, 13, 0, 1, 0, 192, 46,
  0, 0, 64, 0, 0, 0, 0, 0, 0, 0, 14, 0, 1, 0, 0, 47, 0, 0, 160, 0, 0, 0, 0, 0, 0, 0, 15, 0, 1, 0, 160, 47, 0, 0, 16, 4, 0, 0, 0, 0, 0, 0,
  16, 0, 1, 0, 192, 51, 0, 0, 16, 0, 0, 0, 0, 0, 0, 0, 17, 0, 1, 0, 224, 51, 0, 0, 160, 0, 0, 0, 0, 0, 0, 0, 21, 0, 1, 0, 128, 52, 0, 0,
  96] ++ zeros 23 ++ [1, 1, 0, 0, 1] ++ zeros 27 ++ [16, 39, 0, 0, 232, 3, 0, 0, 208, 7, 0, 0, 52, 8, 0, 0, 0, 0, 0, 0, 1, 1, 1, 1, 0, 0,
  100, 0, 0, 0, 0, 0, 1, 0, 0, 0, 1, 0, 0, 0, 50, 0, 1, 0, 1, 0, 0, 0, 1, 0, 1] ++ zeros 13 ++ [1] ++ zeros 15 ++ [64, 1, 0, 0, 100, 0, 0,
  0, 100] ++ zeros 11 ++ [255, 255] ++ zeros 38 ++ [1, 1, 1, 1, 1, 1, 1, 1, 1, 1, 1, 1, 1, 1, 1, 1, 1, 1, 1, 1] ++ zeros 800

theorem wBytes0_length : wBytes0.length = 1280 := by decide +kernel

def wBytes5 : List Byte :=
  zeros 1024 ++ [16, 0, 16, 0, 50, 0, 1] ++ zeros 8 ++ [32, 0, 16, 0, 32] ++ zeros 13 ++ [80, 255, 15, 17, 0, 0, 0, 1, 0, 0, 0, 0, 0, 0,
  0, 1] ++ zeros 23 ++ [1] ++ zeros 23 ++ [2, 0, 0, 0, 1] ++ zeros 155

theorem wBytes5_length : wBytes5.length = 1280 := by decide +kernel

def wBytes9 : List Byte :=
  zeros 336 ++ [1] ++ zeros 175 ++ [100, 0, 50, 0, 0, 0, 0, 0, 90, 0, 0, 0, 244, 1] ++ zeros 147 ++ [1, 1] ++ zeros 357 ++ [3, 0, 0, 0, 3,
  0, 0, 0, 3, 0, 0, 0, 3] ++ zeros 235

theorem wBytes9_length : wBytes9.length = 1280 := by decide +kernel

def wBytes10 : List Byte :=
  zeros 448 ++ [1, 1, 0, 0, 100] ++ zeros 29 ++ [1] ++ zeros 157 ++ [1, 0, 0, 0, 32] ++ zeros 29 ++ [1, 0, 16, 0, 0, 0, 32, 0, 0, 0, 255]
  ++ zeros 19 ++ [99, 13, 205, 41, 102, 196, 51, 102, 145, 18, 84, 72, 187, 178, 91, 79, 244, 18, 164, 156, 115, 45, 178, 200, 171, 193,
  184, 88, 27, 215, 16, 221]

theorem wBytes10_length : wBytes10.length = 736 := by decide +kernel

/-- The bytes of a smallest image up to its signature block: the header, the directory and the sections in the order of their types (R72, R73).
It declares one CAN stream, one GRID task on no core, two slots, and one payload that stays in the archive. -/
def wBody : List Byte :=
  wBytes0 ++ (zeros 1280 ++ (zeros 1280 ++ (zeros 1280 ++ (zeros 1280 ++ (wBytes5 ++ (zeros 1280 ++ (zeros 1280 ++ (zeros 1280 ++ (wBytes9
  ++ (wBytes10))))))))))

/-- The signature block: the key, and a signature made with it (R72, R77). -/
def wSigBlock : List Byte :=
  leBytes 32 0x26efcebd0ee9e34a669187e18b3a9122b2f733945b649cc9f9f921e9f9dad812 ++ (leBytes 32 0x90238bde9cc7bb330d150c67704dd25ae7055205744b6f31bf4070745872d0e6 ++
    (leBytes 32 0xc2a5ef4599f9e79d877ec63f111e580cbeea31b7b24937fefd0e98a66ee0f14e ++ leBytes 32 0xa877c5f47cde387628ab0791f546c486e411b9154808d86bd4a0b7c771de4781))

def wImage : List Byte := wBody ++ wSigBlock

theorem wBody_length : wBody.length = 13536 := by
  simp only [wBody, List.length_append, wBytes0_length, wBytes5_length, wBytes9_length, wBytes10_length, zeros, List.length_replicate]

/-- The padding of the 13,600 bytes that are signed. -/
def wPad : List Byte := [0x80] ++ zeros 23 ++ beBytes 8 108800

theorem wSha0 : shaBlocks 20 shaSeed
    wBytes0 =
    [0xca0d6cf8, 0xa2c51cac, 0x99be7622, 0xd012ae24, 0x1ad0e1d3, 0x56868255, 0x0e6f2840, 0xc28c836e] := by decide +kernel

theorem wSha1 : shaBlocks 20 [0xca0d6cf8, 0xa2c51cac, 0x99be7622, 0xd012ae24, 0x1ad0e1d3, 0x56868255, 0x0e6f2840, 0xc28c836e]
    (zeros 1280) =
    [0x2fe170c0, 0x97fc799f, 0xd6842038, 0xc8515cff, 0x1e8e14b1, 0x5f8a9d6f, 0xcb52baa2, 0x2ce5389f] := by decide +kernel

theorem wSha2 : shaBlocks 20 [0x2fe170c0, 0x97fc799f, 0xd6842038, 0xc8515cff, 0x1e8e14b1, 0x5f8a9d6f, 0xcb52baa2, 0x2ce5389f]
    (zeros 1280) =
    [0xf211c01e, 0xd49eff53, 0x2608b874, 0x593acc55, 0xcc6c64a6, 0x57549336, 0xf9b46aea, 0x268cc2d3] := by decide +kernel

theorem wSha3 : shaBlocks 20 [0xf211c01e, 0xd49eff53, 0x2608b874, 0x593acc55, 0xcc6c64a6, 0x57549336, 0xf9b46aea, 0x268cc2d3]
    (zeros 1280) =
    [0xcd79d2b2, 0xc8f99fbb, 0x91063f0e, 0x91469336, 0x8dd2dd83, 0xc7f65f0e, 0xa1b7887e, 0x5a67f0cc] := by decide +kernel

theorem wSha4 : shaBlocks 20 [0xcd79d2b2, 0xc8f99fbb, 0x91063f0e, 0x91469336, 0x8dd2dd83, 0xc7f65f0e, 0xa1b7887e, 0x5a67f0cc]
    (zeros 1280) =
    [0x7cb6e39b, 0xba9e73cc, 0xd913b358, 0x5ab66384, 0xa32f8375, 0xea88cde0, 0x14c19445, 0x7f36447d] := by decide +kernel

theorem wSha5 : shaBlocks 20 [0x7cb6e39b, 0xba9e73cc, 0xd913b358, 0x5ab66384, 0xa32f8375, 0xea88cde0, 0x14c19445, 0x7f36447d]
    wBytes5 =
    [0x078b659b, 0x53433c07, 0x5ba5d324, 0x199bd07a, 0x791ec15c, 0x52e82e10, 0x24ff9137, 0x962b578f] := by decide +kernel

theorem wSha6 : shaBlocks 20 [0x078b659b, 0x53433c07, 0x5ba5d324, 0x199bd07a, 0x791ec15c, 0x52e82e10, 0x24ff9137, 0x962b578f]
    (zeros 1280) =
    [0x563fca79, 0xf30a311f, 0x39ad2981, 0xa076df4f, 0xab79bce3, 0x265deb16, 0x2aef3c49, 0xf61b99e0] := by decide +kernel

theorem wSha7 : shaBlocks 20 [0x563fca79, 0xf30a311f, 0x39ad2981, 0xa076df4f, 0xab79bce3, 0x265deb16, 0x2aef3c49, 0xf61b99e0]
    (zeros 1280) =
    [0x9dc973c2, 0x23656ad0, 0xc7dfa931, 0xc5add27f, 0x78ef6da3, 0xe30878ae, 0x8962406d, 0x8a47801f] := by decide +kernel

theorem wSha8 : shaBlocks 20 [0x9dc973c2, 0x23656ad0, 0xc7dfa931, 0xc5add27f, 0x78ef6da3, 0xe30878ae, 0x8962406d, 0x8a47801f]
    (zeros 1280) =
    [0xdc9caba0, 0xe586a88e, 0xb64df3e6, 0xee5ccb9f, 0xa4b9d1e8, 0xe5f17218, 0xb795baf6, 0xd2307b6b] := by decide +kernel

theorem wSha9 : shaBlocks 20 [0xdc9caba0, 0xe586a88e, 0xb64df3e6, 0xee5ccb9f, 0xa4b9d1e8, 0xe5f17218, 0xb795baf6, 0xd2307b6b]
    wBytes9 =
    [0x1a7b2b6b, 0x7252eb91, 0xa9633348, 0xe2c79fb8, 0x9c3fbd77, 0x45cd003b, 0x2830fcd4, 0xe49640ed] := by decide +kernel

theorem wSha10 : shaBlocks 13 [0x1a7b2b6b, 0x7252eb91, 0xa9633348, 0xe2c79fb8, 0x9c3fbd77, 0x45cd003b, 0x2830fcd4, 0xe49640ed]
    (wBytes10 ++ (wSigBlock.take 64 ++ wPad)) =
    [0x6f7ff57e, 0x47c6b1d8, 0x0bd79a27, 0xa8fe29ed, 0xffbd4418, 0xdf02794a, 0xd70924de, 0x7cb405da] := by decide +kernel

theorem wSigned_digest : digestOf (sha256 (wBody ++ wSigBlock.take 64)) =
    0x6f7ff57e47c6b1d80bd79a27a8fe29edffbd4418df02794ad70924de7cb405da := by
  have t : (wSigBlock.take 64).length = 64 := by decide
  have n : (wBody ++ wSigBlock.take 64).length = 13600 := by rw [List.length_append, wBody_length, t]
  have p : shaPad (wBody ++ wSigBlock.take 64) = wBody ++ (wSigBlock.take 64 ++ wPad) := by
    unfold shaPad wPad
    rw [n]
    simp only [List.append_assoc]
  have b : (shaPad (wBody ++ wSigBlock.take 64)).length / 64 = 213 := by
    rw [p, List.length_append, List.length_append, wBody_length, t]
    decide
  have q : shaBlocks 213 shaSeed (wBody ++ (wSigBlock.take 64 ++ wPad)) = [0x6f7ff57e, 0x47c6b1d8, 0x0bd79a27, 0xa8fe29ed, 0xffbd4418, 0xdf02794a, 0xd70924de, 0x7cb405da] := by
    unfold wBody
    simp only [List.append_assoc]
    rw [shaBlocks_append 20 193 _ _ _ wBytes0_length, wSha0,
      shaBlocks_append 20 173 _ _ _ (show (zeros 1280).length = 64 * 20 from List.length_replicate ..), wSha1,
      shaBlocks_append 20 153 _ _ _ (show (zeros 1280).length = 64 * 20 from List.length_replicate ..), wSha2,
      shaBlocks_append 20 133 _ _ _ (show (zeros 1280).length = 64 * 20 from List.length_replicate ..), wSha3,
      shaBlocks_append 20 113 _ _ _ (show (zeros 1280).length = 64 * 20 from List.length_replicate ..), wSha4,
      shaBlocks_append 20 93 _ _ _ wBytes5_length, wSha5,
      shaBlocks_append 20 73 _ _ _ (show (zeros 1280).length = 64 * 20 from List.length_replicate ..), wSha6,
      shaBlocks_append 20 53 _ _ _ (show (zeros 1280).length = 64 * 20 from List.length_replicate ..), wSha7,
      shaBlocks_append 20 33 _ _ _ (show (zeros 1280).length = 64 * 20 from List.length_replicate ..), wSha8,
      shaBlocks_append 20 13 _ _ _ wBytes9_length, wSha9, wSha10]
  rw [show sha256 (wBody ++ wSigBlock.take 64) = (shaBlocks ((shaPad (wBody ++ wSigBlock.take 64)).length / 64) shaSeed
    (shaPad (wBody ++ wSigBlock.take 64))).flatMap (beBytes 4) from rfl, b, p, q]
  decide +kernel

/-- Words in their byte order. -/
def leWords (l : List Nat) : List Byte := l.flatMap (leBytes 4)

/-- PORTS: every port is off. -/
def wPortsSec : List Byte := zeros 12 ++ [1, 1, 1, 1] ++ List.replicate 16 1 ++ zeros 6944

/-- QUEUES: two slots, no queue and no task list. -/
def wQueuesSec : List Byte := leWords [2, 1, 0, 0, 0, 0, 0, 0] ++ (zeros 4288 ++ leWords [0, 0, 0, 0, 1, 0, 0, 0])

/-- FAULTMAP: RECORD for all but the detectors 86 to 89, which lead to SAFE. -/
def wMapSec : List Byte := leWords [0x10100, 0, 0, 0] ++ zeros 344 ++ leWords [3, 3, 3, 3] ++ zeros 664

/-- The sections of the image by their types. -/
def wSections : List (Nat × List Byte) := [
  (0x01, [1, 1, 0, 0] ++ leBytes 6 1 ++ zeros 6),
  (0x02, leWords [10000, 1000, 2000, 2100, 0, 0x01010101, 0x640000, 0]),
  (0x03, leWords [1, 1, 0x10032, 1, 0x10001, 0, 0, 0]),
  (0x04, leWords [1, 0, 0, 0, 0x140, 100, 100, 0, 0, 0xFFFF, 0, 0]),
  (0x05, wPortsSec),
  (0x07, leWords [0x100010, 0x10032, 0, gridBase, gridBase + 4096, 0, 0, 0]),
  (0x08, leWords [0x0FFF5000, 0x11, 1, 0, 1, 0] ++ zeros 16 ++ leWords [1, 0, 0, 0, 0, 0]),
  (0x09, wQueuesSec), (0x0A, zeros 80), (0x0D, zeros 64),
  (0x0E, leWords [0x320064, 0, 90, 500] ++ zeros 144),
  (0x0F, wMapSec), (0x10, leWords [0x101, 100, 0, 0]), (0x11, leWords [0x10000] ++ zeros 156),
  (0x15, leWords [1, 32] ++ zeros 24 ++ leWords [0x10000, 16, 32, 0xFF] ++ zeros 16 ++ sha256 wPayload)]

set_option maxRecDepth 1000000 in
theorem wImage_sections : ∀ e ∈ wSections, sectionOf wImage e.1 = some e.2 := by decide +kernel

theorem wImage_absent : ∀ t ∈ [6, 0xB, 0xC, 0x12, 0x13, 0x14, 0x16], sectionOf wImage t = none := by decide +kernel

theorem wImage_signature : signatureOk wImage = true := by
  have l : at32 wImage 8 = 13664 := by decide +kernel
  have p (o : Nat) : part wImage (13536 + o) 32 = part wSigBlock o 32 := by
    rw [part, wImage, show 13536 + o = wBody.length + o by rw [wBody_length], List.drop_length_add_append]; rfl
  have m : wImage.take 13600 = wBody ++ wSigBlock.take 64 := by
    rw [wImage, show 13600 = wBody.length + 64 by rw [wBody_length], List.take_length_add_append]
  have k (i : Nat) : sigAt wImage i = ofLe (part wSigBlock (32 * i) 32) := by
    rw [← p]; simp only [sigAt, l]
  rw [signatureOk, l, m, wSigned_digest, k, k, k, k]
  decide +kernel

theorem wImage_key : digestOf (sha256 (part wImage (at32 wImage 8 - 128) 64)) = digestOf (sha256 (wSigBlock.take 64)) := by
  have l : at32 wImage 8 = 13664 := by decide +kernel
  rw [l, part, wImage, show 13664 - 128 = wBody.length + 0 by rw [wBody_length], List.drop_length_add_append]
  rfl

/-- What the image says. -/
def wRead : Image := {
  hdr := readHeader wImage
  sku := { variantMask := 1, formMask := 1, minStep := 0, coreMask := 1 }
  tick := { period := 10000, gather := 1000, emit := 2000, quiet := 2100, ovrLimit := 1, recover := 1, inTol := 1, srcAllow := 1, armTimeout := 100 }
  time := { discAllow := 1, stepThr := 1, lockThr := 50, holdLim := 1, ppsWin := 1, slewRate := 1, ppsWidth := 1 }
  streams := { streams := [{ decl := 0x140, kind := 2, toEgo := true, period := 100, window := 100, cover := 0xFFFF }] }
  ports := readPorts wPortsSec
  grid := { x := 16, y := 16, cellMm := 50, c := 1, buf0 := gridBase, buf1 := gridBase + 4096 }
  tasks := [{ kind := 5, core := 63, altCore := 63, qinGroup := 1, wcet := 1, ins := [{}], outs := [1] }]
  queues := { gridSlot := 1, queues := List.replicate 256 {}, tables := List.replicate 48 [], slots := [{}, { slot := 1 }] }
  qformat := { satThr := List.replicate 16 0, ctxs := List.replicate 16 0 }
  outA := { vlans := [0, 0, 0, 0] }, outB := { vlans := [0, 0, 0, 0] }
  power := { budget := 100, floor := 50, thermThr := 90, coreMhz := 500, consumers := List.replicate 64 (0, 0) }
  faultMap := { extFilt := 1, extHold := 1, entries := List.replicate 86 ⟨0, 0, 0⟩ ++ List.replicate 4 ⟨3, 0, 0⟩ ++ List.replicate 166 ⟨0, 0, 0⟩ }
  selfTest := { slices := true, skipWarn := 1, rotLimit := 100 }, arcArea := { eccWarn := 1 }
  payloads := [{ kind := 1, sector := 16, length := 32, dest := 255, digest := digestOf (sha256 wPayload) }] }

theorem wQueuesSec_zeros (o k : Nat) (h : 32 ≤ o) (g : o + k ≤ 4320) : part wQueuesSec o k = zeros k := part_in_zeros _ _ _ _ _ h g

theorem wQueuesSec_list (c : Nat) (h : c < 48) : at32 wQueuesSec (0x1020 + 4 * c) = 0 := by
  show ofLe (part wQueuesSec (0x1020 + 4 * c) 4) = 0
  rw [wQueuesSec_zeros _ 4 (by omega) (by omega)]; rfl

theorem wQueuesSec_bits (c : Nat) (h : c < 48) (lo w : Nat) : bits wQueuesSec (0x1020 + 4 * c) lo w = field 0 lo w := by
  rw [bits, wQueuesSec_list c h]

theorem read_wQueuesSec : readQueues wQueuesSec = wRead.queues := by
  have q : (List.range 256).map (fun q => readQueue (part wQueuesSec (0x20 + 16 * q) 16)) = List.replicate 256 {} := by
    rw [List.map_congr_left (g := fun _ => {}) (fun i hi => by
      rw [wQueuesSec_zeros _ 16 (by omega) (by have := List.mem_range.mp hi; omega)]; rfl)]
    simp
  have t : (List.range 48).map (fun c => (List.range (bits wQueuesSec (0x1020 + 4 * c) 16 12)).map
      (fun i => at16 wQueuesSec (0x10E0 + 16 * 2 + 2 * (bits wQueuesSec (0x1020 + 4 * c) 0 16 + i)))) = List.replicate 48 [] := by
    rw [List.map_congr_left (g := fun _ => []) (fun i hi => by rw [wQueuesSec_bits i (List.mem_range.mp hi) 16 12]; rfl)]
    simp
  have n : bits wQueuesSec 0 0 14 = 2 := by decide +kernel
  have s : (List.range 2).map (fun i => let o := 0x10E0 + 16 * i
      ({ slot := bits wQueuesSec o 0 13, double := flagAt wQueuesSec o 13, addr0 := at32 wQueuesSec (o + 4),
         addr1 := at32 wQueuesSec (o + 8), len := at32 wQueuesSec (o + 12) } : SlotDecl)) = [{}, { slot := 1 }] := by decide +kernel
  have r : readQueues wQueuesSec = { gridSlot := bits wQueuesSec 4 0 13, queues := _, tables := _, slots := _ } := rfl
  rw [r, n]
  exact congr (congr (congr (congrArg QueuesSec.mk (by decide +kernel)) q) t) s

theorem queuesOk_wRead : queuesOk wQueuesSec wRead = true := by
  have used : (List.range 48).foldl (fun k c => max k (bits wQueuesSec (0x1020 + 4 * c) 0 16 + bits wQueuesSec (0x1020 + 4 * c) 16 12)) 0 = 0 := by
    rw [List.foldl_ext _ (fun k _ => max k 0) 0 (fun k c hc => by
      rw [wQueuesSec_bits c (List.mem_range.mp hc), wQueuesSec_bits c (List.mem_range.mp hc)]; rfl)]
    exact List.foldl_fixed' (fun _ => rfl) _
  have binds : wRead.queues.queues.zipIdx.all (fun e => bindOk (part wQueuesSec (0x20 + 16 * e.2) 16) e.1) = true := by
    refine List.all_eq_true.mpr (fun x hx => ?_)
    obtain ⟨-, h2, h3⟩ := List.mem_zipIdx (show (x.1, x.2) ∈ (List.replicate 256 ({} : QueueBind)).zipIdx from hx)
    rw [List.length_replicate] at h2
    rw [wQueuesSec_zeros _ 16 (by omega) (by omega), h3, List.getElem_replicate]
    decide
  have lists : (List.range 48).all (fun c => only wQueuesSec (0x1020 + 4 * c) 0x0FFFFFFF && decide (bits wQueuesSec (0x1020 + 4 * c) 0 16 +
      bits wQueuesSec (0x1020 + 4 * c) 16 12 ≤ (wQueuesSec.length - (0x10E0 + 16 * bits wQueuesSec 0 0 14)) / 2)) = true := by
    refine List.all_eq_true.mpr (fun c hc => ?_)
    have h := List.mem_range.mp hc
    rw [wQueuesSec_bits c h, wQueuesSec_bits c h, only, wQueuesSec_list c h]
    simp [field]
  simp only [queuesOk, Bool.and_eq_true, used]
  repeat' apply And.intro
  pick_goal 7
  · exact binds
  pick_goal 13
  · exact lists
  all_goals decide +kernel

theorem read_wMapSec : readFaultMap wMapSec = wRead.faultMap := by decide +kernel

/-- The bytes of a section in the list. -/
def wSec (k : Nat) : List Byte := (wSections.getD k (0, [])).2

theorem wImage_sec (k : Nat) (h : k < 15) : sectionOf wImage (wSections.getD k (0, [])).1 = some (wSec k) :=
  wImage_sections _ (by rw [List.getD_eq_getElem _ _ (by simpa [wSections] using h)]; exact List.getElem_mem _)

theorem wImage_none :
    sectionOf wImage 6 = none ∧ sectionOf wImage 0xB = none ∧ sectionOf wImage 0xC = none ∧ sectionOf wImage 0x12 = none ∧
    sectionOf wImage 0x13 = none ∧ sectionOf wImage 0x14 = none ∧ sectionOf wImage 0x16 = none := by
  have a (t : Nat) (h : t ∈ [6, 0xB, 0xC, 0x12, 0x13, 0x14, 0x16]) : sectionOf wImage t = none := wImage_absent t h
  exact ⟨a 6 (by simp), a 0xB (by simp), a 0xC (by simp), a 0x12 (by simp), a 0x13 (by simp), a 0x14 (by simp), a 0x16 (by simp)⟩

theorem wImage_all :
    sectionOf wImage 1 = some (wSec 0) ∧ sectionOf wImage 2 = some (wSec 1) ∧ sectionOf wImage 3 = some (wSec 2) ∧
    sectionOf wImage 4 = some (wSec 3) ∧ sectionOf wImage 5 = some wPortsSec ∧ sectionOf wImage 7 = some (wSec 5) ∧
    sectionOf wImage 8 = some (wSec 6) ∧ sectionOf wImage 9 = some wQueuesSec ∧ sectionOf wImage 0xA = some (wSec 8) ∧
    sectionOf wImage 0xD = some (wSec 9) ∧ sectionOf wImage 0xE = some (wSec 10) ∧ sectionOf wImage 0xF = some wMapSec ∧
    sectionOf wImage 0x10 = some (wSec 12) ∧ sectionOf wImage 0x11 = some (wSec 13) ∧ sectionOf wImage 0x15 = some (wSec 14) :=
  ⟨wImage_sec 0 (by omega), wImage_sec 1 (by omega), wImage_sec 2 (by omega), wImage_sec 3 (by omega), wImage_sec 4 (by omega),
  wImage_sec 5 (by omega), wImage_sec 6 (by omega), wImage_sec 7 (by omega), wImage_sec 8 (by omega), wImage_sec 9 (by omega),
  wImage_sec 10 (by omega), wImage_sec 11 (by omega), wImage_sec 12 (by omega), wImage_sec 13 (by omega), wImage_sec 14 (by omega)⟩

theorem wImage_read : readImage wImage = wRead := by
  unfold readImage
  simp only [wImage_none, wImage_all, Option.getD_some, Option.map_none, Option.getD_none, read_wQueuesSec, read_wMapSec,
    show readSku (wSec 0) = wRead.sku by decide +kernel, show readTick (wSec 1) = wRead.tick by decide +kernel,
    show readTime (wSec 2) = wRead.time by decide +kernel, show readStreams (wSec 3) = wRead.streams by decide +kernel,
    show readGrid (wSec 5) = wRead.grid by decide +kernel, show readGraph (wSec 6) = wRead.tasks by decide +kernel,
    show readQFormat (wSec 8) = wRead.qformat by decide +kernel, show readSolver [] = [] from rfl,
    show readChan (part (wSec 9) 0 32) = wRead.outA by decide +kernel, show readChan (part (wSec 9) 32 32) = wRead.outB by decide +kernel,
    show readPower (wSec 10) = wRead.power by decide +kernel, show readSelfTest (wSec 12) = wRead.selfTest by decide +kernel,
    show readArcArea (wSec 13) = wRead.arcArea by decide +kernel, show readPayloads (wSec 14) = wRead.payloads by decide +kernel]
  rfl

/-- An array that holds the image as a twin, and its payload. -/
def wTwinArc (t : Twin) : Arc := { words := wordsFrom 427 (twinBase t / 32) wImage ++ [(0x20800, .prog wPayload)] }

/-- A part of the smallest variant whose key slots all hold the key of the image. -/
def wOtp : Otp := { variant := 1, keys := Vector.replicate 4 { hash := some (digestOf (sha256 (wSigBlock.take 64))) } }

theorem wImage_take : wImage.take 13664 = wImage :=
  List.take_of_length_le (Nat.le_of_eq (by
    rw [wImage, List.length_append, wBody_length, show wSigBlock.length = 128 by decide +kernel]))

theorem wTwin_read (t : Twin) (s : State) (h : s.arc = wTwinArc t) (n : Nat) (l : ceilDiv n 32 ≤ 427) (m : n ≤ 32 * ceilDiv n 32) :
    s.arc.readBytes (twinBase t) n = wImage.take n := by
  rw [h]; exact readBytes_wordsFrom _ 427 _ n wImage _ rfl rfl rfl (by cases t <;> rfl) l m

theorem wTwin_bytes (t : Twin) (s : State) (h : s.arc = wTwinArc t) : twinBytes t s = wImage := by
  rw [twinBytes, wTwin_read t s h 32 (by decide) (by decide), show at32 (wImage.take 32) 8 = 13664 by decide +kernel]
  exact (wTwin_read t s h 13664 (by decide) (by decide)).trans wImage_take

theorem wTwin_image (t : Twin) (s : State) (h : s.arc = wTwinArc t) : readImage (twinBytes t s) = wRead := by
  rw [wTwin_bytes t s h, wImage_read]

theorem wTwin_fields (t : Twin) : fieldsOk wOtp false (wTwinArc t).readBytes wImage wRead = true := by
  simp only [fieldsOk, wImage_none, wImage_all, Option.getD_some, Option.getD_none, queuesOk_wRead, Bool.and_true]
  cases t <;> decide +kernel

theorem wTwin_holds (t : Twin) (s : State) (h : s.arc = wTwinArc t) (o : s.otp = wOtp) (m : s.pins.mgrSel = false) : TwinHolds t s := by
  have u (a n : Nat) : s.arc.uncorrIn a n = false := by rw [h]; rfl
  refine ⟨?_, u _ _, ?_⟩
  · rw [headerFail, u, wTwin_read t s h 32 (by decide) (by decide), show headerOk (wImage.take 32) = true by decide +kernel]; rfl
  · have k : keyOk wOtp wImage = true := by
      rw [keyOk, wImage_key]; decide +kernel
    have f : (fieldReads wRead).any (fun r => s.arc.uncorrIn r.1 r.2) = false := by simp [u]
    have sk : skuOk wOtp (wSec 0) wRead = true := by decide +kernel
    have d : directoryOk wImage = true := by decide +kernel
    have dv : wRead.hdr.dev = false := by decide +kernel
    have v : wRead.hdr.secVer = 0 := by decide +kernel
    have p : placementOk wRead = true := by decide +kernel
    rw [staticFail, twinImage, wTwin_image t s h, wTwin_bytes t s h, o, m, k, wImage_signature, dv, v,
      show sectionOf wImage 1 = some (wSec 0) from wImage_sec 0 (by omega), Option.getD_some, sk, d, f, h, wTwin_fields t, p]
    rfl

/-- The other twin has failed at LOAD. -/
def wTwinLoad : State := { gctl := { mode := .load, tried := [.b] }, otp := wOtp, arc := wTwinArc .a }

/-- Twin B is being verified, with another image running. -/
def wTwinVerify : State := { wImg .run { run := some wIm, stage := 2, stgTwin := .b } with otp := wOtp, arc := wTwinArc .b }

theorem wTwin_payload (t : Twin) : digestOf (sha256 ((wTwinArc t).readBytes 0x410000 32)) = digestOf (sha256 wPayload) := by
  cases t <;> decide +kernel

theorem wTwin_payloads (t : Twin) (s : State) (h : s.arc = wTwinArc t) : PayloadsHold (twinImage t s).payloads s.arc := by
  rw [twinImage, wTwin_image t s h, h]
  intro p k
  rw [List.mem_singleton.mp k]
  exact ⟨rfl, wTwin_payload t⟩

theorem wTwin_hot : hotRuleOk wTwinVerify.im (twinImage .b wTwinVerify) = true := by
  rw [twinImage, wTwin_image .b wTwinVerify rfl]; decide +kernel

theorem wTwin_changed : PayloadsHold (changedPayloads wTwinVerify.im (twinImage .b wTwinVerify)) (wTwinVerify.showing []).arc := by
  rw [twinImage, wTwin_image .b wTwinVerify rfl]
  intro p k
  refine wTwin_payloads .b (wTwinVerify.showing []) rfl p ?_
  rw [twinImage, wTwin_image .b (wTwinVerify.showing []) rfl]
  exact List.mem_of_mem_filter k

theorem witness_HoldSelftestLoad_9 : ∃ s : State, (Settled s) ∧ (s.mode = .load) ∧ (s.gctl.tried = [.a]) ∧ (headerOk ((s.showing []).arc.readBytes 0x08010000 32) = false) :=
  ⟨wLoad [.a], ⟨rfl, rfl⟩, by decide +kernel⟩

theorem witness_HoldSelftestLoad_10 : ∃ s : State, (Settled s) ∧ (s.mode = .load) ∧ (s.gctl.tried = []) ∧ ((s.showing []).arc.newestSelector = none) ∧ (headerOk ((s.showing []).arc.readBytes 0x00010000 32) = false) :=
  ⟨wLoad [], ⟨rfl, rfl⟩, by decide +kernel⟩

theorem witness_ImageCommands_1 : ∃ e : EccView, ∃ t : Twin, ∃ s : State, (Settled s) ∧ (TwinHolds t (s.showing e)) ∧ (PayloadsHold (twinImage t (s.showing e)).payloads (s.showing e).arc) ∧ (RecordsPermit (twinImage t (s.showing e)) s) ∧ (s.mode = .load) ∧ (twinToTry (s.showing e) = t) :=
  ⟨[], .a, wTwinLoad, ⟨rfl, rfl⟩, wTwin_holds .a _ rfl rfl rfl, wTwin_payloads .a _ rfl, fun r h => absurd (show r ∈ ([] : List FaultRec) from h) (by simp), by decide +kernel⟩

theorem witness_ImageCommands_2 : ∃ src, ∃ w, ∃ s : State, (Settled s) ∧ (s.hears src = true) ∧ (s.mode.fromArmed = true) ∧ (s.img.run.isSome = true) ∧ (s.img.runTwin = w) :=
  ⟨.pcie, .b, wImg .run { run := some wIm, runTwin := .b }, ⟨rfl, rfl⟩, by decide +kernel⟩

theorem witness_ImageCommands_3 : ∃ src, ∃ w, ∃ s : State, (Settled s) ∧ (s.hears src = true) ∧ (s.mode.fromArmed = true) ∧ (s.img.run.isSome = false ∨ s.img.runTwin ≠ w) ∧ (s.img.stage = 0 ∨ s.img.stage = 1 ∨ s.img.stage = 3) ∧ (headerFail w s = none) :=
  ⟨.pcie, .b, { wSt .run with arc := wTwins }, ⟨rfl, rfl⟩, by decide +kernel⟩

theorem witness_ImageCommands_4 : ∃ src, ∃ w, ∃ s : State, (Settled s) ∧ (s.hears src = true) ∧ (s.mode.fromArmed = true) ∧ (s.img.run.isSome = false ∨ s.img.runTwin ≠ w) ∧ (s.img.stage = 0 ∨ s.img.stage = 1 ∨ s.img.stage = 3) ∧ (s.arc.uncorrIn (twinBase w) 32 = true) :=
  ⟨.pcie, .b, { wImg .quarantine { run := some wIm, stage := 3 } with arc := { wTwins with bitErrs := [(0x08010000, 4)] } }, ⟨rfl, rfl⟩, by decide +kernel⟩

theorem witness_ImageCommands_5 : ∃ src, ∃ s : State, (Settled s) ∧ (s.hears src = true) ∧ (s.mode.fromArmed = true) ∧ (s.img.stage = 1) :=
  ⟨.pcie, { wImg .safe { run := some wIm, stage := 1, stgTwin := .b } with arc := wTwins }, ⟨rfl, rfl⟩, by decide +kernel⟩

theorem witness_ImageCommands_6 : ∃ src, ∃ s : State, (Settled s) ∧ (s.hears src = true) ∧ (s.mode.fromArmed = true) ∧ (s.img.stage ≠ 1) :=
  ⟨.card, wImg .maint { stage := 2 }, ⟨rfl, rfl⟩, by decide +kernel⟩

theorem witness_ImageCommands_7 : ∃ e : EccView, ∃ w : Twin, ∃ im : Image, ∃ s : State, (Settled s) ∧ (MemoryOk s) ∧ (s.img.stgTwin = w) ∧ (TwinHolds w (s.showing e)) ∧ (twinImage w (s.showing e) = im) ∧ (hotRuleOk s.im im = true) ∧ (fabricCompatible im s = true) ∧ (PayloadsHold (changedPayloads s.im im) (s.showing e).arc) ∧ (s.img.stage = 2) ∧ (s.img.fillBad = false) :=
  ⟨[], .b, twinImage .b wTwinVerify, wTwinVerify, ⟨rfl, rfl⟩, rfl, rfl, wTwin_holds .b _ rfl rfl rfl, rfl, wTwin_hot, rfl, wTwin_changed, by decide +kernel⟩

theorem witness_ImageCommands_8 : ∃ e : EccView, ∃ w : Twin, ∃ s : State, (Settled s) ∧ (s.img.stage = 2) ∧ (s.img.fillBad = false) ∧ (s.img.stgTwin = w) ∧ ((s.showing e).arc.uncorrIn (twinBase w) 32 = false) ∧ (headerOk ((s.showing e).arc.readBytes (twinBase w) 32) = false) :=
  ⟨[], .b, wImg .run { run := some wIm, stage := 2, stgTwin := .b }, ⟨rfl, rfl⟩, by decide +kernel⟩

theorem witness_ImageCommands_9 : ∃ s : State, (Settled s) ∧ (s.img.stage = 2) ∧ (s.img.fillBad = true) :=
  ⟨wImg .run { run := some wIm, stage := 2, fillBad := true }, ⟨rfl, rfl⟩, by decide +kernel⟩

theorem witness_CommitAtBoundary_2 : ∃ src, ∃ s : State, (Settled s) ∧ (s.hears src = true) ∧ (s.mode.ticks = true) ∧ (s.img.stage = 3) :=
  ⟨.card, wImg .quarantine { run := some wIm, stage := 3 }, ⟨rfl, rfl⟩, by decide +kernel⟩

theorem witness_CommitAtBoundary_3 : ∃ src, ∃ s : State, (Settled s) ∧ (s.hears src = true) ∧ (s.mode.ticks = true) ∧ (s.img.stage = 2 ∨ s.img.stage = 4) :=
  ⟨.pcie, wImg .run { run := some wIm, stage := 4 }, ⟨rfl, rfl⟩, by decide +kernel⟩

theorem witness_CommitAtBoundary_4 : ∃ src, ∃ s : State, (Settled s) ∧ (s.hears src = true) ∧ (s.mode.ticks = true) ∧ (s.img.stage ≠ 2) ∧ (s.img.stage ≠ 3) ∧ (s.img.stage ≠ 4) :=
  ⟨.pcie, wImg .safe { run := some wIm, stage := 5 }, ⟨rfl, rfl⟩, by decide +kernel⟩

theorem witness_CommitAtBoundary_5 : ∃ src, ∃ s : State, (Settled s) ∧ (s.hears src = true) ∧ (s.mode.fromArmed = true) ∧ (s.img.stage ≠ 0) ∧ (s.img.stage ≠ 5) :=
  ⟨.card, wImg .maint { run := some wIm, stage := 3, cand := some wIm }, ⟨rfl, rfl⟩, by decide +kernel⟩

theorem witness_CommitAtBoundary_6 : ∃ src, ∃ s : State, (Settled s) ∧ (s.hears src = true) ∧ (s.mode.fromArmed = true) ∧ (s.img.stage = 5) :=
  ⟨.pcie, wImg .run { run := some wIm, stage := 5 }, ⟨rfl, rfl⟩, by decide +kernel⟩

theorem witness_CommitAtBoundary_7 : ∃ src, ∃ s : State, (Settled s) ∧ (s.hears src = true) ∧ (s.mode.fromArmed = true) ∧ (s.img.stage = 0) :=
  ⟨.pcie, wImg .armed { run := some wIm }, ⟨rfl, rfl⟩, by decide +kernel⟩

theorem witness_CommitAtBoundary_8 : ∃ src, ∃ s : State, (Settled s) ∧ (s.hears src = true) ∧ (s.mode = .maint) :=
  ⟨.card, wSt .maint, ⟨rfl, rfl⟩, by decide +kernel⟩

theorem witness_CommitAtBoundary_9 : ∃ k, ∃ q, ∃ w, ∃ d, ∃ p, ∃ s : State, (Settled s) ∧ (s.img.stage = 5) ∧ (s.tck.qDone = true) ∧ (s.arc.prog = none) ∧ (s.arc.erase = none) ∧ (s.arc.weak = []) ∧ (s.arc.newestSelector = some (k, q, w, d)) ∧ (s.arc.selectorPlace = (none, p)) ∧ (p % 256 ≠ 0) :=
  ⟨0, 1, false, 7, 1, { wImg .run { run := some wIm, stage := 5 } with arc := wTwins }, ⟨rfl, rfl⟩, by decide +kernel⟩
end

end Sys2Proof.Tests.P04

/-! ## Witnesses -/

namespace Sys2Proof.Tests.P05
open Sys2Proof Sys2Proof.Machine Sys2Proof.Tests

section
set_option Elab.async false
/-- Task 3 on core 2, with one output slot, released 6 ms into the tick. -/
def wTask : TaskDesc := { id := 3, core := 2, altCore := 4, releaseOfs := 6000, wcet := 1000, outs := [9] }
def wGraph : Image :=
  { wIm with sku := { coreMask := 0xFFFF }, tasks := [wTask], queues := { tables := [[], [], [3]], slots := [{ slot := 9, double := true }], queues := [{ prod := 8, log2 := 3, base := gridBase }, { prod := 1, log2 := 3, base := gridBase + 4096 }] } }
/-- 5.5 ms into tick 5, which computes. -/
def wComp : State :=
  { wSt .run wGraph with tck := { wTck with compute := true, eDone := false, qDone := false }, tim := { mono := 1005500000, dev := 1005500000 }, clk := { coreMhz := 1000 } }
def wJob : Job := { task := 3, tick := 5, gen := 5, core := some 2, startMono := 1005000000 }
def wOn (j : Job) : State := { wComp with sch := { cores := (Vector.replicate 48 {}).set 2 { job := some j } } }
def wRun (op : Nat) : SolveRun := { entry := { op := op, n := 4, k := 10, iterWcc := 100 }, deadline := 1010000000 }

theorem witness_TasksAndTokens_1 : ∃ id, ∃ d, ∃ c, ∃ s : State, (Settled s) ∧ (QuietClock s) ∧ (s.im.task id = some d) ∧ (d.queueIn = false) ∧ ((∀ j ∈ s.jobs, j.task ≠ d.id)) ∧ (s.computing = true) ∧ (s.taskDone d.id s.tck.index = false) ∧ (s.inputsReady d s.tck.index = true) ∧ (s.outsFree d s.tck.index = true) ∧ (s.qoutFree d = true) ∧ (s.edgeBefore (s.tck.boundMono + d.releaseOfs * 1000) = false) ∧ (s.placeOf d = some (some c)) ∧ (s.coreTested c = false) :=
  ⟨3, wTask, 2, wComp, ⟨rfl, rfl⟩, ⟨rfl, rfl, rfl⟩, by decide +kernel⟩

theorem witness_TasksAndTokens_2 : ∃ n, ∃ j, ∃ p, ∃ s : State, (Settled s) ∧ (s.coreUsable n = true) ∧ (s.coreTested n = false) ∧ ((s.core n).job = none) ∧ (s.mode.ticks = true) ∧ (chooseJob n s = some (j, p)) ∧ ((s.taskOf j).kind ≠ 2) :=
  ⟨2, wJob, 1, { wComp with sch := { ready := [wJob] } }, ⟨rfl, rfl⟩, by decide +kernel⟩

theorem witness_TasksAndTokens_3 : ∃ n, ∃ c, ∃ j, ∃ o, ∃ s : State, (Settled s) ∧ (QuietClock s) ∧ (n < 48) ∧ ((s.core n).job = some j) ∧ (j.solve = none) ∧ ((s.core n).stalled = false) ∧ (s.edgeBefore (max j.startMono s.pwr.relockUntil + ceilDiv (c * 1000) (max 1 s.clk.coreMhz)) = false) ∧ ((s.taskOf j).outs = [o]) ∧ ((s.taskOf j).kind ≠ 3) ∧ ((s.taskOf j).kind ≠ 5) ∧ ((s.taskOf j).queueIn = false) ∧ (c ≤ (s.taskOf j).wcet) :=
  ⟨2, 1000, wJob, 9, wOn wJob, ⟨rfl, rfl⟩, ⟨rfl, rfl, rfl⟩, by decide +kernel⟩

theorem witness_TasksAndTokens_4 : ∃ n, ∃ c, ∃ j, ∃ s : State, (Settled s) ∧ (n < 48) ∧ ((s.core n).job = some j) ∧ ((s.core n).stalled = false) ∧ ((s.taskOf j).wcet < c) ∧ (j.wcetSeen = false) :=
  ⟨2, 1001, wJob, wOn wJob, ⟨rfl, rfl⟩, by decide +kernel⟩

theorem witness_SolveStepsAndDeadline_1 : ∃ n, ∃ x, ∃ j, ∃ r, ∃ s : State, (Settled s) ∧ (n < 48) ∧ (s.solving n = some (j, r)) ∧ (s.tim.mono < r.deadline) ∧ ((stepSolve (s.taskOf j) j.tick x r s).1.result = .none) :=
  ⟨2, { residuals := [], jacobian := [] }, { wJob with solve := some (wRun 7) }, wRun 7, wOn { wJob with solve := some (wRun 7) }, ⟨rfl, rfl⟩, by decide +kernel⟩

theorem witness_SolveStepsAndDeadline_2 : ∃ n, ∃ c : SolveCut, ∃ j, ∃ r, ∃ s : State, (Settled s) ∧ (QuietClock s) ∧ (n < 48) ∧ ((s.core n).job = some j) ∧ (j.solve = some r) ∧ (r.result = .none) ∧ (s.edgeBefore r.deadline = false) ∧ (r.entry.single = false) ∧ ((r.entry.direct = true → r.step0 = true)) ∧ (c.stood = .elsewhere) :=
  ⟨2, { stood := .elsewhere, eval := { residuals := [], jacobian := [] }, stores := 1 }, { wJob with solve := some (wRun 7) }, wRun 7, wOn { wJob with solve := some (wRun 7) }, ⟨rfl, rfl⟩, ⟨rfl, rfl, rfl⟩, by decide +kernel⟩

theorem witness_QueuesAndScoreboard_1 : ∃ src, ∃ q, ∃ v, ∃ s : State, (Settled s) ∧ (s.hears src = true) ∧ (s.mode.fromArmed = true) ∧ (q < 256) ∧ ((s.im.queue q).prod = 8) ∧ (tailSteps (s.im.queue q) (s.que q).tail v = some 1) ∧ (1 ≤ s.room q) :=
  ⟨.pcie, 0, 1, wSt .quarantine wGraph, ⟨rfl, rfl⟩, by decide +kernel⟩

theorem witness_QueuesAndScoreboard_2 : ∃ src, ∃ q, ∃ v, ∃ s : State, (Settled s) ∧ (s.hears src = true) ∧ (s.mode.fromArmed = true) ∧ (q < 256) ∧ ((s.im.queue q).prod = 8) ∧ (tailSteps (s.im.queue q) (s.que q).tail v = none) :=
  ⟨.card, 0, 8, wSt .run wGraph, ⟨rfl, rfl⟩, by decide +kernel⟩

theorem witness_QueuesAndScoreboard_3 : ∃ src, ∃ q, ∃ s : State, (Settled s) ∧ (s.hears src = true) ∧ (s.mode.fromArmed = true) ∧ (q < 256) ∧ ((s.im.queue q).prod ≠ 8) :=
  ⟨.pcie, 1, wSt .run wGraph, ⟨rfl, rfl⟩, by decide +kernel⟩

theorem witness_QueuesAndScoreboard_4 : ∃ q, ∃ s : State, (Memory.wf s.mem = true) ∧ (q < 256) ∧ (s.fill q < (s.im.queue q).size) :=
  ⟨0, wSt .run wGraph, by decide +kernel⟩

theorem witness_QueuesAndScoreboard_5 : ∃ q, ∃ s : State, ((s.im.queue q).size ≤ s.fill q) :=
  ⟨0, { wSt .run wGraph with sch := { queues := (Vector.replicate 256 {}).set 0 { tail := 4096 } } }, by decide +kernel⟩

theorem witness_QueuesAndScoreboard_6 : ∃ src, ∃ w : BitVec 13, ∃ d, ∃ s : State, (Settled s) ∧ (s.hears src = true) ∧ (s.mode.fromArmed = true) ∧ (s.im.slot w.toNat = some d) :=
  ⟨.pcie, 9, { slot := 9, double := true }, wSt .run wGraph, ⟨rfl, rfl⟩, by decide +kernel⟩

theorem witness_QueuesAndScoreboard_7 : ∃ src, ∃ w : BitVec 13, ∃ s : State, (Settled s) ∧ (s.hears src = true) ∧ (s.mode.fromArmed = true) ∧ (s.im.slot w.toNat = none) :=
  ⟨.pcie, 8, wSt .run wGraph, ⟨rfl, rfl⟩, by decide +kernel⟩

theorem witness_ConversionTestPort_1 : ∃ src, ∃ s : State, (Settled s) ∧ (s.hears src = true) ∧ (s.mode.fromArmed = true) ∧ ((cvtCfg s.cvt.testCfg.toNat).bad = false) :=
  ⟨.pcie, { wSt .run with cvt := { testCfg := 0x001A } }, ⟨rfl, rfl⟩, by decide +kernel⟩

theorem witness_ConversionTestPort_2 : ∃ src, ∃ s : State, (Settled s) ∧ (s.hears src = true) ∧ (s.mode.fromArmed = true) ∧ ((cvtCfg s.cvt.testCfg.toNat).bad = true) :=
  ⟨.card, { wSt .armed with cvt := { testCfg := 0x000C } }, ⟨rfl, rfl⟩, by decide +kernel⟩
end

end Sys2Proof.Tests.P05

/-! ## Witnesses -/

namespace Sys2Proof.Tests.P08
open Sys2Proof Sys2Proof.Machine Sys2Proof.Tests

section
set_option Elab.async false
def wStream : StreamDecl := { stream := 1, kind := 0, gather := true, window := 50000, limit := 1000 }
def wPorts (p : PortsSec) : Image :=
  { wIm with ports := p, streams := { streams := [wStream] }, queues := { queues := [{ prod := 1, prodIdx := 1, log2 := 3, base := gridBase, dataBase := gridBase + 4096, dataLen := 4096 }] } }
def wBind : CamBinding := { stream := 1, bound := true, dt := 0x2B, width := 16, height := 4, lringLines := 4 }
def wCam (m : Mode) (c : Cam) : State :=
  { wSt m (wPorts { cams := List.replicate 8 { en := true, lanes := 1, bindings := [wBind] } }) with cams := Vector.replicate 8 c }
def wOpen (n : Nat) : Cam := { opens := (Vector.replicate 4 none).set 0 (some { gen := 6, tick := 6, line := n }) }
def wEthIm : PortsSec := { eths := List.replicate 4 { en := true, entries := [{ stream := 1, valid := true }] } }
def wEth (m : Mode) (e : Eth) : State := { wSt m (wPorts wEthIm) with eths := Vector.replicate 4 e }
def wSync : State := { wEth .quarantine { link := true } with tim := { mono := 1019000000, dev := 1019000000, discAct := 1 } }
def wCan (m : Mode) (c : Can) : State :=
  { wSt m (wPorts { cans := List.replicate 2 { en := true, busoffRec := true, filters := [{ id := 5, valid := true, mask := 0x7FF, stream := 1 }] } }) with
    cans := Vector.replicate 2 c }
def wSpi (m : Mode) (c : Spi) : State :=
  { wSt m (wPorts { spis := List.replicate 2 { en := true, cmdLen := 2, readLen := 4, drdyTo := 100, stream := 1, cmd := [1, 2, 3] }, filtDrdy := [1, 2] }) with
    spis := Vector.replicate 2 c }

theorem witness_CameraPorts_1 : ∃ rx, ∃ vc, ∃ b, ∃ d, ∃ s : State, (Settled s) ∧ (s.mode.posts = true) ∧ (s.camBound rx = true) ∧ (rx < 8) ∧ (vc < 4) ∧ (s.bindingsOf rx vc = [b]) ∧ ((s.cam rx).fenced = false) ∧ (tget (s.cam rx).opens b = none) ∧ (s.im.stream (s.binding rx b).stream = some d) ∧ (d.gather = true) ∧ ((s.binding rx b).capAdj = 0) ∧ (s.tim.dev < 2 ^ 64) ∧ (s.tck.ticked = true) ∧ (s.tck.bound ≤ s.tim.dev) ∧ (inWindow d s.tim.dev (s.tck.bound + s.period) = true) ∧ ((s.strm (s.binding rx b).stream).assigned.contains (s.tck.index + 1) = false) :=
  ⟨7, 0, 0, wStream, wCam .armed {}, ⟨rfl, rfl⟩, by decide +kernel⟩

theorem witness_CameraPorts_2 : ∃ rx, ∃ vc, ∃ dt, ∃ b, ∃ f, ∃ bytes : List Byte, ∃ s : State, (Settled s) ∧ (Memory.wf s.mem = true) ∧ (s.mode.posts = true) ∧ (s.camBound rx = true) ∧ (rx < 8) ∧ (b < 4) ∧ (dt ≠ 0x12) ∧ ((s.bindingsOf rx vc).find? (fun b => (s.binding rx b).dt = dt) = some b) ∧ (tget (s.cam rx).opens b = some f) ∧ (f.drop = false) ∧ (f.line + 1 < (s.binding rx b).height) ∧ (bytes.length = (s.binding rx b).lineLen) ∧ (f.damaged ≤ (s.binding rx b).lineErrMax) ∧ (linesUsed rx b f s < (s.binding rx b).lringLines) ∧ (f.line + 1 - f.sent ≠ groupOf s (s.binding rx b)) :=
  ⟨7, 0, 0x2B, 0, { gen := 6, tick := 6, line := 1 }, List.replicate 20 9, wCam .run { wOpen 1 with pos := (Vector.replicate 4 0).set 0 2 }, ⟨rfl, rfl⟩, by decide +kernel⟩

theorem witness_CameraPorts_3 : ∃ rx, ∃ vc, ∃ b, ∃ f, ∃ s : State, (Settled s) ∧ (s.mode.posts = true) ∧ (s.camBound rx = true) ∧ (rx < 8) ∧ (vc < 4) ∧ (b < 4) ∧ (s.bindingsOf rx vc = [b]) ∧ (tget (s.cam rx).opens b = some f) ∧ (f.drop = false) ∧ (f.line = (s.binding rx b).height) :=
  ⟨7, 0, 0, { gen := 6, tick := 6, line := 4 }, wCam .degraded (wOpen 4), ⟨rfl, rfl⟩, by decide +kernel⟩

theorem witness_CameraPorts_4 : ∃ rx, ∃ s : State, (Settled s) ∧ (s.mode.ticks = true) ∧ (s.camBound rx = true) ∧ (rx < 8) :=
  ⟨7, wCam .safe {}, ⟨rfl, rfl⟩, by decide +kernel⟩

theorem witness_CameraPorts_5 : ∃ rx, ∃ s : State, (Settled s) ∧ (s.mode.posts = true) ∧ (s.camBound rx = true) ∧ (rx < 8) :=
  ⟨7, wCam .armed {}, ⟨rfl, rfl⟩, by decide +kernel⟩

theorem witness_CameraPorts_6 : ∃ rx, ∃ s : State, (Settled s) ∧ (s.mode.posts = true) ∧ (s.camBound rx = true) ∧ (rx < 8) :=
  ⟨7, wCam .degraded {}, ⟨rfl, rfl⟩, by decide +kernel⟩

theorem witness_CameraPorts_7 : ∃ rx, ∃ vc, ∃ b, ∃ s : State, (Settled s) ∧ (s.mode.posts = true) ∧ (s.camBound rx = true) ∧ (rx < 8) ∧ (vc < 4) ∧ (s.bindingsOf rx vc = [b]) ∧ (tget (s.cam rx).opens b = none) :=
  ⟨7, 0, 0, wCam .run {}, ⟨rfl, rfl⟩, by decide +kernel⟩

theorem witness_EthernetPort_1 : ∃ p, ∃ bytes : List Byte, ∃ s : State, (Settled s) ∧ (p < 4) ∧ (s.ethOn p = true) ∧ ((s.eth p).link = true) ∧ (64 ≤ bytes.length) ∧ (bytes.length ≤ 2048) :=
  ⟨3, List.replicate 2048 1, wEth .safe { link := true }, ⟨rfl, rfl⟩, by decide +kernel⟩

theorem witness_EthernetPort_2 : ∃ p, ∃ bytes : List Byte, ∃ m, ∃ q, ∃ s : State, (Settled s) ∧ (p < 4) ∧ (s.ethOn p = true) ∧ ((s.eth p).link = true) ∧ (64 ≤ bytes.length) ∧ (bytes.length ≤ 2048) ∧ ((readFrame (bytes.take (bytes.length - 4))).etherType ≠ 0x8808) ∧ ((readFrame (bytes.take (bytes.length - 4))).etherType ≠ 0x88F7) ∧ ((readFrame (bytes.take (bytes.length - 4))).double = false) ∧ (s.mode.posts = true) ∧ ((s.eth p).fenced = false) ∧ ((s.ethPart p).entries.find? (fun m => entryMatches m (readFrame (bytes.take (bytes.length - 4)))) = some m) ∧ (m.capFmt = 0) ∧ (s.im.streamQueue m.stream = some q) ∧ (q < 256) ∧ (s.fill q = 0) ∧ (0 < (s.im.queue q).size) ∧ (bytes.length - 4 ≤ (s.im.queue q).dataLen) :=
  ⟨3, (List.replicate 64 1), { stream := 1, valid := true }, 0, wEth .armed { link := true }, ⟨rfl, rfl⟩, by decide +kernel⟩

theorem witness_EthernetPort_3 : ∃ p, ∃ s : State, (Settled s) ∧ (s.ethOn p = true) :=
  ⟨3, wEth .quarantine {}, ⟨rfl, rfl⟩, by decide +kernel⟩

theorem witness_EthernetPort_4 : ∃ p, ∃ s : State, (Settled s) ∧ (p < 4) ∧ (s.ethOn p = true) ∧ ((s.eth p).link = true) :=
  ⟨3, wEth .run { link := true }, ⟨rfl, rfl⟩, by decide +kernel⟩

theorem witness_EthernetPort_5 : ∃ p, ∃ s : State, (Settled s) ∧ (p < 4) ∧ (s.gptpOn p = true) ∧ (s.tim.discAct = 1) ∧ (s.im.time.gptpPort = p) ∧ (s.ldg.lstate = 0) :=
  ⟨0, wSync, ⟨rfl, rfl⟩, by decide +kernel⟩

theorem witness_EthernetPort_6 : ∃ p, ∃ a, ∃ s : State, (Settled s) ∧ (p < 4) ∧ (s.gptpOn p = true) ∧ ((s.eth p).pdelayT1 = some a) :=
  ⟨3, 1018990000, wEth .run { link := true, pdelayT1 := some 1018990000 }, ⟨rfl, rfl⟩, by decide +kernel⟩

theorem witness_EthernetPort_7 : ∃ p, ∃ s : State, (Settled s) ∧ (p < 4) ∧ (s.gptpOn p = true) :=
  ⟨3, wEth .safe { link := true }, ⟨rfl, rfl⟩, by decide +kernel⟩

theorem witness_EthernetPort_8 : ∃ p, ∃ s : State, (Settled s) ∧ (p < 4) ∧ (s.gptpOn p = true) :=
  ⟨3, wEth .safe { link := true }, ⟨rfl, rfl⟩, by decide +kernel⟩

theorem witness_CanPort_1 : ∃ c, ∃ i, ∃ e, ∃ bytes : List Byte, ∃ f, ∃ q, ∃ s : State, (Settled s) ∧ (c < 2) ∧ (s.canOn c = true) ∧ ((s.canPart c).restricted = false) ∧ ((s.can c).fenced = false) ∧ ((s.can c).rxErr.toNat ≤ 127) ∧ (s.mode.posts = true) ∧ ((s.canPart c).filters.find? (fun f => filterMatches f i e) = some f) ∧ (s.im.streamQueue f.stream = some q) ∧ (q < 256) ∧ (s.fill q = 0) ∧ (0 < (s.im.queue q).size) ∧ (bytes.length ≤ (s.im.queue q).dataLen) :=
  ⟨1, 5, false, [1, 2], { id := 5, valid := true, mask := 0x7FF, stream := 1 }, 0, wCan .run { rxErr := 127 }, ⟨rfl, rfl⟩, by decide +kernel⟩

theorem witness_CanPort_2 : ∃ c, ∃ s : State, (Settled s) ∧ (c < 2) ∧ (s.canOn c = true) ∧ ((s.canPart c).restricted = false) ∧ ((s.can c).txErr.toNat < 256) :=
  ⟨1, wCan .safe { rxErr := 255, txErr := 255 }, ⟨rfl, rfl⟩, by decide +kernel⟩

theorem witness_CanPort_3 : ∃ c, ∃ s : State, (Settled s) ∧ (c < 2) ∧ (s.canOn c = true) ∧ ((s.canPart c).restricted = false) ∧ (248 ≤ (s.can c).txErr.toNat) :=
  ⟨0, wCan .run { txErr := 248 }, ⟨rfl, rfl⟩, by decide +kernel⟩

theorem witness_CanPort_4 : ∃ c, ∃ s : State, (Settled s) ∧ (c < 2) ∧ (s.mode.ticks = true) ∧ ((s.can c).busOff = true) ∧ ((s.canPart c).busoffRec = true) :=
  ⟨1, wCan .quarantine { busOff := true }, ⟨rfl, rfl⟩, by decide +kernel⟩

theorem witness_SpiAndGpio_1 : ∃ n, ∃ s : State, (Settled s) ∧ (n < 2) ∧ (s.spiOn n = true) ∧ ((s.spi n).silent = false) ∧ ((s.spi n).busy = false) :=
  ⟨1, wSpi .armed {}, ⟨rfl, rfl⟩, by decide +kernel⟩

theorem witness_SpiAndGpio_2 : ∃ n, ∃ s : State, (Settled s) ∧ (n < 2) ∧ (s.spiOn n = true) ∧ ((s.spi n).silent = false) ∧ ((s.spi n).busy = true) :=
  ⟨1, wSpi .safe { busy := true }, ⟨rfl, rfl⟩, by decide +kernel⟩

theorem witness_SpiAndGpio_3 : ∃ n, ∃ q, ∃ s : State, (Settled s) ∧ (n < 2) ∧ (s.spiOn n = true) ∧ ((s.spi n).busy = true) ∧ (s.mode.posts = true) ∧ (s.im.streamQueue (s.spiPart n).stream = some q) ∧ (q < 256) ∧ (s.fill q = 0) ∧ (0 < (s.im.queue q).size) ∧ ((s.spiPart n).readLen ≤ (s.im.queue q).dataLen) :=
  ⟨1, 0, wSpi .run { busy := true }, ⟨rfl, rfl⟩, by decide +kernel⟩

theorem witness_SpiAndGpio_4 : ∃ n, ∃ s : State, (Settled s) ∧ (QuietClock s) ∧ (n < 2) ∧ (s.mode.ticks = true) ∧ ((s.spiPart n).en = true) ∧ ((s.spi n).silent = false) :=
  ⟨1, wSpi .quarantine {}, ⟨rfl, rfl⟩, ⟨rfl, rfl, rfl⟩, by decide +kernel⟩

theorem witness_SpiAndGpio_5 : ∃ n, ∃ s : State, (Settled s) ∧ (s.pinHeard n = true) :=
  ⟨15, wSt .run, ⟨rfl, rfl⟩, by decide +kernel⟩

theorem witness_SpiAndGpio_6 : ∃ n, ∃ s : State, (Settled s) ∧ (s.pinHeard n = true) :=
  ⟨0, wSt .quarantine, ⟨rfl, rfl⟩, by decide +kernel⟩
end

end Sys2Proof.Tests.P08

/-! ## Witnesses -/

namespace Sys2Proof.Tests.P09
open Sys2Proof Sys2Proof.Machine Sys2Proof.Tests

section
set_option Elab.async false
def wGather : State :=
  { wSt .run { wIm with streams := { gatherSlot := 9, streams := [{ stream := 1, kind := 3, gather := true, limit := 2000 }] }, queues := { slots := [{ slot := 9, double := true }] } } with
    tck := { wTck with compute := true, phase := 0, gDone := false, eDone := false, qDone := false }, tim := { mono := 1001000000, dev := 1001000000 } }
def wGot : State := { wGather with aln := { streams := (Vector.replicate 32 {}).set 1 { delivered := true } } }
def wEgo : State := { wSt .maint { wIm with ego := some {} } with ego := { hist := [{ x := 5 }, { y := 7 }] } }
def wEmit (m : Mode) (t : List (Nat × Token)) (c : Bool) : State :=
  { wSt m { wIm with queues := { gridSlot := 9, slots := [{ slot := 9, double := true }] } } with
    tck := { wTck with compute := c, phase := 1, eDone := false, qDone := false }, tim := { mono := 1014000000, dev := 1014000000 }, sch := { tokens := t } }
def wTok : Token := { present := true, gen := 5, consLeft := 1, oldest := { stamp := 99 }, mask := 2, vote := 4 }
def wWait (r : Route) : Wait :=
  { chan := .a, route := r, flags := 0, tick := 5, validity := 0, isEmpty := true, isSafe := false, oldest := {}, mask := 0, vote := 0, floors := [] }
def wWaits (l : List Wait) : State :=
  { wSt .run { wIm with outA := { en := true, routes := 2 } } with
    tck := { wTck with compute := true, phase := 2, qDone := false }, tim := { mono := 1016000000, dev := 1016000000 }, outb := { waits := l }, crd := { linkUp := true } }

theorem witness_GatherAndEgoMotion_1 : ∃ n, ∃ d, ∃ s : State, (Settled s) ∧ (QuietClock s) ∧ (s.im.stream n = some d) ∧ (d.gather = true) ∧ (d.kind ≠ 0) ∧ (s.gatherOpen = true) ∧ (s.registers = true) ∧ (s.edgeBefore (s.tck.boundMono + d.limit * 1000) = false) ∧ ((s.strm d.stream).delivered = false) :=
  ⟨1, { stream := 1, kind := 3, gather := true, limit := 2000 }, wGather, ⟨rfl, rfl⟩, ⟨rfl, rfl, rfl⟩, by decide +kernel⟩

theorem witness_GatherAndEgoMotion_2 : ∃ n, ∃ d, ∃ s : State, (Settled s) ∧ (QuietClock s) ∧ (s.im.stream n = some d) ∧ (s.gatherOpen = true) ∧ (s.registers = true) ∧ (s.edgeBefore (s.tck.boundMono + d.limit * 1000) = false) ∧ ((s.strm d.stream).delivered = true) :=
  ⟨1, { stream := 1, kind := 3, gather := true, limit := 2000 }, wGot, ⟨rfl, rfl⟩, ⟨rfl, rfl, rfl⟩, by decide +kernel⟩

theorem witness_GatherAndEgoMotion_3 : ∃ s : State, (Settled s) ∧ (QuietClock s) ∧ (s.gatherOpen = true) ∧ (s.registers = true) ∧ (s.isManager = false) :=
  ⟨wGather, ⟨rfl, rfl⟩, ⟨rfl, rfl, rfl⟩, by decide +kernel⟩

theorem witness_GatherAndEgoMotion_4 : ∃ e, ∃ s : State, (Settled s) ∧ (QuietClock s) ∧ (s.im.ego = some e) ∧ (s.mode.fromArmed = true) ∧ (s.edgeBefore (nextUpdate s) = false) :=
  ⟨{}, wEgo, ⟨rfl, rfl⟩, ⟨rfl, rfl, rfl⟩, by decide +kernel⟩

theorem witness_GatherAndEgoMotion_5 : ∃ src, ∃ a : BitVec 9, ∃ p, ∃ s : State, (Settled s) ∧ (s.hears src = true) ∧ (s.mode.fromArmed = true) ∧ (s.ego.hist[BitVec.toNat a]? = some p) :=
  ⟨.pcie, 1, { y := 7 }, wEgo, ⟨rfl, rfl⟩, by decide +kernel⟩

theorem witness_GatherAndEgoMotion_6 : ∃ src, ∃ a : BitVec 9, ∃ s : State, (Settled s) ∧ (s.hears src = true) ∧ (s.mode.fromArmed = true) ∧ (s.ego.hist.length ≤ BitVec.toNat a) :=
  ⟨.card, 2, wEgo, ⟨rfl, rfl⟩, by decide +kernel⟩

theorem witness_EmitAndFrames_1 : ∃ x, ∃ s : State, (Settled s) ∧ (QuietClock s) ∧ (s.tck.ticked = true) ∧ (s.mode = .run ∨ s.mode = .degraded) ∧ (s.tck.gDone = true) ∧ (s.tck.eDone = false) ∧ (s.tck.compute = true) ∧ (s.gridToken = some x) :=
  ⟨wTok, wEmit .degraded [(19, wTok)] true, ⟨rfl, rfl⟩, ⟨rfl, rfl, rfl⟩, by decide +kernel⟩

theorem witness_EmitAndFrames_2 : ∃ s : State, (Settled s) ∧ (QuietClock s) ∧ (s.tck.ticked = true) ∧ (s.mode = .run) ∧ (s.tck.gDone = true) ∧ (s.tck.eDone = false) ∧ (s.tck.compute = true) ∧ (s.gridToken = none) ∧ ((satInc s.tck.consecOvr).toNat < s.im.tick.ovrLimit) ∧ (mapOf s 50 = (0, 0, 0)) :=
  ⟨{ wEmit .run [] true with img := { run := some { (wEmit .run [] true).im with faultMap := { entries := List.replicate 92 { react := 0 } } } } }, ⟨rfl, rfl⟩, ⟨rfl, rfl, rfl⟩, by decide +kernel⟩

theorem witness_EmitAndFrames_3 : ∃ s : State, (Settled s) ∧ (QuietClock s) ∧ (s.tck.ticked = true) ∧ (s.mode = .armed) ∧ (s.tck.gDone = true) ∧ (s.tck.eDone = false) ∧ (s.tck.compute = false) :=
  ⟨wEmit .armed [] false, ⟨rfl, rfl⟩, ⟨rfl, rfl, rfl⟩, by decide +kernel⟩

theorem witness_EmitAndFrames_4 : ∃ c, ∃ r, ∃ w, ∃ s : State, (Settled s) ∧ (s.outb.waits.find? (fun w => w.chan = c && w.route = r) = some w) ∧ (s.tck.eDone = true) ∧ (s.tck.qDone = false) ∧ (s.mode.ticks = true) ∧ (s.tim.mono ≤ s.tck.qMono) ∧ (routeReady w s = true) :=
  ⟨.a, 1, wWait 1, wWaits [wWait 1, wWait 4], ⟨rfl, rfl⟩, by decide +kernel⟩

theorem witness_EmitAndFrames_5 : ∃ s : State, (Settled s) ∧ (QuietClock s) ∧ (s.tck.ticked = true) ∧ (s.mode.ticks = true) ∧ (s.tck.eDone = true) ∧ (s.tck.qDone = false) :=
  ⟨wWaits [wWait 1, wWait 4], ⟨rfl, rfl⟩, ⟨rfl, rfl, rfl⟩, by decide +kernel⟩
end

end Sys2Proof.Tests.P09

/-! ## Witnesses -/

namespace Sys2Proof.Tests.P10
open Sys2Proof Sys2Proof.Machine Sys2Proof.Tests

section
set_option Elab.async false
def wIncIm : Image :=
  { wIm with ports := { incTrig := true }, incident := some { en := true, pre := 2, post := 2, slots := 4, sumSlot := 9, sumKib := 1, ringBase := gridBase, trigEn := 31 },
             queues := { slots := [{ slot := 9, len := 1024 }] }, arcArea := { areas := [{ kind := 1, bank := 1, first := 20, count := 4 }] } }
def wInc (m : Mode) (v : Inc) : State := { wSt m wIncIm with inc := v }
def wRec : Record := { seq := 1, first := 20, bank := true, preCount := 1, post := 2, endPos := 3 }
/-- The INCIDENT area holds the OPEN word of record 7 and no CLOSE word. -/
def wFound : Arc :=
  { words := [((0x08010000 + 12 * 0x40000) / 32, .prog (leBytes 4 0x52544956 ++ leBytes 4 7 ++ [0, 2, 1, 0] ++ zeros 16 ++ leBytes 4 (0xFFFFFFFF - 7)))] }
def wVit (a : Arc) : State := { wInc .run { vstate := .ready } with arc := a }
def wDay : Nat := 86400000000000
def wLdg (l : Ldg) (locked : Bool) : State :=
  { wSt .maint { wIm with ledger := some { slack := 10, ckpt := 600, features := [(1, 0xFFF)] } } with
    ldg := l, tim := { mono := 1019000000, dev := 3 * wDay, locked := locked } }
def wRunLdg : Ldg := { lstate := 2, bounds := [wDay, 2 * wDay, 4 * wDay], first := 1, period := some 1, backstop := some 5000, elapsedNs := 5000 }
def wSeq (m : Mode) (t : Nat) (q : ArcSeq) (a : Arc) : State := { wSt m with arc := { a with seq := some q }, tim := { mono := t, dev := t } }
def wKey1 : ArcSeq := { src := .pcie, step := .key1, key1 := 1019000000, key2 := 0 }
def wKey2 : ArcSeq := { src := .pcie, step := .key2, key1 := 1018000000, key2 := 1018000000 }
def wAt (st : SeqStep) : ArcSeq := { src := .pcie, step := st, key1 := 1018000000, key2 := 1018000000 }
/-- A command of the host at its last write, 1 ms after the second key. -/
def wCmd (c : Byte) (a : Arc) : State := wSeq .run 1019000000 (wAt (.cmd c)) a
def wLast (c : Byte) (a : Nat) (ds : List Word) (arc : Arc) : State := wSeq .quarantine 1019000000 (wAt (.addr c a ds (ds.length + 1))) arc
def wOpen : Arc := { base0 := 0, base1 := 0 }
def wErase (susp pend : Bool) (since : Nat) : ArcErase := { owner := .host .pcie, code := 0x20, bank := true, index := 517, since := since, suspended := susp, pendHost := pend }
def wSelArc : Arc := { words := [(0, .prog (selectorBytes 1 .a 7))] }
def wWin (a : Arc) : State := { wSt .run with arc := { a with winPage := 4 } }

theorem witness_Vitrine_1 : ∃ src, ∃ s : State, (Settled s) ∧ (s.hears src = true) ∧ (s.mode = .run ∨ s.mode = .degraded ∨ s.mode = .safe) ∧ (s.incOn = true) ∧ (s.incSec.trigEn.testBit 3 = true) ∧ (s.inc.vstate = .ready) ∧ (s.arc.prog = none) ∧ (s.incSec.post ≠ 0) ∧ (s.inc.ringFill < 128) :=
  ⟨.pcie, wInc .safe { vstate := .ready, ringFill := 127 }, ⟨rfl, rfl⟩, by decide +kernel⟩

theorem witness_Vitrine_2 : ∃ s : State, (Settled s) ∧ (s.pinHeard 15 = true) ∧ (s.im.ports.incTrig = true) ∧ (s.mode = .run ∨ s.mode = .degraded ∨ s.mode = .safe) ∧ (s.incOn = true) ∧ (s.incSec.trigEn.testBit 1 = true) ∧ (s.inc.vstate = .ready) ∧ (s.arc.prog = none) ∧ (s.incSec.post ≠ 0) ∧ (s.inc.ringFill < 128) :=
  ⟨wInc .degraded { vstate := .ready }, ⟨rfl, rfl⟩, by decide +kernel⟩

theorem witness_Vitrine_3 : ∃ s : State, (Settled s) ∧ (s.pinHeard 15 = true) ∧ (s.im.ports.incTrig = true) :=
  ⟨wInc .run { vstate := .ready }, ⟨rfl, rfl⟩, by decide +kernel⟩

theorem witness_Vitrine_4 : ∃ src, ∃ s : State, (Settled s) ∧ (s.hears src = true) ∧ (s.mode = .armed ∨ s.mode = .quarantine ∨ s.mode = .maint) :=
  ⟨.card, wInc .quarantine { vstate := .ready }, ⟨rfl, rfl⟩, by decide +kernel⟩

theorem witness_Vitrine_5 : ∃ r, ∃ b, ∃ s : State, (Settled s) ∧ (s.mode.fromArmed = true) ∧ (s.arc.prog = none) ∧ (s.inc.record = some r) ∧ (r.capturing = true) ∧ (nextBlock s = some b) :=
  ⟨wRec, { slot := 0, tick := 5, flags := 0, pos := some 0 }, wInc .run { vstate := .commit, record := some wRec, ring := [{ slot := 0, tick := 5, flags := 0, pos := some 0 }] }, ⟨rfl, rfl⟩, by decide +kernel⟩

theorem witness_Vitrine_6 : ∃ s : State, (Settled s) ∧ (s.mode.fromArmed = true) ∧ (s.arrayFree = true) ∧ (s.sealReady = true) :=
  ⟨wInc .run { vstate := .commit, record := some { wRec with capturing := false } }, ⟨rfl, rfl⟩, by decide +kernel⟩

theorem witness_Vitrine_7 : ∃ s : State, (Settled s) ∧ (s.mode.fromArmed = true ∨ s.mode = .load) ∧ (s.arrayFree = true) ∧ (s.inc.vstate = .preparing) :=
  ⟨wInc .load { vstate := .preparing, prepLeft := 1 }, ⟨rfl, rfl⟩, by decide +kernel⟩

theorem witness_Vitrine_8 : ∃ f, ∃ s : State, (Settled s) ∧ (s.mode.fromArmed = true) ∧ (s.arc.prog = none) ∧ (s.incOn = true) ∧ (s.inc.record = none) ∧ (newestRec (recordsIn s.arc s.incArea) = some f) ∧ (f.isSealed = false) ∧ (s.arc.bitErrs = []) :=
  ⟨(newestRec (recordsIn wFound { kind := 1, bank := 1, first := 20, count := 4 })).get!, wVit wFound, ⟨rfl, rfl⟩, by decide +kernel⟩

theorem witness_Turnstile_1 : ∃ p, ∃ b, ∃ s : State, (Settled s) ∧ (s.mode ≠ .removal) ∧ (s.backstopBefore s.tim.mono = false) ∧ (s.ldg.on = true) ∧ (s.tim.locked = true) ∧ (s.ldg.period = some p) ∧ (s.ldg.endOf p = some b) ∧ (b ≤ s.tim.dev) ∧ (s.ldg.holding s.tim.dev = some (p + 1)) :=
  ⟨1, 2 * wDay, wLdg wRunLdg true, ⟨rfl, rfl⟩, by decide +kernel⟩

theorem witness_Turnstile_2 : ∃ p, ∃ b, ∃ s : State, (Settled s) ∧ (s.mode ≠ .removal) ∧ (s.backstopBefore s.tim.mono = false) ∧ (s.ldg.on = true) ∧ (s.tim.locked = true) ∧ (s.ldg.period = none) ∧ (s.ldg.bounds.head? = some b) ∧ (b ≤ s.tim.dev) ∧ (s.ldg.holding s.tim.dev = some p) :=
  ⟨2, wDay, wLdg { wRunLdg with period := none } true, ⟨rfl, rfl⟩, by decide +kernel⟩

theorem witness_Turnstile_3 : ∃ p, ∃ limit, ∃ s : State, (Settled s) ∧ (s.mode ≠ .removal) ∧ (s.ldg.on = true) ∧ (s.tim.locked = false) ∧ (s.ldg.period = some p) ∧ (s.ldg.backstop = some limit) ∧ (limit ≤ s.ldg.elapsedNs) ∧ (s.edgeBefore s.tim.mono = false) :=
  ⟨1, 5000, wLdg wRunLdg false, ⟨rfl, rfl⟩, by decide +kernel⟩

theorem witness_Turnstile_4 : ∃ s : State, (Settled s) ∧ (QuietClock s) ∧ (s.mode ≠ .removal) ∧ (s.ldg.on = true) ∧ (s.arc.prog = none) ∧ (s.edgeBefore (s.ldg.ckptMono + s.ledgerSec.ckpt * 1000000000) = false) :=
  ⟨wLdg { wRunLdg with elapsedNs := 0 } true, ⟨rfl, rfl⟩, ⟨rfl, rfl, rfl⟩, by decide +kernel⟩

theorem witness_Turnstile_5 : ∃ src, ∃ s : State, (Settled s) ∧ (s.hears src = true) ∧ (s.mode.fromArmed = true) ∧ (s.ldg.bounds.length ≤ 64) ∧ (s.ldg.mayAppend s.ldg.bnd.toNat = true) :=
  ⟨.pcie, wLdg { wRunLdg with bnd := BitVec.ofNat 64 (5 * wDay) } true, ⟨rfl, rfl⟩, by decide +kernel⟩

theorem witness_Turnstile_6 : ∃ src, ∃ s : State, (Settled s) ∧ (s.hears src = true) ∧ (s.mode.fromArmed = true) ∧ (s.ldg.mayAppend s.ldg.bnd.toNat = false) :=
  ⟨.card, wLdg { wRunLdg with bnd := 1 } true, ⟨rfl, rfl⟩, by decide +kernel⟩

theorem witness_ArchiveSequence_1 : ∃ src, ∃ s : State, (Settled s) ∧ (s.hears src = true) ∧ (s.mode.fromArmed = true) ∧ (s.arc.seq = none) :=
  ⟨.pcie, wSt .maint, ⟨rfl, rfl⟩, by decide +kernel⟩

theorem witness_ArchiveSequence_2 : ∃ src, ∃ q, ∃ s : State, (Settled s) ∧ (s.hears src = true) ∧ (s.mode.fromArmed = true) ∧ (s.arc.seq = some q) ∧ (q.src = src) ∧ (q.step = .key1) ∧ (s.tim.mono ≤ q.key1 + 1000) :=
  ⟨.pcie, wKey1, wSeq .run 1019001000 wKey1 {}, ⟨rfl, rfl⟩, by decide +kernel⟩

theorem witness_ArchiveSequence_3 : ∃ src, ∃ k, ∃ q, ∃ s : State, (Settled s) ∧ (s.hears src = true) ∧ (s.mode.fromArmed = true) ∧ (s.arc.seq = some q) ∧ (q.src = src) ∧ (q.step = .key1) ∧ (s.tim.mono ≤ q.key1 + 1000) ∧ (k ≠ 0x6C) :=
  ⟨.pcie, 0x6D, wKey1, wSeq .run 1019001000 wKey1 {}, ⟨rfl, rfl⟩, by decide +kernel⟩

theorem witness_ArchiveSequence_4 : ∃ src, ∃ q, ∃ s : State, (Settled s) ∧ (s.hears src = true) ∧ (s.mode.fromArmed = true) ∧ (s.arc.seq = some q) ∧ (q.src ≠ src) ∧ (q.step = .key1) ∧ (s.tim.mono ≤ q.key1 + 1000) :=
  ⟨.card, wKey1, wSeq .run 1019001000 wKey1 {}, ⟨rfl, rfl⟩, by decide +kernel⟩

theorem witness_ArchiveSequence_5 : ∃ src, ∃ q, ∃ s : State, (Settled s) ∧ (s.hears src = true) ∧ (s.mode.fromArmed = true) ∧ (s.arc.seq = some q) ∧ (q.src = src) ∧ (q.step = .key2) ∧ (s.tim.mono ≤ q.key2 + 1000000) :=
  ⟨.pcie, wKey2, wSeq .run 1019000000 wKey2 {}, ⟨rfl, rfl⟩, by decide +kernel⟩

theorem witness_ArchiveSequence_6 : ∃ src, ∃ c, ∃ q, ∃ s : State, (Settled s) ∧ (s.hears src = true) ∧ (s.mode.fromArmed = true) ∧ (s.arc.seq = some q) ∧ (q.src = src) ∧ (q.step = .cmd c) ∧ (arcWords c ≠ 0) ∧ (s.tim.mono ≤ q.key2 + 1000000) :=
  ⟨.pcie, 0x50, wAt (.cmd 0x50), wSeq .run 1019000000 (wAt (.cmd 0x50)) {}, ⟨rfl, rfl⟩, by decide +kernel⟩

theorem witness_ArchiveSequence_7 : ∃ q, ∃ s : State, (Settled s) ∧ (QuietClock s) ∧ (s.arc.seq = some q) ∧ (q.step = .key1) ∧ (s.edgeBefore (q.key1 + 1000) = false) :=
  ⟨wKey1, wSeq .run 1019000500 wKey1 {}, ⟨rfl, rfl⟩, ⟨rfl, rfl, rfl⟩, by decide +kernel⟩

theorem witness_ArchiveSequence_8 : ∃ q, ∃ s : State, (Settled s) ∧ (QuietClock s) ∧ (s.arc.seq = some q) ∧ (q.step ≠ .key1) ∧ (s.edgeBefore (q.key2 + 1000000) = false) :=
  ⟨wKey2, wSeq .run 1018500000 wKey2 {}, ⟨rfl, rfl⟩, ⟨rfl, rfl, rfl⟩, by decide +kernel⟩

theorem witness_ProgramWord_1 : ∃ src, ∃ a, ∃ b, ∃ i, ∃ ds : List Word, ∃ s : State, (AwaitsLastWord src 0x10 a ds s) ∧ (ds.length = 7) ∧ (a % 32 = 0) ∧ (sectorOf a = some (b, i)) ∧ (s.fixedArea b i = false) ∧ (s.arc.wp b i = false) ∧ (s.arrayFree = true) ∧ (s.devRuns = false) ∧ (s.reeraseDue b = false) ∧ (s.crd.ejState = 0) ∧ (s.arc.isBlank a = true) :=
  ⟨.pcie, 0x08000040, true, 0, List.replicate 7 (0xAABBCCDD : Word), wLast 0x10 0x08000040 (List.replicate 7 (0xAABBCCDD : Word)) wOpen, ⟨⟨rfl, rfl⟩, by decide +kernel, by decide +kernel, _, rfl, rfl, rfl, by decide +kernel⟩, by decide +kernel⟩

theorem witness_ProgramWord_2 : ∃ src, ∃ a, ∃ b, ∃ i, ∃ ds : List Word, ∃ s : State, (AwaitsLastWord src 0x10 a ds s) ∧ (ds.length = 7) ∧ (a % 32 = 0) ∧ (sectorOf a = some (b, i)) ∧ (s.fixedArea b i = false) ∧ (s.arc.wp b i = false) ∧ (s.arrayFree = true) ∧ (s.devRuns = false) ∧ (s.reeraseDue b = false) ∧ (s.crd.ejState = 0) ∧ (s.arc.isBlank a = false) :=
  ⟨.pcie, 0x08000040, true, 0, List.replicate 7 (0xAABBCCDD : Word), wLast 0x10 0x08000040 (List.replicate 7 (0xAABBCCDD : Word)) { wOpen with words := [(0x08000040 / 32, .torn)] }, ⟨⟨rfl, rfl⟩, by decide +kernel, by decide +kernel, _, rfl, rfl, rfl, by decide +kernel⟩, by decide +kernel⟩

theorem witness_ProgramWord_3 : ∃ src, ∃ a, ∃ b, ∃ i, ∃ ds : List Word, ∃ s : State, (AwaitsLastWord src 0x10 a ds s) ∧ (ds.length = 7) ∧ (a % 32 = 0) ∧ (sectorOf a = some (b, i)) ∧ (s.fixedArea b i = true ∨ s.arc.wp b i = true) :=
  ⟨.pcie, 0x40, false, 0, List.replicate 7 (0xAABBCCDD : Word), wLast 0x10 0x40 (List.replicate 7 (0xAABBCCDD : Word)) wOpen, ⟨⟨rfl, rfl⟩, by decide +kernel, by decide +kernel, _, rfl, rfl, rfl, by decide +kernel⟩, by decide +kernel⟩

theorem witness_ProgramWord_4 : ∃ p, ∃ s : State, (Settled s) ∧ (s.arc.prog = some p) ∧ (p.since ≤ s.tim.mono) ∧ (p.code = 0x10) :=
  ⟨{ owner := .host .pcie, code := 0x10, addr := 64, data := [1, 2, 3] }, { wSt .run with arc := { prog := some { owner := .host .pcie, code := 0x10, addr := 64, data := [1, 2, 3] }, words := [(1, .torn), (3, .torn)] } }, ⟨rfl, rfl⟩, by decide +kernel⟩

theorem witness_EraseSuspendResume_1 : ∃ src, ∃ v : Word, ∃ b, ∃ i, ∃ s : State, (AwaitsAddress src 0x20 s) ∧ (BitVec.toNat v % 0x10000000 = sectorBase b i) ∧ (sectorOf (sectorBase b i) = some (b, i)) ∧ (8 ≤ i) ∧ (s.fixedArea b i = false) ∧ (s.arc.wp b i = false) ∧ (s.arrayFree = true) ∧ (s.devRuns = false) ∧ (s.reeraseDue b = false) ∧ (s.crd.ejState = 0) :=
  ⟨.pcie, BitVec.ofNat 32 (sectorBase true 509), true, 509, wCmd 0x20 wOpen, ⟨⟨rfl, rfl⟩, by decide +kernel, by decide +kernel, _, rfl, rfl, rfl, by decide +kernel⟩, by decide +kernel⟩

theorem witness_EraseSuspendResume_2 : ∃ src, ∃ v : Word, ∃ b, ∃ i, ∃ s : State, (AwaitsAddress src 0x21 s) ∧ (BitVec.toNat v % 0x10000000 = sectorBase b i) ∧ (sectorOf (sectorBase b i) = some (b, i)) ∧ (i < 8) ∧ (s.fixedArea b i = false) ∧ (s.arc.wp b i = false) ∧ (s.arrayFree = true) ∧ (s.devRuns = false) ∧ (s.reeraseDue b = false) ∧ (s.crd.ejState = 0) :=
  ⟨.pcie, BitVec.ofNat 32 (sectorBase false 7), false, 7, wCmd 0x21 wOpen, ⟨⟨rfl, rfl⟩, by decide +kernel, by decide +kernel, _, rfl, rfl, rfl, by decide +kernel⟩, by decide +kernel⟩

theorem witness_EraseSuspendResume_3 : ∃ src, ∃ e, ∃ s : State, (Settled s) ∧ (s.arc.erase = some e) ∧ (e.suspended = false) ∧ (e.byDevice = false) ∧ (e.since ≤ s.tim.mono) ∧ (e.owner = .host src) :=
  ⟨.pcie, wErase false false 0, { wSt .load with arc := { erase := some (wErase false false 0), hdrs := [(hdrKey true 517, { count := 3, incomplete := true })], words := [(1, .torn), (sectorBase true 517 / 32, .torn)] } }, ⟨rfl, rfl⟩, by decide +kernel⟩

theorem witness_EraseSuspendResume_4 : ∃ b, ∃ i, ∃ l, ∃ s : State, (Settled s) ∧ (s.mode.fromArmed = true) ∧ (s.arrayFree = true) ∧ (s.arc.markedList = (b, i) :: l) :=
  ⟨true, 9, [], { wSt .maint with arc := { hdrs := [(hdrKey true 9, { count := 3, incomplete := true })] } }, ⟨rfl, rfl⟩, by decide +kernel⟩

theorem witness_EraseSuspendResume_5 : ∃ src, ∃ v : Word, ∃ e, ∃ s : State, (AwaitsAddress src 0x30 s) ∧ (BitVec.toNat v % 0x10000000 = 0) ∧ (s.arc.erase = some e) ∧ (e.suspended = false) ∧ (e.byDevice = false) ∧ (e.pendHost = false) ∧ (e.hostSusp = false) ∧ (s.crd.ejState = 0) ∧ (e.since + 1000000 ≤ s.tim.mono) :=
  ⟨.pcie, 0, wErase false false 1018000000, wCmd 0x30 { wOpen with erase := some (wErase false false 1018000000) }, ⟨⟨rfl, rfl⟩, by decide +kernel, by decide +kernel, _, rfl, rfl, rfl, by decide +kernel⟩, by decide +kernel⟩

theorem witness_EraseSuspendResume_6 : ∃ src, ∃ v : Word, ∃ e, ∃ s : State, (AwaitsAddress src 0x30 s) ∧ (BitVec.toNat v % 0x10000000 = 0) ∧ (s.arc.erase = some e) ∧ (e.suspended = false) ∧ ((e.byDevice = true → s.tim.mono < s.arc.devUntil)) ∧ (e.pendHost = false) ∧ (e.hostSusp = false) ∧ (s.crd.ejState = 0) ∧ (s.tim.mono < e.minMet) :=
  ⟨.pcie, 0, wErase false false 1018000001, wCmd 0x30 { wOpen with erase := some (wErase false false 1018000001) }, ⟨⟨rfl, rfl⟩, by decide +kernel, by decide +kernel, _, rfl, rfl, rfl, by decide +kernel⟩, by decide +kernel⟩

theorem witness_EraseSuspendResume_7 : ∃ src, ∃ v : Word, ∃ e, ∃ s : State, (AwaitsAddress src 0x30 s) ∧ (BitVec.toNat v % 0x10000000 = 0) ∧ (s.arc.erase = some e) ∧ (e.suspended = false) ∧ (e.byDevice = true) ∧ (e.since ≤ s.tim.mono) ∧ (e.pendHost = false) ∧ (e.hostSusp = false) ∧ (s.crd.ejState = 0) ∧ (s.tim.mono < s.arc.devUntil) :=
  ⟨.pcie, 0, { wErase false false 5 with byDevice := true }, wCmd 0x30 { wOpen with erase := some { wErase false false 5 with byDevice := true }, devUntil := 1019000001 }, ⟨⟨rfl, rfl⟩, by decide +kernel, by decide +kernel, _, rfl, rfl, rfl, by decide +kernel⟩, by decide +kernel⟩

theorem witness_EraseSuspendResume_8 : ∃ e, ∃ s : State, (Settled s) ∧ (QuietClock s) ∧ (s.arc.erase = some e) ∧ (e.pendHost = true) ∧ (e.suspended = false) ∧ (e.byDevice = false) ∧ (s.edgeBefore (e.since + 1000000) = false) :=
  ⟨wErase false true 1018500000, { wSt .run with arc := { erase := some (wErase false true 1018500000) } }, ⟨rfl, rfl⟩, ⟨rfl, rfl, rfl⟩, by decide +kernel⟩

theorem witness_EraseSuspendResume_9 : ∃ src, ∃ v : Word, ∃ e, ∃ s : State, (AwaitsAddress src 0x31 s) ∧ (BitVec.toNat v % 0x10000000 = 0) ∧ (s.arc.prog = none) ∧ (s.devRuns = false) ∧ (s.arc.erase = some e) ∧ (e.suspended = true) ∧ (e.byDevice = false) :=
  ⟨.pcie, 0, wErase true false 5, wCmd 0x31 { wOpen with erase := some (wErase true false 5) }, ⟨⟨rfl, rfl⟩, by decide +kernel, by decide +kernel, _, rfl, rfl, rfl, by decide +kernel⟩, by decide +kernel⟩

theorem witness_ArchiveResults_1 : ∃ src, ∃ v : Word, ∃ s : State, (AwaitsAddress src 0x01 s) ∧ (BitVec.toNat v % 0x10000000 = 0) :=
  ⟨.pcie, 0, wCmd 0x01 {}, ⟨⟨rfl, rfl⟩, by decide +kernel, by decide +kernel, _, rfl, rfl, rfl, by decide +kernel⟩, by decide +kernel⟩

theorem witness_ArchiveResults_2 : ∃ src, ∃ v : Word, ∃ b, ∃ i, ∃ s : State, (AwaitsAddress src 0x40 s) ∧ (BitVec.toNat v % 0x10000000 = sectorBase b i) ∧ (sectorOf (sectorBase b i) = some (b, i)) ∧ (s.arrayFree = true) ∧ (s.devRuns = false) ∧ ((s.arc.hdr b i).incomplete = false) :=
  ⟨.pcie, BitVec.ofNat 32 (sectorBase true 517), true, 517, wCmd 0x40 { hdrs := [(hdrKey true 517, { count := 0xFFFFFF })] }, ⟨⟨rfl, rfl⟩, by decide +kernel, by decide +kernel, _, rfl, rfl, rfl, by decide +kernel⟩, by decide +kernel⟩

theorem witness_ArchiveResults_3 : ∃ src, ∃ v : Word, ∃ b, ∃ i, ∃ s : State, (AwaitsAddress src 0x40 s) ∧ (BitVec.toNat v % 0x10000000 = sectorBase b i) ∧ (sectorOf (sectorBase b i) = some (b, i)) ∧ (s.arrayFree = true) ∧ (s.devRuns = false) ∧ ((s.arc.hdr b i).incomplete = true) :=
  ⟨.pcie, BitVec.ofNat 32 (sectorBase true 517), true, 517, wCmd 0x40 { hdrs := [(hdrKey true 517, { count := 3, incomplete := true })] }, ⟨⟨rfl, rfl⟩, by decide +kernel, by decide +kernel, _, rfl, rfl, rfl, by decide +kernel⟩, by decide +kernel⟩

theorem witness_ArchiveResults_4 : ∃ src, ∃ v : Word, ∃ b, ∃ i, ∃ s : State, (AwaitsAddress src 0x70 s) ∧ (BitVec.toNat v % 0x10000000 = sectorBase b i) ∧ (sectorOf (sectorBase b i) = some (b, i)) ∧ (s.arrayFree = true) ∧ (s.devRuns = false) ∧ ((s.arc.hdr b i).incomplete = false) :=
  ⟨.pcie, BitVec.ofNat 32 (sectorBase true 3), true, 3, wCmd 0x70 {}, ⟨⟨rfl, rfl⟩, by decide +kernel, by decide +kernel, _, rfl, rfl, rfl, by decide +kernel⟩, by decide +kernel⟩

theorem witness_ArchiveResults_5 : ∃ p, ∃ s : State, (Settled s) ∧ (s.arc.prog = some p) ∧ (p.since ≤ s.tim.mono) ∧ (p.code = 0x70) :=
  ⟨{ owner := .host .pcie, code := 0x70, addr := 0x2000 }, { wSt .run with arc := { prog := some { owner := .host .pcie, code := 0x70, addr := 0x2000 } } }, ⟨rfl, rfl⟩, by decide +kernel⟩

theorem witness_ArchiveResults_6 : ∃ src, ∃ i, ∃ d : Word, ∃ s : State, (AwaitsLastWord src 0x50 (sectorBase false i) [] s) ∧ (sectorOf (sectorBase false i) = some (false, i)) ∧ (s.arc.locked = false) ∧ (1 ≤ BitVec.toNat d % 1024) ∧ (i + BitVec.toNat d % 1024 ≤ 518) ∧ (BitVec.toNat d / 1024 % 0x200000 = 0) :=
  ⟨.pcie, 8, 0x800001FE, wLast 0x50 (sectorBase false 8) [] wOpen, ⟨⟨rfl, rfl⟩, by decide +kernel, by decide +kernel, _, rfl, rfl, rfl, by decide +kernel⟩, by decide +kernel⟩

theorem witness_ArchiveResults_7 : ∃ src, ∃ a, ∃ b, ∃ i, ∃ d : Word, ∃ s : State, (AwaitsLastWord src 0x50 a [] s) ∧ (sectorOf a = some (b, i)) ∧ (a = sectorBase b i) ∧ (s.arc.locked = true) ∧ (1 ≤ BitVec.toNat d % 1024) ∧ (i + BitVec.toNat d % 1024 ≤ 518) ∧ (BitVec.toNat d / 1024 % 0x200000 = 0) :=
  ⟨.pcie, sectorBase true 0, true, 0, 0x00000206, wLast 0x50 (sectorBase true 0) [] { wOpen with locked := true }, ⟨⟨rfl, rfl⟩, by decide +kernel, by decide +kernel, _, rfl, rfl, rfl, by decide +kernel⟩, by decide +kernel⟩

theorem witness_ArchiveResults_8 : ∃ src, ∃ v : Word, ∃ s : State, (AwaitsAddress src 0x58 s) ∧ (BitVec.toNat v % 0x10000000 = 0) :=
  ⟨.pcie, 0, wCmd 0x58 {}, ⟨⟨rfl, rfl⟩, by decide +kernel, by decide +kernel, _, rfl, rfl, rfl, by decide +kernel⟩, by decide +kernel⟩

theorem witness_ArchiveResults_9 : ∃ src, ∃ d : Word, ∃ pre, ∃ k, ∃ seq, ∃ x, ∃ y, ∃ s : State, (AwaitsLastWord src 0x60 0 [] s) ∧ (BitVec.toNat d < 2) ∧ (s.arrayFree = true) ∧ (s.devRuns = false) ∧ (s.reeraseDue false = false) ∧ (swapPrefix (if BitVec.getLsbD d 0 then .b else .a) s = some pre) ∧ (s.arc.newestSelector = some (k, seq, x, y)) ∧ (seq ≠ 0xFFFFFFFE) ∧ ((s.arc.selectorPlace).1 = none) :=
  ⟨.pcie, 0, 0, 0, 1, false, 7, wLast 0x60 0 [] wSelArc, ⟨⟨rfl, rfl⟩, by decide +kernel, by decide +kernel, _, rfl, rfl, rfl, by decide +kernel⟩, by decide +kernel⟩

theorem witness_ArchiveResults_10 : ∃ p, ∃ s : State, (Settled s) ∧ (s.arc.prog = some p) ∧ (p.since ≤ s.tim.mono) ∧ (p.code = 0x60) ∧ (p.addr / 32 % 256 ≠ 0) ∧ (s.arc.weak.contains (p.addr / 32) = false) :=
  ⟨{ owner := .host .pcie, code := 0x60, addr := 32, data := selectorBytes 2 .b 9 }, { wSt .run with arc := { wSelArc with prog := some { owner := .host .pcie, code := 0x60, addr := 32, data := selectorBytes 2 .b 9 } } }, ⟨rfl, rfl⟩, by decide +kernel⟩

theorem witness_ArchiveWindow_1 : ∃ src, ∃ o, ∃ b, ∃ i, ∃ bytes : List Byte, ∃ s : State, (Settled s) ∧ (s.hears src = true) ∧ (s.mode.fromArmed = true) ∧ (o % 4 = 0) ∧ (sectorOf (s.winAddr o) = some (b, i)) ∧ (s.hides b i = false) ∧ (s.occupied b = false) ∧ (s.arc.line3 = none) ∧ ((s.arc.hdr b i).incomplete = false) ∧ (wfind s.arc.words (s.winAddr o / 32) = some (.prog bytes)) :=
  ⟨.pcie, 36, true, 0, zeros 4 ++ [1, 2, 3, 4] ++ zeros 24, wWin { words := [(0x400001, .prog (zeros 4 ++ [1, 2, 3, 4] ++ zeros 24))] }, ⟨rfl, rfl⟩, by decide +kernel⟩

theorem witness_ArchiveWindow_2 : ∃ src, ∃ o, ∃ s : State, (Settled s) ∧ (s.hears src = true) ∧ (s.mode.fromArmed = true) ∧ (o % 4 = 0) ∧ (sectorOf (s.winAddr o) = none) :=
  ⟨.card, 0x1FFFFFC, { wSt .run with arc := { winPage := 7 } }, ⟨rfl, rfl⟩, by decide +kernel⟩

theorem witness_ArchiveWindow_3 : ∃ src, ∃ n, ∃ s : State, (Settled s) ∧ (s.hears src = true) ∧ (s.mode.fromArmed = true) ∧ (n ≠ 0) :=
  ⟨.pcie, 3, wSt .maint, ⟨rfl, rfl⟩, by decide +kernel⟩

theorem witness_ArchiveWindow_4 : ∃ src, ∃ s : State, (Settled s) ∧ (s.hears src = true) ∧ (s.mode.fromArmed = true) :=
  ⟨.pcie, wSt .armed, ⟨rfl, rfl⟩, by decide +kernel⟩

theorem witness_ArchiveWindow_5 : ∃ s : State, (Settled s) ∧ (s.mode.fromArmed = true) ∧ (s.arrayFree = true) ∧ (s.arc.fw0 = true) ∧ (s.arc.fw1 = false) ∧ (s.arc.markedList = []) ∧ (s.arc.bitErrs = []) :=
  ⟨{ wSt .safe with arc := { fw0 := true } }, ⟨rfl, rfl⟩, by decide +kernel⟩

theorem witness_ClearStatusClears_1 : ∃ src, ∃ v : Word, ∃ s : State, (AwaitsAddress src 0x7F s) ∧ (BitVec.toNat v % 0x10000000 = 0) :=
  ⟨.pcie, 0, wCmd 0x7F { erase := some (wErase true false 5), stat := 0x0B, echo := 0x10, worn := true, done := true }, ⟨⟨rfl, rfl⟩, by decide +kernel, by decide +kernel, _, rfl, rfl, rfl, by decide +kernel⟩, by decide +kernel⟩

theorem witness_ArchiveWindowAccepts_1 : ∃ src, ∃ o, ∃ w, ∃ s : State, (Settled s) ∧ (s.hears src = true) ∧ (o % 4 ≠ 0 ∨ w = false) :=
  ⟨.pcie, 2, false, wSt .run, ⟨rfl, rfl⟩, by decide +kernel⟩

theorem witness_ArchiveWindowAccepts_2 : ∃ src, ∃ o, ∃ s : State, (Settled s) ∧ (s.hears src = true) ∧ (s.mode = .hold ∨ s.mode = .selftest) ∧ (o % 4 = 0) :=
  ⟨.card, 4, { gctl := { mode := .selftest } }, ⟨rfl, rfl⟩, by decide +kernel⟩

theorem witness_ArchiveWindowAccepts_3 : ∃ src, ∃ s : State, (Settled s) ∧ (s.hears src = true) ∧ (s.mode = .load ∨ s.mode.fromArmed = true) :=
  ⟨.pcie, { gctl := { mode := .load } }, ⟨rfl, rfl⟩, by decide +kernel⟩
end

end Sys2Proof.Tests.P10

/-! ## Witnesses -/

namespace Sys2Proof.Tests.P13
open Sys2Proof Sys2Proof.Machine Sys2Proof.Tests

section
set_option Elab.async false
def wCard (m : Mode) (c : Crd) : State := { wSt m with crd := { c with linkUp := true, lanes := 3 } }
def wFrame : CardFrame := frameOf 0x11 9 0x3E00C [1, 2, 3, 4]
def wReq (cmd tag : Byte) (a : Word) (p : List Byte) : CardReq := { cmd := cmd, tag := tag, address := a, payload := p, code := 5 }
def wHold : State := { crd := { linkUp := true } }
def wHost : Image := { wIm with queues := { queues := [{ prod := 8, log2 := 3, base := gridBase + 64, dataBase := gridBase + 4096, dataLen := 64 }] } }
def wHostCard (r : CardReq) : State := { wSt .run wHost with crd := { linkUp := true, queue := [r] }, mem := [(gridBase + 320, 7)] }
def wGridIm : Image := { wIm with outA := { en := true, routes := 2, clBuf := gridBase } }
def wServe (r : CardReq) : State := { wSt .safe wGridIm with crd := { linkUp := true, queue := [r] }, outb := { a := { clBuf := some (false, 5, 64) } }, mem := [(gridBase + 60, 9)] }
def wPut : CardReq := wReq 0x40 3 0 [0x10, 7, 4, 0, 0, 0, 0, 0, 1, 2, 3, 4]
def wGone : State := { wSt .removal with inc := { record := some { seq := 1, first := 20, bank := true, preCount := 1, post := 2, endPos := 3 } } }
def wPwr (m : Mode) (p : Pwr) : State := { wSt m { wIm with power := { floor := 300, base := 100, consumers := List.replicate 64 (10, 0) } } with pwr := p }
def wFabIm : Image := { wIm with fabric := some { portEn := 15, settle := 10 } }
def wWorker : State := { wSt .run wFabIm with fab := { role := 1, addr := 5, mgr := 1 } }
def wManager : State :=
  { wSt .run wFabIm with
    fab := { role := 3, addr := 1, mgr := 1, members := [{ addr := 5, mstate := 1 }], routes := [{ addr := 5, port := 3, hops := 1 }],
             ports := (Vector.replicate 4 {}).set 3 { pstate := 3 } }
    pwr := { fabAddr := 5 } }
def wMap (m : Mode) (e : MapEntry) (f : FaultMap := {}) : State := { wSt m { wIm with faultMap := { f with entries := List.replicate 92 e } } with flt := {} }
def wFltRec (a : Bool) (d : Nat) : FaultRec := { det := d, react := 2, state := 5, first := 0, last := 0, lastTick := 0, detail := 77, active := a }
def wRecs (l : List FaultRec) : State := { wSt .safe with flt := { records := l } }
def wExt (m : Mode) (hb : Bool) (pat : BitVec 2) : State := { wMap m { react := 0 } { extEn := true, extHb := hb } with flt := { extPat := pat } }
def wTst (t : Tst) (m : Nat) : State :=
  { wSt .run { wIm with selfTest := { slices := true }, sku := { coreMask := 0xFFFF } } with tst := t, tim := { mono := m, dev := m }, clk := { coreMhz := 1000 } }
def wSlice (x : Target) (inc : Bool) : Slice := { target := x, startMono := 1018000000, latestEnd := 1019930000, incomplete := inc }

theorem witness_CardRequestsArrive_1 : ∃ f : CardFrame, ∃ s : State, (Settled s) ∧ (s.cardOn = true) ∧ (frameWhole f = true) ∧ (f.length ≤ 4096) ∧ (f.length % 4 = 0) ∧ (cardCodes.contains f.cmd = true) ∧ (f.cmd ≠ 0x5F) ∧ ((∀ r ∈ s.crd.queue, r.tag ≠ f.tag)) ∧ (s.crd.queue.length < 8) ∧ (cardVerdict f.cmd s = none) :=
  ⟨wFrame, wHold, ⟨rfl, rfl⟩, by decide +kernel⟩

theorem witness_CardRequestsArrive_2 : ∃ f : CardFrame, ∃ s : State, (Settled s) ∧ (s.cardOn = true) ∧ (frameWhole f = true) ∧ (f.length ≤ 4096) ∧ (f.length % 4 = 0) ∧ (cardCodes.contains f.cmd = true) ∧ (f.cmd ≠ 0x5F) ∧ ((∀ r ∈ s.crd.queue, r.tag ≠ f.tag)) ∧ (8 ≤ s.crd.queue.length) :=
  ⟨wFrame, wCard .run { queue := (List.range 8).map fun i => wReq 0x11 (BitVec.ofNat 8 (i + 10)) 0 [] }, ⟨rfl, rfl⟩, by decide +kernel⟩

theorem witness_CardRequestsArrive_3 : ∃ f : CardFrame, ∃ s : State, (Settled s) ∧ (s.cardOn = true) ∧ (4096 < f.length ∨ f.length % 4 ≠ 0) :=
  ⟨{ wFrame with length := 6 }, wCard .armed {}, ⟨rfl, rfl⟩, by decide +kernel⟩

theorem witness_CardRequestsArrive_4 : ∃ f : CardFrame, ∃ s : State, (Settled s) ∧ (s.cardOn = true) ∧ (f.length ≤ 4096) ∧ (f.length % 4 = 0) ∧ (frameWhole f = false) :=
  ⟨{ wFrame with crc := wFrame.crc ^^^ 1 }, wHold, ⟨rfl, rfl⟩, by decide +kernel⟩

theorem witness_CardRequestsArrive_5 : ∃ s : State, (Settled s) ∧ (s.cardOn = true) :=
  ⟨wCard .safe {}, ⟨rfl, rfl⟩, by decide +kernel⟩

theorem witness_CardRequestsArrive_6 : ∃ tag, ∃ target, ∃ h, ∃ q, ∃ r, ∃ s : State, (Settled s) ∧ (s.cardOn = true) ∧ (s.crd.queue = h :: q) ∧ (h.tag ≠ target) ∧ (h.tag ≠ tag) ∧ ((∀ x ∈ q, x.tag ≠ tag)) ∧ (q.find? (fun x => x.tag = target) = some r) :=
  ⟨2, 3, wReq 0x10 1 0 [], [wReq 0x11 3 0 []], wReq 0x11 3 0 [], wCard .armed { queue := [wReq 0x10 1 0 [], wReq 0x11 3 0 []] }, ⟨rfl, rfl⟩, by decide +kernel⟩

theorem witness_CardRequestsArrive_7 : ∃ tag, ∃ target, ∃ s : State, (Settled s) ∧ (s.cardOn = true) ∧ ((∀ x ∈ s.crd.queue, x.tag ≠ tag ∧ x.tag ≠ target)) :=
  ⟨2, 3, wHold, ⟨rfl, rfl⟩, by decide +kernel⟩

theorem witness_CardRequestsArrive_8 : ∃ s : State, (Settled s) ∧ (s.mode.answers = true) ∧ (s.crd.linkUp = false) :=
  ⟨wSt .quarantine, ⟨rfl, rfl⟩, by decide +kernel⟩

theorem witness_CardRequestsArrive_9 : ∃ s : State, (Settled s) ∧ ((∀ r q, s.crd.queue = r :: q → r.verdict.isSome = true)) ∧ (s.cardOn = true) :=
  ⟨wCard .run { queue := [{ wReq 0x20 1 0 [] with verdict := some 1 }] }, ⟨rfl, rfl⟩, by intro r q h; cases h; rfl, by decide +kernel⟩

theorem witness_CardReadsAndWrites_1 : ∃ r, ∃ q, ∃ s : State, (CardFront 0x01 r q s) ∧ (r.address = 0) ∧ (r.payload = []) :=
  ⟨wReq 0x01 5 0 [], [], { wHold with crd := { linkUp := true, queue := [wReq 0x01 5 0 []] } }, ⟨⟨rfl, rfl⟩, by decide +kernel, rfl, rfl, rfl⟩, by decide +kernel⟩

theorem witness_CardReadsAndWrites_2 : ∃ r, ∃ q, ∃ s : State, (CardFront 0x02 r q s) ∧ (r.address = 0) ∧ (r.payload = []) :=
  ⟨wReq 0x02 5 0 [], [], wCard .run { queue := [wReq 0x02 5 0 []] }, ⟨⟨rfl, rfl⟩, by decide +kernel, rfl, rfl, rfl⟩, by decide +kernel⟩

theorem witness_CardReadsAndWrites_3 : ∃ r, ∃ q, ∃ a, ∃ rep, ∃ n, ∃ s : State, (CardFront 0x10 r q s) ∧ (regRange r = some (a, rep)) ∧ (cardCount r 4 256 = some n) :=
  ⟨wReq 0x10 5 0x40000000 [0, 1, 0, 0], [], 0, true, 256, wCard .run { queue := [wReq 0x10 5 0x40000000 [0, 1, 0, 0]] }, ⟨⟨rfl, rfl⟩, by decide +kernel, rfl, rfl, rfl⟩, by decide +kernel⟩

theorem witness_CardReadsAndWrites_4 : ∃ r, ∃ q, ∃ s : State, (CardFront 0x11 r q s) ∧ (s.mode.fromArmed = true) ∧ (regRange r = some (0x3E00C, false)) ∧ (r.payload.length = 4) :=
  ⟨wReq 0x11 5 0x3E00C [1, 2, 3, 4], [], wCard .run { queue := [wReq 0x11 5 0x3E00C [1, 2, 3, 4]] }, ⟨⟨rfl, rfl⟩, by decide +kernel, rfl, rfl, rfl⟩, by decide +kernel⟩

theorem witness_CardReadsAndWrites_5 : ∃ r, ∃ q, ∃ o, ∃ n, ∃ s : State, (CardFront 0x20 r q s) ∧ (s.mode.fromArmed = true) ∧ (BitVec.getLsbD r.address 31 = false) ∧ (cardCount r 32 4096 = some n) ∧ (gridRange r n = some o) :=
  ⟨wReq 0x20 5 0 [64, 0, 0, 0], [], 0, 64, { wCard .armed { queue := [wReq 0x20 5 0 [64, 0, 0, 0]] } with mem := [(gridBase + 5, 7)] }, ⟨⟨rfl, rfl⟩, by decide +kernel, rfl, rfl, rfl⟩, by decide +kernel⟩

theorem witness_CardReadsAndWrites_6 : ∃ r, ∃ q, ∃ o, ∃ s : State, (CardFront 0x21 r q s) ∧ (MemoryOk s) ∧ (r.payload.length = 4) ∧ (gridRange r 4 = some o) ∧ (s.hostRange (gridBase + o) 4 = true) :=
  ⟨wReq 0x21 5 316 [1, 2, 3, 4], [], 316, wHostCard (wReq 0x21 5 316 [1, 2, 3, 4]), ⟨⟨rfl, rfl⟩, by decide +kernel, rfl, rfl, rfl⟩, rfl, by decide +kernel⟩

theorem witness_CardMailboxEjectRemoval_1 : ∃ r, ∃ q, ∃ n, ∃ b, ∃ tick, ∃ len, ∃ s : State, (CardFront 0x30 r q s) ∧ (BitVec.getLsbD r.address 31 = false) ∧ (cardCount r 4 4096 = some n) ∧ (s.im.outA.routes.testBit 1 = true) ∧ (s.outb.a.clBuf = some (b, tick, len)) ∧ (BitVec.toNat r.address % 4 = 0) ∧ (BitVec.toNat r.address + n ≤ len) :=
  ⟨wReq 0x30 5 60 [4, 0, 0, 0], [], 4, false, 5, 64, wServe (wReq 0x30 5 60 [4, 0, 0, 0]), ⟨⟨rfl, rfl⟩, by decide +kernel, rfl, rfl, rfl⟩, by decide +kernel⟩

theorem witness_CardMailboxEjectRemoval_2 : ∃ r, ∃ q, ∃ m, ∃ s : State, (CardFront 0x40 r q s) ∧ (r.address = 0) ∧ (readMbx r.payload = some m) ∧ (r.payload.length = 8 + at16 r.payload 2) :=
  ⟨wPut, [], { type := 0x10, tag := 7, payload := [1, 2, 3, 4] }, wCard .run { queue := [wPut] }, ⟨⟨rfl, rfl⟩, by decide +kernel, rfl, rfl, rfl⟩, by decide +kernel⟩

theorem witness_CardMailboxEjectRemoval_3 : ∃ r, ∃ q, ∃ m, ∃ ms, ∃ s : State, (CardFront 0x41 r q s) ∧ (r.address = 0) ∧ (r.payload = []) ∧ (s.mbx.outCard = m :: ms) :=
  ⟨wReq 0x41 5 0 [], [], { type := 0x90, tag := 7, payload := [1, 2, 3, 4] }, [], { wCard .run { queue := [wReq 0x41 5 0 []] } with mbx := { outCard := [{ type := 0x90, tag := 7, payload := [1, 2, 3, 4] }] } }, ⟨⟨rfl, rfl⟩, by decide +kernel, rfl, rfl, rfl⟩, by decide +kernel⟩

theorem witness_CardMailboxEjectRemoval_4 : ∃ r, ∃ q, ∃ s : State, (CardFront 0x50 r q s) ∧ (r.address = 0) ∧ (r.payload = []) ∧ (s.crd.ejState = 0) ∧ (s.mode.ticks = true) :=
  ⟨wReq 0x50 5 0 [], [], wCard .degraded { queue := [wReq 0x50 5 0 []] }, ⟨⟨rfl, rfl⟩, by decide +kernel, rfl, rfl, rfl⟩, by decide +kernel⟩

theorem witness_CardMailboxEjectRemoval_5 : ∃ s : State, (Settled s) ∧ (s.ejectDrained = true) :=
  ⟨wCard .maint { ejState := 1 }, ⟨rfl, rfl⟩, by decide +kernel⟩

theorem witness_CardMailboxEjectRemoval_6 : ∃ s : State, (Settled s) ∧ (s.mode ≠ .off) ∧ (s.mode ≠ .removal) :=
  ⟨{ wCard .run {} with arc := { erase := some { owner := .device, code := 0x20, bank := true, index := 9 } } }, ⟨rfl, rfl⟩, by decide +kernel⟩

theorem witness_CardMailboxEjectRemoval_7 : ∃ s : State, (Settled s) ∧ (s.mode = .removal) ∧ (s.pins.quiescent = false) ∧ (s.pins.resetWaits = false) :=
  ⟨wGone, ⟨rfl, rfl⟩, by decide +kernel⟩

theorem witness_PowerCommands_1 : ∃ s : State, (Settled s) ∧ (QuietClock s) ∧ (s.mode ≠ .off) ∧ (s.mode ≠ .removal) ∧ (s.edgeBefore (max (ceilDiv s.tim.mono 1000) (s.pwr.window + 1) * 1000) = false) :=
  ⟨wPwr .maint { window := 1019000 }, ⟨rfl, rfl⟩, ⟨rfl, rfl, rfl⟩, by decide +kernel⟩

theorem witness_PowerCommands_2 : ∃ s : State, (Settled s) ∧ (s.mode ≠ .off) ∧ (s.pwr.alertPin = false) :=
  ⟨wPwr .hold {}, ⟨rfl, rfl⟩, by decide +kernel⟩

theorem witness_PowerCommands_3 : ∃ s : State, (Settled s) :=
  ⟨wPwr .off { alertPin := true }, ⟨rfl, rfl⟩⟩

theorem witness_PowerCommands_4 : ∃ src, ∃ v : Word, ∃ s : State, (Settled s) ∧ (s.hears src = true) ∧ (s.mode.fromArmed = true) ∧ (s.isWorker = false) ∧ (s.pwrFloor ≤ BitVec.toNat v) ∧ (BitVec.toNat v ≤ s.ceiling) :=
  ⟨.pcie, 300, wPwr .armed {}, ⟨rfl, rfl⟩, by decide +kernel⟩

theorem witness_PowerCommands_5 : ∃ src, ∃ v : Word, ∃ s : State, (Settled s) ∧ (s.hears src = true) ∧ (s.mode.fromArmed = true) ∧ (s.isWorker = false) ∧ (BitVec.toNat v < s.pwrFloor) ∧ (BitVec.toNat v ≤ s.ceiling) :=
  ⟨.card, 299, wPwr .safe {}, ⟨rfl, rfl⟩, by decide +kernel⟩

theorem witness_PowerCommands_6 : ∃ src, ∃ v : Word, ∃ s : State, (Settled s) ∧ (s.hears src = true) ∧ (s.mode.fromArmed = true) ∧ (s.isWorker = false) ∧ (s.ceiling < BitVec.toNat v) :=
  ⟨.pcie, 751, wPwr .run {}, ⟨rfl, rfl⟩, by decide +kernel⟩

theorem witness_PowerCommands_7 : ∃ src, ∃ s : State, (Settled s) ∧ (s.hears src = true) ∧ (s.mode.fromArmed = true) ∧ (s.isWorker = true) :=
  ⟨.pcie, wWorker, ⟨rfl, rfl⟩, by decide +kernel⟩

theorem witness_PowerCommands_8 : ∃ src, ∃ s : State, (Settled s) ∧ (s.hears src = true) ∧ (s.mode.fromArmed = true) ∧ (s.isManager = false) :=
  ⟨.pcie, wWorker, ⟨rfl, rfl⟩, by decide +kernel⟩

theorem witness_PowerCommands_9 : ∃ src, ∃ m, ∃ e, ∃ s : State, (Settled s) ∧ (s.hears src = true) ∧ (s.mode.fromArmed = true) ∧ (s.isManager = true) ∧ (s.fab.member (BitVec.setWidth 12 s.pwr.fabAddr) = some m) ∧ (m.mstate = 1) ∧ (s.routeOf m.addr = some e) ∧ (e.port < 4) ∧ ((s.port e.port).up = true) :=
  ⟨.pcie, { addr := 5, mstate := 1 }, { addr := 5, port := 3, hops := 1 }, wManager, ⟨rfl, rfl⟩, by decide +kernel⟩

theorem witness_PowerCommands_10 : ∃ p, ∃ s : State, (Settled s) ∧ (s.mode ≠ .off) ∧ (p < 7) :=
  ⟨6, { wSt .run with clk := { lock := 0x7F } }, ⟨rfl, rfl⟩, by decide +kernel⟩

theorem witness_PowerCommands_11 : ∃ s : State, (Settled s) ∧ (s.mode ≠ .off) :=
  ⟨wSt .selftest, ⟨rfl, rfl⟩, by decide +kernel⟩

theorem witness_DetectorReactions_1 : ∃ d, ∃ s : State, (Settled s) ∧ (s.mode ≠ .off) ∧ (s.mode ≠ .removal) ∧ (d < 92) ∧ (d ≠ 86) ∧ (d ≠ 87) :=
  ⟨91, wMap .hold {}, ⟨rfl, rfl⟩, by decide +kernel⟩

theorem witness_DetectorReactions_2 : ∃ p, ∃ n, ∃ a : Bool, ∃ b : Bool, ∃ x : Word, ∃ s : State, (Settled s) ∧ (s.mode ≠ .off) ∧ (s.mode ≠ .removal) ∧ (a ≠ b) ∧ (s.pins.faultPair = some (p, n)) ∧ (BitVec.getLsbD x 1 = p) ∧ (BitVec.getLsbD x 0 = n) :=
  ⟨true, false, false, true, 2, { wMap .run {} with pins := { faultPair := some (true, false) } }, ⟨rfl, rfl⟩, by decide +kernel⟩

theorem witness_DetectorReactions_3 : ∃ p, ∃ n, ∃ a : Bool, ∃ b : Bool, ∃ x : Word, ∃ s : State, (Settled s) ∧ (s.mode = .run) ∧ (a ≠ b) ∧ (s.pins.faultPair = some (p, n)) ∧ (BitVec.getLsbD x 1 ≠ p ∨ BitVec.getLsbD x 0 ≠ n) ∧ (mapOf s 87 = (0, 0, 0)) ∧ (s.flt.active.getLsbD 87 = false) ∧ (s.flt.recOf 87 = none) ∧ (s.flt.records.length < 64) :=
  ⟨true, false, true, false, 1, { wMap .run { react := 0 } with pins := { faultPair := some (true, false) } }, ⟨rfl, rfl⟩, by decide +kernel⟩

theorem witness_DetectorReactions_4 : ∃ d, ∃ s : State, (Settled s) ∧ (s.mode ≠ .off) ∧ (s.mode ≠ .removal) ∧ (d < 92) ∧ (d ≠ 86) ∧ (isLevel d = false) ∧ (mapOf s d = (0, 0, 0)) ∧ (s.flt.recOf d = none) ∧ (s.flt.records.length < 64) ∧ (s.flt.line.getLsbD d = false) :=
  ⟨2, wMap .safe { react := 0 }, ⟨rfl, rfl⟩, by decide +kernel⟩

theorem witness_DetectorReactions_5 : ∃ d, ∃ s : State, (Settled s) ∧ (s.mode = .run) ∧ (s.gctl.everArmed = true) ∧ (d < 92) ∧ (d ≠ 86) ∧ (isLevel d = false) ∧ (mapOf s d = (2, 0, 0)) :=
  ⟨0, wMap .run { react := 2 }, ⟨rfl, rfl⟩, by decide +kernel⟩

theorem witness_DetectorReactions_6 : ∃ d, ∃ s : State, (Settled s) ∧ (s.mode = .run) ∧ (s.gctl.everArmed = true) ∧ (s.fab.role ≠ roleManager) ∧ (d < 92) ∧ (d ≠ 86) ∧ (isLevel d = false) ∧ (mapOf s d = (3, 0, 0)) :=
  ⟨91, wMap .run { react := 3 }, ⟨rfl, rfl⟩, by decide +kernel⟩

theorem witness_DetectorReactions_7 : ∃ d, ∃ s : State, (Settled s) ∧ (s.mode = .run) ∧ (s.pins.scan = none) ∧ (d < 92) ∧ (d ≠ 86) ∧ (isLevel d = false) ∧ (mapOf s d = (4, 0, 0)) :=
  ⟨50, wMap .run { react := 4 }, ⟨rfl, rfl⟩, by decide +kernel⟩

theorem witness_DetectorReactions_8 : ∃ d, ∃ s : State, (Settled s) ∧ (s.mode = .run) ∧ (d < 92) ∧ (d ≠ 86) ∧ (mapOf s d = (0, 0, 0)) ∧ (s.flt.active.getLsbD d = false) ∧ (s.flt.recOf d = none) ∧ (s.flt.records.length < 64) :=
  ⟨66, wMap .run { react := 0 }, ⟨rfl, rfl⟩, by decide +kernel⟩

theorem witness_FaultRecordsAndExtFault_1 : ∃ src, ∃ i : BitVec 6, ∃ r, ∃ s : State, (Settled s) ∧ (s.hears src = true) ∧ (s.mode.fromArmed = true) ∧ (s.flt.records[BitVec.toNat i]? = some r) :=
  ⟨.pcie, 1, wFltRec true 66, wRecs [wFltRec false 0, wFltRec true 66], ⟨rfl, rfl⟩, by decide +kernel⟩

theorem witness_FaultRecordsAndExtFault_2 : ∃ src, ∃ i : BitVec 6, ∃ s : State, (Settled s) ∧ (s.hears src = true) ∧ (s.mode.fromArmed = true) ∧ (s.flt.records.length ≤ BitVec.toNat i) :=
  ⟨.pcie, 2, wRecs [wFltRec false 0, wFltRec true 66], ⟨rfl, rfl⟩, by decide +kernel⟩

theorem witness_FaultRecordsAndExtFault_3 : ∃ src, ∃ d : Byte, ∃ r, ∃ s : State, (Settled s) ∧ (s.hears src = true) ∧ (s.mode.fromArmed = true) ∧ (s.flt.recOf (BitVec.toNat d) = some r) ∧ (r.active = false) ∧ (s.flt.active.getLsbD (BitVec.toNat d) = false) :=
  ⟨.card, 0, wFltRec false 0, wRecs [wFltRec false 0, wFltRec true 66], ⟨rfl, rfl⟩, by decide +kernel⟩

theorem witness_FaultRecordsAndExtFault_4 : ∃ src, ∃ d : Byte, ∃ r, ∃ s : State, (Settled s) ∧ (s.hears src = true) ∧ (s.mode.fromArmed = true) ∧ (s.flt.recOf (BitVec.toNat d) = some r) ∧ (r.active = true) :=
  ⟨.card, 66, wFltRec true 66, wRecs [wFltRec false 0, wFltRec true 66], ⟨rfl, rfl⟩, by decide +kernel⟩

theorem witness_FaultRecordsAndExtFault_5 : ∃ src, ∃ s : State, (Settled s) ∧ (s.hears src = true) ∧ (s.mode.fromArmed = true) :=
  ⟨.pcie, wRecs [wFltRec false 0, wFltRec true 66], ⟨rfl, rfl⟩, by decide +kernel⟩

theorem witness_FaultRecordsAndExtFault_6 : ∃ p, ∃ n, ∃ s : State, (Settled s) ∧ (QuietClock s) ∧ (s.mode.healthy = true) ∧ (s.im.faultMap.heartbeat = true) ∧ (s.pins.faultPair = some (p, n)) ∧ (s.edgeBefore ((s.tim.mono / 500000 + 1) * 500000) = false) :=
  ⟨true, false, { wMap .run {} { heartbeat := true } with pins := { faultPair := some (true, false) } }, ⟨rfl, rfl⟩, ⟨rfl, rfl, rfl⟩, by decide +kernel⟩

theorem witness_FaultRecordsAndExtFault_7 : ∃ s : State, (Settled s) ∧ (s.extOn = false) :=
  ⟨wSt .run, ⟨rfl, rfl⟩, by decide +kernel⟩

theorem witness_FaultRecordsAndExtFault_8 : ∃ s : State, (Settled s) ∧ (s.extOn = true) ∧ (s.extHb = true) ∧ (s.mode.answers = true) ∧ (s.flt.extPat ≠ 2) :=
  ⟨wExt .run true 1, ⟨rfl, rfl⟩, by decide +kernel⟩

theorem witness_FaultRecordsAndExtFault_9 : ∃ s : State, (Settled s) ∧ (s.extOn = true) ∧ (s.mode.answers = true) ∧ (s.flt.active.getLsbD 86 = false) ∧ (mapOf s 86 = (0, 0, 0)) :=
  ⟨wExt .safe false 0, ⟨rfl, rfl⟩, by decide +kernel⟩

theorem witness_FaultRecordsAndExtFault_10 : ∃ s : State, (Settled s) ∧ (QuietClock s) ∧ (s.extOn = true) ∧ (s.extHb = true) ∧ (s.mode.answers = true) ∧ (s.flt.active.getLsbD 86 = false) ∧ (mapOf s 86 = (0, 0, 0)) ∧ (s.edgeBefore (max s.flt.hbMono s.gctl.armedMono + 2000000) = false) :=
  ⟨wExt .maint true 1, ⟨rfl, rfl⟩, ⟨rfl, rfl, rfl⟩, by decide +kernel⟩

theorem witness_SelfTestSlices_1 : ∃ rs, ∃ s : State, (Settled s) ∧ (s.mayTry = true) ∧ (s.targetIdle (targetAt s.rotNext) = true) ∧ (s.tim.mono ≤ s.latestStart (targetAt s.rotNext)) ∧ (s.sliceGranted rs (targetAt s.rotNext) = true) ∧ (s.inRephase = false) :=
  ⟨[], wTst { rotPos := 1 } 1018100000, ⟨rfl, rfl⟩, by decide +kernel⟩

theorem witness_SelfTestSlices_2 : ∃ rs, ∃ c, ∃ s : State, (Settled s) ∧ (s.mayTry = true) ∧ (s.sliceGranted rs (targetAt s.rotNext) = false ∨ c = false) :=
  ⟨[], false, wTst { rotPos := 1 } 1018100000, ⟨rfl, rfl⟩, by decide +kernel⟩

theorem witness_SelfTestSlices_3 : ∃ s : State, (Settled s) ∧ (s.mayTry = true) ∧ (s.latestStart (targetAt s.rotNext) < s.tck.qMono) :=
  ⟨{ wTst { rotPos := 1 } 1018100000 with tck := { wTck with qMono := 1019990000 } }, ⟨rfl, rfl⟩, by decide +kernel⟩

theorem witness_SelfTestSlices_4 : ∃ rs, ∃ s : State, (Settled s) ∧ (QuietClock s) ∧ (s.mayTry = true) ∧ (s.tck.qMono ≤ s.latestStart (targetAt s.rotNext)) ∧ (s.targetIdle (targetAt s.rotNext) = true) ∧ ((advanceTo (s.latestStart (targetAt s.rotNext)) s).sliceGranted rs (targetAt s.rotNext) = false) :=
  ⟨[], { wTst { rotPos := 1 } 1018100000 with img := { run := some { (wTst {} 0).im with power := { consumers := List.replicate 64 (10, 1) } } } }, ⟨rfl, rfl⟩, ⟨rfl, rfl, rfl⟩, by decide +kernel⟩

theorem witness_SelfTestSlices_5 : ∃ x, ∃ s : State, (Settled s) ∧ (s.testing = some x) ∧ (s.tim.mono ≤ x.latestEnd) ∧ (x.target.saves = true) :=
  ⟨wSlice (.core 3) false, wTst { phase := .testing, slice := some (wSlice (.core 3) false) } 1019930000, ⟨rfl, rfl⟩, by decide +kernel⟩

theorem witness_SelfTestSlices_6 : ∃ x, ∃ n, ∃ s : State, (Settled s) ∧ (s.testing = some x) ∧ (s.tim.mono ≤ x.latestEnd) ∧ (x.target = .core n) ∧ (n < 48) :=
  ⟨wSlice (.core 3) false, 3, wTst { phase := .testing, slice := some (wSlice (.core 3) false) } 1019930000, ⟨rfl, rfl⟩, by decide +kernel⟩

theorem witness_SelfTestSlices_7 : ∃ x, ∃ s : State, (Settled s) ∧ (QuietClock s) ∧ (s.testing = some x) ∧ (x.target.saves = true) :=
  ⟨wSlice (.grid 3) false, wTst { phase := .saving, slice := some (wSlice (.grid 3) false) } 1019000000, ⟨rfl, rfl⟩, ⟨rfl, rfl, rfl⟩, by decide +kernel⟩

theorem witness_SelfTestSlices_8 : ∃ x, ∃ s : State, (Settled s) ∧ (s.tst.phase = .restoring) ∧ (s.tst.slice = some x) ∧ (x.incomplete = true) :=
  ⟨wSlice (.grid 3) true, wTst { phase := .restoring, slice := some (wSlice (.grid 3) true) } 1019950000, ⟨rfl, rfl⟩, by decide +kernel⟩

theorem witness_SelfTestSlices_9 : ∃ x, ∃ s : State, (Settled s) ∧ (s.tst.phase = .restoring) ∧ (s.tst.slice = some x) ∧ (x.incomplete = false) :=
  ⟨wSlice (.core 3) false, wTst { phase := .restoring, slice := some (wSlice (.core 3) false) } 1019950000, ⟨rfl, rfl⟩, by decide +kernel⟩
end

end Sys2Proof.Tests.P13

/-! ## Witnesses -/

namespace Sys2Proof.Tests.P14
open Sys2Proof Sys2Proof.Machine Sys2Proof.Tests

section
set_option Elab.async false
def wHst (m : Mode) (h : Hst) : State := { wSt m wIm with hst := h }
def wRing : Ring := { base := 0x10000, slots := 2, slotKib := 1024, wb := 8 }
def wMsg (t : Byte) (p : List Byte) : MbxMsg := { type := t, tag := 9, payload := p }
def wAsk (src : Source) (t : Byte) (p : List Byte) : MbxReq := { src := src, msg := wMsg t p }
def wMb (r : MbxReq) (a : Arc) : State := { wSt .maint with mbx := { current := some r }, arc := a }
def wStage (b : Bool) (blank : Nat) : State :=
  wMb (wAsk .pcie 0x10 (leBytes 4 (sectorBase true 9) ++ List.replicate 32 7)) { base0 := 0, base1 := if b then 0x200 else 0, words := [(blank, .torn)] }
def wRecIm : Image :=
  { wIm with incident := some { en := true, pre := 2, post := 2, slots := 4, sumSlot := 9, sumKib := 1, ringBase := gridBase, trigEn := 31 },
             queues := { slots := [{ slot := 9, len := 1024 }] }, arcArea := { areas := [{ kind := 1, bank := 1, first := 20, count := 4 }] } }
/-- The OPEN word of record 7, and with `c` its CLOSE word. -/
def wRecArc (c : Bool) : Arc :=
  { words := ((0x08010000 + 12 * 0x40000) / 32, .prog (leBytes 4 0x52544956 ++ leBytes 4 7 ++ [0, 2, 1, 0] ++ zeros 16 ++ leBytes 4 (0xFFFFFFFF - 7))) ::
      if c then [((0x08010000 + 12 * 0x40000) / 32 + 25, .prog (leBytes 4 0x534F4C43 ++ zeros 28))] else [] }
def wRecs (c : Bool) (r : MbxReq) : State :=
  { wSt .safe wRecIm with mbx := { current := some r }, arc := wRecArc c, inc := { vstate := .ready } }
/-- The same, with EXPORTED. -/
def wMarked : Arc := { wRecArc true with words := (wRecArc true).words ++ [((0x08010000 + 12 * 0x40000) / 32 + 28, .prog (zeros 32))] }
def wLdgSt (r : MbxReq) : State :=
  { wSt .maint { wIm with ledger := some { ckpt := 600 } } with mbx := { current := some r }, ldg := { lstate := 2, seq := 5, ackedSeq := 3 } }
/-- The data word of the entry of SEQ 1, a checkpoint. -/
def wEntry : List Byte := [3, 0, 0, 0] ++ leBytes 4 1 ++ zeros 24
def wLdgArc : Arc :=
  { words := [(0x400000, .prog wEntry), (0x400001, .prog (digestBytes (entryMac 0 wEntry 0)))] }
def wFloor (v : Nat) : State := { wSt .run { wIm with hdr := { secVer := 6 } } with mbx := { current := some (wAsk .pcie 0x40 (leBytes 4 v)) } }

def wLdgFound : FoundEntry :=
  { pos := 0, words := 2, seq := 1, type := 3, flags := 0, period := 0, stamp := 0, elapsed := 0, data := wEntry, mac := entryMac 0 wEntry 0, last := 0 }

theorem wLdgFound_at : entryAt 0 wLdgArc 0 2 = some wLdgFound := by
  have h0 : wLdgArc.classOf (ledgerAddr 0) = .programmed wEntry 0 := by
    simp [wLdgArc, Arc.classOf, wfind, ledgerAddr, ledgerBase, sectorOf, Arc.hdr, alookup, Arc.classAs, Arc.errsAt]
  have h1 : wLdgArc.classOf (ledgerAddr 1) = .programmed (digestBytes (entryMac 0 wEntry 0)) 0 := by
    simp [wLdgArc, Arc.classOf, wfind, ledgerAddr, ledgerBase, sectorOf, Arc.hdr, alookup, Arc.classAs, Arc.errsAt]
  have e1 : at32 wEntry 4 = 1 := by decide
  have e2 : at8 wEntry 0 = 3 := by decide
  have e3 : at8 wEntry 1 = 0 := by decide
  have e4 : (at16 wEntry 2, at64 wEntry 8, at32 wEntry 0x10) = (0, 0, 0) := by decide
  simp only [Prod.mk.injEq] at e4
  have e5 : wLdgArc.ledgerSpan 0 2 = [0, 1] := rfl
  have e6 : wLdgArc.weak = [] := rfl
  simp [entryAt, h0, h1, e1, e2, e3, e4, e5, e6, WordClass.data, wLdgFound]

/-- What reads as an entry has a SEQ of at least 1. -/
theorem entryAt_seq (key : BitVec 256) (arc : Arc) (p n : Nat) (f : FoundEntry) (h : entryAt key arc p n = some f) : 1 ≤ f.seq := by
  unfold entryAt at h
  split at h
  · simp only at h
    split at h
    · rename_i k
      simp only [Bool.and_eq_true, decide_eq_true_eq] at k
      rw [Option.ite_none_right_eq_some, Option.some.injEq] at h
      rw [← h.2]
      exact k.1.2
    · cases h
  · cases h

/-- A search of a range of numbers that finds something at 0. -/
theorem filterMap_range_zero {α : Type} (g : Nat → Option α) (n : Nat) (x : α) (h : g 0 = some x) :
    ∃ l, (List.range (n + 1)).filterMap g = x :: l ∧ ∀ y ∈ l, ∃ p, g p = some y :=
  ⟨((List.range n).map Nat.succ).filterMap g, by rw [List.range_succ_eq_map, List.filterMap_cons, h], fun _ k => by
    obtain ⟨p, -, e⟩ := List.mem_filterMap.mp k
    exact ⟨p, e⟩⟩

/-- Under whatever ledger key the device has, the entry is the first that is exported. -/
theorem wLdgFound_run : (runFrom 1 ((foundEntries 0 wLdgArc).mergeSort (fun a b => decide (a.seq ≤ b.seq)))).take 1 = [wLdgFound] := by
  obtain ⟨l, e, k⟩ : ∃ l, foundEntries 0 wLdgArc = wLdgFound :: l ∧ ∀ f ∈ l, 1 ≤ f.seq := by
    obtain ⟨l, e, k⟩ := filterMap_range_zero (fun p => (entryAt 0 wLdgArc p 2).orElse
      (fun _ => (entryAt 0 wLdgArc p 3).orElse (fun _ => entryAt 0 wLdgArc p 4))) 2047 wLdgFound (by rw [wLdgFound_at]; rfl)
    refine ⟨l, e, fun f h => ?_⟩
    obtain ⟨p, g⟩ := k f h
    rcases g2 : entryAt 0 wLdgArc p 2 with _ | x
    · rcases g3 : entryAt 0 wLdgArc p 3 with _ | x
      · rw [g2, g3] at g
        exact entryAt_seq _ _ _ _ f g
      · rw [g2, g3] at g
        exact Option.some.inj g ▸ entryAt_seq _ _ _ _ x g3
    · rw [g2] at g
      exact Option.some.inj g ▸ entryAt_seq _ _ _ _ x g2
  obtain ⟨a, b, m, -, n⟩ := List.mergeSort_cons (le := fun a b : FoundEntry => decide (a.seq ≤ b.seq)) (fun a b c x y => by simp at *; omega)
    (fun a b => by simp; omega) wLdgFound l
  have none : a = [] := by
    refine List.eq_nil_iff_forall_not_mem.mpr (fun f h => ?_)
    have q : f ∈ (wLdgFound :: l).mergeSort (fun a b : FoundEntry => decide (a.seq ≤ b.seq)) := by rw [m]; exact List.mem_append_left _ h
    have s := n f h
    rcases List.mem_cons.mp ((List.mem_mergeSort ..).mp q) with g | g
    · rw [g] at s; simp at s
    · rw [decide_eq_true (show wLdgFound.seq ≤ f.seq from k f g)] at s
      cases s
  rw [e, m, none]
  rfl

theorem witness_GctlCommands_8 : ∃ src, ∃ a, ∃ v, ∃ row, ∃ s : State, (Settled s) ∧ (s.hears src = true) ∧ (a % 4 = 0) ∧ (cmdWrite src a v = none) ∧ (s.absent a = false) ∧ (blockOf a = some row) ∧ (row ≠ 0) ∧ (s.live row = false ∨ rowLegal row s.mode = false) :=
  ⟨.pcie, 0x3E00C, 5, 22, { gctl := { mode := .hold } }, ⟨rfl, rfl⟩, by decide +kernel⟩

theorem witness_RegisterAccesses_1 : ∃ s : State, (Settled s) :=
  ⟨wSt .run, ⟨rfl, rfl⟩⟩

theorem witness_RegisterAccesses_2 : ∃ src, ∃ a, ∃ v, ∃ s : State, (Settled s) ∧ (s.hears src = true) ∧ (cmdWrite src a v = none) ∧ (s.absent a = true ∨ blockOf a = none) :=
  ⟨.card, 0x3FFFF0, 5, wSt .run, ⟨rfl, rfl⟩, by decide +kernel⟩

theorem witness_RegisterAccesses_3 : ∃ src, ∃ s : State, (Settled s) ∧ (s.hears src = false) :=
  ⟨.pcie, { wSt .run with otp := { cardForm := true } }, ⟨rfl, rfl⟩, by decide +kernel⟩

theorem witness_RegisterAccesses_4 : ∃ src, ∃ n : Nat, ∃ s : State, (Settled s) ∧ (s.hears src = true) ∧ (s.mode.ticks = true) ∧ (s.pins.outputsIdle = false) ∧ (n < 16) ∧ (s.im.ports.gpioDir.testBit n = true) ∧ (s.im.ports.gpioOd.testBit n = false) ∧ ((s.im.ports.incTrig && decide (n = 15)) = false) :=
  ⟨.pcie, 15, { wSt .armed { wIm with ports := { gpioDir := 0x8000 } } with gpio := { out := 0 } }, ⟨rfl, rfl⟩, by decide +kernel⟩

theorem witness_RegisterAccesses_5 : ∃ src, ∃ s : State, (Settled s) ∧ (s.hears src = true) ∧ (s.mode.fromArmed = true) :=
  ⟨.pcie, wSt .maint, ⟨rfl, rfl⟩, by decide +kernel⟩

theorem witness_RegisterAccesses_6 : ∃ src, ∃ s : State, (Settled s) ∧ (s.hears src = true) ∧ (s.mode.fromArmed = true) :=
  ⟨.pcie, { wSt .armed with gpio := { edge := 0xFFFFFFFF } }, ⟨rfl, rfl⟩, by decide +kernel⟩

theorem witness_RegisterAccesses_7 : ∃ src, ∃ a, ∃ row, ∃ w, ∃ s : State, (Settled s) ∧ (s.hears src = true) ∧ (a % 4 = 0) ∧ (blockOf a = some row) ∧ (s.absent a = false) ∧ (s.live row = true) ∧ (isShadow a s = false) ∧ (a ≠ 0x5008) ∧ (pairAt a s = some w) ∧ ((blockOf a = some 25 → a % 0x4000 ≠ 0x24)) :=
  ⟨.card, 0x1014, 1, 1019000000, wSt .run, ⟨rfl, rfl⟩, by decide +kernel⟩

theorem witness_RegisterAccesses_8 : ∃ src, ∃ a, ∃ row, ∃ s : State, (Settled s) ∧ (s.hears src = true) ∧ (a % 4 = 0) ∧ (blockOf a = some row) ∧ (s.absent a = false) ∧ (s.live row = true) ∧ (isShadow a s = true) :=
  ⟨.card, 0x1018, 1, { wSt .run with shadows := { card := [(0x1018, 7)] } }, ⟨rfl, rfl⟩, by decide +kernel⟩

theorem witness_RegisterAccesses_9 : ∃ src, ∃ a, ∃ s : State, (Settled s) ∧ (s.hears src = true) ∧ (a % 4 = 0) ∧ (blockOf a = none) :=
  ⟨.pcie, 0x3FFFF0, { gctl := { mode := .selftest } }, ⟨rfl, rfl⟩, by decide +kernel⟩

theorem witness_RegisterAccesses_10 : ∃ src, ∃ s : State, (Settled s) ∧ (s.hears src = true) :=
  ⟨.pcie, { gctl := { mode := .hold } }, ⟨rfl, rfl⟩, by decide +kernel⟩

theorem witness_RegisterAccesses_11 : ∃ src, ∃ a, ∃ row, ∃ s : State, (Settled s) ∧ (s.hears src = true) ∧ (a % 4 = 0) ∧ (blockOf a = some row) ∧ (s.absent a = false) ∧ (s.live row = false) :=
  ⟨.pcie, 0x1014, 1, { gctl := { mode := .hold } }, ⟨rfl, rfl⟩, by decide +kernel⟩

theorem witness_RegisterAccesses_12 : ∃ src, ∃ o, ∃ s : State, (Settled s) ∧ (MemoryOk s) ∧ (s.hears src = true) ∧ (o % 4 = 0) ∧ (s.hostRange (gridBase + o) 4 = true) :=
  ⟨.pcie, 316, { wSt .quarantine { wIm with queues := { queues := [{ prod := 8, log2 := 3, base := gridBase + 64, dataBase := gridBase + 4096, dataLen := 64 }] } } with mem := [(gridBase + 320, 7)] }, ⟨rfl, rfl⟩, rfl, by decide +kernel⟩

theorem witness_RegisterAccesses_13 : ∃ src, ∃ o, ∃ s : State, (Settled s) ∧ (s.hears src = true) ∧ (o % 4 = 0) ∧ (s.hostRange (gridBase + o) 4 = false) :=
  ⟨.card, 4, wSt .run, ⟨rfl, rfl⟩, by decide +kernel⟩

theorem witness_RegisterAccesses_14 : ∃ s : State, (Settled s) :=
  ⟨wSt .run, ⟨rfl, rfl⟩⟩

theorem witness_HostRings_1 : ∃ v, ∃ s : State, (Settled s) ∧ (s.mode.fromArmed = true) ∧ (s.otp.cardForm = false) ∧ (v < 64) ∧ (s.hst.msixPend.getLsbD v = true) ∧ (s.hst.bme = true) :=
  ⟨63, wHst .run { bme := true, msixPend := BitVec.twoPow 64 63 }, ⟨rfl, rfl⟩, by decide +kernel⟩

theorem witness_HostRings_2 : ∃ s : State, (Settled s) ∧ (s.mode.fromArmed = true) ∧ (s.otp.cardForm = false) :=
  ⟨wHst .maint {}, ⟨rfl, rfl⟩, by decide +kernel⟩

theorem witness_HostRings_3 : ∃ c, ∃ s : State, (Settled s) ∧ (s.mode.fromArmed = true) ∧ (s.otp.cardForm = false) ∧ ((s.ring c).en = false) ∧ ((s.ring c).base.toNat % 4096 = 0) ∧ (2 ≤ (s.ring c).slots.toNat) ∧ ((s.ring c).slots.toNat ≤ 1024) ∧ (s.im.frameLen (c = .b) ≤ (s.ring c).slotKib.toNat * 1024) ∧ ((s.ring c).wb.toNat % 8 = 0) :=
  ⟨.b, wHst .armed { ringB := { wRing with slots := 1024 } }, ⟨rfl, rfl⟩, by decide +kernel⟩

theorem witness_HostRings_4 : ∃ c, ∃ s : State, (Settled s) ∧ (s.mode.fromArmed = true) ∧ (s.otp.cardForm = false) ∧ ((s.ring c).en = false) ∧ ((s.ring c).base.toNat % 4096 ≠ 0) :=
  ⟨.a, wHst .run { ringA := { wRing with base := 8 } }, ⟨rfl, rfl⟩, by decide +kernel⟩

theorem witness_HostRings_5 : ∃ c, ∃ s : State, (Settled s) ∧ (s.mode.fromArmed = true) ∧ (s.otp.cardForm = false) ∧ ((s.ring c).en = true) :=
  ⟨.a, wHst .safe { ringA := { wRing with en := true } }, ⟨rfl, rfl⟩, by decide +kernel⟩

theorem witness_HostRings_6 : ∃ s : State, (Settled s) ∧ (s.mode.fromArmed = true) ∧ (s.otp.cardForm = false) :=
  ⟨wHst .run { ringA := { wRing with en := true, busy := true } }, ⟨rfl, rfl⟩, by decide +kernel⟩

theorem witness_HostRings_7 : ∃ c, ∃ h : BitVec 10, ∃ s : State, (Settled s) ∧ (s.mode.fromArmed = true) ∧ (s.otp.cardForm = false) ∧ (BitVec.toNat h < (s.ring c).slots.toNat) :=
  ⟨.b, 1, wHst .run { ringB := wRing }, ⟨rfl, rfl⟩, by decide +kernel⟩

theorem witness_HostRings_8 : ∃ c, ∃ h : BitVec 10, ∃ s : State, (Settled s) ∧ (s.mode.fromArmed = true) ∧ (s.otp.cardForm = false) ∧ ((s.ring c).slots.toNat ≤ BitVec.toNat h) :=
  ⟨.b, 2, wHst .run { ringB := wRing }, ⟨rfl, rfl⟩, by decide +kernel⟩

theorem witness_HostRings_9 : ∃ c, ∃ s : State, (Settled s) ∧ (s.mode.answers = true) ∧ ((s.ring c).busy = true) ∧ (2 ≤ (s.ring c).slots.toNat) :=
  ⟨.a, wHst .run { ringA := { wRing with busy := true, tail := 1 } }, ⟨rfl, rfl⟩, by decide +kernel⟩

theorem witness_PcieEndpoint_1 : ∃ s : State, (Settled s) ∧ (s.hasPcie = true) :=
  ⟨{ wHst .run { linkUp := true, bme := true } with mbx := { reqs := [wAsk .pcie 0x20 [], wAsk .card 0x20 []], outPcie := [wMsg 0x90 []], outCard := [wMsg 0x90 []] } }, ⟨rfl, rfl⟩, by decide +kernel⟩

theorem witness_PcieEndpoint_2 : ∃ s : State, (Settled s) ∧ (s.hasPcie = true) :=
  ⟨wHst .hold {}, ⟨rfl, rfl⟩, by decide +kernel⟩

theorem witness_PcieEndpoint_3 : ∃ s : State, (Settled s) ∧ (s.hasPcie = true) ∧ (s.mode = .selftest) :=
  ⟨wHst .selftest {}, ⟨rfl, rfl⟩, by decide +kernel⟩

theorem witness_PcieEndpoint_4 : ∃ s : State, (Settled s) ∧ (s.hasPcie = true) ∧ (s.mode ≠ .selftest) :=
  ⟨wHst .load {}, ⟨rfl, rfl⟩, by decide +kernel⟩

theorem witness_PcieEndpoint_5 : ∃ s : State, (Settled s) ∧ (s.hasPcie = true) ∧ (s.mode ≠ .selftest) :=
  ⟨wHst .hold {}, ⟨rfl, rfl⟩, by decide +kernel⟩

theorem witness_MailboxQueues_1 : ∃ m, ∃ s : State, (Settled s) ∧ (s.mode.fromArmed = true) ∧ (s.otp.cardForm = false) ∧ ((∀ r ∈ s.mbx.reqs, r.src ≠ .pcie)) ∧ (readMbx s.mbxInBytes = some m) :=
  ⟨wMsg 0x20 [1, 2, 3, 4], { wHst .run { mbxIn := [(0, 0x00040920), (2, 0x04030201)] } with mbx := { reqs := [wAsk .card 0x20 []] } }, ⟨rfl, rfl⟩, by decide +kernel⟩

theorem witness_MailboxQueues_2 : ∃ s : State, (Settled s) ∧ (s.mode.fromArmed = true) ∧ (s.otp.cardForm = false) ∧ ((∃ r ∈ s.mbx.reqs, r.src = .pcie)) :=
  ⟨{ wHst .run {} with mbx := { reqs := [wAsk .pcie 0x20 []] } }, ⟨rfl, rfl⟩, by decide +kernel⟩

theorem witness_MailboxQueues_3 : ∃ m, ∃ ms, ∃ s : State, (Settled s) ∧ (s.mode.fromArmed = true) ∧ (s.otp.cardForm = false) ∧ (s.mbx.outPcie = m :: ms) :=
  ⟨wMsg 0x90 [], [], { wHst .maint {} with mbx := { outPcie := [wMsg 0x90 []] } }, ⟨rfl, rfl⟩, by decide +kernel⟩

theorem witness_MailboxQueues_4 : ∃ r, ∃ s : State, (Settled s) ∧ (s.mode.fromArmed = true) ∧ (s.mbx.current = none) ∧ (s.nextReq = some r) ∧ (mbxLenOk r.msg = true) :=
  ⟨wAsk .card 0x20 [1, 2, 3, 4], { wHst .maint {} with mbx := { reqs := [wAsk .card 0x20 [1, 2, 3, 4]] } }, ⟨rfl, rfl⟩, by decide +kernel⟩

theorem witness_MailboxQueues_5 : ∃ r, ∃ s : State, (Settled s) ∧ (s.mode.fromArmed = true) ∧ (s.mbx.current = none) ∧ (s.nextReq = some r) ∧ (mbxLenOk r.msg = false) :=
  ⟨wAsk .pcie 0x55 [], { wHst .maint {} with mbx := { reqs := [wAsk .pcie 0x55 []] } }, ⟨rfl, rfl⟩, by decide +kernel⟩

theorem witness_MailboxQueues_6 : ∃ r, ∃ b, ∃ i, ∃ s : State, (Executes 0x10 r s) ∧ (r.msg.payload.length = 36) ∧ (at32 r.msg.payload 0 % 32 = 0) ∧ (sectorOf (at32 r.msg.payload 0) = some (b, i)) ∧ (s.fixedArea b i = false) ∧ (s.arc.wp b i = false) ∧ (s.arrayFree = true) ∧ (s.reeraseDue b = false) ∧ (s.crd.ejState = 0) ∧ (s.arc.isBlank (at32 r.msg.payload 0) = true) :=
  ⟨wAsk .pcie 0x10 (leBytes 4 (sectorBase true 9) ++ List.replicate 32 7), true, 9, wStage false 5, ⟨⟨rfl, rfl⟩, by decide +kernel, rfl, rfl⟩, by decide +kernel⟩

theorem witness_MailboxQueues_7 : ∃ r, ∃ b, ∃ i, ∃ s : State, (Executes 0x10 r s) ∧ (r.msg.payload.length = 36) ∧ (at32 r.msg.payload 0 % 32 = 0) ∧ (sectorOf (at32 r.msg.payload 0) = some (b, i)) ∧ (s.fixedArea b i = true ∨ s.arc.wp b i = true) :=
  ⟨wAsk .pcie 0x10 (leBytes 4 (sectorBase true 9) ++ List.replicate 32 7), true, 9, wStage true 5, ⟨⟨rfl, rfl⟩, by decide +kernel, rfl, rfl⟩, by decide +kernel⟩

theorem witness_MailboxQueues_8 : ∃ r, ∃ b, ∃ i, ∃ s : State, (Executes 0x11 r s) ∧ (at32 r.msg.payload 0 = sectorBase b i) ∧ (sectorOf (sectorBase b i) = some (b, i)) ∧ (s.fixedArea b i = false) ∧ (s.arc.wp b i = false) ∧ (s.arrayFree = true) ∧ (s.reeraseDue b = false) ∧ (s.crd.ejState = 0) :=
  ⟨wAsk .card 0x11 (leBytes 4 (sectorBase true 9)), true, 9, wMb (wAsk .card 0x11 (leBytes 4 (sectorBase true 9))) { base0 := 0, base1 := 0 }, ⟨⟨rfl, rfl⟩, by decide +kernel, rfl, rfl⟩, by decide +kernel⟩

theorem witness_MailboxQueues_9 : ∃ r, ∃ e, ∃ s : State, (Settled s) ∧ (s.mbx.current = some r) ∧ (r.msg.type = 0x11) ∧ (s.arc.erase = some e) ∧ (e.suspended = false) ∧ (e.byDevice = false) ∧ (e.owner = .mailbox r.src r.msg.tag) :=
  ⟨wAsk .card 0x11 (leBytes 4 (sectorBase true 9)), { owner := .mailbox .card 9, code := 0x20, bank := true, index := 9 }, wMb (wAsk .card 0x11 (leBytes 4 (sectorBase true 9))) { erase := some { owner := .mailbox .card 9, code := 0x20, bank := true, index := 9 } }, ⟨rfl, rfl⟩, by decide +kernel⟩

theorem witness_MailboxMessages_1 : ∃ r, ∃ s : State, (Executes 0x20 r s) :=
  ⟨(wAsk .pcie 0x20 (leBytes 4 7)), wRecs true (wAsk .pcie 0x20 (leBytes 4 7)), ⟨⟨rfl, rfl⟩, by decide +kernel, rfl, rfl⟩⟩

theorem witness_MailboxMessages_2 : ∃ r, ∃ e : EccView, ∃ s : State, (Executes 0x21 r s) ∧ ((∀ f ∈ recordsIn (s.showing e).arc s.incArea, f.seq ≠ at32 r.msg.payload 0)) :=
  ⟨(wAsk .pcie 0x21 (leBytes 4 9 ++ leBytes 4 0 ++ leBytes 4 64)), [], wRecs true (wAsk .pcie 0x21 (leBytes 4 9 ++ leBytes 4 0 ++ leBytes 4 64)), ⟨⟨rfl, rfl⟩, by decide +kernel, rfl, rfl⟩, by decide +kernel⟩

theorem witness_MailboxMessages_3 : ∃ r, ∃ e : EccView, ∃ f, ∃ s : State, (Executes 0x21 r s) ∧ ((recordsIn (s.showing e).arc s.incArea).find? (fun f => f.seq = at32 r.msg.payload 0) = some f) ∧ (4064 < at32 r.msg.payload 8 ∨ at32 r.msg.payload 8 % 4 ≠ 0 ∨ s.incSec.recSectors * 0x40000 < at32 r.msg.payload 4 + at32 r.msg.payload 8) :=
  ⟨(wAsk .pcie 0x21 (leBytes 4 7 ++ leBytes 4 0 ++ leBytes 4 4068)), [], (recordsIn (wRecArc false) { kind := 1, bank := 1, first := 20, count := 4 }).head!, wRecs false (wAsk .pcie 0x21 (leBytes 4 7 ++ leBytes 4 0 ++ leBytes 4 4068)), ⟨⟨rfl, rfl⟩, by decide +kernel, rfl, rfl⟩, by decide +kernel⟩

theorem witness_MailboxMessages_4 : ∃ r, ∃ e : EccView, ∃ f, ∃ s : State, (Executes 0x21 r s) ∧ ((recordsIn (s.showing e).arc s.incArea).find? (fun f => f.seq = at32 r.msg.payload 0) = some f) ∧ (at32 r.msg.payload 8 ≤ 4064) ∧ (at32 r.msg.payload 8 % 4 = 0) ∧ (at32 r.msg.payload 4 + at32 r.msg.payload 8 ≤ s.incSec.recSectors * 0x40000) :=
  ⟨(wAsk .pcie 0x21 (leBytes 4 7 ++ leBytes 4 0 ++ leBytes 4 4064)), [], (recordsIn (wRecArc false) { kind := 1, bank := 1, first := 20, count := 4 }).head!, wRecs false (wAsk .pcie 0x21 (leBytes 4 7 ++ leBytes 4 0 ++ leBytes 4 4064)), ⟨⟨rfl, rfl⟩, by decide +kernel, rfl, rfl⟩, by decide +kernel⟩

theorem witness_MailboxMessages_5 : ∃ r, ∃ f, ∃ l, ∃ s : State, (Executes 0x30 r s) ∧ ((runFrom (at32 r.msg.payload 0) ((foundEntries s.otp.deviceKey s.arc).mergeSort (fun a b => a.seq ≤ b.seq))).take (at32 r.msg.payload 4) = f :: l) ∧ (s.arc.uncorrIn ledgerBase 0x10000 = false) :=
  ⟨(wAsk .pcie 0x30 (leBytes 4 1 ++ leBytes 4 1)), wLdgFound, [], { wSt .run with mbx := { current := some (wAsk .pcie 0x30 (leBytes 4 1 ++ leBytes 4 1)) }, arc := wLdgArc }, ⟨⟨rfl, rfl⟩, by decide +kernel, rfl, rfl⟩, wLdgFound_run, by decide +kernel⟩

theorem witness_MailboxMessages_6 : ∃ r, ∃ s : State, (Executes 0x30 r s) ∧ (s.arc.uncorrIn ledgerBase 0x10000 = false) ∧ ((runFrom (at32 r.msg.payload 0) ((foundEntries s.otp.deviceKey s.arc).mergeSort (fun a b => a.seq ≤ b.seq))).take (at32 r.msg.payload 4) = []) :=
  ⟨(wAsk .pcie 0x30 (leBytes 4 1 ++ leBytes 4 1)), { wSt .run with mbx := { current := some (wAsk .pcie 0x30 (leBytes 4 1 ++ leBytes 4 1)) } }, ⟨⟨rfl, rfl⟩, by decide +kernel, rfl, rfl⟩, by decide +kernel⟩

theorem witness_MailboxAcknowledgements_1 : ∃ r, ∃ f, ∃ s : State, (Executes 0x22 r s) ∧ ((recordsIn s.arc s.incArea).find? (fun f => f.seq = at32 r.msg.payload 0) = some f) ∧ (f.isSealed = true) ∧ (f.exported = false) ∧ (s.inc.vstate ≠ .full) ∧ (s.arc.prog = none) :=
  ⟨(wAsk .pcie 0x22 (leBytes 4 7)), (recordsIn (wRecArc true) { kind := 1, bank := 1, first := 20, count := 4 }).head!, wRecs true (wAsk .pcie 0x22 (leBytes 4 7)), ⟨⟨rfl, rfl⟩, by decide +kernel, rfl, rfl⟩, by decide +kernel⟩

theorem witness_MailboxAcknowledgements_2 : ∃ r, ∃ f, ∃ s : State, (Executes 0x22 r s) ∧ ((recordsIn s.arc s.incArea).find? (fun f => f.seq = at32 r.msg.payload 0) = some f) ∧ (f.isSealed = true) ∧ (f.exported = true) :=
  ⟨(wAsk .pcie 0x22 (leBytes 4 7)), (recordsIn wMarked { kind := 1, bank := 1, first := 20, count := 4 }).head!, { wRecs true (wAsk .pcie 0x22 (leBytes 4 7)) with arc := wMarked }, ⟨⟨rfl, rfl⟩, by decide +kernel, rfl, rfl⟩, by decide +kernel⟩

theorem witness_MailboxAcknowledgements_3 : ∃ r, ∃ f, ∃ s : State, (Executes 0x22 r s) ∧ ((recordsIn s.arc s.incArea).find? (fun f => f.seq = at32 r.msg.payload 0) = some f) ∧ (f.isSealed = false) :=
  ⟨(wAsk .pcie 0x22 (leBytes 4 7)), (recordsIn (wRecArc false) { kind := 1, bank := 1, first := 20, count := 4 }).head!, wRecs false (wAsk .pcie 0x22 (leBytes 4 7)), ⟨⟨rfl, rfl⟩, by decide +kernel, rfl, rfl⟩, by decide +kernel⟩

theorem witness_MailboxAcknowledgements_4 : ∃ r, ∃ s : State, (Executes 0x22 r s) ∧ ((∀ f ∈ recordsIn s.arc s.incArea, f.seq ≠ at32 r.msg.payload 0)) :=
  ⟨(wAsk .pcie 0x22 (leBytes 4 9)), wRecs true (wAsk .pcie 0x22 (leBytes 4 9)), ⟨⟨rfl, rfl⟩, by decide +kernel, rfl, rfl⟩, by decide +kernel⟩

theorem witness_MailboxAcknowledgements_5 : ∃ r, ∃ s : State, (Executes 0x31 r s) ∧ (s.ldg.lstate = 2) ∧ (s.ldg.ackedSeq.toNat ≤ at32 r.msg.payload 0) ∧ (at32 r.msg.payload 0 ≤ s.ldg.seq.toNat) :=
  ⟨(wAsk .pcie 0x31 (leBytes 4 5)), wLdgSt (wAsk .pcie 0x31 (leBytes 4 5)), ⟨⟨rfl, rfl⟩, by decide +kernel, rfl, rfl⟩, by decide +kernel⟩

theorem witness_MailboxAcknowledgements_6 : ∃ r, ∃ s : State, (Executes 0x31 r s) ∧ (s.ldg.lstate = 2) ∧ (at32 r.msg.payload 0 < s.ldg.ackedSeq.toNat ∨ s.ldg.seq.toNat < at32 r.msg.payload 0) :=
  ⟨(wAsk .pcie 0x31 (leBytes 4 6)), wLdgSt (wAsk .pcie 0x31 (leBytes 4 6)), ⟨⟨rfl, rfl⟩, by decide +kernel, rfl, rfl⟩, by decide +kernel⟩

theorem witness_MailboxAcknowledgements_7 : ∃ r, ∃ s : State, (Executes 0x40 r s) ∧ (s.img.run.isSome = true) ∧ (at32 r.msg.payload 0 % 65536 ≤ s.im.hdr.secVer) :=
  ⟨(wAsk .pcie 0x40 (leBytes 4 6)), wFloor 6, ⟨⟨rfl, rfl⟩, by decide +kernel, rfl, rfl⟩, by decide +kernel⟩

theorem witness_MailboxAcknowledgements_8 : ∃ r, ∃ s : State, (Executes 0x40 r s) ∧ (s.img.run.isSome = true) ∧ (s.im.hdr.secVer < at32 r.msg.payload 0 % 65536) :=
  ⟨(wAsk .pcie 0x40 (leBytes 4 7)), wFloor 7, ⟨⟨rfl, rfl⟩, by decide +kernel, rfl, rfl⟩, by decide +kernel⟩

theorem witness_JtagInstructions_1 : ∃ s : State, (Settled s) ∧ (s.mode.answers = true) :=
  ⟨{ gctl := { mode := .load } }, ⟨rfl, rfl⟩, by decide +kernel⟩

theorem witness_JtagInstructions_2 : ∃ s : State, (Settled s) ∧ (s.mode.answers = true) :=
  ⟨{ gctl := { mode := .hold } }, ⟨rfl, rfl⟩, by decide +kernel⟩

theorem witness_JtagInstructions_3 : ∃ s : State, (Settled s) ∧ (s.mode = .hold ∨ s.mode = .maint) :=
  ⟨wSt .maint, ⟨rfl, rfl⟩, by decide +kernel⟩

theorem witness_JtagInstructions_4 : ∃ s : State, (Settled s) ∧ (s.mode.answers = true) ∧ (s.mode ≠ .hold) ∧ (s.mode ≠ .maint) :=
  ⟨wSt .run, ⟨rfl, rfl⟩, by decide +kernel⟩

theorem witness_JtagInstructions_5 : ∃ s : State, (Settled s) ∧ (s.mode.answers = true) ∧ (s.pins.scan = none) :=
  ⟨{ wSt .run with arc := { prog := some { owner := .device, code := 0x10, addr := 64, data := [1] } } }, ⟨rfl, rfl⟩, by decide +kernel⟩
end

end Sys2Proof.Tests.P14

/-! ## Witnesses -/

namespace Sys2Proof.Tests.P16
open Sys2Proof Sys2Proof.Machine Sys2Proof.Tests

section
set_option Elab.async false
def wUp (r : BitVec 12 := 0xFFF) : Port := { pstate := 3, nbAddr := r }
def wFab (m : Mode) (f : Fab) (x : FabricSec := { portEn := 15, addrMode := 2, settle := 10, rejoin := 4, ofsLimit := 1000, freeRun := 3, asym := [0, 0, 0, 0] }) : State :=
  { wSt m { wIm with fabric := some x } with fab := f }
def wP (p : Nat) (x : Port) : Vector Port 4 := (Vector.replicate 4 {}).setIfInBounds p x
def wPartner (sealed cert spread : Bool) : LinkPartner := { serial := 77, isSealed := sealed, spread := spread, certOk := cert }
def wHdr (dst src : BitVec 12) : MsgHdr := { dst := dst, src := src, hopsLeft := 5, replyReq := false, mseq := 9, corr := 0 }
def wHeld (n : BitVec 12) (r : Nat) : HeldFrame := { lseq := n, hdr := wHdr 5 1, msg := .safe 0 0, replays := r }
def wHello (spread : Bool) : Hello :=
  { serial := 77, addr := 6, port := 2, state := 5, ready := true, spread := spread, role := 1, expectMs := 0, digestPrefix := 0, fwVer := 0 }
def wLsa (n : Word) : Lsa := { serial := 77, seq := n, priority := 3, mgrSel := false, standbyOk := false, nbrs := [0, 0, 0, 0] }
/-- One link, port 3. -/
def wNode (m : Mode) (f : Fab) : State := wFab m { f with ports := wP 3 (wUp 1) }
def wWork (m : Mode) : State := { wNode m { role := 1, addr := 5, mgr := 1 } with tck := { wTck with active := 2, src := 2 } }
def wMgr (m : Mode) (ms : List Member := []) : State := wNode m { role := 3, addr := 1, mgr := 1, members := ms, epoch := 0x500000000, epochPrev := 0x400000000 }
def wOwn : Lsa := { serial := 0, seq := 5, priority := 9, mgrSel := true, standbyOk := true, nbrs := [0, 0, 0, 77] }
def wTickAt (b : Nat) : TickMsg := { index := 6, boundary := BitVec.ofNat 64 b, originTs := 1018999000, period := 20000, flywheel := false }
def wVit (f : Fab) : State :=
  { wNode .run f with
    img := { run := some { wIm with fabric := some {}, incident := some { en := true, pre := 2, post := 2, slots := 4, sumSlot := 9, sumKib := 1, ringBase := gridBase, trigEn := 31 },
                                    arcArea := { areas := [{ kind := 1, bank := 1, first := 20, count := 4 }] } } }
    inc := { vstate := .ready } }
def wData : State :=
  { wNode .run { role := 1, addr := 5, mgr := 1 } with
    img := { run := some { wIm with fabric := some {}, queues := { queues := [{ prod := 9, log2 := 3, base := gridBase, dataBase := gridBase + 4096, dataLen := 4096 }] } } } }
def wSeg : DataSeg := { queue := 0, seg := 0, nseg := 1, total := 4, entry := zeros 32, data := [1, 2, 3, 4] }
def wJoin (fw : Word) : JoinReq := { serial := 77, digest := 0, fwVer := fw, imageVer := 1, state := 4, timeOk := 4 }
def wClaim (sel : Bool) : Claim := { serial := 99, epoch := 0x700000001, mgrSel := sel, priority := 0, devices := 2 }

theorem witness_FabricLinks_1 : ∃ p, ∃ b : LinkPartner, ∃ s : State, (Settled s) ∧ (p < 4) ∧ ((s.port p).up = false) ∧ (portMayTrain p s = true) ∧ (s.otp.isSealed = b.isSealed) ∧ ((s.otp.isSealed = true → b.certOk = true)) ∧ (b.spread = s.im.power.fabSpread) :=
  ⟨3, wPartner true true false, wFab .run {}, ⟨rfl, rfl⟩, by decide +kernel⟩

theorem witness_FabricLinks_2 : ∃ p, ∃ b : LinkPartner, ∃ s : State, (Settled s) ∧ (p < 4) ∧ ((s.port p).up = false) ∧ (portMayTrain p s = true) ∧ (s.otp.isSealed = true) ∧ (b.isSealed = false ∨ b.certOk = false) :=
  ⟨3, wPartner false true false, wFab .maint {}, ⟨rfl, rfl⟩, by decide +kernel⟩

theorem witness_FabricLinks_3 : ∃ p, ∃ b : LinkPartner, ∃ s : State, (Settled s) ∧ (p < 4) ∧ ((s.port p).up = false) ∧ (portMayTrain p s = true) ∧ (s.otp.isSealed = b.isSealed) ∧ ((s.otp.isSealed = true → b.certOk = true)) ∧ (b.spread ≠ s.im.power.fabSpread) :=
  ⟨3, wPartner true true true, wFab .armed {}, ⟨rfl, rfl⟩, by decide +kernel⟩

theorem witness_FabricLinks_4 : ∃ p, ∃ s : State, (Settled s) ∧ (p < 4) ∧ ((s.port p).up = true) :=
  ⟨3, wFab .run { ports := wP 3 wUp }, ⟨rfl, rfl⟩, by decide +kernel⟩

theorem witness_FabricLinks_5 : ∃ p, ∃ s : State, (Settled s) ∧ (QuietClock s) ∧ (p < 4) ∧ ((s.port p).up = true) :=
  ⟨3, wFab .quarantine { ports := wP 3 wUp }, ⟨rfl, rfl⟩, ⟨rfl, rfl, rfl⟩, by decide +kernel⟩

theorem witness_FabricLinks_6 : ∃ p, ∃ s : State, (Settled s) ∧ (s.mode.answers = true) ∧ (p < 4) ∧ ((s.port p).up = true) :=
  ⟨3, wFab .run { ports := wP 3 { wUp with held := [wHeld 6 0, wHeld 7 0, wHeld 8 0] } }, ⟨rfl, rfl⟩, by decide +kernel⟩

theorem witness_FabricLinks_7 : ∃ p, ∃ m, ∃ s : State, (Settled s) ∧ (s.mode.answers = true) ∧ (p < 4) ∧ ((s.port p).up = true) ∧ ((∀ h ∈ (s.port p).held, h.replays < 7)) ∧ ((∃ h ∈ (s.port p).held, seqLe m h.lseq = true)) :=
  ⟨3, 7, wFab .run { ports := wP 3 { wUp with held := [wHeld 6 6, wHeld 7 6, wHeld 8 0] } }, ⟨rfl, rfl⟩, by decide +kernel⟩

theorem witness_FabricLinks_8 : ∃ p, ∃ hdr : MsgHdr, ∃ s : State, (Settled s) ∧ (s.mode.answers = true) ∧ (p < 4) ∧ ((s.port p).up = true) ∧ (hdr.rx.fate = .badTag) :=
  ⟨3, { wHdr 5 1 with rx := { fate := .badTag } }, wFab .run { ports := wP 3 wUp }, ⟨rfl, rfl⟩, by decide +kernel⟩

theorem witness_FabricLinks_9 : ∃ p, ∃ hdr : MsgHdr, ∃ s : State, (Settled s) ∧ (s.mode.answers = true) ∧ (p < 4) ∧ ((s.port p).up = true) ∧ (hdr.rx.fate = .whole) ∧ (seqLe hdr.rx.lseq (s.port p).rxNext = false) :=
  ⟨3, { wHdr 5 1 with rx := { lseq := 1 } }, wFab .run { ports := wP 3 wUp }, ⟨rfl, rfl⟩, by decide +kernel⟩

theorem witness_HelloAndLinkDelay_1 : ∃ s : State, (Settled s) ∧ (QuietClock s) ∧ (s.mode.answers = true) ∧ (s.pins.outputsIdle = false) :=
  ⟨wFab .run { ports := wP 3 wUp }, ⟨rfl, rfl⟩, ⟨rfl, rfl, rfl⟩, by decide +kernel⟩

theorem witness_HelloAndLinkDelay_2 : ∃ p, ∃ hdr : MsgHdr, ∃ h : Hello, ∃ s : State, (InOrder p hdr s) ∧ (reservedDst hdr.dst = false) ∧ (s.mode.answers = true) ∧ (h.spread = s.im.power.fabSpread) :=
  ⟨3, wHdr 0xFFF 6, wHello false, wFab .run { ports := wP 3 wUp }, ⟨⟨rfl, rfl⟩, by decide +kernel⟩, by decide +kernel⟩

theorem witness_HelloAndLinkDelay_3 : ∃ p, ∃ hdr : MsgHdr, ∃ h : Hello, ∃ s : State, (InOrder p hdr s) ∧ (reservedDst hdr.dst = false) ∧ (s.mode.answers = true) ∧ (h.spread ≠ s.im.power.fabSpread) :=
  ⟨3, wHdr 0xFFF 6, wHello true, wFab .run { ports := wP 3 wUp }, ⟨⟨rfl, rfl⟩, by decide +kernel⟩, by decide +kernel⟩

theorem witness_HelloAndLinkDelay_4 : ∃ p, ∃ s : State, (Settled s) ∧ (QuietClock s) ∧ (p < 4) ∧ ((s.port p).up = true) ∧ (s.armedOn = true) :=
  ⟨3, wFab .run { ports := wP 3 wUp }, ⟨rfl, rfl⟩, ⟨rfl, rfl, rfl⟩, by decide +kernel⟩

theorem witness_HelloAndLinkDelay_5 : ∃ p, ∃ hdr : MsgHdr, ∃ s : State, (InOrder p hdr s) ∧ (reservedDst hdr.dst = false) ∧ (s.armedOn = true) :=
  ⟨3, wHdr 5 6, wFab .run { ports := wP 3 wUp }, ⟨⟨rfl, rfl⟩, by decide +kernel⟩, by decide +kernel⟩

theorem witness_HelloAndLinkDelay_6 : ∃ p, ∃ hdr : MsgHdr, ∃ t1, ∃ s : State, (InOrder p hdr s) ∧ (reservedDst hdr.dst = false) ∧ (s.armedOn = true) ∧ ((s.port p).t1 = some t1) :=
  ⟨3, wHdr 5 6, 1018990000, wFab .run { ports := wP 3 { wUp with t1 := some 1018990000, delays := [100, 200, 300, 400, 500, 600, 700, 801] } }, ⟨⟨rfl, rfl⟩, by decide +kernel⟩, by decide +kernel⟩

theorem witness_FabricDatabase_1 : ∃ s : State, (Settled s) ∧ (QuietClock s) ∧ (s.fabricOn = true) ∧ (s.fab.dupAddr = false) ∧ ((∀ r ∈ s.fab.db, r.addr = s.fab.addr → s.otp.serial.toNat ≤ r.lsa.serial.toNat)) :=
  ⟨wFab .run { role := 1, addr := 5, mgr := 1, ports := wP 3 wUp }, ⟨rfl, rfl⟩, ⟨rfl, rfl, rfl⟩, by decide +kernel⟩

theorem witness_FabricDatabase_2 : ∃ p, ∃ hdr : MsgHdr, ∃ l : Lsa, ∃ s : State, (Broadcast p hdr s) ∧ ((∀ q, s.fab.lsaOf l.serial = some q → q.lsa.seq.toNat < l.seq.toNat)) ∧ (s.fabricOn = true) ∧ (l.serial ≠ s.otp.serial) :=
  ⟨3, wHdr 0xFFF 6, wLsa 9, wNode .run { role := 1, addr := 5, mgr := 1, db := [{ lsa := wLsa 8, addr := 6, mono := 5 }] }, ⟨⟨⟨rfl, rfl⟩, by decide +kernel⟩, by decide +kernel, rfl, rfl, by decide, by decide +kernel, rfl, fun _ h => absurd (show (none : Option (BitVec 16)) = some _ from h) (by simp)⟩, by intro q h; obtain rfl : q = { lsa := wLsa 8, addr := 6, mono := 5 } := (Option.some.inj (show some ({ lsa := wLsa 8, addr := 6, mono := 5 } : LsaRec) = some q from h)).symm; decide, by decide +kernel⟩

theorem witness_FabricDatabase_3 : ∃ p, ∃ hdr : MsgHdr, ∃ l : Lsa, ∃ q, ∃ s : State, (Broadcast p hdr s) ∧ (s.fabricOn = true) ∧ (l.serial ≠ s.otp.serial) ∧ (s.fab.lsaOf l.serial = some q) ∧ (l.seq.toNat ≤ q.lsa.seq.toNat) :=
  ⟨3, wHdr 0xFFF 6, wLsa 8, { lsa := wLsa 8, addr := 6, mono := 5 }, wNode .run { role := 1, addr := 5, mgr := 1, db := [{ lsa := wLsa 8, addr := 6, mono := 5 }] }, ⟨⟨⟨rfl, rfl⟩, by decide +kernel⟩, by decide +kernel, rfl, rfl, by decide, by decide +kernel, rfl, fun _ h => absurd (show (none : Option (BitVec 16)) = some _ from h) (by simp)⟩, by decide +kernel⟩

theorem witness_FabricDatabase_4 : ∃ m, ∃ s : State, (Settled s) ∧ (QuietClock s) ∧ (oldestLsa s = some m) :=
  ⟨700000000, wNode .run { role := 1, addr := 5, mgr := 1, db := [{ lsa := wLsa 8, addr := 6, mono := 700000000 }] }, ⟨rfl, rfl⟩, ⟨rfl, rfl, rfl⟩, by decide +kernel⟩

theorem witness_FabricDatabase_5 : ∃ p, ∃ hdr : MsgHdr, ∃ s : State, (Broadcast p hdr s) ∧ (s.fabSec.addrMode = 2) :=
  ⟨3, wHdr 0xFFF 1, wNode .run { role := 1, addr := 0xFFF, mgr := 1 }, ⟨⟨⟨rfl, rfl⟩, by decide +kernel⟩, by decide +kernel, rfl, rfl, by decide, by decide +kernel, rfl, fun _ h => absurd (show (none : Option (BitVec 16)) = some _ from h) (by simp)⟩, by decide +kernel⟩

theorem witness_FabricDatabase_6 : ∃ p, ∃ hdr : MsgHdr, ∃ x, ∃ s : State, (Broadcast p hdr s) ∧ (x ≠ s.otp.serial) :=
  ⟨3, wHdr 0xFFF 1, 77, wNode .run { role := 1, addr := 5, mgr := 1 }, ⟨⟨⟨rfl, rfl⟩, by decide +kernel⟩, by decide +kernel, rfl, rfl, by decide, by decide +kernel, rfl, fun _ h => absurd (show (none : Option (BitVec 16)) = some _ from h) (by simp)⟩, by decide +kernel⟩

theorem witness_FabricDatabase_7 : ∃ m, ∃ s : State, (Settled s) ∧ (QuietClock s) ∧ (s.fab.dupGone = some m) ∧ (s.fab.dupAddr = true) ∧ (s.fabricOn = true) :=
  ⟨1018000000, wFab .armed { dupAddr := true, dupGone := some 1018000000, ports := wP 3 wUp }, ⟨rfl, rfl⟩, ⟨rfl, rfl, rfl⟩, by decide +kernel⟩

theorem witness_FabricDatabase_8 : ∃ src, ∃ a, ∃ e, ∃ s : State, (Settled s) ∧ (s.hears src = true) ∧ (s.mode.fromArmed = true) ∧ (s.routeOf a = some e) :=
  ⟨.pcie, 6, { addr := 6, port := 3, hops := 2 }, wNode .maint { addr := 5, routes := [{ addr := 6, port := 3, hops := 2 }] }, ⟨rfl, rfl⟩, by decide +kernel⟩

theorem witness_FabricDatabase_9 : ∃ src, ∃ a, ∃ s : State, (Settled s) ∧ (s.hears src = true) ∧ (s.mode.fromArmed = true) ∧ (s.routeOf a = none) :=
  ⟨.card, 7, wNode .run { addr := 5 }, ⟨rfl, rfl⟩, by decide +kernel⟩

theorem witness_FabricRolesAndClaims_1 : ∃ r, ∃ l, ∃ s : State, (Settled s) ∧ (QuietClock s) ∧ (s.fabricOn = true) ∧ (s.fab.db ≠ []) ∧ (s.fab.mgr = 0xFFF) ∧ (s.fab.dupAddr = false) ∧ (s.fab.role ≠ roleManager) ∧ (s.fab.ranking s.otp.serial = r :: l) ∧ (r.lsa.serial = s.otp.serial) :=
  ⟨{ lsa := wOwn, addr := 5, mono := 1000000000 }, [], wFab .run { addr := 5, db := [{ lsa := wOwn, addr := 5, mono := 1000000000 }], ports := wP 3 wUp }, ⟨rfl, rfl⟩, ⟨rfl, rfl, rfl⟩, by decide +kernel⟩

theorem witness_FabricRolesAndClaims_2 : ∃ p, ∃ hdr : MsgHdr, ∃ m, ∃ s : State, (Broadcast p hdr s) ∧ (s.fabricOn = true) ∧ (s.fab.role ≠ roleManager) ∧ (s.fab.dupAddr = false) ∧ (m ≠ s.fab.addr) ∧ (s.fab.mgr = m) ∧ (s.fab.orphan = false) ∧ (s.fab.lostMono = none) ∧ (s.fab.addr ≠ 0xFFF) :=
  ⟨3, wHdr 0xFFF 1, 1, wNode .armed { role := 1, addr := 5, mgr := 1 }, ⟨⟨⟨rfl, rfl⟩, by decide +kernel⟩, by decide +kernel, rfl, rfl, by decide, by decide +kernel, rfl, fun _ h => absurd (show (none : Option (BitVec 16)) = some _ from h) (by simp)⟩, by decide +kernel⟩

theorem witness_FabricRolesAndClaims_3 : ∃ p, ∃ hdr : MsgHdr, ∃ m, ∃ s : State, (Broadcast p hdr s) ∧ (s.fabricOn = true) ∧ (s.fab.role ≠ roleManager) ∧ (s.fab.dupAddr = false) ∧ (m ≠ s.fab.addr) ∧ (s.fab.mgr ≠ 0xFFF) ∧ (m ≠ s.fab.mgr) ∧ (m ≠ s.fab.stby) ∧ (s.mode = .run) :=
  ⟨3, wHdr 0xFFF 9, 9, wNode .run { role := 1, addr := 5, mgr := 1 }, ⟨⟨⟨rfl, rfl⟩, by decide +kernel⟩, by decide +kernel, rfl, rfl, by decide, by decide +kernel, rfl, fun _ h => absurd (show (none : Option (BitVec 16)) = some _ from h) (by simp)⟩, by decide +kernel⟩

theorem witness_FabricTicks_1 : ∃ tk, ∃ i, ∃ f, ∃ s : State, (Settled s) ∧ (QuietClock s) ∧ (s.isManager = true) ∧ (s.fabricOn = true) ∧ (s.mode.ticks = true) ∧ (s.tck.tickSent = false) ∧ (nextKnown s = some (tk, i, f)) :=
  ⟨1020000000, none, false, wMgr .run, ⟨rfl, rfl⟩, ⟨rfl, rfl, rfl⟩, by decide +kernel⟩

theorem witness_FabricTicks_2 : ∃ p, ∃ hdr : MsgHdr, ∃ m : TickMsg, ∃ s : State, (InOrder p hdr s) ∧ (reservedDst hdr.dst = false) ∧ (s.armedOn = true) ∧ ((treeChildren s).filter (fun c => c ≠ p) = []) ∧ (s.isWorker = true) ∧ (hdr.src = s.fab.mgr) ∧ (s.tck.active = 2) ∧ (s.tim.joinStep = false) ∧ (s.tim.discAct ≠ 3) ∧ (s.tim.dev + 2000 ≤ m.boundary.toNat) ∧ ((tickOffset s.tim.dev m (hdr.corr.toInt + toSigned (s.port p).peerDelay.toNat 16 * 65536)).natAbs ≤ s.fabSec.ofsLimit) :=
  ⟨3, wHdr 5 1, wTickAt 1020000000, wWork .run, ⟨⟨rfl, rfl⟩, by decide +kernel⟩, by decide +kernel⟩

theorem witness_FabricTicks_3 : ∃ p, ∃ hdr : MsgHdr, ∃ m : TickMsg, ∃ s : State, (InOrder p hdr s) ∧ (reservedDst hdr.dst = false) ∧ (s.armedOn = true) ∧ ((treeChildren s).filter (fun c => c ≠ p) = []) ∧ (s.isWorker = true) ∧ (hdr.src = s.fab.mgr) ∧ (s.tim.joinStep = false) ∧ (s.tim.discAct ≠ 3) ∧ (s.mode = .run) ∧ (s.fabSec.ofsLimit < (tickOffset s.tim.dev m (hdr.corr.toInt + toSigned (s.port p).peerDelay.toNat 16 * 65536)).natAbs) :=
  ⟨3, wHdr 5 1, { wTickAt 1020000000 with originTs := 1018000000 }, wWork .run, ⟨⟨rfl, rfl⟩, by decide +kernel⟩, by decide +kernel⟩

theorem witness_FabricTicks_4 : ∃ s : State, (BoundaryReady s) ∧ (s.isWorker = true) ∧ (s.fab.role = roleWorker) ∧ (s.tck.active = 2) ∧ (s.tck.ticked = true) ∧ (s.tck.lead = none) ∧ (s.fab.missConsec + 1 < s.fabSec.freeRun) :=
  ⟨{ wWork .run with tim := { mono := 1019000000, dev := 1019000000 } }, ⟨by decide +kernel, ⟨rfl, rfl⟩, ⟨rfl, rfl, rfl⟩, rfl, rfl, by decide +kernel, rfl, fun n => satLevel_default _ rfl n⟩, by decide +kernel⟩

theorem witness_FabricMessages_1 : ∃ p, ∃ hdr : MsgHdr, ∃ s : State, (Unicast p hdr s) ∧ (s.isWorker = true) ∧ (hdr.src = s.fab.mgr) :=
  ⟨3, wHdr 5 1, wWork .run, ⟨⟨⟨rfl, rfl⟩, by decide +kernel⟩, by decide +kernel⟩, by decide +kernel⟩

theorem witness_FabricMessages_2 : ∃ p, ∃ hdr : MsgHdr, ∃ s : State, (Unicast p hdr s) ∧ (s.isWorker = true) ∧ (hdr.src ≠ s.fab.mgr) :=
  ⟨3, wHdr 5 2, wWork .run, ⟨⟨⟨rfl, rfl⟩, by decide +kernel⟩, by decide +kernel⟩, by decide +kernel⟩

theorem witness_FabricMessages_3 : ∃ p, ∃ hdr : MsgHdr, ∃ s : State, (Broadcast p hdr s) ∧ (s.mode = .run ∨ s.mode = .degraded ∨ s.mode = .safe) ∧ (s.incOn = true) ∧ (s.incSec.trigEn.testBit 4 = true) ∧ (s.inc.vstate = .ready) ∧ (s.inc.record = none) ∧ (s.incSec.post ≠ 0) ∧ (s.inc.ringFill < 128) :=
  ⟨3, wHdr 0xFFF 1, wVit { role := 1, addr := 5, mgr := 1 }, ⟨⟨⟨rfl, rfl⟩, by decide +kernel⟩, by decide +kernel, rfl, rfl, by decide, by decide +kernel, rfl, fun _ h => absurd (show (none : Option (BitVec 16)) = some _ from h) (by simp)⟩, by decide +kernel⟩

theorem witness_FabricMessages_4 : ∃ p, ∃ hdr : MsgHdr, ∃ g : DataSeg, ∃ s : State, (Unicast p hdr s) ∧ (s.isManager = false) ∧ (s.mode.posts = true) ∧ ((s.im.queue g.queue).prod = 9) ∧ (g.seg = 0) ∧ (g.nseg = 1) ∧ (g.total = g.data.length) ∧ (g.total ≤ 16384) ∧ (s.fab.asmOf hdr.src g.queue = none) ∧ (g.queue < 256) ∧ (s.fill g.queue = 0) ∧ (0 < (s.im.queue g.queue).size) ∧ (g.data.length ≤ (s.im.queue g.queue).dataLen) :=
  ⟨3, wHdr 5 1, wSeg, wData, ⟨⟨⟨rfl, rfl⟩, by decide +kernel⟩, by decide +kernel⟩, by decide +kernel⟩

theorem witness_FabricMessages_5 : ∃ p, ∃ hdr : MsgHdr, ∃ s : State, (Unicast p hdr s) ∧ (hdr.src = s.fab.mgr) ∧ (hdr.src ≠ 0xFFF) :=
  ⟨3, wHdr 5 1, wNode .run { role := 1, addr := 5, mgr := 1, mgrSafe := true }, ⟨⟨⟨rfl, rfl⟩, by decide +kernel⟩, by decide +kernel⟩, by decide +kernel⟩

theorem witness_FabricMessages_6 : ∃ p, ∃ hdr : MsgHdr, ∃ m, ∃ s : State, (InOrder p hdr s) ∧ (s.armedOn = true) ∧ (hdr.dst = 0xFFF) ∧ (hdr.src ≠ 0xFFF) ∧ (s.fab.seenOf hdr.src = some m) ∧ (newer16 hdr.mseq m = false) :=
  ⟨3, wHdr 0xFFF 6, 9, wNode .run { role := 1, addr := 5, mgr := 1, seen := [(6, 9)] }, ⟨⟨rfl, rfl⟩, by decide +kernel⟩, by decide +kernel⟩

theorem witness_FabricMembership_1 : ∃ p, ∃ hdr : MsgHdr, ∃ j : JoinReq, ∃ s : State, (Unicast p hdr s) ∧ (s.isManager = true) ∧ (fwAgree s.otp.fwVer j.fwVer = true) ∧ (j.digest = s.im.hdr.digest) ∧ (s.fabSec.rejoin ≤ j.timeOk.toNat) :=
  ⟨3, wHdr 1 5, wJoin 0, wMgr .run, ⟨⟨⟨rfl, rfl⟩, by decide +kernel⟩, by decide +kernel⟩, by decide +kernel⟩

theorem witness_FabricMembership_2 : ∃ p, ∃ hdr : MsgHdr, ∃ j : JoinReq, ∃ s : State, (Unicast p hdr s) ∧ (s.isManager = true) ∧ (fwAgree s.otp.fwVer j.fwVer = false) :=
  ⟨3, wHdr 1 5, wJoin 0x10000, wMgr .run, ⟨⟨⟨rfl, rfl⟩, by decide +kernel⟩, by decide +kernel⟩, by decide +kernel⟩

theorem witness_FabricMembership_3 : ∃ p, ∃ hdr : MsgHdr, ∃ a : JoinAck, ∃ s : State, (Unicast p hdr s) ∧ (s.isWorker = true) ∧ (hdr.src = s.fab.mgr) ∧ (s.mode = .armed) ∧ (a.status = 0x00) :=
  ⟨3, wHdr 5 1, { status := 0, cause := 0, fwVer := 0, epoch := 1, digest := 6 }, wWork .armed, ⟨⟨⟨rfl, rfl⟩, by decide +kernel⟩, by decide +kernel⟩, by decide +kernel⟩

theorem witness_FabricMembership_4 : ∃ p, ∃ hdr : MsgHdr, ∃ a : JoinAck, ∃ s : State, (Unicast p hdr s) ∧ (s.isWorker = true) ∧ (hdr.src = s.fab.mgr) ∧ (s.mode = .armed) ∧ (a.status ≠ 0x00) :=
  ⟨3, wHdr 5 1, { status := 5, cause := 2, fwVer := 0, epoch := 1, digest := 6 }, wWork .armed, ⟨⟨⟨rfl, rfl⟩, by decide +kernel⟩, by decide +kernel⟩, by decide +kernel⟩

theorem witness_FabricMembership_5 : ∃ p, ∃ hdr : MsgHdr, ∃ m, ∃ s : State, (Unicast p hdr s) ∧ (s.isManager = true) ∧ (s.fab.member hdr.src = some m) :=
  ⟨3, wHdr 1 5, { addr := 5, mstate := 1 }, wMgr .run [{ addr := 5, mstate := 1 }], ⟨⟨⟨rfl, rfl⟩, by decide +kernel⟩, by decide +kernel⟩, by decide +kernel⟩

theorem witness_FabricMembership_6 : ∃ p, ∃ hdr : MsgHdr, ∃ s : State, (Unicast p hdr s) ∧ (s.isWorker = true) ∧ (hdr.src = s.fab.mgr) ∧ (s.mode = .run) :=
  ⟨3, wHdr 5 1, wWork .run, ⟨⟨⟨rfl, rfl⟩, by decide +kernel⟩, by decide +kernel⟩, by decide +kernel⟩

theorem witness_FabricMembership_7 : ∃ p, ∃ hdr : MsgHdr, ∃ s : State, (Unicast p hdr s) ∧ (s.isWorker = true) ∧ (hdr.src = s.fab.mgr) :=
  ⟨3, wHdr 5 1, wWork .maint, ⟨⟨⟨rfl, rfl⟩, by decide +kernel⟩, by decide +kernel⟩, by decide +kernel⟩

theorem witness_FabricMembership_8 : ∃ src, ∃ n : BitVec 10, ∃ m, ∃ s : State, (Settled s) ∧ (s.hears src = true) ∧ (s.mode.fromArmed = true) ∧ (s.isManager = true) ∧ (s.fab.member (BitVec.setWidth 12 n) = some m) :=
  ⟨.pcie, 5, { addr := 5, mstate := 1, cause := 3, offset := 7 }, wMgr .run [{ addr := 5, mstate := 1, cause := 3, offset := 7 }], ⟨rfl, rfl⟩, by decide +kernel⟩

theorem witness_FabricRolesAndClaims_4 : ∃ p, ∃ hdr : MsgHdr, ∃ s : State, (Broadcast p hdr s) ∧ (s.isWorker = true) ∧ (hdr.src = s.fab.mgr) ∧ (s.mode = .run) ∧ (s.fabSec.obeySafe = true) :=
  ⟨3, wHdr 0xFFF 1, wFab .run { role := 1, addr := 5, mgr := 1, ports := wP 3 wUp } { obeySafe := true }, ⟨⟨⟨rfl, rfl⟩, by decide +kernel⟩, by decide +kernel, rfl, rfl, by decide, by decide +kernel, rfl, fun _ h => absurd (show (none : Option (BitVec 16)) = some _ from h) (by simp)⟩, by decide +kernel⟩

theorem witness_FabricRolesAndClaims_5 : ∃ p, ∃ hdr : MsgHdr, ∃ s : State, (Broadcast p hdr s) ∧ (s.isWorker = true) ∧ (hdr.src = s.fab.mgr) ∧ (s.mode = .run) ∧ (s.fabSec.obeySafe = false) :=
  ⟨3, wHdr 0xFFF 1, wFab .run { role := 1, addr := 5, mgr := 1, ports := wP 3 wUp } {}, ⟨⟨⟨rfl, rfl⟩, by decide +kernel⟩, by decide +kernel, rfl, rfl, by decide, by decide +kernel, rfl, fun _ h => absurd (show (none : Option (BitVec 16)) = some _ from h) (by simp)⟩, by decide +kernel⟩

theorem witness_FabricRolesAndClaims_6 : ∃ s : State, (Settled s) ∧ (QuietClock s) ∧ (s.isManager = true) ∧ (s.fabricOn = true) :=
  ⟨wMgr .run, ⟨rfl, rfl⟩, ⟨rfl, rfl, rfl⟩, by decide +kernel⟩

theorem witness_FabricRolesAndClaims_7 : ∃ p, ∃ hdr : MsgHdr, ∃ c : Claim, ∃ s : State, (Broadcast p hdr s) ∧ (s.isManager = true) ∧ (s.mode = .run) ∧ (rankKey c.mgrSel c.priority c.serial < rankKey s.pins.mgrSel (BitVec.ofNat 8 s.fabSec.priority) s.otp.serial) :=
  ⟨3, wHdr 0xFFF 9, wClaim true, wMgr .run, ⟨⟨⟨rfl, rfl⟩, by decide +kernel⟩, by decide +kernel, rfl, rfl, by decide, by decide +kernel, rfl, fun _ h => absurd (show (none : Option (BitVec 16)) = some _ from h) (by simp)⟩, by decide +kernel⟩

theorem witness_FabricRolesAndClaims_8 : ∃ p, ∃ hdr : MsgHdr, ∃ c : Claim, ∃ s : State, (Broadcast p hdr s) ∧ (s.isManager = true) ∧ (rankKey s.pins.mgrSel (BitVec.ofNat 8 s.fabSec.priority) s.otp.serial ≤ rankKey c.mgrSel c.priority c.serial) :=
  ⟨3, wHdr 0xFFF 9, wClaim false, { wMgr .run with pins := { mgrSel := true } }, ⟨⟨⟨rfl, rfl⟩, by decide +kernel⟩, by decide +kernel, rfl, rfl, by decide, by decide +kernel, rfl, fun _ h => absurd (show (none : Option (BitVec 16)) = some _ from h) (by simp)⟩, by decide +kernel⟩
end

end Sys2Proof.Tests.P16
end

/-! # What every command keeps of the OTP and the queue

`State.kept` is what a command cannot change: the OTP (R1, R78, R343), apart from the gate of its key read path, and the
queue. Each function of the model has one lemma `f_kept`, in the order and under the names of the model's files; each
command's lemma `execX_keeps` follows from them, and with FLOOR_RAISE (R79), which alone changes the OTP, they give what a
step keeps. -/
namespace Sys2Proof.Machine

/-- What every command but FLOOR_RAISE keeps: the OTP, apart from the gate of its key read path, and the queue. -/
def State.kept (s : State) : Otp × List Instr := ({ s.otp with keysOff := false }, s.pending)

/-- An update that names neither the OTP nor the queue keeps both. The proof goes through `Prod.ext`, so that `simp` and
the kernel compare the two parts alone and never the other fields. -/
@[simp] theorem kept_of_parts (t : State)
    (a1 a2 a3 a4 a5 a6 a7 a8 a9 a10 a11 a12 a13 a14 a15 a16 a17 a18 a19 a20 a21 a22 a23 a24 a25 a26 a27 a28 a29 a30 a31 a32) :
    State.kept ⟨t.otp, a1, a2, a3, a4, a5, a6, a7, a8, a9, a10, a11, a12, a13, a14, a15, a16, a17, a18, a19, a20, a21,
      a22, a23, a24, a25, a26, a27, a28, a29, a30, a31, a32, t.pending⟩ = t.kept :=
  Prod.ext rfl rfl

@[simp] theorem kept_ite (c : Prop) [Decidable c] (s t : State) :
    (if c then s else t).kept = if c then s.kept else t.kept :=
  apply_ite ..

@[simp] theorem kept_fst_ite {β : Type} (c : Prop) [Decidable c] (p q : State × β) :
    (if c then p else q).1.kept = if c then p.1.kept else q.1.kept := by
  split <;> rfl

/-- A loop keeps what each of its turns keeps. -/
@[simp] theorem kept_foldl {α : Type} (f : State → α → State) (l : List α) (s : State)
    (h : ∀ t x, (f t x).kept = t.kept) : (l.foldl f s).kept = s.kept := by
  induction l generalizing s with
  | nil => rfl
  | cons x l ih => rw [List.foldl_cons, ih, h]

/-- The same, of a loop that gathers a value beside the state. -/
@[simp] theorem kept_foldl_fst {α β : Type} (f : State × β → α → State × β) (l : List α) (p : State × β)
    (h : ∀ p x, (f p x).1.kept = p.1.kept) : (l.foldl f p).1.kept = p.1.kept := by
  induction l generalizing p with
  | nil => rfl
  | cons x l ih => rw [List.foldl_cons, ih, h]

theorem kept_if {c : Prop} [Decidable c] {s t u : State} (ht : t.kept = s.kept) (hu : u.kept = s.kept) :
    (if c then t else u).kept = s.kept := by
  split <;> assumption

theorem kept_fst_if {β : Type} {c : Prop} [Decidable c] {s : State} {p q : State × β} (hp : p.1.kept = s.kept)
    (hq : q.1.kept = s.kept) : (if c then p else q).1.kept = s.kept := by
  split <;> assumption

/-- A state that keeps what `s` holds, under a name of its own: what follows rests on that alone. -/
theorem exists_eq_kept {s t : State} (h : t.kept = s.kept) : ∃ u, t = u ∧ u.kept = s.kept := ⟨t, rfl, h⟩


/-! ## Machine.Ops -/

@[simp] theorem State.say_kept (s : State) (o : Out) : (s.say o).kept = s.kept := kept_of_parts ..
@[simp] theorem State.drawn_kept (s : State) : s.drawn.kept = s.kept := kept_of_parts ..
@[simp] theorem raiseDet_kept (d : Nat) (detail : Word) (s : State) : (raiseDet d detail s).kept = s.kept :=
  kept_of_parts ..
@[simp] theorem levelOff_kept (d : Nat) (s : State) : (levelOff d s).kept = s.kept := kept_of_parts ..
@[simp] theorem pairClean_kept (d : Nat) (s : State) : (pairClean d s).kept = s.kept := by simp [pairClean]
@[simp] theorem msix_kept (v : Nat) (en : Bool) (s : State) : (msix v en s).kept = s.kept := by simp [msix]
@[simp] theorem reject_kept (src : Source) (kind page item : Nat) (s : State) :
    (reject src kind page item s).kept = s.kept :=
  kept_of_parts ..
@[simp] theorem rejectReg_kept (src : Source) (a : Nat) (s : State) : (rejectReg src a s).kept = s.kept :=
  reject_kept ..
@[simp] theorem rejectCmd_kept (src : Source) (a item : Nat) (s : State) : (rejectCmd src a item s).kept = s.kept :=
  reject_kept ..
@[simp] theorem rejectFrame_kept (src : Source) (code : Byte) (s : State) : (rejectFrame src code s).kept = s.kept :=
  reject_kept ..
@[simp] theorem State.setCam_kept (s : State) (r : Nat) (c : Cam) : (s.setCam r c).kept = s.kept := kept_of_parts ..
@[simp] theorem State.setEth_kept (s : State) (p : Nat) (e : Eth) : (s.setEth p e).kept = s.kept := kept_of_parts ..
@[simp] theorem State.setCan_kept (s : State) (c : Nat) (x : Can) : (s.setCan c x).kept = s.kept := kept_of_parts ..
@[simp] theorem State.setSpi_kept (s : State) (u : Nat) (x : Spi) : (s.setSpi u x).kept = s.kept := kept_of_parts ..
@[simp] theorem State.setCore_kept (s : State) (n : Nat) (c : Core) : (s.setCore n c).kept = s.kept := kept_of_parts ..
@[simp] theorem State.setStrm_kept (s : State) (n : Nat) (x : Stream) : (s.setStrm n x).kept = s.kept :=
  kept_of_parts ..
@[simp] theorem State.setQue_kept (s : State) (q : Nat) (x : Queue) : (s.setQue q x).kept = s.kept := kept_of_parts ..
@[simp] theorem State.setPort_kept (s : State) (p : Nat) (x : Port) : (s.setPort p x).kept = s.kept := kept_of_parts ..
@[simp] theorem State.setChan_kept (s : State) (c : Channel) (x : Chan) : (s.setChan c x).kept = s.kept := by
  unfold State.setChan
  split <;> simp
@[simp] theorem State.setRing_kept (s : State) (c : Channel) (x : Ring) : (s.setRing c x).kept = s.kept := by
  unfold State.setRing
  split <;> simp
@[simp] theorem clearBlk_kept (b : CntBlk) (s : State) : (clearBlk b s).kept = s.kept := by
  unfold clearBlk
  split <;> simp
@[simp] theorem clearLive_kept (s : State) : (clearLive s).kept = s.kept := by simp [clearLive]

/-! ## Machine.Arch -/

@[simp] theorem State.showing_kept (ecc : EccView) (s : State) : (State.showing ecc s).kept = s.kept := kept_of_parts ..
@[simp] theorem eraseDone_kept (bank : Bool) (i : Nat) (s : State) : (eraseDone bank i s).kept = s.kept := by
  simp [eraseDone]
@[simp] theorem arcCount_kept (i : Nat) (s : State) : (arcCount i s).kept = s.kept := kept_of_parts ..
@[simp] theorem arcStat_kept (code st : Byte) (s : State) : (arcStat code st s).kept = s.kept := kept_of_parts ..
@[simp] theorem arcEnd_kept (code st : Byte) (s : State) : (arcEnd code st s).kept = s.kept := by simp [arcEnd]
@[simp] theorem arcResults_kept (ws : List Word) (s : State) : (arcResults ws s).kept = s.kept := kept_of_parts ..
@[simp] theorem devBusy_kept (bank : Bool) (what : DevWhat) (a bound : Nat) (s : State) :
    (devBusy bank what a bound s).kept = s.kept := by
  simp [devBusy]
@[simp] theorem devErase_kept (bank : Bool) (i : Nat) (s : State) : (devErase bank i s).kept = s.kept := by
  simp [devErase]
@[simp] theorem devWord_kept (a : Nat) (bytes : List Byte) (s : State) : (devWord a bytes s).kept = s.kept := by
  simp [devWord]
@[simp] theorem devPut_kept (a : Nat) (bytes : List Byte) (s : State) : (devPut a bytes s).kept = s.kept := by
  simp [devPut]
@[simp] theorem devRun_kept (words : List (Nat × List Byte)) (s : State) : (devRun words s).kept = s.kept := by
  unfold devRun
  split <;> simp
@[simp] theorem abandonErase_kept (s : State) : (abandonErase s).kept = s.kept := by simp [abandonErase]

@[simp] theorem devPutFirst_kept (places : List Nat) (bytes : List Byte) (s : State) :
    (devPutFirst places bytes s).kept = s.kept := by
  induction places generalizing s with
  | nil => rfl
  | cons a rest ih => simp [devPutFirst, ih]

@[simp] theorem suspendNow_kept (e : ArcErase) (s : State) : (suspendNow e s).kept = s.kept := by simp [suspendNow]

@[simp] theorem arcNow_kept (s : State) : (arcNow s).kept = s.kept := by
  unfold arcNow
  dsimp only
  split
  · split <;> simp
  · split
    · simp
    · rfl

@[simp] theorem eccCorrected_kept (a n : Nat) (s : State) : (eccCorrected a n s).kept = s.kept := by simp [eccCorrected]
@[simp] theorem eccUncorrectable_kept (a : Nat) (s : State) : (eccUncorrectable a s).kept = s.kept := by
  simp [eccUncorrectable]
@[simp] theorem eccLine_kept (a : Nat) (s : State) : (eccLine a s).kept = s.kept := by simp [eccLine]
@[simp] theorem eccLines_kept (lines : List Nat) (s : State) : (eccLines lines s).kept = s.kept := by simp [eccLines]
@[simp] theorem streamCount_kept (bank : Bool) (bursts : Nat) (s : State) : (streamCount bank bursts s).kept = s.kept := by
  simp [streamCount]
@[simp] theorem streamS_kept (a len : Nat) (s : State) : (streamS a len s).kept = s.kept := by simp [streamS]
@[simp] theorem fillCtl_kept (errs : List Nat) (l : Nat) (s : State) : (fillCtl errs l s).kept = s.kept := by
  simp [fillCtl]
@[simp] theorem ctlRead_kept (a len : Nat) (s : State) : (ctlRead a len s).kept = s.kept := by simp [ctlRead]
@[simp] theorem relieve_kept (place : Nat) (s : State) : (relieve place s).kept = s.kept := by simp [relieve]
@[simp] theorem selectorSpace_kept (s : State) : (selectorSpace s).1.kept = s.kept := by
  simp only [selectorSpace]
  split <;> simp

@[simp] theorem putSelector_kept (bytes : List Byte) (n : Nat) (s : State) : (putSelector bytes n s).kept = s.kept := by
  induction n generalizing s with
  | zero => simp [putSelector]
  | succ n ih => simp [putSelector, ih]

@[simp] theorem writeSelector_kept (twin : Twin) (pre : Word) (s : State) : (writeSelector twin pre s).kept = s.kept := by
  simp [writeSelector]
@[simp] theorem wordEnds_kept (p : ArcProg) (s : State) : (wordEnds p s).kept = s.kept := by simp [wordEnds]
@[simp] theorem swapEnds_kept (p : ArcProg) (s : State) : (swapEnds p s).kept = s.kept := by simp [swapEnds]
@[simp] theorem blankEnds_kept (p : ArcProg) (s : State) : (blankEnds p s).kept = s.kept := by simp [blankEnds]
@[simp] theorem progEnds_kept (s : State) : (progEnds s).kept = s.kept := by unfold progEnds; split <;> simp
@[simp] theorem agentTurn_kept (s : State) : (agentTurn s).kept = s.kept := by simp only [agentTurn]; split <;> simp

/-! ## Machine.Ledger -/

@[simp] theorem putLedger_kept (p : Nat) (words : List (List Byte)) (s : State) :
    (putLedger p words s).kept = s.kept := by
  unfold putLedger
  refine kept_foldl_fst _ _ _ fun p q => ?_
  split <;> simp

@[simp] theorem ldgTouch_kept (s : State) : (ldgTouch s).kept = s.kept := kept_of_parts ..
@[simp] theorem ldgFull_kept (s : State) : (ldgFull s).kept = s.kept := by simp [ldgFull]
@[simp] theorem ldgStore_kept (e : LedgerEntry) (s : State) : (ldgStore e s).kept = s.kept := by simp [ldgStore]
@[simp] theorem ldgWrite_kept (e : LedgerEntry) (s : State) : (ldgWrite e s).kept = s.kept := by simp [ldgWrite]
@[simp] theorem ldgCheckpoint_kept (final : Bool) (s : State) : (ldgCheckpoint final s).kept = s.kept := by
  simp [ldgCheckpoint]
@[simp] theorem ldgEndCheck_kept (s : State) : (ldgEndCheck s).kept = s.kept := by unfold ldgEndCheck; split <;> simp
@[simp] theorem ldgClose_kept (flags : Byte) (s : State) : (ldgClose flags s).kept = s.kept := by simp [ldgClose]
@[simp] theorem ldgOpen_kept (p : Nat) (s : State) : (ldgOpen p s).kept = s.kept := by simp [ldgOpen]
@[simp] theorem ldgSkip_kept (p : Nat) (s : State) : (ldgSkip p s).kept = s.kept := by simp [ldgSkip]
@[simp] theorem ldgSkipTo_kept (old p q : Nat) (s : State) : (ldgSkipTo old p q s).kept = s.kept := by simp [ldgSkipTo]

@[simp] theorem ldgJudge_kept (old : Nat) (s : State) : (ldgJudge old s).kept = s.kept := by
  unfold ldgJudge
  dsimp only
  split
  · rfl
  · split
    · split
      · simp
      · rfl
    · split
      · rfl
      · split
        · rfl
        · split <;> simp

@[simp] theorem ldgArm_kept (s : State) : (ldgArm s).kept = s.kept := by unfold ldgArm; split <;> simp
@[simp] theorem ldgStepEntry_kept (old new : Nat) (s : State) : (ldgStepEntry old new s).kept = s.kept := by
  simp [ldgStepEntry]
@[simp] theorem ldgStep_kept (old new : Nat) (s : State) : (ldgStep old new s).kept = s.kept := by simp [ldgStep]

@[simp] theorem ldgFirstLock_kept (s : State) : (ldgFirstLock s).kept = s.kept := by
  unfold ldgFirstLock
  dsimp only
  split
  · rfl
  · split <;> simp

@[simp] theorem ldgBackstop_kept (s : State) : (ldgBackstop s).kept = s.kept := by unfold ldgBackstop; split <;> simp
@[simp] theorem ldgAccrue_kept (len : Nat) (emitRun : Bool) (gateDone : Nat → Bool) (s : State) :
    (ldgAccrue len emitRun gateDone s).kept = s.kept := by
  simp [ldgAccrue]

@[simp] theorem ldgResume_kept (s : State) : (ldgResume s).kept = s.kept := by
  obtain ⟨u, hu, h⟩ := exists_eq_kept (ctlRead_kept ledgerBase 0x10000 s)
  unfold ldgResume
  rw [hu]
  split
  · rfl
  · extract_lets _ found _ _ _ _ _ _ s₁ _ s₂
    have h₁ : s₁.kept = s.kept := (kept_of_parts ..).trans h
    clear_value s₁
    have h₂ : s₂.kept = s.kept := by
      unfold s₂
      split
      · exact (kept_of_parts ..).trans h₁
      · exact h₁
    clear_value s₂
    split
    · exact h₂
    · exact (kept_of_parts ..).trans ((kept_of_parts ..).trans h₂)

@[simp] theorem ldgStart_kept (s : State) : (ldgStart s).kept = s.kept := by simp [ldgStart]
@[simp] theorem ldgCommitClose_kept (s : State) : (ldgCommitClose s).kept = s.kept := by simp [ldgCommitClose]
@[simp] theorem ldgCommitOpen_kept (new : Option LedgerSec) (s : State) : (ldgCommitOpen new s).kept = s.kept := by
  unfold ldgCommitOpen
  split <;> simp

/-! ## Machine.Clock -/

@[simp] theorem setLocked_kept (b : Bool) (s : State) : (setLocked b s).kept = s.kept := by simp [setLocked]
@[simp] theorem timeStep_kept (cause : BitVec 3) (old new : Nat) (s : State) :
    (timeStep cause old new s).kept = s.kept := by
  simp [timeStep]
@[simp] theorem hostStep_kept (old new : Nat) (s : State) : (hostStep old new s).kept = s.kept := by simp [hostStep]
@[simp] theorem slewBegin_kept (ofs : Int) (ppm : Nat) (s : State) : (slewBegin ofs ppm s).kept = s.kept :=
  kept_of_parts ..
@[simp] theorem takeApply_kept (a : TimApply) (old : Nat) (s : State) : (takeApply a old s).kept = s.kept := by
  simp [takeApply]
@[simp] theorem plainUpdates_kept (k : Nat) (s : State) : (plainUpdates k s).kept = s.kept := by simp [plainUpdates]
@[simp] theorem stageDisc_kept (d : BitVec 2) (s : State) : (stageDisc d s).kept = s.kept := kept_of_parts ..
@[simp] theorem takeDisc_kept (d : BitVec 2) (s : State) : (takeDisc d s).kept = s.kept := by simp [takeDisc]

@[simp] theorem counterUpdate_kept (s : State) : (counterUpdate s).kept = s.kept := by
  unfold counterUpdate
  extract_lets s₁ _ s₂ _ _ s₃
  have h₁ : s₁.kept = s.kept := by
    unfold s₁
    split <;> simp
  have h : s₃.kept = s.kept :=
    (kept_foldl _ _ _ fun t a => takeApply_kept ..).trans <| (kept_of_parts ..).trans <| (plainUpdates_kept ..).trans h₁
  clear_value s₃
  split
  · exact h
  · split <;> simp [h]

@[simp] theorem updates_kept (fuel n : Nat) (s : State) : (updates fuel n s).kept = s.kept := by
  induction fuel generalizing n s with
  | zero => exact plainUpdates_kept n s
  | succ fuel ih => simp [updates, ih]

@[simp] theorem advanceTo_kept (m : Nat) (s : State) : (advanceTo m s).kept = s.kept := by simp [advanceTo]
@[simp] theorem advanceStamp_kept (g : Nat) (s : State) : (advanceStamp g s).kept = s.kept := by
  unfold advanceStamp
  exact kept_foldl _ _ _ fun t _ => by simp

@[simp] theorem toStamp_kept (n : Nat) (g : State → Int) (s : State) : (toStamp n g s).kept = s.kept := by
  induction n generalizing s with
  | zero => rfl
  | succ n ih => simp [toStamp, ih]

@[simp] theorem lockJudge_kept (o : Int) (s : State) : (lockJudge o s).kept = s.kept := by simp [lockJudge]
@[simp] theorem measure_kept (cause : BitVec 3) (o : Int) (i : Nat) (s : State) : (measure cause o i s).kept = s.kept := by
  simp [measure]
@[simp] theorem enterHoldover_kept (s : State) : (enterHoldover s).kept = s.kept := by simp [enterHoldover]

/-! ## Machine.FabOps -/

@[simp] theorem fabVec_kept (s : State) : (fabVec s).kept = s.kept := by simp [fabVec]
@[simp] theorem graphChanged_kept (s : State) : (graphChanged s).kept = s.kept := by simp [graphChanged]
@[simp] theorem sendPort_kept (p : Nat) (hdr : MsgHdr) (msg : FabMsg) (s : State) :
    (sendPort p hdr msg s).kept = s.kept := by
  simp [sendPort]
@[simp] theorem transmit_kept (s : State) (m : OutMsg) : (transmit s m).kept = s.kept := by simp [transmit]
@[simp] theorem flushPorts_kept (s : State) : (flushPorts s).kept = s.kept := by simp [flushPorts]
@[simp] theorem sendAck_kept (p : Nat) (kind : BitVec 4) (seq : BitVec 12) (s : State) :
    (sendAck p kind seq s).kept = s.kept := by
  simp [sendAck]
@[simp] theorem sendAll_kept (but : Option Nat) (hdr : MsgHdr) (msg : FabMsg) (s : State) :
    (sendAll but hdr msg s).kept = s.kept := by
  simp [sendAll]
@[simp] theorem sendLink_kept (p : Nat) (msg : FabMsg) (s : State) : (sendLink p msg s).kept = s.kept := by
  simp [sendLink]
@[simp] theorem sendBroadcast_kept (msg : FabMsg) (s : State) : (sendBroadcast msg s).kept = s.kept := by
  simp [sendBroadcast]

@[simp] theorem sendTo_kept (dst : BitVec 12) (replyReq : Bool) (msg : FabMsg) (s : State) :
    (sendTo dst replyReq msg s).kept = s.kept := by
  simp only [sendTo]
  split <;> simp

@[simp] theorem answerReq_kept (p : Nat) (hdr : MsgHdr) (type status : Byte) (s : State) :
    (answerReq p hdr type status s).kept = s.kept := by
  simp [answerReq]
@[simp] theorem passOn_kept (ports : List Nat) (hdr : MsgHdr) (msg : FabMsg) (s : State) :
    (passOn ports hdr msg s).kept = s.kept := by
  simp [passOn]
@[simp] theorem acceptLink_kept (p : Nat) (rx : LinkRx) (s : State) : (acceptLink p rx s).kept = s.kept := by
  simp [acceptLink]
@[simp] theorem missFrame_kept (p : Nat) (cnt : Option Nat) (s : State) : (missFrame p cnt s).kept = s.kept := by
  simp [missFrame]

@[simp] theorem frameTaken_kept (p : Nat) (rx : LinkRx) (k : State → State) (s : State) (hk : ∀ t, (k t).kept = t.kept) :
    (frameTaken p rx k s).kept = s.kept := by
  unfold frameTaken
  split
  · rfl
  · split <;> simp [hk]

@[simp] theorem messageTaken_kept (p : Nat) (hdr : MsgHdr) (k : State → State) (s : State) (hk : ∀ t, (k t).kept = t.kept) :
    (messageTaken p hdr k s).kept = s.kept := by
  refine frameTaken_kept _ _ _ _ fun t => ?_
  split <;> simp [hk]

@[simp] theorem received_kept (p : Nat) (hdr : MsgHdr) (type : Byte) (k : State → State) (s : State) (hk : ∀ t, (k t).kept = t.kept) :
    (received p hdr type k s).kept = s.kept :=
  messageTaken_kept _ _ _ _ fun t => by simp [hk]

@[simp] theorem arrive_kept (p : Nat) (hdr : MsgHdr) (msg : FabMsg) (fresh : Option Bool) (deliver : State → State × Byte) (s : State)
    (hd : ∀ t, (deliver t).1.kept = t.kept) : (arrive p hdr msg fresh deliver s).kept = s.kept := by
  refine received_kept _ _ _ _ _ fun t => ?_
  extract_lets take _ bySeq _ _ s₁ s₂
  have ht (u : State) : (take u).kept = u.kept := by simp [take, hd]
  have h : s₂.kept = t.kept := by simp [s₂, s₁]
  clear_value take bySeq s₂
  refine kept_if (by simp [h, ht]) <| kept_if (ht t) ?_
  split <;> simp

@[simp] theorem storeLsa_kept (r : LsaRec) (s : State) : (storeLsa r s).kept = s.kept := by simp [storeLsa]
@[simp] theorem floodLsa_kept (s : State) : (floodLsa s).kept = s.kept := by simp [floodLsa]
@[simp] theorem linkDown_kept (p : Nat) (s : State) : (linkDown p s).kept = s.kept := by simp [linkDown]
@[simp] theorem linkLost_kept (p : Nat) (s : State) : (linkLost p s).kept = s.kept := by simp [linkLost]
@[simp] theorem idleFabric_kept (s : State) : (idleFabric s).kept = s.kept := by simp [idleFabric]
@[simp] theorem setRole_kept (r : BitVec 3) (s : State) : (setRole r s).kept = s.kept := by simp [setRole]
@[simp] theorem followFabric_kept (s : State) : (followFabric s).kept = s.kept := by simp [followFabric]
@[simp] theorem genHeard_kept (e : BitVec 64) (s : State) : (genHeard e s).kept = s.kept := kept_of_parts ..
@[simp] theorem setEpoch_kept (e : BitVec 64) (s : State) : (setEpoch e s).kept = s.kept := by simp [setEpoch]
@[simp] theorem sendRole_kept (s : State) : (sendRole s).kept = s.kept := by simp [sendRole]
@[simp] theorem epochUp_kept (k : Nat) (s : State) : (epochUp k s).kept = s.kept := by simp [epochUp]
@[simp] theorem takeOffice_kept (stby : BitVec 12) (isTakeover : Bool) (s : State) :
    (takeOffice stby isTakeover s).kept = s.kept := by
  simp [takeOffice]

@[simp] theorem planAddrs_kept (s : State) : (planAddrs s).1.kept = s.kept := by
  unfold planAddrs
  refine kept_foldl_fst _ _ _ fun p x => ?_
  extract_lets t _ a
  clear_value a
  cases a <;> simp [t]

@[simp] theorem sendAddrs_kept (l : List (BitVec 64 × BitVec 12)) (s : State) : (sendAddrs l s).kept = s.kept := by
  simp [sendAddrs]
@[simp] theorem assignAddrs_kept (s : State) : (assignAddrs s).kept = s.kept := by simp [assignAddrs]
@[simp] theorem issueVerdict_kept (m : Member) (cause : BitVec 4) (action : Byte) (s : State) :
    (issueVerdict m cause action s).kept = s.kept := by
  simp [issueVerdict]

/-! ## Machine.VitOps -/

@[simp] theorem putRec_kept (a : Area) (first w : Nat) (bs : List (List Byte)) (s : State) :
    (putRec a first w bs s).kept = s.kept := by
  induction bs generalizing w s with
  | nil => rfl
  | cons b bs ih => simp [putRec, ih]

@[simp] theorem ringRestart_kept (s : State) : (ringRestart s).kept = s.kept := kept_of_parts ..
@[simp] theorem endCapture_kept (s : State) : (endCapture s).kept = s.kept := by unfold endCapture; split <;> simp

@[simp] theorem ringWrite_kept (tick : BitVec 64) (flags : BitVec 16) (bytes : List Byte) (s : State) :
    (ringWrite tick flags bytes s).kept = s.kept := by
  unfold ringWrite
  split
  · rfl
  · extract_lets pos slot _ s₁
    have h : s₁.kept = s.kept := by
      clear_value pos slot
      cases slot <;> simp [s₁]
    clear_value s₁
    split
    · split <;> simp [h]
    · exact h

@[simp] theorem trigLost_kept (s : State) : (trigLost s).kept = s.kept := by simp only [trigLost]; split <;> simp
@[simp] theorem addTrig_kept (t : TrigEntry) (s : State) : (addTrig t s).kept = s.kept := by
  unfold addTrig
  split <;> simp
@[simp] theorem openRecord_kept (t : TrigEntry) (s : State) : (openRecord t s).kept = s.kept := by simp [openRecord]

@[simp] theorem takeTrigger_kept (t : TrigEntry) (s : State) : (takeTrigger t s).kept = s.kept := by
  unfold takeTrigger
  split
  · simp
  · split
    · simp
    · dsimp only
      split <;> simp
  · split <;> simp
  · rfl
  · simp

@[simp] theorem vitTriggerAt_kept (back cause : Nat) (detail : BitVec 16) (level : Byte) (origin : BitVec 64) (s : State) :
    (vitTriggerAt back cause detail level origin s).kept = s.kept := by
  unfold vitTriggerAt
  extract_lets _ listed t s₁
  have h : s₁.kept = s.kept := by simp [s₁]
  clear_value listed t s₁
  simp [h]

@[simp] theorem vitTrigger_kept (cause : Nat) (detail : BitVec 16) (level : Byte) (origin : BitVec 64) (s : State) :
    (vitTrigger cause detail level origin s).kept = s.kept :=
  vitTriggerAt_kept ..
@[simp] theorem commitBlock_kept (s : State) : (commitBlock s).kept = s.kept := by unfold commitBlock; split <;> simp
@[simp] theorem recheckRecord_kept (s : State) : (recheckRecord s).kept = s.kept := by simp [recheckRecord]
@[simp] theorem writeClose_kept (cause : Nat) (r : Record) (sumBytes : Nat) (s : State) :
    (writeClose cause r sumBytes s).kept = s.kept := by
  simp [writeClose]
@[simp] theorem scanArea_kept (s : State) : (scanArea s).kept = s.kept := by simp [scanArea]
@[simp] theorem eraseAhead_kept (from_ : Nat) (s : State) : (eraseAhead from_ s).1.kept = s.kept := by simp [eraseAhead]
@[simp] theorem sealComplete_kept (s : State) : (sealComplete s).kept = s.kept := by unfold sealComplete; split <;> simp
@[simp] theorem sealNow_kept (cause : Nat) (s : State) : (sealNow cause s).kept = s.kept := by
  simp only [sealNow]
  split <;> simp
@[simp] theorem readBlocks_kept (f : FoundRec) (s : State) : (readBlocks f s).kept = s.kept := by simp [readBlocks]
@[simp] theorem startSeal_kept (s : State) : (startSeal s).kept = s.kept := by simp [startSeal]
@[simp] theorem vitPrepare_kept (s : State) : (vitPrepare s).kept = s.kept := by simp only [vitPrepare]; split <;> simp
@[simp] theorem vitConfigure_kept (s : State) : (vitConfigure s).kept = s.kept := kept_of_parts ..
@[simp] theorem vitLeave_kept (s : State) : (vitLeave s).kept = s.kept := by simp [vitLeave]

/-! ## Machine.Sched -/

@[simp] theorem putToken_kept (slot : Nat) (gen : Byte) (t : Token) (s : State) :
    (putToken slot gen t s).kept = s.kept :=
  kept_of_parts ..
@[simp] theorem writeTensor_kept (slot : Nat) (gen : Byte) (off : Nat) (bytes : List Byte) (s : State) :
    (writeTensor slot gen off bytes s).kept = s.kept := by
  simp [writeTensor]
@[simp] theorem schVec_kept (s : State) : (schVec s).kept = s.kept := by simp [schVec]
@[simp] theorem writeVoid_kept (slot : Nat) (gen : Byte) (mask : Word) (s : State) :
    (writeVoid slot gen mask s).kept = s.kept := by
  simp [writeVoid]
@[simp] theorem voidOutputs_kept (t : TaskDesc) (gen : Byte) (mask : Word) (s : State) :
    (voidOutputs t gen mask s).kept = s.kept := by
  simp [voidOutputs]
@[simp] theorem markDone_kept (id : Nat) (k : BitVec 64) (s : State) : (markDone id k s).kept = s.kept :=
  kept_of_parts ..
@[simp] theorem loseTask_kept (t : TaskDesc) (k : BitVec 64) (s : State) : (loseTask t k s).kept = s.kept := by
  simp [loseTask]
@[simp] theorem reportSolve_kept (n : Nat) (r : SolveRun) (fbDefault accepted : Bool) (s : State) :
    (reportSolve n r fbDefault accepted s).kept = s.kept := by
  simp [reportSolve]
@[simp] theorem abortSolve_kept (n : Nat) (j : Job) (s : State) : (abortSolve n j s).kept = s.kept := by
  unfold abortSolve
  split <;> simp
@[simp] theorem fillFallback_kept (t : TaskDesc) (e : SolveEntry) (core : Nat) (s : State) :
    (fillFallback t e core s).kept = s.kept := by
  simp [fillFallback]
@[simp] theorem freeCore_kept (n : Nat) (s : State) : (freeCore n s).kept = s.kept := by simp [freeCore]

@[simp] theorem dropRunning_kept (hit : Job → Bool) (s : State) : (dropRunning hit s).kept = s.kept := by
  unfold dropRunning
  refine kept_foldl _ _ _ fun t n => ?_
  split <;> simp

@[simp] theorem abortWaiting_kept (l : List TaskDesc) (s : State) : (abortWaiting l s).kept = s.kept := by
  unfold abortWaiting
  refine kept_foldl _ _ _ fun t d => ?_
  split <;> simp

@[simp] theorem cancelTick_kept (k : BitVec 64) (s : State) : (cancelTick k s).1.kept = s.kept := by simp [cancelTick]
@[simp] theorem dropTasks_kept (s : State) : (dropTasks s).kept = s.kept := by simp [dropTasks]
@[simp] theorem stopCompute_kept (s : State) : (stopCompute s).kept = s.kept := by simp [stopCompute]

@[simp] theorem fenceCore_kept (n : Nat) (cause : BitVec 2) (s : State) : (fenceCore n cause s).kept = s.kept := by
  unfold fenceCore
  split
  · rfl
  · refine (kept_foldl _ _ _ fun t j => ?_).trans ?_
    · split
      · rfl
      · split <;> simp
    · split <;> simp

/-! ## Machine.States -/

@[simp] theorem drivePair_kept (v : Option (Bool × Bool)) (s : State) : (drivePair v s).kept = s.kept := by
  unfold drivePair
  split
  · rfl
  · split <;> simp

@[simp] theorem pairFor_kept (old : Mode) (s : State) : (pairFor old s).kept = s.kept := by simp [pairFor]
@[simp] theorem endTick_kept (s : State) : (endTick s).kept = s.kept := by simp [endTick]
@[simp] theorem idlePorts_kept (s : State) : (idlePorts s).kept = s.kept := by simp [idlePorts]
@[simp] theorem dropFrames_kept (s : State) : (dropFrames s).kept = s.kept := kept_of_parts ..
@[simp] theorem withdrawCommit_kept (s : State) : (withdrawCommit s).kept = s.kept := by simp [withdrawCommit]

@[simp] theorem managerSafe_kept (s : State) : (managerSafe s).kept = s.kept := by
  unfold managerSafe
  split
  · rfl
  · split
    · simp
    · simp
    · rfl

@[simp] theorem pinsBack_kept (old : Mode) (s : State) : (pinsBack old s).kept = s.kept := by
  unfold pinsBack
  split
  · split
    · simp
    · simp
    · simp
    · rfl
  · rfl

@[simp] theorem dropCompute_kept (s : State) : (dropCompute s).kept = s.kept := by simp [dropCompute]
@[simp] theorem quietCores_kept (s : State) : (quietCores s).kept = s.kept := by simp [quietCores]
@[simp] theorem keepBefore_kept (s : State) : (keepBefore s).kept = s.kept := by simp [keepBefore]

@[simp] theorem enter_kept (m : Mode) (s : State) : (enter m s).kept = s.kept := by
  unfold enter
  split
  · split <;> simp
  · split <;> simp

@[simp] theorem undoHalt_kept (s : State) : (undoHalt s).kept = s.kept := by unfold undoHalt; split <;> simp
@[simp] theorem undoLower_kept (s : State) : (undoLower s).kept = s.kept := by unfold undoLower; split <;> simp
@[simp] theorem enterOver_kept (m : Mode) (s : State) : (enterOver m s).kept = s.kept := by simp [enterOver]
@[simp] theorem quarantine_kept (cause : BitVec 4) (s : State) : (quarantine cause s).kept = s.kept := by
  simp only [quarantine]
  split <;> simp
@[simp] theorem degrade_kept (s : State) : (degrade s).kept = s.kept := by simp [degrade]
@[simp] theorem goSafe_kept (s : State) : (goSafe s).kept = s.kept := by unfold goSafe; split <;> simp
@[simp] theorem finishWord_kept (s : State) : (finishWord s).kept = s.kept := by unfold finishWord; split <;> simp

@[simp] theorem afterReset_kept (kind : BitVec 2) (s : State) : (afterReset kind s).kept = s.kept := by
  unfold afterReset
  extract_lets _ _ _ _ _ _ _ _ base
  have h : base.kept = s.kept := by
    unfold base State.kept
    split <;> rfl
  clear_value base
  exact kept_if ((kept_of_parts ..).trans h) ((kept_of_parts ..).trans h)

@[simp] theorem levelsCleared_kept (s : State) : (levelsCleared s).kept = s.kept := by simp [levelsCleared]
@[simp] theorem resetTo_kept (kind : BitVec 2) (s : State) : (resetTo kind s).kept = s.kept := by simp [resetTo]
@[simp] theorem goOff_kept (s : State) : (goOff s).kept = s.kept := by simp [goOff]

/-! ## Machine.Warden -/

@[simp] theorem fenceOf_kept (d : Nat) (s : State) : (fenceOf d s).kept = s.kept := by simp [fenceOf]

@[simp] theorem recordOcc_kept (d level : Nat) (line esc act : Bool) (detail : Word) (held : Bool) (s : State) :
    (recordOcc d level line esc act detail held s).kept = s.kept := by
  unfold recordOcc
  split <;> simp

@[simp] theorem occur_kept (d : Nat) (line act : Bool) (detail : Word) (s : State) :
    (occur d line act detail s).1.kept = s.kept := by
  simp [occur]

@[simp] theorem takePattern_kept (block : Bool) (x : DetPattern) (s : State) :
    (takePattern block x s).1.kept = s.kept := by
  unfold takePattern
  dsimp only
  split
  · simp
  · split
    · split <;> simp
    · simp

@[simp] theorem react_kept (l : List (Nat × Nat)) (s : State) : (react l s).kept = s.kept := by
  unfold react
  split <;> simp
@[simp] theorem takePatterns_kept (block : Bool) (l : List DetPattern) (s : State) :
    (takePatterns block l s).kept = s.kept := by
  simp [takePatterns]

@[simp] theorem settleN_kept (n : Nat) (s : State) : (settleN n s).kept = s.kept := by
  induction n generalizing s with
  | zero => rfl
  | succ n ih => simp [settleN, ih]

@[simp] theorem settle_kept (s : State) : (settle s).kept = s.kept := by simp [settle]

/-- An answer that is a next state keeps what `s` holds. -/
def Answer.Keeps (a : Answer) (s : State) : Prop := ∀ t, a = .next t → t.kept = s.kept

/-- A command that keeps what `s` holds still does so once the warden has taken what it raised. -/
theorem done_keeps {s u : State} (h : u.kept = s.kept) : (done u).Keeps s := by
  rintro t ⟨⟩
  exact (settle_kept u).trans h
@[simp] theorem rejudge_kept (s : State) : (rejudge s).kept = s.kept := by
  unfold rejudge
  exact (react_kept ..).trans (kept_foldl_fst _ _ _ fun p r => rfl)
@[simp] theorem clearRec_kept (d : Nat) (s : State) : (clearRec d s).kept = s.kept := by unfold clearRec; split <;> simp
@[simp] theorem clearAllRecs_kept (s : State) : (clearAllRecs s).kept = s.kept := by simp [clearAllRecs]
@[simp] theorem extDropped_kept (s : State) : (extDropped s).kept = s.kept := by simp [extDropped]

/-! ## Machine.PowerOps -/

@[simp] theorem pwrVec_kept (s : State) : (pwrVec s).kept = s.kept := by simp [pwrVec]
@[simp] theorem thermalCap_kept (s : State) : (thermalCap s).kept = s.kept := by simp [thermalCap]
@[simp] theorem thermalLevel_kept (s : State) : (thermalLevel s).kept = s.kept := by simp [thermalLevel]
@[simp] theorem takeBudget_kept (s : State) (b : FabBudget) : (takeBudget s b).kept = s.kept := by simp [takeBudget]
@[simp] theorem fabBudget_kept (s : State) : (fabBudget s).kept = s.kept := by simp [fabBudget]
@[simp] theorem settleBudget_kept (s : State) : (settleBudget s).kept = s.kept := by unfold settleBudget; split <;> simp
@[simp] theorem planWait_kept (s : State) : (planWait s).kept = s.kept := by unfold planWait; split <;> simp

@[simp] theorem relockStall_kept (oldMhz until_ : Nat) (s : State) : (relockStall oldMhz until_ s).kept = s.kept := by
  unfold relockStall
  refine kept_foldl _ _ _ fun t n => ?_
  dsimp only
  split <;> simp

@[simp] theorem configurePower_kept (old : Option PowerSec) (new : PowerSec) (s : State) :
    (configurePower old new s).kept = s.kept := by
  simp [configurePower]

/-! ## Machine.ImgOps -/

@[simp] theorem emptyGrids_kept (s : State) : (emptyGrids s).kept = s.kept := by simp [emptyGrids]
@[simp] theorem clearVote_kept (s : State) : (clearVote s).kept = s.kept := kept_of_parts ..
@[simp] theorem rebuildSched_kept (s : State) : (rebuildSched s).kept = s.kept := by simp [rebuildSched]
@[simp] theorem fillFallbacks_kept (old : Option (Image × Mem)) (s : State) : (fillFallbacks old s).kept = s.kept := by
  simp [fillFallbacks]
@[simp] theorem clearReserve_kept (banks : List (Nat × Nat)) (im : Image) (s : State) :
    (clearReserve banks im s).kept = s.kept := by
  simp [clearReserve]
@[simp] theorem imageDisc_kept (d : BitVec 2) (s : State) : (imageDisc d s).kept = s.kept := by simp [imageDisc]
@[simp] theorem configureArc_kept (a : ArcAreaSec) (s : State) : (configureArc a s).kept = s.kept := kept_of_parts ..

@[simp] theorem egoDefault_kept (s : State) : (egoDefault s).kept = s.kept := by
  unfold egoDefault
  split
  · simp
  · split <;> simp

@[simp] theorem configureAll_kept (im : Image) (twin : Twin) (s : State) : (configureAll im twin s).kept = s.kept := by
  simp [configureAll]
@[simp] theorem managerCommit_kept (s : State) : (managerCommit s).kept = s.kept := by simp [managerCommit]
@[simp] theorem commitFabric_kept (old new : Image) (s : State) : (commitFabric old new s).kept = s.kept := by
  simp [commitFabric]

@[simp] theorem sendBudgets_kept (s : State) : (sendBudgets s).kept = s.kept := by
  unfold sendBudgets
  split
  · rfl
  · refine (kept_foldl _ _ _ fun t e => ?_).trans rfl
    split <;> simp

@[simp] theorem imageSrc_kept (d : BitVec 2) (s : State) : (imageSrc d s).kept = s.kept := by simp [imageSrc]
@[simp] theorem dropCardFrames_kept (old new : Image) (s : State) : (dropCardFrames old new s).kept = s.kept := by
  simp [dropCardFrames]

@[simp] theorem commitImage_kept (s : State) : (commitImage s).kept = s.kept := by
  unfold commitImage
  split
  · rfl
  · exact (extDropped_kept _).trans <| (msix_kept ..).trans <| (sendBudgets_kept _).trans <| (managerCommit_kept _).trans <|
      (kept_if rfl (egoDefault_kept _)).trans <| (commitFabric_kept ..).trans <| (kept_if (vitConfigure_kept _) rfl).trans <|
      (kept_if (ldgCommitOpen_kept ..) rfl).trans <| (kept_if (imageSrc_kept ..) rfl).trans <| (kept_if (imageDisc_kept ..) rfl).trans <|
      (kept_of_parts ..).trans <| (configurePower_kept ..).trans <| (kept_if rfl (clearVote_kept _)).trans <| (dropCardFrames_kept ..).trans <|
      (kept_if ((emptyGrids_kept _).trans (kept_of_parts ..)) rfl).trans <| (fillFallbacks_kept ..).trans <| (clearReserve_kept ..).trans <|
      (kept_of_parts ..).trans <| (rebuildSched_kept _).trans <| (kept_of_parts ..).trans <| (kept_if (sealNow_kept ..) rfl).trans <|
      kept_if (ldgCommitClose_kept _) rfl

/-! ## Machine.Queues -/

theorem storeData_kept {q : Nat} {bytes : List Byte} {s u : State} {a : Nat} (h : storeData q bytes s = some (u, a)) :
    u.kept = s.kept := by
  unfold storeData at h
  split at h
  · cases h; rfl
  · obtain ⟨b, -, hb⟩ := Option.map_eq_some_iff.1 h
    cases hb; rfl

@[simp] theorem markDelivered_kept (s : State) : (markDelivered s).kept = s.kept := kept_of_parts ..
@[simp] theorem streamArrived_kept (d : StreamDecl) (c : BitVec 64) (s : State) : (streamArrived d c s).kept = s.kept := by
  simp [streamArrived]
@[simp] theorem setOff_kept (q place : Nat) (off : Int) (s : State) : (setOff q place off s).kept = s.kept :=
  kept_of_parts ..

@[simp] theorem postEntry_kept (q : Nat) (bytes : List Byte) (s : State) : (postEntry q bytes s).1.kept = s.kept := by
  unfold postEntry
  dsimp only
  split
  · simp
  · split <;> simp

@[simp] theorem postData_kept (q : Nat) (e : QEntry) (data : List Byte) (s : State) :
    (postData q e data s).1.kept = s.kept := by
  unfold postData
  split
  · simp
  · split
    next h => exact (postEntry_kept ..).trans (storeData_kept h)
    · simp

@[simp] theorem consume_kept (q n : Nat) (s : State) : (consume q n s).kept = s.kept := by
  simp only [consume]
  split <;> simp

/-! ## Machine.Boundary -/

@[simp] theorem sendJoin_kept (s : State) : (sendJoin s).kept = s.kept := by simp [sendJoin]
@[simp] theorem joinAtBoundary_kept (s : State) : (joinAtBoundary s).kept = s.kept := by simp [joinAtBoundary]
@[simp] theorem sendReport_kept (s : State) : (sendReport s).kept = s.kept := by simp [sendReport]
@[simp] theorem srcEvent_kept (s : State) : (srcEvent s).kept = s.kept := by simp [srcEvent]
@[simp] theorem saturationCheck_kept (s : State) : (saturationCheck s).kept = s.kept := by simp [saturationCheck]
@[simp] theorem sliceLate_kept (s : State) : (sliceLate s).kept = s.kept := by unfold sliceLate; split <;> simp
@[simp] theorem tickEnds_kept (bm : Nat) (s : State) : (tickEnds bm s).kept = s.kept := by simp [tickEnds]
@[simp] theorem endFly_kept (s : State) : (endFly s).kept = s.kept := by unfold endFly; split <;> simp

@[simp] theorem sourceStep_kept (fly : Bool) (sw : Option Switch) (s : State) :
    (sourceStep fly sw s).kept = s.kept := by
  unfold sourceStep
  extract_lets _ s₁ _ _ s₂ _ s₃ _ s₄
  have h₁ : s₁.kept = s.kept := by
    unfold s₁
    split
    · exact (srcEvent_kept _).trans (kept_of_parts ..)
    · rfl
  have h₂ : s₂.kept = s₁.kept := by
    unfold s₂
    split
    · exact kept_of_parts ..
    · rfl
  have h₃ : s₃.kept = s₂.kept := kept_if ((srcEvent_kept _).trans (kept_of_parts ..)) (kept_of_parts ..)
  have h₄ : s₄.kept = s₃.kept := by
    unfold s₄
    split
    · exact kept_if (kept_of_parts ..) (kept_of_parts ..)
    · rfl
  have h : s₄.kept = s.kept := h₄.trans (h₃.trans (h₂.trans h₁))
  exact kept_if (kept_if ((srcEvent_kept _).trans ((kept_of_parts ..).trans h)) ((kept_of_parts ..).trans h))
    (kept_if ((srcEvent_kept _).trans ((kept_of_parts ..).trans h)) ((kept_of_parts ..).trans h))

@[simp] theorem enterRun_kept (s : State) : (enterRun s).kept = s.kept := by simp [enterRun]
@[simp] theorem stateStep_kept (fly : Bool) (s : State) : (stateStep fly s).kept = s.kept := by
  simp only [stateStep]
  split <;> simp
@[simp] theorem flyEnds_kept (fly : Bool) (s : State) : (flyEnds fly s).kept = s.kept := by simp [flyEnds]
@[simp] theorem flyJudge_kept (fly : Bool) (s : State) : (flyJudge fly s).kept = s.kept := by simp [flyJudge]
@[simp] theorem takeOver_kept (s : State) : (takeOver s).kept = s.kept := by simp [takeOver]
@[simp] theorem openGather_kept (s : State) : (openGather s).kept = s.kept := by simp [openGather]

@[simp] theorem boundary_kept (tk : Nat) (idx : Option (BitVec 64)) (fly : Bool) (f : Nat) (s : State) :
    (boundary tk idx fly f s).kept = s.kept := by
  unfold boundary
  refine (settle_kept _).trans <| (kept_if ?_ rfl).trans <| (sendReport_kept _).trans <| (joinAtBoundary_kept _).trans <|
    (openGather_kept _).trans <| (msix_kept ..).trans <| (State.say_kept ..).trans <| (kept_of_parts ..).trans <|
    (takeOver_kept _).trans <| (flyJudge_kept ..).trans <| (flyEnds_kept ..).trans <| (stateStep_kept ..).trans <|
    (sourceStep_kept ..).trans <| (kept_of_parts ..).trans <| (settleBudget_kept _).trans <|
    (kept_if (commitImage_kept _) rfl).trans <| (kept_of_parts ..).trans <| (endFly_kept _).trans <| (tickEnds_kept ..).trans <|
    kept_if (kept_of_parts ..) rfl
  exact (kept_if (sendBudgets_kept _) rfl).trans (kept_of_parts ..)

@[simp] theorem toBoundary_kept (n : Nat) (s : State) : (toBoundary n s).kept = s.kept := by
  induction n generalizing s with
  | zero => rfl
  | succ n ih =>
    unfold toBoundary
    split <;> simp [ih]

@[simp] theorem nextBoundary_kept (s : State) : (nextBoundary s).kept = s.kept := by simp [nextBoundary]
@[simp] theorem boundaryIf_kept (c : State → Bool) (s : State) : (boundaryIf c s).kept = s.kept := by simp [boundaryIf]
@[simp] theorem tickInBoundary_kept (e : Nat) (fly : Bool) (s : State) : (tickInBoundary e fly s).kept = s.kept := by
  simp [tickInBoundary]
@[simp] theorem flywheel_kept (s : State) : (flywheel s).kept = s.kept := by simp [flywheel]

/-! ## Machine.Access -/

@[simp] theorem judged_kept (src : Source) (a : Nat) (f : State → State) (s : State) (hf : (f s).kept = s.kept) :
    (judged src a f s).kept = s.kept := by
  unfold judged
  split
  · rfl
  · split <;> simp [hf]

@[simp] theorem judgedCmd_kept (src : Source) (a : Nat) (legal : Mode → Bool) (st f : State → State) (s : State)
    (hst : (st s).kept = s.kept) (hf : (f s).kept = s.kept) : (judgedCmd src a legal st f s).kept = s.kept := by
  unfold judgedCmd
  split
  · rfl
  · split <;> simp [hst, hf]

@[simp] theorem gctlStat_kept (code st : Byte) (s : State) : (gctlStat code st s).kept = s.kept := kept_of_parts ..
@[simp] theorem gctlCmd_kept (src : Source) (code : Byte) (f : State → State × Byte) (s : State) (hf : (f s).1.kept = s.kept) :
    (gctlCmd src code f s).kept = s.kept := by simp [gctlCmd, hf]
@[simp] theorem doHalt_kept (src : Source) (s : State) : (doHalt src s).1.kept = s.kept := by simp [doHalt]
@[simp] theorem doGo_kept (s : State) : (doGo s).1.kept = s.kept := by simp [doGo]
@[simp] theorem doRecover_kept (s : State) : (doRecover s).1.kept = s.kept := by simp [doRecover]
@[simp] theorem doMaint_kept (s : State) : (doMaint s).1.kept = s.kept := by simp [doMaint]
@[simp] theorem doRestart_kept (key : Byte) (s : State) : (doRestart key s).kept = s.kept := by simp [doRestart]
@[simp] theorem doClrCnt_kept (s : State) : (doClrCnt s).1.kept = s.kept := by simp [doClrCnt]
@[simp] theorem gctlByCode_kept (src : Source) (code key : Byte) (s : State) :
    (gctlByCode src code key s).kept = s.kept := by
  simp [gctlByCode]

/-! ## Machine.Links -/

@[simp] theorem linkUp_kept (p : Nat) (b : LinkPartner) (s : State) : (linkUp p b s).kept = s.kept := by simp [linkUp]

@[simp] theorem ackTaken_kept (p : Nat) (a : LinkAck) (k : State → State) (s : State) (hk : ∀ t, (k t).kept = t.kept) :
    (ackTaken p a k s).kept = s.kept := by
  unfold ackTaken
  split
  · rfl
  · split <;> simp [hk]

@[simp] theorem replayFrom_kept (p : Nat) (missing : BitVec 12) (s : State) : (replayFrom p missing s).kept = s.kept := by
  simp [replayFrom]
@[simp] theorem sendHellos_kept (s : State) : (sendHellos s).kept = s.kept := by simp [sendHellos]
@[simp] theorem helloTaken_kept (p : Nat) (h : Hello) (s : State) : (helloTaken p h s).kept = s.kept := by
  simp [helloTaken]
@[simp] theorem trackLoss_kept (s : State) : (trackLoss s).kept = s.kept := by simp [trackLoss]
@[simp] theorem judgeDup_kept (s : State) : (judgeDup s).kept = s.kept := by simp [judgeDup]
@[simp] theorem dbChanged_kept (s : State) : (dbChanged s).kept = s.kept := by simp [dbChanged]
@[simp] theorem lsaTaken_kept (hdr : MsgHdr) (l : Lsa) (s : State) : (lsaTaken hdr l s).kept = s.kept := by
  simp [lsaTaken]
@[simp] theorem electSelf_kept (s : State) : (electSelf s).kept = s.kept := by simp [electSelf]

@[simp] theorem elect_kept (s : State) : (elect s).kept = s.kept := by
  unfold elect
  dsimp only
  split
  · rfl
  · split
    · simp
    · split <;> simp

@[simp] theorem addrTaken_kept (serial : BitVec 64) (addr : BitVec 12) (s : State) :
    (addrTaken serial addr s).kept = s.kept := by
  simp [addrTaken]
@[simp] theorem roleFollows_kept (mgr stby : BitVec 12) (turned : Bool) (s : State) :
    (roleFollows mgr stby turned s).kept = s.kept := by
  simp [roleFollows]
@[simp] theorem roleTaken_kept (mgr stby : BitVec 12) (epoch : BitVec 64) (s : State) :
    (roleTaken mgr stby epoch s).kept = s.kept := by
  simp [roleTaken]
@[simp] theorem routeSelWrite_kept (value : BitVec 12) (s : State) : (routeSelWrite value s).kept = s.kept := by
  unfold routeSelWrite
  split <;> simp

/-! ## Machine.FabTick -/

@[simp] theorem originateTick_kept (t : TickMsg) (s : State) : (originateTick t s).kept = s.kept := by
  simp [originateTick]

@[simp] theorem tickSend_kept (s : State) : (tickSend s).kept = s.kept := by
  unfold tickSend
  split
  · rfl
  · split
    · rfl
    · simp

@[simp] theorem joinTime_kept (o : Int) (s : State) : (joinTime o s).kept = s.kept := by simp [joinTime]
@[simp] theorem tickTime_kept (o : Int) (i : Nat) (s : State) : (tickTime o i s).kept = s.kept := by simp [tickTime]
@[simp] theorem tickUse_kept (t : TickMsg) (s : State) : (tickUse t s).kept = s.kept := by simp [tickUse]
@[simp] theorem tickWork_kept (t : TickMsg) (o : Int) (s : State) : (tickWork t o s).kept = s.kept := by simp [tickWork]
@[simp] theorem forwardTick_kept (ports : List Nat) (hdr : MsgHdr) (t : TickMsg) (corr : Int) (s : State) :
    (forwardTick ports hdr t corr s).kept = s.kept := by
  simp [forwardTick]
@[simp] theorem tickTaken_kept (p : Nat) (hdr : MsgHdr) (t : TickMsg) (s : State) :
    (tickTaken p hdr t s).kept = s.kept := by
  simp [tickTaken]
@[simp] theorem tickMiss_kept (s : State) : (tickMiss s).kept = s.kept := by simp [tickMiss]
@[simp] theorem delayAsk_kept (p : Nat) (s : State) : (delayAsk p s).kept = s.kept := by simp [delayAsk]
@[simp] theorem delayTaken_kept (p : Nat) (t1 t2 t3 : BitVec 64) (s : State) :
    (delayTaken p t1 t2 t3 s).kept = s.kept := by
  simp [delayTaken]

/-! ## Machine.Agree -/

@[simp] theorem budgetFor_kept (a : BitVec 12) (s : State) : (budgetFor a s).kept = s.kept := by
  unfold budgetFor
  split <;> simp

@[simp] theorem joinTaken_kept (hdr : MsgHdr) (j : JoinReq) (s : State) : (joinTaken hdr j s).1.kept = s.kept := by
  unfold joinTaken
  split
  · rfl
  · split <;> simp

@[simp] theorem joinAckTaken_kept (hdr : MsgHdr) (a : JoinAck) (s : State) : (joinAckTaken hdr a s).kept = s.kept := by
  simp [joinAckTaken]

@[simp] theorem reportTaken_kept (hdr : MsgHdr) (r : ReportMsg) (s : State) : (reportTaken hdr r s).kept = s.kept := by
  unfold reportTaken
  split
  · rfl
  · split
    · simp
    · rfl

@[simp] theorem judgeReports_kept (s : State) : (judgeReports s).kept = s.kept := by simp [judgeReports]
@[simp] theorem verdictTaken_kept (hdr : MsgHdr) (cause action : Byte) (s : State) :
    (verdictTaken hdr cause action s).kept = s.kept := by
  simp [verdictTaken]
@[simp] theorem safeTaken_kept (hdr : MsgHdr) (s : State) : (safeTaken hdr s).kept = s.kept := by simp [safeTaken]
@[simp] theorem claimSend_kept (s : State) : (claimSend s).kept = s.kept := by simp [claimSend]
@[simp] theorem claimTaken_kept (hdr : MsgHdr) (c : Claim) (s : State) : (claimTaken hdr c s).kept = s.kept := by
  simp [claimTaken]
@[simp] theorem memberSelWrite_kept (value : BitVec 10) (s : State) : (memberSelWrite value s).kept = s.kept := by
  unfold memberSelWrite
  split <;> simp

/-! ## Machine.Mbx -/

@[simp] theorem putReply_kept (src : Source) (m : MbxMsg) (s : State) : (putReply src m s).kept = s.kept := by
  unfold putReply
  split <;> simp

@[simp] theorem answerMbx_kept (status : Byte) (payload : List Byte) (s : State) :
    (answerMbx status payload s).kept = s.kept := by
  unfold answerMbx
  split <;> simp

@[simp] theorem answerErase_kept (o : ArcOwner) (s : State) : (answerErase o s).kept = s.kept := by
  unfold answerErase
  split <;> simp

/-! ## Machine.EgoOps -/

@[simp] theorem egoOldest_kept (c : Oldest) (s : State) : (egoOldest c s).kept = s.kept := kept_of_parts ..

@[simp] theorem egoImu_kept (stream : Nat) (capture : Oldest) (data : List Byte) (s : State) :
    (egoImu stream capture data s).kept = s.kept := by
  unfold egoImu
  split <;> simp

@[simp] theorem egoCan_kept (stream : Nat) (id : BitVec 29) (ide : Bool) (capture : Oldest) (data : List Byte) (s : State) :
    (egoCan stream id ide capture data s).kept = s.kept := by
  unfold egoCan
  split <;> simp

@[simp] theorem takeCorrection_kept (e : EgoSec) (b : List Byte) (s : State) : (takeCorrection e b s).1.kept = s.kept := by
  simp [takeCorrection]
@[simp] theorem decelJudge_kept (ax : Int) (s : State) : (decelJudge ax s).kept = s.kept := by simp [decelJudge]

@[simp] theorem egoUpdate_kept (e : EgoSec) (s : State) : (egoUpdate e s).kept = s.kept := by
  unfold egoUpdate
  refine (kept_if (raiseDet_kept ..) rfl).trans <| (kept_of_parts ..).trans <| (kept_of_parts ..).trans <| (kept_of_parts ..).trans ?_
  split <;> simp

/-! ## Machine.Convert -/

@[simp] theorem convertIn_kept (n : Nat) (w : Word) (s : State) : (convertIn n w s).1.kept = s.kept := by
  simp [convertIn]
@[simp] theorem testConvert_kept (w : Word) (s : State) : (testConvert w s).kept = s.kept := by simp [testConvert]

/-! ## Machine.GridOps -/

@[simp] theorem grdCount_kept (i : Nat) (s : State) : (grdCount i s).kept = s.kept := kept_of_parts ..

@[simp] theorem placePair_kept (n grp bin : Nat) (k : BitVec 64) (s : State) :
    (placePair n grp bin k s).1.kept = s.kept := by
  unfold placePair
  dsimp only
  split
  · split
    · rfl
    · split
      · rfl
      · split
        · rfl
        · simp
  · rfl

@[simp] theorem placePoint_kept (n entry : Nat) (x y z : Int) (s : State) :
    (placePoint n entry x y z s).kept = s.kept := by
  unfold placePoint
  split
  · extract_lets _ inBand
    clear_value inBand
    split <;> simp
  · rfl

@[simp] theorem evalVote_kept (gen : Byte) (masked : Word) (s : State) : (evalVote gen masked s).1.kept = s.kept := by
  unfold evalVote
  split
  · rfl
  · exact kept_fst_if rfl (kept_of_parts ..)

@[simp] theorem gridWrite_kept (gen : Byte) (mask : Word) (s : State) : (gridWrite gen mask s).1.kept = s.kept := by
  simp [gridWrite]

/-! ## Machine.Solve -/

@[simp] theorem startSolve_kept (t : TaskDesc) (core : Nat) (s : State) : (startSolve t core s).1.kept = s.kept := by
  unfold startSolve
  split <;> simp
@[simp] theorem reportStop_kept (n : Nat) (r : SolveRun) (s : State) : (reportStop n r s).kept = s.kept := by
  simp [reportStop]

@[simp] theorem deliverSolve_kept (n : Nat) (t : TaskDesc) (r : SolveRun) (gen : Byte) (oldest : Oldest) (s : State) :
    (deliverSolve n t r gen oldest s).kept = s.kept := by
  unfold deliverSolve
  split
  · split <;> simp
  · split <;> simp

/-! ## Machine.Tasks -/

@[simp] theorem readInputs_kept (ins : List InRef) (k : BitVec 64) (s : State) :
    (readInputs ins k s).1.kept = s.kept := by
  unfold readInputs
  refine kept_foldl_fst _ _ _ fun p i => ?_
  dsimp only
  split <;> simp

@[simp] theorem releaseLost_kept (t : TaskDesc) (k : BitVec 64) (es : List QEntry) (s : State) :
    (releaseLost t k es s).kept = s.kept := by
  simp [releaseLost]

@[simp] theorem releaseOn_kept (t : TaskDesc) (k : BitVec 64) (es : List QEntry) (s : State) :
    (releaseOn t k es s).kept = s.kept := by
  unfold releaseOn
  split <;> simp

@[simp] theorem releaseTask_kept (t : TaskDesc) (s : State) : (releaseTask t s).kept = s.kept := by
  unfold releaseTask
  split
  · rfl
  · split
    · split
      · simp
      · rfl
    · simp

@[simp] theorem startJob_kept (n : Nat) (j : Job) (pos : Nat) (s : State) : (startJob n j pos s).kept = s.kept := by
  simp only [startJob]
  split <;> simp
@[simp] theorem judgeWcet_kept (n cycles : Nat) (s : State) : (judgeWcet n cycles s).kept = s.kept := by
  unfold judgeWcet
  split <;> simp
@[simp] theorem countSat_kept (n cls k : Nat) (s : State) : (countSat n cls k s).kept = s.kept := by simp [countSat]
@[simp] theorem countHits_kept (n : Nat) (t : TaskDesc) (hits : List Dest) (s : State) :
    (countHits n t hits s).kept = s.kept := by
  simp [countHits]

@[simp] theorem putElem_kept (t : TaskDesc) (gen : Byte) (d : Dest) (v : Int) (s : State) :
    (putElem t gen d v s).kept = s.kept := by
  unfold putElem
  split <;> simp

@[simp] theorem storeElem_kept (t : TaskDesc) (gen : Byte) (d : Dest) (v : Int) (already : Bool) (s : State) :
    (storeElem t gen d v already s).1.kept = s.kept := by
  simp [storeElem]

@[simp] theorem storeConverted_kept (t : TaskDesc) (gen : Byte) (d : Dest) (w : Word) (s : State) :
    (storeConverted t gen d w s).kept = s.kept := by
  unfold storeConverted
  split <;> simp

@[simp] theorem emitBytes_kept (t : TaskDesc) (k : BitVec 64) (input first count : Nat) (s : State) :
    (emitBytes t k input first count s).1.kept = s.kept := by
  simp [emitBytes]
@[simp] theorem emitEntry_kept (t : TaskDesc) (k : BitVec 64) (input first count : Nat) (entry : List Byte) (s : State) :
    (emitEntry t k input first count entry s).kept = s.kept := by
  simp [emitEntry]

@[simp] theorem runOp_kept (n : Nat) (t : TaskDesc) (k : BitVec 64) (op : CoreOp) (s : State) :
    (runOp n t k op s).1.kept = s.kept := by
  cases op with
  | store o off bytes =>
    simp only [runOp]
    split <;> simp
  | _ => simp [runOp]

@[simp] theorem addCell_kept (t : TaskDesc) (gen : Byte) (o cell : Nat) (features : List Int) (s : State) :
    (addCell t gen o cell features s).1.kept = s.kept := by
  unfold addCell
  split <;> simp

@[simp] theorem placeOps_kept (t : TaskDesc) (k : BitVec 64) (ops : List CoreOp) (o : Nat) (s : State) :
    (placeOps t k ops o s).1.kept = s.kept := by
  unfold placeOps
  refine kept_fst_if rfl <| (kept_foldl_fst _ _ _ fun p e => ?_).trans <| (kept_foldl_fst _ _ _ fun p e => ?_).trans ?_
  · simp
  · have h := placePair_kept e.1 e.2.1 e.2.2.1 k p.1
    split <;> simp_all
  · dsimp only
    split <;> simp

@[simp] theorem runWork_kept (n : Nat) (t : TaskDesc) (k : BitVec 64) (work : List CoreOp) (s : State) :
    (runWork n t k work s).kept = s.kept := by
  unfold runWork
  refine (countHits_kept ..).trans <| (kept_foldl_fst _ _ _ fun p o => ?_).trans (kept_foldl_fst _ _ _ fun p e => ?_)
  · exact placeOps_kept ..
  · exact runOp_kept ..

@[simp] theorem writeOutputs_kept (t : TaskDesc) (gen : Byte) (oldest : Oldest) (mask vote : Word) (s : State) :
    (writeOutputs t gen oldest mask vote s).kept = s.kept := by
  simp [writeOutputs]
@[simp] theorem ingestLatency_kept (stream posted : Nat) (s : State) : (ingestLatency stream posted s).kept = s.kept := by
  simp [ingestLatency]

@[simp] theorem endIngest_kept (t : TaskDesc) (j : Job) (s : State) : (endIngest t j s).kept = s.kept := by
  unfold endIngest
  dsimp only
  split
  · simp
  · split
    · split <;> simp
    · rfl

@[simp] theorem endGrid_kept (t : TaskDesc) (j : Job) (s : State) : (endGrid t j s).kept = s.kept := by simp [endGrid]

@[simp] theorem endOutputs_kept (n : Nat) (t : TaskDesc) (j : Job) (s : State) :
    (endOutputs n t j s).kept = s.kept := by
  unfold endOutputs
  split
  · simp
  · split
    · simp
    · split <;> simp

@[simp] theorem endTask_kept (n : Nat) (j : Job) (cycles : Nat) (work : List CoreOp) (s : State) :
    (endTask n j cycles work s).kept = s.kept := by
  simp [endTask]
@[simp] theorem putSolve_kept (n : Nat) (j : Job) (r : SolveRun) (s : State) : (putSolve n j r s).kept = s.kept := by
  simp [putSolve]
@[simp] theorem acceptEntry_kept (q : Nat) (s : State) : (acceptEntry q s).kept = s.kept := by simp [acceptEntry]

@[simp] theorem tailWrite_kept (q : Nat) (value : BitVec 13) (s : State) : (tailWrite q value s).kept = s.kept := by
  unfold tailWrite
  dsimp only
  split
  · rfl
  · split <;> simp

@[simp] theorem peekWrite_kept (slot : BitVec 13) (entry : Bool) (s : State) : (peekWrite slot entry s).kept = s.kept := by
  simp only [peekWrite]
  split <;> simp

/-! ## Machine.ArcCmd -/

@[simp] theorem endOf_kept (code : Byte) (s : State) : (endOf code s).kept = s.kept := by unfold endOf; split <;> simp
@[simp] theorem startProgram_kept (src : Source) (a : Nat) (data : List Word) (s : State) :
    (startProgram src a data s).kept = s.kept := by
  simp [startProgram]

@[simp] theorem startErase_kept (src : Source) (code : Byte) (a : Nat) (s : State) :
    (startErase src code a s).kept = s.kept := by
  unfold startErase
  split <;> simp

@[simp] theorem doSuspend_kept (s : State) : (doSuspend s).kept = s.kept := by unfold doSuspend; split <;> simp
@[simp] theorem doResume_kept (s : State) : (doResume s).kept = s.kept := by unfold doResume; split <;> simp
@[simp] theorem doReadId_kept (s : State) : (doReadId s).kept = s.kept := by simp [doReadId]
@[simp] theorem doReadCounter_kept (a : Nat) (s : State) : (doReadCounter a s).kept = s.kept := by
  unfold doReadCounter
  split <;> simp
@[simp] theorem doSetWp_kept (a : Nat) (d : Nat) (s : State) : (doSetWp a d s).kept = s.kept := by
  unfold doSetWp
  split <;> simp
@[simp] theorem startSwap_kept (src : Source) (d : Nat) (s : State) : (startSwap src d s).kept = s.kept := by
  simp only [startSwap]
  split <;> simp
@[simp] theorem doClearStatus_kept (s : State) : (doClearStatus s).kept = s.kept := kept_of_parts ..
@[simp] theorem arcRun_kept (src : Source) (code : Byte) (a : Nat) (data : List Word) (s : State) :
    (arcRun src code a data s).kept = s.kept := by
  simp [arcRun]
@[simp] theorem arcJudge_kept (src : Source) (code : Byte) (a : Nat) (data : List Word) (s : State) :
    (arcJudge src code a data s).kept = s.kept := by
  simp [arcJudge]
@[simp] theorem seqFail_kept (st : Byte) (s : State) : (seqFail st s).kept = s.kept := by simp [seqFail]
@[simp] theorem seqLapse_kept (s : State) : (seqLapse s).kept = s.kept := by unfold seqLapse; split <;> simp
@[simp] theorem seqStep_kept (q : ArcSeq) (st : SeqStep) (s : State) : (seqStep q st s).kept = s.kept :=
  kept_of_parts ..
@[simp] theorem seqDone_kept (src : Source) (code : Byte) (a : Nat) (data : List Word) (s : State) :
    (seqDone src code a data s).kept = s.kept := by
  simp [seqDone]
@[simp] theorem keyWrite_kept (src : Source) (key : Byte) (s : State) : (keyWrite src key s).kept = s.kept := by
  simp only [keyWrite]
  split <;> simp

@[simp] theorem seqWrite_kept (src : Source) (reg : ArcReg) (v : Word) (s : State) :
    (seqWrite src reg v s).kept = s.kept := by
  unfold seqWrite
  dsimp only
  split
  · simp
  · split
    · simp
    · split <;> simp

@[simp] theorem arcJudged_kept (src : Source) (a : Nat) (f : State → State) (s : State) (hf : (f s).kept = s.kept) :
    (arcJudged src a f s).kept = s.kept := by simp [arcJudged, hf]
@[simp] theorem arcLast_kept (src : Source) (code : Byte) (last : Word) (s : State) :
    (arcLast src code last s).kept = s.kept := by
  simp [arcLast]
@[simp] theorem winRefuse_kept (st : Byte) (s : State) : (winRefuse st s).1.kept = s.kept := by simp [winRefuse]

@[simp] theorem fillLine3_kept (line : Nat) (s : State) : (fillLine3 line s).kept = s.kept := by
  have h : (fillLine3.fill line s).kept = s.kept := (kept_of_parts ..).trans (eccLine_kept ..)
  unfold fillLine3
  split
  · exact kept_if rfl h
  · exact h

@[simp] theorem winRead_kept (a : Nat) (s : State) : (winRead a s).1.kept = s.kept := by
  unfold winRead
  split
  · simp
  · refine kept_fst_if (by simp) <| kept_fst_if (by simp) ?_
    dsimp only
    split <;> simp

@[simp] theorem eccWarnWrite_kept (value : BitVec 2) (s : State) : (eccWarnWrite value s).kept = s.kept := by
  simp [eccWarnWrite]
@[simp] theorem ejectErase_kept (s : State) : (ejectErase s).kept = s.kept := by unfold ejectErase; split <;> simp
@[simp] theorem copyFirmware_kept (fromBank : Bool) (s : State) : (copyFirmware fromBank s).kept = s.kept := by
  simp [copyFirmware]

/-! ## Machine.Ports -/

@[simp] theorem portPost_kept (stream : Nat) (off : Int) (e : QEntry) (data : List Byte) (s : State) :
    (portPost stream off e data s).1.kept = s.kept := by
  unfold portPost
  split <;> simp

@[simp] theorem nextSeq_kept (stream : Nat) (s : State) : (nextSeq stream s).1.kept = s.kept := by simp [nextSeq]
@[simp] theorem openGen_kept (s : State) : (openGen s).1.kept = s.kept := by simp [openGen]
@[simp] theorem camCount_kept (r i : Nat) (s : State) : (camCount r i s).kept = s.kept := by simp [camCount]
@[simp] theorem lineBytes_kept (n step : Nat) (s : State) : (lineBytes n step s).1.kept = s.kept := by simp [lineBytes]
@[simp] theorem setOpen_kept (r b : Nat) (f : Option OpenFrame) (s : State) : (setOpen r b f s).kept = s.kept := by
  simp [setOpen]

@[simp] theorem postGroup_kept (r b : Nat) (f : OpenFrame) (last cut : Bool) (status : Byte) (s : State) :
    (postGroup r b f last cut status s).kept = s.kept := by
  simp only [postGroup]
  split <;> simp

@[simp] theorem cutFrame_kept (r b : Nat) (f : OpenFrame) (status : Byte) (s : State) :
    (cutFrame r b f status s).kept = s.kept := by
  simp [cutFrame]
@[simp] theorem cutOverrun_kept (r b : Nat) (f : OpenFrame) (s : State) : (cutOverrun r b f s).kept = s.kept := by
  simp [cutOverrun]
@[simp] theorem cutDamaged_kept (r b : Nat) (f : OpenFrame) (s : State) : (cutDamaged r b f s).kept = s.kept := by
  simp [cutDamaged]

@[simp] theorem takeLine_kept (r b : Nat) (data : Option (List Byte)) (bad : Bool) (s : State) :
    (takeLine r b data bad s).kept = s.kept := by
  unfold takeLine
  split <;> simp

@[simp] theorem fillLines_kept (r b n : Nat) (s : State) : (fillLines r b n s).kept = s.kept := by
  induction n generalizing s with
  | zero => rfl
  | succ n ih =>
    unfold fillLines
    split <;> simp [ih]

@[simp] theorem camPacket_kept (r : Nat) (ecc : HdrEcc) (bad k : State → State) (s : State)
    (hb : ∀ t, (bad t).kept = t.kept) (hk : ∀ t, (k t).kept = t.kept) : (camPacket r ecc bad k s).kept = s.kept := by
  cases ecc <;> simp [camPacket, hb, hk]
@[simp] theorem strmLate_kept (n : Nat) (s : State) : (strmLate n s).kept = s.kept := by simp [strmLate]
@[simp] theorem strmOut_kept (n : Nat) (s : State) : (strmOut n s).kept = s.kept := by simp [strmOut]
@[simp] theorem strmSurplus_kept (n : Nat) (s : State) : (strmSurplus n s).kept = s.kept := by simp [strmSurplus]
@[simp] theorem assignFrame_kept (n : Nat) (c : BitVec 64) (s : State) : (assignFrame n c s).1.kept = s.kept := by
  unfold assignFrame
  split <;> simp

@[simp] theorem frameStart_kept (r b : Nat) (no : BitVec 16) (s : State) : (frameStart r b no s).kept = s.kept := by
  unfold frameStart
  dsimp only
  split
  · split <;> simp
  · split <;> simp

@[simp] theorem longPacket_kept (r vc dt : Nat) (crcOk : Bool) (data : List Byte) (s : State) :
    (longPacket r vc dt crcOk data s).kept = s.kept := by
  unfold longPacket
  split
  · rfl
  · split
    · simp
    · split <;> simp

@[simp] theorem lostLine_kept (r vc dt : Nat) (s : State) : (lostLine r vc dt s).kept = s.kept := by
  unfold lostLine
  split
  · rfl
  · split
    · simp
    · rfl

@[simp] theorem frameEnd_kept (r b : Nat) (s : State) : (frameEnd r b s).kept = s.kept := by
  unfold frameEnd
  dsimp only
  split
  · simp
  · split <;> simp

@[simp] theorem ethCount_kept (p i : Nat) (s : State) : (ethCount p i s).kept = s.kept := by simp [ethCount]
@[simp] theorem ethLink_kept (p : Nat) (l : EthLink) (s : State) : (ethLink p l s).kept = s.kept := by
  unfold ethLink
  split <;> simp
@[simp] theorem ethPost_kept (p : Nat) (m : MatchEntry) (v : EthView) (body : List Byte) (s : State) :
    (ethPost p m v body s).kept = s.kept := by
  simp [ethPost]

@[simp] theorem ethFrame_kept (p : Nat) (fcsOk : Bool) (bytes : List Byte) (s : State) :
    (ethFrame p fcsOk bytes s).kept = s.kept := by
  unfold ethFrame
  extract_lets s₁ s₂ s₃ _ _ s₄
  have h : s₃.kept = s.kept := by simp [s₁, s₂, s₃]
  have h₄ : s₄.kept = s.kept := (ethCount_kept ..).trans h
  clear_value s₃ s₄
  refine kept_if rfl <| kept_if (by simp) <| kept_if rfl <| kept_if h <| kept_if h <| kept_if h₄ <| kept_if (by simp [h₄]) ?_
  split
  · simp [h₄]
  · exact kept_if h₄ (by simp [h₄])

@[simp] theorem peerAnswered_kept (p t2 t3 : Nat) (s : State) : (peerAnswered p t2 t3 s).kept = s.kept := by
  unfold peerAnswered
  split <;> simp
@[simp] theorem canCount_kept (c i : Nat) (s : State) : (canCount c i s).kept = s.kept := by simp [canCount]
@[simp] theorem canGood_kept (c : Nat) (s : State) : (canGood c s).kept = s.kept := by simp [canGood]

@[simp] theorem canFrame_kept (c : Nat) (id : BitVec 29) (ide remote esi : Bool) (data : List Byte) (s : State) :
    (canFrame c id ide remote esi data s).kept = s.kept := by
  unfold canFrame
  extract_lets s₁ _ s₂ s₃ s₄
  have h : s₃.kept = s.kept := by simp [s₁, s₂, s₃]
  have h₄ : s₄.kept = s.kept := (canCount_kept ..).trans h
  clear_value s₃ s₄
  refine kept_if (by simp [h]) <| kept_if (by simp [h₄]) ?_
  split
  · simp [h₄]
  · exact kept_if h₄ (by simp [h₄])

@[simp] theorem canErr_kept (c : Nat) (cat : CanCat) (role : CanRole) (s : State) :
    (canErr c cat role s).kept = s.kept := by
  simp [canErr]
@[simp] theorem spiCount_kept (u i : Nat) (s : State) : (spiCount u i s).kept = s.kept := by simp [spiCount]
@[simp] theorem imuBack_kept (stream : Nat) (s : State) : (imuBack stream s).kept = s.kept := by
  unfold imuBack
  split <;> simp
@[simp] theorem drdy_kept (u : Nat) (s : State) : (drdy u s).kept = s.kept := by simp [drdy]
@[simp] theorem spiEnd_kept (u : Nat) (data : List Byte) (s : State) : (spiEnd u data s).kept = s.kept := by
  simp [spiEnd]
@[simp] theorem gpioEdge_kept (n : Nat) (rising : Bool) (s : State) : (gpioEdge n rising s).kept = s.kept := by
  simp [gpioEdge]

/-! ## Machine.Gather -/

@[simp] theorem limitMask_kept (d : StreamDecl) (s : State) : (limitMask d s).kept = s.kept := by simp [limitMask]
@[simp] theorem lookupPair_kept (off : Int) (e : QEntry) (s : State) : (lookupPair off e s).1.kept = s.kept := by
  unfold lookupPair
  split <;> simp

@[simp] theorem compOf_kept (d : StreamDecl) (place : Nat) (e : QEntry) (s : State) :
    (compOf d place e s).1.kept = s.kept := by
  unfold compOf
  split <;> simp

@[simp] theorem writeComps_kept (d : StreamDecl) (masked : Bool) (cs : List Comp) (s : State) :
    (writeComps d masked cs s).kept = s.kept := by
  unfold writeComps
  exact kept_foldl _ _ _ fun t c => by simp

@[simp] theorem closeToken_kept (d : StreamDecl) (r : BitVec 4) (es : List (Nat × QEntry)) (s : State) :
    (closeToken d r es s).1.kept = s.kept := by
  simp [closeToken]
@[simp] theorem closeStream_kept (d : StreamDecl) (acc : State × Word × List (Nat × BitVec 64)) :
    (closeStream d acc).1.kept = acc.1.kept := by
  simp [closeStream]

@[simp] theorem voidCameras_kept (s : State) : (voidCameras s).kept = s.kept := by
  unfold voidCameras
  refine kept_foldl _ _ _ fun t d => ?_
  split <;> simp

@[simp] theorem advanceRings_kept (s : State) : (advanceRings s).kept = s.kept := by
  unfold advanceRings
  refine kept_foldl _ _ _ fun t d => ?_
  split <;> simp

@[simp] theorem plainToken_kept (slot : Nat) (oldest : Oldest) (mask vote : Word) (s : State) :
    (plainToken slot oldest mask vote s).kept = s.kept := by
  simp [plainToken]
@[simp] theorem writeVote_kept (s : State) : (writeVote s).kept = s.kept := by unfold writeVote; split <;> simp
@[simp] theorem writeSummary_kept (write : Bool) (s : State) : (writeSummary write s).kept = s.kept := by
  unfold writeSummary
  split <;> simp
@[simp] theorem registrarClose_kept (s : State) : (registrarClose s).kept = s.kept := by simp [registrarClose]
@[simp] theorem gatherEdge_kept (s : State) : (gatherEdge s).kept = s.kept := by simp [gatherEdge]
@[simp] theorem histSelWrite_kept (age : BitVec 9) (s : State) : (histSelWrite age s).kept = s.kept := by
  simp [histSelWrite]

/-! ## Machine.Emit -/

@[simp] theorem blockPose_kept (s : State) : (blockPose s).1.kept = s.kept := by unfold blockPose; split <;> simp
@[simp] theorem tickBlock_kept (w : Wait) (summary : Bool) (s : State) : (tickBlock w summary s).kept = s.kept :=
  kept_if rfl ((ringWrite_kept ..).trans (blockPose_kept s))
@[simp] theorem patchBlock_kept (w : Wait) (out : Nat) (s : State) : (patchBlock w out s).kept = s.kept := by
  unfold patchBlock
  split <;> simp

@[simp] theorem passCut_kept (k : BitVec 64) (s : State) : (passCut k s).kept = s.kept := by
  unfold passCut
  refine kept_foldl _ _ _ fun t r => kept_foldl _ _ _ fun u b => ?_
  dsimp only
  split <;> simp

@[simp] theorem cancelNow_kept (byOverrun : Bool) (s : State) : (cancelNow byOverrun s).kept = s.kept := by
  simp [cancelNow]
@[simp] theorem stopIngest_kept (s : State) : (stopIngest s).kept = s.kept := by unfold stopIngest; split <;> simp
@[simp] theorem exchange_kept (t : Token) (s : State) : (exchange t s).kept = s.kept := by simp [exchange]
@[simp] theorem countOverrun_kept (s : State) : (countOverrun s).kept = s.kept := by simp [countOverrun]
@[simp] theorem overrunLimit_kept (s : State) : (overrunLimit s).kept = s.kept := by simp [overrunLimit]

@[simp] theorem decide25_kept (s : State) : (decide25 s).1.kept = s.kept := by
  unfold decide25
  split
  · split <;> simp
  · split <;> simp
  · split <;> simp
  · simp

@[simp] theorem emitChan_kept (c : Channel) (stale : Bool) (w : Wait) (s : State) :
    (emitChan c stale w s).kept = s.kept := by
  simp [emitChan]
@[simp] theorem emitFrames_kept (stale summary : Bool) (s : State) : (emitFrames stale summary s).kept = s.kept := by
  simp [emitFrames]
@[simp] theorem dropTokens_kept (s : State) : (dropTokens s).kept = s.kept := kept_of_parts ..
@[simp] theorem emitEdge_kept (s : State) : (emitEdge s).kept = s.kept := by simp only [emitEdge]; split <;> simp
@[simp] theorem toCardBuf_kept (w : Wait) (frame : List Byte) (s : State) : (toCardBuf w frame s).kept = s.kept := by
  simp [toCardBuf]
@[simp] theorem sendFrame_kept (w : Wait) (frame : List Byte) (s : State) : (sendFrame w frame s).kept = s.kept := by
  simp [sendFrame]
@[simp] theorem emitDone_kept (s : State) : (emitDone s).kept = s.kept := by simp [emitDone]
@[simp] theorem acceptFrame_kept (w : Wait) (s : State) : (acceptFrame w s).kept = s.kept := by simp [acceptFrame]
@[simp] theorem dropFrame_kept (w : Wait) (s : State) : (dropFrame w s).kept = s.kept := by simp [dropFrame]

/-! ## Machine.Startup -/

@[simp] theorem powerOn_kept (mgrSel : Bool) (fabAddr : BitVec 10) (s : State) :
    (powerOn mgrSel fabAddr s).kept = s.kept := by
  simp [powerOn]
@[simp] theorem dropWord_kept (s : State) : (dropWord s).kept = s.kept := by unfold dropWord; split <;> simp
@[simp] theorem pinReset_kept (s : State) : (pinReset s).kept = s.kept := by simp [pinReset]
@[simp] theorem expectFrom_kept (inLoad : Bool) (s : State) : (expectFrom inLoad s).kept = s.kept := kept_of_parts ..
@[simp] theorem toSelftest_kept (s : State) : (toSelftest s).kept = s.kept := by simp [toSelftest]

@[simp] theorem holdCheck_kept (refclkOk suppliesOk pllOk : Bool) (s : State) :
    (holdCheck refclkOk suppliesOk pllOk s).kept = s.kept := by
  obtain ⟨u, hu, h⟩ := exists_eq_kept (advanceTo_kept (s.gctl.t0 + ((s.mono - s.gctl.t0) / 1000000 + 1) * 1000000) s)
  unfold holdCheck
  rw [hu]
  split
  · rfl
  · dsimp only
    split
    · simp [h]
    · split <;> simp [h]

@[simp] theorem toHold_kept (r : Byte) (s : State) : (toHold r s).kept = s.kept := by simp [toHold]
@[simp] theorem planFails_kept (code index : Byte) (s : State) : (planFails code index s).kept = s.kept := by
  simp [planFails]
@[simp] theorem planDone_kept (fw0 fw1 : Bool) (warn : Nat) (s : State) : (planDone fw0 fw1 warn s).kept = s.kept := by
  simp [planDone]

/-! ## Machine.Fenor -/

@[simp] theorem setOverlay_kept (l : List (Bool × Nat)) (s : State) : (setOverlay l s).kept = s.kept := kept_of_parts ..

@[simp] theorem checkTwin_kept (t : Twin) (s : State) : (checkTwin t s).1.kept = s.kept := by
  unfold checkTwin
  dsimp only
  split
  · simp
  · split
    · simp
    · split <;> simp

@[simp] theorem streamPayload_kept (p : Payload) (s : State) : (streamPayload p s).1.kept = s.kept := by
  unfold streamPayload
  split
  · simp
  · split <;> simp

@[simp] theorem streamPayloads_kept (l : List Payload) (s : State) : (streamPayloads l s).1.kept = s.kept := by
  induction l generalizing s with
  | nil => rfl
  | cons p l ih =>
    unfold streamPayloads
    dsimp only
    split <;> simp [ih]

@[simp] theorem showSelector_kept (s : State) : (showSelector s).kept = s.kept := by
  unfold showSelector
  split <;> exact kept_of_parts ..
@[simp] theorem twinFails_kept (t : Twin) (f : CheckFail) (s : State) : (twinFails t f s).kept = s.kept := by
  unfold twinFails
  split <;> simp
@[simp] theorem twinPasses_kept (t : Twin) (im : Image) (s : State) : (twinPasses t im s).kept = s.kept := by
  simp [twinPasses]
@[simp] theorem imgStat_kept (st : Byte) (s : State) : (imgStat st s).kept = s.kept := kept_of_parts ..
@[simp] theorem imgVec_kept (s : State) : (imgVec s).kept = s.kept := by simp [imgVec]

@[simp] theorem stage_kept (t : Twin) (s : State) : (stage t s).kept = s.kept := by
  unfold stage
  split
  · simp
  · split
    · simp
    · split <;> simp

@[simp] theorem verify_kept (s : State) : (verify s).kept = s.kept := by simp [verify]
@[simp] theorem candidateFail_kept (im : Image) (s : State) : (candidateFail im s).1.kept = s.kept := by
  simp [candidateFail]
@[simp] theorem verifyFails_kept (f : CheckFail) (s : State) : (verifyFails f s).kept = s.kept := by simp [verifyFails]

@[simp] theorem verifyEnds_kept (s : State) : (verifyEnds s).kept = s.kept := by
  unfold verifyEnds
  dsimp only
  split
  · simp
  · split <;> simp

@[simp] theorem commitReq_kept (persist : Bool) (s : State) : (commitReq persist s).kept = s.kept := by simp [commitReq]
@[simp] theorem imgCancel_kept (s : State) : (imgCancel s).kept = s.kept := by simp [imgCancel]

/-! ## Machine.Power -/

@[simp] theorem coreWindow_kept (m : Nat) (granted : Bool) (n : Nat) (s : State) :
    (coreWindow m granted n s).kept = s.kept := by
  simp only [coreWindow]
  split <;> simp

@[simp] theorem pumpWindow_kept (m : Nat) (asked granted : Bool) (s : State) :
    (pumpWindow m asked granted s).kept = s.kept := by
  simp [pumpWindow]
@[simp] theorem windowSettle_kept (s : State) : (windowSettle s).kept = s.kept := by simp [windowSettle]
@[simp] theorem openWindow_kept (k : Nat) (requests : List Nat) (s : State) : (openWindow k requests s).kept = s.kept := by
  simp [openWindow]
@[simp] theorem budgetWrite_kept (value : BitVec 16) (s : State) : (budgetWrite value s).kept = s.kept := by
  simp [budgetWrite]

@[simp] theorem fabBudgetWrite_kept (value : BitVec 16) (s : State) : (fabBudgetWrite value s).kept = s.kept := by
  unfold fabBudgetWrite
  split
  · simp
  · split <;> simp

/-! ## Machine.WardenCmd -/

@[simp] theorem fltStat_kept (st : Byte) (s : State) : (fltStat st s).kept = s.kept := kept_of_parts ..
@[simp] theorem fltClrWrite_kept (v : Word) (s : State) : (fltClrWrite v s).kept = s.kept := by simp [fltClrWrite]
@[simp] theorem recSelWrite_kept (i : BitVec 6) (s : State) : (recSelWrite i s).kept = s.kept := by simp [recSelWrite]
@[simp] theorem extInput_kept (p n : Bool) (s : State) : (extInput p n s).kept = s.kept := by simp [extInput]

/-! ## Machine.Conservator -/

@[simp] theorem tstVec_kept (s : State) : (tstVec s).kept = s.kept := by simp [tstVec]
@[simp] theorem tstCount_kept (i : Nat) (s : State) : (tstCount i s).kept = s.kept := kept_of_parts ..
@[simp] theorem rotDone_kept (s : State) : (rotDone s).kept = s.kept := by simp [rotDone]
@[simp] theorem rotAdvance_kept (p : Nat) (s : State) : (rotAdvance p s).kept = s.kept := by
  simp only [rotAdvance]
  split <;> simp
@[simp] theorem sliceBegin_kept (s : State) : (sliceBegin s).kept = s.kept := by simp [sliceBegin]
@[simp] theorem skip_kept (i : Nat) (s : State) : (skip i s).kept = s.kept := by simp [skip]
@[simp] theorem sliceOver_kept (result : BitVec 2) (s : State) : (sliceOver result s).kept = s.kept := by
  simp [sliceOver]
@[simp] theorem slicePass_kept (t : Target) (s : State) : (slicePass t s).kept = s.kept := by simp [slicePass]
@[simp] theorem failKeep_kept (t : Target) (s : State) : (failKeep t s).kept = s.kept := by
  unfold failKeep
  split <;> simp
@[simp] theorem sliceFail_kept (t : Target) (det detail : Nat) (s : State) : (sliceFail t det detail s).kept = s.kept := by
  simp [sliceFail]
@[simp] theorem testEnd_kept (x : Slice) (r : SliceOutcome) (s : State) : (testEnd x r s).kept = s.kept := by
  unfold testEnd
  split <;> simp

/-! ## Machine.Flags -/

@[simp] theorem shadowPut_kept (src : Source) (l : List (Nat × Word)) (s : State) : (shadowPut src l s).kept = s.kept := by
  unfold shadowPut
  split <;> simp
@[simp] theorem liveRead_kept (src : Source) (a : Nat) (s : State) : (liveRead src a s).1.kept = s.kept := by
  simp [liveRead]

@[simp] theorem regRead_kept (src : Source) (a : Nat) (s : State) : (regRead src a s).1.kept = s.kept := by
  unfold regRead
  split
  · rfl
  · split <;> simp

/-! ## Machine.HostOps -/

@[simp] theorem ringStat_kept (c : Channel) (st : Byte) (s : State) : (ringStat c st s).kept = s.kept := by
  simp [ringStat]
@[simp] theorem ringField_kept (c : Channel) (f : Ring → Ring) (s : State) : (ringField c f s).kept = s.kept := by
  simp [ringField]
@[simp] theorem ringEnable_kept (c : Channel) (s : State) : (ringEnable c s).kept = s.kept := by simp [ringEnable]
@[simp] theorem ringDisable_kept (c : Channel) (s : State) : (ringDisable c s).kept = s.kept := by simp [ringDisable]
@[simp] theorem ringCtlWrite_kept (c : Channel) (v : Word) (s : State) : (ringCtlWrite c v s).kept = s.kept := by
  simp [ringCtlWrite]
@[simp] theorem ringHead_kept (c : Channel) (v : BitVec 10) (s : State) : (ringHead c v s).kept = s.kept := by
  simp [ringHead]
@[simp] theorem ringWriteback_kept (c : Channel) (s : State) : (ringWriteback c s).kept = s.kept := by
  simp [ringWriteback]
@[simp] theorem ringWrite32_kept (c : Channel) (o : Nat) (v : Word) (s : State) : (ringWrite32 c o v s).kept = s.kept := by
  unfold ringWrite32
  split <;> simp
@[simp] theorem msixSend_kept (v : Nat) (s : State) : (msixSend v s).kept = s.kept := by simp [msixSend]
@[simp] theorem msixWrite_kept (o : Nat) (v : Word) (s : State) : (msixWrite o v s).kept = s.kept := by
  unfold msixWrite
  split <;> simp
@[simp] theorem setBme_kept (on : Bool) (s : State) : (setBme on s).kept = s.kept := by simp [setBme]
@[simp] theorem mbxStat_kept (st : Byte) (s : State) : (mbxStat st s).kept = s.kept := kept_of_parts ..

@[simp] theorem mbxPut_kept (s : State) : (mbxPut s).kept = s.kept := by
  unfold mbxPut
  split
  · simp
  · split <;> simp

@[simp] theorem mbxGet_kept (s : State) : (mbxGet s).kept = s.kept := by unfold mbxGet; split <;> simp
@[simp] theorem mbxCtlWrite_kept (v : Word) (s : State) : (mbxCtlWrite v s).kept = s.kept := by simp [mbxCtlWrite]
@[simp] theorem hstWrite_kept (o : Nat) (v : Word) (s : State) : (hstWrite o v s).kept = s.kept := by simp [hstWrite]
@[simp] theorem gridWinWrite_kept (off : Nat) (v : Word) (s : State) : (gridWinWrite off v s).kept = s.kept := by
  simp [gridWinWrite]

/-! ## Machine.Records -/

@[simp] theorem hostTrigger_kept (s : State) : (hostTrigger s).kept = s.kept := by simp [hostTrigger]
@[simp] theorem ackRecord_kept (seq : Nat) (s : State) : (ackRecord seq s).1.kept = s.kept := by
  simp only [ackRecord]
  split <;> simp

theorem untilStamp_kept {b : Nat} {s u : State} (h : untilStamp b s = some u) : u.kept = s.kept := by
  unfold untilStamp at h
  dsimp only at h
  split at h
  · cases h; rfl
  · split at h
    · cases h
    · cases h; exact advanceStamp_kept b s

@[simp] theorem doAppend_kept (s : State) : (doAppend s).kept = s.kept := by simp [doAppend]
@[simp] theorem ldgFree_kept (s : State) : (ldgFree s).kept = s.kept := by unfold ldgFree; split <;> simp
@[simp] theorem ldgAck_kept (n : Nat) (s : State) : (ldgAck n s).1.kept = s.kept := by simp [ldgAck]

/-! ## Machine.Ticks -/

@[simp] theorem srcJudge_kept (value : BitVec 2) (s : State) : (srcJudge value s).kept = s.kept := by simp [srcJudge]
@[simp] theorem switchTimeout_kept (s : State) : (switchTimeout s).kept = s.kept := by
  unfold switchTimeout
  split <;> simp
@[simp] theorem endByEdge_kept (w : Switch) (s : State) : (endByEdge w s).kept = s.kept := by simp [endByEdge]
@[simp] theorem judgeEdge_kept (s : State) : (judgeEdge s).kept = s.kept := by simp [judgeEdge]

@[simp] theorem tickEdge_kept (s : State) : (tickEdge s).kept = s.kept := by
  unfold tickEdge
  split
  · rfl
  · split
    · split <;> simp
    · split <;> simp

@[simp] theorem flyInstant_kept (s : State) : (flyInstant s).kept = s.kept := by
  unfold flyInstant
  split
  · rfl
  · split <;> simp

/-! ## Machine.TimeBase -/

@[simp] theorem timStat_kept (st : Byte) (s : State) : (timStat st s).kept = s.kept := kept_of_parts ..
@[simp] theorem discReq_kept (d : BitVec 2) (s : State) : (discReq d s).kept = s.kept := by simp [discReq]

@[simp] theorem applyReq_kept (slew atSecond : Bool) (s : State) : (applyReq slew atSecond s).kept = s.kept := by
  unfold applyReq
  split
  · simp
  · split <;> simp

@[simp] theorem timCmd_kept (src : Source) (f : State → State) (s : State) (hf : (f s).kept = s.kept) :
    (timCmd src f s).kept = s.kept :=
  judgedCmd_kept _ _ _ _ _ _ (timStat_kept ..) hf
@[simp] theorem cancelReq_kept (s : State) : (cancelReq s).kept = s.kept := by simp [cancelReq]

@[simp] theorem timSet_kept (reg : TimSet) (v : Word) (s : State) : (timSet reg v s).kept = s.kept := by
  unfold timSet
  split
  · simp
  · split <;> simp

@[simp] theorem timCtlWrite_kept (src : Source) (v : Word) (s : State) : (timCtlWrite src v s).kept = s.kept := by
  simp [timCtlWrite]

@[simp] theorem overSecond_kept (n : Nat) (s : State) : (overSecond n s).kept = s.kept := by
  induction n generalizing s with
  | zero => rfl
  | succ n ih => simp [overSecond, ih]

@[simp] theorem ppsPulse_kept (n g : Nat) (s : State) : (ppsPulse n g s).kept = s.kept := by
  induction n generalizing g s with
  | zero => rfl
  | succ n ih => simp [ppsPulse, ih]

@[simp] theorem ppsAccepted_kept (e : Nat) (s : State) : (ppsAccepted e s).kept = s.kept := by simp [ppsAccepted]

/-! ## Machine.Operands -/

@[simp] theorem cntIf_kept (b : Bool) (k : CntBlk) (s : State) : (cntIf b k s).kept = s.kept := by simp [cntIf]
@[simp] theorem tckWrite_kept (o : Nat) (v : Word) (s : State) : (tckWrite o v s).kept = s.kept := by
  unfold tckWrite
  split <;> simp
@[simp] theorem pwrWrite_kept (o : Nat) (v : Word) (s : State) : (pwrWrite o v s).kept = s.kept := by
  unfold pwrWrite
  split <;> simp
@[simp] theorem fltWrite_kept (o : Nat) (v : Word) (s : State) : (fltWrite o v s).kept = s.kept := by
  unfold fltWrite
  split <;> simp
@[simp] theorem arcWrite_kept (o : Nat) (v : Word) (s : State) : (arcWrite o v s).kept = s.kept := by
  unfold arcWrite
  split <;> simp
@[simp] theorem incCtl_kept (v : Word) (s : State) : (incCtl v s).kept = s.kept := by simp [incCtl]
@[simp] theorem ldgCtl_kept (v : Word) (s : State) : (ldgCtl v s).kept = s.kept := by simp [ldgCtl]
@[simp] theorem ldgRegWrite_kept (o : Nat) (v : Word) (s : State) : (ldgRegWrite o v s).kept = s.kept := by
  unfold ldgRegWrite
  split <;> simp
@[simp] theorem cvtWrite_kept (o : Nat) (v : Word) (s : State) : (cvtWrite o v s).kept = s.kept := by
  unfold cvtWrite
  split <;> simp
@[simp] theorem alnWrite_kept (o : Nat) (v : Word) (s : State) : (alnWrite o v s).kept = s.kept := by
  unfold alnWrite
  split <;> simp
@[simp] theorem egoWrite_kept (o : Nat) (v : Word) (s : State) : (egoWrite o v s).kept = s.kept := by
  unfold egoWrite
  split <;> simp
@[simp] theorem schWrite_kept (o : Nat) (v : Word) (s : State) : (schWrite o v s).kept = s.kept := by
  unfold schWrite
  split <;> simp
@[simp] theorem gpioWrite_kept (o : Nat) (v : Word) (s : State) : (gpioWrite o v s).kept = s.kept := by
  unfold gpioWrite
  split <;> simp
@[simp] theorem fabWrite_kept (o : Nat) (v : Word) (s : State) : (fabWrite o v s).kept = s.kept := by
  unfold fabWrite
  split <;> simp
@[simp] theorem plainWrite_kept (row a : Nat) (v : Word) (s : State) : (plainWrite row a v s).kept = s.kept := by
  unfold plainWrite
  split <;> simp

/-- Whatever a write of a command does, it keeps. -/
theorem cmdWrite_kept {src : Source} {a : Nat} {v : Word} {f : State → State} (hf : cmdWrite src a v = some f) (s : State) :
    (f s).kept = s.kept := by
  unfold cmdWrite at hf
  split at hf
  · cases hf; simp
  · cases hf; simp
  · cases hf; simp
  · obtain ⟨-, rfl⟩ := by simpa using hf
    simp
  · obtain ⟨-, rfl⟩ := by simpa using hf
    simp
  · obtain ⟨-, rfl⟩ := by simpa using hf
    simp
  · cases hf; simp
  · obtain ⟨-, rfl⟩ := by simpa using hf
    simp
  · obtain ⟨-, rfl⟩ := by simpa using hf
    simp
  · obtain ⟨-, rfl⟩ := by simpa using hf
    simp
  · split at hf
    · cases hf; simp
    · cases hf; simp
    · obtain ⟨-, rfl⟩ := by simpa using hf
      simp

@[simp] theorem regWrite_kept (src : Source) (a : Nat) (v : Word) (s : State) : (regWrite src a v s).kept = s.kept := by
  unfold regWrite
  refine kept_if rfl ?_
  split
  next h => exact cmdWrite_kept h s
  · split <;> simp

/-! ## Machine.Host -/

@[simp] theorem readOut_kept (src : Source) (a : Nat) (whole : Bool) (s : State) :
    (readOut src a whole s).kept = s.kept := by
  simp [readOut]
@[simp] theorem endpointReset_kept (drops : Bool) (s : State) : (endpointReset drops s).kept = s.kept := by
  simp [endpointReset]

/-! ## Machine.Mailbox -/

@[simp] theorem takeReq_kept (s : State) : (takeReq s).kept = s.kept := by unfold takeReq; split <;> simp

theorem withReq_keeps (type : Byte) (f : MbxReq → State → State) (s : State) (hf : ∀ r, (f r s).kept = s.kept) :
    (withReq type f s).Keeps s := by
  refine done_keeps ?_
  split <;> simp [hf]

@[simp] theorem stageWords_kept (ws : List (List Byte)) (a n : Nat) (s : State) :
    (stageWords ws a n s).1.kept = s.kept := by
  induction ws generalizing a n s with
  | nil => rfl
  | cons w ws ih => simp [stageWords, ih]

@[simp] theorem stageProgram_kept (r : MbxReq) (s : State) : (stageProgram r s).kept = s.kept := by simp [stageProgram]

@[simp] theorem stageErase_kept (r : MbxReq) (s : State) : (stageErase r s).kept = s.kept := by
  unfold stageErase
  dsimp only
  split
  · rfl
  · split <;> simp

@[simp] theorem incList_kept (r : MbxReq) (s : State) : (incList r s).kept = s.kept := by simp [incList]
@[simp] theorem recordBytes_kept (f : FoundRec) (ofs len : Nat) (s : State) :
    (recordBytes f ofs len s).1.kept = s.kept := by
  simp [recordBytes]
@[simp] theorem incExport_kept (r : MbxReq) (s : State) : (incExport r s).kept = s.kept := by
  unfold incExport
  split <;> simp

@[simp] theorem ldgExport_kept (r : MbxReq) (s : State) : (ldgExport r s).kept = s.kept := by
  simp only [ldgExport]
  split <;> simp

/-! ## Machine.Card -/

@[simp] theorem removalStart_kept (s : State) : (removalStart s).kept = s.kept := by simp [removalStart]
@[simp] theorem removalSeal_kept (s : State) : (removalSeal s).kept = s.kept := by simp [removalSeal]
@[simp] theorem crdVec_kept (s : State) : (crdVec s).kept = s.kept := by simp [crdVec]
@[simp] theorem crdCount_kept (i : Nat) (s : State) : (crdCount i s).kept = s.kept := kept_of_parts ..
@[simp] theorem cardSend_kept (cmd tag st code : Byte) (aux : BitVec 16) (payload : List Byte) (s : State) :
    (cardSend cmd tag st code aux payload s).kept = s.kept := by
  simp [cardSend]
@[simp] theorem cardReply_kept (cmd tag st : Byte) (s : State) : (cardReply cmd tag st s).kept = s.kept := by
  simp [cardReply]

@[simp] theorem abortReq_kept (tag : Byte) (address : Word) (payload : List Byte) (s : State) :
    (abortReq tag address payload s).kept = s.kept := by
  unfold abortReq
  dsimp only
  split
  · simp
  · split <;> simp

@[simp] theorem cardDecode_kept (f : CardFrame) (s : State) : (cardDecode f s).kept = s.kept := by simp [cardDecode]

@[simp] theorem cardBad_kept (kind : BadFrame) (cmd tag : Byte) (symErrs : Nat) (s : State) :
    (cardBad kind cmd tag symErrs s).kept = s.kept := by
  unfold cardBad
  split <;> simp

@[simp] theorem cardBadArg_kept (s : State) : (cardBadArg s).1.kept = s.kept := by simp [cardBadArg]
@[simp] theorem cardIdent_kept (s : State) : (cardIdent s).1.kept = s.kept := by simp [cardIdent]
@[simp] theorem cardStatus_kept (s : State) : (cardStatus s).1.kept = s.kept := by simp [cardStatus]
@[simp] theorem cardReadReg_kept (r : CardReq) (s : State) : (cardReadReg r s).1.kept = s.kept := by
  unfold cardReadReg
  split <;> simp
@[simp] theorem cardWriteReg_kept (r : CardReq) (s : State) : (cardWriteReg r s).1.kept = s.kept := by
  unfold cardWriteReg
  split <;> simp

@[simp] theorem readArchive_kept (n a : Nat) (s : State) (got : List Byte) :
    (readArchive n a s got).1.kept = s.kept := by
  induction n generalizing a s got with
  | zero => rfl
  | succ n ih => simp [readArchive, ih]

@[simp] theorem cardReadBlock_kept (r : CardReq) (s : State) : (cardReadBlock r s).1.kept = s.kept := by
  unfold cardReadBlock
  split
  · simp
  · split
    · simp
    · split
      · rfl
      · simp

@[simp] theorem cardWriteBlock_kept (r : CardReq) (s : State) : (cardWriteBlock r s).1.kept = s.kept := by
  unfold cardWriteBlock
  split <;> simp

@[simp] theorem cardGridRead_kept (r : CardReq) (s : State) : (cardGridRead r s).1.kept = s.kept := by
  unfold cardGridRead
  dsimp only
  split
  · simp
  · refine kept_fst_if rfl ?_
    split
    · rfl
    · exact kept_fst_if (by simp) rfl

@[simp] theorem cardMailboxPut_kept (r : CardReq) (s : State) : (cardMailboxPut r s).1.kept = s.kept := by
  unfold cardMailboxPut
  split <;> simp
@[simp] theorem cardMailboxGet_kept (s : State) : (cardMailboxGet s).1.kept = s.kept := by
  unfold cardMailboxGet
  split <;> simp
@[simp] theorem cardEject_kept (s : State) : (cardEject s).1.kept = s.kept := by simp [cardEject]

@[simp] theorem cardExec_kept (r : CardReq) (s : State) : (cardExec r s).1.kept = s.kept := by
  unfold cardExec
  extract_lets c
  clear_value c
  simp

@[simp] theorem cardAnswer_kept (r : CardReq) (s : State) : (cardAnswer r s).kept = s.kept := by
  unfold cardAnswer
  refine (cardSend_kept ..).trans <| (kept_of_parts ..).trans ?_
  split <;> simp

theorem cardRow_keeps (cmd : Byte) (s : State) : (cardRow cmd s).Keeps s := by
  refine done_keeps ?_
  split <;> simp

@[simp] theorem cardDown_kept (s : State) : (cardDown s).kept = s.kept := by
  unfold cardDown
  refine (raiseDet_kept ..).trans <| (crdVec_kept _).trans <| (crdCount_kept ..).trans ?_
  dsimp only
  split <;> simp

@[simp] theorem ejectReady_kept (s : State) : (ejectReady s).kept = s.kept := by simp [ejectReady]

/-! ## Machine.FabData -/

@[simp] theorem dataDrop_kept (src : BitVec 12) (g : DataSeg) (s : State) : (dataDrop src g s).kept = s.kept := by
  simp [dataDrop]

@[simp] theorem dataPost_kept (g : DataSeg) (entry data : List Byte) (s : State) :
    (dataPost g entry data s).kept = s.kept := by
  unfold dataPost
  refine kept_if (by simp) ?_
  split
  next h => exact (postEntry_kept ..).trans (storeData_kept h)
  · simp

@[simp] theorem dataNext_kept (src : BitVec 12) (g : DataSeg) (a : Assembly) (s : State) :
    (dataNext src g a s).1.kept = s.kept := by
  simp [dataNext]

@[simp] theorem dataTaken_kept (hdr : MsgHdr) (g : DataSeg) (s : State) : (dataTaken hdr g s).1.kept = s.kept := by
  unfold dataTaken
  extract_lets _ asm _ s₁
  have h : s₁.kept = s.kept := by simp [s₁]
  clear_value asm s₁
  refine kept_fst_if (kept_of_parts ..) <| kept_fst_if ((kept_of_parts ..).trans h) <| kept_fst_if (by simp [h]) <|
    kept_fst_if (by simp [h]) <| kept_fst_if (by simp [h]) <| kept_fst_if (by simp [h]) ?_
  cases asm
  · simp [h]
  · exact kept_fst_if (by simp [h]) (by simp [h])

/-! ## Machine.Jtag -/

@[simp] theorem jtag_kept (f : State → State) (s : State) (hf : (f s).kept = s.kept) : (jtag f s).kept = s.kept := by
  simp [jtag, hf]
@[simp] theorem jtagPins_kept (i : JtagIr) (s : State) : (jtagPins i s).kept = s.kept := by simp [jtagPins]
@[simp] theorem scanClear_kept (s : State) : (scanClear s).kept = s.kept := kept_of_parts ..

@[simp] theorem intScan_kept (s : State) : (intScan s).kept = s.kept := by
  unfold intScan
  refine kept_if (kept_of_parts ..) ((drivePair_kept ..).trans ?_)
  exact (scanClear_kept _).trans <| (enter_kept ..).trans <| (abandonErase_kept _).trans (finishWord_kept s)

/-! ## The commands -/

theorem execPowerOn_keeps (mgrSel : Bool) (fabAddr : BitVec 10) (s : State) : (execPowerOn mgrSel fabAddr s).Keeps s :=
  done_keeps (powerOn_kept ..)
theorem execPoresetAssert_keeps (s : State) : (execPoresetAssert s).Keeps s := done_keeps (by simp)
theorem execSupplyLoss_keeps (_supply : Supply) (s : State) : (execSupplyLoss _supply s).Keeps s := done_keeps (by simp)
theorem execPinReset_keeps (s : State) : (execPinReset s).Keeps s := done_keeps (pinReset_kept ..)
theorem execHoldCheck_keeps (refclkOk suppliesOk pllOk : Bool) (s : State) :
    (execHoldCheck refclkOk suppliesOk pllOk s).Keeps s :=
  done_keeps (holdCheck_kept ..)
theorem execConditionLost_keeps (what : Condition) (s : State) : (execConditionLost what s).Keeps s := by
  cases what <;> exact done_keeps (by simp)
theorem execPowerupPlanDone_keeps (fw0 fw1 : Bool) (marginWarn : Nat) (s : State) :
    (execPowerupPlanDone fw0 fw1 marginWarn s).Keeps s :=
  done_keeps (by simp)
theorem execPowerupFail_keeps (code index : Byte) (s : State) : (execPowerupFail code index s).Keeps s :=
  done_keeps (by simp)

theorem execLoadDone_keeps (ecc : EccView) (s : State) : (execLoadDone ecc s).Keeps s := by
  refine done_keeps (kept_if rfl ?_)
  dsimp only
  split
  · simp
  · split <;> simp

theorem execHalt_keeps (src : Source) (s : State) : (execHalt src s).Keeps s := done_keeps (by simp)
theorem execGo_keeps (src : Source) (s : State) : (execGo src s).Keeps s := done_keeps (by simp)
theorem execRecover_keeps (src : Source) (s : State) : (execRecover src s).Keeps s := done_keeps (by simp)
theorem execEnterMaint_keeps (src : Source) (s : State) : (execEnterMaint src s).Keeps s := done_keeps (by simp)
theorem execRestart_keeps (src : Source) (key : Byte) (s : State) : (execRestart src key s).Keeps s :=
  done_keeps (gctlByCode_kept ..)
theorem execClrCnt_keeps (src : Source) (s : State) : (execClrCnt src s).Keeps s := done_keeps (by simp)
theorem execCntClr_keeps (src : Source) (blk : CntBlk) (s : State) : (execCntClr src blk s).Keeps s :=
  done_keeps (by simp)
theorem execRegisterWrite_keeps (src : Source) (addr : Nat) (value : Word) (whole : Bool) (s : State) :
    (execRegisterWrite src addr value whole s).Keeps s :=
  done_keeps (by simp)
theorem execSnapshotRead_keeps (src : Source) (place : Access) (s : State) : (execSnapshotRead src place s).Keeps s :=
  done_keeps (readOut_kept ..)
theorem execTickBoundary_keeps (hottest : Int) (s : State) : (execTickBoundary hottest s).Keeps s :=
  done_keeps (by simp)
theorem execStagedApply_keeps (s : State) : (execStagedApply s).Keeps s := done_keeps (by simp)
theorem execCommitTakeEffect_keeps (s : State) : (execCommitTakeEffect s).Keeps s := done_keeps (by simp)
theorem execRunEntry_keeps (s : State) : (execRunEntry s).Keeps s := done_keeps (by simp)
theorem execArmTimeout_keeps (s : State) : (execArmTimeout s).Keeps s := done_keeps (by simp)
theorem execDegradedExit_keeps (s : State) : (execDegradedExit s).Keeps s := done_keeps (by simp)
theorem execLockLossDegrade_keeps (s : State) : (execLockLossDegrade s).Keeps s := done_keeps (by simp)
theorem execQuarantineExit_keeps (s : State) : (execQuarantineExit s).Keeps s := done_keeps (by simp)
theorem execSrcRequest_keeps (src : Source) (value : BitVec 2) (s : State) : (execSrcRequest src value s).Keeps s :=
  done_keeps (by simp)
theorem execSrcSwitchEffect_keeps (s : State) : (execSrcSwitchEffect s).Keeps s := done_keeps (by simp)
theorem execSrcSwitchTimeout_keeps (s : State) : (execSrcSwitchTimeout s).Keeps s := done_keeps (switchTimeout_kept ..)
theorem execTickInEdge_keeps (s : State) : (execTickInEdge s).Keeps s := done_keeps (tickEdge_kept ..)
theorem execFlywheelBoundary_keeps (s : State) : (execFlywheelBoundary s).Keeps s := done_keeps (flyInstant_kept ..)
theorem execFallback_keeps (s : State) : (execFallback s).Keeps s := done_keeps (by simp)
theorem execGatherClose_keeps (s : State) : (execGatherClose s).Keeps s := done_keeps (by simp)

theorem execStreamLimit_keeps (stream : Nat) (s : State) : (execStreamLimit stream s).Keeps s := by
  refine done_keeps ?_
  split
  · exact kept_if (by simp) rfl
  · rfl

theorem execEmitEdge_keeps (s : State) : (execEmitEdge s).Keeps s := done_keeps (by simp)
theorem execFrameAccept_keeps (chan : Channel) (route : Nat) (s : State) : (execFrameAccept chan route s).Keeps s := by
  refine done_keeps ?_
  split <;> simp
theorem execQuietEdge_keeps (s : State) : (execQuietEdge s).Keeps s := done_keeps (by simp)
theorem execTimDiscRequest_keeps (src : Source) (disc : BitVec 2) (s : State) :
    (execTimDiscRequest src disc s).Keeps s :=
  done_keeps (by simp)
theorem execApplyStep_keeps (src : Source) (atSecond : Bool) (s : State) : (execApplyStep src atSecond s).Keeps s :=
  done_keeps (by simp)
theorem execApplySlew_keeps (src : Source) (atSecond : Bool) (s : State) : (execApplySlew src atSecond s).Keeps s :=
  done_keeps (by simp)
theorem execTimCancel_keeps (src : Source) (s : State) : (execTimCancel src s).Keeps s := done_keeps (by simp)
theorem execTimSetWrite_keeps (src : Source) (reg : TimSet) (value : Word) (s : State) :
    (execTimSetWrite src reg value s).Keeps s :=
  done_keeps (by simp)
theorem execApplyAtSecondEffect_keeps (s : State) : (execApplyAtSecondEffect s).Keeps s :=
  done_keeps (overSecond_kept ..)
theorem execSlewEnd_keeps (s : State) : (execSlewEnd s).Keeps s := done_keeps (by simp)
theorem execGptpMessage_keeps (mac : Nat) (msg : GptpMsg) (s : State) : (execGptpMessage mac msg s).Keeps s := by
  refine done_keeps (kept_if ?_ rfl)
  cases msg <;> simp
theorem execPpsInEdge_keeps (s : State) : (execPpsInEdge s).Keeps s := done_keeps (by simp)

theorem execReferenceSilence_keeps (s : State) : (execReferenceSilence s).Keeps s := by
  refine done_keeps (kept_if rfl ?_)
  split
  · exact kept_if (by simp) (by simp)
  · rfl

theorem execHoldoverLimit_keeps (s : State) : (execHoldoverLimit s).Keeps s := done_keeps (by simp)
theorem execPpsOutPulse_keeps (s : State) : (execPpsOutPulse s).Keeps s := done_keeps (by simp)
theorem execImgStage_keeps (src : Source) (twin : Twin) (s : State) : (execImgStage src twin s).Keeps s :=
  done_keeps (by simp)
theorem execImgVerify_keeps (src : Source) (s : State) : (execImgVerify src s).Keeps s := done_keeps (by simp)
theorem execVerifyDone_keeps (ecc : EccView) (s : State) : (execVerifyDone ecc s).Keeps s := done_keeps (by simp)
theorem execImgCommit_keeps (src : Source) (persist : Bool) (s : State) : (execImgCommit src persist s).Keeps s :=
  done_keeps (by simp)
theorem execImgCancel_keeps (src : Source) (s : State) : (execImgCancel src s).Keeps s := done_keeps (by simp)
theorem execPersistSelector_keeps (s : State) : (execPersistSelector s).Keeps s := done_keeps (by simp)
theorem execTaskRelease_keeps (task : Nat) (s : State) : (execTaskRelease task s).Keeps s := by
  refine done_keeps ?_
  split <;> simp
theorem execTaskStart_keeps (core : Nat) (s : State) : (execTaskStart core s).Keeps s := by
  refine done_keeps (kept_if ?_ rfl)
  split <;> simp

theorem execTaskEnd_keeps (core : Nat) (cycles : Nat) (work : List CoreOp) (s : State) :
    (execTaskEnd core cycles work s).Keeps s := by
  refine done_keeps ?_
  split
  · rfl
  · exact kept_if rfl (by simp)

theorem execWcetExceed_keeps (core : Nat) (cycles : Nat) (s : State) : (execWcetExceed core cycles s).Keeps s :=
  done_keeps (by simp)

theorem execSolveStepEnd_keeps (core : Nat) (step : SolveStep) (s : State) :
    (execSolveStepEnd core step s).Keeps s := by
  refine done_keeps ?_
  split
  · exact kept_if rfl (kept_if (by simp) (by simp))
  · rfl

theorem execSolveDeadline_keeps (core : Nat) (cut : SolveCut) (s : State) : (execSolveDeadline core cut s).Keeps s := by
  refine done_keeps ?_
  split
  · split
    · exact kept_if rfl (by simp)
    · rfl
  · rfl

theorem execQueueTailWrite_keeps (src : Source) (queue : Nat) (value : BitVec 13) (s : State) :
    (execQueueTailWrite src queue value s).Keeps s :=
  done_keeps (by simp)
theorem execScoreboardPeek_keeps (src : Source) (slot : BitVec 13) (entry : Bool) (s : State) :
    (execScoreboardPeek src slot entry s).Keeps s :=
  done_keeps (by simp)
theorem execCvtTestConvert_keeps (src : Source) (value : Word) (s : State) : (execCvtTestConvert src value s).Keeps s :=
  done_keeps (by simp)
theorem execCsiFrameStart_keeps (rx vc : Nat) (frameNo : BitVec 16) (ecc : HdrEcc) (s : State) :
    (execCsiFrameStart rx vc frameNo ecc s).Keeps s :=
  done_keeps (by simp)
theorem execCsiLine_keeps (rx vc dt : Nat) (ecc : HdrEcc) (crcOk : Bool) (data : List Byte) (s : State) :
    (execCsiLine rx vc dt ecc crcOk data s).Keeps s :=
  done_keeps (by simp)
theorem execCsiFrameEnd_keeps (rx vc : Nat) (ecc : HdrEcc) (s : State) : (execCsiFrameEnd rx vc ecc s).Keeps s :=
  done_keeps (by simp)
theorem execCsiSotError_keeps (rx : Nat) (s : State) : (execCsiSotError rx s).Keeps s := done_keeps (by simp)
theorem execEthFrameRx_keeps (mac : Nat) (fcsOk : Bool) (bytes : List Byte) (s : State) :
    (execEthFrameRx mac fcsOk bytes s).Keeps s :=
  done_keeps (ethFrame_kept ..)
theorem execEthLinkChange_keeps (mac : Nat) (link : EthLink) (s : State) : (execEthLinkChange mac link s).Keeps s :=
  done_keeps (by simp)
theorem execCanFrameRx_keeps (ctl : Nat) (id : BitVec 29) (ide : Bool) (bits : CanBits) (data : List Byte) (s : State) :
    (execCanFrameRx ctl id ide bits data s).Keeps s :=
  done_keeps (by simp)
theorem execCanError_keeps (ctl : Nat) (cat : CanCat) (role : CanRole) (s : State) :
    (execCanError ctl cat role s).Keeps s :=
  done_keeps (by simp)
theorem execCanBusoffRecovery_keeps (ctl : Nat) (s : State) : (execCanBusoffRecovery ctl s).Keeps s :=
  done_keeps (by simp)
theorem execDrdyEdge_keeps (unit : Nat) (s : State) : (execDrdyEdge unit s).Keeps s := done_keeps (by simp)
theorem execSpiTransferEnd_keeps (unit : Nat) (data : List Byte) (s : State) :
    (execSpiTransferEnd unit data s).Keeps s :=
  done_keeps (by simp)
theorem execDrdyTimeout_keeps (unit : Nat) (s : State) : (execDrdyTimeout unit s).Keeps s := done_keeps (by simp)
theorem execGpioEdge_keeps (pin : Nat) (rising : Bool) (s : State) : (execGpioEdge pin rising s).Keeps s :=
  done_keeps (by simp)
theorem execIncTrigEdge_keeps (rising : Bool) (s : State) : (execIncTrigEdge rising s).Keeps s := done_keeps (by simp)
theorem execHostTrigger_keeps (src : Source) (s : State) : (execHostTrigger src s).Keeps s := done_keeps (by simp)
theorem execVitrineBlockCommit_keeps (s : State) : (execVitrineBlockCommit s).Keeps s := done_keeps (by simp)
theorem execVitrineSeal_keeps (s : State) : (execVitrineSeal s).Keeps s := done_keeps (by simp)
theorem execVitrinePrepare_keeps (s : State) : (execVitrinePrepare s).Keeps s := done_keeps (by simp)
theorem execVitrineStartSeal_keeps (s : State) : (execVitrineStartSeal s).Keeps s := done_keeps (by simp)

theorem execEgoUpdate_keeps (s : State) : (execEgoUpdate s).Keeps s := by
  refine done_keeps ?_
  split
  · exact kept_if (kept_if (by simp) (by simp)) rfl
  · rfl

theorem execEgoHistSelect_keeps (src : Source) (age : BitVec 9) (s : State) : (execEgoHistSelect src age s).Keeps s :=
  done_keeps (by simp)

theorem execArcWindowRead_keeps (src : Source) (place : Access) (ecc : EccView) (s : State) :
    (execArcWindowRead src place ecc s).Keeps s := by
  refine done_keeps <| kept_if rfl <| kept_if (State.say_kept ..) <| kept_if (State.say_kept ..) ?_
  have h := winRead_kept (s.winAddr place.addr) (s.showing ecc)
  split
  next u w e =>
    rw [e] at h
    exact (State.say_kept ..).trans (h.trans (State.showing_kept ..))

theorem execArcWindowWrite_keeps (src : Source) (_off : Nat) (s : State) : (execArcWindowWrite src _off s).Keeps s :=
  done_keeps (by simp)
theorem execEccWarnWrite_keeps (src : Source) (value : BitVec 2) (s : State) : (execEccWarnWrite src value s).Keeps s :=
  done_keeps (by simp)
theorem execFirmwareRepair_keeps (sigOk : Bool) (s : State) : (execFirmwareRepair sigOk s).Keeps s :=
  done_keeps (by simp)
theorem execArcKey_keeps (src : Source) (key : Byte) (s : State) : (execArcKey src key s).Keeps s :=
  done_keeps (by simp)
theorem execArcSequenceWrite_keeps (src : Source) (reg : ArcReg) (value : Word) (s : State) :
    (execArcSequenceWrite src reg value s).Keeps s :=
  done_keeps (by simp)

theorem execArcKeyTimeout_keeps (s : State) : (execArcKeyTimeout s).Keeps s := by
  refine done_keeps ?_
  split
  · exact kept_if (by simp) rfl
  · rfl

theorem execArcSeqTimeout_keeps (s : State) : (execArcSeqTimeout s).Keeps s := by
  refine done_keeps ?_
  split
  · exact kept_if (by simp) rfl
  · rfl

theorem execReadId_keeps (src : Source) (last : Word) (s : State) : (execReadId src last s).Keeps s :=
  done_keeps (arcLast_kept ..)
theorem execProgramWord_keeps (src : Source) (last : Word) (s : State) : (execProgramWord src last s).Keeps s :=
  done_keeps (arcLast_kept ..)
theorem execProgramEnd_keeps (s : State) : (execProgramEnd s).Keeps s := done_keeps (endOf_kept ..)
theorem execEraseSector_keeps (src : Source) (last : Word) (s : State) : (execEraseSector src last s).Keeps s :=
  done_keeps (arcLast_kept ..)
theorem execEraseParam_keeps (src : Source) (last : Word) (s : State) : (execEraseParam src last s).Keeps s :=
  done_keeps (arcLast_kept ..)

theorem execEraseEnd_keeps (s : State) : (execEraseEnd s).Keeps s := by
  refine done_keeps ?_
  split
  · exact kept_if (arcNow_kept s) (by simp)
  · exact arcNow_kept s

theorem execSuspend_keeps (src : Source) (last : Word) (s : State) : (execSuspend src last s).Keeps s :=
  done_keeps (arcLast_kept ..)

theorem execSuspendEffect_keeps (s : State) : (execSuspendEffect s).Keeps s := by
  refine done_keeps ?_
  split
  · exact kept_if (by simp) (arcNow_kept s)
  · exact arcNow_kept s

theorem execResume_keeps (src : Source) (last : Word) (s : State) : (execResume src last s).Keeps s :=
  done_keeps (arcLast_kept ..)
theorem execReadCounter_keeps (src : Source) (last : Word) (s : State) : (execReadCounter src last s).Keeps s :=
  done_keeps (arcLast_kept ..)
theorem execSetWp_keeps (src : Source) (last : Word) (s : State) : (execSetWp src last s).Keeps s :=
  done_keeps (arcLast_kept ..)
theorem execLockWp_keeps (src : Source) (last : Word) (s : State) : (execLockWp src last s).Keeps s :=
  done_keeps (arcLast_kept ..)
theorem execSwapBoot_keeps (src : Source) (last : Word) (s : State) : (execSwapBoot src last s).Keeps s :=
  done_keeps (arcLast_kept ..)
theorem execSwapBootEnd_keeps (s : State) : (execSwapBootEnd s).Keeps s := done_keeps (endOf_kept ..)
theorem execBlankCheck_keeps (src : Source) (last : Word) (s : State) : (execBlankCheck src last s).Keeps s :=
  done_keeps (arcLast_kept ..)
theorem execBlankCheckEnd_keeps (s : State) : (execBlankCheckEnd s).Keeps s := done_keeps (endOf_kept ..)
theorem execClearStatus_keeps (src : Source) (last : Word) (s : State) : (execClearStatus src last s).Keeps s :=
  done_keeps (arcLast_kept ..)
theorem execIncompleteReerase_keeps (s : State) : (execIncompleteReerase s).Keeps s := by
  refine done_keeps ?_
  split <;> simp
theorem execCardPresLoss_keeps (s : State) : (execCardPresLoss s).Keeps s := done_keeps (by simp)
theorem execRemovalSeal_keeps (s : State) : (execRemovalSeal s).Keeps s := done_keeps (by simp)
theorem execCardLinkUp_keeps (s : State) : (execCardLinkUp s).Keeps s := done_keeps (by simp)
theorem execCardLinkDown_keeps (s : State) : (execCardLinkDown s).Keeps s := done_keeps (by simp)
theorem execCardRequest_keeps (frame : CardFrame) (s : State) : (execCardRequest frame s).Keeps s :=
  done_keeps (by simp)
theorem execCardBadFrame_keeps (kind : BadFrame) (cmd tag : Byte) (symErrs : Nat) (s : State) :
    (execCardBadFrame kind cmd tag symErrs s).Keeps s :=
  done_keeps (by simp)
theorem execIdent_keeps (s : State) : (execIdent s).Keeps s := cardRow_keeps _ _
theorem execStatus_keeps (s : State) : (execStatus s).Keeps s := cardRow_keeps _ _
theorem execReadReg_keeps (s : State) : (execReadReg s).Keeps s := cardRow_keeps _ _
theorem execWriteReg_keeps (s : State) : (execWriteReg s).Keeps s := cardRow_keeps _ _
theorem execReadBlock_keeps (ecc : EccView) (s : State) : (execReadBlock ecc s).Keeps s :=
  cardRow_keeps 0x20 (s.showing ecc)
theorem execWriteBlock_keeps (s : State) : (execWriteBlock s).Keeps s := cardRow_keeps _ _
theorem execGridRead_keeps (s : State) : (execGridRead s).Keeps s := cardRow_keeps _ _
theorem execMailboxPut_keeps (s : State) : (execMailboxPut s).Keeps s := cardRow_keeps _ _
theorem execMailboxGet_keeps (s : State) : (execMailboxGet s).Keeps s := cardRow_keeps _ _
theorem execEjectRequest_keeps (s : State) : (execEjectRequest s).Keeps s := cardRow_keeps _ _
theorem execEjectReady_keeps (s : State) : (execEjectReady s).Keeps s := done_keeps (by simp)
theorem execAbort_keeps (tag target : Byte) (s : State) : (execAbort tag target s).Keeps s := done_keeps (by simp)

theorem execPeriodBoundary_keeps (s : State) : (execPeriodBoundary s).Keeps s := by
  refine done_keeps (kept_if ?_ rfl)
  split
  · split
    next h => exact kept_if rfl ((ldgJudge_kept ..).trans (untilStamp_kept h))
    · rfl
  · rfl

theorem execBackstop_keeps (s : State) : (execBackstop s).Keeps s := by
  refine done_keeps ?_
  split
  · split
    · exact kept_if (by simp) (by simp)
    · simp
  · simp

theorem execCheckpoint_keeps (s : State) : (execCheckpoint s).Keeps s := done_keeps (by simp)
theorem execAppendBound_keeps (src : Source) (s : State) : (execAppendBound src s).Keeps s := done_keeps (by simp)
theorem execFabricLinkUp_keeps (port : Nat) (partner : LinkPartner) (s : State) :
    (execFabricLinkUp port partner s).Keeps s :=
  done_keeps (linkUp_kept ..)
theorem execFabricLinkDown_keeps (port : Nat) (s : State) : (execFabricLinkDown port s).Keeps s :=
  done_keeps (linkLost_kept ..)
theorem execHelloTimeout_keeps (port : Nat) (s : State) : (execHelloTimeout port s).Keeps s := done_keeps (by simp)
theorem execLinkAck_keeps (port : Nat) (ack : LinkAck) (s : State) : (execLinkAck port ack s).Keeps s :=
  done_keeps (by simp)
theorem execLinkNak_keeps (port : Nat) (missing : LinkAck) (s : State) : (execLinkNak port missing s).Keeps s :=
  done_keeps (by simp)
theorem execHelloSend_keeps (s : State) : (execHelloSend s).Keeps s := done_keeps (sendHellos_kept ..)
theorem execHello_keeps (port : Nat) (hello : MsgHdr × Hello) (s : State) : (execHello port hello s).Keeps s :=
  done_keeps (by simp)
theorem execLsaRefresh_keeps (s : State) : (execLsaRefresh s).Keeps s := done_keeps (by simp)
theorem execLsa_keeps (port : Nat) (hdr : MsgHdr) (lsa : Lsa) (s : State) : (execLsa port hdr lsa s).Keeps s :=
  done_keeps (by simp)

theorem execLsaExpiry_keeps (s : State) : (execLsaExpiry s).Keeps s := by
  refine done_keeps ?_
  split
  · simp
  · rfl

theorem execElection_keeps (s : State) : (execElection s).Keeps s := done_keeps (elect_kept ..)
theorem execAddrAssign_keeps (port : Nat) (hdr : MsgHdr) (serial : BitVec 64) (addr : BitVec 12) (s : State) :
    (execAddrAssign port hdr serial addr s).Keeps s :=
  done_keeps (by simp)
theorem execRole_keeps (port : Nat) (hdr : MsgHdr) (mgr stby : BitVec 12) (devices : BitVec 16) (epoch : BitVec 64) (s : State) :
    (execRole port hdr mgr stby devices epoch s).Keeps s :=
  done_keeps (by simp)
theorem execTickSend_keeps (s : State) : (execTickSend s).Keeps s := done_keeps (tickSend_kept ..)
theorem execTick_keeps (port : Nat) (hdr : MsgHdr) (tick : TickMsg) (s : State) : (execTick port hdr tick s).Keeps s :=
  done_keeps (by simp)
theorem execTickMiss_keeps (s : State) : (execTickMiss s).Keeps s := done_keeps (tickMiss_kept ..)
theorem execDelayMeasure_keeps (port : Nat) (s : State) : (execDelayMeasure port s).Keeps s :=
  done_keeps (delayAsk_kept ..)
theorem execDelayReq_keeps (port : Nat) (hdr : MsgHdr) (t1 : BitVec 64) (s : State) :
    (execDelayReq port hdr t1 s).Keeps s :=
  done_keeps (by simp)
theorem execDelayResp_keeps (port : Nat) (hdr : MsgHdr) (t1 t2 t3 : BitVec 64) (s : State) :
    (execDelayResp port hdr t1 t2 t3 s).Keeps s :=
  done_keeps (by simp)
theorem execBudget_keeps (port : Nat) (hdr : MsgHdr) (applyIndex : BitVec 64) (budget classFloor : BitVec 16) (s : State) :
    (execBudget port hdr applyIndex budget classFloor s).Keeps s :=
  done_keeps (by simp)
theorem execTrigger_keeps (port : Nat) (hdr : MsgHdr) (originTick : BitVec 64) (cause : Byte) (s : State) :
    (execTrigger port hdr originTick cause s).Keeps s :=
  done_keeps (by simp)
theorem execSafe_keeps (port : Nat) (hdr : MsgHdr) (tickIndex : BitVec 64) (cause : Byte) (s : State) :
    (execSafe port hdr tickIndex cause s).Keeps s :=
  done_keeps (by simp)
theorem execData_keeps (port : Nat) (hdr : MsgHdr) (seg : DataSeg) (s : State) : (execData port hdr seg s).Keeps s :=
  done_keeps (by simp)
theorem execReply_keeps (port : Nat) (hdr : MsgHdr) (reply : ReplyMsg) (s : State) :
    (execReply port hdr reply s).Keeps s :=
  done_keeps (by simp)
theorem execJoinReq_keeps (port : Nat) (hdr : MsgHdr) (join : JoinReq) (s : State) :
    (execJoinReq port hdr join s).Keeps s :=
  done_keeps (by simp)
theorem execJoinAck_keeps (port : Nat) (hdr : MsgHdr) (ack : JoinAck) (s : State) :
    (execJoinAck port hdr ack s).Keeps s :=
  done_keeps (by simp)
theorem execReport_keeps (port : Nat) (hdr : MsgHdr) (report : ReportMsg) (s : State) :
    (execReport port hdr report s).Keeps s :=
  done_keeps (by simp)
theorem execVerdict_keeps (port : Nat) (hdr : MsgHdr) (cause action : Byte) (epoch : BitVec 64) (s : State) :
    (execVerdict port hdr cause action epoch s).Keeps s :=
  done_keeps (by simp)
theorem execMgrClaimSend_keeps (s : State) : (execMgrClaimSend s).Keeps s := done_keeps (claimSend_kept ..)
theorem execMgrClaim_keeps (port : Nat) (hdr : MsgHdr) (claim : Claim) (s : State) :
    (execMgrClaim port hdr claim s).Keeps s :=
  done_keeps (by simp)
theorem execMemberSelect_keeps (src : Source) (value : BitVec 10) (s : State) :
    (execMemberSelect src value s).Keeps s :=
  done_keeps (by simp)
theorem execRouteSelect_keeps (src : Source) (value : BitVec 12) (s : State) : (execRouteSelect src value s).Keeps s :=
  done_keeps (by simp)
theorem execArbiterWindow_keeps (requests : List Nat) (s : State) : (execArbiterWindow requests s).Keeps s :=
  done_keeps (by simp)
theorem execPwrAlert_keeps (s : State) : (execPwrAlert s).Keeps s := done_keeps (by simp)
theorem execPwrAlertRelease_keeps (s : State) : (execPwrAlertRelease s).Keeps s := done_keeps (by simp)
theorem execBudgetWrite_keeps (src : Source) (value : BitVec 16) (s : State) : (execBudgetWrite src value s).Keeps s :=
  done_keeps (by simp)
theorem execFabBudgetWrite_keeps (src : Source) (value : BitVec 16) (s : State) :
    (execFabBudgetWrite src value s).Keeps s :=
  done_keeps (by simp)
theorem execLossOfLock_keeps (clock : ClockFault) (s : State) : (execLossOfLock clock s).Keeps s := by
  refine done_keeps (kept_if rfl ?_)
  cases clock <;> simp
theorem execDetectorReport_keeps (patterns : List DetPattern) (s : State) : (execDetectorReport patterns s).Keeps s :=
  done_keeps (by simp)
theorem execFaultClear_keeps (src : Source) (det : Byte) (s : State) : (execFaultClear src det s).Keeps s :=
  done_keeps (by simp)
theorem execFaultClearAll_keeps (src : Source) (s : State) : (execFaultClearAll src s).Keeps s := done_keeps (by simp)
theorem execRecSelect_keeps (src : Source) (index : BitVec 6) (s : State) : (execRecSelect src index s).Keeps s :=
  done_keeps (by simp)
theorem execHeartbeatToggle_keeps (s : State) : (execHeartbeatToggle s).Keeps s := by
  refine done_keeps (kept_if ?_ rfl)
  split <;> simp
theorem execExtFltInput_keeps (p n : Bool) (s : State) : (execExtFltInput p n s).Keeps s :=
  done_keeps (extInput_kept ..)
theorem execExtHbTimeout_keeps (s : State) : (execExtHbTimeout s).Keeps s := done_keeps (by simp)
theorem execSliceStart_keeps (requests : List Nat) (condOk : Bool) (s : State) :
    (execSliceStart requests condOk s).Keeps s :=
  done_keeps (by simp)
theorem execSliceSkip_keeps (requests : List Nat) (condFailed : Bool) (s : State) :
    (execSliceSkip requests condFailed s).Keeps s :=
  done_keeps (by simp)
theorem execSliceTestEnd_keeps (result : SliceOutcome) (s : State) : (execSliceTestEnd result s).Keeps s := by
  unfold execSliceTestEnd
  split <;> exact done_keeps (by simp)

theorem execSliceLatestEnd_keeps (s : State) : (execSliceLatestEnd s).Keeps s := by
  unfold execSliceLatestEnd
  split
  · exact done_keeps (kept_if (by simp) (by simp))
  · exact done_keeps rfl

theorem execSliceRestoreEnd_keeps (s : State) : (execSliceRestoreEnd s).Keeps s := by
  unfold execSliceRestoreEnd
  split <;> exact done_keeps (by simp)
theorem execUnmappedRead_keeps (src : Source) (place : Access) (s : State) : (execUnmappedRead src place s).Keeps s :=
  done_keeps (by simp)
theorem execGridWindowWrite_keeps (src : Source) (place : Access) (value : Word) (s : State) :
    (execGridWindowWrite src place value s).Keeps s :=
  done_keeps (by simp)
theorem execMsixUnmask_keeps (what : Unmask) (s : State) : (execMsixUnmask what s).Keeps s := by
  cases what <;> exact done_keeps (by simp)
theorem execRingEnable_keeps (src : Source) (chan : Channel) (s : State) : (execRingEnable src chan s).Keeps s :=
  done_keeps (by simp)
theorem execRingDisable_keeps (src : Source) (chan : Channel) (s : State) : (execRingDisable src chan s).Keeps s :=
  done_keeps (by simp)
theorem execRingHeadWrite_keeps (src : Source) (chan : Channel) (value : BitVec 10) (s : State) :
    (execRingHeadWrite src chan value s).Keeps s :=
  done_keeps (by simp)
theorem execRingWriteback_keeps (chan : Channel) (s : State) : (execRingWriteback chan s).Keeps s :=
  done_keeps (ringWriteback_kept ..)
theorem execPcieReset_keeps (kind : PcieReset) (s : State) : (execPcieReset kind s).Keeps s := done_keeps (by simp)
theorem execMbxPut_keeps (src : Source) (s : State) : (execMbxPut src s).Keeps s := done_keeps (by simp)
theorem execMbxGet_keeps (src : Source) (s : State) : (execMbxGet src s).Keeps s := done_keeps (by simp)
theorem execMailboxTake_keeps (s : State) : (execMailboxTake s).Keeps s := done_keeps (by simp)
theorem execStageProgram_keeps (s : State) : (execStageProgram s).Keeps s := withReq_keeps _ _ _ fun r => by simp
theorem execStageErase_keeps (s : State) : (execStageErase s).Keeps s := withReq_keeps _ _ _ fun r => by simp
theorem execIncList_keeps (s : State) : (execIncList s).Keeps s := withReq_keeps _ _ _ fun r => by simp
theorem execIncExport_keeps (ecc : EccView) (s : State) : (execIncExport ecc s).Keeps s :=
  withReq_keeps _ _ (s.showing ecc) fun r => by simp
theorem execIncAck_keeps (s : State) : (execIncAck s).Keeps s := withReq_keeps _ _ _ fun r => by simp
theorem execLdgExport_keeps (s : State) : (execLdgExport s).Keeps s := withReq_keeps _ _ _ fun r => by simp
theorem execLdgAck_keeps (s : State) : (execLdgAck s).Keeps s := withReq_keeps _ _ _ fun r => by simp
theorem execExtest_keeps (s : State) : (execExtest s).Keeps s := done_keeps (jtagPins_kept ..)
theorem execIdcode_keeps (s : State) : (execIdcode s).Keeps s := done_keeps (by simp)
theorem execSamplePreload_keeps (bits : List Bool) (s : State) : (execSamplePreload bits s).Keeps s :=
  done_keeps (by simp)
theorem execClamp_keeps (s : State) : (execClamp s).Keeps s := done_keeps (jtagPins_kept ..)
theorem execHighz_keeps (s : State) : (execHighz s).Keeps s := done_keeps (jtagPins_kept ..)
theorem execIntScan_keeps (s : State) : (execIntScan s).Keeps s := done_keeps (by simp)
theorem execBypass_keeps (s : State) : (execBypass s).Keeps s := done_keeps (by simp)
theorem execPinResetRelease_keeps (mgrSel : Bool) (fabAddr : BitVec 10) (s : State) :
    (execPinResetRelease mgrSel fabAddr s).Keeps s :=
  done_keeps (by simp)
theorem execPcieLinkUp_keeps (speed width : Nat) (s : State) : (execPcieLinkUp speed width s).Keeps s :=
  done_keeps (by simp)
theorem execConfigurationRequest_keeps (req : CfgReq) (s : State) : (execConfigurationRequest req s).Keeps s := by
  refine done_keeps (kept_if rfl (kept_if (by simp) ?_))
  cases req <;> simp
theorem execTimeclkPresent_keeps (present : Bool) (s : State) : (execTimeclkPresent present s).Keeps s :=
  done_keeps (by simp)
theorem execPeerDelayMeasurement_keeps (mac : Nat) (s : State) : (execPeerDelayMeasurement mac s).Keeps s :=
  done_keeps (by simp)
theorem execGenericShortPacket_keeps (rx : Nat) (packet : ShortPacket) (s : State) :
    (execGenericShortPacket rx packet s).Keeps s :=
  done_keeps (by simp)

theorem execDupAddrRecovery_keeps (s : State) : (execDupAddrRecovery s).Keeps s := by
  refine done_keeps ?_
  split
  · exact kept_if (by simp) rfl
  · rfl

/-- FLOOR_RAISE changes nothing of the OTP but the floor, and never lowers it (R79). -/
theorem floorRaise_kept (r : MbxReq) (s : State) :
    ∃ v : BitVec 16, s.otp.floor.toNat ≤ v.toNat ∧ (floorRaise r s).kept = { s with otp.floor := v }.kept := by
  unfold floorRaise
  extract_lets v
  have hv : v < 65536 := Nat.mod_lt _ (by decide)
  split
  · refine ⟨_, ?_, answerMbx_kept ..⟩
    split
    · rw [BitVec.toNat_ofNat]; omega
    · exact le_rfl
  · exact ⟨_, le_rfl, answerMbx_kept ..⟩

theorem execFloorRaise_kept {s t : State} (h : execFloorRaise s = .next t) :
    ∃ v : BitVec 16, s.otp.floor.toNat ≤ v.toNat ∧ t.kept = { s with otp.floor := v }.kept := by
  unfold execFloorRaise withReq at h
  split at h
  next r _ =>
    split at h
    · obtain ⟨v, hv, hk⟩ := floorRaise_kept r s
      exact ⟨v, hv, done_keeps hk t h⟩
    · exact ⟨_, le_rfl, done_keeps rfl t h⟩
  · exact ⟨_, le_rfl, done_keeps rfl t h⟩

/-- Every command but FLOOR_RAISE keeps the OTP, apart from the gate of its key read path, and the queue. -/
theorem exec_keeps (c : Instr) (s : State) (hc : c ≠ .floorRaise) : Answer.Keeps (exec c s) s := by
  cases c with
  | powerOn mgrSel fabAddr => exact execPowerOn_keeps mgrSel fabAddr s
  | poresetAssert => exact execPoresetAssert_keeps s
  | supplyLoss supply => exact execSupplyLoss_keeps supply s
  | pinReset => exact execPinReset_keeps s
  | holdCheck refclkOk suppliesOk pllOk => exact execHoldCheck_keeps refclkOk suppliesOk pllOk s
  | conditionLost what => exact execConditionLost_keeps what s
  | powerupPlanDone fw0 fw1 marginWarn => exact execPowerupPlanDone_keeps fw0 fw1 marginWarn s
  | powerupFail code index => exact execPowerupFail_keeps code index s
  | loadDone ecc => exact execLoadDone_keeps ecc s
  | halt src => exact execHalt_keeps src s
  | go src => exact execGo_keeps src s
  | recover src => exact execRecover_keeps src s
  | enterMaint src => exact execEnterMaint_keeps src s
  | restart src key => exact execRestart_keeps src key s
  | clrCnt src => exact execClrCnt_keeps src s
  | cntClr src blk => exact execCntClr_keeps src blk s
  | registerWrite src addr value whole => exact execRegisterWrite_keeps src addr value whole s
  | snapshotRead src place => exact execSnapshotRead_keeps src place s
  | tickBoundary hottest => exact execTickBoundary_keeps hottest s
  | stagedApply => exact execStagedApply_keeps s
  | commitTakeEffect => exact execCommitTakeEffect_keeps s
  | runEntry => exact execRunEntry_keeps s
  | armTimeout => exact execArmTimeout_keeps s
  | degradedExit => exact execDegradedExit_keeps s
  | lockLossDegrade => exact execLockLossDegrade_keeps s
  | quarantineExit => exact execQuarantineExit_keeps s
  | srcRequest src value => exact execSrcRequest_keeps src value s
  | srcSwitchEffect => exact execSrcSwitchEffect_keeps s
  | srcSwitchTimeout => exact execSrcSwitchTimeout_keeps s
  | tickInEdge => exact execTickInEdge_keeps s
  | flywheelBoundary => exact execFlywheelBoundary_keeps s
  | fallback => exact execFallback_keeps s
  | gatherClose => exact execGatherClose_keeps s
  | streamLimit stream => exact execStreamLimit_keeps stream s
  | emitEdge => exact execEmitEdge_keeps s
  | frameAccept chan route => exact execFrameAccept_keeps chan route s
  | quietEdge => exact execQuietEdge_keeps s
  | timDiscRequest src disc => exact execTimDiscRequest_keeps src disc s
  | applyStep src atSecond => exact execApplyStep_keeps src atSecond s
  | applySlew src atSecond => exact execApplySlew_keeps src atSecond s
  | timCancel src => exact execTimCancel_keeps src s
  | timSetWrite src reg value => exact execTimSetWrite_keeps src reg value s
  | applyAtSecondEffect => exact execApplyAtSecondEffect_keeps s
  | slewEnd => exact execSlewEnd_keeps s
  | gptpMessage mac msg => exact execGptpMessage_keeps mac msg s
  | ppsInEdge => exact execPpsInEdge_keeps s
  | referenceSilence => exact execReferenceSilence_keeps s
  | holdoverLimit => exact execHoldoverLimit_keeps s
  | ppsOutPulse => exact execPpsOutPulse_keeps s
  | imgStage src twin => exact execImgStage_keeps src twin s
  | imgVerify src => exact execImgVerify_keeps src s
  | verifyDone ecc => exact execVerifyDone_keeps ecc s
  | imgCommit src persist => exact execImgCommit_keeps src persist s
  | imgCancel src => exact execImgCancel_keeps src s
  | persistSelector => exact execPersistSelector_keeps s
  | taskRelease task => exact execTaskRelease_keeps task s
  | taskStart core => exact execTaskStart_keeps core s
  | taskEnd core cycles work => exact execTaskEnd_keeps core cycles work s
  | wcetExceed core cycles => exact execWcetExceed_keeps core cycles s
  | solveStepEnd core step => exact execSolveStepEnd_keeps core step s
  | solveDeadline core cut => exact execSolveDeadline_keeps core cut s
  | queueTailWrite src queue value => exact execQueueTailWrite_keeps src queue value s
  | scoreboardPeek src slot entry => exact execScoreboardPeek_keeps src slot entry s
  | cvtTestConvert src value => exact execCvtTestConvert_keeps src value s
  | csiFrameStart rx vc frameNo ecc => exact execCsiFrameStart_keeps rx vc frameNo ecc s
  | csiLine rx vc dt ecc crcOk data => exact execCsiLine_keeps rx vc dt ecc crcOk data s
  | csiFrameEnd rx vc ecc => exact execCsiFrameEnd_keeps rx vc ecc s
  | csiSotError rx => exact execCsiSotError_keeps rx s
  | ethFrameRx mac fcsOk bytes => exact execEthFrameRx_keeps mac fcsOk bytes s
  | ethLinkChange mac link => exact execEthLinkChange_keeps mac link s
  | canFrameRx ctl id ide bits data => exact execCanFrameRx_keeps ctl id ide bits data s
  | canError ctl cat role => exact execCanError_keeps ctl cat role s
  | canBusoffRecovery ctl => exact execCanBusoffRecovery_keeps ctl s
  | drdyEdge unit => exact execDrdyEdge_keeps unit s
  | spiTransferEnd unit data => exact execSpiTransferEnd_keeps unit data s
  | drdyTimeout unit => exact execDrdyTimeout_keeps unit s
  | gpioEdge pin rising => exact execGpioEdge_keeps pin rising s
  | incTrigEdge rising => exact execIncTrigEdge_keeps rising s
  | hostTrigger src => exact execHostTrigger_keeps src s
  | vitrineBlockCommit => exact execVitrineBlockCommit_keeps s
  | vitrineSeal => exact execVitrineSeal_keeps s
  | vitrinePrepare => exact execVitrinePrepare_keeps s
  | vitrineStartSeal => exact execVitrineStartSeal_keeps s
  | egoUpdate => exact execEgoUpdate_keeps s
  | egoHistSelect src age => exact execEgoHistSelect_keeps src age s
  | arcWindowRead src place ecc => exact execArcWindowRead_keeps src place ecc s
  | arcWindowWrite src off => exact execArcWindowWrite_keeps src off s
  | eccWarnWrite src value => exact execEccWarnWrite_keeps src value s
  | firmwareRepair sigOk => exact execFirmwareRepair_keeps sigOk s
  | arcKey src key => exact execArcKey_keeps src key s
  | arcSequenceWrite src reg value => exact execArcSequenceWrite_keeps src reg value s
  | arcKeyTimeout => exact execArcKeyTimeout_keeps s
  | arcSeqTimeout => exact execArcSeqTimeout_keeps s
  | readId src last => exact execReadId_keeps src last s
  | programWord src last => exact execProgramWord_keeps src last s
  | programEnd => exact execProgramEnd_keeps s
  | eraseSector src last => exact execEraseSector_keeps src last s
  | eraseParam src last => exact execEraseParam_keeps src last s
  | eraseEnd => exact execEraseEnd_keeps s
  | suspend src last => exact execSuspend_keeps src last s
  | suspendEffect => exact execSuspendEffect_keeps s
  | resume src last => exact execResume_keeps src last s
  | readCounter src last => exact execReadCounter_keeps src last s
  | setWp src last => exact execSetWp_keeps src last s
  | lockWp src last => exact execLockWp_keeps src last s
  | swapBoot src last => exact execSwapBoot_keeps src last s
  | swapBootEnd => exact execSwapBootEnd_keeps s
  | blankCheck src last => exact execBlankCheck_keeps src last s
  | blankCheckEnd => exact execBlankCheckEnd_keeps s
  | clearStatus src last => exact execClearStatus_keeps src last s
  | incompleteReerase => exact execIncompleteReerase_keeps s
  | cardPresLoss => exact execCardPresLoss_keeps s
  | removalSeal => exact execRemovalSeal_keeps s
  | cardLinkUp => exact execCardLinkUp_keeps s
  | cardLinkDown => exact execCardLinkDown_keeps s
  | cardRequest frame => exact execCardRequest_keeps frame s
  | cardBadFrame kind cmd tag symErrs => exact execCardBadFrame_keeps kind cmd tag symErrs s
  | ident => exact execIdent_keeps s
  | status => exact execStatus_keeps s
  | readReg => exact execReadReg_keeps s
  | writeReg => exact execWriteReg_keeps s
  | readBlock ecc => exact execReadBlock_keeps ecc s
  | writeBlock => exact execWriteBlock_keeps s
  | gridRead => exact execGridRead_keeps s
  | mailboxPut => exact execMailboxPut_keeps s
  | mailboxGet => exact execMailboxGet_keeps s
  | ejectRequest => exact execEjectRequest_keeps s
  | ejectReady => exact execEjectReady_keeps s
  | abort tag target => exact execAbort_keeps tag target s
  | periodBoundary => exact execPeriodBoundary_keeps s
  | backstop => exact execBackstop_keeps s
  | checkpoint => exact execCheckpoint_keeps s
  | appendBound src => exact execAppendBound_keeps src s
  | fabricLinkUp port partner => exact execFabricLinkUp_keeps port partner s
  | fabricLinkDown port => exact execFabricLinkDown_keeps port s
  | helloTimeout port => exact execHelloTimeout_keeps port s
  | linkAck port ack => exact execLinkAck_keeps port ack s
  | linkNak port missing => exact execLinkNak_keeps port missing s
  | helloSend => exact execHelloSend_keeps s
  | hello port hello => exact execHello_keeps port hello s
  | lsaRefresh => exact execLsaRefresh_keeps s
  | lsa port hdr lsa => exact execLsa_keeps port hdr lsa s
  | lsaExpiry => exact execLsaExpiry_keeps s
  | election => exact execElection_keeps s
  | addrAssign port hdr serial addr => exact execAddrAssign_keeps port hdr serial addr s
  | role port hdr mgr stby devices epoch => exact execRole_keeps port hdr mgr stby devices epoch s
  | tickSend => exact execTickSend_keeps s
  | tick port hdr tick => exact execTick_keeps port hdr tick s
  | tickMiss => exact execTickMiss_keeps s
  | delayMeasure port => exact execDelayMeasure_keeps port s
  | delayReq port hdr t1 => exact execDelayReq_keeps port hdr t1 s
  | delayResp port hdr t1 t2 t3 => exact execDelayResp_keeps port hdr t1 t2 t3 s
  | budget port hdr applyIndex budget classFloor => exact execBudget_keeps port hdr applyIndex budget classFloor s
  | trigger port hdr originTick cause => exact execTrigger_keeps port hdr originTick cause s
  | safe port hdr tickIndex cause => exact execSafe_keeps port hdr tickIndex cause s
  | data port hdr seg => exact execData_keeps port hdr seg s
  | reply port hdr reply => exact execReply_keeps port hdr reply s
  | joinReq port hdr join => exact execJoinReq_keeps port hdr join s
  | joinAck port hdr ack => exact execJoinAck_keeps port hdr ack s
  | report port hdr report => exact execReport_keeps port hdr report s
  | verdict port hdr cause action epoch => exact execVerdict_keeps port hdr cause action epoch s
  | mgrClaimSend => exact execMgrClaimSend_keeps s
  | mgrClaim port hdr claim => exact execMgrClaim_keeps port hdr claim s
  | memberSelect src value => exact execMemberSelect_keeps src value s
  | routeSelect src value => exact execRouteSelect_keeps src value s
  | arbiterWindow requests => exact execArbiterWindow_keeps requests s
  | pwrAlert => exact execPwrAlert_keeps s
  | pwrAlertRelease => exact execPwrAlertRelease_keeps s
  | budgetWrite src value => exact execBudgetWrite_keeps src value s
  | fabBudgetWrite src value => exact execFabBudgetWrite_keeps src value s
  | lossOfLock clock => exact execLossOfLock_keeps clock s
  | detectorReport patterns => exact execDetectorReport_keeps patterns s
  | faultClear src det => exact execFaultClear_keeps src det s
  | faultClearAll src => exact execFaultClearAll_keeps src s
  | recSelect src index => exact execRecSelect_keeps src index s
  | heartbeatToggle => exact execHeartbeatToggle_keeps s
  | extFltInput p n => exact execExtFltInput_keeps p n s
  | extHbTimeout => exact execExtHbTimeout_keeps s
  | sliceStart requests condOk => exact execSliceStart_keeps requests condOk s
  | sliceSkip requests condFailed => exact execSliceSkip_keeps requests condFailed s
  | sliceTestEnd result => exact execSliceTestEnd_keeps result s
  | sliceLatestEnd => exact execSliceLatestEnd_keeps s
  | sliceRestoreEnd => exact execSliceRestoreEnd_keeps s
  | unmappedRead src place => exact execUnmappedRead_keeps src place s
  | gridWindowWrite src place value => exact execGridWindowWrite_keeps src place value s
  | msixUnmask what => exact execMsixUnmask_keeps what s
  | ringEnable src chan => exact execRingEnable_keeps src chan s
  | ringDisable src chan => exact execRingDisable_keeps src chan s
  | ringHeadWrite src chan value => exact execRingHeadWrite_keeps src chan value s
  | ringWriteback chan => exact execRingWriteback_keeps chan s
  | pcieReset kind => exact execPcieReset_keeps kind s
  | mbxPut src => exact execMbxPut_keeps src s
  | mbxGet src => exact execMbxGet_keeps src s
  | mailboxTake => exact execMailboxTake_keeps s
  | stageProgram => exact execStageProgram_keeps s
  | stageErase => exact execStageErase_keeps s
  | incList => exact execIncList_keeps s
  | incExport ecc => exact execIncExport_keeps ecc s
  | incAck => exact execIncAck_keeps s
  | ldgExport => exact execLdgExport_keeps s
  | ldgAck => exact execLdgAck_keeps s
  | floorRaise => exact absurd rfl hc
  | extest => exact execExtest_keeps s
  | idcode => exact execIdcode_keeps s
  | samplePreload bits => exact execSamplePreload_keeps bits s
  | clamp => exact execClamp_keeps s
  | highz => exact execHighz_keeps s
  | intScan => exact execIntScan_keeps s
  | bypass => exact execBypass_keeps s
  | pinResetRelease mgrSel fabAddr => exact execPinResetRelease_keeps mgrSel fabAddr s
  | pcieLinkUp speed width => exact execPcieLinkUp_keeps speed width s
  | configurationRequest req => exact execConfigurationRequest_keeps req s
  | timeclkPresent present => exact execTimeclkPresent_keeps present s
  | peerDelayMeasurement mac => exact execPeerDelayMeasurement_keeps mac s
  | genericShortPacket rx packet => exact execGenericShortPacket_keeps rx packet s
  | dupAddrRecovery => exact execDupAddrRecovery_keeps s

/-- What a command leaves of the OTP and the queue: all of it, but for a floor that may have risen. -/
theorem exec_kept {c : Instr} {s t : State} (h : exec c s = .next t) :
    ∃ v : BitVec 16, s.otp.floor.toNat ≤ v.toNat ∧ t.kept = { s with otp.floor := v }.kept := by
  by_cases hc : c = .floorRaise
  · subst hc
    exact execFloorRaise_kept h
  · exact ⟨_, le_rfl, exec_keeps c s hc t h⟩

/-- What a step leaves of them: the command at the front has left the queue. -/
theorem step_kept {s t : State} (h : step s = .next t) :
    ∃ v : BitVec 16, s.otp.floor.toNat ≤ v.toNat ∧ t.kept = { s with otp.floor := v, pending := s.pending.drop 1 }.kept := by
  unfold step at h
  split at h
  next hp => exact ⟨_, le_rfl, done_keeps (counterUpdate_kept s) t h |>.trans (by simp [State.kept, hp])⟩
  next c cs hp =>
    rw [hp]
    exact exec_kept h

theorem sameFuses_of_kept {s t : State} {v : BitVec 16} {l : List Instr}
    (h : t.kept = { s with otp.floor := v, pending := l }.kept) : SameFuses s t :=
  congrArg (fun k : Otp × List Instr => ({ k.1 with floor := 0 } : Otp)) h

theorem floor_of_kept {s t : State} {v : BitVec 16} {l : List Instr}
    (h : t.kept = { s with otp.floor := v, pending := l }.kept) : t.otp.floor = v :=
  congrArg (fun k : Otp × List Instr => k.1.floor) h

end Sys2Proof.Machine

namespace Sys2Proof
open Machine

/-- Settles O7: a step keeps `State.kept` but for a floor that may have risen and the command that has left the queue. -/
theorem fusesFixedFloorRises : Obligations.FusesFixedFloorRises := by
  intro s t h
  obtain ⟨v, hv, hk⟩ := step_kept h
  exact ⟨sameFuses_of_kept hk, floor_of_kept hk ▸ hv⟩
end Sys2Proof

/-! # The reset state, and the copy of a pair's high half -/
namespace Sys2Proof
open Machine

/-- Settles O2: each part is a closed fact about the reset state. -/
theorem resetState : Obligations.ResetState :=
  ⟨rfl, by decide, rfl, rfl, rfl, rfl, rfl, rfl, rfl, rfl, rfl, rfl, rfl, rfl⟩

/-- A settled state in HOLD whose copies for the host stand out of order: 0x20 before 0x1C. No run from reset comes to
it, since `aset` keeps a list in order, but no premise of `Obligations.RegisterAccesses` leaves it out. -/
def outOfOrderShadows : State := { State.reset with shadows.pcie := [(0x20, 1), (0x1C, 7)] }

/-- The pair at 0x18 reads as 0 in HOLD (R390). To copy its high half, 0, to 0x1C, `aset` looks for the entry of 0x1C no
further than the first larger address, finds none and leaves the list as it is. -/
theorem exec_read_outOfOrderShadows :
    exec (.snapshotRead .pcie ⟨0x18, true⟩) outOfOrderShadows =
      .next { outOfOrderShadows with out := .read .pcie 0x18 0 :: outOfOrderShadows.out } :=
  done_of_settled ⟨rfl, rfl⟩

/-- Refutes O47 in its clause on the read of the low half of a pair: from `outOfOrderShadows` the shadow of 0x18 answers
the older copy 7 after the read, and the high half is 0. The clause lacks the premise that the copies stand in order. -/
theorem not_registerAccesses : ¬ Obligations.RegisterAccesses := by
  rintro ⟨-, -, -, -, -, -, lowHalfRead, -⟩
  obtain ⟨t, ht, -, -, hcopy⟩ := lowHalfRead .pcie 0x18 0 0 outOfOrderShadows ⟨rfl, rfl⟩ (by decide) (by decide) rfl rfl
    (by decide) (by decide) (by decide) (by decide) (by decide)
  rw [exec_read_outOfOrderShadows] at ht
  cases ht
  exact absurd hcopy (by decide)

end Sys2Proof

/-! # Switches of the tick source, and the flywheel instant: two statements that fail -/
namespace Sys2Proof.Machine

/-- A core of the table after reset has its class counters where the last boundary left them. -/
theorem satCls_eq_satBase_of_defaultCores {s : State} (h : s.sch.cores = Vector.replicate 48 {}) (n : Nat) :
    (s.core n).satCls = (s.core n).satBase := by
  unfold State.core tget
  rw [h]
  by_cases hn : n < 48
  · simp [Vector.getD, hn]
  · simp [Vector.getD, hn]; rfl

end Sys2Proof.Machine

namespace Sys2Proof
open Machine

/-- A worker disciplined by FABRIC, whose switch from FABRIC to INTERNAL waits for its boundary, follows a manager that
takes office (R310): the model's `followFabric` sets TCK_CTL.SRC back to FABRIC, requests nothing since FABRIC is still in
force, and leaves the switch as it is. -/
def followsInSwitch : State :=
  followFabric { State.reset with
    gctl.mode := .armed, tim.discAct := discFabric
    tck := { gDone := true, eDone := true, qDone := true, active := srcFabric, switch := some { dest := srcInternal, endMono := 0 } } }

/-- Refutes O10 in its clause on a switch to INTERNAL that takes effect: from `followsInSwitch` the boundary puts INTERNAL
in force, and TCK_CTL.SRC keeps reading FABRIC, since the end of a switch does not write it. The clause lacks the premise
that SRC names the source switched to. -/
theorem not_sourceSwitches : ¬ Obligations.SourceSwitches := by
  rintro ⟨-, -, -, switchEffect, -⟩
  obtain ⟨t, ht, -, -, hsrc, -⟩ := switchEffect { dest := srcInternal, endMono := 0 } followsInSwitch (by decide) ⟨rfl, rfl⟩
    ⟨rfl, rfl, rfl⟩ rfl rfl rfl rfl rfl (by decide) rfl (satCls_eq_satBase_of_defaultCores rfl)
  have ht : settle (boundaryIf (fun s => s.tck.switch.isSome) followsInSwitch) = t := Host.Outcome.next.inj ht
  rw [← ht] at hsrc
  exact absurd hsrc (by decide +kernel)

/-- A device under TICK_IN that has made no boundary, whose entry to ARMED is still to come, and whose device time a slew
holds at 0 for 125 counter updates, since it takes 8 ns from each update of 4 ns. No run from reset comes to it; no premise
of `Obligations.TickInEdges` leaves it out. -/
def armedToCome : State := { State.reset with
  gctl := { mode := .armed, armedMono := 2000 }
  img := { run := some { ports := { filtTickIn := 1 } } }
  tim := { slewRest := -1000 * unit12, slewPpm := 2000000 }
  tck := { gDone := true, eDone := true, qDone := true, active := srcTickIn } }

/-- Refutes O11 in its clause on the flywheel boundary: the stamp of an instant to come is foretold as 1000 in
`armedToCome`, where the whole slew counts at once, and as 1500 when the flywheel instant is reached, since device time has
been held at 0 on the way. The clause lacks the premise that ARMED has been entered. -/
theorem not_tickInEdges : ¬ Obligations.TickInEdges := by
  rintro ⟨-, -, -, flywheelBoundary, -⟩
  obtain ⟨t, ht, -, -, -, hbound, -⟩ := flywheelBoundary armedToCome
    ⟨by decide, ⟨rfl, rfl⟩, ⟨rfl, rfl, rfl⟩, rfl, rfl, by decide, rfl, satCls_eq_satBase_of_defaultCores rfl⟩ rfl rfl (by decide)
  have foretold : (judgeFrom armedToCome + armedToCome.tolLate).toNat = 1000 := by decide +kernel
  have ht : settle (flyInstant armedToCome) = t := Host.Outcome.next.inj ht
  rw [foretold, ← ht] at hbound
  exact absurd hbound (by decide +kernel)

end Sys2Proof

/-! # The boundary that INTERNAL makes

A boundary is cut at its changes of state (R31, step 3): `BoundaryMade` says what the steps before it bring, `StatesChanged`
what step 3 may touch, and `TickOpened` what the steps after it bring. Each function on the way has one lemma `f_frame`,
which names the parts of the state it may write and leaves the rest as it is. -/
namespace Sys2Proof.Machine

/-! ## Loops that write one part of the state -/

/-- A loop whose turns, from a state with `P`, write the part that `put` writes and keep `P`, writes that part alone. -/
theorem foldl_frame_of_inv {α β : Type} (P : State → Prop) (put : β → State → State) {f : State → α → State}
    (same : ∀ s, ∃ b, s = put b s) (again : ∀ b c s, put c (put b s) = put c s)
    (turn : ∀ s a, P s → ∃ b, f s a = put b s ∧ P (put b s)) (l : List α) (s : State) (hs : P s) :
    ∃ b, l.foldl f s = put b s := by
  induction l generalizing s with
  | nil => exact same s
  | cons a l ih =>
    obtain ⟨b, hb, hP⟩ := turn s a hs
    obtain ⟨c, hc⟩ := ih (put b s) hP
    exact ⟨c, by rw [List.foldl_cons, hb, hc, again]⟩

/-- The same for a loop whose turns need no invariant. -/
theorem foldl_frame {α β : Type} (put : β → State → State) {f : State → α → State} (same : ∀ s, ∃ b, s = put b s)
    (again : ∀ b c s, put c (put b s) = put c s) (turn : ∀ s a, ∃ b, f s a = put b s) (l : List α) (s : State) :
    ∃ b, l.foldl f s = put b s :=
  foldl_frame_of_inv (fun _ => True) put same again (fun s a _ => (turn s a).imp fun _ h => ⟨h, trivial⟩) l s trivial

/-! ## Vectors -/

theorem msix_frame (v : Nat) (en : Bool) (s : State) :
    msix v en s = { s with hst := (msix v en s).hst, out := (msix v en s).out } := by
  unfold msix
  split_ifs <;> rfl

theorem msix_out_suffix (v : Nat) (en : Bool) (s : State) : s.out <:+ (msix v en s).out := by
  unfold msix
  split_ifs
  · exact List.suffix_rfl
  · exact List.suffix_rfl
  · exact List.suffix_cons _ _

/-! ## The curator -/

theorem abortSolve_frame (n : Nat) (j : Job) (s : State) : ∃ c, abortSolve n j s = { s with sch := c } := by
  unfold abortSolve
  split
  · exact ⟨_, rfl⟩
  · exact ⟨_, rfl⟩

theorem dropRunning_frame (hit : Job → Bool) (s : State) : ∃ c, dropRunning hit s = { s with sch := c } := by
  refine foldl_frame (fun c s => { s with sch := c }) (fun _ => ⟨_, rfl⟩) (fun _ _ _ => rfl) (fun t n => ?_) _ s
  split
  · split
    · obtain ⟨c, h⟩ := abortSolve_frame n ‹Job› t
      exact ⟨_, by rw [h]; rfl⟩
    · exact ⟨_, rfl⟩
  · exact ⟨_, rfl⟩

theorem dropTasks_frame (s : State) : ∃ c, dropTasks s = { s with sch := c } := by
  obtain ⟨c, h⟩ := dropRunning_frame (fun _ => true) s
  exact ⟨_, by rw [dropTasks, h]⟩

theorem dropCompute_frame (s : State) : ∃ c, dropCompute s = { s with sch := c } := by
  unfold dropCompute
  extract_lets +onlyGivenNames hit
  obtain ⟨c, h⟩ := dropRunning_frame hit s
  exact ⟨_, by rw [h]⟩

theorem quietCores_frame (s : State) : ∃ c, quietCores s = { s with sch := c } := by
  unfold quietCores
  split_ifs
  · exact ⟨_, rfl⟩
  · exact dropCompute_frame s
  · exact dropTasks_frame s

/-- No class counter of a core has moved since the last boundary (R124). -/
def State.satQuiet (s : State) : Prop := ∀ n, (s.core n).satCls = (s.core n).satBase

theorem core_setCore_same {n : Nat} (h : n < 48) (s : State) (c : Core) : (s.setCore n c).core n = c :=
  tget_tset_same _ _ _ h

theorem core_setCore_other {n m : Nat} (h : n ≠ m) (s : State) (c : Core) : (s.setCore n c).core m = s.core m :=
  tget_tset_other _ _ _ _ h

theorem core_beyond {n : Nat} (h : 48 ≤ n) (s : State) : s.core n = default := by
  simp [State.core, tget, Vector.getD, h]

theorem satQuiet_setCore {s : State} (h : s.satQuiet) (n : Nat) {c : Core} (hc : c.satCls = c.satBase) :
    (s.setCore n c).satQuiet := by
  intro m
  by_cases hm : m < 48
  · by_cases e : n = m
    · subst e
      rw [core_setCore_same hm, hc]
    · rw [core_setCore_other e, h m]
  · rw [core_beyond (Nat.le_of_not_lt hm)]
    rfl

/-- With no class counter moved no core raises SATURATION, and the check writes the cores alone. -/
theorem saturationCheck_frame {s : State} (h : s.satQuiet) : ∃ c, saturationCheck s = { s with sch := c } := by
  refine foldl_frame_of_inv State.satQuiet (fun c s => { s with sch := c }) (fun _ => ⟨_, rfl⟩) (fun _ _ _ => rfl)
    (fun t n ht => ?_) _ s h
  extract_lets +onlyGivenNames c exceeds w t'
  have none : ∀ i, exceeds i = false := fun i => by simp [exceeds, c, ht n]
  have hw : w = 0 := by simp only [w, none]; rfl
  refine ⟨t'.sch, if_pos hw, satQuiet_setCore ht n rfl⟩

/-! ## The end of the tick that a boundary ends -/

theorem ldgAccrue_frame (len : Nat) (emitRun : Bool) (gateDone : Nat → Bool) (s : State) :
    ∃ l, ldgAccrue len emitRun gateDone s = { s with ldg := l } := by
  unfold ldgAccrue
  extract_lets +onlyGivenNames feats gets
  split_ifs <;> exact ⟨_, rfl⟩

theorem sliceLate_frame (s : State) : ∃ x, sliceLate s = { s with tst := x } := by
  unfold sliceLate
  split
  · split <;> exact ⟨_, rfl⟩
  · exact ⟨_, rfl⟩

theorem tickEnds_frame (bm : Nat) {s : State} (h : s.satQuiet) :
    ∃ l n c x, tickEnds bm s = { s with ldg := l, flt := { s.flt with bounds := n }, sch := c, tst := x } := by
  unfold tickEnds
  split
  · obtain ⟨l, hl⟩ := ldgAccrue_frame (bm - s.tck.boundMono) s.tck.emitRun s.gateDone s
    rw [hl]
    extract_lets +onlyGivenNames s1
    obtain ⟨c, hc⟩ := saturationCheck_frame (s := { s1 with flt.bounds := s1.flt.bounds + 1, sch.essSeen := false, sch.ended := [], tst.tickDone := false }) h
    rw [hc]
    obtain ⟨x, hx⟩ := sliceLate_frame { s1 with flt.bounds := s1.flt.bounds + 1, sch := c, tst.tickDone := false }
    exact ⟨_, _, _, x, hx⟩
  · exact ⟨_, _, _, _, rfl⟩

/-! ## The budget and the source -/

theorem thermalCap_frame (s : State) :
    ∃ th n h o, thermalCap s = { s with pwr := { s.pwr with therm := th, cnt := n }, hst := h, out := o } := by
  unfold thermalCap
  split_ifs
  · exact ⟨_, _, _, _, msix_frame ..⟩
  · exact ⟨_, _, _, _, rfl⟩
  · exact ⟨_, _, _, _, rfl⟩

theorem takeBudget_frame (s : State) (b : FabBudget) :
    ∃ v w f n h o, takeBudget s b =
      { s with pwr := { s.pwr with setBudget := v, fabOwned := w, classFloor := f, cnt := n }, hst := h, out := o } :=
  ⟨_, _, _, _, _, _, msix_frame ..⟩

/-- Writes what a received BUDGET may write. -/
def putBudget (x : (Nat × Bool × BitVec 2 × Vector Word 5) × Hst × List Out) (s : State) : State :=
  { s with pwr := { s.pwr with setBudget := x.1.1, fabOwned := x.1.2.1, classFloor := x.1.2.2.1, cnt := x.1.2.2.2 }
           hst := x.2.1, out := x.2.2 }

theorem fabBudget_frame (s : State) :
    ∃ p b h o, fabBudget s = { s with pwr := p, fab := { s.fab with budgets := b }, hst := h, out := o } ∧
      p.hottest = s.pwr.hottest := by
  unfold fabBudget
  extract_lets isDue
  obtain ⟨x, e⟩ := foldl_frame putBudget (f := takeBudget)
    (fun s => ⟨((s.pwr.setBudget, s.pwr.fabOwned, s.pwr.classFloor, s.pwr.cnt), s.hst, s.out), rfl⟩) (fun _ _ _ => rfl)
    (fun t b => (takeBudget_frame t b).elim fun _ ⟨_, _, _, _, _, e⟩ => ⟨⟨⟨_, _, _, _⟩, _, _⟩, e⟩) _ _
  exact ⟨_, _, _, _, e, rfl⟩

theorem settleBudget_frame (s : State) :
    ∃ p b h o, settleBudget s = { s with pwr := p, fab := { s.fab with budgets := b }, hst := h, out := o } ∧
      p.hottest = s.pwr.hottest := by
  unfold settleBudget
  extract_lets +onlyGivenNames p0 s1 s2
  obtain ⟨p1, h1, hot1⟩ : ∃ p, s1 = { s with pwr := p } ∧ p.hottest = s.pwr.hottest := by
    unfold s1
    split <;> exact ⟨_, rfl, rfl⟩
  obtain ⟨p2, b, h, o, h2, hot2⟩ := fabBudget_frame s1
  obtain ⟨th, n, h', o', h3⟩ := thermalCap_frame (fabBudget s1)
  have e : s2 = thermalCap (fabBudget s1) := rfl
  rw [h3, h2, h1] at e
  rw [h1] at hot2
  rw [e]
  exact ⟨_, b, h', o', rfl, hot2.trans hot1⟩

/-- A value that waits takes effect where the fabric has sent no budget. -/
theorem settleBudget_staged {s : State} {v : Nat} (hv : s.pwr.staged = some v) (hb : s.fab.budgets = []) :
    (settleBudget s).pwr.setBudget = max v s.im.power.floor ∧ (settleBudget s).pwr.staged = none := by
  have none_due : ∀ t : State, t.fab.budgets = [] → fabBudget t = { t with fab.budgets := [] } := fun t h => by
    simp [fabBudget, h]
  unfold settleBudget
  rw [hv]
  extract_lets +onlyGivenNames p0 s1 s2
  obtain ⟨th, n, h, o, h3⟩ := thermalCap_frame (fabBudget s1)
  have e : s2 = thermalCap (fabBudget s1) := rfl
  rw [h3, none_due s1 hb] at e
  rw [e]
  exact ⟨rfl, rfl⟩

/-- What a part of step 2 may write, and what it leaves of the tick: whether there has been one, its stamps and its index. -/
structure SourceStepped (s t : State) : Prop where
  frame : t = { s with tck := t.tck, hst := t.hst, out := t.out }
  ticked : t.tck.ticked = s.tck.ticked
  bound : t.tck.bound = s.tck.bound
  prevBound : t.tck.prevBound = s.tck.prevBound
  index : t.tck.index = s.tck.index

theorem SourceStepped.refl (s : State) : SourceStepped s s := ⟨rfl, rfl, rfl, rfl, rfl⟩

theorem SourceStepped.trans {s t u : State} (h : SourceStepped s t) (k : SourceStepped t u) : SourceStepped s u :=
  ⟨by rw [k.frame, h.frame], k.ticked.trans h.ticked, k.bound.trans h.bound, k.prevBound.trans h.prevBound,
    k.index.trans h.index⟩

theorem SourceStepped.event {s t : State} (h : SourceStepped s t) : SourceStepped s (srcEvent t) :=
  h.trans ⟨by rw [srcEvent, msix_frame], by simp [srcEvent], by simp [srcEvent], by simp [srcEvent], by simp [srcEvent]⟩

/-- Step 2 of R31 touches the source, and no stamp or index of the tick. -/
theorem sourceStep_stepped (fly : Bool) (sw : Option Switch) (s : State) : SourceStepped s (sourceStep fly sw s) := by
  unfold sourceStep
  extract_lets +onlyGivenNames k0 s1 req k1 s2 k2 s3 k3 s4
  have h1 : SourceStepped s s1 := by
    unfold s1
    split
    · exact .event ⟨rfl, rfl, rfl, rfl, rfl⟩
    · exact .refl _
  have h2 : SourceStepped s1 s2 := by
    unfold s2
    split
    · exact ⟨rfl, rfl, rfl, rfl, rfl⟩
    · exact .refl _
  have h3 : SourceStepped s2 s3 := by
    unfold s3
    split
    · exact .event ⟨rfl, rfl, rfl, rfl, rfl⟩
    · exact ⟨rfl, rfl, rfl, rfl, rfl⟩
  have h4 : SourceStepped s3 s4 := by
    unfold s4
    split
    · split <;> exact ⟨rfl, rfl, rfl, rfl, rfl⟩
    · exact .refl _
  refine ((h1.trans h2).trans h3).trans (h4.trans ?_)
  split
  · dsimp only
    split
    · exact .event ⟨rfl, rfl, rfl, rfl, rfl⟩
    · exact ⟨rfl, rfl, rfl, rfl, rfl⟩
  · split
    · exact .event ⟨rfl, rfl, rfl, rfl, rfl⟩
    · exact ⟨rfl, rfl, rfl, rfl, rfl⟩

/-! ## Changes of state -/

theorem drivePair_frame (v : Option (Bool × Bool)) (s : State) :
    ∃ p o, drivePair v s = { s with pins := p, out := o } := by
  unfold drivePair
  split_ifs
  · exact ⟨_, _, rfl⟩
  · split <;> exact ⟨_, _, rfl⟩

theorem pairFor_frame (old : Mode) (s : State) : ∃ p o, pairFor old s = { s with pins := p, out := o } := by
  unfold pairFor
  split_ifs
  · exact drivePair_frame _ s
  · exact ⟨_, _, rfl⟩
  · exact drivePair_frame _ s
  · exact drivePair_frame _ s

theorem pinsBack_frame (old : Mode) (s : State) : ∃ p, pinsBack old s = { s with pins := p } := by
  unfold pinsBack
  split_ifs
  · split <;> exact ⟨_, rfl⟩
  · exact ⟨_, rfl⟩

theorem keepBefore_frame (s : State) : ∃ b, keepBefore s = { s with before := b } := by
  unfold keepBefore
  split_ifs <;> exact ⟨_, rfl⟩

theorem endCapture_frame (s : State) : ∃ i, endCapture s = { s with inc := i } := by
  unfold endCapture
  split
  · split
    · dsimp only
      split <;> exact ⟨_, rfl⟩
    · exact ⟨_, rfl⟩
  · exact ⟨_, rfl⟩

theorem vitLeave_frame (s : State) : ∃ i, vitLeave s = { s with inc := i } := by
  unfold vitLeave
  split_ifs
  · exact ⟨_, rfl⟩
  · exact endCapture_frame s

/-- What entering a state writes of GCTL at once (R56): the state, the one before it, and the instant. -/
def State.modeSet (m : Mode) (s : State) : Gctl := { s.gctl with mode := m, prev := s.prevFor m, changeMono := s.mono }

/-- Entering a state, up to what the state entered brings of its own. -/
def entering (m : Mode) (s : State) : State :=
  let t := keepBefore (ldgTouch s)
  pinsBack s.mode (pairFor s.mode { t with gctl.mode := m, gctl.prev := t.prevFor m, gctl.changeMono := t.mono })

theorem entering_frame (m : Mode) (s : State) :
    ∃ b p l o, entering m s = { s with before := b, pins := p, gctl := s.modeSet m, ldg := l, out := o } := by
  unfold entering
  obtain ⟨b, hb⟩ := keepBefore_frame (ldgTouch s)
  rw [hb]
  extract_lets t g0
  obtain ⟨p, o, hp⟩ := pairFor_frame s.mode { t with gctl.mode := m, gctl.prev := t.prevFor m, gctl.changeMono := t.mono }
  rw [hp]
  obtain ⟨p', hp'⟩ := pinsBack_frame s.mode { t with gctl.mode := m, gctl.prev := t.prevFor m, gctl.changeMono := t.mono, pins := p, out := o }
  exact ⟨_, _, _, _, hp'⟩

/-- RUN and DEGRADED bring nothing of their own. -/
theorem enter_frame_of_computes {m : Mode} (hm : m.computes = true) {s : State} (h : s.mode ≠ m) :
    ∃ b p l o i, enter m s = { s with before := b, pins := p, gctl := s.modeSet m, ldg := l, out := o, inc := i } := by
  have e : enter m s = vitLeave (entering m s) := by
    rw [enter, if_neg h]
    match m, hm with
    | .run, _ => rfl
    | .degraded, _ => rfl
  obtain ⟨b, p, l, o, he⟩ := entering_frame m s
  obtain ⟨i, hi⟩ := vitLeave_frame (entering m s)
  rw [e, hi, he]
  exact ⟨_, _, _, _, _, rfl⟩

/-- ARMED brings its instant, ends the causes of DEGRADED, and stops what computes (R65, R416). -/
theorem enter_armed_frame {s : State} (h : s.mode ≠ .armed) :
    ∃ b p l o c j a i x, enter .armed s = { s with
      before := b, pins := p, ldg := l, out := o, sch := c, fab := { s.fab with joinSent := j }, aln := a, inc := i
      gctl := { s.modeSet .armed with armedMono := x, armTimedOut := false, everArmed := true, expectMs := 0, degOvr := false,
                                      degTime := false, lockLost := false } } := by
  obtain ⟨b, p, l, o, he⟩ := entering_frame .armed s
  obtain ⟨c, hc⟩ := quietCores_frame (entering .armed s)
  have e : enter .armed s = vitLeave { quietCores (entering .armed s) with
      gctl.armedMono := (entering .armed s).mono, gctl.armTimedOut := false, gctl.everArmed := true, gctl.expectMs := 0
      gctl.degOvr := false, gctl.degTime := false, gctl.lockLost := false, fab.joinSent := false
      aln.streams := (entering .armed s).aln.streams.map (fun x => { x with cLast := none, expect := none, maskedRun := 0 }) } := by
    rw [enter, if_neg h]
    rfl
  rw [hc, he] at e
  obtain ⟨i, hi⟩ := vitLeave_frame _
  rw [hi] at e
  exact ⟨_, _, _, _, _, _, _, _, _, e⟩

theorem enter_gctl_of_computes {m : Mode} (hm : m.computes = true) {s : State} (h : s.mode ≠ m) :
    (enter m s).gctl = s.modeSet m := by
  obtain ⟨b, p, l, o, i, e⟩ := enter_frame_of_computes hm h
  rw [e]

/-- A state of no lower rank is entered from the state that stood before (R57). -/
theorem prevFor_of_rank_le {m : Mode} {s : State} (h : s.mode.rank ≤ m.rank) : s.prevFor m = s.mode := by
  simp [State.prevFor, Nat.not_lt.mpr h]

/-- What step 3 of R31 may touch: the state, and what entering one brings. -/
def StatesChanged (s t : State) : Prop :=
  t = { s with before := t.before, pins := t.pins, gctl := t.gctl, ldg := t.ldg, out := t.out, sch := t.sch,
               aln := t.aln, inc := t.inc, fab := { s.fab with joinSent := t.fab.joinSent, cause := t.fab.cause } }

theorem StatesChanged.gctl (s : State) (g : Gctl) : StatesChanged s { s with gctl := g } := rfl

theorem StatesChanged.trans {s t u : State} (h : StatesChanged s t) (k : StatesChanged t u) : StatesChanged s u := by
  unfold StatesChanged at *
  rw [k, h]

theorem StatesChanged.enter {m : Mode} (hm : m.computes = true ∨ m = .armed) (s : State) : StatesChanged s (enter m s) := by
  by_cases h : s.mode = m
  · rw [show Machine.enter m s = s from if_pos h]
    rfl
  · obtain hm | rfl := hm
    · obtain ⟨b, p, l, o, i, e⟩ := enter_frame_of_computes hm h
      rw [e]
      rfl
    · obtain ⟨b, p, l, o, c, j, a, i, x, e⟩ := enter_armed_frame h
      rw [e]
      rfl

/-- The causes of DEGRADED as step 3 finds them. -/
def causesTaken (fly : Bool) (s : State) : State := { s with
  gctl.degWarden := s.degWardenCause, gctl.degFabric := s.gctl.degFabric && !s.gctl.fabricBack, gctl.fabricBack := false
  gctl.degFlywheel := s.gctl.degFlywheel || (s.gctl.flyDegrade && fly), gctl.flyDegrade := s.gctl.flyDegrade && !fly }

/-- A loss of time lock counts as a cause (R66). -/
def lossTaken (s : State) : State := { s with gctl.degTime := s.gctl.degTime || s.gctl.lockLost, gctl.lockLost := false }

/-- RUN without time lock is free-run (R65). -/
def freeRunTaken (s : State) : State := { s with gctl.freeRun := s.gctl.freeRun || !s.tim.locked }

/-- DEGRADED, with the cause of overruns that is left at the boundary. -/
def ovrTaken (s : State) : State := { lossTaken s with gctl.degOvr := s.gctl.degOvr && s.gctl.onTimeRun < s.im.tick.recover }

section
variable {s : State} (fly : Bool)

theorem stateStep_armed (h : s.mode = .armed) : stateStep fly s =
    if s.runReady then enterRun (freeRunTaken (causesTaken fly s)) else causesTaken fly s := by
  unfold stateStep
  extract_lets +onlyGivenNames g s1
  rw [show s1.mode = .armed from h]
  rfl

theorem stateStep_run (h : s.mode = .run) : stateStep fly s =
    if (lossTaken (causesTaken fly s)).anyCause then enter .degraded (lossTaken (causesTaken fly s)) else lossTaken (causesTaken fly s) := by
  unfold stateStep
  extract_lets +onlyGivenNames g s1
  rw [show s1.mode = .run from h]
  rfl

theorem stateStep_degraded (h : s.mode = .degraded) : stateStep fly s =
    if (ovrTaken (causesTaken fly s)).anyCause then ovrTaken (causesTaken fly s) else enter .run (ovrTaken (causesTaken fly s)) := by
  unfold stateStep
  extract_lets +onlyGivenNames g s1
  rw [show s1.mode = .degraded from h]
  rfl

theorem stateStep_quarantine (h : s.mode = .quarantine) : stateStep fly s =
    if s.gctl.admitted then enter .armed { causesTaken fly s with gctl.admitted := false, fab.cause := 0 } else causesTaken fly s := by
  unfold stateStep
  extract_lets +onlyGivenNames g s1
  rw [show s1.mode = .quarantine from h]
  rfl

theorem stateStep_other (ha : s.mode ≠ .armed) (hr : s.mode ≠ .run) (hd : s.mode ≠ .degraded) (hq : s.mode ≠ .quarantine) :
    stateStep fly s = causesTaken fly s := by
  unfold stateStep
  extract_lets +onlyGivenNames g s1
  split
  case h_5 => rfl
  all_goals contradiction

end

theorem stateStep_statesChanged (fly : Bool) (s : State) : StatesChanged s (stateStep fly s) := by
  have taken : StatesChanged s (causesTaken fly s) := rfl
  by_cases ha : s.mode = .armed
  · rw [stateStep_armed fly ha]
    split
    · refine .trans (.trans taken (.gctl ..)) (.enter (.inl ?_) _)
      split <;> rfl
    · exact taken
  by_cases hr : s.mode = .run
  · rw [stateStep_run fly hr]
    split
    · exact .trans (taken.trans (.gctl ..)) (.enter (.inl rfl) _)
    · exact taken.trans (.gctl ..)
  by_cases hd : s.mode = .degraded
  · rw [stateStep_degraded fly hd]
    split
    · exact taken.trans (.gctl ..)
    · exact .trans (taken.trans (.gctl ..)) (.enter (.inl rfl) _)
  by_cases hq : s.mode = .quarantine
  · rw [stateStep_quarantine fly hq]
    split
    · refine .trans ?_ (.enter (.inr rfl) _)
      rfl
    · exact taken
  rw [stateStep_other fly ha hr hd hq]
  exact taken

/-- RUN is entered from ARMED where the conditions hold and no cause of DEGRADED is active (R65). -/
theorem stateStep_of_runReady {s : State} (hm : s.mode = .armed) (hr : s.runReady = true) (hc : s.anyCause = false)
    (hw : s.degWardenCause = false) :
    (stateStep false s).mode = .run ∧ (stateStep false s).gctl.prev = .armed ∧
      (stateStep false s).gctl.freeRun = (s.gctl.freeRun || !s.tim.locked) := by
  have quiet : (freeRunTaken (causesTaken false s)).anyCause = false := by
    simp only [State.anyCause, Bool.or_eq_false_iff] at hc
    simp [freeRunTaken, causesTaken, State.anyCause, hc, hw]
  have hmu : (freeRunTaken (causesTaken false s)).mode = .armed := hm
  have hg : (enter .run (freeRunTaken (causesTaken false s))).gctl = _ := enter_gctl_of_computes rfl (by simp [hmu])
  rw [stateStep_armed _ hm, if_pos hr, enterRun, quiet]
  refine ⟨congrArg Gctl.mode hg, (congrArg Gctl.prev hg).trans ?_, congrArg Gctl.freeRun hg⟩
  exact (prevFor_of_rank_le (by simp [hmu, Mode.rank])).trans hmu

/-- RUN is entered from DEGRADED where no cause is active (R66). -/
theorem stateStep_of_noCause {s : State} (hm : s.mode = .degraded) (hc : (ovrTaken (causesTaken false s)).anyCause = false) :
    (stateStep false s).mode = .run ∧ (stateStep false s).gctl.prev = .degraded := by
  rw [stateStep_degraded _ hm, if_neg (by simp [hc])]
  have hmu : (ovrTaken (causesTaken false s)).mode = .degraded := hm
  have hg : (enter .run (ovrTaken (causesTaken false s))).gctl = _ := enter_gctl_of_computes rfl (by simp [hmu])
  refine ⟨congrArg Gctl.mode hg, (congrArg Gctl.prev hg).trans ?_⟩
  exact (prevFor_of_rank_le (by simp [hmu, Mode.rank])).trans hmu

/-- Loss of lock in RUN is a cause of DEGRADED (R66). -/
theorem stateStep_of_lockLost {s : State} (hm : s.mode = .run) (hl : s.gctl.lockLost = true) :
    (stateStep false s).mode = .degraded ∧ (stateStep false s).gctl.degTime = true := by
  have lost : (lossTaken (causesTaken false s)).gctl.degTime = true := by simp [lossTaken, causesTaken, hl]
  have hmu : (lossTaken (causesTaken false s)).mode = .run := hm
  have hg : (enter .degraded (lossTaken (causesTaken false s))).gctl = _ :=
    enter_gctl_of_computes rfl (by simp [hmu])
  rw [stateStep_run _ hm, if_pos (by simp [State.anyCause, lost])]
  exact ⟨congrArg Gctl.mode hg, (congrArg Gctl.degTime hg).trans lost⟩

/-- QUARANTINE ends in ARMED where the manager has admitted the device (R322). -/
theorem stateStep_of_admitted {s : State} (hm : s.mode = .quarantine) (ha : s.gctl.admitted = true) :
    (stateStep false s).mode = .armed ∧ (stateStep false s).fab.cause = 0 ∧ (stateStep false s).gctl.admitted = false := by
  have hne : State.mode { causesTaken false s with gctl.admitted := false, fab.cause := 0 } ≠ .armed := fun h =>
    Mode.noConfusion (hm.symm.trans h)
  obtain ⟨b, p, l, o, c, j, a, i, x, e⟩ := enter_armed_frame hne
  rw [stateStep_quarantine _ hm, if_pos ha, e]
  exact ⟨rfl, rfl, rfl⟩

/-! ## The tick that opens, and the fabric's messages -/

/-- What opening the Gather of a tick writes of the tick itself. -/
def State.gatherTck (s : State) : Tck :=
  { s.tck with phase := 0, gDone := false, eDone := false, qDone := false, tickSent := false, compute := s.mode.computes
               openMono := s.mono, emitRun := false }

theorem openGather_frame (s : State) :
    ∃ a b c m g, openGather s =
      { s with tck := s.gatherTck, aln := a, outb := b, sch := c, fab := { s.fab with members := m }, grd := g } :=
  ⟨_, _, _, _, _, rfl⟩

/-- A message waits at a port. -/
theorem sendPort_frame (p : Nat) (hdr : MsgHdr) (msg : FabMsg) (s : State) :
    ∃ q, sendPort p hdr msg s = { s with fab := { s.fab with outq := q } } := by
  unfold sendPort
  split_ifs <;> exact ⟨_, rfl⟩

theorem sendTo_frame (dst : BitVec 12) (req : Bool) (msg : FabMsg) (s : State) :
    ∃ f, sendTo dst req msg s = { s with fab := f } ∧ f.cause = s.fab.cause := by
  unfold sendTo
  extract_lets h f0 t
  split
  · split
    · obtain ⟨q, hq⟩ := sendPort_frame _ h msg t
      rw [hq]
      exact ⟨_, rfl, rfl⟩
    · exact ⟨_, rfl, rfl⟩
  · exact ⟨_, rfl, rfl⟩

/-- Between two states messages have been sent: they wait at the fabric's ports, or have left the device. -/
structure MessagesSent (s t : State) : Prop where
  frame : t = { s with fab := t.fab, pwr := { s.pwr with budgetTicks := t.pwr.budgetTicks }, out := t.out }
  cause : t.fab.cause = s.fab.cause
  out : s.out <:+ t.out

theorem MessagesSent.trans {s t u : State} (h : MessagesSent s t) (k : MessagesSent t u) : MessagesSent s u :=
  ⟨by rw [k.frame, h.frame], k.cause.trans h.cause, h.out.trans k.out⟩

theorem MessagesSent.of_fab {s : State} {f : Fab} (h : f.cause = s.fab.cause) : MessagesSent s { s with fab := f } :=
  ⟨rfl, h, List.suffix_rfl⟩

theorem messagesSent_joinAtBoundary (s : State) : MessagesSent s (joinAtBoundary s) := by
  unfold joinAtBoundary
  split
  · obtain ⟨f, e, h⟩ := sendTo_frame s.fab.mgr false _ { s with fab.joinSent := true, fab.joinAfterCommit := false, fab.joinMono := s.mono }
    rw [sendJoin, e]
    exact .of_fab h
  · exact .of_fab rfl

theorem messagesSent_sendReport (s : State) : MessagesSent s (sendReport s) := by
  unfold sendReport
  split
  · obtain ⟨f, e, h⟩ := sendTo_frame s.fab.mgr false _ s
    rw [e]
    exact .of_fab h
  · exact .of_fab rfl

theorem MessagesSent.foldl {α : Type} {f : State → α → State} (h : ∀ s a, MessagesSent s (f s a)) (l : List α) (s : State) :
    MessagesSent s (l.foldl f s) := by
  induction l generalizing s with
  | nil => exact .of_fab rfl
  | cons a l ih => exact (h s a).trans (ih (f s a))

theorem messagesSent_sendBudgets (s : State) : MessagesSent s (sendBudgets s) := by
  unfold sendBudgets
  split
  · exact .of_fab rfl
  · have cleared : MessagesSent s { s with pwr.budgetTicks := 0 } := ⟨rfl, rfl, List.suffix_rfl⟩
    refine cleared.trans (.foldl (fun t e => ?_) _ _)
    split
    · split
      · obtain ⟨f, e, h⟩ := sendTo_frame _ _ _ t
        rw [e]
        exact .of_fab h
      · exact .of_fab rfl
    · exact .of_fab rfl

/-- Frames that start change their ports, and what leaves the device grows. -/
theorem foldl_transmit_ports (l : List OutMsg) (s : State) :
    ∃ q o, l.foldl transmit s = { s with fab := { s.fab with ports := q }, out := o ++ s.out } := by
  induction l generalizing s with
  | nil => exact ⟨_, [], rfl⟩
  | cons m l ih =>
    obtain ⟨q, o, e⟩ := ih (transmit s m)
    exact ⟨q, o ++ [_], by rw [List.foldl_cons, e, List.append_assoc]; rfl⟩

/-- With no detector raised, a command ends with what the fabric's ports send. -/
theorem messagesSent_settle {s : State} (h : s.flt.due = []) : MessagesSent s (settle s) := by
  have e : settle s = flushPorts s := by simp [settle, settleN, h]
  rw [e, flushPorts]
  split
  · exact .of_fab rfl
  · obtain ⟨q, o, e⟩ := foldl_transmit_ports (s.fab.outq.filter (fun m => m.msg.time) ++ s.fab.outq.filter (fun m => !m.msg.time))
      { s with fab.outq := [] }
    rw [e]
    exact ⟨rfl, rfl, List.suffix_append ..⟩

/-! ## A boundary, cut at its changes of state -/

/-- A boundary that ends a re-phase interval counts it (R419). -/
def rephased (bm : Nat) (s : State) : State :=
  if s.tck.ticked && s.tck.active = srcInternal && s.tck.switch.isNone && (s.tck.stepped || s.tck.commitFrom.isSome) &&
    decide (s.tck.endMono < bm) then { s with tck.rephaseCnt := satInc s.tck.rephaseCnt } else s

/-- The tick that a boundary with stamp `tk` and instant `bm` begins, in its number and its stamps. -/
def numbered (tk bm : Nat) (s : State) : State := { s with
  tck.index := if s.tck.ticked then s.tck.index + 1 else 0
  tck.bound := tk, tck.prevBound := s.tck.bound, tck.boundMono := bm, tck.ticked := true, tck.stepped := false
  tck.commitFrom := none, tck.gridAt := none, tck.lead := none, tck.srcStat := if s.tck.switch.isSome then stOk else s.tck.srcStat }

/-- The instants of that tick, by the image that runs now. -/
def phased (tk bm oldT oldPhi : Nat) (s : State) : State := { s with
  tck.gMono := bm + s.gatherNs, tck.eMono := bm + s.emitNs, tck.qMono := bm + s.quietNs, tck.endMono := bm + s.period
  tck.commitFrom := if (s.period ≠ oldT || s.phaseNs ≠ oldPhi) && s.tck.active = srcInternal then some (tk + s.period) else none }

/-- A boundary up to its changes of state, where no TICK names its index. -/
def boundaryHead (tk : Nat) (fly : Bool) (s : State) : State :=
  let bm := s.mono - (s.stamp - tk)
  let t := endFly (tickEnds bm (rephased bm s))
  let u := numbered tk bm t
  let v := if u.img.stage = 4 && decide (u.img.commitMono < bm) then commitImage u else u
  sourceStep fly t.tck.switch (phased tk bm t.period t.phaseNs (settleBudget v))

/-- Step 4 of R31: TICK_OUT, and vector 1. -/
def tickSignalled (tk f : Nat) (s : State) : State :=
  msix 1 (s.tck.intEn.getLsbD 0) ({ s with pins.tickOutUntil := s.mono + 10000 }.say (.tickOut (tk + f)))

/-- The manager counts its ticks, and sends budgets every 1000 of them (R344). -/
def budgetTurn (s : State) : State :=
  if s.isManager then
    let t := { s with pwr.budgetTicks := s.pwr.budgetTicks + 1 }
    if 1000 ≤ t.pwr.budgetTicks then sendBudgets t else t
  else s

/-- A boundary from its changes of state on, up to what the warden and the ports take. -/
def boundaryTail (tk : Nat) (fly : Bool) (f : Nat) (s : State) : State :=
  budgetTurn (sendReport (joinAtBoundary (openGather (tickSignalled tk f (takeOver (flyJudge fly (flyEnds fly s)))))))

theorem boundary_eq (tk : Nat) (fly : Bool) (f : Nat) (s : State) :
    boundary tk none fly f s = settle (boundaryTail tk fly f (stateStep fly (boundaryHead tk fly s))) := by
  unfold boundary boundaryHead boundaryTail rephased numbered phased tickSignalled budgetTurn
  dsimp only

/-- Where a boundary stands before its changes of state, without a commit. -/
structure BoundaryMade (tk : Nat) (s t : State) : Prop where
  frame : t = { s with
    tim := t.tim, tck := t.tck, ldg := t.ldg, flt := { s.flt with bounds := t.flt.bounds }, sch := t.sch, tst := t.tst, pwr := t.pwr
    fab := { s.fab with budgets := t.fab.budgets }, hst := t.hst, out := t.out }
  locked : t.tim.locked = s.tim.locked
  ticked : t.tck.ticked = true
  bound : t.tck.bound = tk
  prevBound : t.tck.prevBound = s.tck.bound
  index : t.tck.index = if s.tck.ticked then s.tck.index + 1 else 0
  hottest : t.pwr.hottest = s.pwr.hottest
  budget : ∀ v, s.pwr.staged = some v → s.fab.budgets = [] → t.pwr.setBudget = max v s.im.power.floor ∧ t.pwr.staged = none

/-- The end of a tick that no switch ends. -/
theorem tickEnded_frame (bm : Nat) {s : State} (hq : s.satQuiet) (hs : s.tck.switch = none) :
    ∃ n l b c x, endFly (tickEnds bm (rephased bm s)) =
      { s with tck.rephaseCnt := n, ldg := l, flt := { s.flt with bounds := b }, sch := c, tst := x } := by
  obtain ⟨n, hr⟩ : ∃ n, rephased bm s = { s with tck.rephaseCnt := n } := by
    unfold rephased
    split <;> exact ⟨_, rfl⟩
  obtain ⟨l, b, c, x, e⟩ := tickEnds_frame bm (s := { s with tck.rephaseCnt := n }) hq
  rw [hr, e, endFly]
  simp only [hs]
  exact ⟨_, _, _, _, _, rfl⟩

theorem BoundaryMade.stepped {tk : Nat} {s t u : State} (made : BoundaryMade tk s t) (k : SourceStepped t u) : BoundaryMade tk s u where
  frame := by rw [k.frame, made.frame]
  locked := by rw [k.frame]; exact made.locked
  ticked := k.ticked.trans made.ticked
  bound := k.bound.trans made.bound
  prevBound := k.prevBound.trans made.prevBound
  index := k.index.trans made.index
  hottest := by rw [k.frame]; exact made.hottest
  budget := by rw [k.frame]; exact made.budget

theorem boundaryHead_made (tk : Nat) (fly : Bool) {s : State} (hq : s.satQuiet) (hs : s.tck.switch = none) (hi : s.img.stage ≠ 4) :
    BoundaryMade tk s (boundaryHead tk fly s) := by
  unfold boundaryHead
  extract_lets bm t u v
  obtain ⟨n, l, b, c, x, ht⟩ : ∃ n l b c x, t = _ := tickEnded_frame bm hq hs
  clear_value t
  subst ht
  have hv : v = u := if_neg fun h => hi (of_decide_eq_true (Bool.and_eq_true_iff.mp h).1)
  rw [hv]
  refine .stepped ?_ (sourceStep_stepped ..)
  obtain ⟨p, q, h, o, hb, hot⟩ := settleBudget_frame u
  exact {
    frame := by rw [hb]; rfl
    locked := by rw [hb]; rfl
    ticked := by rw [hb]; rfl
    bound := by rw [hb]; rfl
    prevBound := by rw [hb]; rfl
    index := by rw [hb]; rfl
    hottest := by rw [hb]; exact hot
    budget := fun w => settleBudget_staged (s := u) }

/-- What a boundary brings after its changes of state: the tick that opens, TICK_OUT, and the fabric's messages. -/
structure TickOpened (tk : Nat) (s t : State) : Prop where
  frame : t = { s with
    pins := t.pins, gctl := { s.gctl with degFlywheel := false, flyDegrade := false }, tck := t.tck, sch := t.sch, aln := t.aln
    grd := t.grd, outb := t.outb, fab := t.fab, pwr := { s.pwr with budgetTicks := t.pwr.budgetTicks }
    hst := t.hst, out := t.out }
  tck : t.tck = s.gatherTck
  cause : t.fab.cause = s.fab.cause
  out : Out.tickOut tk ∈ t.out

theorem tickSignalled_frame (tk f : Nat) (s : State) :
    ∃ p h o, tickSignalled tk f s = { s with pins := p, hst := h, out := o } ∧ Out.tickOut (tk + f) ∈ o :=
  ⟨_, _, _, msix_frame .., (msix_out_suffix ..).subset List.mem_cons_self⟩

theorem messagesSent_budgetTurn (s : State) : MessagesSent s (budgetTurn s) := by
  unfold budgetTurn
  split
  · have counted : MessagesSent s { s with pwr.budgetTicks := s.pwr.budgetTicks + 1 } := ⟨rfl, rfl, List.suffix_rfl⟩
    dsimp only
    split
    · exact counted.trans (messagesSent_sendBudgets _)
    · exact counted
  · exact .of_fab rfl

/-- Without an office to take, the steps after the changes of state bring nothing but the tick. -/
theorem boundaryTail_opened (tk : Nat) {s : State} (ho : s.fab.officeDue = false) (hd : s.flt.due = []) :
    TickOpened tk s (settle (boundaryTail tk false 0 s)) := by
  have flown : takeOver (flyJudge false (flyEnds false s)) = flyEnds false s := by simp [takeOver, flyJudge, flyEnds, ho]
  obtain ⟨p, h, o, signalled, hout⟩ := tickSignalled_frame tk 0 (flyEnds false s)
  obtain ⟨a, b, c, m, g, opened⟩ := openGather_frame (tickSignalled tk 0 (flyEnds false s))
  rw [boundaryTail, flown]
  generalize openGather _ = u at opened ⊢
  rw [signalled] at opened
  have sent : MessagesSent u (budgetTurn (sendReport (joinAtBoundary u))) :=
    ((messagesSent_joinAtBoundary u).trans (messagesSent_sendReport _)).trans (messagesSent_budgetTurn _)
  have quiet : (budgetTurn (sendReport (joinAtBoundary u))).flt.due = [] := by
    rw [sent.frame, opened]
    exact hd
  obtain ⟨frame, cause, out⟩ := sent.trans (messagesSent_settle quiet)
  generalize settle _ = t at frame cause out ⊢
  exact {
    frame := by rw [frame, opened]; rfl
    tck := by rw [frame, opened]; rfl
    cause := by rw [cause, opened]; rfl
    out := out.subset (by rw [opened]; exact hout) }

/-! ## The boundary of INTERNAL -/

theorem BoundaryKeeps.trans {s t u : State} (h : BoundaryKeeps s t) (k : BoundaryKeeps t u) : BoundaryKeeps s u := by
  obtain ⟨a1, a2, a3, a4, a5, a6, a7, a8, a9, a10, a11, a12, a13⟩ := h
  obtain ⟨b1, b2, b3, b4, b5, b6, b7, b8, b9, b10, b11, b12, b13⟩ := k
  exact ⟨b1.trans a1, b2.trans a2, b3.trans a3, b4.trans a4, b5.trans a5, b6.trans a6, b7.trans a7, b8.trans a8, b9.trans a9,
    b10.trans a10, b11.trans a11, b12.trans a12, b13.trans a13⟩

theorem BoundaryMade.keeps {tk : Nat} {s t : State} (h : BoundaryMade tk s t) : BoundaryKeeps s t := by
  rw [h.frame]
  exact ⟨rfl, rfl, rfl, rfl, rfl, rfl, rfl, rfl, rfl, rfl, rfl, rfl, rfl⟩

theorem StatesChanged.keeps {s t : State} (h : StatesChanged s t) : BoundaryKeeps s t := by
  rw [h]
  exact ⟨rfl, rfl, rfl, rfl, rfl, rfl, rfl, rfl, rfl, rfl, rfl, rfl, rfl⟩

theorem TickOpened.keeps {tk : Nat} {s t : State} (h : TickOpened tk s t) : BoundaryKeeps s t := by
  rw [h.frame]
  exact ⟨rfl, rfl, rfl, rfl, rfl, rfl, rfl, rfl, rfl, rfl, rfl, rfl, rfl⟩

/-- The time that passes to a boundary does not bring more than the boundary. -/
theorem TimePasses.made {tk : Nat} {s r t : State} (h : TimePasses s r) (made : BoundaryMade tk r t) : BoundaryMade tk s t := by
  unfold TimePasses at h
  rw [h] at made
  obtain ⟨frame, locked, ticked, bound, prevBound, index, hottest, budget⟩ := made
  exact ⟨frame, locked, ticked, bound, prevBound, index, hottest, budget⟩

theorem TimePasses.boundaryReady {s r : State} (h : TimePasses s r) (ready : BoundaryReady s) : BoundaryReady r := by
  unfold TimePasses at h
  rw [h]
  exact ready

theorem boundary_of_ready (tk : Nat) {s : State} (ready : BoundaryReady s) :
    ∃ u, BoundaryMade tk s u ∧ TickOpened tk (stateStep false u) (boundary tk none false 0 s) := by
  obtain ⟨-, ⟨hd, -⟩, -, hs, -, hi, ho, hq⟩ := ready
  have made := boundaryHead_made tk false hq hs hi
  have changed := stateStep_statesChanged false (boundaryHead tk false s)
  refine ⟨boundaryHead tk false s, made, ?_⟩
  rw [boundary_eq]
  refine boundaryTail_opened tk ?_ ?_
  · rw [changed, made.frame]; exact ho
  · rw [changed, made.frame]; exact hd

/-- With INTERNAL in force the next boundary is known ahead (R20). -/
theorem nextBoundary_of_internal {s : State} (ready : BoundaryReady s) (ha : s.tck.active = 0) :
    ∃ r, TimePasses s r ∧ nextBoundary s = boundary (nextInternal s) none false 0 r := by
  obtain ⟨hb, -, quiet, hs, -⟩ := ready
  have passed := timePasses_advanceStamp (nextInternal s) quiet
  have known : nextKnown s = some (nextInternal s, none, false) := by simp [nextKnown, hs, ha]
  have unstepped : (advanceStamp (nextInternal s) s).tim.steps = s.tim.steps := by
    rw [show advanceStamp _ s = _ from passed]
  exact ⟨_, passed, by simp [nextBoundary, hb, toBoundary, known, unstepped]⟩

/-- The tick that opens has the stamp of the boundary made, whatever state is entered between. -/
theorem TickOpened.bound_of_made {tk : Nat} {s u t : State} (opened : TickOpened tk (stateStep false u) t) (made : BoundaryMade tk s u) :
    t.tck.bound = tk := by
  rw [opened.tck, State.gatherTck, congrArg State.tck (stateStep_statesChanged false u)]
  exact made.bound

theorem TickOpened.gctl {tk : Nat} {s t : State} (opened : TickOpened tk s t) :
    t.gctl = { s.gctl with degFlywheel := false, flyDegrade := false } :=
  congrArg State.gctl opened.frame

/-- The boundary that INTERNAL makes next, cut at its changes of state. -/
theorem internalBoundary {s : State} (ready : BoundaryReady s) (ha : s.tck.active = 0) :
    ∃ u t, done (nextBoundary s) = .next t ∧ BoundaryMade (nextInternal s) s u ∧
      TickOpened (nextInternal s) (stateStep false u) t := by
  obtain ⟨r, passed, e⟩ := nextBoundary_of_internal ready ha
  obtain ⟨u, made, opened⟩ := boundary_of_ready (nextInternal s) (passed.boundaryReady ready)
  rw [e]
  refine ⟨u, _, done_of_settled ?_, passed.made made, opened⟩
  rw [boundary_eq]
  exact settled_settle _

end Sys2Proof.Machine

namespace Sys2Proof
open Machine

section
variable {s : State}

/-- A row that names an action of a boundary makes the whole boundary where that action is pending (log 25). -/
theorem boundaryRow {c : State → Bool} (hc : c s = true) (ready : BoundaryReady s) (ha : s.tck.active = 0) :
    ∃ u t, done (boundaryIf c s) = .next t ∧ BoundaryKeeps s t ∧ BoundaryMade (nextInternal s) s u ∧
      TickOpened (nextInternal s) (stateStep false u) t := by
  obtain ⟨u, t, ht, made, opened⟩ := internalBoundary ready ha
  rw [boundaryIf, if_pos hc]
  exact ⟨u, t, ht, (made.keeps.trans (stateStep_statesChanged false u).keeps).trans opened.keeps, made, opened⟩

theorem tickBoundary_internal (h : Int) (ready : BoundaryReady s) (ha : s.tck.active = 0) (hh : h < 125) :
    ∃ t, exec (.tickBoundary h) s = .next t ∧
      BoundaryKeeps s t ∧ t.tck.ticked = true ∧
    t.tck.bound = nextInternal s ∧ t.tck.prevBound = s.tck.bound ∧ t.tck.index = (if s.tck.ticked then s.tck.index + 1 else 0) ∧
    t.tck.phase = 0 ∧ t.tck.gDone = false ∧ t.tck.eDone = false ∧ t.tck.qDone = false ∧ t.pwr.hottest = h ∧
    Out.tickOut (nextInternal s) ∈ t.out ∧ t.pending = s.pending := by
  have cool : settle (thermalLevel { s with pwr.hottest := h }) = levelOff 85 { s with pwr.hottest := h } := by
    rw [thermalLevel, if_neg (by simpa using hh)]
    exact settle_of_settled ready.2.1
  have ready' : BoundaryReady (levelOff 85 { s with pwr.hottest := h }) := ready
  obtain ⟨u, t, ht, made, opened⟩ := internalBoundary ready' ha
  have keeps : BoundaryKeeps s t := (made.keeps.trans (stateStep_statesChanged false u).keeps).trans opened.keeps
  have bound := opened.bound_of_made made
  obtain ⟨frame, -, ticked, -, prevBound, index, hottest, -⟩ := made
  have hk : t.tck = { u.tck with phase := 0, gDone := false, eDone := false, qDone := false, tickSent := false
                                 compute := (stateStep false u).mode.computes, openMono := (stateStep false u).mono, emitRun := false } := by
    rw [opened.tck, State.gatherTck, congrArg State.tck (stateStep_statesChanged false u)]
  have hot : t.pwr.hottest = u.pwr.hottest := by rw [opened.frame, stateStep_statesChanged false u]
  refine ⟨t, by rw [← ht, ← cool]; rfl, keeps, ?_, bound, ?_, ?_, ?_, ?_, ?_, ?_, hot.trans hottest, opened.out, ?_⟩
  · rw [hk]; exact ticked
  · rw [hk]; exact prevBound
  · rw [hk]; exact index
  · rw [hk]
  · rw [hk]
  · rw [hk]
  · rw [hk]
  · obtain ⟨-, -, -, -, -, -, -, -, -, -, -, -, pending⟩ := keeps
    exact pending

theorem stagedApply_internal {v : Nat} (ready : BoundaryReady s) (ha : s.tck.active = 0) (hv : s.pwr.staged = some v)
    (hb : s.fab.budgets = []) :
    ∃ t, exec .stagedApply s = .next t ∧
      BoundaryKeeps s t ∧ t.pwr.setBudget = max v s.im.power.floor ∧ t.pwr.staged = none ∧ t.tck.bound = nextInternal s := by
  obtain ⟨u, t, ht, keeps, made, opened⟩ := boundaryRow
    (c := fun s => s.pwr.staged.isSome || s.tck.req.isSome || !s.fab.budgets.isEmpty) (by simp [hv]) ready ha
  have hp : t.pwr = { u.pwr with budgetTicks := t.pwr.budgetTicks } := by
    rw [opened.frame, stateStep_statesChanged false u]
  obtain ⟨set, staged⟩ := made.budget v hv hb
  refine ⟨t, ht, keeps, ?_, ?_, opened.bound_of_made made⟩
  · rw [hp]; exact set
  · rw [hp]; exact staged

theorem runEntry_internal (ready : BoundaryReady s) (ha : s.tck.active = 0) (hm : s.mode = .armed) (hr : s.runReady = true)
    (hc : s.anyCause = false) (hw : s.degWardenCause = false) :
    ∃ t, exec .runEntry s = .next t ∧
      BoundaryKeeps s t ∧ t.mode = .run ∧ t.gctl.prev = .armed ∧ t.gctl.freeRun = (s.gctl.freeRun || !s.tim.locked) ∧
      t.tck.bound = nextInternal s := by
  obtain ⟨u, t, ht, keeps, made, opened⟩ := boundaryRow (c := fun s => s.mode = .armed && s.runReady) (by simp [hm, hr]) ready ha
  have ru : u.runReady = s.runReady := by
    rw [State.runReady, made.locked, made.frame]
    rfl
  obtain ⟨mode, prev, free⟩ := stateStep_of_runReady (s := u) (by rw [made.frame]; exact hm) (ru.trans hr)
    (by rw [made.frame]; exact hc) (by rw [made.frame]; exact hw)
  refine ⟨t, ht, keeps, ?_, ?_, ?_, opened.bound_of_made made⟩
  · rw [State.mode, opened.gctl]; exact mode
  · rw [opened.gctl]; exact prev
  · rw [opened.gctl, ← made.locked, congrArg State.gctl made.frame.symm]; exact free

theorem degradedExit_internal (ready : BoundaryReady s) (ha : s.tck.active = 0) (hm : s.mode = .degraded) (ho : s.gctl.degOvr = false)
    (hf : s.gctl.degFlywheel = false) (ht : s.gctl.degTime = false) (hl : s.gctl.lockLost = false) (hb : s.gctl.degFabric = false)
    (hw : s.degWardenCause = false) :
    ∃ t, exec .degradedExit s = .next t ∧ BoundaryKeeps s t ∧ t.mode = .run ∧ t.gctl.prev = .degraded := by
  obtain ⟨u, t, e, keeps, made, opened⟩ := boundaryRow (c := fun s =>
    s.mode = .degraded && !(s.gctl.degOvr && s.gctl.onTimeRun < s.im.tick.recover) && !s.gctl.degFlywheel && !s.degWardenCause &&
      !s.gctl.degTime && !(s.gctl.degFabric && !s.gctl.fabricBack)) (by simp [hm, ho, hf, ht, hb, hw]) ready ha
  have quiet : (ovrTaken (causesTaken false s)).anyCause = false := by
    simp [ovrTaken, lossTaken, causesTaken, State.anyCause, ho, hf, ht, hl, hb, hw]
  obtain ⟨mode, prev⟩ := stateStep_of_noCause (s := u) (by rw [made.frame]; exact hm) (by rw [made.frame]; exact quiet)
  refine ⟨t, e, keeps, ?_, ?_⟩
  · rw [State.mode, opened.gctl]; exact mode
  · rw [opened.gctl]; exact prev

theorem lockLossDegrade_internal (ready : BoundaryReady s) (ha : s.tck.active = 0) (hm : s.mode = .run) (hl : s.gctl.lockLost = true) :
    ∃ t, exec .lockLossDegrade s = .next t ∧ BoundaryKeeps s t ∧ t.mode = .degraded ∧ t.gctl.degTime = true := by
  obtain ⟨u, t, e, keeps, made, opened⟩ := boundaryRow (c := fun s => s.mode = .run && s.gctl.lockLost) (by simp [hm, hl]) ready ha
  obtain ⟨mode, time⟩ := stateStep_of_lockLost (s := u) (by rw [made.frame]; exact hm) (by rw [made.frame]; exact hl)
  refine ⟨t, e, keeps, ?_, ?_⟩
  · rw [State.mode, opened.gctl]; exact mode
  · rw [opened.gctl]; exact time

theorem quarantineExit_internal (ready : BoundaryReady s) (ha : s.tck.active = 0) (hm : s.mode = .quarantine)
    (had : s.gctl.admitted = true) :
    ∃ t, exec .quarantineExit s = .next t ∧ BoundaryKeeps s t ∧ t.mode = .armed ∧ t.fab.cause = 0 ∧ t.gctl.admitted = false := by
  obtain ⟨u, t, e, keeps, made, opened⟩ := boundaryRow (c := fun s => s.mode = .quarantine && s.gctl.admitted) (by simp [hm, had]) ready ha
  obtain ⟨mode, cause, admitted⟩ := stateStep_of_admitted (s := u) (by rw [made.frame]; exact hm) (by rw [made.frame]; exact had)
  refine ⟨t, e, keeps, ?_, opened.cause.trans cause, ?_⟩
  · rw [State.mode, opened.gctl]; exact mode
  · rw [opened.gctl]; exact admitted

theorem advanceTo_reaches (m : Nat) (q : QuietClock s) : ∃ r, advanceTo m s = r ∧ TimePasses s r ∧ m ≤ r.tim.mono :=
  ⟨_, rfl, timePasses_advanceTo m q, (advanceTo_mono m q).1⟩

theorem armTimeout_permits (hs : Settled s) (hq : QuietClock s) (hm : s.mode = .armed) (hf : s.im.tick.freeRunOk = true)
    (hl : s.tim.locked = false) (hn : s.gctl.armTimedOut = false) :
    ∃ t, exec .armTimeout s = .next t ∧ t.gctl = { s.gctl with armTimedOut := true } ∧
      s.gctl.armedMono + s.im.tick.armTimeout * 1000000 ≤ t.tim.mono ∧ TimePasses { s with gctl := t.gctl } t := by
  have e : exec .armTimeout s = execArmTimeout s := rfl
  simp only [execArmTimeout, hm, hf, hn, decide_true, Bool.and_self, Bool.not_false, if_true] at e
  obtain ⟨r, hr, passed, reached⟩ := advanceTo_reaches (s.gctl.armedMono + s.im.tick.armTimeout * 1000000) hq
  rw [hr] at e
  have unlocked : r.tim.locked = false := by rw [passed]; exact hl
  have gctl : r.gctl = s.gctl := by rw [passed]
  have quiet : Settled { r with gctl.armTimedOut := true } := passed.settled hs
  rw [unlocked, if_neg Bool.false_ne_true, done_of_settled quiet] at e
  refine ⟨_, e, ?_, reached, ?_⟩
  · rw [← gctl]
  · unfold TimePasses at *
    rw [passed]

end

/-- Settles O8: the boundary of INTERNAL is cut at its changes of state (`internalBoundary`); each row needs the half it speaks of. -/
theorem internalBoundaries : Obligations.InternalBoundaries :=
  ⟨fun h _ ready ha hh => tickBoundary_internal h ready ha hh,
    fun _ _ => stagedApply_internal,
    fun _ => runEntry_internal,
    fun _ => degradedExit_internal,
    fun _ => lockLossDegrade_internal,
    fun _ => quarantineExit_internal,
    fun _ => armTimeout_permits⟩

end Sys2Proof

/-! # The Emit edge and the frames

The Emit edge is cut in two: the decision on time or overrun (`decide25`), and the frames that begin to wait
(`emitFrames`). What an overrun raises the warden takes within the decision (log 59). -/
namespace Sys2Proof.Machine

theorem tget_tinc_same {k n : Nat} (v : Vector (BitVec k) n) {i : Nat} (h : i < n) : tget (tinc v i) i = satInc (tget v i) :=
  tget_tset_same v i _ h

theorem tget_tinc_other {k n : Nat} (v : Vector (BitVec k) n) {i j : Nat} (h : i ≠ j) : tget (tinc v i) j = tget v j :=
  tget_tset_other v i j _ h

/-! ## The frames of an Emit, and the block of the tick -/

theorem emitChan_frame (c : Channel) (stale : Bool) (w : Wait) (s : State) : ∃ o, emitChan c stale w s = { s with outb := o } := by
  unfold emitChan
  dsimp only
  split
  · exact ⟨_, rfl⟩
  · cases c
    · exact ⟨_, rfl⟩
    · exact ⟨_, rfl⟩

theorem blockPose_frame (s : State) : ∃ n, (blockPose s).1 = { s with freeCtr := n } := by
  unfold blockPose
  split
  · exact ⟨_, rfl⟩
  · exact ⟨_, rfl⟩

/-- The position that a tick's block takes in the record that captures. -/
def capturePos (s : State) : Option Nat :=
  match s.inc.record with
  | some r => if r.capturing then some r.positions.length else none
  | none => none

/-- The ring with a tick's block in its free slot; without one, a record that captures counts a GAP (R278). -/
def blockKept (pos : Option Nat) (tick : BitVec 64) (flags : BitVec 16) (bytes : List Byte) (s : State) : State :=
  match freeSlot s with
  | some k => { s with
      mem := Memory.write s.mem (slotAddr s k) (fitBytes s.incSec.sumBytes bytes)
      inc.ring := trimRing s.incSec.pre (s.inc.ring ++ [{ slot := k, tick := tick, flags := flags, pos := pos : RingBlock }])
      inc.ringFill := if pos.isNone then min s.incSec.pre (s.inc.ringFill + 1) else s.inc.ringFill }
  | none => if pos.isSome then { s with inc.gapCnt := satInc s.inc.gapCnt } else s

/-- A record with its next position. -/
def Record.withPos (p : Nat) (gap : Bool) (tick : BitVec 64) (flags : BitVec 16) (r : Record) : Record := { r with
  positions := r.positions ++ [{ tick := tick.setWidth 16, flags := flags.setWidth 7, gap := gap : RecPos }]
  tick0 := if p = 0 then tick else r.tick0 }

/-- The record that captures takes a position, and ends its capture with the last (R276). -/
def positionTaken (pos : Option Nat) (gap : Bool) (tick : BitVec 64) (flags : BitVec 16) (s : State) : State :=
  match s.inc.record, pos with
  | some r, some p =>
    let r := r.withPos p gap tick flags
    let s := { s with inc.record := some r, inc.positions := r.positions.length }
    if r.endPos ≤ r.positions.length || 128 ≤ r.positions.length then endCapture s else s
  | _, _ => s

theorem ringWrite_eq (tick : BitVec 64) (flags : BitVec 16) (bytes : List Byte) (s : State) :
    ringWrite tick flags bytes s = if !s.incOn || s.inc.vstate = .disabled then s else
      positionTaken (capturePos s) (freeSlot s).isNone tick flags (blockKept (capturePos s) tick flags bytes s) := rfl

theorem blockKept_frame (pos : Option Nat) (tick : BitVec 64) (flags : BitVec 16) (bytes : List Byte) (s : State) :
    ∃ i m, blockKept pos tick flags bytes s = { s with inc := i, mem := m } := by
  unfold blockKept
  split
  · exact ⟨_, _, rfl⟩
  · split
    · exact ⟨_, _, rfl⟩
    · exact ⟨_, _, rfl⟩

theorem positionTaken_frame (pos : Option Nat) (gap : Bool) (tick : BitVec 64) (flags : BitVec 16) (s : State) :
    ∃ i, positionTaken pos gap tick flags s = { s with inc := i } := by
  unfold positionTaken
  split
  · dsimp only
    split
    · obtain ⟨i, hi⟩ := endCapture_frame _
      exact ⟨_, hi⟩
    · exact ⟨_, rfl⟩
  · exact ⟨_, rfl⟩

theorem ringWrite_frame (tick : BitVec 64) (flags : BitVec 16) (bytes : List Byte) (s : State) :
    ∃ i m, ringWrite tick flags bytes s = { s with inc := i, mem := m } := by
  rw [ringWrite_eq]
  split
  · exact ⟨_, _, rfl⟩
  · obtain ⟨j, m, hb⟩ := blockKept_frame (capturePos s) tick flags bytes s
    obtain ⟨i, hp⟩ := positionTaken_frame (capturePos s) (freeSlot s).isNone tick flags { s with inc := j, mem := m }
    exact ⟨i, m, by rw [hb, hp]⟩

theorem tickBlock_frame (w : Wait) (summary : Bool) (s : State) :
    ∃ i m n, tickBlock w summary s = { s with inc := i, mem := m, freeCtr := n } := by
  unfold tickBlock
  split
  · exact ⟨_, _, _, rfl⟩
  · obtain ⟨n, hn⟩ := blockPose_frame s
    dsimp only
    rw [hn]
    obtain ⟨i, m, h⟩ := ringWrite_frame w.tick _ _ { s with freeCtr := n }
    exact ⟨i, m, n, h⟩

theorem emitFrames_frame (stale summary : Bool) (s : State) :
    ∃ o i m n, emitFrames stale summary s =
      { s with tck.staleLast := (emitWait stale s).flags.getLsbD 0, outb := o, inc := i, mem := m, freeCtr := n } := by
  unfold emitFrames
  extract_lets w st
  obtain ⟨a, ha⟩ := emitChan_frame .a st w { s with tck.staleLast := st }
  rw [ha]
  obtain ⟨b, hb⟩ := emitChan_frame .b st w { s with tck.staleLast := st, outb := a }
  rw [hb]
  obtain ⟨i, m, n, h⟩ := tickBlock_frame w summary { s with tck.staleLast := st, outb := b }
  exact ⟨b, i, m, n, h⟩

/-- The frames of an overrun are STALE (R26). -/
theorem emitWait_stale (s : State) : (emitWait true s).flags.getLsbD 0 = true := by
  have stale : ∀ isEmpty, (emitFlags true isEmpty s).getLsbD 0 = true := fun isEmpty => by
    simp [emitFlags, pack, b2n]
  unfold emitWait
  dsimp only
  split
  · exact stale _
  · exact stale _

/-! ## What a cancelled tick leaves -/

theorem consume_frame (q n : Nat) (s : State) : ∃ c x, consume q n s = { s with sch := c, cams := x } := by
  unfold consume
  dsimp only
  split
  · exact ⟨_, _, rfl⟩
  · exact ⟨_, _, rfl⟩

/-- Writes the scheduler and the cameras. -/
def putSchCams (x : Sch × Vector Cam 8) (s : State) : State := { s with sch := x.1, cams := x.2 }

theorem foldl_putSchCams {α : Type} {f : State → α → State} (turn : ∀ s a, ∃ x, f s a = putSchCams x s) (l : List α) (s : State) :
    ∃ x, l.foldl f s = putSchCams x s :=
  foldl_frame putSchCams (fun s => ⟨(s.sch, s.cams), rfl⟩) (fun _ _ _ => rfl) turn l s

theorem passCut_frame (k : BitVec 64) (s : State) : ∃ x, passCut k s = putSchCams x s := by
  refine foldl_putSchCams (fun s r => foldl_putSchCams (fun s b => ?_) _ s) _ s
  dsimp only
  split
  · obtain ⟨c, x, h⟩ := consume_frame ‹Nat› _ s
    exact ⟨(c, x), h⟩
  · exact ⟨(s.sch, s.cams), rfl⟩

theorem abortWaiting_frame (l : List TaskDesc) (s : State) : ∃ c, abortWaiting l s = { s with sch := c } := by
  refine foldl_frame (fun c s => { s with sch := c }) (fun _ => ⟨_, rfl⟩) (fun _ _ _ => rfl) (fun s t => ?_) l s
  split
  · split
    · exact ⟨_, rfl⟩
    · exact ⟨_, rfl⟩
  · exact ⟨_, rfl⟩

theorem cancelTick_frame (k : BitVec 64) (s : State) : ∃ x, (cancelTick k s).1 = putSchCams x s := by
  unfold cancelTick
  dsimp only
  obtain ⟨c, hc⟩ := dropRunning_frame (fun j => j.tick = k) s
  rw [hc]
  obtain ⟨d, hd⟩ := abortWaiting_frame _ { s with sch := c }
  rw [hd]
  exact ⟨(_, _), rfl⟩

theorem cancelNow_frame (byOverrun : Bool) (s : State) :
    ∃ n c x, cancelNow byOverrun s = { s with tck.cancelCnt := n, sch := c, cams := x } := by
  unfold cancelNow
  obtain ⟨x, hx⟩ := cancelTick_frame s.tck.index s
  generalize cancelTick s.tck.index s = r at hx ⊢
  obtain ⟨t, n⟩ := r
  change t = _ at hx
  subst hx
  cases byOverrun
  · obtain ⟨y, hy⟩ := passCut_frame s.tck.index (putSchCams x s)
    exact ⟨_, _, _, hy⟩
  · obtain ⟨y, hy⟩ := passCut_frame s.tck.index
      { putSchCams x s with tck.cancelCnt := satAdd s.tck.cancelCnt n }
    exact ⟨_, _, _, hy⟩

theorem countOverrun_frame (s : State) :
    ∃ d h o, countOverrun s =
      { s with tck.ovrCnt := satInc s.tck.ovrCnt, tck.consecOvr := satInc s.tck.consecOvr, gctl.onTimeRun := 0
               flt.due := (50, d) :: s.flt.due, hst := h, out := o } := by
  unfold countOverrun
  dsimp only
  rw [msix_frame]
  exact ⟨_, _, _, rfl⟩

/-! ## An overrun that the warden only logs -/

theorem recordOcc_frame (d level : Nat) (line esc act : Bool) (detail : Word) (held : Bool) (s : State) :
    ∃ f, recordOcc d level line esc act detail held s = { s with flt := f } ∧ f.due = s.flt.due ∧ tget f.cnt 0 = tget s.flt.cnt 0 := by
  unfold recordOcc
  dsimp only
  split
  · exact ⟨_, rfl, rfl, rfl⟩
  · unfold Flt.open
    split
    · exact ⟨_, rfl, rfl, rfl⟩
    · split
      · exact ⟨_, rfl, rfl, rfl⟩
      · exact ⟨_, rfl, rfl, tget_tinc_other _ (by decide)⟩

/-- An occurrence that the map only logs counts, and applies no reaction. -/
theorem occur_logged {s : State} (h : mapOf s 50 = (0, 0, 0)) (act : Bool) (detail : Word) :
    ∃ f, occur 50 false act detail s = ({ s with flt := f }, some 0) ∧ f.due = s.flt.due ∧ tget f.cnt 0 = satInc (tget s.flt.cnt 0) := by
  let t : State := { s with flt.history := (50, s.flt.bounds) :: s.flt.history.filter (fun h => s.flt.bounds - h.2 < 256)
                            flt.cnt := tinc s.flt.cnt 0 }
  have ht : mapOf t 50 = (0, 0, 0) := h
  have e : occur 50 false act detail s = (recordOcc 50 0 false false act detail false t, some 0) := by
    unfold occur
    simp only [Nat.reduceLT, decide_false, Bool.false_and, Bool.false_eq_true, if_false]
    rw [show mapOf { s with flt.history := _, flt.cnt := _ } 50 = _ from ht]
    simp [t]
  obtain ⟨f, hf, due, cnt⟩ := recordOcc_frame 50 0 false false act detail false t
  exact ⟨f, by rw [e, hf], due, cnt.trans (tget_tinc_same _ (by decide))⟩

/-- An overrun that the map only logs is one occurrence of level 0. -/
theorem takePattern_overrun {s : State} (h : mapOf s 50 = (0, 0, 0)) (detail : Word) :
    ∃ f, takePattern true { det := 50, p := false, n := true, detail := detail } s = ({ s with flt := f }, some 0) ∧
      f.due = s.flt.due ∧ tget f.cnt 0 = satInc (tget s.flt.cnt 0) := by
  let t : State := { s with flt.active := setBit s.flt.active 50 (s.flt.line.getLsbD 50)
                            flt.line := setBit s.flt.line 50 (s.flt.line.getLsbD 50) }
  have e : takePattern true { det := 50, p := false, n := true, detail := detail } s =
      occur 50 false (s.flt.line.getLsbD 50) detail t := by
    simp [takePattern, isLevel, t]
  rw [e]
  exact occur_logged (s := t) h _ detail

theorem react_logged (d : Nat) (s : State) : ∃ g, react [(d, 0)] s = { s with gctl.degWarden := g } :=
  ⟨s.degWardenCause, by simp [react]⟩

theorem takePatterns_overrun {s : State} (hm : s.mode = .run) (h : mapOf s 50 = (0, 0, 0)) (detail : Word) :
    ∃ g f, takePatterns true [{ det := 50, p := false, n := true, detail := detail }] s = { s with gctl.degWarden := g, flt := f } ∧
      f.due = s.flt.due ∧ tget f.cnt 0 = satInc (tget s.flt.cnt 0) := by
  obtain ⟨f, ht, due, cnt⟩ := takePattern_overrun h detail
  obtain ⟨g, hr⟩ := react_logged 50 { s with flt := f }
  exact ⟨g, f, by simp [takePatterns, hm, detExists, ht, hr], due, cnt⟩

theorem settleN_succ_of_due {s : State} {d : Nat} {detail : Word} (h : s.flt.due = [(d, detail)]) (n : Nat) :
    settleN (n + 1) s = settleN n (takePatterns true [{ det := d, p := false, n := true, detail := detail }] { s with flt.due := [] }) := by
  simp [settleN, h]

theorem settle_overrun {s : State} {detail : Word} (hd : s.flt.due = [(50, detail)]) (hq : s.fab.outq = []) (hm : s.mode = .run)
    (h : mapOf s 50 = (0, 0, 0)) :
    ∃ g f, settle s = { s with gctl.degWarden := g, flt := f } ∧ f.due = [] ∧ tget f.cnt 0 = satInc (tget s.flt.cnt 0) := by
  obtain ⟨g, f, ht, due, cnt⟩ := takePatterns_overrun (s := { s with flt.due := [] }) hm h detail
  change f.due = [] at due
  refine ⟨g, f, ?_, due, cnt⟩
  rw [settle, settleN_succ_of_due hd, ht, settleN, if_pos (by simp [due]), flushPorts, if_pos (by simp [hq])]

/-! ## The decision -/

theorem decide25_onTime {s : State} {x : Token} (hm : s.mode = .run ∨ s.mode = .degraded) (hx : s.gridToken = some x) :
    decide25 s = ({ exchange x s with tck.consecOvr := 0, gctl.onTimeRun := s.gctl.onTimeRun + 1 }, false) := by
  unfold decide25
  obtain hm | hm := hm
  · simp only [hm, hx]
  · simp only [hm, hx]

/-- What an overrun below the limit that the warden only logs brings before its frames are formed. -/
structure OverrunTaken (s t : State) : Prop where
  frame : t = { s with
    tck.cancelCnt := t.tck.cancelCnt, tck.ovrCnt := satInc s.tck.ovrCnt, tck.consecOvr := satInc s.tck.consecOvr
    gctl.onTimeRun := 0, gctl.degWarden := t.gctl.degWarden, sch := t.sch, cams := t.cams, flt := t.flt, hst := t.hst, out := t.out }
  cnt : tget t.flt.cnt 0 = satInc (tget s.flt.cnt 0)

theorem decide25_overrun {s : State} (hs : Settled s) (hm : s.mode = .run) (hx : s.gridToken = none)
    (hl : (satInc s.tck.consecOvr).toNat < s.im.tick.ovrLimit) (h : mapOf s 50 = (0, 0, 0)) :
    ∃ t, decide25 s = (t, true) ∧ OverrunTaken s t := by
  obtain ⟨hd, hq⟩ := hs
  obtain ⟨n, c, x, hcancel⟩ := cancelNow_frame true s
  obtain ⟨d, y, o, hcount⟩ := countOverrun_frame (cancelNow true s)
  have decided : decide25 s = if (settle (countOverrun (cancelNow true s))).mode.computes
      then (overrunLimit (settle (countOverrun (cancelNow true s))), true) else (settle (countOverrun (cancelNow true s)), false) := by
    unfold decide25
    simp only [hm, hx]
  generalize countOverrun (cancelNow true s) = v at hcount decided
  rw [hcancel] at hcount
  obtain ⟨g, f, taken, -, cnt⟩ := settle_overrun (s := v) (detail := d) (by rw [hcount]; simp [hd]) (by rw [hcount]; exact hq)
    (by rw [hcount]; exact hm) (by rw [hcount]; exact h)
  generalize settle v = t at decided taken
  rw [hcount] at taken cnt
  have run : t.mode = .run := by rw [taken]; exact hm
  have below : overrunLimit t = t := if_neg (by rw [taken]; exact Nat.not_le.mpr hl)
  refine ⟨t, by rw [decided, run, below]; rfl, ?_, ?_⟩
  · rw [taken]
  · rw [taken]; exact cnt

/-! ## The Emit edge -/

/-- The instant of the Emit edge, where the tick enters its Emit phase. -/
def atEmit (s : State) : State := { advanceTo s.tck.eMono s with tck.eDone := true, tck.phase := 2 }

theorem atEmit_frame {s : State} (q : QuietClock s) :
    ∃ m, atEmit s = { s with tim := m, tck.eDone := true, tck.phase := 2 } := by
  have passed := timePasses_advanceTo s.tck.eMono q
  unfold atEmit
  generalize advanceTo s.tck.eMono s = r at passed
  exact ⟨r.tim, by rw [passed]⟩

/-- The state and the mark STALE that the decision leaves; a tick without computing has none (R33). -/
def emitDecision (s : State) : State × Bool := if s.tck.compute then decide25 s else (dropTokens s, false)

/-- The frames that the state entered emits. -/
def framesOf (stale summary : Bool) (s : State) : State :=
  match s.mode with
  | .run | .degraded | .safe => emitFrames stale summary s
  | _ => s

theorem emitEdge_eq (s : State) :
    emitEdge s = framesOf (emitDecision (atEmit s)).2 ((atEmit s).token (atEmit s).incSec.sumSlot (genOf (atEmit s).tck.index)).isSome
      (stopIngest { (emitDecision (atEmit s)).1 with tck.emitRun := (emitDecision (atEmit s)).1.mode.computes }) := rfl

theorem stopIngest_of_armed {s : State} (h : s.mode = .armed) : stopIngest s = s := by
  simp only [stopIngest, h]

theorem stopIngest_of_computes {s : State} (h : s.mode = .run ∨ s.mode = .degraded) : stopIngest s = s := by
  obtain h | h := h
  · simp only [stopIngest, h]
  · simp only [stopIngest, h]

theorem framesOf_of_computes {s : State} (h : s.mode = .run ∨ s.mode = .degraded) (stale summary : Bool) :
    framesOf stale summary s = emitFrames stale summary s := by
  obtain h | h := h
  · simp only [framesOf, h]
  · simp only [framesOf, h]

theorem framesOf_of_armed {s : State} (h : s.mode = .armed) (stale summary : Bool) : framesOf stale summary s = s := by
  simp only [framesOf, h]

/-- In RUN and DEGRADED the edge is its decision, and then its frames. -/
theorem emitEdge_of_decided {s u : State} {stale : Bool} (hc : (atEmit s).tck.compute = true) (h : decide25 (atEmit s) = (u, stale))
    (hm : u.mode = .run ∨ u.mode = .degraded) :
    ∃ summary, emitEdge s = emitFrames stale summary { u with tck.emitRun := u.mode.computes } := by
  have decided : emitDecision (atEmit s) = (u, stale) := (if_pos hc).trans h
  have hv : State.mode { u with tck.emitRun := u.mode.computes } = .run ∨ State.mode { u with tck.emitRun := u.mode.computes } = .degraded := hm
  rw [emitEdge_eq, decided, stopIngest_of_computes hv, framesOf_of_computes hv]
  exact ⟨_, rfl⟩

/-- ARMED has no decision and no frames: tokens of other ticks leave (R33). -/
theorem emitEdge_of_armed {s : State} (hc : (atEmit s).tck.compute = false) (hm : (atEmit s).mode = .armed) :
    ∃ b, emitEdge s = { dropTokens (atEmit s) with tck.emitRun := b } := by
  have decided : emitDecision (atEmit s) = (dropTokens (atEmit s), false) := if_neg (by simp [hc])
  have hv : State.mode { dropTokens (atEmit s) with tck.emitRun := (dropTokens (atEmit s)).mode.computes } = .armed := hm
  rw [emitEdge_eq, decided, stopIngest_of_armed hv, framesOf_of_armed hv]
  exact ⟨_, rfl⟩

/-! ## Routes -/

theorem setChan_chan_same (s : State) (c : Channel) (x : Chan) : (s.setChan c x).chan c = x := by
  cases c <;> rfl

theorem setChan_frame (s : State) (c : Channel) (x : Chan) :
    ∃ o, s.setChan c x = { s with outb := o } ∧ o.waits = s.outb.waits := by
  cases c
  · exact ⟨_, rfl, rfl⟩
  · exact ⟨_, rfl, rfl⟩

theorem setRing_frame (s : State) (c : Channel) (x : Ring) : ∃ h, s.setRing c x = { s with hst := h } := by
  cases c
  · exact ⟨_, rfl⟩
  · exact ⟨_, rfl⟩

/-- A frame that its route has not accepted is discarded: the output block, the rings and the MACs count it. -/
theorem dropFrame_frame (w : Wait) (s : State) :
    ∃ o h e, dropFrame w s = { s with tck.emitLate := satInc s.tck.emitLate, outb := o, hst := h, eths := e } := by
  unfold dropFrame
  obtain ⟨o, hx, -⟩ := setChan_frame s w.chan { s.chan w.chan with drops := tinc (s.chan w.chan).drops w.route }
  dsimp only at hx ⊢
  rw [hx]
  split
  · split
    · obtain ⟨h, hr⟩ := setRing_frame { s with tck.emitLate := satInc s.tck.emitLate, outb := o } w.chan _
      exact ⟨_, _, _, hr⟩
    · exact ⟨_, _, _, rfl⟩
  · split
    · exact ⟨_, _, _, rfl⟩
    · exact ⟨_, _, _, rfl⟩

/-- What the Quiet edge discards. -/
theorem foldl_dropFrame (l : List Wait) (s : State) :
    ∃ o h e, l.foldl (fun s w => dropFrame w s) s =
      { s with tck.emitLate := l.foldl (fun n _ => satInc n) s.tck.emitLate, outb := o, hst := h, eths := e } := by
  induction l generalizing s with
  | nil => exact ⟨_, _, _, rfl⟩
  | cons w l ih =>
    obtain ⟨o, h, e, dropped⟩ := dropFrame_frame w s
    obtain ⟨o', h', e', rest⟩ := ih { s with tck.emitLate := satInc s.tck.emitLate, outb := o, hst := h, eths := e }
    exact ⟨o', h', e', by rw [List.foldl_cons, dropped, rest]; rfl⟩

/-- Frames that a MAC sends leave the device, and nothing else. -/
theorem foldl_say_frame (w : Wait) (l : List (List Byte)) (s : State) :
    ∃ q, l.foldl (fun s f => s.say (.frame w.chan w.route f)) s = { s with out := q } :=
  foldl_frame (fun q s => { s with out := q }) (fun _ => ⟨_, rfl⟩) (fun _ _ _ => rfl) (fun _ _ => ⟨_, rfl⟩) l s

/-- What a frame on its way may touch, and what of the channel's output stamp stays. -/
structure FrameSent (c : Channel) (s t : State) : Prop where
  frame : t = { s with eths := t.eths, outb := t.outb, hst := t.hst, mem := t.mem, out := t.out }
  waits : t.outb.waits = s.outb.waits
  stamped : (t.chan c).stamped = (s.chan c).stamped
  lastOut : (t.chan c).lastOut = (s.chan c).lastOut

theorem frameSent_sendFrame (w : Wait) (bytes : List Byte) (s : State) : FrameSent w.chan s (sendFrame w bytes s) := by
  unfold sendFrame
  split
  · cases w.chan
    · exact ⟨rfl, rfl, rfl, rfl⟩
    · exact ⟨rfl, rfl, rfl, rfl⟩
  · split
    · unfold toCardBuf
      cases w.chan
      · exact ⟨rfl, rfl, rfl, rfl⟩
      · exact ⟨rfl, rfl, rfl, rfl⟩
    · dsimp only
      obtain ⟨q, hq⟩ := foldl_say_frame w (segments w (w.route - 2) bytes s) _
      rw [hq]
      exact ⟨rfl, rfl, rfl, rfl⟩

theorem patchBlock_frame (w : Wait) (out : Nat) (s : State) : ∃ i m, patchBlock w out s = { s with inc := i, mem := m } := by
  unfold patchBlock
  split
  · exact ⟨_, _, rfl⟩
  · exact ⟨_, _, rfl⟩

/-- The first route of a channel stamps its frame (R206). -/
def frameStamped (w : Wait) (out : Nat) (s : State) : State :=
  if (s.chan w.chan).stamped then s
  else
    let t := s.setChan w.chan { s.chan w.chan with
      stamped := true, lastOut := w64 out, lastAge := if w.chan = .b then ageAt out w.oldest.stamp else 0 }
    if w.chan = .b then patchBlock w out t else t

/-- The output stamp of a channel's frame, where the channel has none yet. -/
structure FrameStamped (c : Channel) (out : Nat) (s t : State) : Prop where
  frame : t = { s with outb := t.outb, inc := t.inc, mem := t.mem }
  waits : t.outb.waits = s.outb.waits
  stamped : (t.chan c).stamped = true
  lastOut : (t.chan c).lastOut = if (s.chan c).stamped then (s.chan c).lastOut else w64 out

theorem frameStamped_setChan {c : Channel} {out : Nat} {s : State} {x : Chan} (h : ¬ (s.chan c).stamped = true) (hx : x.stamped = true)
    (hl : x.lastOut = w64 out) : FrameStamped c out s (s.setChan c x) := by
  obtain ⟨o, e, hw⟩ := setChan_frame s c x
  exact {
    frame := by rw [e]
    waits := by rw [e]; exact hw
    stamped := by rw [setChan_chan_same, hx]
    lastOut := by rw [setChan_chan_same, hl, if_neg h] }

theorem FrameStamped.patched {c : Channel} {out : Nat} {s t : State} (h : FrameStamped c out s t) (w : Wait) :
    FrameStamped c out s (patchBlock w out t) := by
  obtain ⟨i, m, e⟩ := patchBlock_frame w out t
  obtain ⟨frame, waits, stamped, lastOut⟩ := h
  rw [e]
  exact ⟨by rw [frame], waits, stamped, lastOut⟩

theorem frameStamped_stamps (w : Wait) (out : Nat) (s : State) : FrameStamped w.chan out s (frameStamped w out s) := by
  unfold frameStamped
  split
  · next h => exact ⟨rfl, rfl, h, (if_pos h).symm⟩
  · next h =>
    dsimp only
    split
    · exact (frameStamped_setChan h rfl rfl).patched w
    · exact frameStamped_setChan h rfl rfl

theorem stepSeen_chan (w : Wait) (s : State) : (stepSeen w s).chan = w.chan := by
  unfold stepSeen
  split
  · rfl
  · rfl

theorem stepSeen_route (w : Wait) (s : State) : (stepSeen w s).route = w.route := by
  unfold stepSeen
  split
  · rfl
  · rfl

/-- The channel and the route of a frame that waits. -/
def Wait.place (w : Wait) : Channel × Nat := (w.chan, w.route)

/-- The frames that still wait once a route has taken its frame. -/
def waitsBut (c : Channel) (r : Nat) (l : List Wait) : List Wait := l.filter (fun v => !(v.chan = c && v.route = r))

/-- A frame of the channel of `w` carries the flags that the first hand-off has seen. -/
def Wait.flagsFrom (w v : Wait) : Wait := if v.chan = w.chan then { v with flags := w.flags } else v

theorem place_flagsFrom (w v : Wait) : (w.flagsFrom v).place = v.place := by
  unfold Wait.flagsFrom
  split
  · rfl
  · rfl

/-- New flags leave the frames that wait in their places. -/
theorem place_waitsBut_flagsFrom (w : Wait) (c : Channel) (r : Nat) (l : List Wait) :
    (waitsBut c r (l.map w.flagsFrom)).map Wait.place = (waitsBut c r l).map Wait.place := by
  induction l with
  | nil => rfl
  | cons v l ih =>
    have chan : (w.flagsFrom v).chan = v.chan := congrArg Prod.fst (place_flagsFrom w v)
    have route : (w.flagsFrom v).route = v.route := congrArg Prod.snd (place_flagsFrom w v)
    simp only [waitsBut, List.map_cons, List.filter_cons, chan, route] at ih ⊢
    split
    · rw [List.map_cons, List.map_cons, place_flagsFrom, ih]
    · exact ih

/-- The frames that wait, with the flags that the first hand-off of their channel has seen. -/
def flagsSeen (w : Wait) (s : State) : State := { s with outb.waits := s.outb.waits.map w.flagsFrom }

/-- A frame that has left waits no more. -/
def frameLeft (w : Wait) (s : State) : State := emitDone { s with outb.waits := waitsBut w.chan w.route s.outb.waits }

theorem acceptFrame_eq {w v : Wait} {s : State} (hv : stepSeen w s = v) :
    acceptFrame w s = frameLeft v (frameStamped v s.stamp (sendFrame v (frameBytes v s.stamp s) (flagsSeen v s))) := by
  rw [← hv]
  rfl

theorem frameLeft_frame (w : Wait) (s : State) :
    ∃ h o, frameLeft w s = { s with outb.waits := waitsBut w.chan w.route s.outb.waits, hst := h, out := o } := by
  unfold frameLeft emitDone
  split
  · exact ⟨_, _, msix_frame ..⟩
  · exact ⟨_, _, rfl⟩

/-- A route has taken the frame that waited for it (R206, R209). -/
structure FrameTaken (w : Wait) (s t : State) : Prop where
  frame : t = { s with eths := t.eths, outb := t.outb, inc := t.inc, hst := t.hst, mem := t.mem, out := t.out }
  waits : t.outb.waits.map Wait.place = (waitsBut w.chan w.route s.outb.waits).map Wait.place
  stamped : (t.chan w.chan).stamped = true
  lastOut : (t.chan w.chan).lastOut = if (s.chan w.chan).stamped then (s.chan w.chan).lastOut else w64 s.stamp

theorem acceptFrame_taken (w : Wait) (s : State) : FrameTaken w s (acceptFrame w s) := by
  obtain ⟨v, hv⟩ : ∃ v, stepSeen w s = v := ⟨_, rfl⟩
  have chan : v.chan = w.chan := by rw [← hv, stepSeen_chan]
  have route : v.route = w.route := by rw [← hv, stepSeen_route]
  rw [acceptFrame_eq hv]
  have sent := frameSent_sendFrame v (frameBytes v s.stamp s) (flagsSeen v s)
  generalize sendFrame v _ _ = u at sent ⊢
  have stamps := frameStamped_stamps v s.stamp u
  generalize frameStamped v _ u = t at stamps ⊢
  obtain ⟨h, o, e⟩ := frameLeft_frame v t
  rw [e]
  exact {
    frame := by rw [stamps.frame, sent.frame]; rfl
    waits := by
      change (waitsBut v.chan v.route t.outb.waits).map Wait.place = _
      rw [stamps.waits, sent.waits, ← chan, ← route]
      exact place_waitsBut_flagsFrom v _ _ _
    stamped := by rw [← chan]; exact stamps.stamped
    lastOut := by
      rw [← chan]
      refine stamps.lastOut.trans ?_
      rw [sent.stamped, sent.lastOut]
      rfl }

end Sys2Proof.Machine

namespace Sys2Proof
open Machine

section
variable {s : State}

theorem exec_emitEdge (ht : s.tck.ticked = true) (hm : s.mode.ticks = true) (hg : s.tck.gDone = true) (he : s.tck.eDone = false) :
    exec .emitEdge s = done (emitEdge s) := by
  change execEmitEdge s = _
  simp [execEmitEdge, ht, hm, hg, he]

theorem emitEdge_onTime {x : Token} (hs : Settled s) (hq : QuietClock s) (ht : s.tck.ticked = true)
    (hm : s.mode = .run ∨ s.mode = .degraded) (hg : s.tck.gDone = true) (he : s.tck.eDone = false) (hc : s.tck.compute = true)
    (hx : s.gridToken = some x) :
    ∃ t, exec .emitEdge s = .next t ∧
      t = { s with
        gctl := t.gctl, tim := t.tim, tck := t.tck, sch := t.sch, cams := t.cams, grd := t.grd, outb := t.outb, inc := t.inc
        flt := t.flt, hst := t.hst, mem := t.mem, out := t.out, freeCtr := t.freeCtr } ∧
      t.grd.front = !s.grd.front ∧ t.grd.exchCnt = satInc s.grd.exchCnt ∧
      t.grd.frontIdx = s.tck.index ∧ t.grd.mask = x.mask ∧ t.grd.vote = x.vote ∧ t.grd.oldest = x.oldest ∧ t.tck.consecOvr = 0 ∧
      t.tck.ovrCnt = s.tck.ovrCnt ∧ t.tck.eDone = true ∧ t.tck.phase = 2 := by
  have ticks : s.mode.ticks = true := by
    obtain hm | hm := hm
    · rw [hm]; rfl
    · rw [hm]; rfl
  obtain ⟨m, hr⟩ := atEmit_frame hq
  have decided := decide25_onTime (s := atEmit s) (x := x) (by rw [hr]; exact hm) (by rw [hr]; exact hx)
  obtain ⟨summary, e⟩ := emitEdge_of_decided (by rw [hr]; exact hc) decided (by rw [hr]; exact hm)
  obtain ⟨o, i, mem, n, hf⟩ := emitFrames_frame false summary _
  rw [hf, hr] at e
  have made := exec_emitEdge ht ticks hg he
  generalize emitEdge s = t at e made
  have settled : Settled t := by rw [e]; exact hs
  refine ⟨t, made.trans (done_of_settled settled), ?_⟩
  rw [e]
  exact ⟨rfl, rfl, rfl, rfl, rfl, rfl, rfl, rfl, rfl, rfl, rfl⟩

theorem emitEdge_overrun (hs : Settled s) (hq : QuietClock s) (ht : s.tck.ticked = true) (hm : s.mode = .run) (hg : s.tck.gDone = true)
    (he : s.tck.eDone = false) (hc : s.tck.compute = true) (hx : s.gridToken = none)
    (hl : (satInc s.tck.consecOvr).toNat < s.im.tick.ovrLimit) (h0 : mapOf s 50 = (0, 0, 0)) :
    ∃ u, exec .emitEdge s = .next (settle u) ∧
      u = { s with
        gctl := u.gctl, tim := u.tim, tck := u.tck, sch := u.sch, cams := u.cams, grd := u.grd, outb := u.outb, inc := u.inc
        flt := u.flt, hst := u.hst, mem := u.mem, out := u.out, freeCtr := u.freeCtr } ∧
      tget u.flt.cnt 0 = satInc (tget s.flt.cnt 0) ∧
      u.grd.front = s.grd.front ∧ u.grd.exchCnt = s.grd.exchCnt ∧ u.tck.ovrCnt = satInc s.tck.ovrCnt ∧
      u.tck.consecOvr = satInc s.tck.consecOvr ∧ u.tck.staleLast = true ∧ u.mode = .run := by
  obtain ⟨m, hr⟩ := atEmit_frame hq
  obtain ⟨t, decided, taken, cnt⟩ := decide25_overrun (s := atEmit s) (by rw [hr]; exact hs) (by rw [hr]; exact hm)
    (by rw [hr]; exact hx) (by rw [hr]; exact hl) (by rw [hr]; exact h0)
  rw [hr] at taken cnt
  have run : t.mode = .run := by rw [taken]; exact hm
  obtain ⟨summary, e⟩ := emitEdge_of_decided (by rw [hr]; exact hc) decided (.inl run)
  obtain ⟨o, i, mem, n, hf⟩ := emitFrames_frame true summary _
  rw [hf, emitWait_stale] at e
  refine ⟨emitEdge s, exec_emitEdge ht (by rw [hm]; rfl) hg he, ?_⟩
  generalize emitEdge s = u at e
  have ovr : t.tck.ovrCnt = satInc s.tck.ovrCnt := by rw [taken]
  have consec : t.tck.consecOvr = satInc s.tck.consecOvr := by rw [taken]
  have grd : t.grd = s.grd := by rw [taken]
  rw [e]
  exact ⟨by rw [taken], cnt, congrArg Grd.front grd, congrArg Grd.exchCnt grd, ovr, consec, rfl, run⟩

theorem emitEdge_armed (hs : Settled s) (hq : QuietClock s) (ht : s.tck.ticked = true) (hm : s.mode = .armed) (hg : s.tck.gDone = true)
    (he : s.tck.eDone = false) (hc : s.tck.compute = false) :
    ∃ t, exec .emitEdge s = .next t ∧ t = { s with tim := t.tim, tck := t.tck, sch := t.sch } ∧ t.tck.eDone = true := by
  obtain ⟨m, hr⟩ := atEmit_frame hq
  obtain ⟨b, e⟩ := emitEdge_of_armed (s := s) (by rw [hr]; exact hc) (by rw [hr]; exact hm)
  have made := exec_emitEdge ht (by rw [hm]; rfl) hg he
  rw [hr] at e
  generalize emitEdge s = t at e made
  have settled : Settled t := by rw [e]; exact hs
  refine ⟨t, made.trans (done_of_settled settled), ?_⟩
  rw [e]
  exact ⟨rfl, rfl⟩

theorem frameAccept_taken {c : Channel} {r : Nat} {w : Wait} (hs : Settled s)
    (hw : s.outb.waits.find? (fun w => w.chan = c && w.route = r) = some w) (he : s.tck.eDone = true) (hn : s.tck.qDone = false)
    (hm : s.mode.ticks = true) (ht : s.tim.mono ≤ s.tck.qMono) (hr : routeReady w s = true) :
    ∃ t, exec (.frameAccept c r) s = .next t ∧
      t = { s with eths := t.eths, outb := t.outb, inc := t.inc, hst := t.hst, mem := t.mem, out := t.out } ∧
      t.outb.waits.map (fun v => (v.chan, v.route)) =
        (s.outb.waits.filter (fun v => !(v.chan = c && v.route = r))).map (fun v => (v.chan, v.route)) ∧
      (t.chan c).stamped = true ∧
      ((s.chan c).stamped = false → (t.chan c).lastOut = BitVec.ofNat 64 s.tim.dev) ∧
      ((s.chan c).stamped = true → (t.chan c).lastOut = (s.chan c).lastOut) := by
  obtain ⟨rfl, rfl⟩ : w.chan = c ∧ w.route = r := by simpa using List.find?_some hw
  have e : exec (.frameAccept w.chan w.route) s = done (acceptFrame w s) := by
    change execFrameAccept w.chan w.route s = _
    have now : s.mono ≤ s.tck.qMono := ht
    simp [execFrameAccept, hw, he, hn, hm, now, hr]
  obtain ⟨frame, waits, stamped, lastOut⟩ := acceptFrame_taken w s
  generalize acceptFrame w s = t at e frame waits stamped lastOut
  have settled : Settled t := by rw [frame]; exact hs
  refine ⟨t, e.trans (done_of_settled settled), frame, waits, stamped, fun first => ?_, fun later => ?_⟩
  · exact lastOut.trans (if_neg (by simp [first]))
  · exact lastOut.trans (if_pos later)

theorem quietEdge_discards (hs : Settled s) (hq : QuietClock s) (ht : s.tck.ticked = true) (hm : s.mode.ticks = true)
    (he : s.tck.eDone = true) (hn : s.tck.qDone = false) :
    ∃ t, exec .quietEdge s = .next t ∧
      t = { s with tim := t.tim, tck := t.tck, eths := t.eths, outb := t.outb, hst := t.hst } ∧
      t.outb.waits = [] ∧ t.tck.qDone = true ∧ t.tck.phase = 3 ∧
      t.tck.emitLate = s.outb.waits.foldl (fun n _ => satInc n) s.tck.emitLate := by
  have made : exec .quietEdge s = execQuietEdge s := rfl
  simp only [execQuietEdge, ht, hm, he, hn, Bool.and_self, Bool.not_false, if_true] at made
  have passed := timePasses_advanceTo s.tck.qMono hq
  generalize advanceTo s.tck.qMono s = r at made passed
  obtain ⟨o, h, x, dropped⟩ := foldl_dropFrame r.outb.waits r
  have outb : r.outb = s.outb := by rw [passed]
  have tck : r.tck = s.tck := by rw [passed]
  rw [dropped, outb, tck] at made
  refine ⟨_, made.trans (done_of_settled ?_), ?_⟩
  · exact passed.settled hs
  · refine ⟨?_, rfl, rfl, rfl, rfl⟩
    unfold TimePasses at passed
    rw [passed]

end

/-- Settles O30: each row is cut at its decision and its frames, and each half names what it writes. -/
theorem emitAndFrames : Obligations.EmitAndFrames :=
  ⟨fun _ _ => emitEdge_onTime, fun _ => emitEdge_overrun, fun _ => emitEdge_armed, fun _ _ _ _ => frameAccept_taken,
    fun _ => quietEdge_discards⟩

end Sys2Proof

/-! # Device time: a step, what the host requests of TIM, and the edge of PPS_IN -/
namespace Sys2Proof.Machine

/-- What changes the time base alone leaves nothing for the warden or the ports. -/
theorem done_of_tim {s : State} (hs : Settled s) (t : Tim) : done { s with tim := t } = .next { s with tim := t } :=
  done_of_settled hs

/-! ## Writes of TIM (R61) -/

section
variable {s : State} {src : Source}

theorem liveIn_tim {m : Mode} (h : m = .load ∨ m.fromArmed = true) : liveIn m 1 = true := by
  revert h
  cases m <;> decide

theorem State.timWritable.live (hw : s.timWritable) : s.live 1 = true := by
  simp [State.live, liveIn_tim hw]

theorem State.timWritable.rowLegal (hw : s.timWritable) : rowLegal 1 s.mode = true := by
  unfold Machine.rowLegal
  obtain load | armed := hw
  · simp [load]
  · simp [armed]

theorem absent_of_timBlock {a : Nat} (ha : blockOf a = some 1) : s.absent a = false := by
  simp [State.absent, ha]

/-- A source that is heard reaches every register of TIM while the block takes writes. -/
theorem judged_of_timWritable (hh : s.hears src = true) (hw : s.timWritable) {a : Nat} (ha : blockOf a = some 1) (f : State → State) :
    judged src a f s = f s := by
  simp [judged, hh, ha, absent_of_timBlock, hw.live, hw.rowLegal]

theorem timCmd_of_timWritable (hh : s.hears src = true) (hw : s.timWritable) (f : State → State) : timCmd src f s = f s := by
  have ha : blockOf timCtl = some 1 := rfl
  simp [timCmd, judgedCmd, hh, ha, absent_of_timBlock, hw.live, hw.rowLegal]

theorem exec_timDiscRequest (hh : s.hears src = true) (hw : s.timWritable) (d : BitVec 2) :
    exec (.timDiscRequest src d) s = done (discReq d s) :=
  congrArg done (judged_of_timWritable hh hw rfl _)

theorem exec_applyStep (hh : s.hears src = true) (hw : s.timWritable) (atSecond : Bool) :
    exec (.applyStep src atSecond) s = done (applyReq false atSecond s) :=
  congrArg done (timCmd_of_timWritable hh hw _)

theorem exec_applySlew (hh : s.hears src = true) (hw : s.timWritable) (atSecond : Bool) :
    exec (.applySlew src atSecond) s = done (applyReq true atSecond s) :=
  congrArg done (timCmd_of_timWritable hh hw _)

theorem exec_timCancel (hh : s.hears src = true) (hw : s.timWritable) : exec (.timCancel src) s = done (cancelReq s) :=
  congrArg done (timCmd_of_timWritable hh hw _)

theorem exec_timSetWrite (hh : s.hears src = true) (hw : s.timWritable) (r : TimSet) (v : Word) :
    exec (.timSetWrite src r v) s = done (timSet r v s) := by
  have ha : blockOf (timSetAddr r) = some 1 := by cases r <;> rfl
  exact congrArg done (judged_of_timWritable hh hw ha _)

end

/-! ## Discipline requests, applies and staged values (R40, R47 to R52) -/

section
variable {s : State}

theorem discReq_permitted {d : BitVec 2} (hd : d ≠ s.tim.disc) (ha : s.im.time.discAllow.testBit d.toNat = true) :
    discReq d s = timStat stOk (stageDisc d s) := by
  simp [discReq, hd, ha]

theorem discReq_protected {d : BitVec 2} (hd : d ≠ s.tim.disc) (ha : s.im.time.discAllow.testBit d.toNat = false) :
    discReq d s = timStat stProtected s := by
  simp [discReq, hd, ha]

/-- An apply that is pending stands (R51). -/
theorem applyReq_busy (hp : s.tim.pend.isSome = true) (slew atSecond : Bool) : applyReq slew atSecond s = timStat stBusy s :=
  if_pos hp

/-- Under GPTP and FABRIC the reference owns the time (R48). -/
theorem applyReq_protected (hp : s.tim.pend = none) (hd : s.tim.discPend = none) (owned : s.tim.discAct = discGptp ∨ s.tim.discAct = discFabric)
    (slew atSecond : Bool) : applyReq slew atSecond s = timStat stProtected s := by
  obtain gptp | fabric := owned
  · simp [applyReq, hp, hd, gptp]
  · simp [applyReq, hp, hd, fabric]

/-- Under PPS an APPLY is a STEP at the second (R48). -/
theorem applyReq_badArg_of_pps (hp : s.tim.pend = none) (hd : s.tim.discPend = none) (pps : s.tim.discAct = discPps) {slew atSecond : Bool}
    (other : (slew || !atSecond) = true) : applyReq slew atSecond s = timStat stBadArg s := by
  simp [applyReq, hp, hd, pps, other]

/-- Elsewhere an APPLY captures what TIM_SET holds (R47). -/
theorem applyReq_captured (hp : s.tim.pend = none) (hd : s.tim.discPend = none) {slew atSecond : Bool} {a : TimApply}
    (free : s.tim.discAct = discFree ∨ s.tim.discAct = discPps ∧ (slew || !atSecond) = false) (ha : captureApply slew s = some a) :
    applyReq slew atSecond s =
      timStat stOk (if atSecond then { s with tim.pend := some a } else { s with tim.now := s.tim.now ++ [a] }) := by
  obtain act | ⟨act, step⟩ := free
  · simp [applyReq, hp, hd, act, ha]
  · simp [applyReq, hp, hd, act, step, ha]

theorem captureApply_step {v : Nat} (hd : s.tim.discPend = none) (hv : s.tim.staged = some v) :
    captureApply false s = some { slew := false, value := v, rate := 0 } := by
  simp [captureApply, hd, hv]

theorem captureApply_slew (hd : s.tim.discPend = none) (ho : s.tim.setOfs.toInt.natAbs ≤ 100000000) :
    captureApply true s = some { slew := true, value := s.tim.setOfs.toInt, rate := s.im.time.slewRate } := by
  simp [captureApply, hd, ho]

theorem cancelReq_pending (hp : s.tim.pend.isSome = true) : cancelReq s = timStat stAborted { s with tim.pend := none } :=
  if_pos hp

theorem cancelReq_none (hp : s.tim.pend = none) : cancelReq s = timStat stBadArg s := by
  simp [cancelReq, hp]

theorem timSet_busy (hp : s.tim.pend.isSome = true) (r : TimSet) (v : Word) : timSet r v s = timStat stBusy s :=
  if_pos hp

end

/-! ## The edge of PPS_IN (R44) -/

/-- A locked device in FREE, half a second off, at which the host has asked within one update for an immediate STEP to the second
2 and for PPS. -/
def stepAndPpsAsked : State := { State.reset with
  gctl := { mode := .armed, everArmed := true }
  img := { run := some { time := { ppsWin := 1 }, ports := { filtPpsIn := 1 } } }
  tim := { mono := 100, dev := 500000100, locked := true, disc := discPps, discPend := some discPps
           now := [{ slew := false, value := 2000000000, rate := 0 }] } }

/-- The update that steps, at which the filter passes an edge that the pin saw 10 ns before. -/
def steppedPastEdge : State := counterUpdate stepAndPpsAsked

/-- The pin's instant had a stamp half a second from a second boundary, and the stamp after the step less the filter setting is
10 ns from one. -/
theorem steppedPastEdge_stamps :
    stampOf (steppedPastEdge.tim.mono - steppedPastEdge.filtPps) steppedPastEdge = 500000094 ∧
      steppedPastEdge.stamp - steppedPastEdge.filtPps = 1999999990 := by
  decide +kernel

/-- An edge whose stamp less the filter setting lies in the window is accepted. -/
theorem exec_ppsInEdge_accepted {s : State} (hp : s.heedsPps = true)
    (hw : (fromSecond (s.stamp - s.filtPps)).natAbs ≤ s.im.time.ppsWin * 1000) :
    exec .ppsInEdge s = done (ppsAccepted (s.stamp - s.filtPps) s) := by
  have e : exec .ppsInEdge s = execPpsInEdge s := rfl
  simp [e, execPpsInEdge, hp, Nat.not_lt.mpr hw]

end Sys2Proof.Machine

namespace Sys2Proof
open Machine

/-- Refutes O15 in its clause on an edge outside the window: in `steppedPastEdge` the clause judges by the stamp that the pin's
instant had, and the model by the stamp after the step less the filter setting, so the edge is accepted. The clause lacks
the premise that device time has counted with the monotonic counter since that instant. -/
theorem not_timeEffects : ¬ Obligations.TimeEffects := by
  rintro ⟨-, -, -, -, outside, -⟩
  obtain ⟨pin, edge⟩ := steppedPastEdge_stamps
  have rejected := outside steppedPastEdge ⟨by decide +kernel, by decide +kernel⟩ (by decide +kernel) (by decide +kernel)
    (by rw [pin]; decide +kernel)
  rw [exec_ppsInEdge_accepted (by decide +kernel) (by rw [edge]; decide +kernel), edge] at rejected
  have counted := congrArg (fun t : State => t.tim.ppsRej) (Host.Outcome.next.inj rejected)
  exact absurd counted (by decide +kernel)

section
variable {s : State} {src : Source}

theorem applyStep_of_staged {v : Nat} (hs : Settled s) (hh : s.hears src = true) (hw : s.timWritable) (hd : s.tim.discPend = none)
    (ha : s.tim.discAct = 0) (hp : s.tim.pend = none) (hv : s.tim.staged = some v) :
    exec (.applyStep src false) s = .next { s with tim.now := s.tim.now ++ [{ slew := false, value := v, rate := 0 }], tim.applyStat := 0x00 } ∧
    exec (.applyStep src true) s = .next { s with tim.pend := some { slew := false, value := v, rate := 0 }, tim.applyStat := 0x00 } := by
  have taken (atSecond : Bool) := (exec_applyStep hh hw atSecond).trans
    (congrArg done (applyReq_captured hp hd (.inl ha) (captureApply_step hd hv)))
  exact ⟨(taken false).trans (done_of_tim hs _), (taken true).trans (done_of_tim hs _)⟩

theorem timSetWrite_taken (hs : Settled s) (hh : s.hears src = true) (hw : s.timWritable) (hp : s.tim.pend = none) (v : Word) :
    exec (.timSetWrite src .nsec v) s = .next { s with tim.setNsec := v.setWidth 30 } ∧
    exec (.timSetWrite src .secLo v) s = .next { s with tim.setSecLo := v } ∧
    exec (.timSetWrite src .secHi v) s = .next { s with tim.setSecHi := v.setWidth 16 } ∧
    exec (.timSetWrite src .ofs v) s = .next { s with tim.setOfs := v } := by
  have taken (r : TimSet) : exec (.timSetWrite src r v) s = done (timSet r v s) := exec_timSetWrite hh hw r v
  have free : s.tim.pend.isSome = false := by rw [hp]; rfl
  simp only [timSet, free, Bool.false_eq_true, if_false] at taken
  exact ⟨(taken .nsec).trans (done_of_tim hs _), (taken .secLo).trans (done_of_tim hs _), (taken .secHi).trans (done_of_tim hs _),
    (taken .ofs).trans (done_of_tim hs _)⟩

end

/-- Settles O12: each request reaches TIM, and its own case says what it stages. -/
theorem disciplineAndApplies : Obligations.DisciplineAndApplies := by
  refine ⟨fun src d s hs hh hw hd ha => ?_, fun src d s hs hh hw hd ha => ?_, fun src v s => applyStep_of_staged,
    fun src s hs hh hw hd ha hp ho => ?_, fun src v s hs hh hw hp => timSetWrite_taken hs hh hw hp v⟩
  · rw [exec_timDiscRequest hh hw, discReq_permitted hd ha]
    exact done_of_tim hs _
  · rw [exec_timDiscRequest hh hw, discReq_protected hd ha]
    exact done_of_tim hs _
  · rw [exec_applySlew hh hw, applyReq_captured hp hd (.inl ha) (captureApply_slew hd ho)]
    exact done_of_tim hs _

/-- Settles O1: the coming update of a quiet clock only counts. -/
theorem stepRunsFrontCommand : Obligations.StepRunsFrontCommand := by
  refine ⟨fun c cs s h => ?_, fun s h hs hq => ?_⟩
  · rw [step, h]
  · have passed := timePasses_plainUpdates 1 s
    have e : step s = done (counterUpdate s) := by rw [step, h]
    rw [counterUpdate_of_quiet hq, done_of_settled (passed.settled hs)] at e
    exact ⟨_, e, plainUpdates_mono 1 s, passed⟩

/-- Settles O13: each request meets the pending apply first. -/
theorem pendingApplyStands : Obligations.PendingApplyStands := by
  refine ⟨fun src b r v s hs hh hw hp => ⟨?_, ?_, ?_, ?_⟩, fun src s hs hh hw hp => ?_⟩
  · rw [exec_applyStep hh hw, applyReq_busy hp]
    exact done_of_tim hs _
  · rw [exec_applySlew hh hw, applyReq_busy hp]
    exact done_of_tim hs _
  · rw [exec_timSetWrite hh hw, timSet_busy hp]
    exact done_of_tim hs _
  · rw [exec_timCancel hh hw, cancelReq_pending hp]
    exact done_of_tim hs _
  · rw [exec_timCancel hh hw, cancelReq_none hp]
    exact done_of_tim hs _

/-- Settles O14: with no apply pending the discipline in force judges the APPLY. -/
theorem applyUnderReference : Obligations.ApplyUnderReference := by
  refine ⟨fun src b s hs hh hw hp hd owned => ⟨?_, ?_⟩, fun src b s hs hh hw hp hd pps => ⟨?_, ?_⟩,
    fun src v s hs hh hw hp hd pps hv => ?_⟩
  · rw [exec_applyStep hh hw, applyReq_protected hp hd owned]
    exact done_of_tim hs _
  · rw [exec_applySlew hh hw, applyReq_protected hp hd owned]
    exact done_of_tim hs _
  · rw [exec_applyStep hh hw, applyReq_badArg_of_pps hp hd pps rfl]
    exact done_of_tim hs _
  · rw [exec_applySlew hh hw, applyReq_badArg_of_pps hp hd pps rfl]
    exact done_of_tim hs _
  · rw [exec_applyStep hh hw, applyReq_captured hp hd (.inr ⟨pps, rfl⟩) (captureApply_step hd hv)]
    exact done_of_tim hs _

end Sys2Proof

/-! # The PCI Express endpoint -/
namespace Sys2Proof.Machine

/-- A vector that is sent leaves its pending bit and the message. -/
theorem msixSend_frame (v : Nat) (s : State) : ∃ p o, msixSend v s = { s with hst.msixPend := p, out := o } := by
  unfold msixSend
  split
  · exact ⟨_, _, rfl⟩
  · exact ⟨_, _, rfl⟩

/-- Writes the pending bits and what has left the device. -/
def putSent (x : BitVec 64 × List Out) (s : State) : State := { s with hst.msixPend := x.1, out := x.2 }

/-- Bus Master Enable is written; set, it sends vectors. -/
theorem setBme_frame (on : Bool) (s : State) : ∃ p o, setBme on s = { s with hst.bme := on, hst.msixPend := p, out := o } := by
  unfold setBme
  dsimp only
  split
  · obtain ⟨x, e⟩ := foldl_frame putSent (f := fun t v => msixSend v t) (fun s => ⟨(s.hst.msixPend, s.out), rfl⟩) (fun _ _ _ => rfl)
      (fun t v => (msixSend_frame v t).elim fun _ ⟨_, e⟩ => ⟨(_, _), e⟩) (List.range 64) { s with hst.bme := on }
    exact ⟨_, _, e⟩
  · exact ⟨_, _, rfl⟩

section
variable {s : State}

theorem exec_pcieReset (hp : s.hasPcie = true) (k : PcieReset) : exec (.pcieReset k) s = done (endpointReset (resetDropsLink k) s) :=
  congrArg done (if_pos hp)

theorem exec_pcieLinkUp (hp : s.hasPcie = true) (speed width : Nat) :
    exec (.pcieLinkUp speed width) s =
      done { s with hst.linkUp := true, hst.speed := BitVec.ofNat 3 speed, hst.width := BitVec.ofNat 3 width } :=
  congrArg done (if_pos hp)

/-- In SELFTEST a configuration request is answered with retry status (R70). -/
theorem exec_configurationRequest_selftest (hp : s.hasPcie = true) (hm : s.mode = .selftest) (q : CfgReq) :
    exec (.configurationRequest q) s = done (s.say (.config none)) := by
  change execConfigurationRequest q s = _
  simp [execConfigurationRequest, hp, hm]

theorem exec_configurationRequest_read (hp : s.hasPcie = true) (hm : s.mode ≠ .selftest) (dw : Nat) :
    exec (.configurationRequest (.read dw)) s = done (s.drawn.say (.config (some (configWord dw s)))) := by
  change execConfigurationRequest (.read dw) s = _
  simp [execConfigurationRequest, hp, hm]

theorem exec_configurationRequest_busMaster (hp : s.hasPcie = true) (hm : s.mode ≠ .selftest) (on : Bool) :
    exec (.configurationRequest (.busMaster on)) s = done ((setBme on s).say (.config (some 0))) := by
  change execConfigurationRequest (.busMaster on) s = _
  simp [execConfigurationRequest, hp, hm]

/-- The link outlives the resets that do not drop it. -/
theorem linkUp_endpointReset (k : PcieReset) :
    (endpointReset (resetDropsLink k) s).hst.linkUp =
      (match k with | .functionLevel | .hot => s.hst.linkUp | .linkDown | .perst => false) := by
  cases k with
  | functionLevel => exact Bool.and_true _
  | hot => exact Bool.and_true _
  | linkDown => exact Bool.and_false _
  | perst => exact Bool.and_false _

/-- No request of PCIe waits after a reset of the endpoint. -/
theorem reqs_endpointReset (drops : Bool) : ∀ r ∈ (endpointReset drops s).mbx.reqs, r.src ≠ .pcie :=
  fun _ h => of_decide_eq_true (List.mem_filter.mp h).2

end

end Sys2Proof.Machine

namespace Sys2Proof
open Machine

/-- Settles O49: each request reaches the endpoint, and writes the host block and the mailbox alone. -/
theorem pcieEndpoint : Obligations.PcieEndpoint := by
  refine ⟨fun k s hs hp => ⟨_, (exec_pcieReset hp k).trans (done_of_settled hs), rfl, rfl, rfl, rfl, rfl, reqs_endpointReset _, rfl,
      tget_tset_same _ _ _ (by decide), linkUp_endpointReset k⟩,
    fun sp w s hs hp => (exec_pcieLinkUp hp sp w).trans (done_of_settled hs),
    fun q s hs hp hm => (exec_configurationRequest_selftest hp hm q).trans (done_of_settled hs),
    fun s hs hp hm => ⟨_, (exec_configurationRequest_read hp hm 0).trans (done_of_settled hs), rfl, rfl, rfl⟩,
    fun b s hs hp hm => ?_⟩
  have made := exec_configurationRequest_busMaster hp hm b
  obtain ⟨p, o, e⟩ := setBme_frame b s
  rw [e] at made
  exact ⟨_, made.trans (done_of_settled hs), rfl, rfl, rfl⟩

end Sys2Proof

/-! # The reset state keeps the invariants, and a reset cuts an agent's run -/
namespace Sys2Proof
open Machine

/-- Settles O3: both are closed facts about the reset state. -/
theorem invariantsAtReset : Obligations.InvariantsAtReset := ⟨rfl, rfl, rfl⟩

/-- A device in ARMED whose agent has begun the first of a run of two code words and not the second; both stand in the
array's contents, where the model enters a run as a whole when it begins (log 19). -/
def runBegun : State := { State.reset with
  gctl.mode := .armed
  arc := { words := [(0x2000, .prog (zeros 32)), (0x2001, .prog (zeros 32))], devUntil := 90000
           dev := [{ bank := false, start := 0, stop := 90000, what := .run [0x40000, 0x40020] }] } }

/-- At PORESET_N the word that has not begun leaves the contents again (R63). -/
theorem words_goOff_runBegun : (settle (goOff (finishWord runBegun))).arc.words = [(0x2000, .prog (zeros 32))] := by
  decide +kernel

/-- Refutes O16 in its clause on PORESET_N: it takes the words of the array to be those before it but for the host's word
in progress, and from `runBegun` the word that the agent has not begun stays unprogrammed. The clauses on PORESET_N, on
the loss of a supply and on the pin reset lack the premise that no device agent has an operation on the array. -/
theorem not_resetsAndOff : ¬ Obligations.ResetsAndOff := by
  rintro ⟨-, poreset, -⟩
  obtain ⟨t, ht, -, -, -, hwords, -⟩ := poreset runBegun (by decide)
  have ht : settle (goOff (finishWord runBegun)) = t := Host.Outcome.next.inj ht
  rw [← ht, words_goOff_runBegun] at hwords
  exact absurd hwords (by decide)

end Sys2Proof

/-! # The commands of GCTL, and what a rejection changes -/
namespace Sys2Proof.Machine

/-! ## A rejection (R59) -/

/-- Fields that do not overlap add up. -/
theorem shiftLeft_or_eq {a b i : Nat} (h : b < 2 ^ i) : a <<< i ||| b = a * 2 ^ i + b := by
  rw [← Nat.shiftLeft_add_eq_or_of_lt h, Nat.shiftLeft_eq]

/-- The fields of GCTL_LAST_REJECT. -/
theorem pack_lastReject {mode src kind page item : Nat} (hm : mode < 16) (hs : src < 4) (hk : kind < 4) (hp : page < 4096)
    (hi : item < 4096) :
    pack [(28, 4, mode), (26, 2, src), (24, 2, kind), (12, 12, page), (0, 12, item)] =
      BitVec.ofNat 32 (mode * 0x10000000 + src * 0x4000000 + kind * 0x1000000 + page * 0x1000 + item) := by
  have fields : mode <<< 28 ||| (src <<< 26 ||| (kind <<< 24 ||| (page <<< 12 ||| item))) =
      mode * 0x10000000 + src * 0x4000000 + kind * 0x1000000 + page * 0x1000 + item := by
    rw [shiftLeft_or_eq (i := 12) (by omega), shiftLeft_or_eq (i := 24) (by omega), shiftLeft_or_eq (i := 26) (by omega),
      shiftLeft_or_eq (i := 28) (by omega)]
    omega
  simp only [pack, List.foldl_cons, List.foldl_nil, Nat.zero_or, Nat.shiftLeft_zero, Nat.or_assoc, Nat.reducePow,
    Nat.mod_eq_of_lt hm, Nat.mod_eq_of_lt hs, Nat.mod_eq_of_lt hk, Nat.mod_eq_of_lt hp, Nat.mod_eq_of_lt hi, fields]

theorem srcCode_lt (src : Source) : srcCode src < 4 := by
  cases src <;> decide

/-- A rejection counts itself, and names state, source, kind, page and item. -/
theorem reject_eq {kind page item : Nat} (hk : kind < 4) (hp : page < 4096) (hi : item < 4096) (src : Source) (s : State) :
    reject src kind page item s = { s with
      gctl.rejectCnt := satInc s.gctl.rejectCnt
      gctl.lastReject := BitVec.ofNat 32 (s.mode.code.toNat * 0x10000000 + srcCode src * 0x4000000 + kind * 0x1000000 + page * 0x1000 + item) } := by
  rw [reject, pack_lastReject s.mode.code.isLt (srcCode_lt src) hk hp hi]

/-- What changes GCTL alone leaves nothing for the warden or the ports. -/
theorem done_of_gctl {s : State} (hs : Settled s) (g : Gctl) : done { s with gctl := g } = .next { s with gctl := g } :=
  done_of_settled hs

/-! ## A plain register write that is rejected (R59, R61) -/

/-- The blocks end where BAR0's last window does (R13). -/
theorem lt_of_blockOf {a row : Nat} (h : blockOf a = some row) : a < 0x1C0000 := by
  by_contra ha
  have none : blockOf a = none := by simp (disch := omega) only [blockOf, if_neg]
  simp [none] at h

theorem rejectReg_eq {a : Nat} (ha : a < 0x1000000) (src : Source) (s : State) :
    rejectReg src a s = { s with
      gctl.rejectCnt := satInc s.gctl.rejectCnt
      gctl.lastReject := BitVec.ofNat 32 (s.mode.code.toNat * 0x10000000 + srcCode src * 0x4000000 + a) } := by
  have place : s.mode.code.toNat * 0x10000000 + srcCode src * 0x4000000 + 0 * 0x1000000 + a / 4096 * 0x1000 + a % 4096 =
      s.mode.code.toNat * 0x10000000 + srcCode src * 0x4000000 + a := by omega
  rw [rejectReg, reject_eq (by omega) (by omega) (by omega), place]

/-- A write that its block or its state does not take is rejected. -/
theorem judged_rejected {src : Source} {a row : Nat} {s : State} (hh : s.hears src = true) (ha : s.absent a = false)
    (hb : blockOf a = some row) (hr : s.live row = false ∨ rowLegal row s.mode = false) (f : State → State) :
    judged src a f s = rejectReg src a s := by
  have refused : (!s.live row || !rowLegal row s.mode) = true := by simpa using hr
  simp only [judged, hh, ha, hb, refused, Bool.not_true, Bool.or_self, Bool.false_eq_true, if_false, if_true]

/-- A plain write outside GCTL is judged by its block. -/
theorem regWrite_plain {src : Source} {a row : Nat} {v : Word} {s : State} (hh : s.hears src = true) (h4 : a % 4 = 0)
    (hc : cmdWrite src a v = none) (hb : blockOf a = some row) (h0 : row ≠ 0) :
    regWrite src a v s = judged src a (plainWrite row a v) s := by
  unfold regWrite
  rw [if_neg (by simp [h4, hh]), hc, hb]
  dsimp only
  split
  · contradiction
  · next h => exact absurd (Option.some.inj h) h0
  · next h => rw [Option.some.inj h]

/-! ## A command of GCTL_CMD (R59, R61, R414) -/

theorem hears_answers {src : Source} {s : State} (hh : s.hears src = true) : s.mode ≠ .off ∧ s.mode ≠ .removal := by
  constructor
  · intro h
    simp [State.hears, Mode.answers, h] at hh
  · intro h
    simp [State.hears, Mode.answers, h] at hh

section
variable {src : Source} {code : Byte} {s : State}

/-- In a state that permits it a command is performed, and answers its status. -/
theorem gctlCmd_permitted (hh : s.hears src = true) (hl : gctlLegal code s.mode = true) (f : State → State × Byte) :
    gctlCmd src code f s = gctlStat code (f s).2 (f s).1 := by
  simp [gctlCmd, hh, hl]

/-- Elsewhere it is rejected. -/
theorem gctlCmd_refused (hh : s.hears src = true) (hl : gctlLegal code s.mode = false) (f : State → State × Byte) :
    gctlCmd src code f s = rejectCmd src 0x20 code.toNat (gctlStat code stNotInState s) := by
  simp [gctlCmd, hh, hl]

/-- A command of GCTL that is rejected leaves NOT_IN_STATE and its code, and the rejection. -/
theorem rejectCmd_gctlStat (src : Source) (code : Byte) (s : State) :
    rejectCmd src 0x20 code.toNat (gctlStat code stNotInState s) = { s with
      gctl.cmdStat := 0x02, gctl.cmdEcho := code, gctl.rejectCnt := satInc s.gctl.rejectCnt
      gctl.lastReject := BitVec.ofNat 32 (s.mode.code.toNat * 0x10000000 + srcCode src * 0x4000000 + 0x1000000 + code.toNat) } := by
  have hc : code.toNat < 4096 := by have := code.isLt; omega
  have word : s.mode.code.toNat * 0x10000000 + srcCode src * 0x4000000 + 1 * 0x1000000 + 0x20 / 4096 * 0x1000 + code.toNat =
      s.mode.code.toNat * 0x10000000 + srcCode src * 0x4000000 + 0x1000000 + code.toNat := by omega
  rw [← word]
  exact reject_eq (by omega) (by omega) hc src (gctlStat code stNotInState s)

/-- CLR_CNT is permitted wherever the device answers. -/
theorem gctlLegal_clrCnt {m : Mode} (ho : m ≠ .off) (hr : m ≠ .removal) : gctlLegal gClrCnt m = true := by
  revert ho hr
  cases m <;> decide

theorem gctlLegal_halt {m : Mode} : gctlLegal gHalt m = m.computes := by
  cases m <;> rfl

theorem gctlLegal_maint {m : Mode} (h : m = .armed ∨ m = .safe ∨ m = .quarantine) : gctlLegal gMaint m = true := by
  obtain rfl | rfl | rfl := h <;> rfl

end

/-! ## Counters (R414) -/

/-- Between two states nothing but counters has changed, in the blocks that have them. -/
structure CountersMoved (s t : State) : Prop where
  frame : t = { s with
    tim := t.tim, tck := t.tck, sch := t.sch, cvt := t.cvt, cams := t.cams, eths := t.eths, cans := t.cans, spis := t.spis, aln := t.aln
    ego := t.ego, grd := t.grd, outb := t.outb, arc := t.arc, crd := t.crd, inc := t.inc, ldg := t.ldg, fab := t.fab, pwr := t.pwr
    clk := t.clk, flt := t.flt, tst := t.tst, hst := t.hst }
  dev : t.tim.dev = s.tim.dev
  due : t.flt.due = s.flt.due
  outq : t.fab.outq = s.fab.outq

theorem CountersMoved.refl (s : State) : CountersMoved s s := ⟨rfl, rfl, rfl, rfl⟩

theorem CountersMoved.trans {s t u : State} (h : CountersMoved s t) (k : CountersMoved t u) : CountersMoved s u :=
  ⟨by rw [k.frame, h.frame], k.dev.trans h.dev, k.due.trans h.due, k.outq.trans h.outq⟩

theorem CountersMoved.settled {s t : State} (h : CountersMoved s t) (hs : Settled s) : Settled t :=
  ⟨h.due.trans hs.1, h.outq.trans hs.2⟩

theorem countersMoved_clearBlk (b : CntBlk) (s : State) : CountersMoved s (clearBlk b s) := by
  cases b <;> exact ⟨rfl, rfl, rfl, rfl⟩

/-- Counters of the warden that are clear stay so. -/
theorem fltCnt_clearBlk {b : CntBlk} {s : State} (h : b = .flt ∨ s.flt.cnt = Vector.replicate 6 0) :
    (clearBlk b s).flt.cnt = Vector.replicate 6 0 := by
  cases b
  case flt => rfl
  all_goals exact h.resolve_left nofun

/-- CLR_CNT clears block after block of those that are live. -/
def clearIf (live : Nat → Bool) (t : State) (b : CntBlk) : State := if live (cntRow b) then clearBlk b t else t

theorem countersMoved_foldl_clearIf (live : Nat → Bool) (l : List CntBlk) (s : State) : CountersMoved s (l.foldl (clearIf live) s) := by
  induction l generalizing s with
  | nil => exact .refl s
  | cons b l ih =>
    refine .trans ?_ (ih _)
    unfold clearIf
    split
    · exact countersMoved_clearBlk b s
    · exact .refl s

theorem fltCnt_foldl_clearIf {live : Nat → Bool} (hl : live 6 = true) (l : List CntBlk) (s : State)
    (h : .flt ∈ l ∨ s.flt.cnt = Vector.replicate 6 0) : (l.foldl (clearIf live) s).flt.cnt = Vector.replicate 6 0 := by
  induction l generalizing s with
  | nil => exact h.resolve_left nofun
  | cons b l ih =>
    rw [List.foldl_cons]
    refine ih _ ?_
    by_cases hb : b = .flt ∨ s.flt.cnt = Vector.replicate 6 0
    · refine .inr ?_
      unfold clearIf
      split
      · exact fltCnt_clearBlk hb
      · next hn => exact hb.resolve_left fun e => hn (e ▸ hl)
    · rw [not_or] at hb
      exact .inl ((List.mem_cons.mp (h.resolve_right hb.2)).resolve_left fun e => hb.1 e.symm)

theorem clearLive_eq (s : State) : clearLive s = allCntBlks.foldl (clearIf s.live) s := rfl

/-! ## Entering MAINT (R68) -/

/-- What entering MAINT brings after GCTL has changed: the tick ends, the sensor ports idle, a pending commit is withdrawn and a
capture ends. -/
structure MaintBrought (s t : State) : Prop where
  frame : t = { s with
    sch := t.sch, tck := t.tck, outb := t.outb, eths := t.eths, cams := t.cams, spis := t.spis, flt := t.flt, img := t.img, inc := t.inc }
  due : t.flt.due = s.flt.due

theorem MaintBrought.trans {s t u : State} (h : MaintBrought s t) (k : MaintBrought t u) : MaintBrought s u :=
  ⟨by rw [k.frame, h.frame], k.due.trans h.due⟩

theorem maintBrought_endTick (s : State) : MaintBrought s (endTick s) := by
  obtain ⟨c, h⟩ := dropTasks_frame s
  unfold endTick stopCompute
  rw [h]
  exact ⟨rfl, rfl⟩

/-- Conditions that end touch the warden's levels and their records. -/
theorem foldl_levelOff_frame (l : List Nat) (s : State) :
    ∃ x : BitVec 256 × List FaultRec, l.foldl (fun t d => levelOff d t) s = { s with flt.active := x.1, flt.records := x.2 } :=
  foldl_frame (fun (x : BitVec 256 × List FaultRec) s => { s with flt.active := x.1, flt.records := x.2 })
    (fun s => ⟨(s.flt.active, s.flt.records), rfl⟩) (fun _ _ _ => rfl) (fun _ _ => ⟨(_, _), rfl⟩) l s

theorem maintBrought_idlePorts (s : State) : MaintBrought s (idlePorts s) := by
  unfold idlePorts
  dsimp only
  obtain ⟨x, h⟩ := foldl_levelOff_frame [66, 67, 68, 69] _
  rw [h]
  exact ⟨rfl, rfl⟩

theorem maintBrought_withdrawCommit (s : State) : MaintBrought s (withdrawCommit s) := by
  unfold withdrawCommit
  split
  · exact ⟨rfl, rfl⟩
  · exact ⟨rfl, rfl⟩

theorem maintBrought_vitLeave (s : State) : MaintBrought s (vitLeave s) := by
  obtain ⟨i, h⟩ := vitLeave_frame s
  rw [h]
  exact ⟨rfl, rfl⟩

/-- No commit is pending once it has been withdrawn. -/
theorem stage_withdrawCommit (s : State) : (withdrawCommit s).img.stage ≠ 4 := by
  unfold withdrawCommit
  split
  · exact (by decide : (3 : BitVec 3) ≠ 4)
  · next h => exact h

theorem img_vitLeave (s : State) : (vitLeave s).img = s.img := by
  obtain ⟨i, h⟩ := vitLeave_frame s
  rw [h]

theorem enter_maint_eq {s : State} (h : s.mode ≠ .maint) :
    enter .maint s = vitLeave (withdrawCommit (idlePorts (endTick (entering .maint s)))) := by
  simp only [enter, if_neg h, Mode.ticks, Bool.false_eq_true, if_false]
  rfl

theorem enter_maint_brought {s : State} (h : s.mode ≠ .maint) :
    MaintBrought (entering .maint s) (enter .maint s) ∧ (enter .maint s).img.stage ≠ 4 := by
  rw [enter_maint_eq h, img_vitLeave]
  exact ⟨((maintBrought_endTick _).trans (maintBrought_idlePorts _)).trans
    ((maintBrought_withdrawCommit _).trans (maintBrought_vitLeave _)), stage_withdrawCommit _⟩

end Sys2Proof.Machine

namespace Sys2Proof
open Machine

section
variable {s : State} {src : Source}

theorem halt_permitted (hs : Settled s) (hh : s.hears src = true) (hm : s.mode = .run ∨ s.mode = .degraded) :
    ∃ t, exec (.halt src) s = .next t ∧
      EnterKeeps s t ∧ t.grd = s.grd ∧ t.arc = s.arc ∧ t.crd = s.crd ∧ t.clk = s.clk ∧ t.tst = s.tst ∧ t.mem = s.mem ∧ t.freeCtr = s.freeCtr ∧
      t.mode = .armed ∧ t.gctl.held = true ∧ t.gctl.cmdStat = 0 ∧ t.gctl.cmdEcho = 0x01 ∧ t.tck = s.tck := by
  have legal : gctlLegal gHalt s.mode = true := by
    rw [gctlLegal_halt]
    obtain h | h := hm
    · rw [h]; rfl
    · rw [h]; rfl
  have away : s.mode ≠ .armed := by
    obtain h | h := hm
    · simp [h]
    · simp [h]
  have made : exec (.halt src) s = done (gctlStat gHalt (doHalt src s).2 (doHalt src s).1) :=
    congrArg done (gctlCmd_permitted hh legal _)
  obtain ⟨b, p, l, o, c, j, a, i, x, e⟩ := enter_armed_frame away
  rw [doHalt, e] at made
  exact ⟨_, made.trans (done_of_settled hs), ⟨rfl, rfl, rfl, rfl, rfl, rfl, rfl, rfl, rfl⟩, rfl, rfl, rfl, rfl, rfl, rfl, rfl, rfl, rfl,
    rfl, rfl, rfl⟩

theorem go_permitted (hs : Settled s) (hh : s.hears src = true) (hm : s.mode = .armed) :
    exec (.go src) s = .next { s with gctl.held := false, gctl.cmdStat := 0, gctl.cmdEcho := 0x02 } := by
  have legal : gctlLegal gGo s.mode = true := by rw [hm]; rfl
  exact (congrArg done (gctlCmd_permitted hh legal _)).trans (done_of_gctl hs _)

theorem recover_permitted (hs : Settled s) (hh : s.hears src = true) (hm : s.mode = .safe) (hr : ∀ r ∈ s.flt.records, r.react ≠ 3) :
    ∃ t, exec (.recover src) s = .next t ∧
      EnterKeeps s t ∧ t.arc = s.arc ∧ t.crd = s.crd ∧ t.clk = s.clk ∧ t.tst = s.tst ∧ t.freeCtr = s.freeCtr ∧
      t.mode = .armed ∧ t.gctl.held = false ∧ t.gctl.cmdStat = 0 ∧ t.grd.frontEmpty = true := by
  have legal : gctlLegal gRecover s.mode = true := by rw [hm]; rfl
  have away : s.mode ≠ .armed := by simp [hm]
  have free : s.flt.records.any (fun r => r.react = 3) = false := by simpa using hr
  have made : exec (.recover src) s = done (gctlStat gRecover (doRecover s).2 (doRecover s).1) :=
    congrArg done (gctlCmd_permitted hh legal _)
  obtain ⟨b, p, l, o, c, j, a, i, x, e⟩ := enter_armed_frame away
  rw [doRecover, free, if_neg Bool.false_ne_true, e] at made
  exact ⟨_, made.trans (done_of_settled hs), ⟨rfl, rfl, rfl, rfl, rfl, rfl, rfl, rfl, rfl⟩, rfl, rfl, rfl, rfl, rfl, rfl, rfl, rfl, rfl⟩

theorem recover_busy (hs : Settled s) (hh : s.hears src = true) (hm : s.mode = .safe) (hr : ∃ r ∈ s.flt.records, r.react = 3) :
    exec (.recover src) s = .next { s with gctl.cmdStat := 0x01, gctl.cmdEcho := 0x03 } := by
  have legal : gctlLegal gRecover s.mode = true := by rw [hm]; rfl
  have held : s.flt.records.any (fun r => r.react = 3) = true := by simpa using hr
  have busy : doRecover s = (s, stBusy) := if_pos held
  have made : exec (.recover src) s = done (gctlStat gRecover (doRecover s).2 (doRecover s).1) :=
    congrArg done (gctlCmd_permitted hh legal _)
  rw [busy] at made
  exact made.trans (done_of_gctl hs _)

theorem enterMaint_permitted (hs : Settled s) (hh : s.hears src = true) (hm : s.mode = .armed ∨ s.mode = .safe ∨ s.mode = .quarantine) :
    ∃ t, exec (.enterMaint src) s = .next t ∧
      EnterKeeps s t ∧ t.grd = s.grd ∧ t.arc = s.arc ∧ t.crd = s.crd ∧ t.clk = s.clk ∧ t.tst = s.tst ∧ t.mem = s.mem ∧ t.freeCtr = s.freeCtr ∧
      t.mode = .maint ∧ t.gctl.cmdStat = 0 ∧ t.gctl.cmdEcho = 0x04 ∧ t.img.stage ≠ 4 := by
  have away : s.mode ≠ .maint := by
    obtain h | h | h := hm
    · simp [h]
    · simp [h]
    · simp [h]
  have made : exec (.enterMaint src) s = done (gctlStat gMaint stOk (enter .maint s)) :=
    congrArg done (gctlCmd_permitted hh (gctlLegal_maint hm) _)
  obtain ⟨⟨frame, due⟩, stage⟩ := enter_maint_brought away
  obtain ⟨b, p, l, o, e⟩ := entering_frame .maint s
  generalize enter .maint s = u at made frame due stage
  rw [e] at frame due
  have settled : Settled (gctlStat gMaint stOk u) := by
    refine ⟨due.trans hs.1, ?_⟩
    rw [frame]
    exact hs.2
  refine ⟨_, made.trans (done_of_settled settled), ?_⟩
  rw [frame]
  exact ⟨⟨rfl, rfl, rfl, rfl, rfl, rfl, rfl, rfl, rfl⟩, rfl, rfl, rfl, rfl, rfl, rfl, rfl, rfl, rfl, rfl, stage⟩

theorem clrCnt_clears (hs : Settled s) (hh : s.hears src = true) :
    ∃ t, exec (.clrCnt src) s = .next t ∧
      t = { s with
        gctl := t.gctl, tim := t.tim, tck := t.tck, sch := t.sch, cvt := t.cvt, cams := t.cams, eths := t.eths, cans := t.cans
        spis := t.spis, aln := t.aln, ego := t.ego, grd := t.grd, outb := t.outb, arc := t.arc, crd := t.crd, inc := t.inc
        ldg := t.ldg, fab := t.fab, pwr := t.pwr, clk := t.clk, flt := t.flt, tst := t.tst, hst := t.hst } ∧
      t.gctl.rejectCnt = 0 ∧ t.gctl.lastReject = 0 ∧ t.gctl.cmdStat = 0 ∧ t.mode = s.mode ∧
      (s.live 6 = true → t.flt.cnt = Vector.replicate 6 0) ∧ t.tim.dev = s.tim.dev := by
  obtain ⟨ho, hr⟩ := hears_answers hh
  let r : State := { s with gctl.rejectCnt := 0, gctl.lastReject := 0 }
  have made : exec (.clrCnt src) s = done (gctlStat gClrCnt stOk (clearLive r)) :=
    congrArg done (gctlCmd_permitted hh (gctlLegal_clrCnt ho hr) _)
  have moved : CountersMoved r (clearLive r) := countersMoved_foldl_clearIf r.live allCntBlks r
  have cleared (hl : r.live 6 = true) : (clearLive r).flt.cnt = Vector.replicate 6 0 :=
    fltCnt_foldl_clearIf hl allCntBlks r (.inl (by decide))
  generalize clearLive r = u at made moved cleared
  have settled : Settled u := moved.settled hs
  obtain ⟨frame, dev, -, -⟩ := moved
  have gctl : u.gctl = r.gctl := by rw [frame]
  refine ⟨_, made.trans (done_of_settled settled), ?_, ?_, ?_, rfl, ?_, cleared, dev⟩
  · rw [frame]; rfl
  · exact congrArg Gctl.rejectCnt gctl
  · exact congrArg Gctl.lastReject gctl
  · change u.gctl.mode = s.gctl.mode
    rw [gctl]

theorem halt_refused (hs : Settled s) (hh : s.hears src = true) (hr : s.mode ≠ .run) (hd : s.mode ≠ .degraded) :
    exec (.halt src) s = .next { s with
      gctl.cmdStat := 0x02, gctl.cmdEcho := 0x01, gctl.rejectCnt := satInc s.gctl.rejectCnt
      gctl.lastReject := BitVec.ofNat 32 (s.mode.code.toNat * 0x10000000 + srcCode src * 0x4000000 + 0x1000000 + 1) } := by
  have illegal : gctlLegal gHalt s.mode = false := by
    rw [gctlLegal_halt]
    revert hr hd
    cases s.mode <;> decide
  have made : exec (.halt src) s = done (rejectCmd src 0x20 gHalt.toNat (gctlStat gHalt stNotInState s)) :=
    congrArg done (gctlCmd_refused hh illegal _)
  rw [rejectCmd_gctlStat] at made
  exact made.trans (done_of_gctl hs _)

theorem registerWrite_refused {a row : Nat} {v : Word} (hs : Settled s) (hh : s.hears src = true) (h4 : a % 4 = 0)
    (hc : cmdWrite src a v = none) (ha : s.absent a = false) (hb : blockOf a = some row) (h0 : row ≠ 0)
    (hr : s.live row = false ∨ rowLegal row s.mode = false) :
    exec (.registerWrite src a v true) s = .next { s with
      gctl.rejectCnt := satInc s.gctl.rejectCnt
      gctl.lastReject := BitVec.ofNat 32 (s.mode.code.toNat * 0x10000000 + srcCode src * 0x4000000 + a) } := by
  have inside : a < 0x1000000 := by have := lt_of_blockOf hb; omega
  have made : exec (.registerWrite src a v true) s = done (regWrite src a v s) := rfl
  rw [regWrite_plain hh h4 hc hb h0, judged_rejected hh ha hb hr, rejectReg_eq inside] at made
  exact made.trans (done_of_gctl hs _)

end

/-- Settles O18: each command is judged by its state, and its own lemma says what it brings or what its rejection leaves. -/
theorem gctlCommands : Obligations.GctlCommands :=
  ⟨fun _ _ => halt_permitted, fun _ _ => go_permitted, fun _ _ => recover_permitted, fun _ _ => recover_busy,
    fun _ _ => enterMaint_permitted, fun _ _ => clrCnt_clears, fun _ _ => halt_refused, fun _ _ _ _ _ => registerWrite_refused⟩

end Sys2Proof

/-! # LOAD over an erase that stands still: a statement that fails -/
namespace Sys2Proof.Machine

/-- A vector that is raised leaves the pending bits of the others. -/
theorem msixPend_msix_other {v w : Nat} (h : w ≠ v) (en : Bool) (s : State) :
    (msix v en s).hst.msixPend.getLsbD w = s.hst.msixPend.getLsbD w := by
  unfold msix
  split_ifs
  · rfl
  · simp [BitVec.getLsbD_or, BitVec.getLsbD_twoPow, Ne.symm h]
  · rfl

/-- What the warden brings in LOAD where it takes a detector without a fence and no reset comes of it: its own state, and vector 0. -/
structure WardenTook (s t : State) : Prop where
  frame : t = { s with gctl := { s.gctl with degWarden := t.gctl.degWarden }, flt := t.flt, hst := t.hst, out := t.out }
  due : t.flt.due = s.flt.due
  pend : ∀ v ≠ 0, t.hst.msixPend.getLsbD v = s.hst.msixPend.getLsbD v

theorem WardenTook.trans {s t u : State} (h : WardenTook s t) (k : WardenTook t u) : WardenTook s u :=
  ⟨by rw [k.frame, h.frame], k.due.trans h.due, fun v hv => (k.pend v hv).trans (h.pend v hv)⟩

theorem WardenTook.flt {s : State} {f : Flt} (h : f.due = s.flt.due) : WardenTook s { s with flt := f } := ⟨rfl, h, fun _ _ => rfl⟩

theorem WardenTook.degWarden (s : State) (b : Bool) : WardenTook s { s with gctl.degWarden := b } := ⟨rfl, rfl, fun _ _ => rfl⟩

theorem wardenTook_msix (en : Bool) (s : State) : WardenTook s (msix 0 en s) where
  frame := by rw [msix_frame]
  due := by rw [msix_frame]
  pend := fun _ hv => msixPend_msix_other hv en s

theorem wardenTook_recordOcc (d level : Nat) (line esc act : Bool) (detail : Word) (held : Bool) (s : State) :
    WardenTook s (recordOcc d level line esc act detail held s) := by
  obtain ⟨f, h, due, -⟩ := recordOcc_frame d level line esc act detail held s
  rw [h]
  exact .flt due

/-- An occurrence of a detector that is no core's. -/
theorem wardenTook_occur {d : Nat} (hd : 48 ≤ d) (line act : Bool) (detail : Word) (s : State) :
    WardenTook s (occur d line act detail s).1 := by
  unfold occur
  extract_lets _ counted _ t _
  have h1 : WardenTook s counted := .flt rfl
  have ht : t = counted := if_neg (by simp [Nat.not_lt.mpr hd])
  rw [← ht] at h1
  clear_value t
  split
  extract_lets esc level escalated held
  have h2 : WardenTook t escalated := by
    unfold escalated
    split
    · exact .flt rfl
    · exact .flt rfl
  exact h1.trans (h2.trans (wardenTook_recordOcc ..))

/-- The pulse of a block in an event detector is an occurrence. -/
theorem wardenTook_takePattern {d : Nat} (hd : 48 ≤ d) (hl : isLevel d = false) (detail : Word) (s : State) :
    WardenTook s (takePattern true { det := d, p := false, n := true, detail := detail } s).1 := by
  let t : State := { s with flt.active := setBit s.flt.active d (s.flt.line.getLsbD d)
                            flt.line := setBit s.flt.line d (s.flt.line.getLsbD d) }
  have e : takePattern true { det := d, p := false, n := true, detail := detail } s = occur d false (s.flt.line.getLsbD d) detail t := by
    simp [takePattern, hl, t]
  have h1 : WardenTook s t := .flt rfl
  rw [e]
  exact h1.trans (wardenTook_occur hd ..)

/-- A detector without a resource has nothing to fence (R355). -/
theorem fenceOf_of_noResource {d : Nat} (hd : 74 ≤ d) (s : State) : fenceOf d s = s := by
  simp (disch := omega) only [fenceOf, if_neg]

/-- A part in internal scan takes no reset of the warden (R384). -/
theorem resetTo_warden_of_scan {s : State} (h : s.pins.scan.isSome = true) : resetTo rstWarden s = s :=
  if_pos (by rw [h]; rfl)

theorem vitTrigger_of_load {s : State} (h : s.mode = .load) (cause : Nat) (detail : BitVec 16) (level : Byte) (origin : BitVec 64) :
    vitTrigger cause detail level origin s = s := by
  simp [vitTrigger, vitTriggerAt, h]

/-- In LOAD a reaction other than a reset has nothing to leave (R356). -/
theorem wardenTook_react {d : Nat} (hd : 74 ≤ d) (level : Nat) {s : State} (hm : s.mode = .load) (hs : s.pins.scan.isSome = true) :
    WardenTook s (react [(d, level)] s) := by
  unfold react
  extract_lets top det fenced counted raised _ judged reacted
  have h1 : WardenTook s fenced := by
    unfold fenced
    simp only [List.filter_cons, List.filter_nil]
    split
    · rw [List.foldl_cons, List.foldl_nil, fenceOf_of_noResource hd]
      exact .flt rfl
    · exact .flt rfl
  have h2 : WardenTook fenced counted := by
    unfold counted
    simp only [List.filter_cons, List.filter_nil]
    split
    · exact .flt rfl
    · exact .flt rfl
  have h3 : WardenTook counted raised := by
    unfold raised
    split
    · exact wardenTook_msix ..
    · exact .flt rfl
  have h4 : WardenTook s judged := ((h1.trans h2).trans h3).trans (.degWarden ..)
  clear_value judged
  have mode : judged.mode = .load := by
    rw [h4.frame]; exact hm
  have scan : judged.pins.scan.isSome = true := by
    rw [h4.frame]; exact hs
  have h5 : reacted = judged := by
    unfold reacted
    split
    · exact resetTo_warden_of_scan scan
    · split
      · simp only [goSafe, mode]
      · split
        · exact if_neg (by simp [mode])
        · rfl
  rw [h5, vitTrigger_of_load mode, ite_self]
  exact h4

theorem wardenTook_takePatterns {d : Nat} (hd : 74 ≤ d) (hl : isLevel d = false) (hx : detExists d = true) (detail : Word) {s : State}
    (hm : s.mode = .load) (hs : s.pins.scan.isSome = true) :
    WardenTook s (takePatterns true [{ det := d, p := false, n := true, detail := detail }] s) := by
  have h1 := wardenTook_takePattern (show 48 ≤ d by omega) hl detail s
  generalize hp : takePattern true { det := d, p := false, n := true, detail := detail } s = p at h1
  obtain ⟨t, got⟩ := p
  change WardenTook s t at h1
  have mode : t.mode = .load := by
    rw [h1.frame]; exact hm
  have scan : t.pins.scan.isSome = true := by
    rw [h1.frame]; exact hs
  cases got with
  | none =>
    have e : takePatterns true [{ det := d, p := false, n := true, detail := detail }] s = t := by
      simp [takePatterns, hm, hx, hp, react]
    rw [e]
    exact h1
  | some level =>
    have e : takePatterns true [{ det := d, p := false, n := true, detail := detail }] s = react [(d, level)] t := by
      simp [takePatterns, hm, hx, hp]
    rw [e]
    exact h1.trans (wardenTook_react hd level mode scan)

/-- In LOAD and in internal scan the warden takes a detector without a resource, and raises vector 0 alone. -/
theorem settle_pending {d : Nat} {detail : Word} (hd : 74 ≤ d) (hl : isLevel d = false) (hx : detExists d = true) {s : State}
    (hm : s.mode = .load) (hs : s.pins.scan.isSome = true) (hq : s.fab.outq = []) (due : s.flt.due = [(d, detail)]) {v : Nat} (hv : v ≠ 0) :
    (settle s).hst.msixPend.getLsbD v = s.hst.msixPend.getLsbD v := by
  have took := wardenTook_takePatterns hd hl hx detail (s := { s with flt.due := [] }) hm hs
  have e : settle s = flushPorts (settleN 3 (takePatterns true [{ det := d, p := false, n := true, detail := detail }] { s with flt.due := [] })) := by
    rw [settle, settleN_succ_of_due due]
  generalize takePatterns true _ _ = t at took e
  have settled : Settled t := by
    refine ⟨took.due, ?_⟩
    rw [took.frame]
    exact hq
  have rest : flushPorts (settleN 3 t) = t := by simp [settleN, flushPorts, settled.1, settled.2]
  rw [e, rest]
  exact took.pend v hv

/-! ## The counterexample -/

/-- What LOAD judges a twin by: the controller has read the selector, and its registers show it (R83). -/
def selectorRead (ecc : EccView) (s : State) : State := showSelector (ctlRead 0 0x4000 (s.showing ecc))

/-- A twin whose header does not stand fails with its reason (R83). -/
theorem exec_loadDone_of_headerFail {ecc : EccView} {s : State} {f : CheckFail} (hm : s.mode = .load)
    (hf : headerFail (twinToTry (selectorRead ecc s)) (selectorRead ecc s) = some f) :
    exec (.loadDone ecc) s = done (twinFails (twinToTry (selectorRead ecc s)) f
      (streamS (twinBase (twinToTry (selectorRead ecc s))) 32 (selectorRead ecc s))) := by
  have e : exec (.loadDone ecc) s = execLoadDone ecc s := rfl
  rw [e, execLoadDone, if_neg (not_not_intro hm)]
  unfold selectorRead at hf ⊢
  generalize showSelector (ctlRead 0 0x4000 (s.showing ecc)) = r at hf ⊢
  simp only [checkTwin, hf]

/-- A device in LOAD and in internal scan with blank boot twins, over an erase that a device agent has stopped and whose
suspension the host awaits (R242). No run from reset comes to it, since a host erases from ARMED on; no premise of
`Obligations.HoldSelftestLoad` leaves it out. -/
def loadOverErase : State := { State.reset with
  gctl.mode := .load
  pins := { scan := some 0 }
  arc := { doneIntEn := true, erase := some { owner := .host .pcie, code := 0x20, bank := false, index := 8, pendHost := true, byDevice := true } } }

end Sys2Proof.Machine

namespace Sys2Proof
open Machine

/-- The stream of the header lets the suspension take effect (R224, R242), which raises vector 5. -/
theorem loadDone_loadOverErase : ∃ t, exec (.loadDone []) loadOverErase = .next t ∧ t.hst.msixPend.getLsbD 5 = true :=
  ⟨_, exec_loadDone_of_headerFail (f := (0x01, stBadArg)) (by decide) (by decide +kernel), by decide +kernel⟩

/-- Refutes O17 in its clause on the first twin that fails: from `loadOverErase` LOAD_DONE also ends a suspension, and leaves
the pending bit of its vector, which the clause's state has as before and the warden does not raise. The clause lacks the
premise that no erase stands. -/
theorem not_holdSelftestLoad : ¬ Obligations.HoldSelftestLoad := by
  rintro ⟨-, -, -, -, -, -, -, -, -, otherTwin⟩
  obtain ⟨u, hu, frame, mode, -, -, -, due⟩ := otherTwin loadOverErase ⟨rfl, rfl⟩ (by decide) rfl (by decide +kernel) (by decide +kernel)
  obtain ⟨t, ht, raised⟩ := loadDone_loadOverErase
  have made : settle u = t := Host.Outcome.next.inj (hu.symm.trans ht)
  have kept := settle_pending (v := 5) (by decide) (by decide) (by decide) mode (by rw [frame]; rfl) (by rw [frame]; rfl) due (by decide)
  have hst : u.hst = loadOverErase.hst := by rw [frame]
  rw [made, raised, hst] at kept
  exact absurd kept (by decide)

end Sys2Proof

/-! # A commit that raises a detector: a statement that fails -/
namespace Sys2Proof.Machine

/-- Device `k` of a ring of 18, whose neighbours are those before and after it (R306). Only the first and the last, which is the
manager, have addresses. -/
def ringLsa (k : Nat) : LsaRec := {
  lsa := { serial := BitVec.ofNat 64 (k + 1), seq := 1, priority := 0, mgrSel := false, standbyOk := false
           nbrs := [BitVec.ofNat 64 ((k + 17) % 18 + 1), BitVec.ofNat 64 ((k + 1) % 18 + 1)] }
  addr := if k = 0 then 1 else if k = 17 then 2 else 0xFFF
  mono := 0 }

/-- The image in force, which uses the ports to both neighbours. -/
def ringImage : Image := {
  tick := { period := 20000, gather := 5000, emit := 15000, quiet := 18000 }
  fabric := some { addrMode := 1, addr := 1, portEn := 3 } }

/-- The candidate, which leaves out the port to the manager and maps detector 79 to HOLD (R303, R353). -/
def cutImage : Image := { ringImage with
  fabric := some { addrMode := 1, addr := 1, portEn := 2 }
  faultMap := { entries := List.replicate 79 {} ++ [{ react := 4 }] } }

/-- The first device of the ring, a worker in ARMED whose commit of `cutImage` waits for the boundary. -/
def commitCutsRing : State := { State.reset with
  otp := { State.reset.otp with serial := 1 }
  gctl := { mode := .armed, everArmed := true }
  img := { run := some ringImage, stage := 4, cand := some cutImage }
  tim := { mono := 19000000, dev := 19000000 }
  tck := { ticked := true, eMono := 15000000, endMono := 20000000 }
  fab := { role := roleWorker, addr := 1, mgr := 2, db := (List.range 18).map ringLsa
           ports := #v[{ pstate := 3, nbSerial := 18, nbReady := true }, { pstate := 3, nbSerial := 2, nbReady := true }, {}, {}] } }

/-- The way to the manager now leads round the ring, over 17 hops: DEEP (R314) raises detector 79, and HOLD under the new
map is a reset, after which no image runs (R62, R353). -/
theorem commitCutsRing_resets : (settle (boundaryIf (fun s => s.img.stage = 4) commitCutsRing)).img.run = none := by
  decide +kernel

end Sys2Proof.Machine

namespace Sys2Proof
open Machine

/-- Refutes O9 in its clause on the commit that takes effect: from `commitCutsRing` the boundary brings the candidate into
force, and the warden, before the command ends, takes the detector that the commit has raised and resets the device, so
that no image runs. The clause lacks the premise that the commit raises no detector, or the form "settle u" for its state. -/
theorem not_commitAtBoundary : ¬ Obligations.CommitAtBoundary := by
  rintro ⟨takesEffect, -⟩
  obtain ⟨t, ht, -, -, -, -, -, -, -, -, hrun, -⟩ := takesEffect cutImage commitCutsRing (by decide) ⟨rfl, rfl⟩ ⟨rfl, rfl, rfl⟩
    rfl rfl rfl rfl (satCls_eq_satBase_of_defaultCores rfl) rfl rfl rfl rfl rfl (by decide +kernel)
  have made : settle (boundaryIf (fun s => s.img.stage = 4) commitCutsRing) = t := Host.Outcome.next.inj ht
  rw [← made, commitCutsRing_resets] at hrun
  exact nomatch hrun

end Sys2Proof

/-! # What reads of the archive leave, and what entries of the ledger leave

`State.unread` is what a read of the array cannot change: everything but the counts and reports of reads (R222 to R226), the selector registers that they fill (R218), and
the turns of the operation in progress (R242). `State.unposted` is what an entry of the ledger cannot change beyond the
turnstile itself. Each function has one lemma, in the order of the model's files. -/
namespace Sys2Proof.Machine

/-! ## Reads of the array -/

/-- The array without what reads count and show and what the turns of an erase set: the words, their headers and errors among
what stays. -/
def Arc.unread (a : Arc) : Arc :=
  { a with erase := none, stat := 0, echo := 0, done := false, cnt := Vector.replicate 8 0, eccMax := 0, eccWarned := false, eccUncorr := false,
           warnCnt := 0, uncorrCnt := 0, warnAddr := 0, uncorrAddr := 0, sBursts := 0, sPauses := 0, ctlLines := [], devUntil := 0
           selSeq := 0, selTwin := false, selSector := false, selWord := 0, selDigest := 0 }

/-- The state without what reads of the array may change. -/
def State.unread (s : State) : State := { s with arc := s.arc.unread, flt.due := [], hst := {}, out := [] }

/-- What the reads left alone gives the whole frame. -/
theorem frame_of_unread {s t : State} (h : t.unread = s.unread) :
    t = { s with arc := t.arc, flt := { s.flt with due := t.flt.due }, hst := t.hst, out := t.out } := by
  have e : t = { t.unread with arc := t.arc, flt := { t.unread.flt with due := t.flt.due }, hst := t.hst, out := t.out } := rfl
  rw [h] at e
  exact e

theorem arc_of_unread {s t : State} (h : t.unread = s.unread) : t.arc.unread = s.arc.unread := congrArg State.arc h

/-- What a reader of the words makes of the array does not depend on the rest. -/
theorem reader_of_unread {β : Type} (f : Arc → β) (hf : ∀ a, f a.unread = f a) {s t : State} (h : t.unread = s.unread) :
    f t.arc = f s.arc := by
  rw [← hf t.arc, arc_of_unread h, hf]

theorem words_of_unread {s t : State} (h : t.unread = s.unread) : t.arc.words = s.arc.words :=
  reader_of_unread Arc.words (fun _ => rfl) h

theorem readBytes_of_unread {s t : State} (h : t.unread = s.unread) : t.arc.readBytes = s.arc.readBytes :=
  reader_of_unread Arc.readBytes (fun _ => rfl) h

theorem uncorrIn_of_unread {s t : State} (h : t.unread = s.unread) : t.arc.uncorrIn = s.arc.uncorrIn :=
  reader_of_unread Arc.uncorrIn (fun _ => rfl) h

theorem classOf_unread (a : Arc) : a.unread.classOf = a.classOf := rfl

theorem recordAt_unread (a : Arc) : recordAt a.unread = recordAt a := by
  funext r i
  unfold recordAt Arc.isBlank
  rw [classOf_unread]

theorem recordsIn_of_unread {s t : State} (h : t.unread = s.unread) : recordsIn t.arc = recordsIn s.arc :=
  reader_of_unread recordsIn (fun a => by unfold recordsIn; rw [recordAt_unread]) h

@[simp] theorem unread_ite (c : Prop) [Decidable c] (s t : State) :
    (if c then s else t).unread = if c then s.unread else t.unread :=
  apply_ite ..

@[simp] theorem unread_foldl {α : Type} (f : State → α → State) (l : List α) (s : State)
    (h : ∀ t x, (f t x).unread = t.unread) : (l.foldl f s).unread = s.unread := by
  induction l generalizing s with
  | nil => rfl
  | cons x l ih => rw [List.foldl_cons, ih, h]

/-- An update of the array that names no word, header or error. -/
@[simp] theorem unread_arc (t : State) (a1 a2 a3 a4 a5 a6 a7 a8 a9 a10 a11 a12 a13 a14 a15 a16) :
    State.unread { t with arc := { t.arc with
      erase := a1, stat := a2, echo := a3, done := a4, cnt := a5, eccMax := a6, eccWarned := a7, eccUncorr := a8, warnCnt := a9,
      uncorrCnt := a10, warnAddr := a11, uncorrAddr := a12, sBursts := a13, sPauses := a14, ctlLines := a15, devUntil := a16 } } =
      t.unread :=
  rfl

@[simp] theorem raiseDet_unread (d : Nat) (w : Word) (s : State) : (raiseDet d w s).unread = s.unread := rfl

@[simp] theorem msix_unread (v : Nat) (en : Bool) (s : State) : (msix v en s).unread = s.unread := by
  unfold msix
  split_ifs <;> rfl

@[simp] theorem arcCount_unread (i : Nat) (s : State) : (arcCount i s).unread = s.unread := rfl

@[simp] theorem arcEnd_unread (code st : Byte) (s : State) : (arcEnd code st s).unread = s.unread := msix_unread ..

@[simp] theorem suspendNow_unread (e : ArcErase) (s : State) : (suspendNow e s).unread = s.unread := by
  simp [suspendNow]

@[simp] theorem arcNow_unread (s : State) : (arcNow s).unread = s.unread := by
  unfold arcNow
  extract_lets t
  have h : t.unread = s.unread := by
    unfold t
    split
    · simp
    · rfl
  split
  · split_ifs
    · exact (unread_arc ..).trans h
    · exact h
  · exact h

@[simp] theorem eccCorrected_unread (a n : Nat) (s : State) : (eccCorrected a n s).unread = s.unread := by
  simp [eccCorrected]

@[simp] theorem eccUncorrectable_unread (a : Nat) (s : State) : (eccUncorrectable a s).unread = s.unread := rfl

@[simp] theorem eccLine_unread (a : Nat) (s : State) : (eccLine a s).unread = s.unread := by simp [eccLine]

@[simp] theorem eccLines_unread (l : List Nat) (s : State) : (eccLines l s).unread = s.unread := by simp [eccLines]

@[simp] theorem streamCount_unread (bank : Bool) (n : Nat) (s : State) : (streamCount bank n s).unread = s.unread :=
  (unread_arc ..).trans (arcNow_unread s)

@[simp] theorem streamS_unread (a len : Nat) (s : State) : (streamS a len s).unread = s.unread := by simp [streamS]

@[simp] theorem fillCtl_unread (errs : List Nat) (l : Nat) (s : State) : (fillCtl errs l s).unread = s.unread := by
  simp [fillCtl]

@[simp] theorem ctlRead_unread (a len : Nat) (s : State) : (ctlRead a len s).unread = s.unread := by simp [ctlRead]

@[simp] theorem scanArea_unread (s : State) : (scanArea s).unread = s.unread := by simp [scanArea]

/-- A device agent that finds no host program in progress only makes an erase wait. -/
theorem agentTurn_unread {s : State} (h : s.arc.prog = none) : (agentTurn s).unread = s.unread := by
  have hp : (arcNow s).arc.prog = none := (reader_of_unread Arc.prog (fun _ => rfl) (arcNow_unread s)).trans h
  have hn : progEnds (arcNow s) = arcNow s := by simp [progEnds, hp]
  rw [agentTurn, hn]
  split
  · dsimp only
    split_ifs
    · exact arcNow_unread s
    · exact (unread_arc ..).trans (arcNow_unread s)
    · exact (unread_arc ..).trans (arcNow_unread s)
  · exact arcNow_unread s

@[simp] theorem showSelector_unread (s : State) : (showSelector s).unread = s.unread := by
  unfold showSelector
  split <;> rfl

theorem newestSelector_of_unread {s t : State} (h : t.unread = s.unread) : t.arc.newestSelector = s.arc.newestSelector :=
  reader_of_unread Arc.newestSelector (fun a => by unfold Arc.newestSelector; rw [classOf_unread]) h

end Sys2Proof.Machine

/-! # The mailbox controller's answers

What an answer adds to the request's queue (R398, R399), and what the marker of an exported record leaves alone (R281). -/
namespace Sys2Proof.Machine

/-! ## The answer to the request in execution -/

theorem Executes.settled {type : Byte} {r : MbxReq} {s : State} (h : Executes type r s) : Settled s := h.1

theorem Executes.current {type : Byte} {r : MbxReq} {s : State} (h : Executes type r s) : s.mbx.current = some r := h.2.2.1

theorem withReq_of_executes {type : Byte} {r : MbxReq} {s : State} (h : Executes type r s) (f : MbxReq → State → State) :
    withReq type f s = .next (settle (f r s)) := by
  obtain ⟨-, hm, hr, ht⟩ := h
  simp [withReq, hr, ht, hm, done]

theorem answerMbx_frame (st : Byte) (p : List Byte) (s : State) :
    answerMbx st p s =
      { s with hst := (answerMbx st p s).hst, mbx := (answerMbx st p s).mbx, out := (answerMbx st p s).out } := by
  unfold answerMbx putReply
  split
  · split
    · rw [msix_frame]
    · rfl
  · rfl

theorem replied_answerMbx {r : MbxReq} {s : State} (h : s.mbx.current = some r) (st : Byte) (p : List Byte) :
    Replied r st p s (answerMbx st p s) := by
  cases hr : r.src <;> simp [Replied, answerMbx, h, putReply, hr, State.replies]

/-- The same where the mailbox stands as it did in an earlier state. -/
theorem replied_answerMbx_of_mbx {r : MbxReq} {s t : State} (h : s.mbx.current = some r) (e : t.mbx = s.mbx) (st : Byte)
    (p : List Byte) : Replied r st p s (answerMbx st p t) := by
  have k := replied_answerMbx (s := t) (by rw [e]; exact h) st p
  unfold Replied State.replies at *
  rwa [e] at k

@[simp] theorem answerMbx_arc (st : Byte) (p : List Byte) (s : State) : (answerMbx st p s).arc = s.arc :=
  by rw [answerMbx_frame]
@[simp] theorem answerMbx_ldg (st : Byte) (p : List Byte) (s : State) : (answerMbx st p s).ldg = s.ldg :=
  by rw [answerMbx_frame]
@[simp] theorem answerMbx_otp (st : Byte) (p : List Byte) (s : State) : (answerMbx st p s).otp = s.otp :=
  by rw [answerMbx_frame]

theorem settled_answerMbx {s : State} (h : Settled s) (st : Byte) (p : List Byte) : Settled (answerMbx st p s) := by
  unfold Settled
  rw [answerMbx_frame]
  exact h

/-! ## Stored words -/

theorem wfind_cons (j k : Nat) (v : ArcWord) (l : List (Nat × ArcWord)) :
    wfind ((j, v) :: l) k = if j = k then some v else wfind l k := by
  by_cases h : j = k <;> simp [wfind, h]

theorem wfind_wput_same (l : List (Nat × ArcWord)) (k : Nat) (w : ArcWord) : wfind (wput l k w) k = some w := by
  induction l with
  | nil => simp [wput, wfind_cons]
  | cons e l ih =>
    obtain ⟨j, v⟩ := e
    unfold wput
    split_ifs with h h'
    · simp [wfind_cons]
    · simp [wfind_cons]
    · rw [wfind_cons, if_neg (Ne.symm h'), ih]

theorem wfind_wput_other {k i : Nat} (h : i ≠ k) (l : List (Nat × ArcWord)) (w : ArcWord) :
    wfind (wput l k w) i = wfind l i := by
  induction l with
  | nil => rw [wput, wfind_cons, if_neg h.symm]
  | cons e l ih =>
    obtain ⟨j, v⟩ := e
    unfold wput
    split_ifs with h1 h2
    · rw [wfind_cons, if_neg h.symm]
    · rw [wfind_cons, if_neg h.symm, wfind_cons, if_neg (h2 ▸ h.symm)]
    · simp only [wfind_cons, ih]

/-! ## What service of the array leaves alone -/

/-- Only the array, reports, what leaves the device and the mailbox may have changed. -/
def ArrayServed (s t : State) : Prop :=
  t = { s with arc := t.arc, flt := t.flt, hst := t.hst, mbx := t.mbx, out := t.out, freeCtr := t.freeCtr }

theorem ArrayServed.trans {s t u : State} (h : ArrayServed s t) (k : ArrayServed t u) : ArrayServed s u := by
  unfold ArrayServed at *
  rw [k, h]

theorem ArrayServed.inc {s t : State} (h : ArrayServed s t) : t.inc = s.inc := by
  unfold ArrayServed at h
  rw [h]

/-- The frame of the obligation: it lets the vitrine change too. -/
theorem ArrayServed.frame {s t : State} (h : ArrayServed s t) :
    t = { s with arc := t.arc, inc := t.inc, flt := t.flt, hst := t.hst, mbx := t.mbx, out := t.out, freeCtr := t.freeCtr } := by
  rw [h.inc]
  exact h

theorem ArrayServed.of_unread {s t : State} (h : t.unread = s.unread) : ArrayServed s t := by
  rw [frame_of_unread h]
  rfl

theorem ArrayServed.answerMbx (st : Byte) (p : List Byte) (s : State) : ArrayServed s (answerMbx st p s) := by
  rw [answerMbx_frame]
  rfl

theorem mbx_of_unread {s t : State} (h : t.unread = s.unread) : t.mbx = s.mbx := by
  rw [frame_of_unread h]

/-! ## A word of a device agent -/

/-- The bytes that a device agent's word holds once it is read back (R236). -/
theorem devPut_cases (a : Nat) (bytes : List Byte) (s : State) :
    ∃ b, (devPut a bytes s).arc.words = wput s.arc.words (a / 32) (.prog b) ∧ ArrayServed s (devPut a bytes s) ∧
      (devPut a bytes s).mbx = s.mbx := by
  unfold devPut devWord
  split_ifs
  · exact ⟨_, rfl, rfl, rfl⟩
  · exact ⟨_, rfl, rfl, rfl⟩

/-! ## INC_ACK -/

theorem incArea_scanArea (s : State) : (scanArea s).incArea = s.incArea := by
  rw [frame_of_unread (scanArea_unread s)]
  rfl

theorem find_scanArea (n : Nat) (s : State) :
    (recordsIn (scanArea s).arc (scanArea s).incArea).find? (fun f => f.seq = n) =
      (recordsIn s.arc s.incArea).find? (fun f => f.seq = n) := by
  rw [recordsIn_of_unread (scanArea_unread s), incArea_scanArea]

theorem ackRecord_of_absent {n : Nat} {s : State} (h : ∀ f ∈ recordsIn s.arc s.incArea, f.seq ≠ n) :
    ackRecord n s = (scanArea s, stNotPresent) := by
  have hn : (recordsIn s.arc s.incArea).find? (fun f => f.seq = n) = none := by simpa using h
  simp [ackRecord, find_scanArea, hn]

theorem ackRecord_of_unsealed {n : Nat} {f : FoundRec} {s : State}
    (h : (recordsIn s.arc s.incArea).find? (fun f => f.seq = n) = some f) (hs : f.isSealed = false) :
    ackRecord n s = (scanArea s, stBusy) := by
  simp [ackRecord, find_scanArea, h, hs]

theorem ackRecord_of_exported {n : Nat} {f : FoundRec} {s : State}
    (h : (recordsIn s.arc s.incArea).find? (fun f => f.seq = n) = some f) (hs : f.isSealed = true) (he : f.exported = true) :
    ackRecord n s = (scanArea s, stOk) := by
  simp [ackRecord, find_scanArea, h, hs, he]

/-- The state in which the marker of an exported record is programmed: the scan is made, and the array waits for the agent. -/
def ackTurn (s : State) : State := agentTurn { scanArea s with freeCtr := (scanArea s).freeCtr + 32 }

theorem arrayServed_ackTurn {s : State} (h : s.arc.prog = none) :
    ArrayServed s (ackTurn s) ∧ (ackTurn s).arc.words = s.arc.words ∧ (ackTurn s).mbx = s.mbx := by
  have hu := scanArea_unread s
  have hw := words_of_unread hu
  have hm := mbx_of_unread hu
  have ht : (ackTurn s).unread = State.unread { scanArea s with freeCtr := (scanArea s).freeCtr + 32 } :=
    agentTurn_unread ((reader_of_unread Arc.prog (fun _ => rfl) hu).trans h)
  have hc : ArrayServed (scanArea s) { scanArea s with freeCtr := (scanArea s).freeCtr + 32 } := rfl
  refine ⟨((ArrayServed.of_unread hu).trans hc).trans (ArrayServed.of_unread ht), ?_, ?_⟩
  · rw [words_of_unread ht]
    exact hw
  · rw [mbx_of_unread ht]
    exact hm

theorem ackRecord_of_sealed {n : Nat} {f : FoundRec} {s : State}
    (h : (recordsIn s.arc s.incArea).find? (fun f => f.seq = n) = some f) (hs : f.isSealed = true) (he : f.exported = false)
    (hv : s.inc.vstate ≠ .full) (hp : s.arc.prog = none) :
    ∃ bytes, ackRecord n s = (devPut (recWord s.incArea f.first 28) bytes (ackTurn s), stOk) := by
  refine ⟨(List.range 32).map (fun i => Config.freeByte ((scanArea s).freeCtr + i)), ?_⟩
  have hi (a : Nat) (b : List Byte) : (devPut a b (ackTurn s)).inc = s.inc := by
    obtain ⟨-, -, hd, -⟩ := devPut_cases a b (ackTurn s)
    exact ((arrayServed_ackTurn hp).1.trans hd).inc
  unfold ackRecord
  dsimp only
  rw [find_scanArea, h, incArea_scanArea]
  simp only [hs, he]
  exact if_neg fun hc => hv (hi .. ▸ hc)

theorem exec_incAck (s : State) :
    exec .incAck s = withReq 0x22 (fun r s => answerMbx (ackRecord (at32 r.msg.payload 0) s).2 [] (ackRecord (at32 r.msg.payload 0) s).1) s :=
  rfl

/-- An answer that follows the scan alone leaves every word and the vitrine. -/
theorem incAck_of_scan {r : MbxReq} {s : State} {st : Byte} (h : Executes 0x22 r s)
    (ha : ackRecord (at32 r.msg.payload 0) s = (scanArea s, st)) :
    ∃ u, exec .incAck s = .next (settle u) ∧
      u = { s with arc := u.arc, inc := u.inc, flt := u.flt, hst := u.hst, mbx := u.mbx, out := u.out, freeCtr := u.freeCtr } ∧
      Replied r st [] s u ∧ u.arc.words = s.arc.words ∧ u.inc = s.inc := by
  have hu := scanArea_unread s
  have hf : ArrayServed s (answerMbx st [] (scanArea s)) := (ArrayServed.of_unread hu).trans (ArrayServed.answerMbx ..)
  refine ⟨answerMbx st [] (scanArea s), ?_, hf.frame, replied_answerMbx_of_mbx h.current (mbx_of_unread hu) .., ?_, hf.inc⟩
  · rw [exec_incAck, withReq_of_executes h, ha]
  · rw [answerMbx_arc, words_of_unread hu]

/-- The marker's word is programmed and nothing else of the array's contents changes. -/
theorem incAck_of_sealed {r : MbxReq} {f : FoundRec} {s : State} (h : Executes 0x22 r s)
    (hf : (recordsIn s.arc s.incArea).find? (fun f => f.seq = at32 r.msg.payload 0) = some f) (hs : f.isSealed = true)
    (he : f.exported = false) (hv : s.inc.vstate ≠ .full) (hp : s.arc.prog = none) :
    ∃ u, exec .incAck s = .next (settle u) ∧
      u = { s with arc := u.arc, inc := u.inc, flt := u.flt, hst := u.hst, mbx := u.mbx, out := u.out, freeCtr := u.freeCtr } ∧
      Replied r 0x00 [] s u ∧ (wfind u.arc.words (recWord s.incArea f.first 28 / 32)).isSome = true ∧ u.inc = s.inc ∧
      ∀ k, k ≠ recWord s.incArea f.first 28 / 32 → wfind u.arc.words k = wfind s.arc.words k := by
  obtain ⟨bytes, ha⟩ := ackRecord_of_sealed hf hs he hv hp
  obtain ⟨hts, htw, htm⟩ := arrayServed_ackTurn hp
  obtain ⟨b, hw, hd, hm⟩ := devPut_cases (recWord s.incArea f.first 28) bytes (ackTurn s)
  have hu := (hts.trans hd).trans (ArrayServed.answerMbx stOk [] _)
  rw [htw] at hw
  refine ⟨_, ?_, hu.frame, replied_answerMbx_of_mbx h.current (hm.trans htm) .., ?_, hu.inc, fun k hk => ?_⟩
  · rw [exec_incAck, withReq_of_executes h, ha]
  · rw [answerMbx_arc, hw, wfind_wput_same]
    rfl
  · rw [answerMbx_arc, hw, wfind_wput_other hk]

/-! ## FLOOR_RAISE and a refused LDG_ACK -/

theorem exec_floorRaise (s : State) : exec .floorRaise s = withReq 0x40 floorRaise s := rfl

/-- The floor that FLOOR_RAISE leaves. -/
theorem toNat_raised (f : BitVec 16) (v : Nat) :
    (if f.toNat < v % 65536 then BitVec.ofNat 16 (v % 65536) else f).toNat = max f.toNat (v % 65536) := by
  split_ifs with h
  · simp only [BitVec.toNat_ofNat]
    omega
  · omega

theorem floorRaise_of_le {r : MbxReq} {s : State} (h : Executes 0x40 r s) (hr : s.img.run.isSome = true)
    (hv : at32 r.msg.payload 0 % 65536 ≤ s.im.hdr.secVer) :
    ∃ t, exec .floorRaise s = .next t ∧ t = { s with otp := t.otp, hst := t.hst, mbx := t.mbx, out := t.out } ∧
      Replied r 0x00 [] s t ∧ t.otp.floor.toNat = max s.otp.floor.toNat (at32 r.msg.payload 0 % 65536) ∧ SameFuses s t ∧
      t.otp.keysOff = s.otp.keysOff := by
  let v := at32 r.msg.payload 0 % 65536
  let s' := { s with otp.floor := if s.otp.floor.toNat < v then BitVec.ofNat 16 v else s.otp.floor }
  have hf : floorRaise r s = answerMbx stOk [] s' := by simp [floorRaise, hr, hv, s', v]
  have hs' : Settled s' := h.settled
  refine ⟨answerMbx stOk [] s', ?_, ?_, replied_answerMbx_of_mbx h.current (t := s') rfl .., ?_, ?_, ?_⟩
  · rw [exec_floorRaise, withReq_of_executes h, hf]
    exact done_of_settled (settled_answerMbx hs' ..)
  · rw [answerMbx_frame]
  · rw [answerMbx_otp]
    exact toNat_raised ..
  · simp [SameFuses, s']
  · rw [answerMbx_otp]

theorem floorRaise_of_lt {r : MbxReq} {s : State} (h : Executes 0x40 r s)
    (hv : s.im.hdr.secVer < at32 r.msg.payload 0 % 65536) :
    ∃ t, exec .floorRaise s = .next t ∧ t = { s with otp := t.otp, hst := t.hst, mbx := t.mbx, out := t.out } ∧
      Replied r 0x03 [] s t ∧ t.otp = s.otp := by
  have hf : floorRaise r s = answerMbx stBadArg [] s := by simp [floorRaise, Nat.not_le.mpr hv]
  refine ⟨answerMbx stBadArg [] s, ?_, ?_, replied_answerMbx h.current .., answerMbx_otp ..⟩
  · rw [exec_floorRaise, withReq_of_executes h, hf]
    exact done_of_settled (settled_answerMbx h.settled ..)
  · rw [answerMbx_frame]

theorem exec_ldgAck (s : State) :
    exec .ldgAck s = withReq 0x31 (fun r s => answerMbx (ldgAck (at32 r.msg.payload 0) s).2 [] (ldgAck (at32 r.msg.payload 0) s).1) s :=
  rfl

theorem ldgAck_of_outside {r : MbxReq} {s : State} (h : Executes 0x31 r s) (hl : s.ldg.lstate = 2)
    (hn : at32 r.msg.payload 0 < s.ldg.ackedSeq.toNat ∨ s.ldg.seq.toNat < at32 r.msg.payload 0) :
    ∃ t, exec .ldgAck s = .next t ∧
      t = { s with arc := t.arc, ldg := t.ldg, flt := t.flt, hst := t.hst, mbx := t.mbx, out := t.out, freeCtr := t.freeCtr } ∧
      Replied r 0x03 [] s t ∧ t.ldg = s.ldg := by
  have ha : ldgAck (at32 r.msg.payload 0) s = (s, stBadArg) := by simp [ldgAck, Ldg.on, hl, hn]
  refine ⟨answerMbx stBadArg [] s, ?_, ?_, replied_answerMbx h.current .., answerMbx_ldg ..⟩
  · rw [exec_ldgAck, withReq_of_executes h, ha]
    exact done_of_settled (settled_answerMbx h.settled ..)
  · rw [answerMbx_frame]

end Sys2Proof.Machine

/-! # What entries of the ledger leave

`State.unposted` is what the array's agents and the turnstile at work cannot change: everything but the array, the turnstile,
what waits for the warden and what leaves the device, with the protection of sectors and ACKED_SEQ among what stays. -/
namespace Sys2Proof.Machine

/-- The effective protection's parts, and the array left out. -/
def Arc.unposted (a : Arc) : Arc := { base0 := a.base0, base1 := a.base1, over0 := a.over0, over1 := a.over1, locked := a.locked }

/-- The state without what an agent of the array and an entry of the ledger may change. -/
def State.unposted (s : State) : State :=
  { s with arc := s.arc.unposted, ldg := { ackedSeq := s.ldg.ackedSeq }, flt.due := [], hst := {}, out := [], freeCtr := 0 }

theorem frame_of_unposted {s t : State} (h : t.unposted = s.unposted) :
    t = { s with arc := t.arc, ldg := t.ldg, flt := { s.flt with due := t.flt.due }, hst := t.hst, out := t.out, freeCtr := t.freeCtr } := by
  have e : t = { t.unposted with
      arc := t.arc, ldg := t.ldg, flt := { t.unposted.flt with due := t.flt.due }, hst := t.hst, out := t.out, freeCtr := t.freeCtr } :=
    rfl
  rw [h] at e
  exact e

/-- Reads of the array change less. -/
theorem unposted_of_unread {s t : State} (h : t.unread = s.unread) : t.unposted = s.unposted :=
  show t.unread.unposted = s.unread.unposted by rw [h]

@[simp] theorem unposted_ite (c : Prop) [Decidable c] (s t : State) :
    (if c then s else t).unposted = if c then s.unposted else t.unposted :=
  apply_ite ..

@[simp] theorem unposted_foldl {α : Type} (f : State → α → State) (l : List α) (s : State)
    (h : ∀ t x, (f t x).unposted = t.unposted) : (l.foldl f s).unposted = s.unposted := by
  induction l generalizing s with
  | nil => rfl
  | cons x l ih => rw [List.foldl_cons, ih, h]

@[simp] theorem unposted_foldl_fst {α β : Type} (f : State × β → α → State × β) (l : List α) (p : State × β)
    (h : ∀ p x, (f p x).1.unposted = p.1.unposted) : (l.foldl f p).1.unposted = p.1.unposted := by
  induction l generalizing p with
  | nil => rfl
  | cons x l ih => rw [List.foldl_cons, ih, h]

/-- An update of the array that names none of the protection's parts. -/
theorem unposted_arc {t : State} {a : Arc} {n : Nat} (h : a.unposted = t.arc.unposted) :
    State.unposted { t with arc := a, freeCtr := n } = t.unposted := by
  simp [State.unposted, h]

/-- An update of the turnstile but for ACKED_SEQ. -/
@[simp] theorem unposted_ldg (t : State)
    (a1 a2 a3 a4 a5 a6 a7 a8 a9 a10 a11 a12 a13 a14 b1 b2 b3 b4 b5 b6 b7 b8 b9 b10 b11 b12 b13 b14) :
    State.unposted { t with ldg := ⟨a1, a2, a3, a4, a5, a6, a7, a8, a9, a10, a11, a12, a13, a14, t.ldg.ackedSeq,
      b1, b2, b3, b4, b5, b6, b7, b8, b9, b10, b11, b12, b13, b14⟩ } = t.unposted :=
  rfl

/-! ## The array's agents -/

@[simp] theorem raiseDet_unposted (d : Nat) (w : Word) (s : State) : (raiseDet d w s).unposted = s.unposted := rfl

@[simp] theorem msix_unposted (v : Nat) (en : Bool) (s : State) : (msix v en s).unposted = s.unposted := by
  unfold msix
  split_ifs <;> rfl

@[simp] theorem arcNow_unposted (s : State) : (arcNow s).unposted = s.unposted := unposted_of_unread (arcNow_unread s)

@[simp] theorem arcCount_unposted (i : Nat) (s : State) : (arcCount i s).unposted = s.unposted := rfl

@[simp] theorem arcResults_unposted (ws : List Word) (s : State) : (arcResults ws s).unposted = s.unposted := rfl

@[simp] theorem arcEnd_unposted (code st : Byte) (s : State) : (arcEnd code st s).unposted = s.unposted := msix_unposted ..

@[simp] theorem eraseDone_unposted (bank : Bool) (i : Nat) (s : State) : (eraseDone bank i s).unposted = s.unposted := by
  unfold eraseDone
  dsimp only
  split_ifs <;> rfl

@[simp] theorem devBusy_unposted (bank : Bool) (what : DevWhat) (a bound : Nat) (s : State) :
    (devBusy bank what a bound s).unposted = s.unposted :=
  rfl

@[simp] theorem devErase_unposted (bank : Bool) (i : Nat) (s : State) : (devErase bank i s).unposted = s.unposted := by
  simp [devErase]

@[simp] theorem devWord_unposted (a : Nat) (bytes : List Byte) (s : State) : (devWord a bytes s).unposted = s.unposted := by
  unfold devWord
  split_ifs <;> rfl

@[simp] theorem devPut_unposted (a : Nat) (bytes : List Byte) (s : State) : (devPut a bytes s).unposted = s.unposted := by
  simp [devPut]

@[simp] theorem relieve_unposted (place : Nat) (s : State) : (relieve place s).unposted = s.unposted := by simp [relieve]

@[simp] theorem selectorSpace_unposted (s : State) : (selectorSpace s).1.unposted = s.unposted := by
  simp only [selectorSpace]
  split <;> simp

@[simp] theorem putSelector_unposted (bytes : List Byte) (n : Nat) (s : State) :
    (putSelector bytes n s).unposted = s.unposted := by
  induction n generalizing s with
  | zero => simp [putSelector]
  | succ n ih => simp [putSelector, ih]

@[simp] theorem wordEnds_unposted (p : ArcProg) (s : State) : (wordEnds p s).unposted = s.unposted := by
  rw [wordEnds, arcEnd_unposted, arcCount_unposted]
  rfl

@[simp] theorem swapEnds_unposted (p : ArcProg) (s : State) : (swapEnds p s).unposted = s.unposted := by
  have h : (devWord p.addr p.data { s with arc.prog := none }).unposted = s.unposted := devWord_unposted ..
  simp [swapEnds, h]

@[simp] theorem blankEnds_unposted (p : ArcProg) (s : State) : (blankEnds p s).unposted = s.unposted := by
  rw [blankEnds, arcEnd_unposted, arcResults_unposted]
  rfl

@[simp] theorem progEnds_unposted (s : State) : (progEnds s).unposted = s.unposted := by
  unfold progEnds
  split <;> simp

@[simp] theorem agentTurn_unposted (s : State) : (agentTurn s).unposted = s.unposted := by
  have h : (progEnds (arcNow s)).unposted = s.unposted := by simp
  unfold agentTurn
  extract_lets t
  split
  · dsimp only
    split_ifs
    · exact h
    · exact (unposted_arc (by rfl)).trans h
    · exact (unposted_arc (by rfl)).trans h
  · exact h

/-! ## The turnstile -/

@[simp] theorem putLedger_unposted (p : Nat) (words : List (List Byte)) (s : State) :
    (putLedger p words s).unposted = s.unposted := by
  refine unposted_foldl_fst _ _ _ fun p q => ?_
  split <;> simp

@[simp] theorem ldgTouch_unposted (s : State) : (ldgTouch s).unposted = s.unposted := rfl

@[simp] theorem ldgFull_unposted (s : State) : (ldgFull s).unposted = s.unposted := by
  rw [ldgFull, raiseDet_unposted, msix_unposted]
  rfl

@[simp] theorem ldgStore_unposted (e : LedgerEntry) (s : State) : (ldgStore e s).unposted = s.unposted := by
  simp [ldgStore]

@[simp] theorem ldgWrite_unposted (e : LedgerEntry) (s : State) : (ldgWrite e s).unposted = s.unposted := by
  simp [ldgWrite]

/-! ## LDG_ACK -/

/-- What an acknowledged SEQ leaves, before the entry that says so. -/
def seqAcked (n : Nat) (s : State) : State := ldgTouch { s with ldg.ackedSeq := BitVec.ofNat 32 n }

theorem ldgAck_of_within {n : Nat} {s : State} (hl : s.ldg.lstate = 2) (ha : s.ldg.ackedSeq.toNat ≤ n) (hs : n ≤ s.ldg.seq.toNat) :
    ldgAck n s = (ldgWrite { ldgEntry 7 0 (seqAcked n s) with extra := leBytes 4 n } (seqAcked n s), stOk) := by
  have hf : ldgFree (seqAcked n s) = seqAcked n s := by simp [ldgFree, seqAcked, ldgTouch, hl]
  unfold ldgAck
  rw [← seqAcked]
  simp [Ldg.on, hl, Nat.not_lt.mpr ha, Nat.not_lt.mpr hs, hf]

/-- Within the entries written, ACKED_SEQ moves to SEQ, and an entry says so (R294). -/
theorem exec_ldgAck_of_within {r : MbxReq} {s : State} (h : Executes 0x31 r s) (hl : s.ldg.lstate = 2)
    (ha : s.ldg.ackedSeq.toNat ≤ at32 r.msg.payload 0) (hs : at32 r.msg.payload 0 ≤ s.ldg.seq.toNat) :
    ∃ u, exec .ldgAck s = .next (settle u) ∧
      u = { s with arc := u.arc, ldg := u.ldg, flt := u.flt, hst := u.hst, mbx := u.mbx, out := u.out, freeCtr := u.freeCtr } ∧
      Replied r 0x00 [] s u ∧ u.ldg.ackedSeq = BitVec.ofNat 32 (at32 r.msg.payload 0) := by
  let n := at32 r.msg.payload 0
  let t := ldgWrite { ldgEntry 7 0 (seqAcked n s) with extra := leBytes 4 n } (seqAcked n s)
  have hu : t.unposted = (seqAcked n s).unposted := ldgWrite_unposted ..
  have hm : t.mbx = s.mbx := congrArg (fun x => x.mbx) hu
  have hq : t.ldg.ackedSeq = BitVec.ofNat 32 n := congrArg (fun x => x.ldg.ackedSeq) hu
  refine ⟨answerMbx stOk [] t, ?_, ?_, replied_answerMbx_of_mbx h.current hm .., ?_⟩
  · rw [exec_ldgAck, withReq_of_executes h, ldgAck_of_within hl ha hs]
  · rw [answerMbx_frame, frame_of_unposted hu]
    rfl
  · rw [answerMbx_ldg, hq]

end Sys2Proof.Machine

/-! # O52: the acknowledgements and the floor message of the mailbox -/
namespace Sys2Proof
open Machine

/-- Settles O52: INC_ACK answers after its scan, and where it marks a record one word changes; LDG_ACK's entry leaves ACKED_SEQ where the
message put it; FLOOR_RAISE only moves the floor up. -/
theorem mailboxAcknowledgements : Obligations.MailboxAcknowledgements := by
  unfold Obligations.MailboxAcknowledgements
  refine ⟨?_, ?_, ?_, ?_, ?_, ?_, ?_, ?_⟩
  · intro r f s h hf hs he hv hp
    exact incAck_of_sealed h hf hs he hv hp
  · intro r f s h hf hs he
    exact incAck_of_scan h (ackRecord_of_exported hf hs he)
  · intro r f s h hf hs
    exact incAck_of_scan h (ackRecord_of_unsealed hf hs)
  · intro r s h hn
    exact incAck_of_scan h (ackRecord_of_absent hn)
  · intro r s h hl ha hs
    exact exec_ldgAck_of_within h hl ha hs
  · intro r s h hl hn
    exact ldgAck_of_outside h hl hn
  · intro r s h hr hv
    exact floorRaise_of_le h hr hv
  · intro r s h _ hv
    exact floorRaise_of_lt h hv

end Sys2Proof

/-! # The commands of the candidate image

IMG_STAGE, IMG_VERIFY and the end of verification (R87, R88): which checks they come to, and what the reads and the vector of
the block leave alone. -/
namespace Sys2Proof.Machine

/-! ## Reads of a twin and of payloads -/

/-- A state that reads of the array lead to, written out. -/
theorem exists_of_unread {s t : State} (h : t.unread = s.unread) :
    ∃ c d v o, c.words = s.arc.words ∧ c.over0 = s.arc.over0 ∧ c.over1 = s.arc.over1 ∧
      t = { s with arc := c, flt.due := d, hst := v, out := o } :=
  ⟨t.arc, t.flt.due, t.hst, t.out, words_of_unread h, reader_of_unread Arc.over0 (fun _ => rfl) h,
    reader_of_unread Arc.over1 (fun _ => rfl) h, frame_of_unread h⟩

/-- Reading a twin for its checks changes nothing that the checks look at. -/
theorem checkTwin_unread (t : Twin) (s : State) : (checkTwin t s).1.unread = s.unread := by
  unfold checkTwin
  split
  · simp
  · dsimp only
    split_ifs
    · simp
    · split <;> simp

theorem checkTwin_of_holds {t : Twin} {s : State} (h : TwinHolds t s) :
    ∃ u, checkTwin t s = (u, .ok (twinImage t s)) ∧ u.unread = s.unread := by
  obtain ⟨hh, hu, hs⟩ := h
  unfold twinImage at hs
  exact ⟨streamS (twinBase t) (twinBytes t s).length s, by simp [checkTwin, hh, hu, hs, twinImage], streamS_unread ..⟩

theorem checkTwin_of_headerFail {t : Twin} {s : State} {f : CheckFail} (h : headerFail t s = some f) :
    (checkTwin t s).2 = .error f := by
  simp [checkTwin, h]

/-- What a reader of the array makes of a payload list does not change while the payloads are streamed. -/
theorem payloadsHold_of_unread {s t : State} (h : t.unread = s.unread) {l : List Payload} (hl : PayloadsHold l s.arc) :
    PayloadsHold l t.arc := by
  unfold PayloadsHold at *
  rwa [uncorrIn_of_unread h, readBytes_of_unread h]

theorem length_readBytes_le (c : Arc) (a n : Nat) : (c.readBytes a n).length ≤ n := List.length_take_le ..

/-- A payload's destination does not hold the address. -/
def Payload.misses (p : Payload) (a : Nat) : Prop := ∀ b, p.addr = some b → a < b ∨ b + p.length ≤ a

/-- What one payload that matches its digest leaves (R85): its reads, and memory written at its destination alone. -/
theorem streamPayload_of_holds {p : Payload} {s : State} (hm : MemoryOk s) (h : PayloadsHold [p] s.arc) :
    ∃ t, streamPayload p s = (t, none) ∧ t.unread = State.unread { s with mem := t.mem } ∧ MemoryOk t ∧
      ∀ a, p.misses a → Memory.get t.mem a = Memory.get s.mem a := by
  obtain ⟨hu, hd⟩ := h p (List.mem_singleton_self p)
  obtain ⟨c, d, v, o, -, -, -, e⟩ := exists_of_unread (streamS_unread p.arcAddr p.length s)
  have hc' : State.unread { s with arc := c, flt.due := d, hst := v, out := o } = s.unread := by rw [← e, streamS_unread]
  simp only [streamPayload, e, hu, hd, Bool.false_eq_true, if_false, if_true]
  refine ⟨_, rfl, ?_⟩
  cases ha : p.addr with
  | none => exact ⟨hc', hm, fun _ _ => rfl⟩
  | some b =>
    refine ⟨congrArg (fun x => { x with mem := Memory.write s.mem b (s.arc.readBytes p.arcAddr p.length) }) hc', Memory.wf_write hm,
      fun a hp => Memory.get_write_other hm ?_⟩
    have hl := length_readBytes_le s.arc p.arcAddr p.length
    have := hp b ha
    omega

/-- The same for a list of payloads. -/
theorem streamPayloads_of_holds (l : List Payload) {s : State} (hm : MemoryOk s) (h : PayloadsHold l s.arc) :
    ∃ t, streamPayloads l s = (t, none) ∧ t.unread = State.unread { s with mem := t.mem } ∧
      ∀ a, (∀ p ∈ l, p.misses a) → Memory.get t.mem a = Memory.get s.mem a := by
  induction l generalizing s with
  | nil => exact ⟨s, rfl, rfl, fun _ _ => rfl⟩
  | cons p l ih =>
    obtain ⟨t, e, ht, hmt, hg⟩ := streamPayload_of_holds hm fun q hq => h q (List.mem_cons.mpr (.inl (List.mem_singleton.mp hq)))
    have hl : PayloadsHold l t.arc := payloadsHold_of_unread ht fun q hq => h q (List.mem_cons_of_mem p hq)
    obtain ⟨u, e', hu, hg'⟩ := ih hmt hl
    refine ⟨u, by simp [streamPayloads, e, e'], ?_, fun a ha => ?_⟩
    · exact hu.trans (congrArg (fun x => { x with mem := u.mem }) ht)
    · rw [hg' a fun q hq => ha q (List.mem_cons_of_mem p hq), hg a (ha p List.mem_cons_self)]

/-! ## A command of the block that is taken (R59, R61) -/

theorem imgCmd_permitted {src : Source} {a : Nat} {s : State} (hh : s.hears src = true) (hm : s.mode.fromArmed = true)
    (ha : blockOf a = some 3) (st f : State → State) : judgedCmd src a Mode.fromArmed st f s = f s := by
  have hl : s.live 3 = true := by
    unfold State.live
    cases h : s.mode <;> simp_all [Mode.fromArmed, Mode.ticks, liveIn]
  simp [judgedCmd, hh, ha, State.absent, hl, hm]

theorem exec_imgStage {src : Source} {s : State} (hh : s.hears src = true) (hm : s.mode.fromArmed = true) (w : Twin) :
    exec (.imgStage src w) s = done (stage w s) :=
  congrArg done (imgCmd_permitted hh hm rfl ..)

theorem exec_imgVerify {src : Source} {s : State} (hh : s.hears src = true) (hm : s.mode.fromArmed = true) :
    exec (.imgVerify src) s = done (verify s) :=
  congrArg done (imgCmd_permitted hh hm rfl ..)

theorem imgVec_frame (s : State) : imgVec s = { s with hst := (imgVec s).hst, out := (imgVec s).out } := msix_frame ..

/-! ## IMG_STAGE (R87) -/

theorem stage_of_running {w : Twin} {s : State} (hr : s.img.run.isSome = true) (hw : s.img.runTwin = w) :
    stage w s = { s with img.stat := stProtected } := by
  simp [stage, hr, hw, imgStat]

section
variable {w : Twin} {s : State} (hr : s.img.run.isSome = false ∨ s.img.runTwin ≠ w)
  (hs : s.img.stage = 0 ∨ s.img.stage = 1 ∨ s.img.stage = 3)
include hr hs

/-- A twin other than the running one is taken in every state of the candidate but VERIFY, COMMIT_PENDING and PERSIST. -/
theorem stage_not_refused : (s.img.run.isSome && decide (w = s.img.runTwin)) = false ∧
    (!(s.img.stage = 0 || s.img.stage = 1 || s.img.stage = 3)) = false := by
  constructor
  · obtain hr | hr := hr
    · simp [hr]
    · simp [Ne.symm hr]
  · obtain hs | hs | hs := hs <;> simp [hs]

theorem stage_of_headerFail {f : CheckFail} (hf : headerFail w s = some f) :
    stage w s = imgStat f.2 { streamS (twinBase w) 32 s with img.reason := f.1 } := by
  obtain ⟨h1, h2⟩ := stage_not_refused hr hs
  simp only [stage, h1, h2, hf, Bool.false_eq_true, if_false]

theorem stage_of_header (hf : headerFail w s = none) :
    stage w s = imgVec (imgStat stOk (setOverlay (twinSectors w) { streamS (twinBase w) 32 s with
      img.stage := 1, img.stgTwin := w, img.cand := none, img.reason := 0, img.stgDigest := 0, img.verifyBytes := 0
      img.stgVer := BitVec.ofNat 32 (at32 (s.arc.readBytes (twinBase w) 32) 0x0C) })) := by
  obtain ⟨h1, h2⟩ := stage_not_refused hr hs
  simp only [stage, h1, h2, hf, Bool.false_eq_true, if_false]

/-- R87: the candidate is staged and its sectors are protected. -/
theorem exec_imgStage_of_header {src : Source} (hh : s.hears src = true) (hm : s.mode.fromArmed = true)
    (hf : headerFail w s = none) :
    ∃ u, exec (.imgStage src w) s = .next (settle u) ∧
      u = { s with gctl := u.gctl, img := u.img, arc := u.arc, flt := u.flt, hst := u.hst, out := u.out } ∧ u.img.stage = 1 ∧
      u.img.stgTwin = w ∧ u.img.stat = 0x00 ∧ u.img.reason = 0x00 ∧ u.img.cand = none ∧
      u.arc.over0 = overlayOf (twinSectors w) false ∧ u.arc.over1 = overlayOf (twinSectors w) true ∧
      u.arc.words = s.arc.words ∧ u.img.run = s.img.run ∧ u.mode = s.mode := by
  obtain ⟨c, d, v, o, hw, -, -, e⟩ := exists_of_unread (streamS_unread (twinBase w) 32 s)
  have hst := stage_of_header hr hs hf
  rw [e] at hst
  refine ⟨stage w s, exec_imgStage hh hm w, ?_⟩
  rw [hst, imgVec_frame]
  exact ⟨rfl, rfl, rfl, rfl, rfl, rfl, rfl, rfl, hw, rfl, rfl⟩

/-- R87: an UNCORRECTABLE header word leaves the candidate that stood. -/
theorem exec_imgStage_of_uncorrectable {src : Source} (hh : s.hears src = true) (hm : s.mode.fromArmed = true)
    (hu : s.arc.uncorrIn (twinBase w) 32 = true) :
    ∃ u, exec (.imgStage src w) s = .next (settle u) ∧
      u = { s with gctl := u.gctl, img := u.img, arc := u.arc, flt := u.flt, hst := u.hst, out := u.out } ∧
      u.img.stage = s.img.stage ∧ u.img.stat = 0x06 ∧ u.img.reason = 0x0B ∧ u.img.cand = s.img.cand ∧
      u.arc.words = s.arc.words ∧ u.img.run = s.img.run ∧ u.mode = s.mode := by
  obtain ⟨c, d, v, o, hw, -, -, e⟩ := exists_of_unread (streamS_unread (twinBase w) 32 s)
  have hf : headerFail w s = some (0x0B, stCrcError) := by simp [headerFail, hu]
  have hst := stage_of_headerFail hr hs hf
  rw [e] at hst
  refine ⟨stage w s, exec_imgStage hh hm w, ?_⟩
  rw [hst]
  exact ⟨rfl, rfl, rfl, rfl, rfl, hw, rfl, rfl⟩

end

/-! ## IMG_VERIFY and the end of verification (R88) -/

theorem exec_imgVerify_of_staged {src : Source} {s : State} (hs : Settled s) (hh : s.hears src = true)
    (hm : s.mode.fromArmed = true) (h1 : s.img.stage = 1) :
    ∃ t, exec (.imgVerify src) s = .next t ∧ t = { s with gctl := t.gctl, img := t.img, arc := t.arc } ∧
      t.img.stage = 2 ∧ t.img.stat = 0x00 ∧ t.img.verifyBytes = 0 ∧ t.img.run = s.img.run ∧
      t.arc.over0 = overlayOf (twinSectors s.img.stgTwin ++ payloadSectors (twinImage s.img.stgTwin s).payloads) false ∧
      t.arc.over1 = overlayOf (twinSectors s.img.stgTwin ++ payloadSectors (twinImage s.img.stgTwin s).payloads) true ∧
      t.arc.words = s.arc.words ∧ t.mode = s.mode := by
  have hv : verify s = imgStat stOk (setOverlay (twinSectors s.img.stgTwin ++ payloadSectors (twinImage s.img.stgTwin s).payloads)
      { s with img.stage := 2, img.fillBad := false, img.verifyBytes := 0, img.reason := 0 }) := by
    rw [verify, if_pos h1]
    rfl
  refine ⟨verify s, ?_, ?_⟩
  · rw [exec_imgVerify hh hm]
    exact done_of_settled (hv ▸ hs)
  · rw [hv]
    generalize twinSectors s.img.stgTwin ++ payloadSectors (twinImage s.img.stgTwin s).payloads = l
    exact ⟨rfl, rfl, rfl, rfl, rfl, rfl, rfl, rfl, rfl⟩

theorem exec_imgVerify_of_unstaged {src : Source} {s : State} (hs : Settled s) (hh : s.hears src = true)
    (hm : s.mode.fromArmed = true) (h1 : s.img.stage ≠ 1) : exec (.imgVerify src) s = .next { s with img.stat := 0x03 } := by
  rw [exec_imgVerify hh hm, verify, if_neg h1]
  exact done_of_settled hs

theorem exec_verifyDone (e : EccView) {s : State} (h : s.img.stage = 2) :
    exec (.verifyDone e) s = done (verifyEnds (s.showing e)) :=
  congrArg done (if_pos h)

/-- A failure ends verification STAGED, with its reason, and releases the payload sectors; memory and the words stay. -/
theorem verifyEnds_of_error {s : State} {f : CheckFail}
    (h : (if s.img.fillBad then .error (0x0B, stCrcError) else (checkTwin s.img.stgTwin s).2) = Except.error f) :
    ∃ u, verifyEnds s = u ∧
      u = { s with img := u.img, arc := u.arc, flt := u.flt, hst := u.hst, mem := u.mem, out := u.out } ∧ u.img.stage = 1 ∧
      u.img.stat = f.2 ∧ u.img.reason = f.1 ∧ u.img.cand = none ∧ u.img.verifyFail = satInc s.img.verifyFail ∧
      u.img.run = s.img.run ∧ u.arc.over0 = overlayOf (twinSectors s.img.stgTwin) false ∧
      u.arc.over1 = overlayOf (twinSectors s.img.stgTwin) true ∧ u.arc.words = s.arc.words ∧ u.mem = s.mem := by
  obtain ⟨c, d, v, o, hw, -, -, e⟩ := exists_of_unread (checkTwin_unread s.img.stgTwin s)
  have hv : verifyEnds s = verifyFails f (checkTwin s.img.stgTwin s).1 := by
    unfold verifyEnds
    dsimp only
    rw [h]
  refine ⟨verifyEnds s, rfl, ?_⟩
  rw [hv, e, verifyFails, imgVec_frame]
  exact ⟨rfl, rfl, rfl, rfl, rfl, rfl, rfl, rfl, rfl, hw, rfl⟩

theorem candidateFail_of_holds {s : State} {im : Image} (hm : MemoryOk s) (hr : hotRuleOk s.im im = true)
    (hf : fabricCompatible im s = true) (hp : PayloadsHold (changedPayloads s.im im) s.arc) :
    ∃ t m, candidateFail im s = (t, none) ∧ t.unread = State.unread { s with mem := m } ∧
      ∀ a, (∀ p ∈ changedPayloads s.im im, p.misses a) → Memory.get m a = Memory.get s.mem a := by
  obtain ⟨t, ht, hu, hg⟩ := streamPayloads_of_holds _ hm hp
  exact ⟨t, t.mem, by simp [candidateFail, hr, hf, ht], hu, hg⟩

/-- Verification succeeds where the candidate's checks, the hot payload rule, fabric compatibility and the changed payloads all
hold. -/
theorem verifyEnds_of_holds {s : State} {im : Image} (hm : MemoryOk s) (hb : s.img.fillBad = false)
    (hi : TwinHolds s.img.stgTwin s) (he : twinImage s.img.stgTwin s = im) (hr : hotRuleOk s.im im = true)
    (hf : fabricCompatible im s = true) (hp : PayloadsHold (changedPayloads s.im im) s.arc) :
    ∃ u, verifyEnds s = u ∧
      u = { s with img := u.img, arc := u.arc, flt := u.flt, hst := u.hst, mem := u.mem, out := u.out } ∧ u.img.stage = 3 ∧
      u.img.stat = 0x00 ∧ u.img.cand = some im ∧ u.img.stgDigest = im.hdr.digest ∧ u.img.run = s.img.run ∧
      u.img.runTwin = s.img.runTwin ∧ u.img.verifyFail = s.img.verifyFail ∧ u.arc.words = s.arc.words ∧
      u.arc.over0 = s.arc.over0 ∧ u.arc.over1 = s.arc.over1 ∧
      ∀ a, (∀ p ∈ changedPayloads s.im im, p.misses a) → Memory.get u.mem a = Memory.get s.mem a := by
  obtain ⟨t, hct, htu⟩ := checkTwin_of_holds hi
  rw [he] at hct
  obtain ⟨c, d, v, o, hw, h0, h1, e⟩ := exists_of_unread htu
  have hp' := payloadsHold_of_unread htu hp
  obtain ⟨u, m, hk, huu, hg⟩ := candidateFail_of_holds (s := { t with img.stgDigest := im.hdr.digest })
    (by rw [e]; exact hm) (by rw [e]; exact hr) (by rw [e]; exact hf) (by rw [e] at hp' ⊢; exact hp')
  obtain ⟨c', d', v', o', hw', h0', h1', e'⟩ := exists_of_unread huu
  have hend : verifyEnds s = imgVec (imgStat stOk { u with
      img.stage := 3, img.cand := some im
      img.verifyBytes := BitVec.ofNat 32 (im.hdr.structLen + (changedPayloads s.im im).foldl (fun k p => k + p.length) 0) }) := by
    simp only [verifyEnds, hct, hb, hk, Bool.false_eq_true, if_false]
  subst e
  refine ⟨verifyEnds s, rfl, ?_⟩
  rw [hend, e', imgVec_frame]
  exact ⟨rfl, rfl, rfl, rfl, rfl, rfl, rfl, rfl, hw'.trans hw, h0'.trans h0, h1'.trans h1, hg⟩

end Sys2Proof.Machine

/-! # What LOAD leaves for ARMED

`State.loaded` is what the obligation says of the state after a successful LOAD (R86), with the detectors whose records still wait
for a map (R354). Each function that runs between the last check and the end of the command keeps it, but for the few that set
it: one lemma each, in the order of the model's files. -/
namespace Sys2Proof.Machine

/-- What the block IMG and its neighbours show once a boot image runs. -/
structure LoadView where
  otp : Otp
  cvt : Cvt
  gpio : Gpio
  crd : Crd
  mbx : Mbx
  shadows : Shadows
  pending : List Instr
  mode : Mode
  everArmed : Bool
  loadStat : Byte
  loadTwin : Bool
  run : Option Image
  runTwin : Twin
  base0 : BitVec 544
  base1 : BitVec 544
  locked : Bool
  src : BitVec 2
  /-- The detectors whose records wait for a map. -/
  waiting : List Nat

def State.loaded (s : State) : LoadView where
  otp := s.otp
  cvt := s.cvt
  gpio := s.gpio
  crd := s.crd
  mbx := s.mbx
  shadows := s.shadows
  pending := s.pending
  mode := s.gctl.mode
  everArmed := s.gctl.everArmed
  loadStat := s.gctl.loadStat
  loadTwin := s.gctl.loadTwin
  run := s.img.run
  runTwin := s.img.runTwin
  base0 := s.arc.base0
  base1 := s.arc.base1
  locked := s.arc.locked
  src := s.tck.src
  waiting := (s.flt.records.filter (fun r => !r.judged)).map (fun r => r.det)

/-- An update that names none of the parts keeps them. -/
@[simp] theorem loaded_of_parts (t : State)
    (a1 a2 a3 a4 a5 a6 a7 a8 a9 a10 a11 a12 a13 a14 a15 a16 a17 a18 a19 a20 a21 a22) :
    State.loaded ⟨t.otp, a1, a2, t.gctl, a3, t.tck, t.img, a4, t.cvt, a5, a6, a7, a8, t.gpio, a9, a10, a11, a12, t.arc, t.crd,
      a13, a14, a15, a16, a17, t.flt, a18, a19, t.mbx, a20, t.shadows, a21, a22, t.pending⟩ = t.loaded :=
  rfl

@[simp] theorem loaded_ite (c : Prop) [Decidable c] (s t : State) :
    (if c then s else t).loaded = if c then s.loaded else t.loaded :=
  apply_ite ..

@[simp] theorem loaded_foldl {α : Type} (f : State → α → State) (l : List α) (s : State)
    (h : ∀ t x, (f t x).loaded = t.loaded) : (l.foldl f s).loaded = s.loaded := by
  induction l generalizing s with
  | nil => rfl
  | cons x l ih => rw [List.foldl_cons, ih, h]

theorem loaded_of_unposted {s t : State} (h : t.unposted = s.unposted) : t.loaded = s.loaded :=
  show t.unposted.loaded = s.unposted.loaded by rw [h]

theorem loaded_of_unread {s t : State} (h : t.unread = s.unread) : t.loaded = s.loaded :=
  loaded_of_unposted (unposted_of_unread h)

/-! ## Machine.Ops -/

@[simp] theorem State.say_loaded (s : State) (o : Out) : (s.say o).loaded = s.loaded := rfl
@[simp] theorem raiseDet_loaded (d : Nat) (w : Word) (s : State) : (raiseDet d w s).loaded = s.loaded := rfl

/-- The condition of a level detector ends, and its record goes on waiting. -/
@[simp] theorem levelOff_loaded (d : Nat) (s : State) : (levelOff d s).loaded = s.loaded := by
  have h (l : List FaultRec) (b : Bool) :
      ((l.map fun r => if r.det = d then { r with active := b } else r).filter (fun r => !r.judged)).map (fun r => r.det) =
        (l.filter (fun r => !r.judged)).map (fun r => r.det) := by
    induction l with
    | nil => rfl
    | cons r l ih =>
      have hj : (if r.det = d then { r with active := b } else r).judged = r.judged := by split <;> rfl
      have hd : (if r.det = d then { r with active := b } else r).det = r.det := by split <;> rfl
      rw [List.map_cons, List.filter_cons, List.filter_cons, hj]
      split
      · rw [List.map_cons, List.map_cons, ih, hd]
      · exact ih
  unfold State.loaded levelOff
  rw [h]

@[simp] theorem pairClean_loaded (d : Nat) (s : State) : (pairClean d s).loaded = s.loaded := levelOff_loaded ..

@[simp] theorem msix_loaded (v : Nat) (en : Bool) (s : State) : (msix v en s).loaded = s.loaded := by
  unfold msix
  split_ifs <;> rfl

@[simp] theorem State.setCam_loaded (s : State) (r : Nat) (c : Cam) : (s.setCam r c).loaded = s.loaded := rfl
@[simp] theorem State.setEth_loaded (s : State) (p : Nat) (e : Eth) : (s.setEth p e).loaded = s.loaded := rfl
@[simp] theorem State.setCan_loaded (s : State) (c : Nat) (x : Can) : (s.setCan c x).loaded = s.loaded := rfl
@[simp] theorem State.setSpi_loaded (s : State) (u : Nat) (x : Spi) : (s.setSpi u x).loaded = s.loaded := rfl
@[simp] theorem State.setCore_loaded (s : State) (n : Nat) (c : Core) : (s.setCore n c).loaded = s.loaded := rfl
@[simp] theorem State.setPort_loaded (s : State) (p : Nat) (x : Port) : (s.setPort p x).loaded = s.loaded := rfl

/-! ## Machine.Ledger -/

@[simp] theorem ctlRead_loaded (a len : Nat) (s : State) : (ctlRead a len s).loaded = s.loaded :=
  loaded_of_unread (ctlRead_unread ..)

/-- The turnstile resumes: a read of the area, and its own fields. -/
@[simp] theorem ldgResume_loaded (s : State) : (ldgResume s).loaded = s.loaded := by
  obtain ⟨u, hu, h⟩ : ∃ u, ctlRead ledgerBase 0x10000 s = u ∧ u.loaded = s.loaded := ⟨_, rfl, ctlRead_loaded ..⟩
  unfold ldgResume
  rw [hu]
  split
  · rfl
  · extract_lets _ found _ _ _ _ _ _ s₁ _ s₂
    have h₁ : s₁.loaded = s.loaded := (loaded_of_parts ..).trans h
    clear_value s₁
    have h₂ : s₂.loaded = s.loaded := by
      unfold s₂
      split
      · exact (loaded_of_parts ..).trans h₁
      · exact h₁
    clear_value s₂
    split
    · exact h₂
    · exact (loaded_of_parts ..).trans ((loaded_of_parts ..).trans h₂)

/-! ## Machine.FabOps -/

@[simp] theorem fabVec_loaded (s : State) : (fabVec s).loaded = s.loaded := msix_loaded ..

@[simp] theorem graphChanged_loaded (s : State) : (graphChanged s).loaded = s.loaded := by simp [graphChanged]

@[simp] theorem sendPort_loaded (p : Nat) (hdr : MsgHdr) (msg : FabMsg) (s : State) :
    (sendPort p hdr msg s).loaded = s.loaded := by
  simp [sendPort]

@[simp] theorem sendBroadcast_loaded (msg : FabMsg) (s : State) : (sendBroadcast msg s).loaded = s.loaded := by
  simp [sendBroadcast, sendAll]

@[simp] theorem storeLsa_loaded (r : LsaRec) (s : State) : (storeLsa r s).loaded = s.loaded := by simp [storeLsa]

@[simp] theorem floodLsa_loaded (s : State) : (floodLsa s).loaded = s.loaded := by simp [floodLsa]

@[simp] theorem linkDown_loaded (p : Nat) (s : State) : (linkDown p s).loaded = s.loaded := by simp [linkDown]

@[simp] theorem idleFabric_loaded (s : State) : (idleFabric s).loaded = s.loaded := by simp [idleFabric]

/-! ## Machine.Sched -/

@[simp] theorem fillFallback_loaded (t : TaskDesc) (e : SolveEntry) (core : Nat) (s : State) :
    (fillFallback t e core s).loaded = s.loaded :=
  rfl

@[simp] theorem voidOutputs_loaded (t : TaskDesc) (gen : Byte) (mask : Word) (s : State) :
    (voidOutputs t gen mask s).loaded = s.loaded := by
  simp [voidOutputs, writeVoid, schVec, putToken]

@[simp] theorem loseTask_loaded (t : TaskDesc) (k : BitVec 64) (s : State) : (loseTask t k s).loaded = s.loaded := by
  unfold loseTask
  dsimp only
  split
  · split <;> rfl
  · exact voidOutputs_loaded ..

@[simp] theorem abortSolve_loaded (n : Nat) (j : Job) (s : State) : (abortSolve n j s).loaded = s.loaded := by
  unfold abortSolve
  split
  · rfl
  · rfl

@[simp] theorem freeCore_loaded (n : Nat) (s : State) : (freeCore n s).loaded = s.loaded := rfl

@[simp] theorem schVec_loaded (s : State) : (schVec s).loaded = s.loaded := msix_loaded ..

/-- A core is fenced, and its tasks move or are lost (R113). -/
@[simp] theorem fenceCore_loaded (n : Nat) (cause : BitVec 2) (s : State) : (fenceCore n cause s).loaded = s.loaded := by
  unfold fenceCore
  split
  · rfl
  · refine (loaded_foldl _ _ _ fun t j => ?_).trans ?_
    · split
      · rfl
      · split <;> simp
    · split <;> simp

/-! ## Machine.States -/

@[simp] theorem drivePair_loaded (v : Option (Bool × Bool)) (s : State) : (drivePair v s).loaded = s.loaded := by
  unfold drivePair
  split
  · rfl
  · cases v with
    | none => rfl
    | some x => rfl

/-- ARMED sets the state and what tells that it has been entered. -/
theorem enter_armed_loaded {s : State} (h : s.mode ≠ .armed) :
    (enter .armed s).loaded = { s.loaded with mode := .armed, everArmed := true } := by
  obtain ⟨b, p, l, o, c, j, a, i, x, e⟩ := enter_armed_frame h
  rw [e]
  rfl

/-! ## Machine.Warden -/

/-- The fence of a detector's resource (R355). -/
@[simp] theorem fenceOf_loaded (d : Nat) (s : State) : (fenceOf d s).loaded = s.loaded := by
  unfold fenceOf
  dsimp only
  split_ifs <;> simp

theorem degrade_of_armed {s : State} (h : s.mode = .armed) : degrade s = s := by simp [degrade, h]

theorem vitTrigger_of_armed {s : State} (h : s.mode = .armed) (c : Nat) (d : BitVec 16) (l : Byte) (o : BitVec 64) :
    vitTrigger c d l o s = s := by
  simp [vitTrigger, vitTriggerAt, h]

theorem foldl_max_lt {l : List (Nat × Nat)} {m n : Nat} (hm : m < n) (hl : ∀ e ∈ l, e.2 < n) :
    l.foldl (fun m e => max m e.2) m < n := by
  induction l generalizing m with
  | nil => exact hm
  | cons e l ih => exact ih (max_lt hm (hl e List.mem_cons_self)) fun x hx => hl x (List.mem_cons_of_mem e hx)

/-- In ARMED the warden's reactions below SAFE fence, count and tell the host, and no more (R355, R356). -/
theorem react_loaded {l : List (Nat × Nat)} {s : State} (hm : s.mode = .armed) (hl : ∀ e ∈ l, e.2 < 3) :
    (react l s).loaded = s.loaded := by
  unfold react
  split
  · rfl
  · extract_lets top det s₁ s₂ s₃ _ s₄ s₅
    have ht : top < 3 := foldl_max_lt (by decide) hl
    have h₁ : s₁.loaded = s.loaded := loaded_foldl _ _ _ fun t e => (fenceOf_loaded ..).trans rfl
    clear_value s₁
    have h₂ : s₂.loaded = s.loaded := by
      refine (loaded_foldl _ _ _ fun t e => ?_).trans h₁
      rfl
    clear_value s₂
    have h₃ : s₃.loaded = s.loaded := by
      unfold s₃
      split
      · exact (msix_loaded ..).trans h₂
      · exact h₂
    clear_value s₃
    have h₄ : s₄.loaded = s.loaded := h₃
    have m₄ : s₄.mode = .armed := (congrArg LoadView.mode h₄).trans hm
    clear_value s₄
    have h₅ : s₅ = s₄ := by
      unfold s₅
      rw [if_neg (by omega), if_neg (by omega), degrade_of_armed m₄, ite_self]
    rw [h₅, vitTrigger_of_armed m₄, ite_self, h₄]

/-- The map in force rests on the image and on whether ARMED has been entered. -/
theorem mapOf_congr {s t : State} (he : t.gctl.everArmed = s.gctl.everArmed) (hr : t.img.run = s.img.run) (d : Nat) :
    mapOf t d = mapOf s d := by
  unfold mapOf State.im
  rw [he, hr]

/-- What the judging of waiting records has gathered: only the records have changed, and every level lies below SAFE. -/
def Rejudged (s : State) (acc : State × List (Nat × Nat)) : Prop := (∃ f, acc.1 = { s with flt := f }) ∧ ∀ e ∈ acc.2, e.2 < 3

/-- Where no waiting record leads to SAFE or beyond, entry to ARMED leaves none waiting and the rest as it is. -/
theorem rejudge_loaded {s : State} (hm : s.mode = .armed) (hw : ∀ d ∈ s.loaded.waiting, (mapOf s d).1 < 3) :
    ∃ w, (rejudge s).loaded = { s.loaded with waiting := w } := by
  unfold rejudge
  extract_lets wait
  have hwait : ∀ r ∈ wait, (mapOf s r.det).1 < 3 := fun r hr => hw _ (List.mem_map_of_mem hr)
  clear_value wait
  split
  next t got hp =>
    have h : Rejudged s (t, got) := by
      rw [← hp]
      refine List.foldlRecOn wait _ ⟨⟨s.flt, rfl⟩, by simp⟩ ?_
      rintro acc ⟨⟨f, hf⟩, hl⟩ r hr
      have hlevel : (mapOf acc.1 r.det).1 < 3 := by
        rw [hf]
        exact hwait r hr
      generalize mapOf acc.1 r.det = x at hlevel
      obtain ⟨level, n, k⟩ := x
      refine ⟨⟨_, by rw [hf]⟩, fun e he => ?_⟩
      dsimp only at he
      split at he
      · obtain he | he := List.mem_append.mp he
        · exact hl e he
        · rw [List.mem_singleton.mp he]
          exact hlevel
      · exact hl e he
    obtain ⟨⟨f, hf⟩, hl⟩ := h
    have ht : t = { s with flt := f } := hf
    have hr : (react got t).loaded = t.loaded := react_loaded (by rw [ht]; exact hm) hl
    exact ⟨_, hr.trans (by rw [ht]; rfl)⟩

end Sys2Proof.Machine

/-! # A twin that passes (R86)

The blocks take their sections, the device enters ARMED, the warden judges what waited, and the turnstile starts. -/
namespace Sys2Proof.Machine

/-! ## The turnstile at ARMED (R289, R292) -/

@[simp] theorem ldgEndCheck_unposted (s : State) : (ldgEndCheck s).unposted = s.unposted := by
  unfold ldgEndCheck
  split <;> simp

@[simp] theorem ldgClose_unposted (flags : Byte) (s : State) : (ldgClose flags s).unposted = s.unposted := by simp [ldgClose]

@[simp] theorem ldgOpen_unposted (p : Nat) (s : State) : (ldgOpen p s).unposted = s.unposted := by simp [ldgOpen]

@[simp] theorem ldgSkip_unposted (p : Nat) (s : State) : (ldgSkip p s).unposted = s.unposted := by simp [ldgSkip]

@[simp] theorem ldgSkipTo_unposted (old p q : Nat) (s : State) : (ldgSkipTo old p q s).unposted = s.unposted := by
  simp [ldgSkipTo]

@[simp] theorem ldgJudge_unposted (old : Nat) (s : State) : (ldgJudge old s).unposted = s.unposted := by
  unfold ldgJudge
  dsimp only
  split
  · rfl
  · split
    · split
      · simp
      · rfl
    · split
      · rfl
      · split
        · rfl
        · split <;> simp

@[simp] theorem ldgArm_unposted (s : State) : (ldgArm s).unposted = s.unposted := by
  unfold ldgArm
  split <;> simp

@[simp] theorem ldgStepEntry_unposted (old new : Nat) (s : State) : (ldgStepEntry old new s).unposted = s.unposted := by
  simp [ldgStepEntry]

@[simp] theorem ldgFirstLock_unposted (s : State) : (ldgFirstLock s).unposted = s.unposted := by
  unfold ldgFirstLock
  dsimp only
  split
  · rfl
  · split <;> simp

@[simp] theorem ldgStart_unposted (s : State) : (ldgStart s).unposted = s.unposted := by simp [ldgStart]

/-! ## The sections of the image -/

@[simp] theorem configurePower_loaded (old : Option PowerSec) (new : PowerSec) (s : State) :
    (configurePower old new s).loaded = s.loaded := by
  have stall (m u : Nat) (t : State) : (relockStall m u t).loaded = t.loaded := by
    refine loaded_foldl _ _ _ fun t n => ?_
    dsimp only
    split
    · split <;> rfl
    · rfl
  simp [configurePower, stall]

@[simp] theorem fillFallbacks_loaded (old : Option (Image × Mem)) (s : State) : (fillFallbacks old s).loaded = s.loaded :=
  (loaded_foldl _ _ _ fun _ _ => fillFallback_loaded ..).trans (loaded_of_parts ..)

@[simp] theorem egoDefault_loaded (s : State) : (egoDefault s).loaded = s.loaded := by
  unfold egoDefault
  split
  · rfl
  · split <;> rfl

@[simp] theorem vitConfigure_loaded (s : State) : (vitConfigure s).loaded = s.loaded := rfl
@[simp] theorem emptyGrids_loaded (s : State) : (emptyGrids s).loaded = s.loaded := rfl
@[simp] theorem clearReserve_loaded (banks : List (Nat × Nat)) (im : Image) (s : State) :
    (clearReserve banks im s).loaded = s.loaded :=
  rfl
@[simp] theorem imageDisc_loaded (d : BitVec 2) (s : State) : (imageDisc d s).loaded = s.loaded := rfl

/-- Of what the obligation names, the sections set the running image, the protection and the source of the tick. -/
theorem configureAll_loaded (im : Image) (t : Twin) (s : State) :
    (configureAll im t s).loaded = { s.loaded with
      run := some im, runTwin := t, base0 := im.arcArea.wp0, base1 := im.arcArea.wp1
      locked := s.arc.locked || im.arcArea.lockAtBoot, src := BitVec.ofNat 2 im.tick.initSrc } := by
  simp only [configureAll, vitConfigure_loaded, ldgResume_loaded, egoDefault_loaded, configurePower_loaded, emptyGrids_loaded,
    fillFallbacks_loaded, clearReserve_loaded, imageDisc_loaded, graphChanged_loaded]
  rfl

/-- Everything that a twin brings up to the judging of waiting records: its sections, the clocks of the self-tests, ARMED, and ports
that have no use under it. -/
def armedWith (im : Image) (t : Twin) (s : State) : State :=
  let s := configureAll im t { s with
    gctl.loadStat := stOk, gctl.loadTwin := decide (t = Twin.b), gctl.loadMs := BitVec.ofNat 16 ((s.mono - s.gctl.loadMono) / 1000000) }
  idleFabric (enter .armed { s with spis := s.spis.map (fun x => { x with lastMono := s.mono }), tst.rotMono := s.mono, flt.hbMono := s.mono })

theorem twinPasses_eq (t : Twin) (im : Image) (s : State) :
    twinPasses t im s = ldgStart (extDropped (rejudge (armedWith im t s))) :=
  rfl

theorem armedWith_loaded {im : Image} {t : Twin} {s : State} (h : s.mode = .load) :
    (armedWith im t s).loaded = { s.loaded with
      mode := .armed, everArmed := true, loadStat := stOk, loadTwin := decide (t = Twin.b), run := some im, runTwin := t
      base0 := im.arcArea.wp0, base1 := im.arcArea.wp1, locked := s.arc.locked || im.arcArea.lockAtBoot
      src := BitVec.ofNat 2 im.tick.initSrc } := by
  unfold armedWith
  extract_lets _ u
  have hu : u.loaded = { s.loaded with
      loadStat := stOk, loadTwin := decide (t = Twin.b), run := some im, runTwin := t, base0 := im.arcArea.wp0
      base1 := im.arcArea.wp1, locked := s.arc.locked || im.arcArea.lockAtBoot, src := BitVec.ofNat 2 im.tick.initSrc } :=
    configureAll_loaded ..
  clear_value u
  have hm : u.mode = .load := (congrArg LoadView.mode hu).trans h
  have hv (x) (y) (z) : State.loaded { u with spis := x, tst := y, flt := { u.flt with hbMono := z } } = u.loaded := rfl
  rw [idleFabric_loaded, enter_armed_loaded, hv, hu]
  show u.mode ≠ .armed
  rw [hm]
  decide

theorem extDropped_loaded (s : State) : (extDropped s).loaded = s.loaded := by simp [extDropped]

/-- What LOAD leaves where a twin passes and no waiting record leads to SAFE under it. -/
theorem twinPasses_loaded {im : Image} {t : Twin} {s : State} (h : s.mode = .load)
    (hr : ∀ d ∈ s.loaded.waiting, (mapOf { s with gctl.everArmed := true, img.run := some im } d).1 < 3) :
    ∃ w, (twinPasses t im s).loaded = { s.loaded with
      mode := .armed, everArmed := true, loadStat := stOk, loadTwin := decide (t = Twin.b), run := some im, runTwin := t
      base0 := im.arcArea.wp0, base1 := im.arcArea.wp1, locked := s.arc.locked || im.arcArea.lockAtBoot
      src := BitVec.ofNat 2 im.tick.initSrc, waiting := w } := by
  have ha := armedWith_loaded (im := im) (t := t) h
  generalize hx : armedWith im t s = x at ha
  have hm : x.mode = .armed := congrArg LoadView.mode ha
  have he : x.gctl.everArmed = true := congrArg LoadView.everArmed ha
  have hi : x.img.run = some im := congrArg LoadView.run ha
  have hw : x.loaded.waiting = s.loaded.waiting := by rw [ha]
  obtain ⟨w, hj⟩ := rejudge_loaded hm fun d hd => by
    rw [mapOf_congr (s := { s with gctl.everArmed := true, img.run := some im }) he hi]
    exact hr d (hw ▸ hd)
  refine ⟨w, ?_⟩
  rw [twinPasses_eq, hx, loaded_of_unposted (ldgStart_unposted _), extDropped_loaded, hj, ha]

/-! ## LOAD_DONE -/

theorem headerFail_of_unread {s t : State} (h : t.unread = s.unread) (w : Twin) : headerFail w t = headerFail w s := by
  unfold headerFail
  rw [uncorrIn_of_unread h, readBytes_of_unread h]

theorem twinBytes_of_unread {s t : State} (h : t.unread = s.unread) (w : Twin) : twinBytes w t = twinBytes w s := by
  unfold twinBytes
  rw [readBytes_of_unread h]

theorem twinImage_of_unread {s t : State} (h : t.unread = s.unread) (w : Twin) : twinImage w t = twinImage w s := by
  rw [twinImage, twinBytes_of_unread h, twinImage]

theorem twinToTry_of_unread {s t : State} (h : t.unread = s.unread) : twinToTry t = twinToTry s := by
  have hg : t.gctl = s.gctl := by rw [frame_of_unread h]
  rw [twinToTry, hg, newestSelector_of_unread h, twinToTry]

/-- Reads of the array leave a twin that holds as it is. -/
theorem twinHolds_of_unread {s t : State} (h : t.unread = s.unread) {w : Twin} (hw : TwinHolds w s) : TwinHolds w t := by
  have ho : t.otp = s.otp := by rw [frame_of_unread h]
  have hp : t.pins = s.pins := by rw [frame_of_unread h]
  unfold TwinHolds at *
  rwa [headerFail_of_unread h, uncorrIn_of_unread h, readBytes_of_unread h, twinBytes_of_unread h, twinImage_of_unread h, ho, hp]

theorem selectorRead_unread (e : EccView) (s : State) : (selectorRead e s).unread = (s.showing e).unread :=
  (showSelector_unread _).trans (ctlRead_unread ..)

/-- A twin that holds, with its payloads, is taken. -/
theorem exec_loadDone_of_holds {e : EccView} {t : Twin} {s : State} (hm : s.mode = .load) (ht : twinToTry (s.showing e) = t)
    (hh : TwinHolds t (s.showing e)) (hp : PayloadsHold (twinImage t (s.showing e)).payloads (s.showing e).arc) :
    ∃ q, exec (.loadDone e) s = .next (settle (twinPasses t (twinImage t (s.showing e)) q)) ∧ q.loaded = s.loaded := by
  have hr := selectorRead_unread e s
  have hx := (twinToTry_of_unread hr).trans ht
  obtain ⟨c, hc, hcu⟩ := checkTwin_of_holds (twinHolds_of_unread hr hh)
  rw [twinImage_of_unread hr] at hc
  have hcs := hcu.trans hr
  obtain ⟨q, hq, hqu, -⟩ := streamPayloads_of_holds (s := { c with mem := [] }) _ rfl (payloadsHold_of_unread hcs hp)
  have hl : c.loaded = s.loaded := (loaded_of_unread hcs).trans rfl
  refine ⟨q, ?_, (loaded_of_unread hqu).trans hl⟩
  have e' : exec (.loadDone e) s = execLoadDone e s := rfl
  rw [e', execLoadDone, if_neg (not_not_intro hm)]
  unfold selectorRead at hc hx
  generalize showSelector (ctlRead 0 0x4000 (s.showing e)) = r at hc hx
  simp only [hx, hc, hq]
  rfl

/-- R84, R86: what LOAD leaves where the twin, its payloads and the waiting records permit ARMED. -/
theorem exec_loadDone_loaded {e : EccView} {t : Twin} {s : State} (hm : s.mode = .load) (ht : twinToTry (s.showing e) = t)
    (hh : TwinHolds t (s.showing e)) (hp : PayloadsHold (twinImage t (s.showing e)).payloads (s.showing e).arc)
    (hr : RecordsPermit (twinImage t (s.showing e)) s) :
    ∃ u w, exec (.loadDone e) s = .next (settle u) ∧ u.loaded = { s.loaded with
      mode := .armed, everArmed := true, loadStat := stOk, loadTwin := decide (t = Twin.b)
      run := some (twinImage t (s.showing e)), runTwin := t, base0 := (twinImage t (s.showing e)).arcArea.wp0
      base1 := (twinImage t (s.showing e)).arcArea.wp1
      locked := s.arc.locked || (twinImage t (s.showing e)).arcArea.lockAtBoot
      src := BitVec.ofNat 2 (twinImage t (s.showing e)).tick.initSrc, waiting := w } := by
  obtain ⟨q, hq, hl⟩ := exec_loadDone_of_holds hm ht hh hp
  generalize twinImage t (s.showing e) = im at hq hr ⊢
  have hqm : q.mode = .load := (congrArg LoadView.mode hl).trans hm
  have hqk : q.arc.locked = s.arc.locked := congrArg LoadView.locked hl
  obtain ⟨w, hw⟩ := twinPasses_loaded (im := im) (t := t) hqm fun d hd => by
    rw [hl] at hd
    obtain ⟨r, hr', rfl⟩ := List.mem_map.mp hd
    obtain ⟨hrec, hj⟩ := List.mem_filter.mp hr'
    have hs : (mapOf { s with gctl.everArmed := true, img.run := some im } r.det).1 < 3 := hr r hrec (by simpa using hj)
    exact lt_of_eq_of_lt (congrArg Prod.fst (mapOf_congr rfl rfl r.det)) hs
  rw [hl, hqk] at hw
  exact ⟨_, w, hq, hw⟩

end Sys2Proof.Machine

/-! # O20: LOAD, IMG_STAGE, IMG_VERIFY and the end of verification -/
namespace Sys2Proof
open Machine

/-- Settles O20: each command comes to the checks that its premises name, and what it reads on the way changes neither what the checks see
nor what the obligation names. -/
theorem imageCommands : Obligations.ImageCommands := by
  unfold Obligations.ImageCommands
  refine ⟨?_, ?_, ?_, ?_, ?_, ?_, ?_, ?_, ?_⟩
  · intro e t s _ hm ht hh hp hr
    obtain ⟨u, w, hu, hl⟩ := exec_loadDone_loaded hm ht hh hp hr
    exact ⟨u, hu, congrArg LoadView.otp hl, congrArg LoadView.cvt hl, congrArg LoadView.gpio hl, congrArg LoadView.crd hl,
      congrArg LoadView.mbx hl, congrArg LoadView.shadows hl, congrArg LoadView.pending hl, congrArg LoadView.mode hl,
      congrArg LoadView.run hl, congrArg LoadView.runTwin hl, congrArg LoadView.loadStat hl, congrArg LoadView.loadTwin hl,
      congrArg LoadView.base0 hl, congrArg LoadView.base1 hl, congrArg LoadView.locked hl, congrArg LoadView.src hl⟩
  · intro src w s hs hh hm hr hw
    rw [exec_imgStage hh hm, stage_of_running hr hw]
    exact done_of_settled hs
  · intro src w s _ hh hm hr hst hf
    exact exec_imgStage_of_header hr hst hh hm hf
  · intro src w s _ hh hm hr hst hu
    exact exec_imgStage_of_uncorrectable hr hst hh hm hu
  · intro src s hs hh hm h1
    exact exec_imgVerify_of_staged hs hh hm h1
  · intro src s hs hh hm h1
    exact exec_imgVerify_of_unstaged hs hh hm h1
  · intro e w im s _ hmem h2 hb hw hi he hr hf hp
    subst hw
    obtain ⟨u, hu, hframe, hrest⟩ := verifyEnds_of_holds (s := s.showing e) hmem hb hi he hr hf hp
    exact ⟨u, hu ▸ exec_verifyDone e h2, hframe, hrest⟩
  · intro e w s _ h2 hb hw hu hk
    subst hw
    have hf : headerFail s.img.stgTwin (s.showing e) = some (0x01, stBadArg) := by simp [headerFail, hu, hk]
    have hb' : (s.showing e).img.fillBad = false := hb
    obtain ⟨u, hv, hframe, hrest⟩ := verifyEnds_of_error (s := s.showing e) (f := (0x01, stBadArg)) (by
      rw [hb']
      exact checkTwin_of_headerFail hf)
    exact ⟨u, hv ▸ exec_verifyDone e h2, hframe, hrest⟩
  · intro e s _ h2 hb
    have hb' : (s.showing e).img.fillBad = true := hb
    obtain ⟨u, hv, hframe, h1, hst, hre, hc, hf, hrun, -, -, hw, hmem⟩ :=
      verifyEnds_of_error (s := s.showing e) (f := (0x0B, stCrcError)) (by rw [hb']; rfl)
    exact ⟨u, hv ▸ exec_verifyDone e h2, hframe, h1, hst, hre, hc, hf, hrun, hw, hmem⟩

end Sys2Proof

/-! # O5: the memories stay in their canonical form

Each function that a command runs has one law here. A function that writes no memory has `f_mem`: it leaves `State.mem` as it
is. One that writes memory has `wf_f`: it keeps a canonical memory canonical, since every write is a `Memory.write` or a
`Memory.clear`, and a reset empties the memories (R96). The laws follow the order of the functions' definitions. -/
namespace Sys2Proof.Machine

@[simp] theorem mem_ite (c : Prop) [Decidable c] (s t : State) :
    (if c then s else t).mem = if c then s.mem else t.mem :=
  apply_ite ..

@[simp] theorem mem_fst_ite {β : Type} (c : Prop) [Decidable c] (p q : State × β) :
    (if c then p else q).1.mem = if c then p.1.mem else q.1.mem := by
  split <;> rfl

/-- A loop keeps the memory that each of its turns keeps. -/
@[simp] theorem mem_foldl {α : Type} (f : State → α → State) (l : List α) (s : State)
    (h : ∀ t x, (f t x).mem = t.mem) : (l.foldl f s).mem = s.mem := by
  induction l generalizing s with
  | nil => rfl
  | cons x l ih => rw [List.foldl_cons, ih, h]

/-- The same, of a loop that gathers a value beside the state. -/
@[simp] theorem mem_foldl_fst {α β : Type} (f : State × β → α → State × β) (l : List α) (p : State × β)
    (h : ∀ p x, (f p x).1.mem = p.1.mem) : (l.foldl f p).1.mem = p.1.mem := by
  induction l generalizing p with
  | nil => rfl
  | cons x l ih => rw [List.foldl_cons, ih, h]

theorem mem_if {c : Prop} [Decidable c] {s t u : State} (ht : t.mem = s.mem) (hu : u.mem = s.mem) :
    (if c then t else u).mem = s.mem := by
  split <;> assumption

theorem mem_fst_if {β : Type} {c : Prop} [Decidable c] {s : State} {p q : State × β} (hp : p.1.mem = s.mem)
    (hq : q.1.mem = s.mem) : (if c then p else q).1.mem = s.mem := by
  split <;> assumption

theorem exists_eq_mem {s t : State} (h : t.mem = s.mem) : ∃ u, t = u ∧ u.mem = s.mem := ⟨t, rfl, h⟩

/-! ## Machine.Ops -/

@[simp] theorem pairClean_mem (d : Nat) (s : State) : (pairClean d s).mem = s.mem := by simp [pairClean]

@[simp] theorem rejectReg_mem (src : Source) (a : Nat) (s : State) : (rejectReg src a s).mem = s.mem :=
  reject_mem ..

@[simp] theorem rejectCmd_mem (src : Source) (a item : Nat) (s : State) : (rejectCmd src a item s).mem = s.mem :=
  reject_mem ..

@[simp] theorem rejectFrame_mem (src : Source) (code : Byte) (s : State) : (rejectFrame src code s).mem = s.mem :=
  reject_mem ..

@[simp] theorem clearBlk_mem (b : CntBlk) (s : State) : (clearBlk b s).mem = s.mem := by
  unfold clearBlk
  split <;> simp

@[simp] theorem clearLive_mem (s : State) : (clearLive s).mem = s.mem := by simp [clearLive]

/-! ## Machine.Arch -/

@[simp] theorem State.showing_mem (ecc : EccView) (s : State) : (State.showing ecc s).mem = s.mem := rfl

@[simp] theorem eraseDone_mem (bank : Bool) (i : Nat) (s : State) : (eraseDone bank i s).mem = s.mem := by
  simp [eraseDone]

@[simp] theorem arcCount_mem (i : Nat) (s : State) : (arcCount i s).mem = s.mem := rfl

@[simp] theorem arcStat_mem (code st : Byte) (s : State) : (arcStat code st s).mem = s.mem := rfl

@[simp] theorem arcEnd_mem (code st : Byte) (s : State) : (arcEnd code st s).mem = s.mem := by simp [arcEnd]

@[simp] theorem arcResults_mem (ws : List Word) (s : State) : (arcResults ws s).mem = s.mem := by
  simp only [arcResults]

@[simp] theorem devBusy_mem (bank : Bool) (what : DevWhat) (a bound : Nat) (s : State) :
    (devBusy bank what a bound s).mem = s.mem := by
  simp [devBusy]

@[simp] theorem devErase_mem (bank : Bool) (i : Nat) (s : State) : (devErase bank i s).mem = s.mem := by
  simp [devErase]

@[simp] theorem devWord_mem (a : Nat) (bytes : List Byte) (s : State) : (devWord a bytes s).mem = s.mem := by
  simp [devWord]

@[simp] theorem devPut_mem (a : Nat) (bytes : List Byte) (s : State) : (devPut a bytes s).mem = s.mem := by
  simp [devPut]

@[simp] theorem devRun_mem (words : List (Nat × List Byte)) (s : State) : (devRun words s).mem = s.mem := by
  unfold devRun
  split <;> simp

@[simp] theorem abandonErase_mem (s : State) : (abandonErase s).mem = s.mem := by simp [abandonErase]

@[simp] theorem devPutFirst_mem (places : List Nat) (bytes : List Byte) (s : State) :
    (devPutFirst places bytes s).mem = s.mem := by
  induction places generalizing s with
  | nil => rfl
  | cons a rest ih => simp [devPutFirst, ih]

@[simp] theorem suspendNow_mem (e : ArcErase) (s : State) : (suspendNow e s).mem = s.mem := by simp [suspendNow]

@[simp] theorem arcNow_mem (s : State) : (arcNow s).mem = s.mem := by
  unfold arcNow
  dsimp only
  split
  · split <;> simp
  · split
    · simp
    · rfl

@[simp] theorem eccCorrected_mem (a n : Nat) (s : State) : (eccCorrected a n s).mem = s.mem := by simp [eccCorrected]

@[simp] theorem eccUncorrectable_mem (a : Nat) (s : State) : (eccUncorrectable a s).mem = s.mem := by
  simp [eccUncorrectable]

@[simp] theorem eccLine_mem (a : Nat) (s : State) : (eccLine a s).mem = s.mem := by simp [eccLine]

@[simp] theorem eccLines_mem (lines : List Nat) (s : State) : (eccLines lines s).mem = s.mem := by simp [eccLines]

@[simp] theorem streamCount_mem (bank : Bool) (bursts : Nat) (s : State) : (streamCount bank bursts s).mem = s.mem := by
  simp [streamCount]

@[simp] theorem streamS_mem (a len : Nat) (s : State) : (streamS a len s).mem = s.mem := by simp [streamS]

@[simp] theorem fillCtl_mem (errs : List Nat) (l : Nat) (s : State) : (fillCtl errs l s).mem = s.mem := by
  simp [fillCtl]

@[simp] theorem ctlRead_mem (a len : Nat) (s : State) : (ctlRead a len s).mem = s.mem := by simp [ctlRead]

@[simp] theorem relieve_mem (place : Nat) (s : State) : (relieve place s).mem = s.mem := by simp [relieve]

@[simp] theorem selectorSpace_mem (s : State) : (selectorSpace s).1.mem = s.mem := by
  simp only [selectorSpace]
  split <;> simp

@[simp] theorem putSelector_mem (bytes : List Byte) (n : Nat) (s : State) : (putSelector bytes n s).mem = s.mem := by
  induction n generalizing s with
  | zero => simp [putSelector]
  | succ n ih => simp [putSelector, ih]

@[simp] theorem writeSelector_mem (twin : Twin) (pre : Word) (s : State) : (writeSelector twin pre s).mem = s.mem := by
  simp [writeSelector]

@[simp] theorem wordEnds_mem (p : ArcProg) (s : State) : (wordEnds p s).mem = s.mem := by simp [wordEnds]

@[simp] theorem swapEnds_mem (p : ArcProg) (s : State) : (swapEnds p s).mem = s.mem := by simp [swapEnds]

@[simp] theorem blankEnds_mem (p : ArcProg) (s : State) : (blankEnds p s).mem = s.mem := by simp [blankEnds]

@[simp] theorem progEnds_mem (s : State) : (progEnds s).mem = s.mem := by unfold progEnds; split <;> simp

@[simp] theorem agentTurn_mem (s : State) : (agentTurn s).mem = s.mem := by simp only [agentTurn]; split <;> simp

/-! ## Machine.Ledger -/

@[simp] theorem putLedger_mem (p : Nat) (words : List (List Byte)) (s : State) :
    (putLedger p words s).mem = s.mem := by
  unfold putLedger
  refine mem_foldl_fst _ _ _ fun p q => ?_
  split <;> simp

@[simp] theorem ldgTouch_mem (s : State) : (ldgTouch s).mem = s.mem := rfl

@[simp] theorem ldgFull_mem (s : State) : (ldgFull s).mem = s.mem := by simp [ldgFull]

@[simp] theorem ldgStore_mem (e : LedgerEntry) (s : State) : (ldgStore e s).mem = s.mem := by simp [ldgStore]

@[simp] theorem ldgWrite_mem (e : LedgerEntry) (s : State) : (ldgWrite e s).mem = s.mem := by simp [ldgWrite]

@[simp] theorem ldgCheckpoint_mem (final : Bool) (s : State) : (ldgCheckpoint final s).mem = s.mem := by
  simp [ldgCheckpoint]

@[simp] theorem ldgEndCheck_mem (s : State) : (ldgEndCheck s).mem = s.mem := by unfold ldgEndCheck; split <;> simp

@[simp] theorem ldgClose_mem (flags : Byte) (s : State) : (ldgClose flags s).mem = s.mem := by simp [ldgClose]

@[simp] theorem ldgOpen_mem (p : Nat) (s : State) : (ldgOpen p s).mem = s.mem := by simp [ldgOpen]

@[simp] theorem ldgSkip_mem (p : Nat) (s : State) : (ldgSkip p s).mem = s.mem := by simp [ldgSkip]

@[simp] theorem ldgSkipTo_mem (old p q : Nat) (s : State) : (ldgSkipTo old p q s).mem = s.mem := by simp [ldgSkipTo]

@[simp] theorem ldgJudge_mem (old : Nat) (s : State) : (ldgJudge old s).mem = s.mem := by
  unfold ldgJudge
  dsimp only
  split
  · rfl
  · split
    · split
      · simp
      · rfl
    · split
      · rfl
      · split
        · rfl
        · split <;> simp

@[simp] theorem ldgArm_mem (s : State) : (ldgArm s).mem = s.mem := by unfold ldgArm; split <;> simp

@[simp] theorem ldgStepEntry_mem (old new : Nat) (s : State) : (ldgStepEntry old new s).mem = s.mem := by
  simp [ldgStepEntry]

@[simp] theorem ldgStep_mem (old new : Nat) (s : State) : (ldgStep old new s).mem = s.mem := by simp [ldgStep]

@[simp] theorem ldgFirstLock_mem (s : State) : (ldgFirstLock s).mem = s.mem := by
  unfold ldgFirstLock
  dsimp only
  split
  · rfl
  · split <;> simp

@[simp] theorem ldgBackstop_mem (s : State) : (ldgBackstop s).mem = s.mem := by unfold ldgBackstop; split <;> simp

@[simp] theorem ldgAccrue_mem (len : Nat) (emitRun : Bool) (gateDone : Nat → Bool) (s : State) :
    (ldgAccrue len emitRun gateDone s).mem = s.mem := by
  simp [ldgAccrue]

@[simp] theorem ldgResume_mem (s : State) : (ldgResume s).mem = s.mem := by
  obtain ⟨u, hu, h⟩ := exists_eq_mem (ctlRead_mem ledgerBase 0x10000 s)
  unfold ldgResume
  rw [hu]
  split
  · rfl
  · extract_lets _ found _ _ _ _ _ _ s₁ _ s₂
    have h₁ : s₁.mem = s.mem := Eq.trans rfl h
    clear_value s₁
    have h₂ : s₂.mem = s.mem := by
      unfold s₂
      split
      · exact Eq.trans rfl h₁
      · exact h₁
    clear_value s₂
    split
    · exact h₂
    · exact Eq.trans rfl (Eq.trans rfl h₂)

@[simp] theorem ldgStart_mem (s : State) : (ldgStart s).mem = s.mem := by simp [ldgStart]

@[simp] theorem ldgCommitClose_mem (s : State) : (ldgCommitClose s).mem = s.mem := by simp [ldgCommitClose]

@[simp] theorem ldgCommitOpen_mem (new : Option LedgerSec) (s : State) : (ldgCommitOpen new s).mem = s.mem := by
  unfold ldgCommitOpen
  split <;> simp

/-! ## Machine.Clock -/

@[simp] theorem setLocked_mem (b : Bool) (s : State) : (setLocked b s).mem = s.mem := by simp [setLocked]

@[simp] theorem timeStep_mem (cause : BitVec 3) (old new : Nat) (s : State) :
    (timeStep cause old new s).mem = s.mem := by
  simp [timeStep]

@[simp] theorem hostStep_mem (old new : Nat) (s : State) : (hostStep old new s).mem = s.mem := by simp [hostStep]

@[simp] theorem slewBegin_mem (ofs : Int) (ppm : Nat) (s : State) : (slewBegin ofs ppm s).mem = s.mem :=
  rfl

@[simp] theorem takeApply_mem (a : TimApply) (old : Nat) (s : State) : (takeApply a old s).mem = s.mem := by
  simp [takeApply]

@[simp] theorem plainUpdates_mem (k : Nat) (s : State) : (plainUpdates k s).mem = s.mem := by simp [plainUpdates]

@[simp] theorem stageDisc_mem (d : BitVec 2) (s : State) : (stageDisc d s).mem = s.mem := rfl

@[simp] theorem takeDisc_mem (d : BitVec 2) (s : State) : (takeDisc d s).mem = s.mem := by simp [takeDisc]

@[simp] theorem counterUpdate_mem (s : State) : (counterUpdate s).mem = s.mem := by
  unfold counterUpdate
  extract_lets s₁ _ s₂ _ _ s₃
  have h₁ : s₁.mem = s.mem := by
    unfold s₁
    split <;> simp
  have h : s₃.mem = s.mem :=
    (mem_foldl _ _ _ fun t a => takeApply_mem ..).trans ((plainUpdates_mem 1 s₁).trans h₁)
  clear_value s₃
  split
  · exact h
  · split <;> simp [h]

@[simp] theorem updates_mem (fuel n : Nat) (s : State) : (updates fuel n s).mem = s.mem := by
  induction fuel generalizing n s with
  | zero => exact plainUpdates_mem n s
  | succ fuel ih => simp [updates, ih]

@[simp] theorem advanceTo_mem (m : Nat) (s : State) : (advanceTo m s).mem = s.mem := by simp [advanceTo]

@[simp] theorem advanceStamp_mem (g : Nat) (s : State) : (advanceStamp g s).mem = s.mem := by
  unfold advanceStamp
  exact mem_foldl _ _ _ fun t _ => by simp

@[simp] theorem toStamp_mem (n : Nat) (g : State → Int) (s : State) : (toStamp n g s).mem = s.mem := by
  induction n generalizing s with
  | zero => rfl
  | succ n ih => simp [toStamp, ih]

@[simp] theorem lockJudge_mem (o : Int) (s : State) : (lockJudge o s).mem = s.mem := by simp [lockJudge]

@[simp] theorem measure_mem (cause : BitVec 3) (o : Int) (i : Nat) (s : State) : (measure cause o i s).mem = s.mem := by
  simp [measure]

@[simp] theorem enterHoldover_mem (s : State) : (enterHoldover s).mem = s.mem := by simp [enterHoldover]

/-! ## Machine.FabOps -/

@[simp] theorem fabVec_mem (s : State) : (fabVec s).mem = s.mem := by simp [fabVec]

@[simp] theorem graphChanged_mem (s : State) : (graphChanged s).mem = s.mem := by simp [graphChanged]

@[simp] theorem sendPort_mem (p : Nat) (hdr : MsgHdr) (msg : FabMsg) (s : State) :
    (sendPort p hdr msg s).mem = s.mem := by
  simp [sendPort]

@[simp] theorem transmit_mem (s : State) (m : OutMsg) : (transmit s m).mem = s.mem := by simp [transmit]

@[simp] theorem flushPorts_mem (s : State) : (flushPorts s).mem = s.mem := by simp [flushPorts]

@[simp] theorem sendAck_mem (p : Nat) (kind : BitVec 4) (seq : BitVec 12) (s : State) :
    (sendAck p kind seq s).mem = s.mem := by
  simp [sendAck]

@[simp] theorem sendAll_mem (but : Option Nat) (hdr : MsgHdr) (msg : FabMsg) (s : State) :
    (sendAll but hdr msg s).mem = s.mem := by
  simp [sendAll]

@[simp] theorem sendLink_mem (p : Nat) (msg : FabMsg) (s : State) : (sendLink p msg s).mem = s.mem := by
  simp [sendLink]

@[simp] theorem sendBroadcast_mem (msg : FabMsg) (s : State) : (sendBroadcast msg s).mem = s.mem := by
  simp [sendBroadcast]

@[simp] theorem sendTo_mem (dst : BitVec 12) (replyReq : Bool) (msg : FabMsg) (s : State) :
    (sendTo dst replyReq msg s).mem = s.mem := by
  simp only [sendTo]
  split <;> simp

@[simp] theorem answerReq_mem (p : Nat) (hdr : MsgHdr) (type status : Byte) (s : State) :
    (answerReq p hdr type status s).mem = s.mem := by
  simp [answerReq]

@[simp] theorem passOn_mem (ports : List Nat) (hdr : MsgHdr) (msg : FabMsg) (s : State) :
    (passOn ports hdr msg s).mem = s.mem := by
  simp [passOn]

@[simp] theorem acceptLink_mem (p : Nat) (rx : LinkRx) (s : State) : (acceptLink p rx s).mem = s.mem := by
  simp [acceptLink]

@[simp] theorem missFrame_mem (p : Nat) (cnt : Option Nat) (s : State) : (missFrame p cnt s).mem = s.mem := by
  simp [missFrame]

@[simp] theorem storeLsa_mem (r : LsaRec) (s : State) : (storeLsa r s).mem = s.mem := by simp [storeLsa]

@[simp] theorem floodLsa_mem (s : State) : (floodLsa s).mem = s.mem := by simp [floodLsa]

@[simp] theorem linkDown_mem (p : Nat) (s : State) : (linkDown p s).mem = s.mem := by simp [linkDown]

@[simp] theorem linkLost_mem (p : Nat) (s : State) : (linkLost p s).mem = s.mem := by simp [linkLost]

@[simp] theorem idleFabric_mem (s : State) : (idleFabric s).mem = s.mem := by simp [idleFabric]

@[simp] theorem setRole_mem (r : BitVec 3) (s : State) : (setRole r s).mem = s.mem := by simp [setRole]

@[simp] theorem followFabric_mem (s : State) : (followFabric s).mem = s.mem := by simp [followFabric]

@[simp] theorem genHeard_mem (e : BitVec 64) (s : State) : (genHeard e s).mem = s.mem := rfl

@[simp] theorem setEpoch_mem (e : BitVec 64) (s : State) : (setEpoch e s).mem = s.mem := by simp [setEpoch]

@[simp] theorem sendRole_mem (s : State) : (sendRole s).mem = s.mem := by simp [sendRole]

@[simp] theorem epochUp_mem (k : Nat) (s : State) : (epochUp k s).mem = s.mem := by simp [epochUp]

@[simp] theorem takeOffice_mem (stby : BitVec 12) (isTakeover : Bool) (s : State) :
    (takeOffice stby isTakeover s).mem = s.mem := by
  simp [takeOffice]

@[simp] theorem planAddrs_mem (s : State) : (planAddrs s).1.mem = s.mem := by
  unfold planAddrs
  refine mem_foldl_fst _ _ _ fun p x => ?_
  extract_lets t _ a
  clear_value a
  cases a <;> simp [t]

@[simp] theorem sendAddrs_mem (l : List (BitVec 64 × BitVec 12)) (s : State) : (sendAddrs l s).mem = s.mem := by
  simp [sendAddrs]

@[simp] theorem assignAddrs_mem (s : State) : (assignAddrs s).mem = s.mem := by simp [assignAddrs]

@[simp] theorem issueVerdict_mem (m : Member) (cause : BitVec 4) (action : Byte) (s : State) :
    (issueVerdict m cause action s).mem = s.mem := by
  simp [issueVerdict]

/-! ## Machine.VitOps -/

@[simp] theorem putRec_mem (a : Area) (first w : Nat) (bs : List (List Byte)) (s : State) :
    (putRec a first w bs s).mem = s.mem := by
  induction bs generalizing w s with
  | nil => rfl
  | cons b bs ih => simp [putRec, ih]

@[simp] theorem ringRestart_mem (s : State) : (ringRestart s).mem = s.mem := rfl

@[simp] theorem endCapture_mem (s : State) : (endCapture s).mem = s.mem := by unfold endCapture; split <;> simp

@[simp] theorem trigLost_mem (s : State) : (trigLost s).mem = s.mem := by simp only [trigLost]; split <;> simp

@[simp] theorem addTrig_mem (t : TrigEntry) (s : State) : (addTrig t s).mem = s.mem := by
  unfold addTrig
  split <;> simp

@[simp] theorem openRecord_mem (t : TrigEntry) (s : State) : (openRecord t s).mem = s.mem := by simp [openRecord]

@[simp] theorem takeTrigger_mem (t : TrigEntry) (s : State) : (takeTrigger t s).mem = s.mem := by
  unfold takeTrigger
  split
  · simp
  · split
    · simp
    · dsimp only
      split <;> simp
  · split <;> simp
  · rfl
  · simp

@[simp] theorem vitTriggerAt_mem (back cause : Nat) (detail : BitVec 16) (level : Byte) (origin : BitVec 64) (s : State) :
    (vitTriggerAt back cause detail level origin s).mem = s.mem := by
  unfold vitTriggerAt
  extract_lets _ listed t s₁
  have h : s₁.mem = s.mem := by simp [s₁]
  clear_value listed t s₁
  simp [h]

@[simp] theorem vitTrigger_mem (cause : Nat) (detail : BitVec 16) (level : Byte) (origin : BitVec 64) (s : State) :
    (vitTrigger cause detail level origin s).mem = s.mem :=
  vitTriggerAt_mem ..

@[simp] theorem commitBlock_mem (s : State) : (commitBlock s).mem = s.mem := by unfold commitBlock; split <;> simp

@[simp] theorem recheckRecord_mem (s : State) : (recheckRecord s).mem = s.mem := by simp [recheckRecord]

@[simp] theorem writeClose_mem (cause : Nat) (r : Record) (sumBytes : Nat) (s : State) :
    (writeClose cause r sumBytes s).mem = s.mem := by
  simp [writeClose]

@[simp] theorem scanArea_mem (s : State) : (scanArea s).mem = s.mem := by simp [scanArea]

@[simp] theorem eraseAhead_mem (from_ : Nat) (s : State) : (eraseAhead from_ s).1.mem = s.mem := by simp [eraseAhead]

@[simp] theorem sealComplete_mem (s : State) : (sealComplete s).mem = s.mem := by
  unfold sealComplete
  split
  · rfl
  · extract_lets next
    have h := eraseAhead_mem next s
    clear_value next
    generalize eraseAhead next s = e at h ⊢
    obtain ⟨t, ok⟩ := e
    dsimp only
    rw [writeClose_mem]
    exact h

@[simp] theorem sealNow_mem (cause : Nat) (s : State) : (sealNow cause s).mem = s.mem := by
  simp only [sealNow]
  split <;> simp

@[simp] theorem readBlocks_mem (f : FoundRec) (s : State) : (readBlocks f s).mem = s.mem := by simp [readBlocks]

@[simp] theorem startSeal_mem (s : State) : (startSeal s).mem = s.mem := by simp [startSeal]

@[simp] theorem vitPrepare_mem (s : State) : (vitPrepare s).mem = s.mem := by simp only [vitPrepare]; split <;> simp

@[simp] theorem vitConfigure_mem (s : State) : (vitConfigure s).mem = s.mem := rfl

@[simp] theorem vitLeave_mem (s : State) : (vitLeave s).mem = s.mem := by simp [vitLeave]

/-! ## Machine.Sched -/

@[simp] theorem putToken_mem (slot : Nat) (gen : Byte) (t : Token) (s : State) :
    (putToken slot gen t s).mem = s.mem :=
  rfl

@[simp] theorem schVec_mem (s : State) : (schVec s).mem = s.mem := by simp [schVec]

@[simp] theorem writeVoid_mem (slot : Nat) (gen : Byte) (mask : Word) (s : State) :
    (writeVoid slot gen mask s).mem = s.mem := by
  simp [writeVoid]

@[simp] theorem voidOutputs_mem (t : TaskDesc) (gen : Byte) (mask : Word) (s : State) :
    (voidOutputs t gen mask s).mem = s.mem := by
  simp [voidOutputs]

@[simp] theorem markDone_mem (id : Nat) (k : BitVec 64) (s : State) : (markDone id k s).mem = s.mem :=
  rfl

@[simp] theorem loseTask_mem (t : TaskDesc) (k : BitVec 64) (s : State) : (loseTask t k s).mem = s.mem := by
  simp [loseTask]

@[simp] theorem reportSolve_mem (n : Nat) (r : SolveRun) (fbDefault accepted : Bool) (s : State) :
    (reportSolve n r fbDefault accepted s).mem = s.mem := by
  simp [reportSolve]

@[simp] theorem abortSolve_mem (n : Nat) (j : Job) (s : State) : (abortSolve n j s).mem = s.mem := by
  unfold abortSolve
  split <;> simp

@[simp] theorem freeCore_mem (n : Nat) (s : State) : (freeCore n s).mem = s.mem := by simp [freeCore]

@[simp] theorem dropRunning_mem (hit : Job → Bool) (s : State) : (dropRunning hit s).mem = s.mem := by
  unfold dropRunning
  refine mem_foldl _ _ _ fun t n => ?_
  split <;> simp

@[simp] theorem abortWaiting_mem (l : List TaskDesc) (s : State) : (abortWaiting l s).mem = s.mem := by
  unfold abortWaiting
  refine mem_foldl _ _ _ fun t d => ?_
  split <;> simp

@[simp] theorem cancelTick_mem (k : BitVec 64) (s : State) : (cancelTick k s).1.mem = s.mem := by simp [cancelTick]

@[simp] theorem dropTasks_mem (s : State) : (dropTasks s).mem = s.mem := by simp [dropTasks]

@[simp] theorem stopCompute_mem (s : State) : (stopCompute s).mem = s.mem := by simp [stopCompute]

@[simp] theorem fenceCore_mem (n : Nat) (cause : BitVec 2) (s : State) : (fenceCore n cause s).mem = s.mem := by
  unfold fenceCore
  split
  · rfl
  · refine (mem_foldl _ _ _ fun t j => ?_).trans ?_
    · split
      · rfl
      · split <;> simp
    · split <;> simp

/-! ## Machine.States -/

@[simp] theorem drivePair_mem (v : Option (Bool × Bool)) (s : State) : (drivePair v s).mem = s.mem := by
  unfold drivePair
  split
  · rfl
  · split <;> simp

@[simp] theorem pairFor_mem (old : Mode) (s : State) : (pairFor old s).mem = s.mem := by simp [pairFor]

@[simp] theorem endTick_mem (s : State) : (endTick s).mem = s.mem := by simp [endTick]

@[simp] theorem idlePorts_mem (s : State) : (idlePorts s).mem = s.mem := by simp [idlePorts]

@[simp] theorem dropFrames_mem (s : State) : (dropFrames s).mem = s.mem := rfl

@[simp] theorem withdrawCommit_mem (s : State) : (withdrawCommit s).mem = s.mem := by simp [withdrawCommit]

@[simp] theorem managerSafe_mem (s : State) : (managerSafe s).mem = s.mem := by
  unfold managerSafe
  split
  · rfl
  · split
    · simp
    · simp
    · rfl

@[simp] theorem pinsBack_mem (old : Mode) (s : State) : (pinsBack old s).mem = s.mem := by
  unfold pinsBack
  split
  · split
    · simp
    · simp
    · simp
    · rfl
  · rfl

@[simp] theorem dropCompute_mem (s : State) : (dropCompute s).mem = s.mem := by simp [dropCompute]

@[simp] theorem quietCores_mem (s : State) : (quietCores s).mem = s.mem := by simp [quietCores]

@[simp] theorem keepBefore_mem (s : State) : (keepBefore s).mem = s.mem := by simp [keepBefore]

@[simp] theorem enter_mem (m : Mode) (s : State) : (enter m s).mem = s.mem := by
  unfold enter
  split
  · split <;> simp
  · split <;> simp

@[simp] theorem undoHalt_mem (s : State) : (undoHalt s).mem = s.mem := by unfold undoHalt; split <;> simp

@[simp] theorem undoLower_mem (s : State) : (undoLower s).mem = s.mem := by unfold undoLower; split <;> simp

@[simp] theorem enterOver_mem (m : Mode) (s : State) : (enterOver m s).mem = s.mem := by simp [enterOver]

@[simp] theorem quarantine_mem (cause : BitVec 4) (s : State) : (quarantine cause s).mem = s.mem := by
  simp only [quarantine]
  split <;> simp

@[simp] theorem degrade_mem (s : State) : (degrade s).mem = s.mem := by simp [degrade]

@[simp] theorem goSafe_mem (s : State) : (goSafe s).mem = s.mem := by unfold goSafe; split <;> simp

@[simp] theorem finishWord_mem (s : State) : (finishWord s).mem = s.mem := by unfold finishWord; split <;> simp

@[simp] theorem levelsCleared_mem (s : State) : (levelsCleared s).mem = s.mem := by simp [levelsCleared]

/-! ## Machine.Warden -/

@[simp] theorem fenceOf_mem (d : Nat) (s : State) : (fenceOf d s).mem = s.mem := by simp [fenceOf]

@[simp] theorem recordOcc_mem (d level : Nat) (line esc act : Bool) (detail : Word) (held : Bool) (s : State) :
    (recordOcc d level line esc act detail held s).mem = s.mem := by
  unfold recordOcc
  split <;> simp

@[simp] theorem occur_mem (d : Nat) (line act : Bool) (detail : Word) (s : State) :
    (occur d line act detail s).1.mem = s.mem := by
  simp [occur]

@[simp] theorem takePattern_mem (block : Bool) (x : DetPattern) (s : State) :
    (takePattern block x s).1.mem = s.mem := by
  unfold takePattern
  dsimp only
  split
  · simp
  · split
    · split <;> simp
    · simp

@[simp] theorem clearRec_mem (d : Nat) (s : State) : (clearRec d s).mem = s.mem := by unfold clearRec; split <;> simp

@[simp] theorem clearAllRecs_mem (s : State) : (clearAllRecs s).mem = s.mem := by simp [clearAllRecs]

@[simp] theorem extDropped_mem (s : State) : (extDropped s).mem = s.mem := by simp [extDropped]

/-! ## Machine.PowerOps -/

@[simp] theorem pwrVec_mem (s : State) : (pwrVec s).mem = s.mem := by simp [pwrVec]

@[simp] theorem thermalCap_mem (s : State) : (thermalCap s).mem = s.mem := by simp [thermalCap]

@[simp] theorem thermalLevel_mem (s : State) : (thermalLevel s).mem = s.mem := by simp [thermalLevel]

@[simp] theorem takeBudget_mem (s : State) (b : FabBudget) : (takeBudget s b).mem = s.mem := by simp [takeBudget]

@[simp] theorem fabBudget_mem (s : State) : (fabBudget s).mem = s.mem := by simp [fabBudget]

@[simp] theorem settleBudget_mem (s : State) : (settleBudget s).mem = s.mem := by unfold settleBudget; split <;> simp

@[simp] theorem planWait_mem (s : State) : (planWait s).mem = s.mem := by unfold planWait; split <;> simp

@[simp] theorem relockStall_mem (oldMhz until_ : Nat) (s : State) : (relockStall oldMhz until_ s).mem = s.mem := by
  unfold relockStall
  refine mem_foldl _ _ _ fun t n => ?_
  dsimp only
  split <;> simp

@[simp] theorem configurePower_mem (old : Option PowerSec) (new : PowerSec) (s : State) :
    (configurePower old new s).mem = s.mem := by
  simp [configurePower]

/-! ## Machine.ImgOps -/

@[simp] theorem clearVote_mem (s : State) : (clearVote s).mem = s.mem := rfl

@[simp] theorem rebuildSched_mem (s : State) : (rebuildSched s).mem = s.mem := by simp [rebuildSched]

@[simp] theorem imageDisc_mem (d : BitVec 2) (s : State) : (imageDisc d s).mem = s.mem := by simp [imageDisc]

@[simp] theorem configureArc_mem (a : ArcAreaSec) (s : State) : (configureArc a s).mem = s.mem := rfl

@[simp] theorem egoDefault_mem (s : State) : (egoDefault s).mem = s.mem := by
  unfold egoDefault
  split
  · simp
  · split <;> simp

@[simp] theorem managerCommit_mem (s : State) : (managerCommit s).mem = s.mem := by simp [managerCommit]

@[simp] theorem commitFabric_mem (old new : Image) (s : State) : (commitFabric old new s).mem = s.mem := by
  simp [commitFabric]

@[simp] theorem sendBudgets_mem (s : State) : (sendBudgets s).mem = s.mem := by
  unfold sendBudgets
  split
  · rfl
  · refine (mem_foldl _ _ _ fun t e => ?_).trans rfl
    split <;> simp

@[simp] theorem imageSrc_mem (d : BitVec 2) (s : State) : (imageSrc d s).mem = s.mem := by simp [imageSrc]

@[simp] theorem dropCardFrames_mem (old new : Image) (s : State) : (dropCardFrames old new s).mem = s.mem := by
  simp [dropCardFrames]

/-! ## Machine.Queues -/

@[simp] theorem markDelivered_mem (s : State) : (markDelivered s).mem = s.mem := rfl

@[simp] theorem streamArrived_mem (d : StreamDecl) (c : BitVec 64) (s : State) : (streamArrived d c s).mem = s.mem := by
  simp [streamArrived]

@[simp] theorem setOff_mem (q place : Nat) (off : Int) (s : State) : (setOff q place off s).mem = s.mem :=
  rfl

@[simp] theorem consume_mem (q n : Nat) (s : State) : (consume q n s).mem = s.mem := by
  simp only [consume]
  split <;> simp

/-! ## Machine.Boundary -/

@[simp] theorem sendJoin_mem (s : State) : (sendJoin s).mem = s.mem := by simp [sendJoin]

@[simp] theorem joinAtBoundary_mem (s : State) : (joinAtBoundary s).mem = s.mem := by simp [joinAtBoundary]

@[simp] theorem sendReport_mem (s : State) : (sendReport s).mem = s.mem := by simp [sendReport]

@[simp] theorem srcEvent_mem (s : State) : (srcEvent s).mem = s.mem := by simp [srcEvent]

@[simp] theorem saturationCheck_mem (s : State) : (saturationCheck s).mem = s.mem := by simp [saturationCheck]

@[simp] theorem sliceLate_mem (s : State) : (sliceLate s).mem = s.mem := by unfold sliceLate; split <;> simp

@[simp] theorem tickEnds_mem (bm : Nat) (s : State) : (tickEnds bm s).mem = s.mem := by simp [tickEnds]

@[simp] theorem endFly_mem (s : State) : (endFly s).mem = s.mem := by unfold endFly; split <;> simp

@[simp] theorem sourceStep_mem (fly : Bool) (sw : Option Switch) (s : State) :
    (sourceStep fly sw s).mem = s.mem := by
  unfold sourceStep
  extract_lets _ s₁ _ _ s₂ _ s₃ _ s₄
  have h₁ : s₁.mem = s.mem := by
    unfold s₁
    split
    · exact (srcEvent_mem _).trans (rfl)
    · rfl
  have h₂ : s₂.mem = s₁.mem := by
    unfold s₂
    split
    · exact rfl
    · rfl
  have h₃ : s₃.mem = s₂.mem := mem_if ((srcEvent_mem _).trans (rfl)) (rfl)
  have h₄ : s₄.mem = s₃.mem := by
    unfold s₄
    split
    · exact mem_if (rfl) (rfl)
    · rfl
  have h : s₄.mem = s.mem := h₄.trans (h₃.trans (h₂.trans h₁))
  exact mem_if (mem_if ((srcEvent_mem _).trans (Eq.trans rfl h)) (Eq.trans rfl h))
    (mem_if ((srcEvent_mem _).trans (Eq.trans rfl h)) (Eq.trans rfl h))

@[simp] theorem enterRun_mem (s : State) : (enterRun s).mem = s.mem := by simp [enterRun]

@[simp] theorem stateStep_mem (fly : Bool) (s : State) : (stateStep fly s).mem = s.mem := by
  simp only [stateStep]
  split <;> simp

@[simp] theorem flyEnds_mem (fly : Bool) (s : State) : (flyEnds fly s).mem = s.mem := by simp [flyEnds]

@[simp] theorem flyJudge_mem (fly : Bool) (s : State) : (flyJudge fly s).mem = s.mem := by simp [flyJudge]

@[simp] theorem takeOver_mem (s : State) : (takeOver s).mem = s.mem := by simp [takeOver]

@[simp] theorem openGather_mem (s : State) : (openGather s).mem = s.mem := by simp [openGather]

/-! ## Machine.Access -/

@[simp] theorem gctlStat_mem (code st : Byte) (s : State) : (gctlStat code st s).mem = s.mem := rfl

@[simp] theorem doHalt_mem (src : Source) (s : State) : (doHalt src s).1.mem = s.mem := by simp [doHalt]

@[simp] theorem doGo_mem (s : State) : (doGo s).1.mem = s.mem := by simp [doGo]

@[simp] theorem doMaint_mem (s : State) : (doMaint s).1.mem = s.mem := by simp [doMaint]

@[simp] theorem doClrCnt_mem (s : State) : (doClrCnt s).1.mem = s.mem := by simp [doClrCnt]

/-! ## Machine.Links -/

@[simp] theorem linkUp_mem (p : Nat) (b : LinkPartner) (s : State) : (linkUp p b s).mem = s.mem := by simp [linkUp]

@[simp] theorem replayFrom_mem (p : Nat) (missing : BitVec 12) (s : State) : (replayFrom p missing s).mem = s.mem := by
  unfold replayFrom
  extract_lets q kept again s₁ s₂
  have h : s₂.mem = s.mem := (mem_foldl _ _ _ fun t x => State.say_mem ..).trans (State.setPort_mem ..)
  clear_value s₂
  exact mem_if rfl (mem_if ((linkLost_mem ..).trans h) h)

@[simp] theorem sendHellos_mem (s : State) : (sendHellos s).mem = s.mem := by simp [sendHellos]

@[simp] theorem helloTaken_mem (p : Nat) (h : Hello) (s : State) : (helloTaken p h s).mem = s.mem := by
  simp [helloTaken]

@[simp] theorem trackLoss_mem (s : State) : (trackLoss s).mem = s.mem := by simp [trackLoss]

@[simp] theorem judgeDup_mem (s : State) : (judgeDup s).mem = s.mem := by simp [judgeDup]

@[simp] theorem dbChanged_mem (s : State) : (dbChanged s).mem = s.mem := by simp [dbChanged]

@[simp] theorem lsaTaken_mem (hdr : MsgHdr) (l : Lsa) (s : State) : (lsaTaken hdr l s).mem = s.mem := by
  simp [lsaTaken]

@[simp] theorem electSelf_mem (s : State) : (electSelf s).mem = s.mem := by simp [electSelf]

@[simp] theorem elect_mem (s : State) : (elect s).mem = s.mem := by
  unfold elect
  dsimp only
  split
  · rfl
  · split
    · simp
    · split <;> simp

@[simp] theorem addrTaken_mem (serial : BitVec 64) (addr : BitVec 12) (s : State) :
    (addrTaken serial addr s).mem = s.mem := by
  simp [addrTaken]

@[simp] theorem roleFollows_mem (mgr stby : BitVec 12) (turned : Bool) (s : State) :
    (roleFollows mgr stby turned s).mem = s.mem := by
  simp [roleFollows]

@[simp] theorem roleTaken_mem (mgr stby : BitVec 12) (epoch : BitVec 64) (s : State) :
    (roleTaken mgr stby epoch s).mem = s.mem := by
  simp [roleTaken]

@[simp] theorem routeSelWrite_mem (value : BitVec 12) (s : State) : (routeSelWrite value s).mem = s.mem := by
  unfold routeSelWrite
  split <;> simp

/-! ## Machine.FabTick -/

@[simp] theorem originateTick_mem (t : TickMsg) (s : State) : (originateTick t s).mem = s.mem := by
  simp [originateTick]

@[simp] theorem tickSend_mem (s : State) : (tickSend s).mem = s.mem := by
  unfold tickSend
  split
  · rfl
  · split
    · rfl
    · simp

@[simp] theorem joinTime_mem (o : Int) (s : State) : (joinTime o s).mem = s.mem := by simp [joinTime]

@[simp] theorem tickTime_mem (o : Int) (i : Nat) (s : State) : (tickTime o i s).mem = s.mem := by simp [tickTime]

@[simp] theorem tickUse_mem (t : TickMsg) (s : State) : (tickUse t s).mem = s.mem := by simp [tickUse]

@[simp] theorem tickWork_mem (t : TickMsg) (o : Int) (s : State) : (tickWork t o s).mem = s.mem := by simp [tickWork]

@[simp] theorem forwardTick_mem (ports : List Nat) (hdr : MsgHdr) (t : TickMsg) (corr : Int) (s : State) :
    (forwardTick ports hdr t corr s).mem = s.mem := by
  simp [forwardTick]

@[simp] theorem tickTaken_mem (p : Nat) (hdr : MsgHdr) (t : TickMsg) (s : State) :
    (tickTaken p hdr t s).mem = s.mem := by
  simp [tickTaken]

@[simp] theorem delayAsk_mem (p : Nat) (s : State) : (delayAsk p s).mem = s.mem := by
  obtain ⟨u, hu, h⟩ := exists_eq_mem (advanceTo_mem ((s.port p).delayMono + 125000000) s)
  unfold delayAsk
  rw [hu]
  split
  · exact (sendLink_mem ..).trans h
  · rfl

@[simp] theorem delayTaken_mem (p : Nat) (t1 t2 t3 : BitVec 64) (s : State) :
    (delayTaken p t1 t2 t3 s).mem = s.mem := by
  simp [delayTaken]

/-! ## Machine.Agree -/

@[simp] theorem budgetFor_mem (a : BitVec 12) (s : State) : (budgetFor a s).mem = s.mem := by
  unfold budgetFor
  split <;> simp

@[simp] theorem joinTaken_mem (hdr : MsgHdr) (j : JoinReq) (s : State) : (joinTaken hdr j s).1.mem = s.mem := by
  unfold joinTaken
  split
  · rfl
  · split <;> simp

@[simp] theorem joinAckTaken_mem (hdr : MsgHdr) (a : JoinAck) (s : State) : (joinAckTaken hdr a s).mem = s.mem := by
  simp [joinAckTaken]

@[simp] theorem reportTaken_mem (hdr : MsgHdr) (r : ReportMsg) (s : State) : (reportTaken hdr r s).mem = s.mem := by
  unfold reportTaken
  split
  · rfl
  · split
    · simp
    · rfl

@[simp] theorem judgeReports_mem (s : State) : (judgeReports s).mem = s.mem := by simp [judgeReports]

@[simp] theorem verdictTaken_mem (hdr : MsgHdr) (cause action : Byte) (s : State) :
    (verdictTaken hdr cause action s).mem = s.mem := by
  simp [verdictTaken]

@[simp] theorem safeTaken_mem (hdr : MsgHdr) (s : State) : (safeTaken hdr s).mem = s.mem := by simp [safeTaken]

@[simp] theorem claimSend_mem (s : State) : (claimSend s).mem = s.mem := by simp [claimSend]

@[simp] theorem claimTaken_mem (hdr : MsgHdr) (c : Claim) (s : State) : (claimTaken hdr c s).mem = s.mem := by
  simp [claimTaken]

@[simp] theorem memberSelWrite_mem (value : BitVec 10) (s : State) : (memberSelWrite value s).mem = s.mem := by
  unfold memberSelWrite
  split <;> simp

/-! ## Machine.Mbx -/

@[simp] theorem putReply_mem (src : Source) (m : MbxMsg) (s : State) : (putReply src m s).mem = s.mem := by
  unfold putReply
  split <;> simp

@[simp] theorem answerMbx_mem (status : Byte) (payload : List Byte) (s : State) :
    (answerMbx status payload s).mem = s.mem := by
  unfold answerMbx
  split <;> simp

@[simp] theorem answerErase_mem (o : ArcOwner) (s : State) : (answerErase o s).mem = s.mem := by
  unfold answerErase
  split <;> simp

/-! ## Machine.EgoOps -/

@[simp] theorem egoOldest_mem (c : Oldest) (s : State) : (egoOldest c s).mem = s.mem := rfl

@[simp] theorem egoImu_mem (stream : Nat) (capture : Oldest) (data : List Byte) (s : State) :
    (egoImu stream capture data s).mem = s.mem := by
  unfold egoImu
  split <;> simp

@[simp] theorem egoCan_mem (stream : Nat) (id : BitVec 29) (ide : Bool) (capture : Oldest) (data : List Byte) (s : State) :
    (egoCan stream id ide capture data s).mem = s.mem := by
  unfold egoCan
  split <;> simp

@[simp] theorem takeCorrection_mem (e : EgoSec) (b : List Byte) (s : State) : (takeCorrection e b s).1.mem = s.mem := by
  simp [takeCorrection]

@[simp] theorem decelJudge_mem (ax : Int) (s : State) : (decelJudge ax s).mem = s.mem := by simp [decelJudge]

@[simp] theorem egoUpdate_mem (e : EgoSec) (s : State) : (egoUpdate e s).mem = s.mem := by
  unfold egoUpdate
  refine (mem_if (raiseDet_mem ..) rfl).trans <|   Eq.trans rfl ?_
  split <;> simp

/-! ## Machine.Convert -/

@[simp] theorem convertIn_mem (n : Nat) (w : Word) (s : State) : (convertIn n w s).1.mem = s.mem := by
  simp [convertIn]

@[simp] theorem testConvert_mem (w : Word) (s : State) : (testConvert w s).mem = s.mem := by simp [testConvert]

/-! ## Machine.GridOps -/

@[simp] theorem grdCount_mem (i : Nat) (s : State) : (grdCount i s).mem = s.mem := rfl

@[simp] theorem placePair_mem (n grp bin : Nat) (k : BitVec 64) (s : State) :
    (placePair n grp bin k s).1.mem = s.mem := by
  unfold placePair
  dsimp only
  split
  · split
    · rfl
    · split
      · rfl
      · split
        · rfl
        · simp
  · rfl

@[simp] theorem placePoint_mem (n entry : Nat) (x y z : Int) (s : State) :
    (placePoint n entry x y z s).mem = s.mem := by
  unfold placePoint
  split
  · extract_lets _ inBand
    clear_value inBand
    split <;> simp
  · rfl

@[simp] theorem evalVote_mem (gen : Byte) (masked : Word) (s : State) : (evalVote gen masked s).1.mem = s.mem := by
  unfold evalVote
  split
  · rfl
  · exact mem_fst_if rfl (rfl)

/-! ## Machine.Solve -/

@[simp] theorem reportStop_mem (n : Nat) (r : SolveRun) (s : State) : (reportStop n r s).mem = s.mem := by
  simp [reportStop]

/-! ## Machine.Tasks -/

@[simp] theorem readInputs_mem (ins : List InRef) (k : BitVec 64) (s : State) :
    (readInputs ins k s).1.mem = s.mem := by
  unfold readInputs
  refine mem_foldl_fst _ _ _ fun p i => ?_
  dsimp only
  split <;> simp

@[simp] theorem releaseLost_mem (t : TaskDesc) (k : BitVec 64) (es : List QEntry) (s : State) :
    (releaseLost t k es s).mem = s.mem := by
  simp [releaseLost]

@[simp] theorem releaseOn_mem (t : TaskDesc) (k : BitVec 64) (es : List QEntry) (s : State) :
    (releaseOn t k es s).mem = s.mem := by
  unfold releaseOn
  split <;> simp

@[simp] theorem releaseTask_mem (t : TaskDesc) (s : State) : (releaseTask t s).mem = s.mem := by
  unfold releaseTask
  split
  · rfl
  · split
    · split
      · simp
      · rfl
    · simp

@[simp] theorem judgeWcet_mem (n cycles : Nat) (s : State) : (judgeWcet n cycles s).mem = s.mem := by
  unfold judgeWcet
  split <;> simp

@[simp] theorem countSat_mem (n cls k : Nat) (s : State) : (countSat n cls k s).mem = s.mem := by simp [countSat]

@[simp] theorem countHits_mem (n : Nat) (t : TaskDesc) (hits : List Dest) (s : State) :
    (countHits n t hits s).mem = s.mem := by
  simp [countHits]

@[simp] theorem emitBytes_mem (t : TaskDesc) (k : BitVec 64) (input first count : Nat) (s : State) :
    (emitBytes t k input first count s).1.mem = s.mem := by
  simp [emitBytes]

@[simp] theorem writeOutputs_mem (t : TaskDesc) (gen : Byte) (oldest : Oldest) (mask vote : Word) (s : State) :
    (writeOutputs t gen oldest mask vote s).mem = s.mem := by
  simp [writeOutputs]

@[simp] theorem ingestLatency_mem (stream posted : Nat) (s : State) : (ingestLatency stream posted s).mem = s.mem := by
  simp [ingestLatency]

@[simp] theorem endIngest_mem (t : TaskDesc) (j : Job) (s : State) : (endIngest t j s).mem = s.mem := by
  unfold endIngest
  dsimp only
  split
  · simp
  · split
    · split <;> simp
    · rfl

@[simp] theorem putSolve_mem (n : Nat) (j : Job) (r : SolveRun) (s : State) : (putSolve n j r s).mem = s.mem := by
  simp [putSolve]

@[simp] theorem peekWrite_mem (slot : BitVec 13) (entry : Bool) (s : State) : (peekWrite slot entry s).mem = s.mem := by
  simp only [peekWrite]
  split <;> simp

/-! ## Machine.ArcCmd -/

@[simp] theorem endOf_mem (code : Byte) (s : State) : (endOf code s).mem = s.mem := by unfold endOf; split <;> simp

@[simp] theorem startProgram_mem (src : Source) (a : Nat) (data : List Word) (s : State) :
    (startProgram src a data s).mem = s.mem := by
  simp [startProgram]

@[simp] theorem startErase_mem (src : Source) (code : Byte) (a : Nat) (s : State) :
    (startErase src code a s).mem = s.mem := by
  unfold startErase
  split <;> simp

@[simp] theorem doSuspend_mem (s : State) : (doSuspend s).mem = s.mem := by unfold doSuspend; split <;> simp

@[simp] theorem doResume_mem (s : State) : (doResume s).mem = s.mem := by unfold doResume; split <;> simp

@[simp] theorem doReadId_mem (s : State) : (doReadId s).mem = s.mem := by simp [doReadId]

@[simp] theorem doReadCounter_mem (a : Nat) (s : State) : (doReadCounter a s).mem = s.mem := by
  unfold doReadCounter
  split <;> simp

@[simp] theorem doSetWp_mem (a : Nat) (d : Nat) (s : State) : (doSetWp a d s).mem = s.mem := by
  unfold doSetWp
  split <;> simp

@[simp] theorem startSwap_mem (src : Source) (d : Nat) (s : State) : (startSwap src d s).mem = s.mem := by
  simp only [startSwap]
  split <;> simp

@[simp] theorem doClearStatus_mem (s : State) : (doClearStatus s).mem = s.mem := rfl

@[simp] theorem arcRun_mem (src : Source) (code : Byte) (a : Nat) (data : List Word) (s : State) :
    (arcRun src code a data s).mem = s.mem := by
  simp [arcRun]

@[simp] theorem arcJudge_mem (src : Source) (code : Byte) (a : Nat) (data : List Word) (s : State) :
    (arcJudge src code a data s).mem = s.mem := by
  simp [arcJudge]

@[simp] theorem seqFail_mem (st : Byte) (s : State) : (seqFail st s).mem = s.mem := by simp [seqFail]

@[simp] theorem seqLapse_mem (s : State) : (seqLapse s).mem = s.mem := by unfold seqLapse; split <;> simp

@[simp] theorem seqStep_mem (q : ArcSeq) (st : SeqStep) (s : State) : (seqStep q st s).mem = s.mem :=
  rfl

@[simp] theorem seqDone_mem (src : Source) (code : Byte) (a : Nat) (data : List Word) (s : State) :
    (seqDone src code a data s).mem = s.mem := by
  simp [seqDone]

@[simp] theorem keyWrite_mem (src : Source) (key : Byte) (s : State) : (keyWrite src key s).mem = s.mem := by
  simp only [keyWrite]
  split <;> simp

@[simp] theorem seqWrite_mem (src : Source) (reg : ArcReg) (v : Word) (s : State) :
    (seqWrite src reg v s).mem = s.mem := by
  unfold seqWrite
  dsimp only
  split
  · simp
  · split
    · simp
    · split <;> simp

@[simp] theorem winRefuse_mem (st : Byte) (s : State) : (winRefuse st s).1.mem = s.mem := by simp [winRefuse]

@[simp] theorem fillLine3_mem (line : Nat) (s : State) : (fillLine3 line s).mem = s.mem := by
  have filled : (fillLine3.fill line s).mem = s.mem := by
    simp only [fillLine3.fill]
    exact eccLine_mem line s
  unfold fillLine3
  split
  · exact mem_if rfl filled
  · exact filled

@[simp] theorem winRead_mem (a : Nat) (s : State) : (winRead a s).1.mem = s.mem := by
  unfold winRead
  split
  · simp
  · refine mem_fst_if (by simp) <| mem_fst_if (by simp) ?_
    dsimp only
    split <;> simp

@[simp] theorem eccWarnWrite_mem (value : BitVec 2) (s : State) : (eccWarnWrite value s).mem = s.mem := by
  simp [eccWarnWrite]

@[simp] theorem ejectErase_mem (s : State) : (ejectErase s).mem = s.mem := by unfold ejectErase; split <;> simp

@[simp] theorem copyFirmware_mem (fromBank : Bool) (s : State) : (copyFirmware fromBank s).mem = s.mem := by
  simp [copyFirmware]

/-! ## Machine.Ports -/

@[simp] theorem nextSeq_mem (stream : Nat) (s : State) : (nextSeq stream s).1.mem = s.mem := by simp [nextSeq]

@[simp] theorem openGen_mem (s : State) : (openGen s).1.mem = s.mem := by simp [openGen]

@[simp] theorem camCount_mem (r i : Nat) (s : State) : (camCount r i s).mem = s.mem := by simp [camCount]

@[simp] theorem lineBytes_mem (n step : Nat) (s : State) : (lineBytes n step s).1.mem = s.mem := by simp [lineBytes]

@[simp] theorem setOpen_mem (r b : Nat) (f : Option OpenFrame) (s : State) : (setOpen r b f s).mem = s.mem := by
  simp [setOpen]

@[simp] theorem strmLate_mem (n : Nat) (s : State) : (strmLate n s).mem = s.mem := by simp [strmLate]

@[simp] theorem strmOut_mem (n : Nat) (s : State) : (strmOut n s).mem = s.mem := by simp [strmOut]

@[simp] theorem strmSurplus_mem (n : Nat) (s : State) : (strmSurplus n s).mem = s.mem := by simp [strmSurplus]

@[simp] theorem assignFrame_mem (n : Nat) (c : BitVec 64) (s : State) : (assignFrame n c s).1.mem = s.mem := by
  unfold assignFrame
  split <;> simp

@[simp] theorem ethCount_mem (p i : Nat) (s : State) : (ethCount p i s).mem = s.mem := by simp [ethCount]

@[simp] theorem ethLink_mem (p : Nat) (l : EthLink) (s : State) : (ethLink p l s).mem = s.mem := by
  unfold ethLink
  split <;> simp

@[simp] theorem peerAnswered_mem (p t2 t3 : Nat) (s : State) : (peerAnswered p t2 t3 s).mem = s.mem := by
  unfold peerAnswered
  split <;> simp

@[simp] theorem canCount_mem (c i : Nat) (s : State) : (canCount c i s).mem = s.mem := by simp [canCount]

@[simp] theorem canGood_mem (c : Nat) (s : State) : (canGood c s).mem = s.mem := by simp [canGood]

@[simp] theorem canErr_mem (c : Nat) (cat : CanCat) (role : CanRole) (s : State) :
    (canErr c cat role s).mem = s.mem := by
  simp [canErr]

@[simp] theorem spiCount_mem (u i : Nat) (s : State) : (spiCount u i s).mem = s.mem := by simp [spiCount]

@[simp] theorem imuBack_mem (stream : Nat) (s : State) : (imuBack stream s).mem = s.mem := by
  unfold imuBack
  split <;> simp

@[simp] theorem drdy_mem (u : Nat) (s : State) : (drdy u s).mem = s.mem := by simp [drdy]

@[simp] theorem gpioEdge_mem (n : Nat) (rising : Bool) (s : State) : (gpioEdge n rising s).mem = s.mem := by
  simp [gpioEdge]

/-! ## Machine.Gather -/

@[simp] theorem limitMask_mem (d : StreamDecl) (s : State) : (limitMask d s).mem = s.mem := by simp [limitMask]

@[simp] theorem lookupPair_mem (off : Int) (e : QEntry) (s : State) : (lookupPair off e s).1.mem = s.mem := by
  unfold lookupPair
  split <;> simp

@[simp] theorem compOf_mem (d : StreamDecl) (place : Nat) (e : QEntry) (s : State) :
    (compOf d place e s).1.mem = s.mem := by
  unfold compOf
  split <;> simp

@[simp] theorem voidCameras_mem (s : State) : (voidCameras s).mem = s.mem := by
  unfold voidCameras
  refine mem_foldl _ _ _ fun t d => ?_
  split <;> simp

@[simp] theorem advanceRings_mem (s : State) : (advanceRings s).mem = s.mem := by
  unfold advanceRings
  refine mem_foldl _ _ _ fun t d => ?_
  split <;> simp

@[simp] theorem plainToken_mem (slot : Nat) (oldest : Oldest) (mask vote : Word) (s : State) :
    (plainToken slot oldest mask vote s).mem = s.mem := by
  simp [plainToken]

@[simp] theorem histSelWrite_mem (age : BitVec 9) (s : State) : (histSelWrite age s).mem = s.mem := by
  simp [histSelWrite]

/-! ## Machine.Emit -/

@[simp] theorem blockPose_mem (s : State) : (blockPose s).1.mem = s.mem := by unfold blockPose; split <;> simp

@[simp] theorem passCut_mem (k : BitVec 64) (s : State) : (passCut k s).mem = s.mem := by
  unfold passCut
  refine mem_foldl _ _ _ fun t r => mem_foldl _ _ _ fun u b => ?_
  dsimp only
  split <;> simp

@[simp] theorem cancelNow_mem (byOverrun : Bool) (s : State) : (cancelNow byOverrun s).mem = s.mem := by
  simp [cancelNow]

@[simp] theorem stopIngest_mem (s : State) : (stopIngest s).mem = s.mem := by unfold stopIngest; split <;> simp

@[simp] theorem exchange_mem (t : Token) (s : State) : (exchange t s).mem = s.mem := by simp [exchange]

@[simp] theorem countOverrun_mem (s : State) : (countOverrun s).mem = s.mem := by simp [countOverrun]

@[simp] theorem overrunLimit_mem (s : State) : (overrunLimit s).mem = s.mem := by simp [overrunLimit]

@[simp] theorem emitChan_mem (c : Channel) (stale : Bool) (w : Wait) (s : State) :
    (emitChan c stale w s).mem = s.mem := by
  simp [emitChan]

@[simp] theorem dropTokens_mem (s : State) : (dropTokens s).mem = s.mem := rfl

@[simp] theorem emitDone_mem (s : State) : (emitDone s).mem = s.mem := by simp [emitDone]

@[simp] theorem dropFrame_mem (w : Wait) (s : State) : (dropFrame w s).mem = s.mem := by simp [dropFrame]

/-! ## Machine.Startup -/

@[simp] theorem dropWord_mem (s : State) : (dropWord s).mem = s.mem := by unfold dropWord; split <;> simp

@[simp] theorem expectFrom_mem (inLoad : Bool) (s : State) : (expectFrom inLoad s).mem = s.mem := rfl

@[simp] theorem toSelftest_mem (s : State) : (toSelftest s).mem = s.mem := by simp [toSelftest]

@[simp] theorem holdCheck_mem (refclkOk suppliesOk pllOk : Bool) (s : State) :
    (holdCheck refclkOk suppliesOk pllOk s).mem = s.mem := by
  obtain ⟨u, hu, h⟩ := exists_eq_mem (advanceTo_mem (s.gctl.t0 + ((s.mono - s.gctl.t0) / 1000000 + 1) * 1000000) s)
  unfold holdCheck
  rw [hu]
  split
  · rfl
  · dsimp only
    split
    · simp [h]
    · split <;> simp [h]

@[simp] theorem toHold_mem (r : Byte) (s : State) : (toHold r s).mem = s.mem := by simp [toHold]

@[simp] theorem planFails_mem (code index : Byte) (s : State) : (planFails code index s).mem = s.mem := by
  simp [planFails]

@[simp] theorem planDone_mem (fw0 fw1 : Bool) (warn : Nat) (s : State) : (planDone fw0 fw1 warn s).mem = s.mem := by
  simp [planDone]

/-! ## Machine.Fenor -/

@[simp] theorem setOverlay_mem (l : List (Bool × Nat)) (s : State) : (setOverlay l s).mem = s.mem := rfl

@[simp] theorem checkTwin_mem (t : Twin) (s : State) : (checkTwin t s).1.mem = s.mem := by
  unfold checkTwin
  dsimp only
  split
  · simp
  · split
    · simp
    · split <;> simp

@[simp] theorem showSelector_mem (s : State) : (showSelector s).mem = s.mem := by
  unfold showSelector
  split <;> exact rfl

@[simp] theorem imgStat_mem (st : Byte) (s : State) : (imgStat st s).mem = s.mem := rfl

@[simp] theorem imgVec_mem (s : State) : (imgVec s).mem = s.mem := by simp [imgVec]

@[simp] theorem stage_mem (t : Twin) (s : State) : (stage t s).mem = s.mem := by
  unfold stage
  split
  · simp
  · split
    · simp
    · split <;> simp

@[simp] theorem verify_mem (s : State) : (verify s).mem = s.mem := by simp [verify]

@[simp] theorem verifyFails_mem (f : CheckFail) (s : State) : (verifyFails f s).mem = s.mem := by simp [verifyFails]

@[simp] theorem commitReq_mem (persist : Bool) (s : State) : (commitReq persist s).mem = s.mem := by simp [commitReq]

@[simp] theorem imgCancel_mem (s : State) : (imgCancel s).mem = s.mem := by simp [imgCancel]

/-! ## Machine.Power -/

@[simp] theorem coreWindow_mem (m : Nat) (granted : Bool) (n : Nat) (s : State) :
    (coreWindow m granted n s).mem = s.mem := by
  simp only [coreWindow]
  split <;> simp

@[simp] theorem pumpWindow_mem (m : Nat) (asked granted : Bool) (s : State) :
    (pumpWindow m asked granted s).mem = s.mem := by
  simp [pumpWindow]

@[simp] theorem windowSettle_mem (s : State) : (windowSettle s).mem = s.mem := by simp [windowSettle]

@[simp] theorem openWindow_mem (k : Nat) (requests : List Nat) (s : State) : (openWindow k requests s).mem = s.mem := by
  simp [openWindow]

@[simp] theorem budgetWrite_mem (value : BitVec 16) (s : State) : (budgetWrite value s).mem = s.mem := by
  simp [budgetWrite]

@[simp] theorem fabBudgetWrite_mem (value : BitVec 16) (s : State) : (fabBudgetWrite value s).mem = s.mem := by
  unfold fabBudgetWrite
  split
  · simp
  · split <;> simp

/-! ## Machine.WardenCmd -/

@[simp] theorem fltStat_mem (st : Byte) (s : State) : (fltStat st s).mem = s.mem := rfl

@[simp] theorem fltClrWrite_mem (v : Word) (s : State) : (fltClrWrite v s).mem = s.mem := by simp [fltClrWrite]

@[simp] theorem recSelWrite_mem (i : BitVec 6) (s : State) : (recSelWrite i s).mem = s.mem := by simp [recSelWrite]

/-! ## Machine.Conservator -/

@[simp] theorem tstVec_mem (s : State) : (tstVec s).mem = s.mem := by simp [tstVec]

@[simp] theorem tstCount_mem (i : Nat) (s : State) : (tstCount i s).mem = s.mem := rfl

@[simp] theorem rotDone_mem (s : State) : (rotDone s).mem = s.mem := by simp [rotDone]

@[simp] theorem rotAdvance_mem (p : Nat) (s : State) : (rotAdvance p s).mem = s.mem := by
  simp only [rotAdvance]
  split <;> simp

@[simp] theorem sliceBegin_mem (s : State) : (sliceBegin s).mem = s.mem := by simp [sliceBegin]

@[simp] theorem skip_mem (i : Nat) (s : State) : (skip i s).mem = s.mem :=
  mem_if (by simp) rfl

@[simp] theorem sliceOver_mem (result : BitVec 2) (s : State) : (sliceOver result s).mem = s.mem := by
  simp [sliceOver]

@[simp] theorem slicePass_mem (t : Target) (s : State) : (slicePass t s).mem = s.mem := by simp [slicePass]

@[simp] theorem failKeep_mem (t : Target) (s : State) : (failKeep t s).mem = s.mem := by
  unfold failKeep
  split <;> simp

@[simp] theorem sliceFail_mem (t : Target) (det detail : Nat) (s : State) : (sliceFail t det detail s).mem = s.mem := by
  simp [sliceFail]

@[simp] theorem testEnd_mem (x : Slice) (r : SliceOutcome) (s : State) : (testEnd x r s).mem = s.mem := by
  unfold testEnd
  split <;> simp

/-! ## Machine.Flags -/

@[simp] theorem shadowPut_mem (src : Source) (l : List (Nat × Word)) (s : State) : (shadowPut src l s).mem = s.mem := by
  unfold shadowPut
  split <;> simp

@[simp] theorem liveRead_mem (src : Source) (a : Nat) (s : State) : (liveRead src a s).1.mem = s.mem := by
  simp [liveRead]

@[simp] theorem regRead_mem (src : Source) (a : Nat) (s : State) : (regRead src a s).1.mem = s.mem := by
  unfold regRead
  split
  · rfl
  · split <;> simp

/-! ## Machine.HostOps -/

@[simp] theorem ringStat_mem (c : Channel) (st : Byte) (s : State) : (ringStat c st s).mem = s.mem := by
  simp [ringStat]

@[simp] theorem ringField_mem (c : Channel) (f : Ring → Ring) (s : State) : (ringField c f s).mem = s.mem := by
  simp [ringField]

@[simp] theorem ringEnable_mem (c : Channel) (s : State) : (ringEnable c s).mem = s.mem := by simp [ringEnable]

@[simp] theorem ringDisable_mem (c : Channel) (s : State) : (ringDisable c s).mem = s.mem := by simp [ringDisable]

@[simp] theorem ringCtlWrite_mem (c : Channel) (v : Word) (s : State) : (ringCtlWrite c v s).mem = s.mem := by
  simp [ringCtlWrite]

@[simp] theorem ringHead_mem (c : Channel) (v : BitVec 10) (s : State) : (ringHead c v s).mem = s.mem := by
  simp [ringHead]

@[simp] theorem ringWriteback_mem (c : Channel) (s : State) : (ringWriteback c s).mem = s.mem := by
  simp [ringWriteback]

@[simp] theorem ringWrite32_mem (c : Channel) (o : Nat) (v : Word) (s : State) : (ringWrite32 c o v s).mem = s.mem := by
  unfold ringWrite32
  split <;> simp

@[simp] theorem msixSend_mem (v : Nat) (s : State) : (msixSend v s).mem = s.mem := by simp [msixSend]

@[simp] theorem msixWrite_mem (o : Nat) (v : Word) (s : State) : (msixWrite o v s).mem = s.mem := by
  unfold msixWrite
  split <;> simp

@[simp] theorem setBme_mem (on : Bool) (s : State) : (setBme on s).mem = s.mem := by simp [setBme]

@[simp] theorem mbxStat_mem (st : Byte) (s : State) : (mbxStat st s).mem = s.mem := rfl

@[simp] theorem mbxPut_mem (s : State) : (mbxPut s).mem = s.mem := by
  unfold mbxPut
  split
  · simp
  · split <;> simp

@[simp] theorem mbxGet_mem (s : State) : (mbxGet s).mem = s.mem := by unfold mbxGet; split <;> simp

@[simp] theorem mbxCtlWrite_mem (v : Word) (s : State) : (mbxCtlWrite v s).mem = s.mem := by simp [mbxCtlWrite]

@[simp] theorem hstWrite_mem (o : Nat) (v : Word) (s : State) : (hstWrite o v s).mem = s.mem := by simp [hstWrite]

/-! ## Machine.Records -/

@[simp] theorem hostTrigger_mem (s : State) : (hostTrigger s).mem = s.mem := by simp [hostTrigger]

@[simp] theorem ackRecord_mem (seq : Nat) (s : State) : (ackRecord seq s).1.mem = s.mem := by
  simp only [ackRecord]
  split <;> simp

theorem untilStamp_mem {b : Nat} {s u : State} (h : untilStamp b s = some u) : u.mem = s.mem := by
  unfold untilStamp at h
  dsimp only at h
  split at h
  · cases h; rfl
  · split at h
    · cases h
    · cases h; exact advanceStamp_mem b s

@[simp] theorem doAppend_mem (s : State) : (doAppend s).mem = s.mem := by simp [doAppend]

@[simp] theorem ldgFree_mem (s : State) : (ldgFree s).mem = s.mem := by unfold ldgFree; split <;> simp

@[simp] theorem ldgAck_mem (n : Nat) (s : State) : (ldgAck n s).1.mem = s.mem := by simp [ldgAck]

/-! ## Machine.Ticks -/

@[simp] theorem srcJudge_mem (value : BitVec 2) (s : State) : (srcJudge value s).mem = s.mem := by simp [srcJudge]

@[simp] theorem endByEdge_mem (w : Switch) (s : State) : (endByEdge w s).mem = s.mem := by simp [endByEdge]

/-! ## Machine.TimeBase -/

@[simp] theorem timStat_mem (st : Byte) (s : State) : (timStat st s).mem = s.mem := rfl

@[simp] theorem discReq_mem (d : BitVec 2) (s : State) : (discReq d s).mem = s.mem := by simp [discReq]

@[simp] theorem applyReq_mem (slew atSecond : Bool) (s : State) : (applyReq slew atSecond s).mem = s.mem := by
  unfold applyReq
  split
  · simp
  · split <;> simp

@[simp] theorem cancelReq_mem (s : State) : (cancelReq s).mem = s.mem := by simp [cancelReq]

@[simp] theorem timSet_mem (reg : TimSet) (v : Word) (s : State) : (timSet reg v s).mem = s.mem := by
  unfold timSet
  split
  · simp
  · split <;> simp

@[simp] theorem overSecond_mem (n : Nat) (s : State) : (overSecond n s).mem = s.mem := by
  induction n generalizing s with
  | zero => rfl
  | succ n ih => simp [overSecond, ih]

@[simp] theorem ppsPulse_mem (n g : Nat) (s : State) : (ppsPulse n g s).mem = s.mem := by
  induction n generalizing g s with
  | zero => rfl
  | succ n ih => simp [ppsPulse, ih]

@[simp] theorem ppsAccepted_mem (e : Nat) (s : State) : (ppsAccepted e s).mem = s.mem := by simp [ppsAccepted]

/-! ## Machine.Operands -/

@[simp] theorem cntIf_mem (b : Bool) (k : CntBlk) (s : State) : (cntIf b k s).mem = s.mem := by simp [cntIf]

@[simp] theorem tckWrite_mem (o : Nat) (v : Word) (s : State) : (tckWrite o v s).mem = s.mem := by
  unfold tckWrite
  split <;> simp

@[simp] theorem pwrWrite_mem (o : Nat) (v : Word) (s : State) : (pwrWrite o v s).mem = s.mem := by
  unfold pwrWrite
  split <;> simp

@[simp] theorem fltWrite_mem (o : Nat) (v : Word) (s : State) : (fltWrite o v s).mem = s.mem := by
  unfold fltWrite
  split <;> simp

@[simp] theorem arcWrite_mem (o : Nat) (v : Word) (s : State) : (arcWrite o v s).mem = s.mem := by
  unfold arcWrite
  split <;> simp

@[simp] theorem incCtl_mem (v : Word) (s : State) : (incCtl v s).mem = s.mem := by simp [incCtl]

@[simp] theorem ldgCtl_mem (v : Word) (s : State) : (ldgCtl v s).mem = s.mem := by simp [ldgCtl]

@[simp] theorem ldgRegWrite_mem (o : Nat) (v : Word) (s : State) : (ldgRegWrite o v s).mem = s.mem := by
  unfold ldgRegWrite
  split <;> simp

@[simp] theorem cvtWrite_mem (o : Nat) (v : Word) (s : State) : (cvtWrite o v s).mem = s.mem := by
  unfold cvtWrite
  split <;> simp

@[simp] theorem alnWrite_mem (o : Nat) (v : Word) (s : State) : (alnWrite o v s).mem = s.mem := by
  unfold alnWrite
  split <;> simp

@[simp] theorem egoWrite_mem (o : Nat) (v : Word) (s : State) : (egoWrite o v s).mem = s.mem := by
  unfold egoWrite
  split <;> simp

@[simp] theorem gpioWrite_mem (o : Nat) (v : Word) (s : State) : (gpioWrite o v s).mem = s.mem := by
  unfold gpioWrite
  split <;> simp

@[simp] theorem fabWrite_mem (o : Nat) (v : Word) (s : State) : (fabWrite o v s).mem = s.mem := by
  unfold fabWrite
  split <;> simp

/-! ## Machine.Host -/

@[simp] theorem readOut_mem (src : Source) (a : Nat) (whole : Bool) (s : State) :
    (readOut src a whole s).mem = s.mem := by
  simp [readOut]

@[simp] theorem endpointReset_mem (drops : Bool) (s : State) : (endpointReset drops s).mem = s.mem := by
  simp [endpointReset]

/-! ## Machine.Mailbox -/

@[simp] theorem takeReq_mem (s : State) : (takeReq s).mem = s.mem := by unfold takeReq; split <;> simp

@[simp] theorem stageWords_mem (ws : List (List Byte)) (a n : Nat) (s : State) :
    (stageWords ws a n s).1.mem = s.mem := by
  induction ws generalizing a n s with
  | nil => rfl
  | cons w ws ih => simp [stageWords, ih]

@[simp] theorem stageProgram_mem (r : MbxReq) (s : State) : (stageProgram r s).mem = s.mem := by simp [stageProgram]

@[simp] theorem stageErase_mem (r : MbxReq) (s : State) : (stageErase r s).mem = s.mem := by
  unfold stageErase
  dsimp only
  split
  · rfl
  · split <;> simp

@[simp] theorem incList_mem (r : MbxReq) (s : State) : (incList r s).mem = s.mem := by simp [incList]

@[simp] theorem recordBytes_mem (f : FoundRec) (ofs len : Nat) (s : State) :
    (recordBytes f ofs len s).1.mem = s.mem := by
  simp [recordBytes]

@[simp] theorem incExport_mem (r : MbxReq) (s : State) : (incExport r s).mem = s.mem := by
  unfold incExport
  split <;> simp

@[simp] theorem ldgExport_mem (r : MbxReq) (s : State) : (ldgExport r s).mem = s.mem := by
  simp only [ldgExport]
  split <;> simp

/-! ## Machine.Card -/

@[simp] theorem removalStart_mem (s : State) : (removalStart s).mem = s.mem := by simp [removalStart]

@[simp] theorem crdVec_mem (s : State) : (crdVec s).mem = s.mem := by simp [crdVec]

@[simp] theorem crdCount_mem (i : Nat) (s : State) : (crdCount i s).mem = s.mem := rfl

@[simp] theorem cardSend_mem (cmd tag st code : Byte) (aux : BitVec 16) (payload : List Byte) (s : State) :
    (cardSend cmd tag st code aux payload s).mem = s.mem := by
  simp [cardSend]

@[simp] theorem cardReply_mem (cmd tag st : Byte) (s : State) : (cardReply cmd tag st s).mem = s.mem := by
  simp [cardReply]

@[simp] theorem abortReq_mem (tag : Byte) (address : Word) (payload : List Byte) (s : State) :
    (abortReq tag address payload s).mem = s.mem := by
  unfold abortReq
  dsimp only
  split
  · simp
  · split <;> simp

@[simp] theorem cardDecode_mem (f : CardFrame) (s : State) : (cardDecode f s).mem = s.mem := by simp [cardDecode]

@[simp] theorem cardBad_mem (kind : BadFrame) (cmd tag : Byte) (symErrs : Nat) (s : State) :
    (cardBad kind cmd tag symErrs s).mem = s.mem := by
  unfold cardBad
  split <;> simp

@[simp] theorem cardBadArg_mem (s : State) : (cardBadArg s).1.mem = s.mem := by simp [cardBadArg]

@[simp] theorem cardIdent_mem (s : State) : (cardIdent s).1.mem = s.mem := by simp [cardIdent]

@[simp] theorem cardStatus_mem (s : State) : (cardStatus s).1.mem = s.mem := by simp [cardStatus]

@[simp] theorem cardReadReg_mem (r : CardReq) (s : State) : (cardReadReg r s).1.mem = s.mem := by
  unfold cardReadReg
  split <;> simp

@[simp] theorem readArchive_mem (n a : Nat) (s : State) (got : List Byte) :
    (readArchive n a s got).1.mem = s.mem := by
  induction n generalizing a s got with
  | zero => rfl
  | succ n ih => simp [readArchive, ih]

@[simp] theorem cardReadBlock_mem (r : CardReq) (s : State) : (cardReadBlock r s).1.mem = s.mem := by
  unfold cardReadBlock
  split
  · simp
  · split
    · simp
    · split
      · rfl
      · simp

@[simp] theorem cardGridRead_mem (r : CardReq) (s : State) : (cardGridRead r s).1.mem = s.mem := by
  unfold cardGridRead
  dsimp only
  split
  · simp
  · refine mem_fst_if rfl ?_
    split
    · rfl
    · exact mem_fst_if (by simp) rfl

@[simp] theorem cardMailboxPut_mem (r : CardReq) (s : State) : (cardMailboxPut r s).1.mem = s.mem := by
  unfold cardMailboxPut
  split <;> simp

@[simp] theorem cardMailboxGet_mem (s : State) : (cardMailboxGet s).1.mem = s.mem := by
  unfold cardMailboxGet
  split <;> simp

@[simp] theorem cardEject_mem (s : State) : (cardEject s).1.mem = s.mem := by simp [cardEject]

@[simp] theorem ejectReady_mem (s : State) : (ejectReady s).mem = s.mem := by simp [ejectReady]

/-! ## Machine.FabData -/

@[simp] theorem dataDrop_mem (src : BitVec 12) (g : DataSeg) (s : State) : (dataDrop src g s).mem = s.mem := by
  simp [dataDrop]

/-! ## Machine.Jtag -/

/-! ## The commands -/

@[simp] theorem floorRaise_mem (r : MbxReq) (s : State) : (floorRaise r s).mem = s.mem := by
  unfold floorRaise
  dsimp only
  split <;> simp

end Sys2Proof.Machine

/-! # O5: the functions that write memory -/
namespace Sys2Proof.Machine

theorem wf_nil : Memory.wf [] := rfl

@[simp] theorem wf_ite (c : Prop) [Decidable c] (m n : Mem) :
    Memory.wf (if c then m else n) = if c then Memory.wf m else Memory.wf n :=
  apply_ite ..

theorem wf_foldl {α : Type} (f : State → α → State) (l : List α) (s : State)
    (hf : ∀ t x, Memory.wf t.mem → Memory.wf (f t x).mem) (h : Memory.wf s.mem) : Memory.wf (l.foldl f s).mem := by
  induction l generalizing s with
  | nil => exact h
  | cons x l ih => exact ih _ (hf s x h)

theorem wf_foldl_fst {α β : Type} (f : State × β → α → State × β) (l : List α) (p : State × β)
    (hf : ∀ p x, Memory.wf p.1.mem → Memory.wf (f p x).1.mem) (h : Memory.wf p.1.mem) : Memory.wf (l.foldl f p).1.mem := by
  induction l generalizing p with
  | nil => exact h
  | cons x l ih => exact ih _ (hf p x h)

theorem wf_if {c : Prop} [Decidable c] {t u : State} (ht : Memory.wf t.mem) (hu : Memory.wf u.mem) :
    Memory.wf (if c then t else u).mem := by
  split <;> assumption

theorem wf_of_mem {t u : State} (e : u.mem = t.mem) (h : Memory.wf t.mem) : Memory.wf u.mem := e.symm ▸ h

theorem memoryOk_of_mem {t u : State} (e : u.mem = t.mem) (h : Memory.wf t.mem) : MemoryOk u := wf_of_mem e h

theorem wf_fst_if {β : Type} {c : Prop} [Decidable c] {p q : State × β} (hp : Memory.wf p.1.mem)
    (hq : Memory.wf q.1.mem) : Memory.wf (if c then p else q).1.mem := by
  split <;> assumption

/-! ## Machine.FabOps -/

@[simp] theorem wf_frameTaken (p : Nat) (rx : LinkRx) (k : State → State) (s : State)
    (hk : ∀ t, Memory.wf t.mem → Memory.wf (k t).mem) (h : Memory.wf s.mem) : Memory.wf (frameTaken p rx k s).mem := by
  unfold frameTaken
  split
  · exact h
  · split
    · simp [h]
    · dsimp only
      exact wf_if (hk _ (by simp [h])) (wf_if (by simp [h]) (by simp [h]))

@[simp] theorem wf_messageTaken (p : Nat) (hdr : MsgHdr) (k : State → State) (s : State)
    (hk : ∀ t, Memory.wf t.mem → Memory.wf (k t).mem) (h : Memory.wf s.mem) : Memory.wf (messageTaken p hdr k s).mem := by
  refine wf_frameTaken _ _ _ _ (fun t ht => ?_) h
  split
  · simp [ht]
  · split <;> simp [ht, hk]

@[simp] theorem wf_received (p : Nat) (hdr : MsgHdr) (type : Byte) (k : State → State) (s : State)
    (hk : ∀ t, Memory.wf t.mem → Memory.wf (k t).mem) (h : Memory.wf s.mem) : Memory.wf (received p hdr type k s).mem :=
  wf_messageTaken _ _ _ _ (fun t ht => wf_if (hk t ht) (by simp [ht])) h

@[simp] theorem wf_arrive (p : Nat) (hdr : MsgHdr) (msg : FabMsg) (fresh : Option Bool) (deliver : State → State × Byte) (s : State)
    (hd : ∀ t, Memory.wf t.mem → Memory.wf (deliver t).1.mem) (h : Memory.wf s.mem) :
    Memory.wf (arrive p hdr msg fresh deliver s).mem := by
  refine wf_received _ _ _ _ _ (fun t ht => ?_) h
  extract_lets take _ bySeq _ _ s₁ s₂
  have taken (u : State) (hu : Memory.wf u.mem) : Memory.wf (take u).mem := by simp [take, hd, hu]
  have h₂ : Memory.wf s₂.mem := by simp [s₂, s₁, ht]
  clear_value take bySeq s₂
  refine wf_if (wf_if (wf_if (taken _ h₂) h₂) ht) (wf_if (taken t ht) ?_)
  split <;> simp [ht]

/-! ## Machine.VitOps -/

@[simp] theorem wf_ringWrite (tick : BitVec 64) (flags : BitVec 16) (bytes : List Byte) (s : State) (h : Memory.wf s.mem) :
    Memory.wf (ringWrite tick flags bytes s).mem := by
  unfold ringWrite
  split
  · exact h
  · extract_lets pos slot _ s₁
    have h₁ : Memory.wf s₁.mem := by
      clear_value pos slot
      cases slot <;> simp [s₁, h, Memory.wf_write]
    clear_value s₁
    split
    · split <;> simp [h₁]
    · exact h₁

/-! ## Machine.Sched -/

@[simp] theorem wf_writeTensor (slot : Nat) (gen : Byte) (off : Nat) (bytes : List Byte) (s : State) (h : Memory.wf s.mem) :
    Memory.wf (writeTensor slot gen off bytes s).mem :=
  Memory.wf_write h

@[simp] theorem wf_fillFallback (t : TaskDesc) (e : SolveEntry) (core : Nat) (s : State) (h : Memory.wf s.mem) :
    Memory.wf (fillFallback t e core s).mem :=
  Memory.wf_write h

/-! ## Machine.States -/

/-- A reset clears the memories (R96). -/
@[simp] theorem afterReset_mem (kind : BitVec 2) (s : State) : (afterReset kind s).mem = [] := by
  simp only [afterReset]
  split <;> rfl

@[simp] theorem wf_resetTo (kind : BitVec 2) (s : State) (h : Memory.wf s.mem) : Memory.wf (resetTo kind s).mem := by
  unfold resetTo
  refine wf_if h ?_
  simp [wf_nil]

@[simp] theorem wf_goOff (s : State) : Memory.wf (goOff s).mem := by simp [goOff, wf_nil]

/-! ## Machine.Warden -/

@[simp] theorem wf_react (l : List (Nat × Nat)) (s : State) (h : Memory.wf s.mem) : Memory.wf (react l s).mem := by
  unfold react
  split
  · exact h
  · extract_lets top det s₁ s₂ s₃ _ s₄ s₅
    have h₄ : Memory.wf s₄.mem := by simp [s₄, s₃, s₂, s₁, h]
    clear_value s₄
    have h₅ : Memory.wf s₅.mem := wf_if (wf_resetTo _ _ h₄) (wf_if (by simp [h₄]) (wf_if (by simp [h₄]) h₄))
    clear_value s₅
    exact wf_if (by simp [h₅]) h₅

@[simp] theorem wf_takePatterns (block : Bool) (l : List DetPattern) (s : State) (h : Memory.wf s.mem) :
    Memory.wf (takePatterns block l s).mem := by
  simp [h, takePatterns]

@[simp] theorem wf_settleN (n : Nat) (s : State) (h : Memory.wf s.mem) :
    Memory.wf (settleN n s).mem := by
  induction n generalizing s with
  | zero => exact h
  | succ n ih => simp [h, settleN, ih]

@[simp] theorem wf_settle (s : State) (h : Memory.wf s.mem) :
    Memory.wf (settle s).mem := by simp [h, settle]

@[simp] theorem wf_rejudge (s : State) (h : Memory.wf s.mem) : Memory.wf (rejudge s).mem :=
  wf_react _ _ (wf_foldl_fst _ _ _ (fun _ _ hp => hp) h)

/-! ## Machine.ImgOps -/

@[simp] theorem wf_emptyGrids (s : State) (h : Memory.wf s.mem) : Memory.wf (emptyGrids s).mem :=
  Memory.wf_write (Memory.wf_write h)

@[simp] theorem wf_fillFallbacks (old : Option (Image × Mem)) (s : State) (h : Memory.wf s.mem) :
    Memory.wf (fillFallbacks old s).mem :=
  wf_foldl _ _ _ (fun _ _ => wf_fillFallback _ _ _ _) h

@[simp] theorem wf_clearReserve (banks : List (Nat × Nat)) (im : Image) (s : State) (h : Memory.wf s.mem) :
    Memory.wf (clearReserve banks im s).mem := by
  unfold clearReserve
  extract_lets held
  refine List.foldlRecOn (motive := fun m => Memory.wf m = true) banks _ h fun m hm r _ => ?_
  split
  · exact hm
  · exact Memory.wf_clear hm

@[simp] theorem wf_configureAll (im : Image) (twin : Twin) (s : State) (h : Memory.wf s.mem) :
    Memory.wf (configureAll im twin s).mem := by
  unfold configureAll
  extract_lets _ s₁ _ s₂ src _ _ s₃ s₄ s₅
  have h₄ : Memory.wf s₄.mem := by simp [s₄, s₃, s₂, s₁, h]
  have h₅ : Memory.wf s₅.mem := wf_emptyGrids _ (wf_fillFallbacks _ _ (wf_clearReserve _ _ _ h₄))
  clear_value s₅
  simp [h₅]

@[simp] theorem wf_commitImage (s : State) (h : Memory.wf s.mem) : Memory.wf (commitImage s).mem := by
  unfold commitImage
  split
  · exact h
  · extract_lets old oldMem ldgNew incNew gridNew s₁ s₂ cut noRoom persisting _ s₃ s₄ _ s₅ s₆ _ s₇ s₈ s₉ s₁₀ _ s₁₁ s₁₂
      s₁₃ s₁₄ s₁₅ s₁₆ s₁₇
    have h₅ : Memory.wf s₅.mem := by simp [s₅, s₄, s₃, s₂, s₁, h]
    have h₆ : Memory.wf s₆.mem := wf_fillFallbacks _ _ (wf_clearReserve _ _ _ h₅)
    clear_value s₆
    have h₇ : Memory.wf s₇.mem := wf_if (wf_emptyGrids _ h₆) h₆
    clear_value s₇
    simp [s₁₇, s₁₆, s₁₅, s₁₄, s₁₃, s₁₂, s₁₁, s₁₀, s₉, s₈, h₇]

/-! ## Machine.Queues -/

theorem wf_storeData {q : Nat} {bytes : List Byte} {s u : State} {a : Nat} (hu : storeData q bytes s = some (u, a))
    (h : Memory.wf s.mem) : Memory.wf u.mem := by
  unfold storeData at hu
  split at hu
  · cases hu; exact h
  · obtain ⟨b, -, hb⟩ := Option.map_eq_some_iff.1 hu
    cases hb; exact Memory.wf_write h

@[simp] theorem wf_postEntry (q : Nat) (bytes : List Byte) (s : State) (h : Memory.wf s.mem) :
    Memory.wf (postEntry q bytes s).1.mem := by
  unfold postEntry
  dsimp only
  split
  · exact h
  · split <;> simp [h, Memory.wf_write]

@[simp] theorem wf_postData (q : Nat) (e : QEntry) (data : List Byte) (s : State) (h : Memory.wf s.mem) :
    Memory.wf (postData q e data s).1.mem := by
  unfold postData
  split
  · simp [h]
  · split
    next hu => exact wf_postEntry _ _ _ (wf_storeData hu h)
    · exact h

/-! ## Machine.Boundary -/

@[simp] theorem wf_boundary (tk : Nat) (idx : Option (BitVec 64)) (fly : Bool) (f : Nat) (s : State) (h : Memory.wf s.mem) :
    Memory.wf (boundary tk idx fly f s).mem := by
  have committed (u : State) (hu : u.mem = s.mem) :
      Memory.wf (if u.img.stage = 4 && decide (u.img.commitMono < s.mono - (s.stamp - tk)) then commitImage u else u).mem :=
    wf_if (wf_commitImage _ (wf_of_mem hu h)) (wf_of_mem hu h)
  unfold boundary
  refine wf_settle _ <| wf_of_mem ((mem_if ?_ rfl).trans <| (sendReport_mem _).trans <| (joinAtBoundary_mem _).trans <|
    (openGather_mem _).trans <| (msix_mem ..).trans <| (State.say_mem ..).trans <| Eq.trans rfl <| (takeOver_mem _).trans <|
    (flyJudge_mem ..).trans <| (flyEnds_mem ..).trans <| (stateStep_mem ..).trans <| (sourceStep_mem ..).trans <|
    Eq.trans rfl <| settleBudget_mem _) (committed _ ((endFly_mem _).trans <| (tickEnds_mem ..).trans <| mem_if rfl rfl))
  exact (mem_if (sendBudgets_mem _) rfl).trans rfl

@[simp] theorem wf_toBoundary (n : Nat) (s : State) (h : Memory.wf s.mem) :
    Memory.wf (toBoundary n s).mem := by
  induction n generalizing s with
  | zero => exact h
  | succ n ih =>
    unfold toBoundary
    split <;> simp [h, ih]

@[simp] theorem wf_nextBoundary (s : State) (h : Memory.wf s.mem) :
    Memory.wf (nextBoundary s).mem := by simp [h, nextBoundary]

@[simp] theorem wf_boundaryIf (c : State → Bool) (s : State) (h : Memory.wf s.mem) :
    Memory.wf (boundaryIf c s).mem := by simp [h, boundaryIf]

@[simp] theorem wf_tickInBoundary (e : Nat) (fly : Bool) (s : State) (h : Memory.wf s.mem) :
    Memory.wf (tickInBoundary e fly s).mem := by
  simp [h, tickInBoundary]

@[simp] theorem wf_flywheel (s : State) (h : Memory.wf s.mem) :
    Memory.wf (flywheel s).mem := by simp [h, flywheel]

/-! ## Machine.Access -/

@[simp] theorem wf_judged (src : Source) (a : Nat) (f : State → State) (s : State) (hf : Memory.wf (f s).mem)
    (h : Memory.wf s.mem) : Memory.wf (judged src a f s).mem := by
  unfold judged
  split
  · exact h
  · split <;> simp [h, hf]

@[simp] theorem wf_judgedCmd (src : Source) (a : Nat) (legal : Mode → Bool) (st f : State → State) (s : State)
    (hst : Memory.wf (st s).mem) (hf : Memory.wf (f s).mem) (h : Memory.wf s.mem) :
    Memory.wf (judgedCmd src a legal st f s).mem := by
  unfold judgedCmd
  split
  · exact h
  · split <;> simp [h, hst, hf]

@[simp] theorem wf_gctlCmd (src : Source) (code : Byte) (f : State → State × Byte) (s : State) (hf : Memory.wf (f s).1.mem)
    (h : Memory.wf s.mem) : Memory.wf (gctlCmd src code f s).mem := by simp [h, gctlCmd, hf]

@[simp] theorem wf_doRecover (s : State) (h : Memory.wf s.mem) :
    Memory.wf (doRecover s).1.mem := by simp [h, doRecover]

@[simp] theorem wf_doRestart (key : Byte) (s : State) (h : Memory.wf s.mem) :
    Memory.wf (doRestart key s).mem := by simp [h, doRestart]

@[simp] theorem wf_gctlByCode (src : Source) (code key : Byte) (s : State) (h : Memory.wf s.mem) :
    Memory.wf (gctlByCode src code key s).mem := by
  simp [h, gctlByCode]

/-! ## Machine.Links -/

@[simp] theorem wf_ackTaken (p : Nat) (a : LinkAck) (k : State → State) (s : State)
    (hk : ∀ t, Memory.wf t.mem → Memory.wf (k t).mem) (h : Memory.wf s.mem) :
    Memory.wf (ackTaken p a k s).mem := by
  unfold ackTaken
  split
  · exact h
  · split <;> simp [h, hk]

/-! ## Machine.FabTick -/

@[simp] theorem wf_tickMiss (s : State) (h : Memory.wf s.mem) :
    Memory.wf (tickMiss s).mem := by simp [h, tickMiss]

/-! ## Machine.GridOps -/

@[simp] theorem wf_gridWrite (gen : Byte) (mask : Word) (s : State) (h : Memory.wf s.mem) :
    Memory.wf (gridWrite gen mask s).1.mem := by
  simp [gridWrite, Memory.wf_write, h]

/-! ## Machine.Solve -/

@[simp] theorem wf_startSolve (t : TaskDesc) (core : Nat) (s : State) (h : Memory.wf s.mem) :
    Memory.wf (startSolve t core s).1.mem := by
  unfold startSolve
  split <;> simp [h]

@[simp] theorem wf_deliverSolve (n : Nat) (t : TaskDesc) (r : SolveRun) (gen : Byte) (oldest : Oldest) (s : State)
    (h : Memory.wf s.mem) : Memory.wf (deliverSolve n t r gen oldest s).mem := by
  unfold deliverSolve
  extract_lets fb isDef bytes ws s₁ s₂ s₃
  have h₁ : Memory.wf s₁.mem := by
    unfold s₁
    split <;> simp [h]
  clear_value s₁
  have h₂ : Memory.wf s₂.mem := by
    unfold s₂
    split <;> simp [h₁]
  have h₃ : Memory.wf s₃.mem := by simpa [s₃] using h₂
  clear_value s₃
  exact wf_if (Memory.wf_write h₃) h₃

/-! ## Machine.Tasks -/

@[simp] theorem wf_startJob (n : Nat) (j : Job) (pos : Nat) (s : State) (h : Memory.wf s.mem) :
    Memory.wf (startJob n j pos s).mem := by
  simp only [startJob]
  split <;> simp [h]

@[simp] theorem wf_putElem (t : TaskDesc) (gen : Byte) (d : Dest) (v : Int) (s : State) (h : Memory.wf s.mem) :
    Memory.wf (putElem t gen d v s).mem := by
  unfold putElem
  split <;> simp [h]

@[simp] theorem wf_storeElem (t : TaskDesc) (gen : Byte) (d : Dest) (v : Int) (already : Bool) (s : State) (h : Memory.wf s.mem) :
    Memory.wf (storeElem t gen d v already s).1.mem := by
  simp [h, storeElem]

@[simp] theorem wf_storeConverted (t : TaskDesc) (gen : Byte) (d : Dest) (w : Word) (s : State) (h : Memory.wf s.mem) :
    Memory.wf (storeConverted t gen d w s).mem := by
  unfold storeConverted
  split <;> simp [h]

@[simp] theorem wf_emitEntry (t : TaskDesc) (k : BitVec 64) (input first count : Nat) (entry : List Byte) (s : State)
    (h : Memory.wf s.mem) : Memory.wf (emitEntry t k input first count entry s).mem := by
  simp [h, emitEntry]

@[simp] theorem wf_runOp (n : Nat) (t : TaskDesc) (k : BitVec 64) (op : CoreOp) (s : State) (h : Memory.wf s.mem) :
    Memory.wf (runOp n t k op s).1.mem := by
  cases op with
  | store o off bytes =>
    simp only [runOp]
    split <;> simp [h]
  | _ => simp [h, runOp]

@[simp] theorem wf_addCell (t : TaskDesc) (gen : Byte) (o cell : Nat) (features : List Int) (s : State) (h : Memory.wf s.mem) :
    Memory.wf (addCell t gen o cell features s).1.mem := by
  unfold addCell
  dsimp only
  split
  · exact h
  · exact wf_foldl_fst _ _ _ (fun _ _ => wf_putElem _ _ _ _ _) h

@[simp] theorem wf_placeOps (t : TaskDesc) (k : BitVec 64) (ops : List CoreOp) (o : Nat) (s : State) (h : Memory.wf s.mem) :
    Memory.wf (placeOps t k ops o s).1.mem := by
  unfold placeOps
  refine wf_fst_if h (wf_foldl_fst _ _ _ (fun _ _ => wf_addCell _ _ _ _ _ _) (wf_foldl_fst _ _ _ (fun p e hp => ?_) ?_))
  · have hm := placePair_mem e.1 e.2.1 e.2.2.1 k p.1
    split <;> simp_all
  · dsimp only
    split
    · exact Memory.wf_clear h
    · exact h

@[simp] theorem wf_runWork (n : Nat) (t : TaskDesc) (k : BitVec 64) (work : List CoreOp) (s : State) (h : Memory.wf s.mem) :
    Memory.wf (runWork n t k work s).mem := by
  unfold runWork
  rw [countHits_mem]
  exact wf_foldl_fst _ _ _ (fun _ _ => wf_placeOps _ _ _ _ _) (wf_foldl_fst _ _ _ (fun _ _ => wf_runOp _ _ _ _ _) h)

@[simp] theorem wf_endGrid (t : TaskDesc) (j : Job) (s : State) (h : Memory.wf s.mem) :
    Memory.wf (endGrid t j s).mem := by simp [h, endGrid]

@[simp] theorem wf_endOutputs (n : Nat) (t : TaskDesc) (j : Job) (s : State) (h : Memory.wf s.mem) :
    Memory.wf (endOutputs n t j s).mem := by
  unfold endOutputs
  split
  · simp [h]
  · split
    · simp [h]
    · split <;> simp [h]

@[simp] theorem wf_endTask (n : Nat) (j : Job) (cycles : Nat) (work : List CoreOp) (s : State) (h : Memory.wf s.mem) :
    Memory.wf (endTask n j cycles work s).mem := by
  simp [h, endTask]

@[simp] theorem wf_acceptEntry (q : Nat) (s : State) (h : Memory.wf s.mem) :
    Memory.wf (acceptEntry q s).mem := by simp [h, acceptEntry]

@[simp] theorem wf_tailWrite (q : Nat) (value : BitVec 13) (s : State) (h : Memory.wf s.mem) :
    Memory.wf (tailWrite q value s).mem := by
  unfold tailWrite
  dsimp only
  split
  · exact h
  · split
    · exact h
    · exact wf_foldl _ _ _ (fun _ _ => wf_acceptEntry q _) h

/-! ## Machine.ArcCmd -/

@[simp] theorem wf_arcJudged (src : Source) (a : Nat) (f : State → State) (s : State) (hf : Memory.wf (f s).mem)
    (h : Memory.wf s.mem) : Memory.wf (arcJudged src a f s).mem := by simp [h, arcJudged, hf]

@[simp] theorem wf_arcLast (src : Source) (code : Byte) (last : Word) (s : State) (h : Memory.wf s.mem) :
    Memory.wf (arcLast src code last s).mem := by
  simp [h, arcLast]

/-! ## Machine.Ports -/

@[simp] theorem wf_portPost (stream : Nat) (off : Int) (e : QEntry) (data : List Byte) (s : State) (h : Memory.wf s.mem) :
    Memory.wf (portPost stream off e data s).1.mem := by
  unfold portPost
  split <;> simp [h]

@[simp] theorem wf_postGroup (r b : Nat) (f : OpenFrame) (last cut : Bool) (status : Byte) (s : State) (h : Memory.wf s.mem) :
    Memory.wf (postGroup r b f last cut status s).mem := by
  simp only [postGroup]
  split <;> simp [h]

@[simp] theorem wf_cutFrame (r b : Nat) (f : OpenFrame) (status : Byte) (s : State) (h : Memory.wf s.mem) :
    Memory.wf (cutFrame r b f status s).mem := by
  simp [h, cutFrame]

@[simp] theorem wf_cutOverrun (r b : Nat) (f : OpenFrame) (s : State) (h : Memory.wf s.mem) :
    Memory.wf (cutOverrun r b f s).mem := by
  simp [h, cutOverrun]

@[simp] theorem wf_cutDamaged (r b : Nat) (f : OpenFrame) (s : State) (h : Memory.wf s.mem) :
    Memory.wf (cutDamaged r b f s).mem := by
  simp [h, cutDamaged]

@[simp] theorem wf_takeLine (r b : Nat) (data : Option (List Byte)) (bad : Bool) (s : State) (h : Memory.wf s.mem) :
    Memory.wf (takeLine r b data bad s).mem := by
  unfold takeLine
  split
  · exact h
  · refine wf_if h (wf_if (by simp [h]) ?_)
    extract_lets pos bytes s₁ _ s₂ f
    have h₂ : Memory.wf s₂.mem := Memory.wf_write h
    clear_value s₂
    exact wf_if (by simp [h₂]) (wf_if (by simp [h₂]) (by simp [h₂]))

@[simp] theorem wf_fillLines (r b n : Nat) (s : State) (h : Memory.wf s.mem) :
    Memory.wf (fillLines r b n s).mem := by
  induction n generalizing s with
  | zero => exact h
  | succ n ih =>
    unfold fillLines
    split <;> simp [h, ih]

@[simp] theorem wf_camPacket (r : Nat) (ecc : HdrEcc) (bad k : State → State) (s : State)
    (hb : ∀ t, Memory.wf t.mem → Memory.wf (bad t).mem) (hk : ∀ t, Memory.wf t.mem → Memory.wf (k t).mem) (h : Memory.wf s.mem) :
    Memory.wf (camPacket r ecc bad k s).mem := by
  cases ecc <;> simp [h, camPacket, hb, hk]

@[simp] theorem wf_frameStart (r b : Nat) (no : BitVec 16) (s : State) (h : Memory.wf s.mem) :
    Memory.wf (frameStart r b no s).mem := by
  unfold frameStart
  dsimp only
  split
  · split <;> simp [h]
  · split <;> simp [h]

@[simp] theorem wf_longPacket (r vc dt : Nat) (crcOk : Bool) (data : List Byte) (s : State) (h : Memory.wf s.mem) :
    Memory.wf (longPacket r vc dt crcOk data s).mem := by
  unfold longPacket
  split
  · exact h
  · split
    · simp [h]
    · split <;> simp [h]

@[simp] theorem wf_lostLine (r vc dt : Nat) (s : State) (h : Memory.wf s.mem) :
    Memory.wf (lostLine r vc dt s).mem := by
  unfold lostLine
  split
  · exact h
  · split
    · simp [h]
    · exact h

@[simp] theorem wf_frameEnd (r b : Nat) (s : State) (h : Memory.wf s.mem) :
    Memory.wf (frameEnd r b s).mem := by
  unfold frameEnd
  dsimp only
  split
  · simp [h]
  · split <;> simp [h]

@[simp] theorem wf_ethPost (p : Nat) (m : MatchEntry) (v : EthView) (body : List Byte) (s : State) (h : Memory.wf s.mem) :
    Memory.wf (ethPost p m v body s).mem := by
  simp [h, ethPost]

@[simp] theorem wf_ethFrame (p : Nat) (fcsOk : Bool) (bytes : List Byte) (s : State) (h : Memory.wf s.mem) :
    Memory.wf (ethFrame p fcsOk bytes s).mem := by
  unfold ethFrame
  extract_lets s₁ s₂ s₃ _ _ s₄
  have h₃ : Memory.wf s₃.mem := by simp [s₁, s₂, s₃, h]
  have h₄ : Memory.wf s₄.mem := by simpa [s₄] using h₃
  clear_value s₃ s₄
  refine wf_if h <| wf_if (by simp [h]) <| wf_if h <| wf_if h₃ <| wf_if h₃ <| wf_if h₄ <| wf_if (by simp [h₄]) ?_
  split
  · simp [h₄]
  · exact wf_if h₄ (by simp [h₄])

@[simp] theorem wf_canFrame (c : Nat) (id : BitVec 29) (ide remote esi : Bool) (data : List Byte) (s : State)
    (h : Memory.wf s.mem) : Memory.wf (canFrame c id ide remote esi data s).mem := by
  unfold canFrame
  extract_lets s₁ _ s₂ s₃ s₄
  have h₃ : Memory.wf s₃.mem := by simp [s₁, s₂, s₃, h]
  have h₄ : Memory.wf s₄.mem := by simpa [s₄] using h₃
  clear_value s₃ s₄
  refine wf_if (by simp [h₃]) <| wf_if (by simp [h₄]) ?_
  split
  · simp [h₄]
  · exact wf_if h₄ (by simp [h₄])

@[simp] theorem wf_spiEnd (u : Nat) (data : List Byte) (s : State) (h : Memory.wf s.mem) :
    Memory.wf (spiEnd u data s).mem := by
  simp [h, spiEnd]

/-! ## Machine.Gather -/

@[simp] theorem wf_writeComps (d : StreamDecl) (masked : Bool) (cs : List Comp) (s : State) (h : Memory.wf s.mem) :
    Memory.wf (writeComps d masked cs s).mem := by
  unfold writeComps
  refine wf_foldl _ cs s (fun t c ht => ?_) h
  generalize compRecord _ _ _ _ _ _ = bytes
  exact Memory.wf_write ht

@[simp] theorem wf_closeToken (d : StreamDecl) (r : BitVec 4) (es : List (Nat × QEntry)) (s : State) (h : Memory.wf s.mem) :
    Memory.wf (closeToken d r es s).1.mem := by
  simp [h, closeToken]

@[simp] theorem wf_closeStream (d : StreamDecl) (acc : State × Word × List (Nat × BitVec 64)) (h : Memory.wf acc.1.mem) :
    Memory.wf (closeStream d acc).1.mem := by
  simp [closeStream, h]

@[simp] theorem wf_writeVote (s : State) (h : Memory.wf s.mem) :
    Memory.wf (writeVote s).mem := by unfold writeVote; split <;> simp [h]

@[simp] theorem wf_writeSummary (write : Bool) (s : State) (h : Memory.wf s.mem) :
    Memory.wf (writeSummary write s).mem := by
  unfold writeSummary
  split <;> simp [h]

@[simp] theorem wf_registrarClose (s : State) (h : Memory.wf s.mem) : Memory.wf (registrarClose s).mem := by
  unfold registrarClose
  have closed := wf_foldl_fst (fun acc d => closeStream d acc) (s.im.streams.streams.filter (fun d => d.gather))
    (s, (0 : Word), []) (fun _ _ => wf_closeStream _ _) h
  refine wf_writeSummary _ _ (wf_writeVote _ (wf_of_mem (advanceRings_mem _) ?_))
  simpa only [plainToken_mem, voidCameras_mem] using closed

@[simp] theorem wf_gatherEdge (s : State) (h : Memory.wf s.mem) :
    Memory.wf (gatherEdge s).mem := by simp [h, gatherEdge]

/-! ## Machine.Emit -/

@[simp] theorem wf_tickBlock (w : Wait) (summary : Bool) (s : State) (h : Memory.wf s.mem) :
    Memory.wf (tickBlock w summary s).mem :=
  wf_if h (wf_ringWrite _ _ _ _ ((blockPose_mem s).symm ▸ h))

@[simp] theorem wf_patchBlock (w : Wait) (out : Nat) (s : State) (h : Memory.wf s.mem) :
    Memory.wf (patchBlock w out s).mem := by
  unfold patchBlock
  split
  · extract_lets a ages flags m
    clear_value a ages flags
    have hm : Memory.wf m := Memory.wf_write (Memory.wf_write (Memory.wf_write h))
    clear_value m
    exact hm
  · exact h

@[simp] theorem wf_decide25 (s : State) (h : Memory.wf s.mem) :
    Memory.wf (decide25 s).1.mem := by
  unfold decide25
  split
  · split <;> simp [h]
  · split <;> simp [h]
  · split <;> simp [h]
  · simp [h]

@[simp] theorem wf_emitFrames (stale summary : Bool) (s : State) (h : Memory.wf s.mem) :
    Memory.wf (emitFrames stale summary s).mem := by
  simp [h, emitFrames]

@[simp] theorem wf_emitEdge (s : State) (h : Memory.wf s.mem) :
    Memory.wf (emitEdge s).mem := by simp only [emitEdge]; split <;> simp [h]

@[simp] theorem wf_toCardBuf (w : Wait) (frame : List Byte) (s : State) (h : Memory.wf s.mem) :
    Memory.wf (toCardBuf w frame s).mem :=
  Memory.wf_write h

@[simp] theorem wf_sendFrame (w : Wait) (frame : List Byte) (s : State) (h : Memory.wf s.mem) :
    Memory.wf (sendFrame w frame s).mem := by
  unfold sendFrame
  refine wf_if (by simp [h]) (wf_if (wf_toCardBuf _ _ _ h) ?_)
  exact wf_of_mem (mem_foldl _ _ _ fun _ _ => State.say_mem ..) (wf_of_mem (State.setEth_mem ..) h)

@[simp] theorem wf_acceptFrame (w : Wait) (s : State) (h : Memory.wf s.mem) :
    Memory.wf (acceptFrame w s).mem := by simp [h, acceptFrame]

/-! ## Machine.Startup -/

@[simp] theorem wf_powerOn (mgrSel : Bool) (fabAddr : BitVec 10) (s : State) (h : Memory.wf s.mem) :
    Memory.wf (powerOn mgrSel fabAddr s).mem := by
  unfold powerOn
  split
  · simp [wf_nil]
  · exact h

@[simp] theorem wf_pinReset (s : State) (h : Memory.wf s.mem) :
    Memory.wf (pinReset s).mem := by simp [h, pinReset]

/-! ## Machine.Fenor -/

@[simp] theorem wf_streamPayload (p : Payload) (s : State) (h : Memory.wf s.mem) : Memory.wf (streamPayload p s).1.mem := by
  unfold streamPayload
  split
  · simp [h]
  · split <;> simp [h, Memory.wf_write]

@[simp] theorem wf_streamPayloads (l : List Payload) (s : State) (h : Memory.wf s.mem) :
    Memory.wf (streamPayloads l s).1.mem := by
  induction l generalizing s with
  | nil => exact h
  | cons p l ih =>
    unfold streamPayloads
    dsimp only
    split <;> simp [h, ih]

@[simp] theorem wf_twinFails (t : Twin) (f : CheckFail) (s : State) : Memory.wf (twinFails t f s).mem := by
  unfold twinFails
  cases t <;> simp [wf_nil]

@[simp] theorem wf_twinPasses (t : Twin) (im : Image) (s : State) (h : Memory.wf s.mem) :
    Memory.wf (twinPasses t im s).mem := by
  simp [h, twinPasses]

@[simp] theorem wf_candidateFail (im : Image) (s : State) (h : Memory.wf s.mem) :
    Memory.wf (candidateFail im s).1.mem := by
  simp [h, candidateFail]

@[simp] theorem wf_verifyEnds (s : State) (h : Memory.wf s.mem) :
    Memory.wf (verifyEnds s).mem := by
  unfold verifyEnds
  dsimp only
  split
  · simp [h]
  · split <;> simp [h]

/-! ## Machine.WardenCmd -/

@[simp] theorem wf_extInput (p n : Bool) (s : State) (h : Memory.wf s.mem) :
    Memory.wf (extInput p n s).mem := by simp [h, extInput]

/-! ## Machine.HostOps -/

@[simp] theorem wf_gridWinWrite (off : Nat) (v : Word) (s : State) (h : Memory.wf s.mem) :
    Memory.wf (gridWinWrite off v s).mem :=
  wf_if (Memory.wf_write h) h

/-! ## Machine.Ticks -/

@[simp] theorem wf_switchTimeout (s : State) (h : Memory.wf s.mem) :
    Memory.wf (switchTimeout s).mem := by
  unfold switchTimeout
  split <;> simp [h]

@[simp] theorem wf_judgeEdge (s : State) (h : Memory.wf s.mem) :
    Memory.wf (judgeEdge s).mem := by simp [h, judgeEdge]

@[simp] theorem wf_tickEdge (s : State) (h : Memory.wf s.mem) :
    Memory.wf (tickEdge s).mem := by
  unfold tickEdge
  split
  · exact h
  · split
    · split <;> simp [h]
    · split <;> simp [h]

@[simp] theorem wf_flyInstant (s : State) (h : Memory.wf s.mem) :
    Memory.wf (flyInstant s).mem := by
  unfold flyInstant
  split
  · exact h
  · split <;> simp [h]

/-! ## Machine.TimeBase -/

@[simp] theorem wf_timCmd (src : Source) (f : State → State) (s : State) (hf : Memory.wf (f s).mem) (h : Memory.wf s.mem) :
    Memory.wf (timCmd src f s).mem :=
  wf_judgedCmd _ _ _ _ _ _ (by simp [h]) hf h

@[simp] theorem wf_timCtlWrite (src : Source) (v : Word) (s : State) (h : Memory.wf s.mem) :
    Memory.wf (timCtlWrite src v s).mem := by
  simp [h, timCtlWrite]

/-! ## Machine.Operands -/

@[simp] theorem wf_schWrite (o : Nat) (v : Word) (s : State) (h : Memory.wf s.mem) :
    Memory.wf (schWrite o v s).mem := by
  unfold schWrite
  split <;> simp [h]

/-- Proved as `MemoryOk`: the kernel compares the states of two such goals, and does not run the subtractions in their addresses. -/
@[simp] theorem wf_plainWrite (row a : Nat) (v : Word) (s : State) (h : Memory.wf s.mem) :
    Memory.wf (plainWrite row a v s).mem := by
  show MemoryOk (plainWrite row a v s)
  unfold plainWrite
  split
  case h_17 => exact memoryOk_of_mem rfl (wf_schWrite _ _ _ h)
  case h_25 => exact memoryOk_of_mem (mem_if (State.setCore_mem ..) rfl) h
  all_goals exact memoryOk_of_mem (by simp) h

/-- Whatever a write of a command does, it keeps. -/
theorem wf_cmdWrite {src : Source} {a : Nat} {v : Word} {f : State → State} (hf : cmdWrite src a v = some f) (s : State)
    (h : Memory.wf s.mem) : Memory.wf (f s).mem := by
  unfold cmdWrite at hf
  split at hf
  · cases hf; simp [h]
  · cases hf; simp [h]
  · cases hf; simp [h]
  · obtain ⟨-, rfl⟩ := by simpa using hf
    simp [h]
  · obtain ⟨-, rfl⟩ := by simpa using hf
    simp [h]
  · obtain ⟨-, rfl⟩ := by simpa using hf
    simp [h]
  · cases hf; simp [h]
  · obtain ⟨-, rfl⟩ := by simpa using hf
    simp [h]
  · obtain ⟨-, rfl⟩ := by simpa using hf
    simp [h]
  · obtain ⟨-, rfl⟩ := by simpa using hf
    simp [h]
  · split at hf
    · cases hf; simp [h]
    · cases hf; simp [h]
    · obtain ⟨-, rfl⟩ := by simpa using hf
      simp [h]

@[simp] theorem wf_regWrite (src : Source) (a : Nat) (v : Word) (s : State) (h : Memory.wf s.mem) :
    Memory.wf (regWrite src a v s).mem := by
  unfold regWrite
  refine wf_if h ?_
  split
  next hc => exact wf_cmdWrite hc s h
  · split <;> simp [h]

/-! ## Machine.Card -/

@[simp] theorem wf_removalSeal (s : State) (h : Memory.wf s.mem) :
    Memory.wf (removalSeal s).mem := by simp [h, removalSeal]

@[simp] theorem wf_cardWriteReg (r : CardReq) (s : State) (h : Memory.wf s.mem) :
    Memory.wf (cardWriteReg r s).1.mem := by
  unfold cardWriteReg
  split
  · exact wf_foldl _ _ _ (fun _ _ => wf_regWrite _ _ _ _) h
  · simp [h]

@[simp] theorem wf_cardWriteBlock (r : CardReq) (s : State) (h : Memory.wf s.mem) :
    Memory.wf (cardWriteBlock r s).1.mem := by
  unfold cardWriteBlock
  split
  · exact wf_foldl _ _ _ (fun _ _ => wf_gridWinWrite _ _ _) h
  · simp [h]

@[simp] theorem wf_cardExec (r : CardReq) (s : State) (h : Memory.wf s.mem) :
    Memory.wf (cardExec r s).1.mem := by
  unfold cardExec
  extract_lets c
  clear_value c
  simp [h]

@[simp] theorem wf_cardAnswer (r : CardReq) (s : State) (h : Memory.wf s.mem) : Memory.wf (cardAnswer r s).mem := by
  unfold cardAnswer
  simp only [cardSend_mem]
  split <;> simp [h]

@[simp] theorem wf_cardDown (s : State) (h : Memory.wf s.mem) : Memory.wf (cardDown s).mem := by
  unfold cardDown
  simp only [raiseDet_mem, crdVec_mem, crdCount_mem]
  split <;> simp [h]

/-! ## Machine.FabData -/

@[simp] theorem wf_dataPost (g : DataSeg) (entry data : List Byte) (s : State) (h : Memory.wf s.mem) :
    Memory.wf (dataPost g entry data s).mem := by
  unfold dataPost
  refine wf_if (by simp [h]) ?_
  split
  next hu => exact wf_postEntry _ _ _ (wf_storeData hu h)
  · exact h

@[simp] theorem wf_dataNext (src : BitVec 12) (g : DataSeg) (a : Assembly) (s : State) (h : Memory.wf s.mem) :
    Memory.wf (dataNext src g a s).1.mem := by
  simp [h, dataNext]

@[simp] theorem wf_dataTaken (hdr : MsgHdr) (g : DataSeg) (s : State) (h : Memory.wf s.mem) :
    Memory.wf (dataTaken hdr g s).1.mem := by
  unfold dataTaken
  extract_lets _ asm _ s₁
  have h₁ : Memory.wf s₁.mem := by simp [s₁, h]
  clear_value asm s₁
  refine wf_fst_if h <| wf_fst_if h₁ <| wf_fst_if (by simp [h₁]) <| wf_fst_if (by simp [h₁]) <|
    wf_fst_if (by simp [h₁]) <| wf_fst_if (by simp [h₁]) ?_
  cases asm
  · simp [h₁]
  · exact wf_fst_if (by simp [h₁]) (by simp [h₁])

/-! ## Machine.Jtag -/

@[simp] theorem wf_jtag (f : State → State) (s : State) (hf : Memory.wf (f s).mem) (h : Memory.wf s.mem) :
    Memory.wf (jtag f s).mem := by
  simp [h, jtag, hf]

@[simp] theorem wf_jtagPins (i : JtagIr) (s : State) (h : Memory.wf s.mem) :
    Memory.wf (jtagPins i s).mem := by simp [h, jtagPins]

@[simp] theorem wf_intScan (s : State) (h : Memory.wf s.mem) : Memory.wf (intScan s).mem := by
  unfold intScan
  refine wf_if h ?_
  rw [drivePair_mem]
  exact wf_nil

end Sys2Proof.Machine

/-! # O5: the commands -/
namespace Sys2Proof.Machine
/-- A next state that an answer is has its memories in their canonical form. -/
def Answer.MemoryOk (a : Answer) : Prop := ∀ t, a = .next t → Machine.MemoryOk t

/-- A command's own part that leaves the memories canonical still does so once the warden has taken what it raised. -/
theorem done_memoryOk {u : State} (h : Memory.wf u.mem) : (done u).MemoryOk := by
  rintro t ⟨⟩
  exact wf_settle u h

theorem withReq_memoryOk (type : Byte) (f : MbxReq → State → State) (s : State) (hf : ∀ r, Memory.wf (f r s).mem)
    (h : Memory.wf s.mem) : (withReq type f s).MemoryOk := by
  refine done_memoryOk ?_
  split
  · exact wf_if (hf _) h
  · exact h

theorem cardRow_memoryOk (cmd : Byte) (s : State) (h : Memory.wf s.mem) : (cardRow cmd s).MemoryOk := by
  refine done_memoryOk ?_
  split
  · exact wf_if (wf_cardAnswer _ _ h) h
  · exact h

theorem execPowerOn_memoryOk (mgrSel : Bool) (fabAddr : BitVec 10) (s : State) (h : Memory.wf s.mem) :
    (execPowerOn mgrSel fabAddr s).MemoryOk := done_memoryOk (by simp [h])
theorem execPoresetAssert_memoryOk (s : State) (h : Memory.wf s.mem) : (execPoresetAssert s).MemoryOk :=
  done_memoryOk (by simp [h])
theorem execSupplyLoss_memoryOk (supply : Supply) (s : State) (h : Memory.wf s.mem) : (execSupplyLoss supply s).MemoryOk :=
  done_memoryOk (by simp [h])
theorem execPinReset_memoryOk (s : State) (h : Memory.wf s.mem) : (execPinReset s).MemoryOk := done_memoryOk (by simp [h])
theorem execHoldCheck_memoryOk (refclkOk suppliesOk pllOk : Bool) (s : State) (h : Memory.wf s.mem) :
    (execHoldCheck refclkOk suppliesOk pllOk s).MemoryOk := done_memoryOk (by simp [h])
theorem execConditionLost_memoryOk (what : Condition) (s : State) (h : Memory.wf s.mem) : (execConditionLost what s).MemoryOk := by
  cases what <;> exact done_memoryOk (by simp [h])
theorem execPowerupPlanDone_memoryOk (fw0 fw1 : Bool) (marginWarn : Nat) (s : State) (h : Memory.wf s.mem) :
    (execPowerupPlanDone fw0 fw1 marginWarn s).MemoryOk := done_memoryOk (by simp [h])
theorem execPowerupFail_memoryOk (code index : Byte) (s : State) (h : Memory.wf s.mem) :
    (execPowerupFail code index s).MemoryOk := done_memoryOk (by simp [h])

theorem execLoadDone_memoryOk (ecc : EccView) (s : State) (h : Memory.wf s.mem) : (execLoadDone ecc s).MemoryOk := by
  refine done_memoryOk (wf_if h ?_)
  dsimp only
  split
  · simp
  · split
    · exact wf_twinFails ..
    · exact wf_twinPasses _ _ _ (wf_streamPayloads _ _ wf_nil)

theorem execHalt_memoryOk (src : Source) (s : State) (h : Memory.wf s.mem) : (execHalt src s).MemoryOk :=
  done_memoryOk (by simp [h])
theorem execGo_memoryOk (src : Source) (s : State) (h : Memory.wf s.mem) : (execGo src s).MemoryOk := done_memoryOk (by simp [h])
theorem execRecover_memoryOk (src : Source) (s : State) (h : Memory.wf s.mem) : (execRecover src s).MemoryOk :=
  done_memoryOk (by simp [h])
theorem execEnterMaint_memoryOk (src : Source) (s : State) (h : Memory.wf s.mem) : (execEnterMaint src s).MemoryOk :=
  done_memoryOk (by simp [h])
theorem execRestart_memoryOk (src : Source) (key : Byte) (s : State) (h : Memory.wf s.mem) : (execRestart src key s).MemoryOk :=
  done_memoryOk (by simp [h])
theorem execClrCnt_memoryOk (src : Source) (s : State) (h : Memory.wf s.mem) : (execClrCnt src s).MemoryOk :=
  done_memoryOk (by simp [h])
theorem execCntClr_memoryOk (src : Source) (blk : CntBlk) (s : State) (h : Memory.wf s.mem) : (execCntClr src blk s).MemoryOk :=
  done_memoryOk (by simp [h])
theorem execRegisterWrite_memoryOk (src : Source) (addr : Nat) (value : Word) (whole : Bool) (s : State) (h : Memory.wf s.mem) :
    (execRegisterWrite src addr value whole s).MemoryOk := done_memoryOk (by simp [h])
theorem execSnapshotRead_memoryOk (src : Source) (place : Access) (s : State) (h : Memory.wf s.mem) :
    (execSnapshotRead src place s).MemoryOk := done_memoryOk (by simp [h])
theorem execTickBoundary_memoryOk (hottest : Int) (s : State) (h : Memory.wf s.mem) : (execTickBoundary hottest s).MemoryOk :=
  done_memoryOk (by simp [h])
theorem execStagedApply_memoryOk (s : State) (h : Memory.wf s.mem) : (execStagedApply s).MemoryOk := done_memoryOk (by simp [h])
theorem execCommitTakeEffect_memoryOk (s : State) (h : Memory.wf s.mem) : (execCommitTakeEffect s).MemoryOk :=
  done_memoryOk (by simp [h])
theorem execRunEntry_memoryOk (s : State) (h : Memory.wf s.mem) : (execRunEntry s).MemoryOk := done_memoryOk (by simp [h])
theorem execArmTimeout_memoryOk (s : State) (h : Memory.wf s.mem) : (execArmTimeout s).MemoryOk := done_memoryOk (by simp [h])
theorem execDegradedExit_memoryOk (s : State) (h : Memory.wf s.mem) : (execDegradedExit s).MemoryOk := done_memoryOk (by simp [h])
theorem execLockLossDegrade_memoryOk (s : State) (h : Memory.wf s.mem) : (execLockLossDegrade s).MemoryOk :=
  done_memoryOk (by simp [h])
theorem execQuarantineExit_memoryOk (s : State) (h : Memory.wf s.mem) : (execQuarantineExit s).MemoryOk :=
  done_memoryOk (by simp [h])
theorem execSrcRequest_memoryOk (src : Source) (value : BitVec 2) (s : State) (h : Memory.wf s.mem) :
    (execSrcRequest src value s).MemoryOk := done_memoryOk (by simp [h])
theorem execSrcSwitchEffect_memoryOk (s : State) (h : Memory.wf s.mem) : (execSrcSwitchEffect s).MemoryOk :=
  done_memoryOk (by simp [h])
theorem execSrcSwitchTimeout_memoryOk (s : State) (h : Memory.wf s.mem) : (execSrcSwitchTimeout s).MemoryOk :=
  done_memoryOk (by simp [h])
theorem execTickInEdge_memoryOk (s : State) (h : Memory.wf s.mem) : (execTickInEdge s).MemoryOk := done_memoryOk (by simp [h])
theorem execFlywheelBoundary_memoryOk (s : State) (h : Memory.wf s.mem) : (execFlywheelBoundary s).MemoryOk :=
  done_memoryOk (by simp [h])
theorem execFallback_memoryOk (s : State) (h : Memory.wf s.mem) : (execFallback s).MemoryOk := done_memoryOk (by simp [h])
theorem execGatherClose_memoryOk (s : State) (h : Memory.wf s.mem) : (execGatherClose s).MemoryOk := done_memoryOk (by simp [h])

theorem execStreamLimit_memoryOk (stream : Nat) (s : State) (h : Memory.wf s.mem) : (execStreamLimit stream s).MemoryOk := by
  refine done_memoryOk ?_
  split
  · exact wf_if (by simp [h]) h
  · exact h

theorem execEmitEdge_memoryOk (s : State) (h : Memory.wf s.mem) : (execEmitEdge s).MemoryOk := done_memoryOk (by simp [h])

theorem execFrameAccept_memoryOk (chan : Channel) (route : Nat) (s : State) (h : Memory.wf s.mem) :
    (execFrameAccept chan route s).MemoryOk := by
  refine done_memoryOk ?_
  split <;> simp [h]

theorem execQuietEdge_memoryOk (s : State) (h : Memory.wf s.mem) : (execQuietEdge s).MemoryOk := done_memoryOk (by simp [h])
theorem execTimDiscRequest_memoryOk (src : Source) (disc : BitVec 2) (s : State) (h : Memory.wf s.mem) :
    (execTimDiscRequest src disc s).MemoryOk := done_memoryOk (by simp [h])
theorem execApplyStep_memoryOk (src : Source) (atSecond : Bool) (s : State) (h : Memory.wf s.mem) :
    (execApplyStep src atSecond s).MemoryOk := done_memoryOk (by simp [h])
theorem execApplySlew_memoryOk (src : Source) (atSecond : Bool) (s : State) (h : Memory.wf s.mem) :
    (execApplySlew src atSecond s).MemoryOk := done_memoryOk (by simp [h])
theorem execTimCancel_memoryOk (src : Source) (s : State) (h : Memory.wf s.mem) : (execTimCancel src s).MemoryOk :=
  done_memoryOk (by simp [h])
theorem execTimSetWrite_memoryOk (src : Source) (reg : TimSet) (value : Word) (s : State) (h : Memory.wf s.mem) :
    (execTimSetWrite src reg value s).MemoryOk := done_memoryOk (by simp [h])
theorem execApplyAtSecondEffect_memoryOk (s : State) (h : Memory.wf s.mem) : (execApplyAtSecondEffect s).MemoryOk :=
  done_memoryOk (by simp [h])
theorem execSlewEnd_memoryOk (s : State) (h : Memory.wf s.mem) : (execSlewEnd s).MemoryOk := done_memoryOk (by simp [h])

theorem execGptpMessage_memoryOk (mac : Nat) (msg : GptpMsg) (s : State) (h : Memory.wf s.mem) :
    (execGptpMessage mac msg s).MemoryOk := by
  refine done_memoryOk (wf_if ?_ h)
  cases msg <;> simp [h]

theorem execPpsInEdge_memoryOk (s : State) (h : Memory.wf s.mem) : (execPpsInEdge s).MemoryOk := done_memoryOk (by simp [h])

theorem execReferenceSilence_memoryOk (s : State) (h : Memory.wf s.mem) : (execReferenceSilence s).MemoryOk := by
  refine done_memoryOk (wf_if h ?_)
  split
  · exact wf_if (by simp [h]) (by simp [h])
  · exact h

theorem execHoldoverLimit_memoryOk (s : State) (h : Memory.wf s.mem) : (execHoldoverLimit s).MemoryOk :=
  done_memoryOk (by simp [h])
theorem execPpsOutPulse_memoryOk (s : State) (h : Memory.wf s.mem) : (execPpsOutPulse s).MemoryOk := done_memoryOk (by simp [h])
theorem execImgStage_memoryOk (src : Source) (twin : Twin) (s : State) (h : Memory.wf s.mem) :
    (execImgStage src twin s).MemoryOk := done_memoryOk (by simp [h])
theorem execImgVerify_memoryOk (src : Source) (s : State) (h : Memory.wf s.mem) : (execImgVerify src s).MemoryOk :=
  done_memoryOk (by simp [h])
theorem execVerifyDone_memoryOk (ecc : EccView) (s : State) (h : Memory.wf s.mem) : (execVerifyDone ecc s).MemoryOk :=
  done_memoryOk (by simp [h])
theorem execImgCommit_memoryOk (src : Source) (persist : Bool) (s : State) (h : Memory.wf s.mem) :
    (execImgCommit src persist s).MemoryOk := done_memoryOk (by simp [h])
theorem execImgCancel_memoryOk (src : Source) (s : State) (h : Memory.wf s.mem) : (execImgCancel src s).MemoryOk :=
  done_memoryOk (by simp [h])
theorem execPersistSelector_memoryOk (s : State) (h : Memory.wf s.mem) : (execPersistSelector s).MemoryOk :=
  done_memoryOk (by simp [h])
theorem execTaskRelease_memoryOk (task : Nat) (s : State) (h : Memory.wf s.mem) : (execTaskRelease task s).MemoryOk := by
  refine done_memoryOk ?_
  split <;> simp [h]
theorem execTaskStart_memoryOk (core : Nat) (s : State) (h : Memory.wf s.mem) : (execTaskStart core s).MemoryOk := by
  refine done_memoryOk (wf_if ?_ h)
  split <;> simp [h]

theorem execTaskEnd_memoryOk (core : Nat) (cycles : Nat) (work : List CoreOp) (s : State) (h : Memory.wf s.mem) :
    (execTaskEnd core cycles work s).MemoryOk := by
  refine done_memoryOk ?_
  split
  · exact h
  · exact wf_if h (by simp [h])

theorem execWcetExceed_memoryOk (core : Nat) (cycles : Nat) (s : State) (h : Memory.wf s.mem) :
    (execWcetExceed core cycles s).MemoryOk := done_memoryOk (by simp [h])

theorem execSolveStepEnd_memoryOk (core : Nat) (step : SolveStep) (s : State) (h : Memory.wf s.mem) :
    (execSolveStepEnd core step s).MemoryOk := by
  refine done_memoryOk ?_
  split
  · exact wf_if h (wf_if (by simp [h]) (by simp [h]))
  · exact h

theorem execSolveDeadline_memoryOk (core : Nat) (cut : SolveCut) (s : State) (h : Memory.wf s.mem) :
    (execSolveDeadline core cut s).MemoryOk := by
  refine done_memoryOk ?_
  split
  · split
    · exact wf_if h (by simp [h])
    · exact h
  · exact h

theorem execQueueTailWrite_memoryOk (src : Source) (queue : Nat) (value : BitVec 13) (s : State) (h : Memory.wf s.mem) :
    (execQueueTailWrite src queue value s).MemoryOk := done_memoryOk (by simp [h])
theorem execScoreboardPeek_memoryOk (src : Source) (slot : BitVec 13) (entry : Bool) (s : State) (h : Memory.wf s.mem) :
    (execScoreboardPeek src slot entry s).MemoryOk := done_memoryOk (by simp [h])
theorem execCvtTestConvert_memoryOk (src : Source) (value : Word) (s : State) (h : Memory.wf s.mem) :
    (execCvtTestConvert src value s).MemoryOk := done_memoryOk (by simp [h])

theorem execCsiFrameStart_memoryOk (rx vc : Nat) (frameNo : BitVec 16) (ecc : HdrEcc) (s : State) (h : Memory.wf s.mem) :
    (execCsiFrameStart rx vc frameNo ecc s).MemoryOk :=
  done_memoryOk <| wf_camPacket _ _ _ _ _ (fun _ => id) (fun t ht => wf_if (by simp [ht])
    (wf_foldl _ _ _ (fun u b => wf_frameStart rx b frameNo u) (by simp [ht]))) h

theorem execCsiLine_memoryOk (rx vc dt : Nat) (ecc : HdrEcc) (crcOk : Bool) (data : List Byte) (s : State) (h : Memory.wf s.mem) :
    (execCsiLine rx vc dt ecc crcOk data s).MemoryOk :=
  done_memoryOk (wf_camPacket _ _ _ _ _ (wf_lostLine rx vc dt) (wf_longPacket rx vc dt crcOk data) h)

theorem execCsiFrameEnd_memoryOk (rx vc : Nat) (ecc : HdrEcc) (s : State) (h : Memory.wf s.mem) :
    (execCsiFrameEnd rx vc ecc s).MemoryOk :=
  done_memoryOk <| wf_camPacket _ _ _ _ _ (fun _ => id) (fun t ht => wf_if (by simp [ht])
    (wf_foldl _ _ _ (fun u b => wf_frameEnd rx b u) ht)) h

theorem execCsiSotError_memoryOk (rx : Nat) (s : State) (h : Memory.wf s.mem) : (execCsiSotError rx s).MemoryOk :=
  done_memoryOk (by simp [h])
theorem execEthFrameRx_memoryOk (mac : Nat) (fcsOk : Bool) (bytes : List Byte) (s : State) (h : Memory.wf s.mem) :
    (execEthFrameRx mac fcsOk bytes s).MemoryOk := done_memoryOk (by simp [h])
theorem execEthLinkChange_memoryOk (mac : Nat) (link : EthLink) (s : State) (h : Memory.wf s.mem) :
    (execEthLinkChange mac link s).MemoryOk := done_memoryOk (by simp [h])
theorem execCanFrameRx_memoryOk (ctl : Nat) (id : BitVec 29) (ide : Bool) (bits : CanBits) (data : List Byte) (s : State)
    (h : Memory.wf s.mem) : (execCanFrameRx ctl id ide bits data s).MemoryOk := done_memoryOk (by simp [h])
theorem execCanError_memoryOk (ctl : Nat) (cat : CanCat) (role : CanRole) (s : State) (h : Memory.wf s.mem) :
    (execCanError ctl cat role s).MemoryOk := done_memoryOk (by simp [h])
theorem execCanBusoffRecovery_memoryOk (ctl : Nat) (s : State) (h : Memory.wf s.mem) : (execCanBusoffRecovery ctl s).MemoryOk :=
  done_memoryOk (by simp [h])
theorem execDrdyEdge_memoryOk (unit : Nat) (s : State) (h : Memory.wf s.mem) : (execDrdyEdge unit s).MemoryOk :=
  done_memoryOk (by simp [h])
theorem execSpiTransferEnd_memoryOk (unit : Nat) (data : List Byte) (s : State) (h : Memory.wf s.mem) :
    (execSpiTransferEnd unit data s).MemoryOk := done_memoryOk (by simp [h])
theorem execDrdyTimeout_memoryOk (unit : Nat) (s : State) (h : Memory.wf s.mem) : (execDrdyTimeout unit s).MemoryOk :=
  done_memoryOk (by simp [h])
theorem execGpioEdge_memoryOk (pin : Nat) (rising : Bool) (s : State) (h : Memory.wf s.mem) :
    (execGpioEdge pin rising s).MemoryOk := done_memoryOk (by simp [h])
theorem execIncTrigEdge_memoryOk (rising : Bool) (s : State) (h : Memory.wf s.mem) : (execIncTrigEdge rising s).MemoryOk :=
  done_memoryOk (by simp [h])
theorem execHostTrigger_memoryOk (src : Source) (s : State) (h : Memory.wf s.mem) : (execHostTrigger src s).MemoryOk :=
  done_memoryOk (by simp [h])
theorem execVitrineBlockCommit_memoryOk (s : State) (h : Memory.wf s.mem) : (execVitrineBlockCommit s).MemoryOk :=
  done_memoryOk (by simp [h])
theorem execVitrineSeal_memoryOk (s : State) (h : Memory.wf s.mem) : (execVitrineSeal s).MemoryOk := done_memoryOk (by simp [h])
theorem execVitrinePrepare_memoryOk (s : State) (h : Memory.wf s.mem) : (execVitrinePrepare s).MemoryOk :=
  done_memoryOk (by simp [h])
theorem execVitrineStartSeal_memoryOk (s : State) (h : Memory.wf s.mem) : (execVitrineStartSeal s).MemoryOk :=
  done_memoryOk (by simp [h])

theorem execEgoUpdate_memoryOk (s : State) (h : Memory.wf s.mem) : (execEgoUpdate s).MemoryOk := by
  refine done_memoryOk ?_
  split
  · exact wf_if (wf_if (by simp [h]) (by simp [h])) h
  · exact h

theorem execEgoHistSelect_memoryOk (src : Source) (age : BitVec 9) (s : State) (h : Memory.wf s.mem) :
    (execEgoHistSelect src age s).MemoryOk := done_memoryOk (by simp [h])

theorem execArcWindowRead_memoryOk (src : Source) (place : Access) (ecc : EccView) (s : State) (h : Memory.wf s.mem) :
    (execArcWindowRead src place ecc s).MemoryOk := by
  refine done_memoryOk <| wf_if h <| wf_if (by simp [h]) <| wf_if (by simp [h]) ?_
  have read := winRead_mem (s.winAddr place.addr) (s.showing ecc)
  split
  next u w e =>
    rw [e] at read
    exact wf_of_mem ((State.say_mem ..).trans (read.trans (State.showing_mem ..))) h

theorem execArcWindowWrite_memoryOk (src : Source) (off : Nat) (s : State) (h : Memory.wf s.mem) :
    (execArcWindowWrite src off s).MemoryOk := done_memoryOk (by simp [h])
theorem execEccWarnWrite_memoryOk (src : Source) (value : BitVec 2) (s : State) (h : Memory.wf s.mem) :
    (execEccWarnWrite src value s).MemoryOk := done_memoryOk (by simp [h])
theorem execFirmwareRepair_memoryOk (sigOk : Bool) (s : State) (h : Memory.wf s.mem) : (execFirmwareRepair sigOk s).MemoryOk :=
  done_memoryOk (by simp [h])
theorem execArcKey_memoryOk (src : Source) (key : Byte) (s : State) (h : Memory.wf s.mem) : (execArcKey src key s).MemoryOk :=
  done_memoryOk (by simp [h])
theorem execArcSequenceWrite_memoryOk (src : Source) (reg : ArcReg) (value : Word) (s : State) (h : Memory.wf s.mem) :
    (execArcSequenceWrite src reg value s).MemoryOk := done_memoryOk (by simp [h])

theorem execArcKeyTimeout_memoryOk (s : State) (h : Memory.wf s.mem) : (execArcKeyTimeout s).MemoryOk := by
  refine done_memoryOk ?_
  split
  · exact wf_if (by simp [h]) h
  · exact h

theorem execArcSeqTimeout_memoryOk (s : State) (h : Memory.wf s.mem) : (execArcSeqTimeout s).MemoryOk := by
  refine done_memoryOk ?_
  split
  · exact wf_if (by simp [h]) h
  · exact h

theorem execReadId_memoryOk (src : Source) (last : Word) (s : State) (h : Memory.wf s.mem) : (execReadId src last s).MemoryOk :=
  done_memoryOk (by simp [h])
theorem execProgramWord_memoryOk (src : Source) (last : Word) (s : State) (h : Memory.wf s.mem) :
    (execProgramWord src last s).MemoryOk := done_memoryOk (by simp [h])
theorem execProgramEnd_memoryOk (s : State) (h : Memory.wf s.mem) : (execProgramEnd s).MemoryOk := done_memoryOk (by simp [h])
theorem execEraseSector_memoryOk (src : Source) (last : Word) (s : State) (h : Memory.wf s.mem) :
    (execEraseSector src last s).MemoryOk := done_memoryOk (by simp [h])
theorem execEraseParam_memoryOk (src : Source) (last : Word) (s : State) (h : Memory.wf s.mem) :
    (execEraseParam src last s).MemoryOk := done_memoryOk (by simp [h])

theorem execEraseEnd_memoryOk (s : State) (h : Memory.wf s.mem) : (execEraseEnd s).MemoryOk := by
  refine done_memoryOk ?_
  split
  · exact wf_if (wf_of_mem (arcNow_mem s) h) (by simp [h])
  · exact wf_of_mem (arcNow_mem s) h

theorem execSuspend_memoryOk (src : Source) (last : Word) (s : State) (h : Memory.wf s.mem) : (execSuspend src last s).MemoryOk :=
  done_memoryOk (by simp [h])

theorem execSuspendEffect_memoryOk (s : State) (h : Memory.wf s.mem) : (execSuspendEffect s).MemoryOk := by
  refine done_memoryOk ?_
  split
  · exact wf_if (by simp [h]) (wf_of_mem (arcNow_mem s) h)
  · exact wf_of_mem (arcNow_mem s) h

theorem execResume_memoryOk (src : Source) (last : Word) (s : State) (h : Memory.wf s.mem) : (execResume src last s).MemoryOk :=
  done_memoryOk (by simp [h])
theorem execReadCounter_memoryOk (src : Source) (last : Word) (s : State) (h : Memory.wf s.mem) :
    (execReadCounter src last s).MemoryOk := done_memoryOk (by simp [h])
theorem execSetWp_memoryOk (src : Source) (last : Word) (s : State) (h : Memory.wf s.mem) : (execSetWp src last s).MemoryOk :=
  done_memoryOk (by simp [h])
theorem execLockWp_memoryOk (src : Source) (last : Word) (s : State) (h : Memory.wf s.mem) : (execLockWp src last s).MemoryOk :=
  done_memoryOk (by simp [h])
theorem execSwapBoot_memoryOk (src : Source) (last : Word) (s : State) (h : Memory.wf s.mem) :
    (execSwapBoot src last s).MemoryOk := done_memoryOk (by simp [h])
theorem execSwapBootEnd_memoryOk (s : State) (h : Memory.wf s.mem) : (execSwapBootEnd s).MemoryOk := done_memoryOk (by simp [h])
theorem execBlankCheck_memoryOk (src : Source) (last : Word) (s : State) (h : Memory.wf s.mem) :
    (execBlankCheck src last s).MemoryOk := done_memoryOk (by simp [h])
theorem execBlankCheckEnd_memoryOk (s : State) (h : Memory.wf s.mem) : (execBlankCheckEnd s).MemoryOk :=
  done_memoryOk (by simp [h])
theorem execClearStatus_memoryOk (src : Source) (last : Word) (s : State) (h : Memory.wf s.mem) :
    (execClearStatus src last s).MemoryOk := done_memoryOk (by simp [h])
theorem execIncompleteReerase_memoryOk (s : State) (h : Memory.wf s.mem) : (execIncompleteReerase s).MemoryOk := by
  refine done_memoryOk ?_
  split <;> simp [h]
theorem execCardPresLoss_memoryOk (s : State) (h : Memory.wf s.mem) : (execCardPresLoss s).MemoryOk := done_memoryOk (by simp [h])
theorem execRemovalSeal_memoryOk (s : State) (h : Memory.wf s.mem) : (execRemovalSeal s).MemoryOk := done_memoryOk (by simp [h])
theorem execCardLinkUp_memoryOk (s : State) (h : Memory.wf s.mem) : (execCardLinkUp s).MemoryOk := done_memoryOk (by simp [h])
theorem execCardLinkDown_memoryOk (s : State) (h : Memory.wf s.mem) : (execCardLinkDown s).MemoryOk := done_memoryOk (by simp [h])
theorem execCardRequest_memoryOk (frame : CardFrame) (s : State) (h : Memory.wf s.mem) : (execCardRequest frame s).MemoryOk :=
  done_memoryOk (by simp [h])
theorem execCardBadFrame_memoryOk (kind : BadFrame) (cmd tag : Byte) (symErrs : Nat) (s : State) (h : Memory.wf s.mem) :
    (execCardBadFrame kind cmd tag symErrs s).MemoryOk := done_memoryOk (by simp [h])
theorem execIdent_memoryOk (s : State) (h : Memory.wf s.mem) : (execIdent s).MemoryOk :=
  cardRow_memoryOk _ _ h
theorem execStatus_memoryOk (s : State) (h : Memory.wf s.mem) : (execStatus s).MemoryOk :=
  cardRow_memoryOk _ _ h
theorem execReadReg_memoryOk (s : State) (h : Memory.wf s.mem) : (execReadReg s).MemoryOk :=
  cardRow_memoryOk _ _ h
theorem execWriteReg_memoryOk (s : State) (h : Memory.wf s.mem) : (execWriteReg s).MemoryOk :=
  cardRow_memoryOk _ _ h
theorem execReadBlock_memoryOk (ecc : EccView) (s : State) (h : Memory.wf s.mem) : (execReadBlock ecc s).MemoryOk :=
  cardRow_memoryOk 0x20 (s.showing ecc) h
theorem execWriteBlock_memoryOk (s : State) (h : Memory.wf s.mem) : (execWriteBlock s).MemoryOk :=
  cardRow_memoryOk _ _ h
theorem execGridRead_memoryOk (s : State) (h : Memory.wf s.mem) : (execGridRead s).MemoryOk :=
  cardRow_memoryOk _ _ h
theorem execMailboxPut_memoryOk (s : State) (h : Memory.wf s.mem) : (execMailboxPut s).MemoryOk :=
  cardRow_memoryOk _ _ h
theorem execMailboxGet_memoryOk (s : State) (h : Memory.wf s.mem) : (execMailboxGet s).MemoryOk :=
  cardRow_memoryOk _ _ h
theorem execEjectRequest_memoryOk (s : State) (h : Memory.wf s.mem) : (execEjectRequest s).MemoryOk :=
  cardRow_memoryOk _ _ h
theorem execEjectReady_memoryOk (s : State) (h : Memory.wf s.mem) : (execEjectReady s).MemoryOk := done_memoryOk (by simp [h])
theorem execAbort_memoryOk (tag target : Byte) (s : State) (h : Memory.wf s.mem) : (execAbort tag target s).MemoryOk :=
  done_memoryOk (by simp [h])

theorem execPeriodBoundary_memoryOk (s : State) (h : Memory.wf s.mem) : (execPeriodBoundary s).MemoryOk := by
  refine done_memoryOk (wf_if ?_ h)
  split
  · split
    next hu => exact wf_if h (wf_of_mem ((ldgJudge_mem ..).trans (untilStamp_mem hu)) h)
    · exact h
  · exact h

theorem execBackstop_memoryOk (s : State) (h : Memory.wf s.mem) : (execBackstop s).MemoryOk := by
  refine done_memoryOk ?_
  split
  · split
    · exact wf_if (by simp [h]) (by simp [h])
    · simp [h]
  · simp [h]

theorem execCheckpoint_memoryOk (s : State) (h : Memory.wf s.mem) : (execCheckpoint s).MemoryOk := done_memoryOk (by simp [h])
theorem execAppendBound_memoryOk (src : Source) (s : State) (h : Memory.wf s.mem) : (execAppendBound src s).MemoryOk :=
  done_memoryOk (by simp [h])
theorem execFabricLinkUp_memoryOk (port : Nat) (partner : LinkPartner) (s : State) (h : Memory.wf s.mem) :
    (execFabricLinkUp port partner s).MemoryOk := done_memoryOk (by simp [h])
theorem execFabricLinkDown_memoryOk (port : Nat) (s : State) (h : Memory.wf s.mem) : (execFabricLinkDown port s).MemoryOk :=
  done_memoryOk (by simp [h])
theorem execHelloTimeout_memoryOk (port : Nat) (s : State) (h : Memory.wf s.mem) : (execHelloTimeout port s).MemoryOk :=
  done_memoryOk (by simp [h])
theorem execLinkAck_memoryOk (port : Nat) (ack : LinkAck) (s : State) (h : Memory.wf s.mem) : (execLinkAck port ack s).MemoryOk :=
  done_memoryOk (wf_ackTaken _ _ _ _ (fun _ ht => wf_of_mem (State.setPort_mem ..) ht) h)
theorem execLinkNak_memoryOk (port : Nat) (missing : LinkAck) (s : State) (h : Memory.wf s.mem) :
    (execLinkNak port missing s).MemoryOk := done_memoryOk (by simp [h])
theorem execHelloSend_memoryOk (s : State) (h : Memory.wf s.mem) : (execHelloSend s).MemoryOk := done_memoryOk (by simp [h])
theorem execHello_memoryOk (port : Nat) (hello : MsgHdr × Hello) (s : State) (h : Memory.wf s.mem) :
    (execHello port hello s).MemoryOk := done_memoryOk (by simp [h])
theorem execLsaRefresh_memoryOk (s : State) (h : Memory.wf s.mem) : (execLsaRefresh s).MemoryOk := done_memoryOk (by simp [h])
theorem execLsa_memoryOk (port : Nat) (hdr : MsgHdr) (lsa : Lsa) (s : State) (h : Memory.wf s.mem) :
    (execLsa port hdr lsa s).MemoryOk := done_memoryOk (by simp [h])

theorem execLsaExpiry_memoryOk (s : State) (h : Memory.wf s.mem) : (execLsaExpiry s).MemoryOk := by
  refine done_memoryOk ?_
  split
  · simp [h]
  · exact h

theorem execElection_memoryOk (s : State) (h : Memory.wf s.mem) : (execElection s).MemoryOk := done_memoryOk (by simp [h])
theorem execAddrAssign_memoryOk (port : Nat) (hdr : MsgHdr) (serial : BitVec 64) (addr : BitVec 12) (s : State)
    (h : Memory.wf s.mem) : (execAddrAssign port hdr serial addr s).MemoryOk := done_memoryOk (by simp [h])
theorem execRole_memoryOk (port : Nat) (hdr : MsgHdr) (mgr stby : BitVec 12) (devices : BitVec 16) (epoch : BitVec 64) (s : State)
    (h : Memory.wf s.mem) :
    (execRole port hdr mgr stby devices epoch s).MemoryOk := done_memoryOk (by simp [h])
theorem execTickSend_memoryOk (s : State) (h : Memory.wf s.mem) : (execTickSend s).MemoryOk := done_memoryOk (by simp [h])
theorem execTick_memoryOk (port : Nat) (hdr : MsgHdr) (tick : TickMsg) (s : State) (h : Memory.wf s.mem) :
    (execTick port hdr tick s).MemoryOk := done_memoryOk (by simp [h])
theorem execTickMiss_memoryOk (s : State) (h : Memory.wf s.mem) : (execTickMiss s).MemoryOk := done_memoryOk (by simp [h])
theorem execDelayMeasure_memoryOk (port : Nat) (s : State) (h : Memory.wf s.mem) : (execDelayMeasure port s).MemoryOk :=
  done_memoryOk (by simp [h])
theorem execDelayReq_memoryOk (port : Nat) (hdr : MsgHdr) (t1 : BitVec 64) (s : State) (h : Memory.wf s.mem) :
    (execDelayReq port hdr t1 s).MemoryOk := done_memoryOk (by simp [h])
theorem execDelayResp_memoryOk (port : Nat) (hdr : MsgHdr) (t1 t2 t3 : BitVec 64) (s : State) (h : Memory.wf s.mem) :
    (execDelayResp port hdr t1 t2 t3 s).MemoryOk := done_memoryOk (by simp [h])
theorem execBudget_memoryOk (port : Nat) (hdr : MsgHdr) (applyIndex : BitVec 64) (budget classFloor : BitVec 16) (s : State)
    (h : Memory.wf s.mem) :
    (execBudget port hdr applyIndex budget classFloor s).MemoryOk := done_memoryOk (by simp [h])
theorem execTrigger_memoryOk (port : Nat) (hdr : MsgHdr) (originTick : BitVec 64) (cause : Byte) (s : State) (h : Memory.wf s.mem) :
    (execTrigger port hdr originTick cause s).MemoryOk := done_memoryOk (by simp [h])
theorem execSafe_memoryOk (port : Nat) (hdr : MsgHdr) (tickIndex : BitVec 64) (cause : Byte) (s : State) (h : Memory.wf s.mem) :
    (execSafe port hdr tickIndex cause s).MemoryOk := done_memoryOk (by simp [h])
theorem execData_memoryOk (port : Nat) (hdr : MsgHdr) (seg : DataSeg) (s : State) (h : Memory.wf s.mem) :
    (execData port hdr seg s).MemoryOk :=
  done_memoryOk (wf_arrive _ _ _ _ _ _ (wf_dataTaken hdr seg) h)
theorem execReply_memoryOk (port : Nat) (hdr : MsgHdr) (reply : ReplyMsg) (s : State) (h : Memory.wf s.mem) :
    (execReply port hdr reply s).MemoryOk := done_memoryOk (by simp [h])
theorem execJoinReq_memoryOk (port : Nat) (hdr : MsgHdr) (join : JoinReq) (s : State) (h : Memory.wf s.mem) :
    (execJoinReq port hdr join s).MemoryOk := done_memoryOk (by simp [h])
theorem execJoinAck_memoryOk (port : Nat) (hdr : MsgHdr) (ack : JoinAck) (s : State) (h : Memory.wf s.mem) :
    (execJoinAck port hdr ack s).MemoryOk := done_memoryOk (by simp [h])
theorem execReport_memoryOk (port : Nat) (hdr : MsgHdr) (report : ReportMsg) (s : State) (h : Memory.wf s.mem) :
    (execReport port hdr report s).MemoryOk := done_memoryOk (by simp [h])
theorem execVerdict_memoryOk (port : Nat) (hdr : MsgHdr) (cause action : Byte) (epoch : BitVec 64) (s : State)
    (h : Memory.wf s.mem) : (execVerdict port hdr cause action epoch s).MemoryOk := done_memoryOk (by simp [h])
theorem execMgrClaimSend_memoryOk (s : State) (h : Memory.wf s.mem) : (execMgrClaimSend s).MemoryOk := done_memoryOk (by simp [h])
theorem execMgrClaim_memoryOk (port : Nat) (hdr : MsgHdr) (claim : Claim) (s : State) (h : Memory.wf s.mem) :
    (execMgrClaim port hdr claim s).MemoryOk := done_memoryOk (by simp [h])
theorem execMemberSelect_memoryOk (src : Source) (value : BitVec 10) (s : State) (h : Memory.wf s.mem) :
    (execMemberSelect src value s).MemoryOk := done_memoryOk (by simp [h])
theorem execRouteSelect_memoryOk (src : Source) (value : BitVec 12) (s : State) (h : Memory.wf s.mem) :
    (execRouteSelect src value s).MemoryOk := done_memoryOk (by simp [h])
theorem execArbiterWindow_memoryOk (requests : List Nat) (s : State) (h : Memory.wf s.mem) :
    (execArbiterWindow requests s).MemoryOk := done_memoryOk (by simp [h])
theorem execPwrAlert_memoryOk (s : State) (h : Memory.wf s.mem) : (execPwrAlert s).MemoryOk := done_memoryOk (by simp [h])
theorem execPwrAlertRelease_memoryOk (s : State) (h : Memory.wf s.mem) : (execPwrAlertRelease s).MemoryOk :=
  done_memoryOk (by simp [h])
theorem execBudgetWrite_memoryOk (src : Source) (value : BitVec 16) (s : State) (h : Memory.wf s.mem) :
    (execBudgetWrite src value s).MemoryOk := done_memoryOk (by simp [h])
theorem execFabBudgetWrite_memoryOk (src : Source) (value : BitVec 16) (s : State) (h : Memory.wf s.mem) :
    (execFabBudgetWrite src value s).MemoryOk := done_memoryOk (by simp [h])
theorem execLossOfLock_memoryOk (clock : ClockFault) (s : State) (h : Memory.wf s.mem) : (execLossOfLock clock s).MemoryOk := by
  refine done_memoryOk (wf_if h ?_)
  cases clock <;> simp [h]
theorem execDetectorReport_memoryOk (patterns : List DetPattern) (s : State) (h : Memory.wf s.mem) :
    (execDetectorReport patterns s).MemoryOk := done_memoryOk (by simp [h])
theorem execFaultClear_memoryOk (src : Source) (det : Byte) (s : State) (h : Memory.wf s.mem) :
    (execFaultClear src det s).MemoryOk := done_memoryOk (by simp [h])
theorem execFaultClearAll_memoryOk (src : Source) (s : State) (h : Memory.wf s.mem) : (execFaultClearAll src s).MemoryOk :=
  done_memoryOk (by simp [h])
theorem execRecSelect_memoryOk (src : Source) (index : BitVec 6) (s : State) (h : Memory.wf s.mem) :
    (execRecSelect src index s).MemoryOk := done_memoryOk (by simp [h])
theorem execHeartbeatToggle_memoryOk (s : State) (h : Memory.wf s.mem) : (execHeartbeatToggle s).MemoryOk := by
  refine done_memoryOk (wf_if ?_ h)
  split <;> simp [h]
theorem execExtFltInput_memoryOk (p n : Bool) (s : State) (h : Memory.wf s.mem) : (execExtFltInput p n s).MemoryOk :=
  done_memoryOk (by simp [h])
theorem execExtHbTimeout_memoryOk (s : State) (h : Memory.wf s.mem) : (execExtHbTimeout s).MemoryOk := done_memoryOk (by simp [h])
theorem execSliceStart_memoryOk (requests : List Nat) (condOk : Bool) (s : State) (h : Memory.wf s.mem) :
    (execSliceStart requests condOk s).MemoryOk := done_memoryOk (by simp [h])
theorem execSliceSkip_memoryOk (requests : List Nat) (condFailed : Bool) (s : State) (h : Memory.wf s.mem) :
    (execSliceSkip requests condFailed s).MemoryOk := done_memoryOk (by simp [h])

theorem execSliceTestEnd_memoryOk (result : SliceOutcome) (s : State) (h : Memory.wf s.mem) :
    (execSliceTestEnd result s).MemoryOk := by
  unfold execSliceTestEnd
  split <;> exact done_memoryOk (by simp [h])

theorem execSliceLatestEnd_memoryOk (s : State) (h : Memory.wf s.mem) : (execSliceLatestEnd s).MemoryOk := by
  unfold execSliceLatestEnd
  split
  · exact done_memoryOk (wf_if (by simp [h]) (by simp [h]))
  · exact done_memoryOk h

theorem execSliceRestoreEnd_memoryOk (s : State) (h : Memory.wf s.mem) : (execSliceRestoreEnd s).MemoryOk := by
  unfold execSliceRestoreEnd
  split <;> exact done_memoryOk (by simp [h])
theorem execUnmappedRead_memoryOk (src : Source) (place : Access) (s : State) (h : Memory.wf s.mem) :
    (execUnmappedRead src place s).MemoryOk := done_memoryOk (by simp [h])
theorem execGridWindowWrite_memoryOk (src : Source) (place : Access) (value : Word) (s : State) (h : Memory.wf s.mem) :
    (execGridWindowWrite src place value s).MemoryOk := done_memoryOk (by simp [h])
theorem execMsixUnmask_memoryOk (what : Unmask) (s : State) (h : Memory.wf s.mem) : (execMsixUnmask what s).MemoryOk := by
  cases what <;> exact done_memoryOk (by simp [h])
theorem execRingEnable_memoryOk (src : Source) (chan : Channel) (s : State) (h : Memory.wf s.mem) :
    (execRingEnable src chan s).MemoryOk := done_memoryOk (by simp [h])
theorem execRingDisable_memoryOk (src : Source) (chan : Channel) (s : State) (h : Memory.wf s.mem) :
    (execRingDisable src chan s).MemoryOk := done_memoryOk (by simp [h])
theorem execRingHeadWrite_memoryOk (src : Source) (chan : Channel) (value : BitVec 10) (s : State) (h : Memory.wf s.mem) :
    (execRingHeadWrite src chan value s).MemoryOk := done_memoryOk (by simp [h])
theorem execRingWriteback_memoryOk (chan : Channel) (s : State) (h : Memory.wf s.mem) : (execRingWriteback chan s).MemoryOk :=
  done_memoryOk (by simp [h])
theorem execPcieReset_memoryOk (kind : PcieReset) (s : State) (h : Memory.wf s.mem) : (execPcieReset kind s).MemoryOk :=
  done_memoryOk (by simp [h])
theorem execMbxPut_memoryOk (src : Source) (s : State) (h : Memory.wf s.mem) : (execMbxPut src s).MemoryOk :=
  done_memoryOk (by simp [h])
theorem execMbxGet_memoryOk (src : Source) (s : State) (h : Memory.wf s.mem) : (execMbxGet src s).MemoryOk :=
  done_memoryOk (by simp [h])
theorem execMailboxTake_memoryOk (s : State) (h : Memory.wf s.mem) : (execMailboxTake s).MemoryOk := done_memoryOk (by simp [h])
theorem execStageProgram_memoryOk (s : State) (h : Memory.wf s.mem) : (execStageProgram s).MemoryOk :=
  withReq_memoryOk _ _ _ (by simp [h]) h
theorem execStageErase_memoryOk (s : State) (h : Memory.wf s.mem) : (execStageErase s).MemoryOk :=
  withReq_memoryOk _ _ _ (by simp [h]) h
theorem execIncList_memoryOk (s : State) (h : Memory.wf s.mem) : (execIncList s).MemoryOk :=
  withReq_memoryOk _ _ _ (by simp [h]) h
theorem execIncExport_memoryOk (ecc : EccView) (s : State) (h : Memory.wf s.mem) : (execIncExport ecc s).MemoryOk :=
  withReq_memoryOk _ _ (s.showing ecc) (by simp [h]) h
theorem execIncAck_memoryOk (s : State) (h : Memory.wf s.mem) : (execIncAck s).MemoryOk :=
  withReq_memoryOk _ _ _ (by simp [h]) h
theorem execLdgExport_memoryOk (s : State) (h : Memory.wf s.mem) : (execLdgExport s).MemoryOk :=
  withReq_memoryOk _ _ _ (by simp [h]) h
theorem execLdgAck_memoryOk (s : State) (h : Memory.wf s.mem) : (execLdgAck s).MemoryOk :=
  withReq_memoryOk _ _ _ (by simp [h]) h
theorem execExtest_memoryOk (s : State) (h : Memory.wf s.mem) : (execExtest s).MemoryOk := done_memoryOk (by simp [h])
theorem execIdcode_memoryOk (s : State) (h : Memory.wf s.mem) : (execIdcode s).MemoryOk := done_memoryOk (by simp [h])
theorem execSamplePreload_memoryOk (bits : List Bool) (s : State) (h : Memory.wf s.mem) : (execSamplePreload bits s).MemoryOk :=
  done_memoryOk (by simp [h])
theorem execClamp_memoryOk (s : State) (h : Memory.wf s.mem) : (execClamp s).MemoryOk := done_memoryOk (by simp [h])
theorem execHighz_memoryOk (s : State) (h : Memory.wf s.mem) : (execHighz s).MemoryOk := done_memoryOk (by simp [h])
theorem execIntScan_memoryOk (s : State) (h : Memory.wf s.mem) : (execIntScan s).MemoryOk := done_memoryOk (by simp [h])
theorem execBypass_memoryOk (s : State) (h : Memory.wf s.mem) : (execBypass s).MemoryOk := done_memoryOk (by simp [h])
theorem execPinResetRelease_memoryOk (mgrSel : Bool) (fabAddr : BitVec 10) (s : State) (h : Memory.wf s.mem) :
    (execPinResetRelease mgrSel fabAddr s).MemoryOk := done_memoryOk (by simp [h])
theorem execPcieLinkUp_memoryOk (speed width : Nat) (s : State) (h : Memory.wf s.mem) : (execPcieLinkUp speed width s).MemoryOk :=
  done_memoryOk (by simp [h])

theorem execConfigurationRequest_memoryOk (req : CfgReq) (s : State) (h : Memory.wf s.mem) :
    (execConfigurationRequest req s).MemoryOk := by
  refine done_memoryOk (wf_if h (wf_if (by simp [h]) ?_))
  cases req <;> simp [h]

theorem execTimeclkPresent_memoryOk (present : Bool) (s : State) (h : Memory.wf s.mem) :
    (execTimeclkPresent present s).MemoryOk := done_memoryOk (by simp [h])
theorem execPeerDelayMeasurement_memoryOk (mac : Nat) (s : State) (h : Memory.wf s.mem) :
    (execPeerDelayMeasurement mac s).MemoryOk := done_memoryOk (by simp [h])
theorem execGenericShortPacket_memoryOk (rx : Nat) (packet : ShortPacket) (s : State) (h : Memory.wf s.mem) :
    (execGenericShortPacket rx packet s).MemoryOk := done_memoryOk (by simp [h])

theorem execDupAddrRecovery_memoryOk (s : State) (h : Memory.wf s.mem) : (execDupAddrRecovery s).MemoryOk := by
  refine done_memoryOk ?_
  split
  next m _ =>
    obtain ⟨u, hu, e⟩ := exists_eq_mem (advanceTo_mem (m + s.fabSec.settle * 1000000) s)
    rw [hu]
    exact wf_if (by simp [e, h]) h
  · exact h

theorem execFloorRaise_memoryOk (s : State) (h : Memory.wf s.mem) : (execFloorRaise s).MemoryOk :=
  withReq_memoryOk _ _ _ (by simp [h]) h

theorem exec_memoryOk (c : Instr) (s : State) (h : Memory.wf s.mem) : Answer.MemoryOk (exec c s) := by
  cases c with
  | powerOn mgrSel fabAddr => exact execPowerOn_memoryOk mgrSel fabAddr s h
  | poresetAssert => exact execPoresetAssert_memoryOk s h
  | supplyLoss supply => exact execSupplyLoss_memoryOk supply s h
  | pinReset => exact execPinReset_memoryOk s h
  | holdCheck refclkOk suppliesOk pllOk => exact execHoldCheck_memoryOk refclkOk suppliesOk pllOk s h
  | conditionLost what => exact execConditionLost_memoryOk what s h
  | powerupPlanDone fw0 fw1 marginWarn => exact execPowerupPlanDone_memoryOk fw0 fw1 marginWarn s h
  | powerupFail code index => exact execPowerupFail_memoryOk code index s h
  | loadDone ecc => exact execLoadDone_memoryOk ecc s h
  | halt src => exact execHalt_memoryOk src s h
  | go src => exact execGo_memoryOk src s h
  | recover src => exact execRecover_memoryOk src s h
  | enterMaint src => exact execEnterMaint_memoryOk src s h
  | restart src key => exact execRestart_memoryOk src key s h
  | clrCnt src => exact execClrCnt_memoryOk src s h
  | cntClr src blk => exact execCntClr_memoryOk src blk s h
  | registerWrite src addr value whole => exact execRegisterWrite_memoryOk src addr value whole s h
  | snapshotRead src place => exact execSnapshotRead_memoryOk src place s h
  | tickBoundary hottest => exact execTickBoundary_memoryOk hottest s h
  | stagedApply => exact execStagedApply_memoryOk s h
  | commitTakeEffect => exact execCommitTakeEffect_memoryOk s h
  | runEntry => exact execRunEntry_memoryOk s h
  | armTimeout => exact execArmTimeout_memoryOk s h
  | degradedExit => exact execDegradedExit_memoryOk s h
  | lockLossDegrade => exact execLockLossDegrade_memoryOk s h
  | quarantineExit => exact execQuarantineExit_memoryOk s h
  | srcRequest src value => exact execSrcRequest_memoryOk src value s h
  | srcSwitchEffect => exact execSrcSwitchEffect_memoryOk s h
  | srcSwitchTimeout => exact execSrcSwitchTimeout_memoryOk s h
  | tickInEdge => exact execTickInEdge_memoryOk s h
  | flywheelBoundary => exact execFlywheelBoundary_memoryOk s h
  | fallback => exact execFallback_memoryOk s h
  | gatherClose => exact execGatherClose_memoryOk s h
  | streamLimit stream => exact execStreamLimit_memoryOk stream s h
  | emitEdge => exact execEmitEdge_memoryOk s h
  | frameAccept chan route => exact execFrameAccept_memoryOk chan route s h
  | quietEdge => exact execQuietEdge_memoryOk s h
  | timDiscRequest src disc => exact execTimDiscRequest_memoryOk src disc s h
  | applyStep src atSecond => exact execApplyStep_memoryOk src atSecond s h
  | applySlew src atSecond => exact execApplySlew_memoryOk src atSecond s h
  | timCancel src => exact execTimCancel_memoryOk src s h
  | timSetWrite src reg value => exact execTimSetWrite_memoryOk src reg value s h
  | applyAtSecondEffect => exact execApplyAtSecondEffect_memoryOk s h
  | slewEnd => exact execSlewEnd_memoryOk s h
  | gptpMessage mac msg => exact execGptpMessage_memoryOk mac msg s h
  | ppsInEdge => exact execPpsInEdge_memoryOk s h
  | referenceSilence => exact execReferenceSilence_memoryOk s h
  | holdoverLimit => exact execHoldoverLimit_memoryOk s h
  | ppsOutPulse => exact execPpsOutPulse_memoryOk s h
  | imgStage src twin => exact execImgStage_memoryOk src twin s h
  | imgVerify src => exact execImgVerify_memoryOk src s h
  | verifyDone ecc => exact execVerifyDone_memoryOk ecc s h
  | imgCommit src persist => exact execImgCommit_memoryOk src persist s h
  | imgCancel src => exact execImgCancel_memoryOk src s h
  | persistSelector => exact execPersistSelector_memoryOk s h
  | taskRelease task => exact execTaskRelease_memoryOk task s h
  | taskStart core => exact execTaskStart_memoryOk core s h
  | taskEnd core cycles work => exact execTaskEnd_memoryOk core cycles work s h
  | wcetExceed core cycles => exact execWcetExceed_memoryOk core cycles s h
  | solveStepEnd core step => exact execSolveStepEnd_memoryOk core step s h
  | solveDeadline core cut => exact execSolveDeadline_memoryOk core cut s h
  | queueTailWrite src queue value => exact execQueueTailWrite_memoryOk src queue value s h
  | scoreboardPeek src slot entry => exact execScoreboardPeek_memoryOk src slot entry s h
  | cvtTestConvert src value => exact execCvtTestConvert_memoryOk src value s h
  | csiFrameStart rx vc frameNo ecc => exact execCsiFrameStart_memoryOk rx vc frameNo ecc s h
  | csiLine rx vc dt ecc crcOk data => exact execCsiLine_memoryOk rx vc dt ecc crcOk data s h
  | csiFrameEnd rx vc ecc => exact execCsiFrameEnd_memoryOk rx vc ecc s h
  | csiSotError rx => exact execCsiSotError_memoryOk rx s h
  | ethFrameRx mac fcsOk bytes => exact execEthFrameRx_memoryOk mac fcsOk bytes s h
  | ethLinkChange mac link => exact execEthLinkChange_memoryOk mac link s h
  | canFrameRx ctl id ide bits data => exact execCanFrameRx_memoryOk ctl id ide bits data s h
  | canError ctl cat role => exact execCanError_memoryOk ctl cat role s h
  | canBusoffRecovery ctl => exact execCanBusoffRecovery_memoryOk ctl s h
  | drdyEdge unit => exact execDrdyEdge_memoryOk unit s h
  | spiTransferEnd unit data => exact execSpiTransferEnd_memoryOk unit data s h
  | drdyTimeout unit => exact execDrdyTimeout_memoryOk unit s h
  | gpioEdge pin rising => exact execGpioEdge_memoryOk pin rising s h
  | incTrigEdge rising => exact execIncTrigEdge_memoryOk rising s h
  | hostTrigger src => exact execHostTrigger_memoryOk src s h
  | vitrineBlockCommit => exact execVitrineBlockCommit_memoryOk s h
  | vitrineSeal => exact execVitrineSeal_memoryOk s h
  | vitrinePrepare => exact execVitrinePrepare_memoryOk s h
  | vitrineStartSeal => exact execVitrineStartSeal_memoryOk s h
  | egoUpdate => exact execEgoUpdate_memoryOk s h
  | egoHistSelect src age => exact execEgoHistSelect_memoryOk src age s h
  | arcWindowRead src place ecc => exact execArcWindowRead_memoryOk src place ecc s h
  | arcWindowWrite src off => exact execArcWindowWrite_memoryOk src off s h
  | eccWarnWrite src value => exact execEccWarnWrite_memoryOk src value s h
  | firmwareRepair sigOk => exact execFirmwareRepair_memoryOk sigOk s h
  | arcKey src key => exact execArcKey_memoryOk src key s h
  | arcSequenceWrite src reg value => exact execArcSequenceWrite_memoryOk src reg value s h
  | arcKeyTimeout => exact execArcKeyTimeout_memoryOk s h
  | arcSeqTimeout => exact execArcSeqTimeout_memoryOk s h
  | readId src last => exact execReadId_memoryOk src last s h
  | programWord src last => exact execProgramWord_memoryOk src last s h
  | programEnd => exact execProgramEnd_memoryOk s h
  | eraseSector src last => exact execEraseSector_memoryOk src last s h
  | eraseParam src last => exact execEraseParam_memoryOk src last s h
  | eraseEnd => exact execEraseEnd_memoryOk s h
  | suspend src last => exact execSuspend_memoryOk src last s h
  | suspendEffect => exact execSuspendEffect_memoryOk s h
  | resume src last => exact execResume_memoryOk src last s h
  | readCounter src last => exact execReadCounter_memoryOk src last s h
  | setWp src last => exact execSetWp_memoryOk src last s h
  | lockWp src last => exact execLockWp_memoryOk src last s h
  | swapBoot src last => exact execSwapBoot_memoryOk src last s h
  | swapBootEnd => exact execSwapBootEnd_memoryOk s h
  | blankCheck src last => exact execBlankCheck_memoryOk src last s h
  | blankCheckEnd => exact execBlankCheckEnd_memoryOk s h
  | clearStatus src last => exact execClearStatus_memoryOk src last s h
  | incompleteReerase => exact execIncompleteReerase_memoryOk s h
  | cardPresLoss => exact execCardPresLoss_memoryOk s h
  | removalSeal => exact execRemovalSeal_memoryOk s h
  | cardLinkUp => exact execCardLinkUp_memoryOk s h
  | cardLinkDown => exact execCardLinkDown_memoryOk s h
  | cardRequest frame => exact execCardRequest_memoryOk frame s h
  | cardBadFrame kind cmd tag symErrs => exact execCardBadFrame_memoryOk kind cmd tag symErrs s h
  | ident => exact execIdent_memoryOk s h
  | status => exact execStatus_memoryOk s h
  | readReg => exact execReadReg_memoryOk s h
  | writeReg => exact execWriteReg_memoryOk s h
  | readBlock ecc => exact execReadBlock_memoryOk ecc s h
  | writeBlock => exact execWriteBlock_memoryOk s h
  | gridRead => exact execGridRead_memoryOk s h
  | mailboxPut => exact execMailboxPut_memoryOk s h
  | mailboxGet => exact execMailboxGet_memoryOk s h
  | ejectRequest => exact execEjectRequest_memoryOk s h
  | ejectReady => exact execEjectReady_memoryOk s h
  | abort tag target => exact execAbort_memoryOk tag target s h
  | periodBoundary => exact execPeriodBoundary_memoryOk s h
  | backstop => exact execBackstop_memoryOk s h
  | checkpoint => exact execCheckpoint_memoryOk s h
  | appendBound src => exact execAppendBound_memoryOk src s h
  | fabricLinkUp port partner => exact execFabricLinkUp_memoryOk port partner s h
  | fabricLinkDown port => exact execFabricLinkDown_memoryOk port s h
  | helloTimeout port => exact execHelloTimeout_memoryOk port s h
  | linkAck port ack => exact execLinkAck_memoryOk port ack s h
  | linkNak port missing => exact execLinkNak_memoryOk port missing s h
  | helloSend => exact execHelloSend_memoryOk s h
  | hello port hello => exact execHello_memoryOk port hello s h
  | lsaRefresh => exact execLsaRefresh_memoryOk s h
  | lsa port hdr lsa => exact execLsa_memoryOk port hdr lsa s h
  | lsaExpiry => exact execLsaExpiry_memoryOk s h
  | election => exact execElection_memoryOk s h
  | addrAssign port hdr serial addr => exact execAddrAssign_memoryOk port hdr serial addr s h
  | role port hdr mgr stby devices epoch => exact execRole_memoryOk port hdr mgr stby devices epoch s h
  | tickSend => exact execTickSend_memoryOk s h
  | tick port hdr tick => exact execTick_memoryOk port hdr tick s h
  | tickMiss => exact execTickMiss_memoryOk s h
  | delayMeasure port => exact execDelayMeasure_memoryOk port s h
  | delayReq port hdr t1 => exact execDelayReq_memoryOk port hdr t1 s h
  | delayResp port hdr t1 t2 t3 => exact execDelayResp_memoryOk port hdr t1 t2 t3 s h
  | budget port hdr applyIndex budget classFloor => exact execBudget_memoryOk port hdr applyIndex budget classFloor s h
  | trigger port hdr originTick cause => exact execTrigger_memoryOk port hdr originTick cause s h
  | safe port hdr tickIndex cause => exact execSafe_memoryOk port hdr tickIndex cause s h
  | data port hdr seg => exact execData_memoryOk port hdr seg s h
  | reply port hdr reply => exact execReply_memoryOk port hdr reply s h
  | joinReq port hdr join => exact execJoinReq_memoryOk port hdr join s h
  | joinAck port hdr ack => exact execJoinAck_memoryOk port hdr ack s h
  | report port hdr report => exact execReport_memoryOk port hdr report s h
  | verdict port hdr cause action epoch => exact execVerdict_memoryOk port hdr cause action epoch s h
  | mgrClaimSend => exact execMgrClaimSend_memoryOk s h
  | mgrClaim port hdr claim => exact execMgrClaim_memoryOk port hdr claim s h
  | memberSelect src value => exact execMemberSelect_memoryOk src value s h
  | routeSelect src value => exact execRouteSelect_memoryOk src value s h
  | arbiterWindow requests => exact execArbiterWindow_memoryOk requests s h
  | pwrAlert => exact execPwrAlert_memoryOk s h
  | pwrAlertRelease => exact execPwrAlertRelease_memoryOk s h
  | budgetWrite src value => exact execBudgetWrite_memoryOk src value s h
  | fabBudgetWrite src value => exact execFabBudgetWrite_memoryOk src value s h
  | lossOfLock clock => exact execLossOfLock_memoryOk clock s h
  | detectorReport patterns => exact execDetectorReport_memoryOk patterns s h
  | faultClear src det => exact execFaultClear_memoryOk src det s h
  | faultClearAll src => exact execFaultClearAll_memoryOk src s h
  | recSelect src index => exact execRecSelect_memoryOk src index s h
  | heartbeatToggle => exact execHeartbeatToggle_memoryOk s h
  | extFltInput p n => exact execExtFltInput_memoryOk p n s h
  | extHbTimeout => exact execExtHbTimeout_memoryOk s h
  | sliceStart requests condOk => exact execSliceStart_memoryOk requests condOk s h
  | sliceSkip requests condFailed => exact execSliceSkip_memoryOk requests condFailed s h
  | sliceTestEnd result => exact execSliceTestEnd_memoryOk result s h
  | sliceLatestEnd => exact execSliceLatestEnd_memoryOk s h
  | sliceRestoreEnd => exact execSliceRestoreEnd_memoryOk s h
  | unmappedRead src place => exact execUnmappedRead_memoryOk src place s h
  | gridWindowWrite src place value => exact execGridWindowWrite_memoryOk src place value s h
  | msixUnmask what => exact execMsixUnmask_memoryOk what s h
  | ringEnable src chan => exact execRingEnable_memoryOk src chan s h
  | ringDisable src chan => exact execRingDisable_memoryOk src chan s h
  | ringHeadWrite src chan value => exact execRingHeadWrite_memoryOk src chan value s h
  | ringWriteback chan => exact execRingWriteback_memoryOk chan s h
  | pcieReset kind => exact execPcieReset_memoryOk kind s h
  | mbxPut src => exact execMbxPut_memoryOk src s h
  | mbxGet src => exact execMbxGet_memoryOk src s h
  | mailboxTake => exact execMailboxTake_memoryOk s h
  | stageProgram => exact execStageProgram_memoryOk s h
  | stageErase => exact execStageErase_memoryOk s h
  | incList => exact execIncList_memoryOk s h
  | incExport ecc => exact execIncExport_memoryOk ecc s h
  | incAck => exact execIncAck_memoryOk s h
  | ldgExport => exact execLdgExport_memoryOk s h
  | ldgAck => exact execLdgAck_memoryOk s h
  | floorRaise => exact execFloorRaise_memoryOk s h
  | extest => exact execExtest_memoryOk s h
  | idcode => exact execIdcode_memoryOk s h
  | samplePreload bits => exact execSamplePreload_memoryOk bits s h
  | clamp => exact execClamp_memoryOk s h
  | highz => exact execHighz_memoryOk s h
  | intScan => exact execIntScan_memoryOk s h
  | bypass => exact execBypass_memoryOk s h
  | pinResetRelease mgrSel fabAddr => exact execPinResetRelease_memoryOk mgrSel fabAddr s h
  | pcieLinkUp speed width => exact execPcieLinkUp_memoryOk speed width s h
  | configurationRequest req => exact execConfigurationRequest_memoryOk req s h
  | timeclkPresent present => exact execTimeclkPresent_memoryOk present s h
  | peerDelayMeasurement mac => exact execPeerDelayMeasurement_memoryOk mac s h
  | genericShortPacket rx packet => exact execGenericShortPacket_memoryOk rx packet s h
  | dupAddrRecovery => exact execDupAddrRecovery_memoryOk s h

theorem step_memoryOk {s t : State} (hs : MemoryOk s) (h : step s = .next t) : MemoryOk t := by
  unfold step at h
  split at h
  · exact done_memoryOk (wf_of_mem (counterUpdate_mem s) hs) t h
  next c cs _ => exact exec_memoryOk c { s with pending := cs } hs t h

end Sys2Proof.Machine

namespace Sys2Proof
open Machine

/-- Settles O5: every function that a command runs keeps the memories canonical, since it leaves them, writes them by
`Memory.write` and `Memory.clear`, or empties them. -/
theorem memoryStaysCanonical : Obligations.MemoryStaysCanonical :=
  fun _ _ => step_memoryOk

end Sys2Proof

/-! # O23: posted entries, host writes of TAIL, and the scoreboard peek -/
namespace Sys2Proof.Machine

section
variable {s : State} {src : Source} {q : Nat}

theorem que_setQue_same (h : q < 256) (s : State) (x : Queue) : (s.setQue q x).que q = x :=
  tget_tset_same _ _ _ h

theorem satAdd_zero {n : Nat} (c : BitVec n) : satAdd c 0 = c := by
  have := c.isLt
  simp [satAdd]
  omega

/-! ## Posting (R97, R99) -/

/-- The indices and counters of a queue after an entry has been posted. -/
def State.postedQue (s : State) (q : Nat) : Queue :=
  let x := s.que q
  let tail := (s.im.queue q).next x.tail
  let n := (s.im.queue q).count x.head tail
  { x with tail := tail, posted := satInc x.posted, hiwater := if x.hiwater.toNat < n then BitVec.ofNat 13 n else x.hiwater }

theorem streamArrived_frame (d : StreamDecl) (c : BitVec 64) (s : State) : ∃ a, streamArrived d c s = { s with aln := a } :=
  ⟨_, rfl⟩

/-- An entry posted writes its ring place and its queue; beside them the registrar notes it, and its vector is raised. -/
theorem postEntry_posted (room : s.fill q < (s.im.queue q).size) (b : List Byte) : ∃ aln hst out,
    postEntry q b s = ({ s.setQue q (s.postedQue q) with
      mem := Memory.write s.mem ((s.im.queue q).entryAddr (s.que q).tail) (fitBytes 32 b)
      aln := aln, hst := hst, out := out }, true) := by
  unfold postEntry
  extract_lets +onlyGivenNames r x tail n s₁ s₂ s₃
  rw [if_neg (Nat.not_le.mpr room)]
  have h₃ : s₃ = { s₂ with hst := s₃.hst, out := s₃.out } := by
    by_cases hv : r.vector = 0
    · simp [s₃, hv]
    · simp only [s₃, hv, if_false]
      exact msix_frame ..
  have h₂ : s₂ = { s.setQue q (s.postedQue q) with
      mem := Memory.write s.mem ((s.im.queue q).entryAddr (s.que q).tail) (fitBytes 32 b), aln := s₂.aln } := rfl
  clear_value s₂ s₃
  cases s₃.queueStream q with
  | none => exact ⟨s₂.aln, s₃.hst, s₃.out, by rw [h₃, h₂]⟩
  | some d =>
    obtain ⟨a, ha⟩ := streamArrived_frame d (readEntry b).capture s₃
    refine ⟨a, s₃.hst, s₃.out, Prod.ext ?_ rfl⟩
    show streamArrived d (readEntry b).capture s₃ = _
    rw [ha, h₃, h₂]

theorem postEntry_full (full : (s.im.queue q).size ≤ s.fill q) (b : List Byte) :
    postEntry q b s = (s.setQue q { s.que q with drop := satInc (s.que q).drop }, false) := by
  simp [postEntry, full]

/-- The bytes of a posted entry, and the rest of memory. -/
theorem postEntry_places (hm : Memory.wf s.mem = true) (hq : q < 256) (room : s.fill q < (s.im.queue q).size) (b : List Byte) :
    Memory.read (postEntry q b s).1.mem ((s.im.queue q).entryAddr (s.que q).tail) 32 = fitBytes 32 b ∧
    (∀ a, a < (s.im.queue q).entryAddr (s.que q).tail ∨ (s.im.queue q).entryAddr (s.que q).tail + 32 ≤ a →
      Memory.get (postEntry q b s).1.mem a = Memory.get s.mem a) ∧
    ((postEntry q b s).1.que q).tail = (s.im.queue q).next (s.que q).tail ∧ (postEntry q b s).2 = true := by
  obtain ⟨aln, hst, out, posted⟩ := postEntry_posted room b
  rw [posted]
  refine ⟨?_, fun a ha => Memory.get_write_other hm (by simpa using ha), ?_, rfl⟩
  · simpa using Memory.read_write (x := (s.im.queue q).entryAddr (s.que q).tail) (bs := fitBytes 32 b) hm
  · exact congrArg Queue.tail (que_setQue_same hq s _)

/-! ## Writes of SCH (R61) -/

theorem liveIn_sch {m : Mode} (h : m.fromArmed = true) : liveIn m 17 = true := by
  revert h
  cases m <;> decide

/-- A source that is heard reaches every register of SCH in the states from ARMED. -/
theorem judged_of_sch (hh : s.hears src = true) (hm : s.mode.fromArmed = true) {a : Nat} (ha : blockOf a = some 17)
    (f : State → State) : judged src a f s = f s := by
  simp [judged, hh, State.absent, ha, State.live, liveIn_sch hm, rowLegal, hm]

theorem blockOf_tail (hq : q < 256) : blockOf (0x2100C + 0x20 * q) = some 17 := by
  rw [blockOf, if_neg (by omega), if_neg (by omega), if_neg (by omega), if_pos (by omega)]

theorem exec_queueTailWrite (hh : s.hears src = true) (hm : s.mode.fromArmed = true) (hq : q < 256) (v : BitVec 13) :
    exec (.queueTailWrite src q v) s = done (tailWrite q v s) :=
  congrArg done (judged_of_sch hh hm (blockOf_tail hq) _)

theorem exec_scoreboardPeek (hh : s.hears src = true) (hm : s.mode.fromArmed = true) (w : BitVec 13) (e : Bool) :
    exec (.scoreboardPeek src w e) s = done (peekWrite w e s) :=
  congrArg done (judged_of_sch hh hm rfl _)

/-! ## TAIL (R99) -/

/-- TAIL one entry ahead of a queue of the host, with room for the entry, posts it and answers OK. -/
theorem tailWrite_one {v : BitVec 13} (host : (s.im.queue q).prod = 8)
    (one : tailSteps (s.im.queue q) (s.que q).tail v = some 1) (room : 1 ≤ s.room q) :
    tailWrite q v s = (acceptEntry q s).setQue q { (acceptEntry q s).que q with stat := 0 } := by
  simp [tailWrite, host, one, Nat.min_eq_left room, Nat.not_lt.mpr room, Nat.sub_eq_zero_of_le room, satAdd_zero,
    List.range_one, stOk]

theorem acceptEntry_posted (room : s.fill q < (s.im.queue q).size) : ∃ aln hst mem out,
    acceptEntry q s = { s.setQue q (s.postedQue q) with aln := aln, hst := hst, mem := mem, out := out } := by
  obtain ⟨aln, hst, out, posted⟩ := postEntry_posted room (Memory.read s.mem ((s.im.queue q).entryAddr (s.que q).tail) 32)
  exact ⟨aln, hst, _, out, congrArg Prod.fst posted⟩

theorem tailWrite_outside {v : BitVec 13} (host : (s.im.queue q).prod = 8)
    (outside : tailSteps (s.im.queue q) (s.que q).tail v = none) :
    tailWrite q v s = s.setQue q { s.que q with stat := 0x03 } := by
  simp [tailWrite, host, outside, stBadArg]

theorem tailWrite_foreign (v : BitVec 13) (foreign : (s.im.queue q).prod ≠ 8) : tailWrite q v s = s := by
  simp [tailWrite, foreign]

/-! ## The peek (R105) -/

theorem peekWrite_declared {w : BitVec 13} {d : SlotDecl} (hd : s.im.slot w.toNat = some d) (e : Bool) :
    peekWrite w e s = { s with
      sch.peekSlot := w, sch.peekEntry := e, sch.peekStat := 0x00, sch.peekDouble := d.double
      sch.peek := alookup {} s.sch.tokens (2 * w.toNat + b2n (d.double && e)) } := by
  unfold peekWrite
  extract_lets _ t
  rw [show t.im.slot w.toNat = some d from hd]

theorem peekWrite_undeclared {w : BitVec 13} (hd : s.im.slot w.toNat = none) (e : Bool) :
    peekWrite w e s = { s with sch.peekSlot := w, sch.peekEntry := e, sch.peekStat := 0x03 } := by
  unfold peekWrite
  extract_lets _ t
  rw [show t.im.slot w.toNat = none from hd]

end

/-! ## The rows -/

theorem queueTailWrite_one (src : Source) (q : Nat) (v : BitVec 13) (s : State) (hs : Settled s) (hh : s.hears src = true)
    (hm : s.mode.fromArmed = true) (hq : q < 256) (host : (s.im.queue q).prod = 8)
    (one : tailSteps (s.im.queue q) (s.que q).tail v = some 1) (room : 1 ≤ s.room q) :
    ∃ t, exec (.queueTailWrite src q v) s = .next t ∧
      t = { s with gctl := t.gctl, sch := t.sch, aln := t.aln, hst := t.hst, mem := t.mem, out := t.out } ∧
      (t.que q).tail = (s.im.queue q).next (s.que q).tail ∧ (t.que q).posted = satInc (s.que q).posted ∧ (t.que q).stat = 0 ∧
      (t.que q).head = (s.que q).head ∧ (t.que q).drop = (s.que q).drop := by
  have notFull : s.fill q < (s.im.queue q).size := by unfold State.room at room; omega
  obtain ⟨aln, hst, mem, out, taken⟩ := acceptEntry_posted notFull
  have posted : (acceptEntry q s).que q = s.postedQue q := by rw [taken]; exact que_setQue_same hq s _
  rw [exec_queueTailWrite hh hm hq, tailWrite_one host one room, posted, taken]
  refine ⟨_, done_of_settled hs, rfl, ?_⟩
  rw [que_setQue_same hq]
  exact ⟨rfl, rfl, rfl, rfl, rfl⟩

theorem queueTailWrite_outside (src : Source) (q : Nat) (v : BitVec 13) (s : State) (hs : Settled s) (hh : s.hears src = true)
    (hm : s.mode.fromArmed = true) (hq : q < 256) (host : (s.im.queue q).prod = 8)
    (outside : tailSteps (s.im.queue q) (s.que q).tail v = none) :
    exec (.queueTailWrite src q v) s = .next (s.setQue q { s.que q with stat := 0x03 }) := by
  rw [exec_queueTailWrite hh hm hq, tailWrite_outside host outside]
  exact done_of_settled hs

theorem queueTailWrite_foreign (src : Source) (q : Nat) (v : BitVec 13) (s : State) (hs : Settled s) (hh : s.hears src = true)
    (hm : s.mode.fromArmed = true) (hq : q < 256) (foreign : (s.im.queue q).prod ≠ 8) :
    exec (.queueTailWrite src q v) s = .next s := by
  rw [exec_queueTailWrite hh hm hq, tailWrite_foreign v foreign]
  exact done_of_settled hs

theorem scoreboardPeek_declared (src : Source) (w : BitVec 13) (e : Bool) (d : SlotDecl) (s : State) (hs : Settled s)
    (hh : s.hears src = true) (hm : s.mode.fromArmed = true) (hd : s.im.slot w.toNat = some d) :
    exec (.scoreboardPeek src w e) s = .next { s with
      sch.peekSlot := w, sch.peekEntry := e, sch.peekStat := 0x00, sch.peekDouble := d.double
      sch.peek := alookup {} s.sch.tokens (2 * w.toNat + b2n (d.double && e)) } := by
  rw [exec_scoreboardPeek hh hm, peekWrite_declared hd]
  exact done_of_settled hs

theorem scoreboardPeek_undeclared (src : Source) (w : BitVec 13) (e : Bool) (s : State) (hs : Settled s)
    (hh : s.hears src = true) (hm : s.mode.fromArmed = true) (hd : s.im.slot w.toNat = none) :
    exec (.scoreboardPeek src w e) s = .next { s with sch.peekSlot := w, sch.peekEntry := e, sch.peekStat := 0x03 } := by
  rw [exec_scoreboardPeek hh hm, peekWrite_undeclared hd]
  exact done_of_settled hs

end Sys2Proof.Machine

namespace Sys2Proof
open Machine

/-- Settles O23: a write of TAIL comes to `postEntry`, which names what it writes, and the peek reads the scoreboard. -/
theorem queuesAndScoreboard : Obligations.QueuesAndScoreboard :=
  ⟨queueTailWrite_one, queueTailWrite_outside, queueTailWrite_foreign, fun _ b _ hm hq room => postEntry_places hm hq room b,
    fun _ b _ full => postEntry_full full b, scoreboardPeek_declared, scoreboardPeek_undeclared⟩

end Sys2Proof

/-! # O21: the release, the start, the WCET and the end of a task -/
namespace Sys2Proof.Machine

section
variable {s : State} {n : Nat} {j : Job}

/-! ## Rising lists of entries -/

/-- An entry that is not the default stands under its key once it has been set, wherever the list has put it. -/
theorem alookup_aset_same {α : Type} [DecidableEq α] {d v : α} (hv : v ≠ d) (l : List (Nat × α)) (x : Nat) :
    alookup d (aset d l x v) x = v := by
  induction l with
  | nil => simp [aset, alookup, hv]
  | cons e l ih =>
    obtain ⟨k, w⟩ := e
    unfold aset
    split_ifs with before same
    · simp [alookup]
    · simp [alookup]
    · simp [alookup, same, ih]

theorem token_putToken_same (slot : Nat) {gen : Byte} {t : Token} (present : t.present = true) (hg : t.gen = gen) (s : State) :
    (putToken slot gen t s).token slot gen = some t := by
  have hv : t ≠ {} := by rintro rfl; cases present
  have entry : (putToken slot gen t s).entry slot gen = t := alookup_aset_same hv ..
  simp [State.token, entry, present, hg]

/-! ## Cores -/

theorem coreCount_le (s : State) : s.coreCount ≤ 48 := by
  have bound : 2 ^ (s.otp.variant.toNat - 1) ≤ 2 ^ 2 := Nat.pow_le_pow_right (by omega) (by omega)
  unfold State.coreCount
  split <;> omega

theorem lt_of_coreUsable (h : s.coreUsable n = true) : n < 48 := by
  simp only [State.coreUsable, State.coreThere, Bool.and_eq_true, decide_eq_true_eq] at h
  exact h.1.1.trans_le (coreCount_le s)

/-! ## Release (R106) -/

theorem releaseOn_core {d : TaskDesc} {c : Nat} (place : s.placeOf d = some (some c)) (free : s.coreTested c = false)
    (k : BitVec 64) (es : List QEntry) : releaseOn d k es s = { s with sch.ready := s.sch.ready ++ [jobOf d (some c) k es] } := by
  simp [releaseOn, place, free]

/-- A task of the table that is due is released once its offset has passed. -/
theorem releaseTask_due {d : TaskDesc} (table : d.queueIn = false) (once : ∀ j ∈ s.jobs, j.task ≠ d.id)
    (runs : s.computing = true) (unrun : s.taskDone d.id s.tck.index = false) (ins : s.inputsReady d s.tck.index = true)
    (outs : s.outsFree d s.tck.index = true) (ring : s.qoutFree d = true)
    (due : s.edgeBefore (s.tck.boundMono + d.releaseOfs * 1000) = false) :
    releaseTask d s = releaseOn d s.tck.index [] (advanceTo (s.tck.boundMono + d.releaseOfs * 1000) s) := by
  have new : s.jobs.any (fun j => j.task = d.id) = false := by simpa using once
  simp [releaseTask, new, table, runs, unrun, ins, outs, ring, due]

theorem taskRelease_due (id : Nat) (d : TaskDesc) (c : Nat) (s : State) (hs : Settled s) (hq : QuietClock s)
    (hd : s.im.task id = some d) (table : d.queueIn = false) (once : ∀ j ∈ s.jobs, j.task ≠ d.id) (runs : s.computing = true)
    (unrun : s.taskDone d.id s.tck.index = false) (ins : s.inputsReady d s.tck.index = true)
    (outs : s.outsFree d s.tck.index = true) (ring : s.qoutFree d = true)
    (due : s.edgeBefore (s.tck.boundMono + d.releaseOfs * 1000) = false)
    (place : s.placeOf d = some (some c)) (free : s.coreTested c = false) :
    ∃ t, exec (.taskRelease id) s = .next t ∧
      t = { s with tim := t.tim, sch := t.sch, cams := t.cams, flt := t.flt, hst := t.hst, out := t.out } ∧
      t.sch.ready = s.sch.ready ++ [jobOf d (some c) s.tck.index []] ∧ s.tck.boundMono + d.releaseOfs * 1000 ≤ t.tim.mono ∧
      t.sch.cores = s.sch.cores := by
  obtain ⟨r, hr, passed, reached⟩ := advanceTo_reaches (s.tck.boundMono + d.releaseOfs * 1000) hq
  have released : exec (.taskRelease id) s = done (releaseOn d s.tck.index [] r) := by
    rw [← hr, ← releaseTask_due table once runs unrun ins outs ring due]
    show done (match s.im.task id with | some t => releaseTask t s | none => s) = _
    rw [hd]
  obtain ⟨tim, rfl⟩ : ∃ tim, r = { s with tim := tim } := ⟨_, passed⟩
  rw [releaseOn_core (s := { s with tim := tim }) place free] at released
  exact ⟨_, released.trans (done_of_settled hs), rfl, rfl, reached, rfl⟩

/-! ## Start (R107, R108) -/

theorem readInputs_frame (ins : List InRef) (k : BitVec 64) (s : State) :
    ∃ toks, (readInputs ins k s).1 = { s with sch.tokens := toks } := by
  refine List.foldlRecOn (motive := fun acc : State × Folded => ∃ toks, acc.1 = { s with sch.tokens := toks })
    ins _ ⟨s.sch.tokens, rfl⟩ ?_
  rintro ⟨t, f⟩ ⟨toks, ht⟩ i -
  obtain rfl : t = { s with sch.tokens := toks } := ht
  dsimp only
  split
  · exact ⟨_, rfl⟩
  · exact ⟨_, rfl⟩

/-- What is left, for a task that starts with a grant, of a relock of the core PLL (R338). -/
def State.relockLeft (s : State) (n : Nat) : Nat := if s.pwr.grants.getLsbD n then s.pwr.relockUntil - s.mono else 0

/-- The job of a task that is no solve as its core has it once started, with what its inputs gave. -/
def State.startedJob (s : State) (n : Nat) (f : Folded) (j : Job) : Job :=
  { j with startMono := s.mono + s.relockLeft n, oldest := f.oldest, mask := f.mask, vote := f.vote, solve := none }

/-- A core with a job that has just started on it. -/
def State.coreWith (s : State) (n : Nat) (j : Job) (p : Nat) : Core :=
  { s.core n with job := some j, slotPos := p, stalled := !s.pwr.grants.getLsbD n
                  stallCyc := satAdd (s.core n).stallCyc (s.cyclesOf (s.relockLeft n)) }

/-- A task that is no solve leaves the released tasks, reads its inputs, and has its core. -/
theorem startJob_plain (plain : (s.taskOf j).kind ≠ 2) (n p : Nat) : ∃ toks f,
    startJob n j p s =
      { s with sch.ready := s.sch.ready.erase j, sch.tokens := toks }.setCore n (s.coreWith n (s.startedJob n f j) p) := by
  unfold startJob
  extract_lets +onlyGivenNames t _ u
  have read : ∃ toks f, (if t.queueIn then (u, ({} : Folded)) else readInputs t.ins j.tick u) =
      ({ u with sch.tokens := toks }, f) := by
    split
    · exact ⟨_, _, rfl⟩
    · obtain ⟨toks, h⟩ := readInputs_frame t.ins j.tick u
      exact ⟨toks, _, Prod.ext h rfl⟩
  obtain ⟨toks, f, read⟩ := read
  have plain : t.kind ≠ 2 := plain
  rw [read]
  simp only [plain, if_false]
  exact ⟨toks, f, rfl⟩

theorem taskStart_chosen (n : Nat) (j : Job) (p : Nat) (s : State) (hs : Settled s) (usable : s.coreUsable n = true)
    (free : s.coreTested n = false) (idle : (s.core n).job = none) (ticks : s.mode.ticks = true)
    (chosen : chooseJob n s = some (j, p)) (plain : (s.taskOf j).kind ≠ 2) :
    ∃ t k, exec (.taskStart n) s = .next t ∧
      t = { s with sch := t.sch, flt := t.flt, mem := t.mem } ∧ (t.core n).job = some k ∧
      k.task = j.task ∧ k.tick = j.tick ∧
      k.startMono = s.tim.mono + (if s.pwr.grants.getLsbD n then s.pwr.relockUntil - s.tim.mono else 0) ∧
      (t.core n).slotPos = p ∧ (t.core n).stalled = !s.pwr.grants.getLsbD n ∧
      t.sch.ready = s.sch.ready.erase j ∧ t.mem = s.mem := by
  have started : exec (.taskStart n) s = done (startJob n j p s) := by
    show execTaskStart n s = _
    simp [execTaskStart, usable, free, idle, ticks, chosen]
  obtain ⟨toks, f, start⟩ := startJob_plain plain n p
  rw [start] at started
  refine ⟨_, s.startedJob n f j, started.trans (done_of_settled hs), rfl, ?_⟩
  rw [core_setCore_same (lt_of_coreUsable usable)]
  exact ⟨rfl, rfl, rfl, rfl, rfl, rfl, rfl, rfl⟩

/-! ## WCET (R115) -/

theorem judgeWcet_within {c : Nat} (hj : (s.core n).job = some j) (within : c ≤ (s.taskOf j).wcet) : judgeWcet n c s = s := by
  simp [judgeWcet, hj, within]

/-- A core whose job has exceeded its WCET for the first time. -/
def State.coreExceeded (s : State) (n : Nat) (j : Job) : Core :=
  { s.core n with job := some { j with wcetSeen := true }, wcetExceed := satInc (s.core n).wcetExceed }

theorem judgeWcet_exceeded {c : Nat} (hj : (s.core n).job = some j) (exceeds : (s.taskOf j).wcet < c) (new : j.wcetSeen = false) :
    judgeWcet n c s = raiseDet 53 (BitVec.ofNat 32 n) (schVec
      { s.setCore n (s.coreExceeded n j) with sch.wcetCnt := satInc s.sch.wcetCnt }) := by
  simp [judgeWcet, hj, exceeds, new]
  rfl

theorem wcetExceed_first (n c : Nat) (j : Job) (s : State) (hs : Settled s) (hn : n < 48) (hj : (s.core n).job = some j)
    (runs : (s.core n).stalled = false) (exceeds : (s.taskOf j).wcet < c) (new : j.wcetSeen = false) :
    ∃ u, exec (.wcetExceed n c) s = .next (settle u) ∧
      u = { s with sch := u.sch, flt := u.flt, hst := u.hst, out := u.out } ∧ u.flt.due = [(53, BitVec.ofNat 32 n)] ∧
      (u.core n).wcetExceed = satInc (s.core n).wcetExceed ∧ u.sch.wcetCnt = satInc s.sch.wcetCnt ∧
      (u.core n).job = some { j with wcetSeen := true } := by
  have judged : exec (.wcetExceed n c) s = done (judgeWcet n c s) := by
    show execWcetExceed n c s = _
    simp [execWcetExceed, runs]
  rw [judgeWcet_exceeded hj exceeds new, schVec, msix_frame] at judged
  refine ⟨_, judged, rfl, congrArg (List.cons _) hs.1, ?_⟩
  have core := core_setCore_same hn s (s.coreExceeded n j)
  exact ⟨congrArg Core.wcetExceed core, rfl, congrArg Core.job core⟩

/-! ## The end of a task (R110) -/

theorem placeOps_nil (t : TaskDesc) (k : BitVec 64) (o : Nat) (s : State) : placeOps t k [] o s = (s, []) := by
  simp [placeOps]

/-- No kernel work leaves the state as it is. -/
theorem runWork_nil (n : Nat) (t : TaskDesc) (k : BitVec 64) (s : State) : runWork n t k [] s = s := by
  simp [runWork, placeOps_nil, countHits]

theorem writeOutputs_one {t : TaskDesc} {o : Nat} (outs : t.outs = [o]) (gen : Byte) (oldest : Oldest) (mask vote : Word)
    (s : State) : ∃ e,
    writeOutputs t gen oldest mask vote s = { putToken o gen (newToken s o gen oldest mask vote) s with ego := e } := by
  simp only [writeOutputs, outs, List.foldl_cons, List.foldl_nil]
  split
  · exact ⟨_, rfl⟩
  · exact ⟨_, rfl⟩

/-- A core that a task has left after `c` cycles. -/
def State.coreAfter (s : State) (n c : Nat) : Core :=
  { s.core n with job := none, tasksRun := satInc (s.core n).tasksRun, busyCyc := satAdd (s.core n).busyCyc c }

/-- The end of an ordinary task with one output, within its WCET. -/
theorem endTask_plain {c o : Nat} (hj : (s.core n).job = some j) (noSolve : j.solve = none) (outs : (s.taskOf j).outs = [o])
    (noIngest : (s.taskOf j).kind ≠ 3) (noGrid : (s.taskOf j).kind ≠ 5) (table : (s.taskOf j).queueIn = false)
    (within : c ≤ (s.taskOf j).wcet) : ∃ e ended,
    endTask n j c [] s = markDone (s.taskOf j).id j.tick
      { putToken o j.gen (newToken s o j.gen j.oldest j.mask j.vote) (s.setCore n (s.coreAfter n c)) with
        ego := e, sch.ended := ended } := by
  obtain ⟨e, he⟩ := writeOutputs_one outs j.gen j.oldest j.mask j.vote (s.setCore n (s.coreAfter n c))
  refine ⟨e, (s.taskOf j).id :: s.sch.ended, ?_⟩
  unfold endTask
  simp only [judgeWcet_within hj within, runWork_nil, endOutputs, noIngest, noGrid, noSolve, table, if_false, Bool.false_eq_true]
  exact congrArg (fun u => markDone (s.taskOf j).id j.tick { u with sch.ended := (s.taskOf j).id :: u.sch.ended }) he

/-- No edge comes before an instant that is no later than one which none comes before. -/
theorem edgeBefore_mono {m m' : Nat} (h : m ≤ m') (none : s.edgeBefore m' = false) : s.edgeBefore m = false := by
  simp only [State.edgeBefore, Bool.and_eq_false_iff, Bool.or_eq_false_iff, decide_eq_false_iff_not] at none ⊢
  refine none.imp_right fun ⟨⟨gather, emit⟩, quiet⟩ => ⟨⟨?_, ?_⟩, ?_⟩
  · exact gather.imp_right fun g => by omega
  · exact emit.imp_right fun e => by omega
  · exact quiet.imp_right fun q => by omega

theorem taskDone_markDone_same (id : Nat) (k : BitVec 64) (s : State) : (markDone id k s).taskDone id k = true := by
  simp [State.taskDone, markDone]

theorem taskEnd_plain (n c : Nat) (j : Job) (o : Nat) (s : State) (hs : Settled s) (hq : QuietClock s) (hn : n < 48)
    (hj : (s.core n).job = some j) (noSolve : j.solve = none) (runs : (s.core n).stalled = false)
    (due : s.edgeBefore (max j.startMono s.pwr.relockUntil + ceilDiv (c * 1000) (max 1 s.clk.coreMhz)) = false)
    (outs : (s.taskOf j).outs = [o]) (noIngest : (s.taskOf j).kind ≠ 3) (noGrid : (s.taskOf j).kind ≠ 5)
    (table : (s.taskOf j).queueIn = false) (within : c ≤ (s.taskOf j).wcet) :
    ∃ t, exec (.taskEnd n c []) s = .next t ∧
      t = { s with tim := t.tim, sch := t.sch, cvt := t.cvt, cams := t.cams, aln := t.aln, ego := t.ego, grd := t.grd, flt := t.flt,
                   hst := t.hst, out := t.out, freeCtr := t.freeCtr } ∧
      (t.core n).job = none ∧ (t.core n).tasksRun = satInc (s.core n).tasksRun ∧
      (t.core n).busyCyc = satAdd (s.core n).busyCyc c ∧ t.taskDone (s.taskOf j).id j.tick = true ∧
      t.token o j.gen = some (newToken s o j.gen j.oldest j.mask j.vote) := by
  let m := j.startMono + ceilDiv (c * 1000) (max 1 s.clk.coreMhz)
  have due : s.edgeBefore m = false := edgeBefore_mono (by omega) due
  obtain ⟨r, hr, passed, -⟩ := advanceTo_reaches m hq
  have ends : exec (.taskEnd n c []) s = done (endTask n j c [] r) := by
    show execTaskEnd n c [] s = _
    rw [← hr]
    simp [execTaskEnd, hj, noSolve, runs, m, due]
  obtain ⟨tim, rfl⟩ : ∃ tim, r = { s with tim := tim } := ⟨_, passed⟩
  obtain ⟨e, ended, after⟩ := endTask_plain (s := { s with tim := tim }) hj noSolve outs noIngest noGrid table within
  rw [after] at ends
  refine ⟨_, ends.trans (done_of_settled hs), rfl, ?_⟩
  have core : (s.setCore n (s.coreAfter n c)).core n = s.coreAfter n c := core_setCore_same hn ..
  have token := token_putToken_same o (t := newToken s o j.gen j.oldest j.mask j.vote) rfl rfl (s.setCore n (s.coreAfter n c))
  exact ⟨congrArg Core.job core, congrArg Core.tasksRun core, congrArg Core.busyCyc core, taskDone_markDone_same _ _ _, token⟩

end
end Sys2Proof.Machine

namespace Sys2Proof
open Machine

/-- Settles O21: each row comes to the function that releases, starts, judges or ends the task, which names what it writes. -/
theorem tasksAndTokens : Obligations.TasksAndTokens :=
  ⟨taskRelease_due, taskStart_chosen, taskEnd_plain, wcetExceed_first⟩

end Sys2Proof

/-! # O24: the test port of the conversion unit -/
namespace Sys2Proof.Machine

section
variable {s : State} {src : Source}

/-! ## Writes of the blocks that are never absent (R61) -/

theorem liveIn_of_fromArmed {m : Mode} (h : m.fromArmed = true) {row : Nat} (hr : row ≤ 25) : liveIn m row = true := by
  revert h
  cases m <;> simp [Mode.fromArmed, Mode.ticks, liveIn, hr]

/-- Only rows 24 and 25 of the block table can be absent (R11). -/
theorem absent_of_blockOf_lt {a row : Nat} (ha : blockOf a = some row) (present : row < 24) : s.absent a = false := by
  have host : row ≠ 24 := by omega
  have cores : row ≠ 25 := by omega
  simp [State.absent, ha, host, cores]

/-- In the states from ARMED a source that is heard reaches every register of a block that is never absent. -/
theorem judged_of_fromArmed (hh : s.hears src = true) (hm : s.mode.fromArmed = true) {a row : Nat} (ha : blockOf a = some row)
    (present : row < 24) (f : State → State) : judged src a f s = f s := by
  have live : s.live row = true := by
    simp [State.live, liveIn_of_fromArmed hm (show row ≤ 25 by omega), present.ne]
  simp [judged, hh, ha, absent_of_blockOf_lt ha present, live, rowLegal, hm]

theorem exec_cvtTestConvert (hh : s.hears src = true) (hm : s.mode.fromArmed = true) (v : Word) :
    exec (.cvtTestConvert src v) s = done (testConvert v s) :=
  congrArg done (judged_of_fromArmed hh hm (row := 12) rfl (by decide) _)

/-! ## The conversion (R130) -/

theorem testConvert_good (good : (cvtCfg s.cvt.testCfg.toNat).bad = false) (v : Word) :
    testConvert v s = { s with
      cvt.testOut := (convert (cvtCfg s.cvt.testCfg.toNat) v).1, cvt.testFlags := (convert (cvtCfg s.cvt.testCfg.toNat) v).2
      cvt.testStat := 0x00 } := by
  simp [testConvert, good]

theorem testConvert_bad (bad : (cvtCfg s.cvt.testCfg.toNat).bad = true) (v : Word) :
    testConvert v s = { s with cvt.testStat := 0x03 } := by
  simp [testConvert, bad]

end

/-! ## The rows -/

theorem cvtTestConvert_good (src : Source) (v : Word) (s : State) (hs : Settled s) (hh : s.hears src = true)
    (hm : s.mode.fromArmed = true) (good : (cvtCfg s.cvt.testCfg.toNat).bad = false) :
    exec (.cvtTestConvert src v) s = .next { s with
      cvt.testOut := (convert (cvtCfg s.cvt.testCfg.toNat) v).1, cvt.testFlags := (convert (cvtCfg s.cvt.testCfg.toNat) v).2
      cvt.testStat := 0x00 } := by
  rw [exec_cvtTestConvert hh hm, testConvert_good good]
  exact done_of_settled hs

theorem cvtTestConvert_bad (src : Source) (v : Word) (s : State) (hs : Settled s) (hh : s.hears src = true)
    (hm : s.mode.fromArmed = true) (bad : (cvtCfg s.cvt.testCfg.toNat).bad = true) :
    exec (.cvtTestConvert src v) s = .next { s with cvt.testStat := 0x03 } := by
  rw [exec_cvtTestConvert hh hm, testConvert_bad bad]
  exact done_of_settled hs

end Sys2Proof.Machine

namespace Sys2Proof
open Machine

/-- Settles O24: the write reaches the port, which converts or refuses by its configuration, and leaves the warden nothing to do. -/
theorem conversionTestPort : Obligations.ConversionTestPort :=
  ⟨cvtTestConvert_good, cvtTestConvert_bad⟩

end Sys2Proof

/-! # O22: the steps of a solve and its deadline -/
namespace Sys2Proof.Machine

section
variable {s : State} {n : Nat} {j : Job} {r : SolveRun}

/-! ## Cores -/

theorem tset_tget {α : Type} [Inhabited α] {m : Nat} (v : Vector α m) (i : Nat) : tset v i (tget v i) = v := by
  ext k hk
  by_cases e : i = k
  · subst e
    simp [tset, tget, Vector.getD, hk]
  · simp [tset, e]

theorem setCore_core (s : State) (n : Nat) : s.setCore n (s.core n) = s := by
  simp [State.setCore, State.core, tset_tget]

theorem setCore_setCore (s : State) (n : Nat) (c d : Core) : (s.setCore n c).setCore n d = s.setCore n d := by
  simp [State.setCore, tset]

theorem core_putSolve (hn : n < 48) (j : Job) (r : SolveRun) (s : State) :
    (putSolve n j r s).core n = { s.core n with job := some { j with solve := some r } } :=
  core_setCore_same hn ..

/-! ## Saturation counters (R123) -/

theorem satNow_job (c : Core) (mono i k : Nat) : (c.satNow mono i k).job = c.job := by
  unfold Core.satNow
  split_ifs <;> rfl

theorem satNow_class {i : Nat} (hi : i < 16) (c : Core) (mono k : Nat) :
    tget (c.satNow mono i k).satCls i = satAdd (tget c.satCls i) k := by
  simp only [Core.satNow, if_neg (show i ≠ 16 by omega), if_neg (show i ≠ 17 by omega)]
  exact tget_tset_same _ _ _ hi

/-- Counted hits change the core that they are counted on, and leave it its job. -/
theorem countHits_frame (hn : n < 48) (t : TaskDesc) (hits : List Dest) (s : State) :
    ∃ c, countHits n t hits s = s.setCore n c ∧ c.job = (s.core n).job := by
  refine List.foldlRecOn (motive := fun u => ∃ c, u = s.setCore n c ∧ c.job = (s.core n).job) hits.eraseDups _
    ⟨s.core n, (setCore_core s n).symm, rfl⟩ ?_
  rintro _ ⟨c, rfl, hc⟩ d -
  refine ⟨_, setCore_setCore .., ?_⟩
  rw [satNow_job, core_setCore_same hn, hc]

theorem countHits_one (hn : n < 48) (t : TaskDesc) (d : Dest) (s : State) (hd : (s.outFmt t d.out).cls < 16) :
    tget ((countHits n t [d] s).core n).satCls (s.outFmt t d.out).cls = satAdd (tget (s.core n).satCls (s.outFmt t d.out).cls) 1 := by
  have one : countHits n t [d] s = countSat n (s.outFmt t d.out).cls 1 s := rfl
  rw [one, countSat, core_setCore_same hn]
  exact satNow_class hd ..

/-! ## A step (R134 to R136) -/

/-- A step that ends before the deadline and leaves its solve in progress puts it back with what it computed. -/
theorem exec_solveStepEnd_goesOn {x : SolveStep} (runs : s.solving n = some (j, r)) (before : s.tim.mono < r.deadline)
    (goesOn : (stepSolve (s.taskOf j) j.tick x r s).1.result = .none) :
    exec (.solveStepEnd n x) s = done (countHits n (s.taskOf j) (stepSolve (s.taskOf j) j.tick x r s).2
      (putSolve n j (stepSolve (s.taskOf j) j.tick x r s).1 s.drawn)) := by
  have inTime : ¬ r.deadline ≤ s.mono := Nat.not_le.mpr before
  show execSolveStepEnd n x s = _
  simp [execSolveStepEnd, runs, inTime, goesOn]

theorem solveStepEnd_goesOn (n : Nat) (x : SolveStep) (j : Job) (r : SolveRun) (s : State) (hs : Settled s) (hn : n < 48)
    (runs : s.solving n = some (j, r)) (before : s.tim.mono < r.deadline)
    (goesOn : (stepSolve (s.taskOf j) j.tick x r s).1.result = .none) :
    ∃ t, exec (.solveStepEnd n x) s = .next t ∧
      t = { s with sch := t.sch, flt := t.flt, freeCtr := t.freeCtr } ∧
      (t.core n).job = some { j with solve := some (stepSolve (s.taskOf j) j.tick x r s).1 } ∧
      (∀ d, (stepSolve (s.taskOf j) j.tick x r s).2 = [d] → (s.outFmt (s.taskOf j) d.out).cls < 16 →
        tget (t.core n).satCls (s.outFmt (s.taskOf j) d.out).cls =
          satAdd (tget (s.core n).satCls (s.outFmt (s.taskOf j) d.out).cls) 1) := by
  have ends := exec_solveStepEnd_goesOn runs before goesOn
  generalize stepSolve (s.taskOf j) j.tick x r s = o at ends ⊢
  have put := core_putSolve hn j o.1 s.drawn
  obtain ⟨c, counted, job⟩ := countHits_frame hn (s.taskOf j) o.2 (putSolve n j o.1 s.drawn)
  refine ⟨_, ends.trans (done_of_settled (by rw [counted]; exact hs)), by rw [counted]; rfl, ?_, ?_⟩
  · rw [counted, core_setCore_same hn, job, put]
  · intro d hit cls
    have one := countHits_one hn (s.taskOf j) d (putSolve n j o.1 s.drawn) cls
    rw [put] at one
    rw [hit]
    exact one

/-! ## The deadline (R137) -/

theorem takeStored_current (log : List Stored) (r : SolveRun) : (takeStored log r).1.current = r.current := by
  simp only [takeStored, countPivots]
  split <;> rfl

/-- A deadline that finds a solve with iterations past its step 0, and outside a factorisation, ends it PARTIAL and HARD with the
iterate it had. -/
theorem deadlineResult_elsewhere {c : SolveCut} (iterates : r.entry.single = false) (pastZero : r.entry.direct = true → r.step0 = true)
    (elsewhere : c.stood = .elsewhere) (t : TaskDesc) (k : BitVec 64) (s : State) :
    (deadlineResult t k r c s).1.result = .partialResult ∧ (deadlineResult t k r c s).1.hard = true ∧
      (deadlineResult t k r c s).1.current = r.current := by
  cases hd : r.entry.direct
  · simp [deadlineResult, iterates, hd, elsewhere, takeStored_current]
  · simp [deadlineResult, iterates, pastZero hd, elsewhere, takeStored_current]

/-- The deadline of a solve in progress comes, stops it, and is reported (R138). -/
theorem exec_solveDeadline_stops {c : SolveCut} (hj : (s.core n).job = some j) (hr : j.solve = some r) (runs : r.result = .none)
    (due : s.edgeBefore r.deadline = false) (hard : (deadlineResult (s.taskOf j) j.tick r c s).1.hard = true) :
    exec (.solveDeadline n c) s = done (raiseDet 56 (BitVec.ofNat 32 n) (putSolve n j (deadlineResult (s.taskOf j) j.tick r c s).1
      (countHits n (s.taskOf j) (deadlineResult (s.taskOf j) j.tick r c s).2 (advanceTo r.deadline s.drawn)))) := by
  show execSolveDeadline n c s = _
  simp [execSolveDeadline, reportStop, hj, hr, runs, due, hard]

theorem solveDeadline_partial (n : Nat) (c : SolveCut) (j : Job) (r : SolveRun) (s : State) (hs : Settled s) (hq : QuietClock s)
    (hn : n < 48) (hj : (s.core n).job = some j) (hr : j.solve = some r) (runs : r.result = .none)
    (due : s.edgeBefore r.deadline = false) (iterates : r.entry.single = false)
    (pastZero : r.entry.direct = true → r.step0 = true) (elsewhere : c.stood = .elsewhere) :
    ∃ u, exec (.solveDeadline n c) s = .next (settle u) ∧
      u = { s with tim := u.tim, sch := u.sch, flt := u.flt, freeCtr := u.freeCtr } ∧ u.flt.due = [(56, BitVec.ofNat 32 n)] ∧
      (u.core n).job = some { j with solve := some (deadlineResult (s.taskOf j) j.tick r c s).1 } ∧
      (deadlineResult (s.taskOf j) j.tick r c s).1.result = .partialResult ∧
      (deadlineResult (s.taskOf j) j.tick r c s).1.hard = true ∧
      (deadlineResult (s.taskOf j) j.tick r c s).1.current = r.current ∧ r.deadline ≤ u.tim.mono := by
  obtain ⟨stat, hard, current⟩ := deadlineResult_elsewhere iterates pastZero elsewhere (s.taskOf j) j.tick s
  have ends := exec_solveDeadline_stops hj hr runs due hard
  generalize deadlineResult (s.taskOf j) j.tick r c s = o at stat hard current ends ⊢
  obtain ⟨v, hv, passed, reached⟩ := advanceTo_reaches (s := s.drawn) r.deadline hq
  obtain ⟨tim, rfl⟩ : ∃ tim, v = { s.drawn with tim := tim } := ⟨_, passed⟩
  obtain ⟨d, counted, -⟩ := countHits_frame hn (s.taskOf j) o.2 { s.drawn with tim := tim }
  rw [hv, counted] at ends
  exact ⟨_, ends, rfl, congrArg (List.cons _) hs.1, congrArg Core.job (core_putSolve hn j o.1 _), stat, hard, current, reached⟩

end
end Sys2Proof.Machine

namespace Sys2Proof
open Machine

/-- Settles O22: the step puts its solve back and counts its hits, which change the core alone, and the deadline finds the solve
where its last iterate is kept. -/
theorem solveStepsAndDeadline : Obligations.SolveStepsAndDeadline :=
  ⟨solveStepEnd_goesOn, solveDeadline_partial⟩

end Sys2Proof

/-! # The ports: their blocks, and the entries that they post -/
namespace Sys2Proof.Machine

/-! ## The blocks of the ports -/

theorem tset_tset {α : Type} {n : Nat} (v : Vector α n) (i : Nat) (a b : α) : tset (tset v i a) i b = tset v i b := by
  simp [tset]

@[simp] theorem cam_setCam_same {r : Nat} (h : r < 8) (s : State) (c : Cam) : (s.setCam r c).cam r = c := tget_tset_same _ _ _ h
@[simp] theorem eth_setEth_same {p : Nat} (h : p < 4) (s : State) (e : Eth) : (s.setEth p e).eth p = e := tget_tset_same _ _ _ h
@[simp] theorem can_setCan_same {c : Nat} (h : c < 2) (s : State) (x : Can) : (s.setCan c x).can c = x := tget_tset_same _ _ _ h
@[simp] theorem spi_setSpi_same {u : Nat} (h : u < 2) (s : State) (x : Spi) : (s.setSpi u x).spi u = x := tget_tset_same _ _ _ h

@[simp] theorem setCam_setCam (s : State) (r : Nat) (c d : Cam) : (s.setCam r c).setCam r d = s.setCam r d := by
  simp [State.setCam, tset_tset]

@[simp] theorem setEth_setEth (s : State) (p : Nat) (e f : Eth) : (s.setEth p e).setEth p f = s.setEth p f := by
  simp [State.setEth, tset_tset]

@[simp] theorem setCan_setCan (s : State) (c : Nat) (x y : Can) : (s.setCan c x).setCan c y = s.setCan c y := by
  simp [State.setCan, tset_tset]

@[simp] theorem setSpi_setSpi (s : State) (u : Nat) (x y : Spi) : (s.setSpi u x).setSpi u y = s.setSpi u y := by
  simp [State.setSpi, tset_tset]

theorem ticks_of_posts {m : Mode} (h : m.posts = true) : m.ticks = true := by
  revert h
  cases m <;> decide

/-! ## Entries of the ports (R97, R104, R143) -/

section
variable {s : State} {q : Nat}

/-- In a data area where nothing waits the free place itself is clear. -/
theorem placeData_empty {len n : Nat} (fits : n ≤ len) (base free : Nat) :
    placeData base len n free [] = some (base + free % (len - n + 1)) := by
  have inside : free % (len - n + 1) < len - n + 1 := Nat.mod_lt _ (by omega)
  have clear : base + free % (len - n + 1) + n ≤ base + len := by omega
  simp [placeData, clear]

/-- An empty queue has room for data that its area can hold. -/
theorem storeData_empty {bytes : List Byte} (empty : s.fill q = 0) (fits : bytes.length ≤ (s.im.queue q).dataLen) : ∃ n mem a,
    storeData q bytes s = some ({ s with freeCtr := n, mem := mem }, a) := by
  have none : s.queued q = [] := by simp [State.queued, empty]
  unfold storeData
  dsimp only
  split
  · exact ⟨_, _, _, rfl⟩
  · rw [none, List.map_nil, placeData_empty fits]
    exact ⟨_, _, _, rfl⟩

theorem out_postEntry (q : Nat) (b : List Byte) (s : State) : s.out <:+ (postEntry q b s).1.out := by
  unfold postEntry
  extract_lets +onlyGivenNames r x tail n s₁ s₂ s₃
  have h₃ : s.out <:+ s₃.out := by
    unfold s₃
    split
    · exact List.suffix_rfl
    · exact msix_out_suffix r.vector true s₂
  clear_value s₃
  split
  · exact List.suffix_rfl
  · dsimp only
    split
    · exact h₃
    · exact h₃

/-- A port's entry reaches the empty queue of its stream: beside the queue and the memory the registrar notes it, its vector is
raised, and a free value may be drawn for the place of its data. -/
theorem portPost_posted {stream : Nat} {data : List Byte} (bound : s.im.streamQueue stream = some q) (empty : s.fill q = 0)
    (size : 0 < (s.im.queue q).size) (fits : data.length ≤ (s.im.queue q).dataLen) (off : Int) (e : QEntry) : ∃ n aln hst mem out,
    portPost stream off e data s =
      ({ s.setQue q (s.postedQue q) with freeCtr := n, aln := aln, hst := hst, mem := mem, out := out }, true) ∧ s.out <:+ out := by
  obtain ⟨n, mem, a, stored⟩ := storeData_empty empty fits
  have room : s.room q ≠ 0 := by unfold State.room; omega
  let e' := { e with stream := stream, addr := a, len := data.length }
  have posts : postData q { e with stream := stream } data s = postEntry q e'.bytes { s with freeCtr := n, mem := mem } := by
    rw [postData, if_neg room, stored]
  have kept := out_postEntry q e'.bytes { s with freeCtr := n, mem := mem }
  obtain ⟨aln, hst, out, posted⟩ := postEntry_posted (s := { s with freeCtr := n, mem := mem }) (empty.trans_lt size) e'.bytes
  rw [posted] at posts kept
  exact ⟨_, _, _, _, _, by rw [portPost, bound]; simp only [posts, if_true]; rfl, kept⟩

end



end Sys2Proof.Machine

/-! # O25: the camera receivers -/
namespace Sys2Proof.Machine

section
variable {s : State} {r : Nat}

/-! ## Packets (R144, R151) -/

/-- A receiver has seen HS. -/
def State.hsSeen (s : State) (r : Nat) : State := s.setCam r { s.cam r with hs := true }

theorem cam_hsSeen (hr : r < 8) (s : State) : (s.hsSeen r).cam r = { s.cam r with hs := true } := cam_setCam_same hr ..

theorem setCam_hsSeen (s : State) (r : Nat) (c : Cam) : (s.hsSeen r).setCam r c = s.setCam r c := setCam_setCam ..

section
variable (posts : s.mode.posts = true) (bound : s.camBound r = true)
include posts bound

theorem camPacket_clean (bad k : State → State) : camPacket r .clean bad k s = k (s.hsSeen r) := by
  have p : s.gctl.mode.posts = true := posts
  simp [camPacket, State.mode, p, ticks_of_posts, bound, State.hsSeen]

theorem camPacket_corrected (hr : r < 8) (bad k : State → State) :
    camPacket r .corrected bad k s = k (s.setCam r { s.cam r with hs := true, cnt := tinc (s.cam r).cnt 2 }) := by
  have p : s.gctl.mode.posts = true := posts
  simp [camPacket, State.mode, p, ticks_of_posts, bound, camCount, hr]

theorem camPacket_uncorrectable (hr : r < 8) (bad k : State → State) :
    camPacket r .uncorrectable bad k s = bad (s.setCam r { s.cam r with hs := true, cnt := tinc (s.cam r).cnt 3 }) := by
  have p : s.gctl.mode.posts = true := posts
  simp [camPacket, State.mode, p, ticks_of_posts, bound, camCount, hr]

end

/-! ## Frame start (R150, R153, R173) -/

/-- A frame captured after the boundary, in the window of the coming tick, is assigned to that tick. -/
theorem assignFrame_coming {n : Nat} {d : StreamDecl} (stream : s.im.stream n = some d) (gather : d.gather = true) {c : BitVec 64}
    (ticked : s.tck.ticked = true) (after : s.tck.bound ≤ c.toNat) (window : inWindow d c.toNat (s.tck.bound + s.period) = true)
    (free : (s.strm n).assigned.contains (s.tck.index + 1) = false) :
    ∃ x, assignFrame n c s = (s.setStrm n x, some (s.tck.index + 1)) := by
  have coming : ¬ c.toNat < s.tck.bound := Nat.not_lt.mpr after
  unfold assignFrame
  rw [stream]
  simp only [gather, ticked, coming, window, free, decide_false, Bool.false_and, Bool.not_true, Bool.false_eq_true, if_false]
  exact ⟨_, rfl⟩

/-- A frame start on a binding without an open frame opens the frame of the tick that it is assigned to. -/
theorem frameStart_assigned {b : Nat} {k : BitVec 64} {x : Stream} (fenced : (s.cam r).fenced = false)
    (closed : tget (s.cam r).opens b = none) (adjust : (s.binding r b).capAdj = 0)
    (assigned : assignFrame (s.binding r b).stream (w64 s.stamp) s = (s.setStrm (s.binding r b).stream x, some k)) (no : BitVec 16) :
    frameStart r b no s = setOpen r b (some {
      gen := genOf k, tick := k, capture := w64 s.stamp, arrival := w64 s.stamp, off := s.offset, frameNo := no })
      (s.setStrm (s.binding r b).stream x) := by
  simp only [frameStart, closed, fenced, adjust, zero_mul, add_zero, Int.toNat_natCast, assigned, Bool.false_eq_true, if_false]
  rfl

theorem cam_setOpen_same (hr : r < 8) (b : Nat) (f : Option OpenFrame) (s : State) :
    (setOpen r b f s).cam r = { s.cam r with opens := tset (s.cam r).opens b f } :=
  cam_setCam_same hr ..

theorem opens_setOpen_same (hr : r < 8) {b : Nat} (hb : b < 4) (f : Option OpenFrame) (s : State) :
    tget ((setOpen r b f s).cam r).opens b = f := by
  rw [cam_setOpen_same hr]
  exact tget_tset_same _ _ _ hb

/-- A line of the open frame that is whole, in its data type and with a good CRC is taken. -/
theorem longPacket_whole {vc dt b : Nat} {f : OpenFrame} {data : List Byte} (noEmbedded : dt ≠ 0x12)
    (first : (s.bindingsOf r vc).find? (fun b => (s.binding r b).dt = dt) = some b) (opened : tget (s.cam r).opens b = some f)
    (taken : f.drop = false) (early : f.line < (s.binding r b).height) (whole : data.length = (s.binding r b).lineLen) :
    longPacket r vc dt true data s = takeLine r b (some data) false s := by
  simp [longPacket, noEmbedded, first, opened, taken, Nat.not_le.mpr early, whole]

theorem fillLines_full {b : Nat} {f : OpenFrame} (opened : tget (s.cam r).opens b = some f) (full : (s.binding r b).height ≤ f.line)
    (n : Nat) : fillLines r b n s = s := by
  cases n with
  | zero => rfl
  | succ n => simp [fillLines, opened, full]

/-- The end of a frame that has all its lines posts what is left of it, counts it and closes it. -/
theorem frameEnd_full {b : Nat} {f : OpenFrame} (opened : tget (s.cam r).opens b = some f) (taken : f.drop = false)
    (full : (s.binding r b).height ≤ f.line) :
    frameEnd r b s = setOpen r b none (camCount r 0 (postGroup r b f true false stOk s)) := by
  simp [frameEnd, opened, fillLines_full opened full, taken]

theorem frameEnd_closed {b : Nat} (closed : tget (s.cam r).opens b = none) : frameEnd r b s = camCount r 7 s := by
  simp [frameEnd, closed]

theorem lt_of_bindingsOf {vc b : Nat} (h : s.bindingsOf r vc = [b]) : b < 4 := by
  have : b ∈ s.bindingsOf r vc := by rw [h]; exact List.mem_singleton_self b
  exact List.mem_range.mp (List.mem_filter.mp this).1

end

/-! ## Lines (R151) -/

/-- A line that its ring has room for, and that neither fills a group nor is a damaged one too many, enters the ring. -/
theorem takeLine_enters (hr : r < 8) {b : Nat} {f : OpenFrame} {data : List Byte} (opened : tget (s.cam r).opens b = some f)
    (taken : f.drop = false) (whole : data.length = (s.binding r b).lineLen) (good : f.damaged ≤ (s.binding r b).lineErrMax)
    (room : linesUsed r b f s < (s.binding r b).lringLines) (inGroup : f.line + 1 - f.sent ≠ groupOf s (s.binding r b)) : ∃ pos,
    takeLine r b (some data) false s =
      { s with mem := Memory.write s.mem ((s.binding r b).ringBase + tget (s.cam r).pos b * (s.binding r b).lineStep) data }.setCam r
        { s.cam r with pos := pos, opens := tset (s.cam r).opens b (some { f with line := f.line + 1 }) } := by
  have ring : max 1 (s.binding r b).lringLines = (s.binding r b).lringLines := by omega
  have clear : ¬ (s.binding r b).lringLines ≤ linesUsed r b f s := Nat.not_le.mpr room
  have sound : ¬ (s.binding r b).lineErrMax < f.damaged := Nat.not_lt.mpr good
  have group (t : State) (same : t.im = s.im) : groupOf t (s.binding r b) = groupOf s (s.binding r b) := by simp only [groupOf, same]
  simp only [takeLine, opened, taken, ring, clear, Bool.false_eq_true, if_false, ← whole, fitBytes_self, Nat.add_zero, Bool.or_false,
    sound, pendingLines]
  rw [group, decide_eq_false inGroup, Bool.false_and, if_neg Bool.false_ne_true, setOpen, cam_setCam_same hr, setCam_setCam]
  · exact ⟨_, rfl⟩
  · rfl

/-! ## Posted groups and the frame end (R98, R149, R153) -/

/-- What a posted group may touch: the queue, what its entry raises, and the receiver, whose counters stay. -/
structure GroupPosted (r : Nat) (s t : State) : Prop where
  frame : t = { s with
    sch := t.sch, cams := t.cams, aln := t.aln, hst := t.hst, mem := t.mem, out := t.out, freeCtr := t.freeCtr }
  cnt : (t.cam r).cnt = (s.cam r).cnt

theorem GroupPosted.refl (r : Nat) (s : State) : GroupPosted r s s := ⟨rfl, rfl⟩

theorem GroupPosted.trans {s t u : State} (h : GroupPosted r s t) (k : GroupPosted r t u) : GroupPosted r s u :=
  ⟨by rw [k.frame, h.frame], k.cnt.trans h.cnt⟩

theorem GroupPosted.setCam (hr : r < 8) {c : Cam} (h : c.cnt = (s.cam r).cnt) : GroupPosted r s (s.setCam r c) :=
  ⟨rfl, by rw [cam_setCam_same hr, h]⟩

theorem GroupPosted.sch (r : Nat) (s : State) (c : Sch) : GroupPosted r s { s with sch := c } := ⟨rfl, rfl⟩

theorem GroupPosted.aln (r : Nat) (s : State) (a : Aln) : GroupPosted r s { s with aln := a } := ⟨rfl, rfl⟩

theorem groupPosted_lineBytes (r n step : Nat) (s : State) : GroupPosted r s (lineBytes n step s).1 := by
  unfold lineBytes
  split <;> exact ⟨rfl, rfl⟩

theorem groupPosted_postEntry (r q : Nat) (bytes : List Byte) (s : State) : GroupPosted r s (postEntry q bytes s).1 := by
  by_cases room : s.fill q < (s.im.queue q).size
  · obtain ⟨a, h, o, posted⟩ := postEntry_posted room bytes
    rw [posted]
    exact ⟨rfl, rfl⟩
  · rw [postEntry_full (Nat.not_lt.mp room)]
    exact ⟨rfl, rfl⟩

theorem groupPosted_postGroup (hr : r < 8) (b : Nat) (f : OpenFrame) (last cut : Bool) (status : Byte) (s : State) :
    GroupPosted r s (postGroup r b f last cut status s) := by
  unfold postGroup
  extract_lets +onlyGivenNames bd n ring first
  have sized := groupPosted_lineBytes r n bd.lineStep s
  generalize lineBytes n bd.lineStep s = l at sized ⊢
  obtain ⟨t, len⟩ := l
  dsimp -zeta only
  extract_lets +onlyGivenNames e u
  refine sized.trans (.trans ?_ (.setCam (s := u) hr rfl))
  unfold u
  split
  next q _ =>
    extract_lets +onlyGivenNames place
    have posted := groupPosted_postEntry r q e.bytes t
    generalize postEntry q e.bytes t = x at posted ⊢
    obtain ⟨v, ok⟩ := x
    refine posted.trans ?_
    dsimp -zeta only
    by_cases took : ok = true
    · rw [if_pos took]
      extract_lets +onlyGivenNames v₁ c v₂
      have released : GroupPosted r v v₂ := (GroupPosted.aln r v _).trans (.setCam (s := v₁) hr rfl)
      split
      · exact released.trans (.sch r v₂ _)
      · exact released
    · rw [if_neg took]
      exact .refl r v
  · exact .refl r t

/-- A frame end on a virtual channel with one binding reaches that binding. -/
theorem exec_csiFrameEnd_of_only {rx vc b : Nat} {s : State} (posts : s.mode.posts = true) (bound : s.camBound rx = true) (hv : vc < 4)
    (only : s.bindingsOf rx vc = [b]) : exec (.csiFrameEnd rx vc .clean) s = done (frameEnd rx b (s.hsSeen rx)) := by
  show execCsiFrameEnd rx vc .clean s = _
  rw [execCsiFrameEnd, camPacket_clean posts bound, if_neg (Nat.not_le.mpr hv), show (s.hsSeen rx).bindingsOf rx vc = [b] from only]
  rfl

theorem csiFrameStart_opens (rx vc : Nat) (no : BitVec 16) (b : Nat) (d : StreamDecl) (s : State) (hs : Settled s)
    (posts : s.mode.posts = true) (bound : s.camBound rx = true) (hr : rx < 8) (hv : vc < 4) (only : s.bindingsOf rx vc = [b])
    (fenced : (s.cam rx).fenced = false) (closed : tget (s.cam rx).opens b = none)
    (stream : s.im.stream (s.binding rx b).stream = some d) (gather : d.gather = true) (adjust : (s.binding rx b).capAdj = 0)
    (fits : s.tim.dev < 2 ^ 64) (ticked : s.tck.ticked = true) (after : s.tck.bound ≤ s.tim.dev)
    (window : inWindow d s.tim.dev (s.tck.bound + s.period) = true)
    (free : (s.strm (s.binding rx b).stream).assigned.contains (s.tck.index + 1) = false) :
    ∃ t, exec (.csiFrameStart rx vc no .clean) s = .next t ∧
      t = { s with sch := t.sch, cams := t.cams, aln := t.aln, hst := t.hst, mem := t.mem, out := t.out, freeCtr := t.freeCtr } ∧
      (t.cam rx).hs = true ∧ (t.cam rx).fsStamp = BitVec.ofNat 64 s.tim.dev ∧
      tget (t.cam rx).opens b = some {
        gen := genOf (s.tck.index + 1), tick := s.tck.index + 1, capture := BitVec.ofNat 64 s.tim.dev,
        arrival := BitVec.ofNat 64 s.tim.dev, off := s.offset, frameNo := no } ∧ t.mem = s.mem := by
  let c : Cam := { s.cam rx with hs := true, fsStamp := w64 s.stamp }
  let u := s.setCam rx c
  have cam : u.cam rx = c := cam_setCam_same hr s c
  have stamp : (w64 s.stamp).toNat = s.tim.dev := (BitVec.toNat_ofNat ..).trans (Nat.mod_eq_of_lt fits)
  obtain ⟨x, assigned⟩ := assignFrame_coming (s := u) (c := w64 s.stamp) stream gather ticked
    (after.trans_eq stamp.symm) (stamp.symm ▸ window) free
  have run : exec (.csiFrameStart rx vc no .clean) s = done (frameStart rx b no u) := by
    show execCsiFrameStart rx vc no .clean s = _
    rw [execCsiFrameStart, camPacket_clean posts bound, if_neg (Nat.not_le.mpr hv), cam_hsSeen hr, setCam_hsSeen,
      show (s.hsSeen rx).bindingsOf rx vc = [b] from only]
    rfl
  rw [frameStart_assigned (s := u) (cam ▸ fenced) (cam ▸ closed) adjust assigned no] at run
  refine ⟨_, run.trans (done_of_settled hs), rfl, ?_, ?_, opens_setOpen_same hr (lt_of_bindingsOf only) .., rfl⟩
  · exact (congrArg Cam.hs (cam_setOpen_same hr ..)).trans (congrArg Cam.hs cam)
  · exact (congrArg Cam.fsStamp (cam_setOpen_same hr ..)).trans (congrArg Cam.fsStamp cam)

theorem csiLine_enters (rx vc dt b : Nat) (f : OpenFrame) (bytes : List Byte) (s : State) (hs : Settled s)
    (hm : Memory.wf s.mem = true) (posts : s.mode.posts = true) (bound : s.camBound rx = true) (hr : rx < 8) (hb : b < 4)
    (noEmbedded : dt ≠ 0x12) (first : (s.bindingsOf rx vc).find? (fun b => (s.binding rx b).dt = dt) = some b)
    (opened : tget (s.cam rx).opens b = some f) (taken : f.drop = false) (early : f.line + 1 < (s.binding rx b).height)
    (whole : bytes.length = (s.binding rx b).lineLen) (good : f.damaged ≤ (s.binding rx b).lineErrMax)
    (room : linesUsed rx b f s < (s.binding rx b).lringLines) (inGroup : f.line + 1 - f.sent ≠ groupOf s (s.binding rx b)) :
    ∃ t, exec (.csiLine rx vc dt .clean true bytes) s = .next t ∧
      t = { s with sch := t.sch, cams := t.cams, aln := t.aln, flt := t.flt, hst := t.hst, mem := t.mem, out := t.out, freeCtr := t.freeCtr } ∧
      tget (t.cam rx).opens b = some { f with line := f.line + 1 } ∧
      Memory.read t.mem ((s.binding rx b).ringBase + tget (s.cam rx).pos b * (s.binding rx b).lineStep) bytes.length = bytes ∧
      (∀ a, a < (s.binding rx b).ringBase + tget (s.cam rx).pos b * (s.binding rx b).lineStep ∨
        (s.binding rx b).ringBase + tget (s.cam rx).pos b * (s.binding rx b).lineStep + bytes.length ≤ a →
        Memory.get t.mem a = Memory.get s.mem a) := by
  have cam := cam_hsSeen hr s
  have taken' : longPacket rx vc dt true bytes (s.hsSeen rx) = _ :=
    longPacket_whole (s := s.hsSeen rx) noEmbedded first (by rw [cam]; exact opened) taken (Nat.lt_of_succ_lt early) whole
  have run : exec (.csiLine rx vc dt .clean true bytes) s = done (takeLine rx b (some bytes) false (s.hsSeen rx)) := by
    show done (camPacket rx .clean (lostLine rx vc dt) (longPacket rx vc dt true bytes) s) = _
    rw [camPacket_clean posts bound, taken']
  have used : linesUsed rx b f (s.hsSeen rx) = linesUsed rx b f s := by rw [linesUsed, cam]; rfl
  obtain ⟨pos, entered⟩ := takeLine_enters (s := s.hsSeen rx) hr (by rw [cam]; exact opened) taken whole good (used.trans_lt room) inGroup
  rw [cam] at entered
  rw [entered] at run
  refine ⟨_, run.trans (done_of_settled hs), rfl, ?_, Memory.read_write hm, fun a ha => Memory.get_write_other hm ha⟩
  rw [cam_setCam_same hr]
  exact tget_tset_same _ _ _ hb

theorem csiFrameEnd_counts (rx vc b : Nat) (f : OpenFrame) (s : State) (hs : Settled s) (posts : s.mode.posts = true)
    (bound : s.camBound rx = true) (hr : rx < 8) (hv : vc < 4) (hb : b < 4) (only : s.bindingsOf rx vc = [b])
    (opened : tget (s.cam rx).opens b = some f) (taken : f.drop = false) (full : f.line = (s.binding rx b).height) :
    ∃ t, exec (.csiFrameEnd rx vc .clean) s = .next t ∧
      t = { s with sch := t.sch, cams := t.cams, aln := t.aln, flt := t.flt, hst := t.hst, mem := t.mem, out := t.out, freeCtr := t.freeCtr } ∧
      tget (t.cam rx).opens b = none ∧ tget (t.cam rx).cnt 0 = satInc (tget (s.cam rx).cnt 0) := by
  have cam := cam_hsSeen hr s
  have run := exec_csiFrameEnd_of_only posts bound hv only
  rw [frameEnd_full (s := s.hsSeen rx) (by rw [cam]; exact opened) taken full.ge] at run
  obtain ⟨frame, cnt⟩ := groupPosted_postGroup hr b f true false stOk (s.hsSeen rx)
  rw [cam] at cnt
  generalize postGroup rx b f true false stOk (s.hsSeen rx) = u at frame cnt run
  have quiet : Settled u := by rw [frame]; exact hs
  refine ⟨_, run.trans (done_of_settled quiet), ?_, opens_setOpen_same hr hb .., ?_⟩
  · rw [frame]
    rfl
  · rw [cam_setOpen_same hr, camCount, cam_setCam_same hr]
    exact (tget_tinc_same _ (by decide)).trans (by rw [cnt])

theorem csiSotError_counts (rx : Nat) (s : State) (hs : Settled s) (ticks : s.mode.ticks = true) (bound : s.camBound rx = true) :
    exec (.csiSotError rx) s = .next (s.setCam rx { s.cam rx with cnt := tinc (s.cam rx).cnt 8 }) := by
  show execCsiSotError rx s = _
  rw [execCsiSotError, ticks, bound]
  exact done_of_settled hs

theorem csiFrameEnd_orphan (rx vc b : Nat) (s : State) (hs : Settled s) (posts : s.mode.posts = true) (bound : s.camBound rx = true)
    (hr : rx < 8) (hv : vc < 4) (only : s.bindingsOf rx vc = [b]) (closed : tget (s.cam rx).opens b = none) :
    exec (.csiFrameEnd rx vc .clean) s = .next (s.setCam rx { s.cam rx with hs := true, cnt := tinc (s.cam rx).cnt 7 }) := by
  rw [exec_csiFrameEnd_of_only posts bound hv only, frameEnd_closed (by rw [cam_hsSeen hr]; exact closed), camCount, cam_hsSeen hr,
    setCam_hsSeen]
  exact done_of_settled hs

theorem genericShortPacket_clean (rx : Nat) (s : State) (hs : Settled s) (posts : s.mode.posts = true) (bound : s.camBound rx = true)
    (hr : rx < 8) :
    exec (.genericShortPacket rx ⟨.generic, .clean⟩) s = .next (s.setCam rx { s.cam rx with hs := true, cnt := tinc (s.cam rx).cnt 6 }) ∧
    exec (.genericShortPacket rx ⟨.lineStart, .clean⟩) s = .next (s.setCam rx { s.cam rx with hs := true }) ∧
    exec (.genericShortPacket rx ⟨.lineStart, .corrected⟩) s =
      .next (s.setCam rx { s.cam rx with hs := true, cnt := tinc (s.cam rx).cnt 2 }) := by
  have run (k : ShortKind) (e : HdrEcc) : exec (.genericShortPacket rx ⟨k, e⟩) s =
      done (camPacket rx e id (fun s => if k = .generic then camCount rx 6 s else s) s) := rfl
  refine ⟨?_, ?_, ?_⟩
  · rw [run, camPacket_clean posts bound, if_pos rfl, camCount, cam_hsSeen hr, setCam_hsSeen]
    exact done_of_settled hs
  · rw [run, camPacket_clean posts bound]
    exact done_of_settled hs
  · rw [run, camPacket_corrected posts bound hr]
    exact done_of_settled hs

theorem genericShortPacket_uncorrectable (rx : Nat) (k : ShortKind) (s : State) (hs : Settled s) (posts : s.mode.posts = true)
    (bound : s.camBound rx = true) (hr : rx < 8) : exec (.genericShortPacket rx ⟨k, .uncorrectable⟩) s =
      .next (s.setCam rx { s.cam rx with hs := true, cnt := tinc (s.cam rx).cnt 3 }) := by
  show done (camPacket rx .uncorrectable id _ s) = _
  rw [camPacket_uncorrectable posts bound hr]
  exact done_of_settled hs

end Sys2Proof.Machine

namespace Sys2Proof
open Machine

/-- Settles O25: each packet reaches its receiver, and its own case says what it brings. -/
theorem cameraPorts : Obligations.CameraPorts :=
  ⟨csiFrameStart_opens, csiLine_enters, csiFrameEnd_counts, fun rx s hs ticks bound _ => csiSotError_counts rx s hs ticks bound,
    genericShortPacket_clean, genericShortPacket_uncorrectable, csiFrameEnd_orphan⟩

end Sys2Proof

/-! # O26: the Ethernet MACs -/
namespace Sys2Proof.Machine

section
variable {s : State} {p : Nat}

/-! ## Frames (R155, R156, R158) -/

/-- A MAC that works is in a state that is neither OFF nor REMOVAL. -/
theorem awake_of_ticks {m : Mode} (h : m.ticks = true) : m ≠ .off ∧ m ≠ .removal := by
  revert h
  cases m <;> decide

theorem ticks_of_ethOn (on : s.ethOn p = true) : s.mode.ticks = true := (Bool.and_eq_true_iff.mp on).1

theorem ethFrame_badFcs {bytes : List Byte} (on : s.ethOn p = true) (link : (s.eth p).link = true) (long : 64 ≤ bytes.length)
    (short : bytes.length ≤ 2048) : ethFrame p false bytes s = ethCount p 1 s := by
  obtain ⟨off, removal⟩ := awake_of_ticks (ticks_of_ethOn on)
  simp [ethFrame, off, removal, on, link, Nat.not_lt.mpr long, Nat.not_lt.mpr short]

/-- A good frame for which the MAC has a match entry is counted, and posted where the MAC is not fenced. -/
theorem ethFrame_matched {bytes : List Byte} {m : MatchEntry} (on : s.ethOn p = true) (link : (s.eth p).link = true)
    (long : 64 ≤ bytes.length) (short : bytes.length ≤ 2048)
    (noPause : (readFrame (bytes.take (bytes.length - 4))).etherType ≠ 0x8808)
    (noPtp : (readFrame (bytes.take (bytes.length - 4))).etherType ≠ 0x88F7)
    (single : (readFrame (bytes.take (bytes.length - 4))).double = false) (posts : s.mode.posts = true)
    (fenced : ((ethCount p 0 s).eth p).fenced = false)
    (first : (s.ethPart p).entries.find? (fun m => entryMatches m (readFrame (bytes.take (bytes.length - 4)))) = some m) :
    ethFrame p true bytes s =
      ethPost p m (readFrame (bytes.take (bytes.length - 4))) (bytes.take (bytes.length - 4)) (ethCount p 0 s) := by
  obtain ⟨off, removal⟩ := awake_of_ticks (ticks_of_ethOn on)
  have posts' : (ethCount p 0 s).mode.posts = true := posts
  have first' : ((ethCount p 0 s).ethPart p).entries.find? _ = some m := first
  simp [ethFrame, off, removal, on, link, Nat.not_lt.mpr long, Nat.not_lt.mpr short, noPause, noPtp, single, posts', fenced, first']

/-- A frame whose entry carries no stamp of the sensor's posts to the empty queue of its stream. -/
theorem ethPost_posted {m : MatchEntry} {q : Nat} {body : List Byte} (uncaptured : m.capFmt = 0)
    (queue : s.im.streamQueue m.stream = some q) (empty : s.fill q = 0) (size : 0 < (s.im.queue q).size)
    (fits : body.length ≤ (s.im.queue q).dataLen) (v : EthView) : ∃ n aln hst mem out,
    ethPost p m v body s = { s.setQue q (s.postedQue q) with freeCtr := n, aln := aln, hst := hst, mem := mem, out := out } := by
  obtain ⟨n, aln, hst, mem, out, posted, -⟩ := portPost_posted (s := (nextSeq m.stream s).1.drawn) queue empty size fits s.offset {
    capValid := false, arrival := stampLess (s.ethPart p).rxLat s, capture := stampLess (s.ethPart p).rxLat s
    seq := (nextSeq m.stream s).2, gen := Config.freeByte s.freeCtr }
  refine ⟨n, aln, hst, mem, out, Eq.trans ?_ (congrArg Prod.fst posted)⟩
  simp only [ethPost, uncaptured, ne_eq, not_true, decide_false, Bool.false_and, Bool.false_eq_true, if_false, if_true]
  rfl

/-! ## Measurements (R41, R42) -/

/-- What a measurement brings beside its own record while the turnstile is off: steps, slews and the lock. -/
structure LockJudged (s t : State) : Prop where
  frame : t = { s with pins := t.pins, gctl := t.gctl, tim := t.tim, tck := t.tck, hst := t.hst, out := t.out }
  offset : t.tim.offset = s.tim.offset
  refMono : t.tim.refMono = s.tim.refMono
  holdover : t.tim.holdover = s.tim.holdover

theorem LockJudged.refl (s : State) : LockJudged s s := ⟨rfl, rfl, rfl, rfl⟩

theorem LockJudged.trans {s t u : State} (h : LockJudged s t) (k : LockJudged t u) : LockJudged s u :=
  ⟨by rw [k.frame, h.frame], k.offset.trans h.offset, k.refMono.trans h.refMono, k.holdover.trans h.holdover⟩

theorem LockJudged.ldg {s t : State} (h : LockJudged s t) : t.ldg = s.ldg := by rw [h.frame]

theorem lockJudged_msix (v : Nat) (en : Bool) (s : State) : LockJudged s (msix v en s) :=
  ⟨by rw [msix_frame], by simp, by simp, by simp⟩

theorem ldgFirstLock_off (off : s.ldg.on = false) : ldgFirstLock s = s := by simp [ldgFirstLock, off]

theorem lockJudged_setLocked (off : s.ldg.on = false) (b : Bool) : LockJudged s (setLocked b s) := by
  unfold setLocked
  split
  · exact .refl s
  · extract_lets +onlyGivenNames tim t
    have changed : LockJudged s { s with tim.locked := b } := ⟨rfl, rfl, rfl, rfl⟩
    have signalled : LockJudged s t := changed.trans (lockJudged_msix 11 s.tim.intEn { s with tim.locked := b })
    split
    · rw [ldgFirstLock_off (by rw [← off, ← signalled.ldg])]
      exact signalled.trans ⟨rfl, rfl, rfl, rfl⟩
    · exact signalled.trans ⟨rfl, rfl, rfl, rfl⟩

theorem lockJudged_timeStep (off : s.ldg.on = false) (cause : BitVec 3) (old new : Nat) : LockJudged s (timeStep cause old new s) := by
  unfold timeStep
  extract_lets +onlyGivenNames tim tck t
  have moved : LockJudged s t := ⟨rfl, rfl, rfl, rfl⟩
  have stepped : LockJudged s (msix 11 t.tim.intEn t) := moved.trans (lockJudged_msix 11 t.tim.intEn t)
  rw [ldgStep, show (msix 11 t.tim.intEn t).ldg.on = false by rw [stepped.ldg, off], if_neg Bool.false_ne_true]
  exact stepped

theorem lockJudged_lockJudge (off : s.ldg.on = false) (o : Int) : LockJudged s (lockJudge o s) := by
  unfold lockJudge
  extract_lets +onlyGivenNames thr
  split
  · extract_lets +onlyGivenNames tim t
    have counted : LockJudged s t := ⟨rfl, rfl, rfl, rfl⟩
    split
    · exact counted.trans (lockJudged_setLocked (s := t) off true)
    · exact counted
  · extract_lets +onlyGivenNames tim t
    have counted : LockJudged s t := ⟨rfl, rfl, rfl, rfl⟩
    split
    · exact counted.trans (lockJudged_setLocked (s := t) off false)
    · exact counted

/-- The record that a measurement of the offset `o` makes of itself. -/
def measured (o : Int) (s : State) : State := { s with
  tim.offset := BitVec.ofInt 32 (clampSigned 32 o), tim.refMono := s.mono, tim.holdover := false
  tim.fresh := s.tim.fresh || s.tim.holdover }

theorem measure_measured (off : s.ldg.on = false) (cause : BitVec 3) (o : Int) (i : Nat) :
    LockJudged (measured o s) (measure cause o i s) := by
  unfold measure
  extract_lets +onlyGivenNames wasHold tim s₁ s₂ tim₂ f p s₃
  have signalled : LockJudged (measured o s) s₂ := by
    unfold s₂
    split
    · exact lockJudged_msix 11 s₁.tim.intEn s₁
    · exact .refl s₁
  have off₂ : s₂.ldg.on = false := by rw [signalled.ldg]; exact off
  have steered : LockJudged s₂ s₃ := by
    unfold s₃
    split
    · have unsteered : LockJudged s₂ { s₂ with tim.pTerm := 0 } := ⟨rfl, rfl, rfl, rfl⟩
      exact unsteered.trans (lockJudged_timeStep (s := { s₂ with tim.pTerm := 0 }) off₂ ..)
    · exact ⟨rfl, rfl, rfl, rfl⟩
  exact (signalled.trans steered).trans (lockJudged_lockJudge (by rw [steered.ldg]; exact off₂) o)

/-! ## gPTP (R157, R159) -/

/-- A sync of the followed grandmaster is a measurement, by its stamp at the pin. -/
theorem exec_gptpMessage_sync (on : s.gptpOn p = true) (followed : s.tim.discAct = 1) (port : s.im.time.gptpPort = p) (ref : Nat) :
    exec (.gptpMessage p (.sync ref)) s = done (measure 1 (s.ptpRx p - ref) 125000000 (ethCount p 9 s)) := by
  have heeded : ((ethCount p 9 s).tim.discAct = discGptp && (ethCount p 9 s).im.time.gptpPort = p) = true := by
    simpa using ⟨followed, port⟩
  show execGptpMessage p (.sync ref) s = _
  rw [execGptpMessage, if_pos on]
  exact congrArg done (if_pos heeded)

/-- The answer to a request that waits gives the peer delay by the four stamps. -/
theorem peerAnswered_waiting {a : Nat} (waits : (s.eth p).pdelayT1 = some a) (b c : Nat) : peerAnswered p b c s =
    s.setEth p { s.eth p with
      asCapable := true, pdelayT1 := none, peerDelay := BitVec.ofInt 32 (roundDiv ((s.ptpRx p - a) - ((c : Int) - b)) 2) } := by
  simp [peerAnswered, waits]

theorem exec_gptpMessage_peerDelay (on : s.gptpOn p = true) (b c : Nat) :
    exec (.gptpMessage p (.peerDelay b c)) s = done (peerAnswered p b c (ethCount p 9 s)) := by
  show execGptpMessage p (.peerDelay b c) s = _
  rw [execGptpMessage, if_pos on]

theorem exec_gptpMessage_peerRequest (on : s.gptpOn p = true) : exec (.gptpMessage p .peerRequest) s =
    done ((ethCount p 10 (ethCount p 9 s)).say (.gptp p (some (s.ptpRx p)) (s.ptpTx p))) := by
  show execGptpMessage p .peerRequest s = _
  rw [execGptpMessage, if_pos on]
  rfl

theorem exec_peerDelayMeasurement (on : s.gptpOn p = true) : exec (.peerDelayMeasurement p) s =
    done (((ethCount p 10 s).setEth p { (ethCount p 10 s).eth p with pdelayT1 := some (s.ptpTx p) }).say (.gptp p none (s.ptpTx p))) := by
  show execPeerDelayMeasurement p s = _
  rw [execPeerDelayMeasurement, if_pos on]
  rfl

end

/-! ## The rows -/

theorem ethFrameRx_badFcs (p : Nat) (bytes : List Byte) (s : State) (hs : Settled s) (on : s.ethOn p = true)
    (link : (s.eth p).link = true) (long : 64 ≤ bytes.length) (short : bytes.length ≤ 2048) :
    exec (.ethFrameRx p false bytes) s = .next (s.setEth p { s.eth p with cnt := tinc (s.eth p).cnt 1 }) := by
  show done (ethFrame p false bytes s) = _
  rw [ethFrame_badFcs on link long short]
  exact done_of_settled hs

theorem ethFrameRx_matched (p : Nat) (bytes : List Byte) (m : MatchEntry) (q : Nat) (s : State) (hs : Settled s) (hp : p < 4)
    (on : s.ethOn p = true) (link : (s.eth p).link = true) (long : 64 ≤ bytes.length) (short : bytes.length ≤ 2048)
    (noPause : (readFrame (bytes.take (bytes.length - 4))).etherType ≠ 0x8808)
    (noPtp : (readFrame (bytes.take (bytes.length - 4))).etherType ≠ 0x88F7)
    (single : (readFrame (bytes.take (bytes.length - 4))).double = false) (posts : s.mode.posts = true)
    (fenced : (s.eth p).fenced = false)
    (first : (s.ethPart p).entries.find? (fun m => entryMatches m (readFrame (bytes.take (bytes.length - 4)))) = some m)
    (uncaptured : m.capFmt = 0) (queue : s.im.streamQueue m.stream = some q) (hq : q < 256) (empty : s.fill q = 0)
    (size : 0 < (s.im.queue q).size) (fits : bytes.length - 4 ≤ (s.im.queue q).dataLen) :
    ∃ t, exec (.ethFrameRx p true bytes) s = .next t ∧
      t = { s with sch := t.sch, eths := t.eths, aln := t.aln, hst := t.hst, mem := t.mem, out := t.out, freeCtr := t.freeCtr } ∧
      tget (t.eth p).cnt 0 = satInc (tget (s.eth p).cnt 0) ∧ (t.que q).posted = satInc (s.que q).posted ∧
      (t.que q).tail = (s.im.queue q).next (s.que q).tail ∧ (t.que q).drop = (s.que q).drop := by
  have counted : (ethCount p 0 s).eth p = _ := eth_setEth_same hp ..
  obtain ⟨n, aln, hst, mem, out, posted⟩ := ethPost_posted (s := ethCount p 0 s) (p := p) (body := bytes.take (bytes.length - 4))
    uncaptured queue empty size (List.length_take_le .. |>.trans fits) (readFrame (bytes.take (bytes.length - 4)))
  have run : exec (.ethFrameRx p true bytes) s = done (ethFrame p true bytes s) := rfl
  rw [ethFrame_matched on link long short noPause noPtp single posts (by rw [counted]; exact fenced) first, posted] at run
  have que : ((ethCount p 0 s).setQue q ((ethCount p 0 s).postedQue q)).que q = s.postedQue q := que_setQue_same hq ..
  refine ⟨_, run.trans (done_of_settled hs), rfl, ?_, congrArg Queue.posted que, congrArg Queue.tail que, (congrArg Queue.drop que :)⟩
  exact (congrArg (fun e => tget e.cnt 0) counted).trans (tget_tinc_same _ (by decide))

theorem ethLinkChange_up (p : Nat) (s : State) (hs : Settled s) (on : s.ethOn p = true) :
    exec (.ethLinkChange p .up) s =
      .next (levelOff (66 + p) (s.setEth p { s.eth p with link := true, anDone := true, speedBad := false })) := by
  show execEthLinkChange p .up s = _
  rw [execEthLinkChange, if_pos on]
  exact done_of_settled hs

theorem ethLinkChange_down (p : Nat) (s : State) (hs : Settled s) (hp : p < 4) (on : s.ethOn p = true) (link : (s.eth p).link = true) :
    ∃ u, exec (.ethLinkChange p .down) s = .next (settle u) ∧
      u = { s with eths := u.eths, flt := u.flt } ∧
      u.flt.due = [(66 + p, BitVec.ofNat 32 p)] ∧ (u.eth p).link = false ∧ tget (u.eth p).cnt 11 = satInc (tget (s.eth p).cnt 11) := by
  have run : exec (.ethLinkChange p .down) s = done (ethLink p .down s) := congrArg done (if_pos on)
  have eth : (ethLink p .down s).eth p = _ := eth_setEth_same hp ..
  refine ⟨_, run, rfl, congrArg (List.cons _) hs.1, congrArg Eth.link eth, ?_⟩
  rw [eth, if_pos link]
  exact tget_tinc_same _ (by decide)

theorem gptpMessage_sync (p r : Nat) (s : State) (hs : Settled s) (hp : p < 4) (on : s.gptpOn p = true) (followed : s.tim.discAct = 1)
    (port : s.im.time.gptpPort = p) (noLedger : s.ldg.lstate = 0) :
    ∃ t, exec (.gptpMessage p (.sync r)) s = .next t ∧
      t = { s with pins := t.pins, gctl := t.gctl, tim := t.tim, tck := t.tck, eths := t.eths, arc := t.arc, ldg := t.ldg, flt := t.flt, hst := t.hst, out := t.out, freeCtr := t.freeCtr } ∧
      t.tim.offset = BitVec.ofInt 32 (clampSigned 32 (s.ptpRx p - r)) ∧ t.tim.refMono = s.tim.mono ∧ t.tim.holdover = false ∧
      tget (t.eth p).cnt 9 = satInc (tget (s.eth p).cnt 9) := by
  have off : (ethCount p 9 s).ldg.on = false := by
    show s.ldg.on = false
    simp [Ldg.on, noLedger]
  obtain ⟨frame, offset, refMono, holdover⟩ := measure_measured off 1 (s.ptpRx p - r) 125000000
  have run := exec_gptpMessage_sync on followed port r
  generalize measure 1 (s.ptpRx p - r) 125000000 (ethCount p 9 s) = t at frame offset refMono holdover run
  have quiet : Settled t := by rw [frame]; exact hs
  have eth : t.eth p = { s.eth p with cnt := tinc (s.eth p).cnt 9 } := by rw [frame]; exact eth_setEth_same hp ..
  refine ⟨t, run.trans (done_of_settled quiet), by rw [frame]; rfl, offset, refMono, holdover, ?_⟩
  rw [eth]
  exact tget_tinc_same _ (by decide)

theorem gptpMessage_peerDelay (p a b c : Nat) (s : State) (hs : Settled s) (hp : p < 4) (on : s.gptpOn p = true)
    (waits : (s.eth p).pdelayT1 = some a) : exec (.gptpMessage p (.peerDelay b c)) s = .next
      (s.setEth p { s.eth p with
        cnt := tinc (s.eth p).cnt 9, asCapable := true, pdelayT1 := none
        peerDelay := BitVec.ofInt 32 (roundDiv ((s.ptpRx p - a) - ((c : Int) - b)) 2) }) := by
  have counted : (ethCount p 9 s).eth p = _ := eth_setEth_same hp ..
  rw [exec_gptpMessage_peerDelay on, peerAnswered_waiting (by rw [counted]; exact waits), counted, ethCount, setEth_setEth]
  exact done_of_settled hs

theorem peerDelayMeasurement_starts (p : Nat) (s : State) (hs : Settled s) (hp : p < 4) (on : s.gptpOn p = true) :
    exec (.peerDelayMeasurement p) s = .next { s with
      eths := tset s.eths p { s.eth p with cnt := tinc (s.eth p).cnt 10, pdelayT1 := some (s.ptpTx p) }
      out := .gptp p none (s.ptpTx p) :: s.out } := by
  have counted : (ethCount p 10 s).eth p = _ := eth_setEth_same hp ..
  rw [exec_peerDelayMeasurement on, counted, ethCount, setEth_setEth]
  exact done_of_settled hs

theorem gptpMessage_peerRequest (p : Nat) (s : State) (hs : Settled s) (hp : p < 4) (on : s.gptpOn p = true) :
    exec (.gptpMessage p .peerRequest) s = .next { s with
      eths := tset s.eths p { s.eth p with cnt := tinc (tinc (s.eth p).cnt 9) 10 }
      out := .gptp p (some (s.ptpRx p)) (s.ptpTx p) :: s.out } := by
  have counted : (ethCount p 9 s).eth p = _ := eth_setEth_same hp ..
  rw [exec_gptpMessage_peerRequest on, ethCount, counted, ethCount, setEth_setEth]
  exact done_of_settled hs

end Sys2Proof.Machine

namespace Sys2Proof
open Machine

/-- Settles O26: frames are cut at what a MAC judges of them, and a sync at what the measurement makes of the lock. -/
theorem ethernetPort : Obligations.EthernetPort :=
  ⟨fun p bytes s hs _ => ethFrameRx_badFcs p bytes s hs, ethFrameRx_matched, ethLinkChange_up, ethLinkChange_down, gptpMessage_sync,
    gptpMessage_peerDelay, peerDelayMeasurement_starts, gptpMessage_peerRequest⟩

end Sys2Proof

/-! # O27: the CAN FD controllers -/
namespace Sys2Proof.Machine

section
variable {s : State} {c : Nat}

/-! ## Frames (R161 to R163) -/

theorem egoCan_frame (stream : Nat) (id : BitVec 29) (ide : Bool) (capture : Oldest) (data : List Byte) (s : State) :
    ∃ e, egoCan stream id ide capture data s = { s with ego := e } := by
  unfold egoCan
  split
  · exact ⟨_, rfl⟩
  · refine foldl_frame (fun e s => { s with ego := e }) (fun _ => ⟨_, rfl⟩) (fun _ _ _ => rfl) (fun t i => ?_) _ s
    extract_lets g
    split
    · exact ⟨_, rfl⟩
    · exact ⟨_, rfl⟩

/-- Below the passive limit a frame received well takes one off the receive error counter. -/
theorem canGood_active (normal : (s.canPart c).restricted = false) (active : (s.can c).rxErr.toNat ≤ 127) :
    ∃ n, canGood c s = s.setCan c { s.can c with rxErr := n } := by
  unfold canGood
  rw [normal, if_neg Bool.false_ne_true, if_pos active]
  exact ⟨_, rfl⟩

/-- A valid data frame has been acknowledged and counted, with its ESI bit recorded and `x` in the receive error counter. -/
def State.canHeard (s : State) (c : Nat) (x : Byte) (esi : Bool) : State :=
  (s.setCan c { s.can c with rxErr := x, esi := esi, cnt := tinc (s.can c).cnt 0 }).say (.canAck c)

theorem can_canHeard (hc : c < 2) (x : Byte) (esi : Bool) (s : State) :
    (s.canHeard c x esi).can c = { s.can c with rxErr := x, esi := esi, cnt := tinc (s.can c).cnt 0 } :=
  can_setCan_same hc ..

theorem canHeard_stamp (c : Nat) (x : Byte) (esi : Bool) (s : State) : (s.canHeard c x esi).stamp = s.stamp := rfl
theorem canHeard_freeCtr (c : Nat) (x : Byte) (esi : Bool) (s : State) : (s.canHeard c x esi).freeCtr = s.freeCtr := rfl
theorem drawn_offset_canHeard (c : Nat) (x : Byte) (esi : Bool) (s : State) : (s.canHeard c x esi).drawn.offset = s.offset := rfl

/-- A valid data frame in NORMAL is heard, and goes to the stream of the first filter that matches. -/
theorem canFrame_matched (hc : c < 2) {i : BitVec 29} {e : Bool} {f : CanFilter} {x : Byte} (normal : (s.canPart c).restricted = false)
    (fenced : (s.can c).fenced = false) (good : canGood c s = s.setCan c { s.can c with rxErr := x }) (posts : s.mode.posts = true)
    (first : (s.canPart c).filters.find? (fun f => filterMatches f i e) = some f) (z : Bool) (bytes : List Byte) :
    canFrame c i e false z bytes s =
      let r := portPost f.stream s.offset {
        arrival := w64 s.stamp, capture := w64 s.stamp, seq := i.toNat % 65536, gen := Config.freeByte s.freeCtr } bytes
        (s.canHeard c x z).drawn
      if r.2 then egoCan f.stream i e { stamp := w64 s.stamp, off := r.1.offset } bytes r.1 else r.1 := by
  have normal' (y : Can) : ((s.setCan c y).canPart c).restricted = false := normal
  have heard : canCount c 0 ((s.setCan c { s.can c with rxErr := x, esi := z }).say (.canAck c)) = s.canHeard c x z := by
    rw [canCount, show ((s.setCan c { s.can c with rxErr := x, esi := z }).say _).can c = _ from can_setCan_same hc ..]
    exact congrArg (State.say · _) (setCan_setCan ..)
  have posts' : (s.canHeard c x z).mode.posts = true := posts
  have first' : ((s.canHeard c x z).canPart c).filters.find? _ = some f := first
  have fenced' : ((s.canHeard c x z).can c).fenced = false := by rw [can_canHeard hc]; exact fenced
  have signalled {a b : State} : (if (s.can c).fenced = true then a else b) = b := if_neg (by rw [fenced]; exact Bool.false_ne_true)
  simp only [canFrame, good, can_setCan_same hc, setCan_setCan, normal', Bool.false_or, signalled, heard, posts', first', fenced',
    Bool.not_true, Bool.false_eq_true, if_false, openGen, canHeard_stamp, canHeard_freeCtr, drawn_offset_canHeard]

/-- The frame is posted to the empty queue of its stream, and EGO takes its signals. -/
theorem canFrame_posted (hc : c < 2) {i : BitVec 29} {e z : Bool} {bytes : List Byte} {f : CanFilter} {q : Nat}
    (normal : (s.canPart c).restricted = false) (fenced : (s.can c).fenced = false) (active : (s.can c).rxErr.toNat ≤ 127)
    (posts : s.mode.posts = true) (first : (s.canPart c).filters.find? (fun f => filterMatches f i e) = some f)
    (queue : s.im.streamQueue f.stream = some q) (empty : s.fill q = 0) (size : 0 < (s.im.queue q).size)
    (fits : bytes.length ≤ (s.im.queue q).dataLen) : ∃ x n aln ego hst mem out,
    canFrame c i e false z bytes s = { (s.canHeard c x z).setQue q (s.postedQue q) with
      freeCtr := n, aln := aln, ego := ego, hst := hst, mem := mem, out := out } ∧ Out.canAck c ∈ out := by
  obtain ⟨x, good⟩ := canGood_active normal active
  obtain ⟨n, aln, hst, mem, out, posted, kept⟩ := portPost_posted (s := (s.canHeard c x z).drawn) queue empty size fits s.offset {
    arrival := w64 s.stamp, capture := w64 s.stamp, seq := i.toNat % 65536, gen := Config.freeByte s.freeCtr }
  have heard := canFrame_matched hc normal fenced good posts first z bytes
  simp only [posted, if_true] at heard
  obtain ⟨ego, taken⟩ := egoCan_frame f.stream i e _ bytes _
  rw [taken] at heard
  exact ⟨x, n, aln, ego, hst, mem, out, heard, kept.subset List.mem_cons_self⟩

/-! ## Errors (R162, R164) -/

/-- An error flag leaves a controller that is not fenced, an active one while it is error-active. -/
def State.errorFlagged (s : State) (c : Nat) : State :=
  if (s.can c).fenced then s else s.say (.canErrorFlag c ((s.can c).rxErr.toNat ≤ 127 && (s.can c).txErr.toNat ≤ 127))

theorem errorFlagged_frame (s : State) (c : Nat) : ∃ out, s.errorFlagged c = { s with out := out } := by
  unfold State.errorFlagged
  split <;> exact ⟨_, rfl⟩

/-- An error that a receiver in NORMAL sees is counted, signalled and adds one to its receive error counter. -/
theorem canErr_receiver (hc : c < 2) (normal : (s.canPart c).restricted = false) (onBus : (s.can c).txErr.toNat < 256) (x : CanCat) :
    canErr c x .receiver s = (s.errorFlagged c).setCan c { s.can c with
      cnt := tinc (s.can c).cnt (canCat x), rxErr := BitVec.ofNat 8 (min 255 ((s.can c).rxErr.toNat + 1)) } := by
  have normal' (y : Can) : ((s.setCan c y).canPart c).restricted = false := normal
  simp only [canErr, canCount, can_setCan_same hc, normal', Bool.false_eq_true, if_false, Nat.not_le.mpr onBus, State.errorFlagged]
  split
  · exact setCan_setCan ..
  · exact congrArg (State.say · _) (setCan_setCan ..)

/-- An error as transmitter that brings the transmit error counter to 256 takes a controller in NORMAL off the bus. -/
theorem canErr_busOff (hc : c < 2) (normal : (s.canPart c).restricted = false) (last : 248 ≤ (s.can c).txErr.toNat) (x : CanCat) :
    ∃ y, canErr c x .transmitter s = raiseDet (70 + c) (BitVec.ofNat 32 c) ((s.errorFlagged c).setCan c y) ∧ y.busOff = true := by
  have normal' (y : Can) : ((s.setCan c y).canPart c).restricted = false := normal
  have full : 256 ≤ (BitVec.ofNat 9 (min 511 ((s.can c).txErr.toNat + 8))).toNat := by
    rw [BitVec.toNat_ofNat]
    omega
  simp only [canErr, canCount, can_setCan_same hc, setCan_setCan, normal', Bool.false_eq_true, if_false, full, if_true,
    State.errorFlagged]
  split
  · exact ⟨_, congrArg (raiseDet _ _) (setCan_setCan ..), rfl⟩
  · exact ⟨_, congrArg (fun s => raiseDet _ _ (State.say s _)) (setCan_setCan ..), rfl⟩

end

/-! ## The rows -/

theorem canFrameRx_posts (c : Nat) (i : BitVec 29) (e z : Bool) (bytes : List Byte) (f : CanFilter) (q : Nat) (s : State) (hs : Settled s)
    (hc : c < 2) (on : s.canOn c = true) (normal : (s.canPart c).restricted = false) (fenced : (s.can c).fenced = false)
    (active : (s.can c).rxErr.toNat ≤ 127) (posts : s.mode.posts = true)
    (first : (s.canPart c).filters.find? (fun f => filterMatches f i e) = some f) (queue : s.im.streamQueue f.stream = some q)
    (hq : q < 256) (empty : s.fill q = 0) (size : 0 < (s.im.queue q).size) (fits : bytes.length ≤ (s.im.queue q).dataLen) :
    ∃ t, exec (.canFrameRx c i e ⟨false, z⟩ bytes) s = .next t ∧
      t = { s with sch := t.sch, cans := t.cans, aln := t.aln, ego := t.ego, hst := t.hst, mem := t.mem, out := t.out, freeCtr := t.freeCtr } ∧
      (t.can c).esi = z ∧ tget (t.can c).cnt 0 = satInc (tget (s.can c).cnt 0) ∧
      (t.que q).posted = satInc (s.que q).posted ∧ (t.que q).tail = (s.im.queue q).next (s.que q).tail ∧ Out.canAck c ∈ t.out := by
  obtain ⟨x, n, aln, ego, hst, mem, out, posted, acked⟩ :=
    canFrame_posted (z := z) hc normal fenced active posts first queue empty size fits
  have run : exec (.canFrameRx c i e ⟨false, z⟩ bytes) s = done (canFrame c i e false z bytes s) := congrArg done (if_pos on)
  rw [posted] at run
  have heard := can_canHeard hc x z s
  have que : ((s.canHeard c x z).setQue q (s.postedQue q)).que q = s.postedQue q := que_setQue_same hq ..
  refine ⟨_, run.trans (done_of_settled hs), rfl, congrArg Can.esi heard, ?_, congrArg Queue.posted que, congrArg Queue.tail que, acked⟩
  exact (congrArg (fun x => tget x.cnt 0) heard).trans (tget_tinc_same _ (by decide))

theorem canCat_lt (x : CanCat) : canCat x < 10 := by cases x <;> decide

theorem canError_receiver (c : Nat) (x : CanCat) (s : State) (hs : Settled s) (hc : c < 2) (on : s.canOn c = true)
    (normal : (s.canPart c).restricted = false) (onBus : (s.can c).txErr.toNat < 256) :
    ∃ t, exec (.canError c x .receiver) s = .next t ∧
      t = { s with cans := t.cans, flt := t.flt, out := t.out } ∧ tget (t.can c).cnt (canCat x) = satInc (tget (s.can c).cnt (canCat x)) ∧
      (t.can c).rxErr = BitVec.ofNat 8 (min 255 ((s.can c).rxErr.toNat + 1)) ∧ (t.can c).txErr = (s.can c).txErr ∧
      (t.can c).busOff = (s.can c).busOff ∧
      ((s.can c).fenced = false → t.out = .canErrorFlag c (decide ((s.can c).rxErr.toNat ≤ 127 ∧ (s.can c).txErr.toNat ≤ 127)) :: s.out) := by
  have run : exec (.canError c x .receiver) s = done (canErr c x .receiver s) := congrArg done (if_pos on)
  rw [canErr_receiver hc normal onBus] at run
  obtain ⟨out, flagged⟩ := errorFlagged_frame s c
  have quiet : Settled (s.errorFlagged c) := by rw [flagged]; exact hs
  refine ⟨_, run.trans (done_of_settled quiet), by rw [flagged]; rfl, ?_⟩
  rw [can_setCan_same hc]
  refine ⟨tget_tinc_same _ (canCat_lt x), rfl, rfl, rfl, fun fenced => ?_⟩
  rw [State.errorFlagged, fenced, if_neg Bool.false_ne_true, Bool.decide_and]
  rfl

theorem canError_busOff (c : Nat) (x : CanCat) (s : State) (hs : Settled s) (hc : c < 2) (on : s.canOn c = true)
    (normal : (s.canPart c).restricted = false) (last : 248 ≤ (s.can c).txErr.toNat) :
    ∃ u, exec (.canError c x .transmitter) s = .next (settle u) ∧
      u = { s with cans := u.cans, flt := u.flt, out := u.out } ∧ u.flt.due = [(70 + c, BitVec.ofNat 32 c)] ∧
      (u.can c).busOff = true := by
  have run : exec (.canError c x .transmitter) s = done (canErr c x .transmitter s) := congrArg done (if_pos on)
  obtain ⟨y, off, busOff⟩ := canErr_busOff hc normal last x
  obtain ⟨out, flagged⟩ := errorFlagged_frame s c
  rw [off, flagged] at run
  exact ⟨_, run, rfl, congrArg (List.cons _) hs.1, (congrArg Can.busOff (can_setCan_same hc ..)).trans busOff⟩

theorem canBusoffRecovery_recovers (c : Nat) (s : State) (hs : Settled s) (ticks : s.mode.ticks = true) (off : (s.can c).busOff = true)
    (permitted : (s.canPart c).busoffRec = true) : exec (.canBusoffRecovery c) s =
      .next (levelOff (70 + c) (s.setCan c { s.can c with busOff := false, rxErr := 0, txErr := 0 })) := by
  show execCanBusoffRecovery c s = _
  rw [execCanBusoffRecovery, ticks, off, permitted]
  exact done_of_settled hs

end Sys2Proof.Machine

namespace Sys2Proof
open Machine

/-- Settles O27: a frame is heard and then posted, and an error is flagged and then judged by the counter that it moves. -/
theorem canPort : Obligations.CanPort :=
  ⟨canFrameRx_posts, canError_receiver, canError_busOff, fun c s hs _ => canBusoffRecovery_recovers c s hs⟩

end Sys2Proof

/-! # O28: the SPI controllers and the GPIO pins -/
namespace Sys2Proof.Machine

section
variable {s : State} {u : Nat}

/-! ## Edges of DRDY (R166) -/

/-- An edge of DRDY after no silence, while no transaction runs, starts one with the command bytes of the image. -/
theorem drdy_starts (hu : u < 2) (heard : (s.spi u).silent = false) (idle : (s.spi u).busy = false) : drdy u s =
    (s.setSpi u { s.spi u with
      silent := false, lastMono := s.mono, busy := true, drdy := stampLess (10 * s.im.ports.filtDrdy.getD u 0) s, drdyOff := s.offset }).say
      (.spiStart u ((s.spiPart u).cmd.take (s.spiPart u).cmdLen)) := by
  simp only [drdy, heard, idle, Bool.false_eq_true, if_false, spi_setSpi_same hu, setSpi_setSpi]
  rfl

/-- An edge of DRDY while a transaction runs is counted. -/
theorem drdy_overruns (hu : u < 2) (heard : (s.spi u).silent = false) (busy : (s.spi u).busy = true) :
    drdy u s = s.setSpi u { s.spi u with lastMono := s.mono, cnt := tinc (s.spi u).cnt 1 } := by
  simp only [drdy, heard, busy, Bool.false_eq_true, if_false, if_true, spiCount, spi_setSpi_same hu, setSpi_setSpi]

/-! ## The end of a transaction (R167) -/

theorem egoImu_frame (stream : Nat) (capture : Oldest) (data : List Byte) (s : State) :
    ∃ e, egoImu stream capture data s = { s with ego := e } := by
  unfold egoImu
  split
  · exact ⟨_, rfl⟩
  · refine foldl_frame (fun e s => { s with ego := e }) (fun _ => ⟨_, rfl⟩) (fun _ _ _ => rfl) (fun t i => ?_) _ s
    dsimp only
    split_ifs
    · exact ⟨_, rfl⟩
    · exact ⟨_, rfl⟩

/-- A transaction has ended, and is counted. -/
def State.spiEnded (s : State) (u : Nat) : State := s.setSpi u { s.spi u with busy := false, cnt := tinc (s.spi u).cnt 0 }

/-- The state in which the entry of an ended transaction is posted: its number has been taken, and a free value drawn for its GEN. -/
def State.spiNumbered (s : State) (u : Nat) : State := (nextSeq (s.spiPart u).stream (s.spiEnded u)).1.drawn

/-- The entry of an ended transaction. -/
def State.spiEntry (s : State) (u : Nat) : QEntry := {
  capValid := true, arrival := w64 (s.spiNumbered u).stamp, capture := (s.spi u).drdy
  seq := (nextSeq (s.spiPart u).stream (s.spiEnded u)).2
  gen := Config.freeByte (nextSeq (s.spiPart u).stream (s.spiEnded u)).1.freeCtr }

/-- A transaction that ends in a state that posts goes to its stream with the bytes that it has read. -/
theorem spiEnd_posting (hu : u < 2) (posts : s.mode.posts = true) (data : List Byte) : spiEnd u data s =
    let bytes := fitBytes ((s.spiNumbered u).spiPart u).readLen data
    let r := portPost (s.spiPart u).stream (s.spi u).drdyOff (s.spiEntry u) bytes (s.spiNumbered u)
    if r.2 then egoImu (s.spiPart u).stream { stamp := (s.spi u).drdy, off := (s.spi u).drdyOff } bytes r.1 else r.1 := by
  have ended : spiCount u 0 (s.setSpi u { s.spi u with busy := false }) = s.spiEnded u := by
    rw [spiCount, spi_setSpi_same hu, setSpi_setSpi]
    rfl
  have posts' : (s.spiEnded u).mode.posts = true := posts
  simp only [spiEnd, ended, posts', Bool.not_true, Bool.false_eq_true, if_false, openGen]
  rfl

/-- The entry reaches the empty queue of its stream, and EGO takes the samples. -/
theorem spiEnd_posted (hu : u < 2) {q : Nat} (posts : s.mode.posts = true) (queue : s.im.streamQueue (s.spiPart u).stream = some q)
    (empty : s.fill q = 0) (size : 0 < (s.im.queue q).size) (fits : (s.spiPart u).readLen ≤ (s.im.queue q).dataLen)
    (data : List Byte) : ∃ n aln ego hst mem out,
    spiEnd u data s = { (s.spiEnded u).setQue q (s.postedQue q) with
      freeCtr := n, aln := aln, ego := ego, hst := hst, mem := mem, out := out } := by
  obtain ⟨n, aln, hst, mem, out, posted, -⟩ := portPost_posted (s := s.spiNumbered u) queue empty size
    ((length_fitBytes ((s.spiNumbered u).spiPart u).readLen data).trans_le fits) (s.spi u).drdyOff (s.spiEntry u)
  have ends := spiEnd_posting hu posts data
  simp only [posted, if_true] at ends
  obtain ⟨ego, taken⟩ := egoImu_frame (s.spiPart u).stream _ (fitBytes ((s.spiNumbered u).spiPart u).readLen data) _
  rw [taken] at ends
  exact ⟨n, aln, ego, hst, mem, out, ends⟩

end

/-! ## The rows -/

theorem drdyEdge_starts (n : Nat) (s : State) (hs : Settled s) (hn : n < 2) (on : s.spiOn n = true) (heard : (s.spi n).silent = false)
    (idle : (s.spi n).busy = false) : ∃ t, exec (.drdyEdge n) s = .next t ∧
      t = { s with spis := t.spis, ego := t.ego, flt := t.flt, out := t.out } ∧ (t.spi n).busy = true ∧ (t.spi n).lastMono = s.tim.mono ∧
      (t.spi n).drdy = BitVec.ofNat 64 (s.tim.dev - 10 * s.im.ports.filtDrdy.getD n 0) ∧
      t.out = .spiStart n ((s.spiPart n).cmd.take (s.spiPart n).cmdLen) :: s.out := by
  have run : exec (.drdyEdge n) s = done (drdy n s) := congrArg done (if_pos on)
  rw [drdy_starts hn heard idle] at run
  have spi := spi_setSpi_same hn s { s.spi n with
    silent := false, lastMono := s.mono, busy := true, drdy := stampLess (10 * s.im.ports.filtDrdy.getD n 0) s, drdyOff := s.offset }
  exact ⟨_, run.trans (done_of_settled hs), rfl, congrArg Spi.busy spi, congrArg Spi.lastMono spi, congrArg Spi.drdy spi, rfl⟩

theorem drdyEdge_overruns (n : Nat) (s : State) (hs : Settled s) (hn : n < 2) (on : s.spiOn n = true) (heard : (s.spi n).silent = false)
    (busy : (s.spi n).busy = true) :
    exec (.drdyEdge n) s = .next (s.setSpi n { s.spi n with lastMono := s.tim.mono, cnt := tinc (s.spi n).cnt 1 }) := by
  have run : exec (.drdyEdge n) s = done (drdy n s) := congrArg done (if_pos on)
  rw [run, drdy_overruns hn heard busy]
  exact done_of_settled hs

theorem spiTransferEnd_posts (n : Nat) (bytes : List Byte) (q : Nat) (s : State) (hs : Settled s) (hn : n < 2) (on : s.spiOn n = true)
    (busy : (s.spi n).busy = true) (posts : s.mode.posts = true) (queue : s.im.streamQueue (s.spiPart n).stream = some q) (hq : q < 256)
    (empty : s.fill q = 0) (size : 0 < (s.im.queue q).size) (fits : (s.spiPart n).readLen ≤ (s.im.queue q).dataLen) :
    ∃ t, exec (.spiTransferEnd n bytes) s = .next t ∧
      t = { s with sch := t.sch, spis := t.spis, aln := t.aln, ego := t.ego, hst := t.hst, mem := t.mem, out := t.out, freeCtr := t.freeCtr } ∧
      (t.spi n).busy = false ∧ tget (t.spi n).cnt 0 = satInc (tget (s.spi n).cnt 0) ∧ (t.que q).posted = satInc (s.que q).posted ∧
      (t.que q).tail = (s.im.queue q).next (s.que q).tail := by
  obtain ⟨k, aln, ego, hst, mem, out, posted⟩ := spiEnd_posted hn posts queue empty size fits bytes
  have run : exec (.spiTransferEnd n bytes) s = done (spiEnd n bytes s) := congrArg done (if_pos (Bool.and_eq_true_iff.mpr ⟨on, busy⟩))
  rw [posted] at run
  have spi : (s.spiEnded n).spi n = { s.spi n with busy := false, cnt := tinc (s.spi n).cnt 0 } := spi_setSpi_same hn ..
  have que : ((s.spiEnded n).setQue q (s.postedQue q)).que q = s.postedQue q := que_setQue_same hq ..
  refine ⟨_, run.trans (done_of_settled hs), rfl, congrArg Spi.busy spi, ?_, congrArg Queue.posted que, congrArg Queue.tail que⟩
  exact (congrArg (fun x => tget x.cnt 0) spi).trans (tget_tinc_same _ (by decide))

theorem drdyTimeout_silent (n : Nat) (s : State) (hs : Settled s) (quiet : QuietClock s) (hn : n < 2) (ticks : s.mode.ticks = true)
    (en : (s.spiPart n).en = true) (heard : (s.spi n).silent = false) : ∃ u, exec (.drdyTimeout n) s = .next (settle u) ∧
      u = { s with tim := u.tim, spis := u.spis, flt := u.flt } ∧ u.flt.due = [(72 + n, BitVec.ofNat 32 n)] ∧ (u.spi n).silent = true ∧
      tget (u.spi n).cnt 2 = satInc (tget (s.spi n).cnt 2) := by
  obtain ⟨r, hr, passed, -⟩ := advanceTo_reaches ((s.spi n).lastMono +
    (s.spiPart n).drdyTo * ((s.im.stream (s.spiPart n).stream).map (fun d => d.period)).getD 0 * 1000) quiet
  have run : exec (.drdyTimeout n) s =
      done (raiseDet (72 + n) (BitVec.ofNat 32 n) (spiCount n 2 (r.setSpi n { r.spi n with silent := true }))) := by
    show execDrdyTimeout n s = _
    rw [← hr, execDrdyTimeout, ticks, en, heard]
    rfl
  obtain ⟨tim, rfl⟩ : ∃ tim, r = { s with tim := tim } := ⟨_, passed⟩
  rw [spiCount, spi_setSpi_same hn, setSpi_setSpi] at run
  have spi := spi_setSpi_same hn s { s.spi n with silent := true, cnt := tinc (s.spi n).cnt 2 }
  refine ⟨_, run, rfl, congrArg (List.cons _) hs.1, congrArg Spi.silent spi, ?_⟩
  exact (congrArg (fun x => tget x.cnt 2) spi).trans (tget_tinc_same _ (by decide))

theorem gpioEdge_rises (n : Nat) (s : State) (hs : Settled s) (heard : s.pinHeard n = true) : exec (.gpioEdge n true) s = .next { s with
    gpio.inp := s.gpio.inp ||| BitVec.twoPow 16 n, gpio.edge := s.gpio.edge ||| BitVec.twoPow 32 n
    gpio.rise := tset s.gpio.rise n (BitVec.ofNat 64 (s.tim.dev - 10 * s.im.ports.filtGpio.getD n 0)) } := by
  show execGpioEdge n true s = _
  rw [execGpioEdge, if_pos heard, gpioEdge, if_pos rfl]
  exact done_of_settled hs

theorem gpioEdge_falls (n : Nat) (s : State) (hs : Settled s) (heard : s.pinHeard n = true) : exec (.gpioEdge n false) s = .next { s with
    gpio.inp := s.gpio.inp &&& ~~~(BitVec.twoPow 16 n), gpio.edge := s.gpio.edge ||| BitVec.twoPow 32 (16 + n)
    gpio.fall := tset s.gpio.fall n (BitVec.ofNat 64 (s.tim.dev - 10 * s.im.ports.filtGpio.getD n 0)) } := by
  show execGpioEdge n false s = _
  rw [execGpioEdge, if_pos heard, gpioEdge, if_neg Bool.false_ne_true]
  exact done_of_settled hs

end Sys2Proof.Machine

namespace Sys2Proof
open Machine

/-- Settles O28: an edge of DRDY is judged by the transaction in progress, whose end is posted like any entry of a port. -/
theorem spiAndGpio : Obligations.SpiAndGpio :=
  ⟨drdyEdge_starts, drdyEdge_overruns, spiTransferEnd_posts, drdyTimeout_silent, gpioEdge_rises, gpioEdge_falls⟩

end Sys2Proof

/-! # O29: the limits and the close of Gather, the updates of ego-motion and their history -/
namespace Sys2Proof.Machine

section
variable {s : State}

/-! ## Limits (R176) -/

/-- A limit that is due in an open Gather is judged when it has come. -/
theorem exec_streamLimit_due {n : Nat} {d : StreamDecl} (declared : s.im.stream n = some d) (gathers : s.gatherOpen = true)
    (registers : s.registers = true) (due : s.edgeBefore (s.tck.boundMono + d.limit * 1000) = false) :
    exec (.streamLimit n) s = done (limitMask d (advanceTo (s.tck.boundMono + d.limit * 1000) s)) := by
  show execStreamLimit n s = _
  simp [execStreamLimit, declared, gathers, registers, due]

theorem limitMask_silent {d : StreamDecl} (gathered : d.gather = true) (kind : d.kind ≠ 0)
    (silent : (s.strm d.stream).delivered = false) :
    limitMask d s = s.setStrm d.stream { s.strm d.stream with masked := true } := by
  simp [limitMask, gathered, kind, silent]

theorem limitMask_delivered {d : StreamDecl} (delivered : (s.strm d.stream).delivered = true) : limitMask d s = s := by
  simp [limitMask, delivered]

/-! ## Tokens of other slots (R105) -/

theorem alookup_aset_other {α : Type} [DecidableEq α] {d v : α} {x y : Nat} (h : y ≠ x) (l : List (Nat × α)) :
    alookup d (aset d l x v) y = alookup d l y := by
  induction l with
  | nil =>
    unfold aset
    split_ifs
    · rfl
    · simp [alookup, h]
  | cons e l ih =>
    obtain ⟨k, w⟩ := e
    unfold aset
    split_ifs with before none same none
    · rfl
    · simp [alookup, h]
    · simp [alookup, ← same, h]
    · simp [alookup, ← same, h]
    · simp [alookup, ih]

/-- The entries of two slots have different keys, whatever their generations. -/
theorem tokKey_ne {a b : Nat} (h : a ≠ b) (im : Image) (g k : Byte) : tokKey im a g ≠ tokKey im b k := by
  have parity (c : Bool) (x : Byte) : (if c then x.toNat % 2 else 0) < 2 := by split <;> omega
  have ha := parity ((im.slot a).any (fun d => d.double)) g
  have hb := parity ((im.slot b).any (fun d => d.double)) k
  unfold tokKey
  omega

theorem token_putToken_other {a b : Nat} (h : a ≠ b) (g k : Byte) (t : Token) (s : State) :
    (putToken b k t s).token a g = s.token a g := by
  have entry : (putToken b k t s).entry a g = s.entry a g := alookup_aset_other (tokKey_ne h s.im g k) _
  simp only [State.token, entry]

/-- Tokens are read from the scoreboard and the image alone. -/
theorem token_congr {t : State} (tokens : t.sch.tokens = s.sch.tokens) (img : t.img = s.img) (a : Nat) (g : Byte) :
    t.token a g = s.token a g := by
  have entry : t.entry a g = s.entry a g := by simp [State.entry, State.im, tokens, img]
  simp only [State.token, entry]

/-! ## What a close touches (R112, R177) -/

/-- Between two states the registrar, the curator and EGO have worked at a close: of ALN nothing but the streams has changed. -/
def CloseWorks (s t : State) : Prop :=
  t = { s with sch := t.sch, cams := t.cams, aln.streams := t.aln.streams, ego := t.ego, hst := t.hst, mem := t.mem, out := t.out, freeCtr := t.freeCtr }

theorem CloseWorks.refl (s : State) : CloseWorks s s := rfl

theorem CloseWorks.trans {s t u : State} (h : CloseWorks s t) (k : CloseWorks t u) : CloseWorks s u := by
  unfold CloseWorks at *
  rw [k, h]

/-- A loop whose turns only do the work of a close does no more; `state` is the state in what the loop carries. -/
theorem CloseWorks.foldl {α β : Type} {state : β → State} {f : β → α → β} (turn : ∀ b a, CloseWorks (state b) (state (f b a)))
    (l : List α) (b : β) : CloseWorks (state b) (state (l.foldl f b)) := by
  induction l generalizing b with
  | nil => exact .refl _
  | cons a l ih => exact (turn b a).trans (ih (f b a))

theorem closeWorks_schVec (s : State) : CloseWorks s (schVec s) := by
  unfold schVec
  rw [msix_frame]
  rfl

theorem closeWorks_writeVoid (slot : Nat) (gen : Byte) (mask : Word) (s : State) : CloseWorks s (writeVoid slot gen mask s) :=
  CloseWorks.trans (t := { putToken slot gen { newToken s slot gen {} mask 0 with isVoid := true } s with sch.voidCnt := _ }) rfl
    (closeWorks_schVec _)

theorem closeWorks_voidOutputs (t : TaskDesc) (gen : Byte) (mask : Word) (s : State) : CloseWorks s (voidOutputs t gen mask s) :=
  CloseWorks.foldl (state := id) (fun s o => closeWorks_writeVoid o gen mask s) t.outs s

theorem closeWorks_consume (q n : Nat) (s : State) : CloseWorks s (consume q n s) := by
  obtain ⟨c, x, h⟩ := consume_frame q n s
  rw [h]
  rfl

theorem closeWorks_compOf (d : StreamDecl) (place : Nat) (e : QEntry) (s : State) : CloseWorks s (compOf d place e s).1 := by
  unfold compOf lookupPair
  dsimp only
  split
  · exact .refl s
  · split
    · exact .refl s
    · rfl

theorem closeWorks_writeComps (d : StreamDecl) (masked : Bool) (cs : List Comp) (s : State) :
    CloseWorks s (writeComps d masked cs s) := by
  refine CloseWorks.foldl (state := id) (fun s c => ?_) cs s
  generalize compRecord _ _ _ _ _ _ = bytes
  rfl

theorem closeWorks_closeToken (d : StreamDecl) (r : BitVec 4) (es : List (Nat × QEntry)) (s : State) :
    CloseWorks s (closeToken d r es s).1 := by
  unfold closeToken
  dsimp only
  split_ifs <;> rfl

theorem closeWorks_closeStream (d : StreamDecl) (acc : State × Word × List (Nat × BitVec 64)) :
    CloseWorks acc.1 (closeStream d acc).1 := by
  obtain ⟨s, mask, floors⟩ := acc
  unfold closeStream
  dsimp only
  have comps := CloseWorks.foldl (state := Prod.fst) (f := fun (a : State × List Comp) e =>
    ((compOf d e.1 e.2 a.1).1, a.2 ++ [(compOf d e.1 e.2 a.1).2])) (fun a e => closeWorks_compOf d e.1 e.2 a.1)
    (contributions d s) (s, [])
  generalize (contributions d s).foldl _ (s, ([] : List Comp)) = c at comps ⊢
  have token := closeWorks_closeToken d (closeReason d c.2 c.1) (contributions d s) c.1
  generalize closeToken d (closeReason d c.2 c.1) (contributions d s) c.1 = k at token ⊢
  refine (comps.trans token).trans ?_
  split
  · rfl
  · exact (closeWorks_writeComps d _ c.2 k.1).trans rfl

theorem closeWorks_voidCameras (s : State) : CloseWorks s (voidCameras s) := by
  refine CloseWorks.foldl (state := id) (fun s d => ?_) _ s
  dsimp only
  split
  · split
    · exact (closeWorks_voidOutputs _ _ _ s).trans rfl
    · exact .refl s
  · exact .refl s

theorem closeWorks_advanceRings (s : State) : CloseWorks s (advanceRings s) := by
  refine CloseWorks.foldl (state := id) (fun s d => ?_) _ s
  dsimp only
  split
  · split
    · exact .refl s
    · refine .trans ?_ (closeWorks_consume _ _ _)
      split
      · rfl
      · exact .refl s
  · exact .refl s

theorem closeWorks_writeVote (s : State) : CloseWorks s (writeVote s) := by
  unfold writeVote
  split
  · rfl
  · exact .refl s

theorem closeWorks_writeSummary (write : Bool) (s : State) : CloseWorks s (writeSummary write s) := by
  unfold writeSummary
  split
  · exact .refl s
  · dsimp only
    split
    · rfl
    · rfl

/-! ## The gather token (R177, step 3) -/

theorem tokens_consume (q n : Nat) (s : State) : (consume q n s).sch.tokens = s.sch.tokens := by
  unfold consume
  dsimp only
  split
  · rfl
  · rfl

theorem tokens_advanceRings (s : State) : (advanceRings s).sch.tokens = s.sch.tokens := by
  unfold advanceRings
  refine List.foldlRecOn (motive := fun t : State => t.sch.tokens = s.sch.tokens) _ _ rfl (fun t kept d _ => ?_)
  dsimp only
  split
  · split
    · exact kept
    · rw [tokens_consume]
      split
      · exact kept
      · exact kept
  · exact kept

theorem token_plainToken_same (slot : Nat) (oldest : Oldest) (mask vote : Word) (s : State) :
    (plainToken slot oldest mask vote s).token slot (genOf s.tck.index) =
      some (newToken s slot (genOf s.tck.index) oldest mask vote) :=
  token_putToken_same slot (t := newToken s slot (genOf s.tck.index) oldest mask vote) rfl rfl s

theorem token_writeVote_other {a : Nat} (apart : ∀ v, s.im.vote = some v → v.voteSlot ≠ a) (g : Byte) :
    (writeVote s).token a g = s.token a g := by
  unfold writeVote
  split
  · next v hv => exact token_putToken_other (apart v hv).symm ..
  · rfl

theorem token_writeSummary_other {a : Nat} (apart : ∀ e, s.im.ego = some e → e.sumSlot ≠ a) (write : Bool) (g : Byte) :
    (writeSummary write s).token a g = s.token a g := by
  unfold writeSummary
  split
  · rfl
  · next e he =>
    dsimp only
    split
    · exact token_putToken_other (apart e he).symm ..
    · rfl

/-! ## The close (R177) -/

/-- The gather token and the registers that the registrar writes once it has closed the streams, with the mask and the floors they gave. -/
def masksSet (mask : Word) (floors : List (Nat × BitVec 64)) (t : State) : State :=
  let t := plainToken t.im.streams.gatherSlot {} mask 0 t
  { t with aln.gen := genOf t.tck.index, aln.maskLast := mask, aln.maskAcc := t.aln.maskAcc ||| mask
           aln.floors := (List.range 32).map (fun n => (floors.find? (fun f => f.1 = n)).map (fun f => f.2)) }

/-- The registrar closes the streams, sets the masks and the gather token, and finishes the close. -/
theorem registrarClose_eq (s : State) : ∃ t mask floors, CloseWorks s t ∧
    registrarClose s = writeSummary true (writeVote (advanceRings (masksSet mask floors t))) := by
  have streams := CloseWorks.foldl (state := Prod.fst) (f := fun acc d => closeStream d acc) (fun acc d => closeWorks_closeStream d acc)
    (s.im.streams.streams.filter (fun d => d.gather)) (s, (0 : Word), ([] : List (Nat × BitVec 64)))
  unfold registrarClose
  dsimp only
  generalize (s.im.streams.streams.filter (fun d => d.gather)).foldl _ _ = r at streams ⊢
  exact ⟨voidCameras r.1, r.2.1, r.2.2, streams.trans (closeWorks_voidCameras r.1), rfl⟩

/-- No other token of a close takes the gather slot. -/
def GatherSlotAlone (s : State) : Prop :=
  (∀ v, s.im.vote = some v → v.voteSlot ≠ s.im.streams.gatherSlot) ∧ (∀ e, s.im.ego = some e → e.sumSlot ≠ s.im.streams.gatherSlot)

/-- The close sets the last and the sticky mask and the gather token of the tick. -/
structure GatherClosed (s t : State) : Prop where
  frame : t = { s with sch := t.sch, cams := t.cams, aln := t.aln, ego := t.ego, hst := t.hst, mem := t.mem, out := t.out, freeCtr := t.freeCtr }
  gen : t.aln.gen = genOf s.tck.index
  masks : t.aln.maskAcc = s.aln.maskAcc ||| t.aln.maskLast
  token : GatherSlotAlone s → ∃ x, t.token s.im.streams.gatherSlot (genOf s.tck.index) = some x ∧ x.mask = t.aln.maskLast ∧ x.isVoid = false

theorem gatherClosed_masksSet {t : State} (works : CloseWorks s t) (mask : Word) (floors : List (Nat × BitVec 64)) :
    GatherClosed s (masksSet mask floors t) := by
  unfold CloseWorks at works
  have token := token_plainToken_same t.im.streams.gatherSlot {} mask 0 t
  rw [works] at token ⊢
  exact ⟨rfl, rfl, rfl, fun _ => ⟨_, token, rfl, rfl⟩⟩

/-- Work after the masks have been set leaves the close as it is, where it keeps the gather token. -/
theorem GatherClosed.extend {t u : State} (h : GatherClosed s t) (works : CloseWorks t u)
    (kept : GatherSlotAlone s →
      u.token s.im.streams.gatherSlot (genOf s.tck.index) = t.token s.im.streams.gatherSlot (genOf s.tck.index)) : GatherClosed s u := by
  unfold CloseWorks at works
  obtain ⟨frame, gen, masks, token⟩ := h
  have aln : u.aln = { t.aln with streams := u.aln.streams } := congrArg State.aln works
  refine ⟨by rw [works, frame], by rw [aln]; exact gen, by rw [aln]; exact masks, fun alone => ?_⟩
  rw [kept alone, aln]
  exact token alone

theorem GatherClosed.im {t : State} (h : GatherClosed s t) : t.im = s.im := by rw [h.frame]; rfl

theorem gatherClosed_registrarClose (s : State) : GatherClosed s (registrarClose s) := by
  obtain ⟨t, mask, floors, works, closes⟩ := registrarClose_eq s
  rw [closes]
  have set := gatherClosed_masksSet works mask floors
  have moved := set.extend (closeWorks_advanceRings _) fun _ =>
    token_congr (tokens_advanceRings _) (by rw [closeWorks_advanceRings (masksSet mask floors t)]) ..
  have voted := moved.extend (closeWorks_writeVote _) fun ⟨vote, _⟩ => token_writeVote_other (by rw [moved.im]; exact vote) _
  exact voted.extend (closeWorks_writeSummary true _) fun ⟨_, sum⟩ => token_writeSummary_other (by rw [voted.im]; exact sum) ..

theorem judgeReports_worker (worker : s.isManager = false) : judgeReports s = s := by simp [judgeReports, worker]

/-- The instant of the Gather edge, where the tick leaves its Gather phase. -/
def atGather (s : State) : State := { advanceTo s.tck.gMono s with tck.gDone := true, tck.phase := 1 }

theorem atGather_frame (q : QuietClock s) : ∃ m, atGather s = { s with tim := m, tck.gDone := true, tck.phase := 1 } := by
  have passed := timePasses_advanceTo s.tck.gMono q
  unfold atGather
  generalize advanceTo s.tck.gMono s = r at passed
  exact ⟨r.tim, by rw [passed]⟩

/-- The Gather edge of a device that is no manager closes Gather, and does nothing beside. -/
theorem exec_gatherClose_registers (gathers : s.gatherOpen = true) (registers : (atGather s).registers = true)
    (worker : (atGather s).isManager = false) : exec .gatherClose s = done (registrarClose (atGather s)) := by
  have closed := gatherClosed_registrarClose (atGather s)
  have worker' : (registrarClose (atGather s)).isManager = false := by rw [closed.frame]; exact worker
  have edge : gatherEdge s = judgeReports (if (atGather s).registers then registrarClose (atGather s) else writeSummary false (atGather s)) := rfl
  show done (if s.gatherOpen then gatherEdge s else s) = _
  rw [if_pos gathers, edge, if_pos registers, judgeReports_worker worker']

/-! ## One update (R180, R181, R185) -/

/-- Before an update makes its entry, EGO takes a correction or refuses it: the history and the count of the updates stay. -/
structure CorrectionJudged (s t : State) : Prop where
  frame : t = { s with ego := t.ego, flt := t.flt }
  hist : t.ego.hist = s.ego.hist
  cnt : tget t.ego.cnt 0 = tget s.ego.cnt 0

theorem correctionJudged_takeCorrection (e : EgoSec) (b : List Byte) (s : State) : CorrectionJudged s (takeCorrection e b s).1 := by
  unfold takeCorrection
  extract_lets +onlyGivenNames st ok new near t
  split
  · exact ⟨rfl, rfl, tget_tinc_other _ (by decide)⟩
  · exact ⟨rfl, rfl, tget_tinc_other _ (by decide)⟩

/-- A counter that may be incremented leaves every other as it is. -/
theorem tget_ite_tinc_other {c : Prop} [Decidable c] {k n i j : Nat} (h : i ≠ j) (v : Vector (BitVec k) n) :
    tget (if c then tinc v i else v) j = tget v j := by
  split
  · exact tget_tinc_other v h
  · rfl

/-- An update counts itself, and puts the pose that it reaches in front of the history. -/
structure EgoUpdated (s t : State) : Prop where
  frame : t = { s with ego := t.ego, flt := t.flt }
  cnt : tget t.ego.cnt 0 = satInc (tget s.ego.cnt 0)
  entry : ∃ p, t.ego.hist = (p :: s.ego.hist).take 512 ∧ p.mono = s.tim.mono ∧ p.flags = t.ego.flags

theorem egoUpdated_egoUpdate (e : EgoSec) (s : State) : EgoUpdated s (egoUpdate e s) := by
  unfold egoUpdate
  split
  next t took judged =>
  have corrected : CorrectionJudged s t := by
    split at judged
    · have taken := correctionJudged_takeCorrection e ‹_› s
      rw [judged] at taken
      exact taken
    · cases judged
      exact ⟨rfl, rfl, rfl⟩
  obtain ⟨frame, hist, cnt⟩ := corrected
  obtain ⟨g, f, rfl⟩ : ∃ g f, t = { s with ego := g, flt := f } := ⟨_, _, frame⟩
  extract_lets +onlyGivenNames act ego₁ s₁ u lost speeds valid med slip used dr ax v gz steerOk rate ay az toward rolled roll pitched
    pitch yaw cp cy drFrom invalid flags cnt₁ cnt₂ cnt₃ cnt₄ sat ego₂ s₂ ego₃ s₃
  have counted : tget cnt₄ 0 = satInc (tget s.ego.cnt 0) := by
    have chosen : tget s₁.ego.cnt 0 = tget s.ego.cnt 0 := (tget_ite_tinc_other (by decide) g.cnt).trans cnt
    have slipped : tget cnt₂ 0 = tget cnt₁ 0 := by
      unfold cnt₂
      split
      · rfl
      · exact tget_tinc_other _ (by decide)
    have reckoned : tget cnt₄ 0 = tget cnt₂ 0 := (tget_ite_tinc_other (by decide) cnt₃).trans (tget_ite_tinc_other (by decide) cnt₂)
    rw [reckoned, slipped, ← chosen]
    exact tget_tinc_same _ (by decide)
  have made : s₃.ego.hist = (poseNow s₂ :: s.ego.hist).take 512 := congrArg (fun l => (poseNow s₂ :: l).take 512) hist
  split
  · exact ⟨rfl, counted, _, made, rfl, rfl⟩
  · exact ⟨rfl, counted, _, made, rfl, rfl⟩

/-- An update that is due is made when its instant has come, and the judgement of DECEL follows where the state that the warden leaves
still updates. -/
theorem exec_egoUpdate_due {e : EgoSec} (declared : s.im.ego = some e) (updates : s.mode.fromArmed = true)
    (due : s.edgeBefore (nextUpdate s) = false) :
    exec .egoUpdate s = done (
      let t := settle (egoUpdate e (advanceTo (nextUpdate s) s))
      if t.mode.fromArmed = true then decelJudge (egoAx e t) t else t) := by
  show execEgoUpdate s = _
  simp only [execEgoUpdate, declared, updates, due, Bool.not_false, Bool.and_self, if_true]

/-! ## The history (R181) -/

/-- A loop that writes the entries below `m` one by one leaves in each what it writes there. -/
theorem tget_foldl_tset {α : Type} [Inhabited α] {n : Nat} (f : Nat → α) {m i : Nat} (inside : i < n) (written : i < m)
    (v : Vector α n) : tget ((List.range m).foldl (fun v i => tset v i (f i)) v) i = f i := by
  induction m with
  | zero => omega
  | succ m ih =>
    rw [List.range_succ, List.foldl_append, List.foldl_cons, List.foldl_nil]
    by_cases last : m = i
    · rw [last, tget_tset_same _ _ _ inside]
    · rw [tget_tset_other _ _ _ _ last, ih (by omega)]

theorem exec_egoHistSelect {src : Source} (hh : s.hears src = true) (hm : s.mode.fromArmed = true) (a : BitVec 9) :
    exec (.egoHistSelect src a) s = done (histSelWrite a s) :=
  congrArg done (judged_of_fromArmed hh hm (row := 14) rfl (by decide) _)

theorem histWords_histSelWrite_present {a : BitVec 9} {p : Pose} (present : s.ego.hist[a.toNat]? = some p) {i : Nat} (hi : i < 16) :
    tget (histSelWrite a s).ego.histWords i = (poseWords p).getD i 0 := by
  simp only [histSelWrite, present]
  exact tget_foldl_tset (fun i => (poseWords p).getD i 0) hi hi _

theorem histWords_histSelWrite_absent {a : BitVec 9} (absent : s.ego.hist[a.toNat]? = none) {i : Nat} (hi : i < 16) :
    tget (histSelWrite a s).ego.histWords i = 0 := by
  simp only [histSelWrite, absent]
  exact tget_foldl_tset (fun i => ([] : List Word).getD i 0) hi hi _

end

/-! ## The rows -/

theorem streamLimit_masks (n : Nat) (d : StreamDecl) (s : State) (hs : Settled s) (hq : QuietClock s)
    (declared : s.im.stream n = some d) (gathered : d.gather = true) (kind : d.kind ≠ 0) (gathers : s.gatherOpen = true)
    (registers : s.registers = true) (due : s.edgeBefore (s.tck.boundMono + d.limit * 1000) = false)
    (silent : (s.strm d.stream).delivered = false) : ∃ t, exec (.streamLimit n) s = .next t ∧
      t.aln = { s.aln with streams := tset s.aln.streams d.stream { s.strm d.stream with masked := true } } ∧
      s.tck.boundMono + d.limit * 1000 ≤ t.tim.mono ∧ TimePasses { s with aln := t.aln } t := by
  have run := exec_streamLimit_due declared gathers registers due
  obtain ⟨r, hr, passed, reached⟩ := advanceTo_reaches (s.tck.boundMono + d.limit * 1000) hq
  have strm : r.strm d.stream = s.strm d.stream := by rw [passed]; rfl
  rw [hr, limitMask_silent gathered kind (by rw [strm]; exact silent), strm] at run
  refine ⟨_, run.trans (done_of_settled (passed.settled hs)), ?_, reached, ?_⟩
  · rw [passed]; rfl
  · unfold TimePasses at *
    rw [passed]
    rfl

theorem streamLimit_delivered (n : Nat) (d : StreamDecl) (s : State) (hs : Settled s) (hq : QuietClock s)
    (declared : s.im.stream n = some d) (gathers : s.gatherOpen = true) (registers : s.registers = true)
    (due : s.edgeBefore (s.tck.boundMono + d.limit * 1000) = false) (delivered : (s.strm d.stream).delivered = true) :
    ∃ t, exec (.streamLimit n) s = .next t ∧ TimePasses s t := by
  have run := exec_streamLimit_due declared gathers registers due
  obtain ⟨r, hr, passed, -⟩ := advanceTo_reaches (s.tck.boundMono + d.limit * 1000) hq
  have strm : r.strm d.stream = s.strm d.stream := by rw [passed]; rfl
  rw [hr, limitMask_delivered (by rw [strm]; exact delivered)] at run
  exact ⟨r, run.trans (done_of_settled (passed.settled hs)), passed⟩

theorem gatherClose_closes (s : State) (hq : QuietClock s) (gathers : s.gatherOpen = true) (registers : s.registers = true)
    (worker : s.isManager = false) : ∃ u, exec .gatherClose s = .next (settle u) ∧
      u = { s with tim := u.tim, tck := u.tck, sch := u.sch, cams := u.cams, aln := u.aln, ego := u.ego, fab := u.fab, hst := u.hst, mem := u.mem, out := u.out, freeCtr := u.freeCtr } ∧
      u.tck.gDone = true ∧ u.tck.phase = 1 ∧ u.aln.gen = genOf s.tck.index ∧
      u.aln.maskAcc = s.aln.maskAcc ||| u.aln.maskLast ∧
      ((∀ v, s.im.vote = some v → v.voteSlot ≠ s.im.streams.gatherSlot) → (∀ e, s.im.ego = some e → e.sumSlot ≠ s.im.streams.gatherSlot) →
        ∃ x, u.token s.im.streams.gatherSlot (genOf s.tck.index) = some x ∧ x.mask = u.aln.maskLast ∧ x.isVoid = false) := by
  obtain ⟨m, edge⟩ := atGather_frame hq
  have run := exec_gatherClose_registers gathers (by rw [edge]; exact registers) (by rw [edge]; exact worker)
  have closed := gatherClosed_registrarClose (atGather s)
  generalize registrarClose (atGather s) = u at run closed
  rw [edge] at closed
  obtain ⟨frame, gen, masks, token⟩ := closed
  have tck : u.tck = { s.tck with gDone := true, phase := 1 } := congrArg State.tck frame
  exact ⟨u, run, by rw [frame], by rw [tck], by rw [tck], gen, masks, fun vote sum => token ⟨vote, sum⟩⟩

theorem egoUpdate_enters (e : EgoSec) (s : State) (hq : QuietClock s) (declared : s.im.ego = some e)
    (updates : s.mode.fromArmed = true) (due : s.edgeBefore (nextUpdate s) = false) :
    ∃ u, exec .egoUpdate s = .next (settle (if (settle u).mode.fromArmed = true then decelJudge (egoAx e (settle u)) (settle u) else settle u)) ∧
      u = { s with tim := u.tim, ego := u.ego, flt := u.flt } ∧ tget u.ego.cnt 0 = satInc (tget s.ego.cnt 0) ∧ nextUpdate s ≤ u.tim.mono ∧
      ∃ p, u.ego.hist = (p :: s.ego.hist).take 512 ∧ p.mono = u.tim.mono ∧ p.flags = u.ego.flags := by
  have run := exec_egoUpdate_due declared updates due
  obtain ⟨r, hr, passed, reached⟩ := advanceTo_reaches (nextUpdate s) hq
  rw [hr] at run
  obtain ⟨tim, rfl⟩ : ∃ tim, r = { s with tim := tim } := ⟨_, passed⟩
  have updated := egoUpdated_egoUpdate e { s with tim := tim }
  generalize egoUpdate e { s with tim := tim } = u at run updated
  obtain ⟨frame, cnt, p, hist, mono, flags⟩ := updated
  have now : u.tim = tim := congrArg State.tim frame
  exact ⟨u, run, by rw [frame], cnt, by rw [now]; exact reached, p, hist, by rw [now]; exact mono, flags⟩

theorem egoHistSelect_present (src : Source) (a : BitVec 9) (p : Pose) (s : State) (hs : Settled s) (hh : s.hears src = true)
    (hm : s.mode.fromArmed = true) (present : s.ego.hist[BitVec.toNat a]? = some p) : ∃ t, exec (.egoHistSelect src a) s = .next t ∧
      t = { s with gctl := t.gctl, ego := t.ego } ∧ t.ego.histSel = a ∧ (∀ i < 16, tget t.ego.histWords i = (poseWords p).getD i 0) ∧
      t.ego.hist = s.ego.hist := by
  exact ⟨_, (exec_egoHistSelect hh hm a).trans (done_of_settled hs), rfl, rfl, fun _ => histWords_histSelWrite_present present, rfl⟩

theorem egoHistSelect_absent (src : Source) (a : BitVec 9) (s : State) (hs : Settled s) (hh : s.hears src = true)
    (hm : s.mode.fromArmed = true) (absent : s.ego.hist.length ≤ BitVec.toNat a) : ∃ t, exec (.egoHistSelect src a) s = .next t ∧
      t = { s with gctl := t.gctl, ego := t.ego } ∧ t.ego.histSel = a ∧ ∀ i < 16, tget t.ego.histWords i = 0 := by
  exact ⟨_, (exec_egoHistSelect hh hm a).trans (done_of_settled hs), rfl, rfl,
    fun _ => histWords_histSelWrite_absent (List.getElem?_eq_none absent)⟩

end Sys2Proof.Machine

namespace Sys2Proof
open Machine

/-- Settles O29: a limit masks what has not come, the close writes its token after which no other takes the slot, and an update makes
one entry of the history that HIST_SEL shows. -/
theorem gatherAndEgoMotion : Obligations.GatherAndEgoMotion :=
  ⟨streamLimit_masks, streamLimit_delivered, fun s _ => gatherClose_closes s, fun e s _ => egoUpdate_enters e s, egoHistSelect_present,
    egoHistSelect_absent⟩

end Sys2Proof

/-! # The archive's window

The window accepts aligned whole reads from LOAD onward and writes nothing (R228). A read of a word without bit errors fills line 3
and draws no report (R222, R225), and answers the data of the word (R229). -/
namespace Sys2Proof.Machine

section
variable {src : Source} {s : State}

/-! ## What the window accepts (R228) -/

theorem live_arc_of_load_or_fromArmed (hm : s.mode = .load ∨ s.mode.fromArmed = true) : s.live 8 = true := by
  obtain load | armed := hm
  · simp [State.live, load, liveIn]
  · simp [State.live, liveIn_of_fromArmed armed]

theorem live_arc_of_hold_or_selftest (hm : s.mode = .hold ∨ s.mode = .selftest) : s.live 8 = false := by
  obtain hold | selftest := hm
  · simp [State.live, hold, liveIn]
  · simp [State.live, selftest, liveIn]

theorem exec_arcWindowRead_partial (hh : s.hears src = true) {o : Nat} {w : Bool} (part : o % 4 ≠ 0 ∨ w = false) (e : EccView) :
    exec (.arcWindowRead src ⟨o, w⟩ e) s = done (s.say (.read src (0x02000000 + o) (refusal stBadArg))) :=
  congrArg done ((if_neg (by simp [hh])).trans (if_pos (by simpa using part)))

theorem exec_arcWindowRead_dead (hh : s.hears src = true) (dead : s.live 8 = false) {o : Nat} (aligned : o % 4 = 0) (e : EccView) :
    exec (.arcWindowRead src ⟨o, true⟩ e) s = done (s.say (.read src (0x02000000 + o) (refusal stNotInState))) :=
  congrArg done ((if_neg (by simp [hh])).trans ((if_neg (by simp [aligned])).trans (if_pos (by simp [dead]))))

theorem exec_arcWindowRead_live (hh : s.hears src = true) (live : s.live 8 = true) {o : Nat} (aligned : o % 4 = 0) {e : EccView}
    {t : State} {w : Word} (answered : winRead (s.winAddr o) (s.showing e) = (t, w)) :
    exec (.arcWindowRead src ⟨o, true⟩ e) s = done (t.say (.read src (0x02000000 + o) w)) :=
  congrArg done ((if_neg (by simp [hh])).trans ((if_neg (by simp [aligned])).trans ((if_neg (by simp [live])).trans (by rw [answered]))))

theorem exec_arcWindowWrite_live (hh : s.hears src = true) (live : s.live 8 = true) (o : Nat) :
    exec (.arcWindowWrite src o) s = done { s with arc.winWrIgn := satInc s.arc.winWrIgn } := by
  refine congrArg done ?_
  simp [hh, live]

/-! ## Reads without bit errors (R222, R225) -/

theorem count_classAs_zero (arc : Arc) (a : Nat) : (arc.classAs 0 a).count = 0 := by
  unfold Arc.classAs
  extract_lets marked
  split
  · rfl
  · split <;> rfl

theorem classAs_zero_ne_uncorrectable (arc : Arc) (a : Nat) : arc.classAs 0 a ≠ .uncorrectable := by
  unfold Arc.classAs
  extract_lets marked
  split
  · nofun
  · split
    · nofun
    · nofun
    · rw [if_neg (by decide)]
      nofun

theorem errsAt_of_clean {arc : Arc} (clean : arc.bitErrs = []) (a : Nat) : arc.errsAt a = 0 := by
  simp [Arc.errsAt, clean]

/-- A line that shows no bit error reports nothing. -/
theorem eccLine_of_clean (clean : s.arc.bitErrs = []) (a : Nat) : eccLine a s = s := by
  have class_eq (x : Nat) : s.arc.classOf x = s.arc.classAs 0 x := by rw [Arc.classOf, errsAt_of_clean clean]
  have none_lost (x : Nat) := classAs_zero_ne_uncorrectable s.arc x
  simp [eccLine, class_eq, none_lost, count_classAs_zero, eccCorrected]

theorem fillLine3_of_clean (clean : s.arc.bitErrs = []) (empty : s.arc.line3 = none) (line : Nat) :
    fillLine3 line s = { s with arc.line3 := some (line, 0, 0) } := by
  simp only [fillLine3, empty, fillLine3.fill, eccLine_of_clean clean, errsAt_of_clean clean]

/-! ## A window read (R229) -/

/-- A code word lies in one sector. -/
theorem sectorOf_word (a : Nat) : sectorOf (a / 32 * 32) = sectorOf a := by
  have offset : a / 32 * 32 % 0x08000000 = a % 0x08000000 / 32 * 32 := by omega
  have bank : (0x08000000 ≤ a / 32 * 32) = (0x08000000 ≤ a) := by rw [eq_iff_iff]; omega
  have beyond : (0x10000000 ≤ a / 32 * 32) = (0x10000000 ≤ a) := by rw [eq_iff_iff]; omega
  simp only [sectorOf, offset, bank, beyond]
  generalize a % 0x08000000 = off
  have small : (off / 32 * 32 < 0x10000) = (off < 0x10000) := by rw [eq_iff_iff]; omega
  have large : (off / 32 * 32 < 0x07F90000) = (off < 0x07F90000) := by rw [eq_iff_iff]; omega
  have small_index : off / 32 * 32 / 0x2000 = off / 0x2000 := by omega
  have large_index : (off / 32 * 32 - 0x10000) / 0x40000 = (off - 0x10000) / 0x40000 := by omega
  simp only [small, large, small_index, large_index]

/-- The word at an address, in a sector that is whole, where its cells show no error. -/
theorem classAs_zero_of_stored {arc : Arc} {a i : Nat} {b : Bool} {bytes : List Byte} (sector : sectorOf a = some (b, i))
    (whole : (arc.hdr b i).incomplete = false) (stored : wfind arc.words (a / 32) = some (.prog bytes)) :
    arc.classAs 0 (a / 32 * 32) = .programmed bytes 0 := by
  simp [Arc.classAs, sectorOf_word, sector, whole, stored]

theorem bank_ne_of_unoccupied {b : Bool} (free : s.occupied b = false) :
    (∀ e, s.arc.erase = some e → e.bank ≠ b) ∧ ∀ o, s.devNow = some o → o.bank ≠ b := by
  obtain ⟨host, device⟩ := Bool.or_eq_false_iff.mp free
  obtain ⟨erase, -⟩ := Bool.or_eq_false_iff.mp host
  refine ⟨fun e running => ?_, fun o running => ?_⟩
  · rw [running] at erase
    exact of_decide_eq_false erase
  · rw [running] at device
    exact of_decide_eq_false device

theorem winRead_of_stored {a i : Nat} {b : Bool} {bytes : List Byte} (clean : s.arc.bitErrs = []) (sector : sectorOf a = some (b, i))
    (shown : s.hides b i = false) (free : s.occupied b = false) (empty : s.arc.line3 = none)
    (whole : (s.arc.hdr b i).incomplete = false) (stored : wfind s.arc.words (a / 32) = some (.prog bytes)) :
    winRead a s = ({ s with arc := { s.arc with
      line3 := some (a / 64 * 64, 0, 0), winLast := stOk, winTorn := false, eccLast := 0 } }, BitVec.ofNat 32 (at32 bytes (a % 32))) := by
  obtain ⟨erase, device⟩ := bank_ne_of_unoccupied free
  have host : s.arc.hostOccupies b = false := (Bool.or_eq_false_iff.mp free).1
  have held : Arc.held3 { s.arc with line3 := some (a / 64 * 64, 0, 0) } (a / 32 * 32) = 0 := by simp [Arc.held3]
  have word : Arc.classAs { s.arc with line3 := some (a / 64 * 64, 0, 0) } 0 (a / 32 * 32) = .programmed bytes 0 :=
    classAs_zero_of_stored sector whole stored
  simp only [winRead, sector, shown, host, fillLine3_of_clean clean empty, held, word, Bool.false_eq_true, if_false]
  rw [if_neg]
  · rfl
  · rw [Bool.or_eq_true, Option.any_eq_true]
    rintro (erasing | ⟨o, running, erasing⟩)
    · split at erasing
      · next e running => exact erase e running (of_decide_eq_true erasing)
      · nomatch erasing
    · exact device o running (of_decide_eq_true (Bool.and_eq_true_iff.mp erasing).2)

theorem winRead_of_outside {a : Nat} (outside : sectorOf a = none) : winRead a s = winRefuse stProtected s := by
  simp only [winRead, outside]

theorem arcWindowRead_answers {o i : Nat} {b : Bool} {bytes : List Byte} (hs : Settled s) (hh : s.hears src = true)
    (hm : s.mode.fromArmed = true) (aligned : o % 4 = 0) (sector : sectorOf (s.winAddr o) = some (b, i)) (shown : s.hides b i = false)
    (free : s.occupied b = false) (empty : s.arc.line3 = none) (whole : (s.arc.hdr b i).incomplete = false)
    (stored : wfind s.arc.words (s.winAddr o / 32) = some (.prog bytes)) :
    ∃ t, exec (.arcWindowRead src ⟨o, true⟩ []) s = .next t ∧
      t = { s with arc := t.arc, flt := t.flt, hst := t.hst, out := t.out, freeCtr := t.freeCtr } ∧ t.arc.winLast = 0x00 ∧
      t.arc.winTorn = false ∧
      t.out = .read src (0x02000000 + o) (BitVec.ofNat 32 (at32 bytes (s.winAddr o % 32))) :: s.out ∧ t.arc.words = s.arc.words := by
  have answered := winRead_of_stored (s := s.showing []) rfl sector shown free empty whole stored
  have read := exec_arcWindowRead_live hh (live_arc_of_load_or_fromArmed (.inr hm)) aligned answered
  exact ⟨_, read.trans (done_of_settled ⟨hs.1, hs.2⟩), rfl, rfl, rfl, rfl, rfl⟩

theorem arcWindowRead_refused {o : Nat} {e : EccView} (hs : Settled s) (hh : s.hears src = true) (hm : s.mode.fromArmed = true)
    (aligned : o % 4 = 0) (outside : sectorOf (s.winAddr o) = none) :
    ∃ t, exec (.arcWindowRead src ⟨o, true⟩ e) s = .next t ∧
      t = { s with arc := t.arc, flt := t.flt, hst := t.hst, out := t.out, freeCtr := t.freeCtr } ∧ t.arc.winLast = 0x04 ∧
      t.out = .read src (0x02000000 + o) (refusal 0x04) :: s.out := by
  have answered := winRead_of_outside (s := s.showing e) outside
  have read := exec_arcWindowRead_live hh (live_arc_of_load_or_fromArmed (.inr hm)) aligned answered
  exact ⟨_, read.trans (done_of_settled ⟨hs.1, hs.2⟩), rfl, rfl, rfl⟩

theorem exec_eccWarnWrite (hh : s.hears src = true) (hm : s.mode.fromArmed = true) (v : BitVec 2) :
    exec (.eccWarnWrite src v) s = done (eccWarnWrite v s) :=
  congrArg done (judged_of_fromArmed hh hm (row := 8) rfl (by decide) _)

end

end Sys2Proof.Machine

/-! # The repair of the firmware copies (R217)

`State.unprogrammed` is what reads of words without bit errors and programs of a device agent cannot change: everything but the
array, whose headers and marks of valid copies are among what stays, and the counter for free values. -/
namespace Sys2Proof.Machine

section
variable {s : State}

/-- The headers and the marks of valid firmware copies, and the rest of the array left out. -/
def Arc.unprogrammed (a : Arc) : Arc := { hdrs := a.hdrs, fw0 := a.fw0, fw1 := a.fw1 }

/-- The state without what reads and programs of words may change. -/
def State.unprogrammed (s : State) : State := { s with arc := s.arc.unprogrammed, freeCtr := 0 }

theorem frame_of_unprogrammed {t : State} (h : t.unprogrammed = s.unprogrammed) :
    t = { s with arc := t.arc, freeCtr := t.freeCtr } := by
  have e : t = { t.unprogrammed with arc := t.arc, freeCtr := t.freeCtr } := rfl
  rw [h] at e
  exact e

/-! ## Reads over the controller's lines -/

theorem errLines_of_clean {arc : Arc} (clean : arc.bitErrs = []) (a len : Nat) : arc.errLines a len = [] := by
  simp [Arc.errLines, clean]

theorem fillCtl_clean_unprogrammed (l : Nat) (s : State) : (fillCtl [] l s).unprogrammed = s.unprogrammed := by
  unfold fillCtl
  split
  · rfl
  · rfl

theorem ctlRead_unprogrammed (clean : s.arc.bitErrs = []) (a len : Nat) : (ctlRead a len s).unprogrammed = s.unprogrammed := by
  unfold ctlRead
  rw [errLines_of_clean clean]
  refine List.foldlRecOn (motive := fun t : State => t.unprogrammed = s.unprogrammed) _ _ rfl fun t kept k _ => ?_
  dsimp only
  split_ifs
  · exact kept
  · rw [fillCtl_clean_unprogrammed, fillCtl_clean_unprogrammed, kept]

/-! ## Programs of a device agent -/

theorem devWord_unprogrammed (a : Nat) (bytes : List Byte) (s : State) : (devWord a bytes s).unprogrammed = s.unprogrammed := by
  unfold devWord
  split_ifs <;> rfl

theorem devRun_unprogrammed (words : List (Nat × List Byte)) (s : State) : (devRun words s).unprogrammed = s.unprogrammed := by
  cases words with
  | nil => rfl
  | cons w ws =>
    show (List.foldl _ s (w :: ws)).unprogrammed = s.unprogrammed
    refine List.foldlRecOn (motive := fun t : State => t.unprogrammed = s.unprogrammed) _ _ rfl fun t kept e _ => ?_
    rw [devWord_unprogrammed, kept]

theorem copyFirmware_unprogrammed (clean : s.arc.bitErrs = []) (fromBank : Bool) :
    (copyFirmware fromBank s).unprogrammed = s.unprogrammed :=
  (devRun_unprogrammed ..).trans (ctlRead_unprogrammed clean ..)

/-! ## FIRMWARE_REPAIR -/

theorem exec_firmwareRepair_second (hm : s.mode.fromArmed = true) (free : s.arrayFree = true) (valid : s.arc.fw0 = true)
    (bad : s.arc.fw1 = false) (unmarked : s.arc.markedList = []) :
    exec (.firmwareRepair true) s = done { copyFirmware false s with arc.fw1 := true } := by
  show execFirmwareRepair true s = _
  simp [execFirmwareRepair, hm, free, valid, bad, unmarked]

/-- What stands where the second copy is marked valid after words have been read and programmed. -/
theorem done_marked_of_unprogrammed {u : State} (hs : Settled s) (valid : s.arc.fw0 = true) (copied : u.unprogrammed = s.unprogrammed) :
    ∃ t, done { u with arc.fw1 := true } = .next t ∧
      t = { s with arc := t.arc, flt := t.flt, hst := t.hst, out := t.out, freeCtr := t.freeCtr } ∧ t.arc.fw1 = true ∧ t.arc.fw0 = true ∧
      t.arc.hdrs = s.arc.hdrs := by
  have frame := frame_of_unprogrammed copied
  have settled : Settled { u with arc.fw1 := true } := by rw [frame]; exact hs
  have fw0 : u.arc.fw0 = s.arc.fw0 := (congrArg (fun t => t.arc.fw0) copied :)
  have hdrs : u.arc.hdrs = s.arc.hdrs := (congrArg (fun t => t.arc.hdrs) copied :)
  refine ⟨_, done_of_settled settled, ?_, rfl, fw0.trans valid, hdrs⟩
  rw [frame]

theorem firmwareRepair_second (hs : Settled s) (hm : s.mode.fromArmed = true) (free : s.arrayFree = true) (valid : s.arc.fw0 = true)
    (bad : s.arc.fw1 = false) (unmarked : s.arc.markedList = []) (clean : s.arc.bitErrs = []) :
    ∃ t, exec (.firmwareRepair true) s = .next t ∧
      t = { s with arc := t.arc, flt := t.flt, hst := t.hst, out := t.out, freeCtr := t.freeCtr } ∧ t.arc.fw1 = true ∧ t.arc.fw0 = true ∧
      t.arc.hdrs = s.arc.hdrs := by
  rw [exec_firmwareRepair_second hm free valid bad unmarked]
  exact done_marked_of_unprogrammed hs valid (copyFirmware_unprogrammed clean false)

end

end Sys2Proof.Machine

namespace Sys2Proof
open Machine

/-- Settles O39: an access is refused before its place is looked up, and a write reaches nothing but its counter. -/
theorem archiveWindowAccepts : Obligations.ArchiveWindowAccepts := by
  refine ⟨fun src o w e s hs hh part => ?_, fun src o e s hs hh hm aligned => ?_, fun src o s hs hh hm => ?_⟩
  · exact (exec_arcWindowRead_partial hh part e).trans (done_of_settled hs)
  · exact (exec_arcWindowRead_dead hh (live_arc_of_hold_or_selftest hm) aligned e).trans (done_of_settled hs)
  · have live := live_arc_of_load_or_fromArmed hm
    exact ⟨live, (exec_arcWindowWrite_live hh live o).trans (done_of_settled hs)⟩

/-- Settles O38: a read without bit errors only fills line 3 and answers, and a repair only reads and programs words before it marks the
copy valid. -/
theorem archiveWindow : Obligations.ArchiveWindow := by
  refine ⟨fun _ _ _ _ _ _ => arcWindowRead_answers, fun _ _ _ _ => arcWindowRead_refused, fun src n s hs hh hm given => ?_,
    fun src s hs hh hm => ?_, fun _ => firmwareRepair_second⟩
  · rw [exec_eccWarnWrite hh hm, eccWarnWrite, if_neg given]
    exact done_of_settled hs
  · exact (exec_eccWarnWrite hh hm 0).trans (done_of_settled hs)

end Sys2Proof

/-! # The messages that list and give out records and entries

Each reads the array and answers: `answered_after_read` says what the reads and the answer leave, and each message's own lemma says what
it answers in terms of the state before its reads (R226, R399). -/
namespace Sys2Proof.Machine

section
variable {r : MbxReq} {s : State}

/-- An answer that follows reads of the array alone, with the bit errors that the cells show. -/
theorem answered_after_read (current : s.mbx.current = some r) {e : EccView} {v : State} (read : v.unread = (s.showing e).unread)
    (st : Byte) (p : List Byte) :
    answerMbx st p v = { s with
        arc := (answerMbx st p v).arc, flt := (answerMbx st p v).flt, hst := (answerMbx st p v).hst
        mbx := (answerMbx st p v).mbx, out := (answerMbx st p v).out } ∧
      Replied r st p s (answerMbx st p v) ∧ (answerMbx st p v).arc.words = s.arc.words := by
  refine ⟨?_, replied_answerMbx_of_mbx current (mbx_of_unread (s := s.showing e) read) st p, ?_⟩
  · rw [answerMbx_frame, frame_of_unread read]
    rfl
  · rw [answerMbx_arc, words_of_unread read]
    rfl

/-! ## What a reader makes of a state does not depend on earlier reads -/

theorem incSec_of_unread {t : State} (h : t.unread = s.unread) : t.incSec = s.incSec :=
  (congrArg State.incSec h :)

theorem recClose_of_unread {t : State} (h : t.unread = s.unread) : recClose t = recClose s := by
  have classes : t.arc.classOf = s.arc.classOf := reader_of_unread Arc.classOf classOf_unread h
  have area : t.incArea = s.incArea := (congrArg State.incArea h :)
  have inc : t.inc = s.inc := (congrArg State.inc h :)
  have free : t.freeCtr = s.freeCtr := (congrArg State.freeCtr h :)
  funext f
  unfold recClose
  rw [classes, area, inc, free]

theorem listEntry_of_unread {t : State} (h : t.unread = s.unread) : listEntry t = listEntry s := by
  funext f
  unfold listEntry
  rw [recClose_of_unread h]

theorem recordBytes_of_unread {t : State} (h : t.unread = s.unread) (f : FoundRec) (ofs len : Nat) :
    (recordBytes f ofs len t).2 = (recordBytes f ofs len s).2 :=
  (congrArg (fun x => (recordBytes f ofs len x).2) h :)

@[simp] theorem recordBytes_unread (f : FoundRec) (ofs len : Nat) (s : State) : (recordBytes f ofs len s).1.unread = s.unread := by
  simp [recordBytes]

theorem macBefore_unread (a : Arc) : a.unread.macBefore = a.macBefore := rfl

theorem ledgerSpan_unread (a : Arc) : a.unread.ledgerSpan = a.ledgerSpan := rfl

theorem entryAt_unread (key : BitVec 256) (a : Arc) : entryAt key a.unread = entryAt key a := by
  funext p n
  unfold entryAt
  rw [classOf_unread, macBefore_unread, ledgerSpan_unread]
  rfl

theorem foundEntries_of_unread {t : State} (h : t.unread = s.unread) (key : BitVec 256) :
    foundEntries key t.arc = foundEntries key s.arc :=
  reader_of_unread (foundEntries key) (fun a => by unfold foundEntries; rw [entryAt_unread]) h

/-! ## INC_LIST -/

theorem ArrayServed.drawn (s : State) : ArrayServed s s.drawn := rfl

/-- The records from a number on, in ascending order, as INC_LIST answers them. -/
def listedFrom (n : Nat) (s : State) : List Byte :=
  ((((recordsIn s.arc s.incArea).filter (fun f => decide (n ≤ f.seq))).mergeSort (fun a b => a.seq ≤ b.seq)).take 255).flatMap (listEntry s)

theorem listedFrom_scanArea (n : Nat) (s : State) : listedFrom n (scanArea s) = listedFrom n s := by
  have read := scanArea_unread s
  unfold listedFrom
  rw [recordsIn_of_unread read, incArea_scanArea, listEntry_of_unread read]

theorem exec_incList (h : Executes 0x20 r s) :
    exec .incList s = .next (settle (answerMbx stOk (listedFrom (at32 r.msg.payload 0) s) (scanArea s).drawn)) := by
  rw [← listedFrom_scanArea]
  exact withReq_of_executes h (fun r s => incList r (scanArea s))

theorem incList_answers (r : MbxReq) (s : State) (h : Executes 0x20 r s) : ∃ u, exec .incList s = .next (settle u) ∧
    u = { s with arc := u.arc, flt := u.flt, hst := u.hst, mbx := u.mbx, out := u.out, freeCtr := u.freeCtr } ∧
    Replied r 0x00 (listedFrom (at32 r.msg.payload 0) s) s u ∧ u.arc.words = s.arc.words := by
  have read := scanArea_unread s
  have mbx : (scanArea s).drawn.mbx = s.mbx := (mbx_of_unread read :)
  have served := (ArrayServed.of_unread read).trans (ArrayServed.drawn _)
  refine ⟨_, exec_incList h, served.trans (ArrayServed.answerMbx ..), replied_answerMbx_of_mbx h.current mbx .., ?_⟩
  rw [answerMbx_arc, State.drawn_arc, words_of_unread read]

/-! ## INC_EXPORT -/

theorem exec_incExport (h : Executes 0x21 r s) (e : EccView) :
    exec (.incExport e) s = .next (settle (incExport r (scanArea (s.showing e)))) :=
  withReq_of_executes (s := s.showing e) h (fun r s => incExport r (scanArea s))

theorem incExport_of_absent (absent : ∀ f ∈ recordsIn s.arc s.incArea, f.seq ≠ at32 r.msg.payload 0) :
    incExport r (scanArea s) = answerMbx stNotPresent [] (scanArea s) := by
  have none_found : (recordsIn s.arc s.incArea).find? (fun f => f.seq = at32 r.msg.payload 0) = none := by simpa using absent
  rw [incExport, find_scanArea, none_found]

variable {f : FoundRec} (found : (recordsIn s.arc s.incArea).find? (fun f => f.seq = at32 r.msg.payload 0) = some f)
include found

theorem incExport_of_outside (outside : 4064 < at32 r.msg.payload 8 ∨ at32 r.msg.payload 8 % 4 ≠ 0 ∨
      s.incSec.recSectors * 0x40000 < at32 r.msg.payload 4 + at32 r.msg.payload 8) :
    incExport r (scanArea s) = answerMbx stBadArg [] (scanArea s) := by
  rw [incExport, find_scanArea, found, incSec_of_unread (scanArea_unread s)]
  exact if_pos (by simpa [or_assoc] using outside)

theorem incExport_of_inside (fits : at32 r.msg.payload 8 ≤ 4064) (words : at32 r.msg.payload 8 % 4 = 0)
    (inside : at32 r.msg.payload 4 + at32 r.msg.payload 8 ≤ s.incSec.recSectors * 0x40000) :
    incExport r (scanArea s) =
      if (recordBytes f (at32 r.msg.payload 4) (at32 r.msg.payload 8) s).2.2 then
        answerMbx stCrcError [] (recordBytes f (at32 r.msg.payload 4) (at32 r.msg.payload 8) (scanArea s)).1
      else
        answerMbx stOk (recordBytes f (at32 r.msg.payload 4) (at32 r.msg.payload 8) s).2.1
          (recordBytes f (at32 r.msg.payload 4) (at32 r.msg.payload 8) (scanArea s)).1 := by
  rw [incExport, find_scanArea, found, incSec_of_unread (scanArea_unread s)]
  dsimp only
  rw [recordBytes_of_unread (scanArea_unread s)]
  exact if_neg (by simp [fits, words, inside])

end

section
variable (r : MbxReq) (e : EccView) (f : FoundRec) (s : State) (h : Executes 0x21 r s)
include h

theorem incExport_answers_absent (absent : ∀ f ∈ recordsIn (s.showing e).arc s.incArea, f.seq ≠ at32 r.msg.payload 0) :
    ∃ u, exec (.incExport e) s = .next (settle u) ∧
      u = { s with arc := u.arc, flt := u.flt, hst := u.hst, mbx := u.mbx, out := u.out } ∧ Replied r 0x0A [] s u ∧
      u.arc.words = s.arc.words := by
  have run := exec_incExport h e
  rw [incExport_of_absent (s := s.showing e) absent] at run
  exact ⟨_, run, answered_after_read h.current (scanArea_unread _) ..⟩

variable (found : (recordsIn (s.showing e).arc s.incArea).find? (fun f => f.seq = at32 r.msg.payload 0) = some f)
include found

theorem incExport_answers_outside (outside : 4064 < at32 r.msg.payload 8 ∨ at32 r.msg.payload 8 % 4 ≠ 0 ∨
      s.incSec.recSectors * 0x40000 < at32 r.msg.payload 4 + at32 r.msg.payload 8) :
    ∃ u, exec (.incExport e) s = .next (settle u) ∧
      u = { s with arc := u.arc, flt := u.flt, hst := u.hst, mbx := u.mbx, out := u.out } ∧ Replied r 0x03 [] s u ∧
      u.arc.words = s.arc.words := by
  have run := exec_incExport h e
  rw [incExport_of_outside (s := s.showing e) found outside] at run
  exact ⟨_, run, answered_after_read h.current (scanArea_unread _) ..⟩

theorem incExport_answers_inside (fits : at32 r.msg.payload 8 ≤ 4064) (words : at32 r.msg.payload 8 % 4 = 0)
    (inside : at32 r.msg.payload 4 + at32 r.msg.payload 8 ≤ s.incSec.recSectors * 0x40000) :
    ∃ u, exec (.incExport e) s = .next (settle u) ∧
      u = { s with arc := u.arc, flt := u.flt, hst := u.hst, mbx := u.mbx, out := u.out } ∧ u.arc.words = s.arc.words ∧
      ((recordBytes f (at32 r.msg.payload 4) (at32 r.msg.payload 8) (s.showing e)).2.2 = false →
        Replied r 0x00 (recordBytes f (at32 r.msg.payload 4) (at32 r.msg.payload 8) (s.showing e)).2.1 s u) ∧
      ((recordBytes f (at32 r.msg.payload 4) (at32 r.msg.payload 8) (s.showing e)).2.2 = true → Replied r 0x06 [] s u) := by
  have run := exec_incExport h e
  rw [incExport_of_inside (s := s.showing e) found fits words inside] at run
  have read := (recordBytes_unread f (at32 r.msg.payload 4) (at32 r.msg.payload 8) (scanArea (s.showing e))).trans (scanArea_unread _)
  generalize (recordBytes f (at32 r.msg.payload 4) (at32 r.msg.payload 8) (s.showing e)).2 = x at run ⊢
  obtain ⟨bytes, lost⟩ := x
  cases lost with
  | false =>
    obtain ⟨frame, replied, kept⟩ := answered_after_read h.current read stOk bytes
    exact ⟨_, run, frame, kept, fun _ => replied, nofun⟩
  | true =>
    obtain ⟨frame, replied, kept⟩ := answered_after_read h.current read stCrcError []
    exact ⟨_, run, frame, kept, nofun, fun _ => replied⟩

end

/-! ## LDG_EXPORT -/

section
variable {r : MbxReq} {s : State}

/-- The entries of consecutive SEQ that LDG_EXPORT is asked for, as far as they stand in the ledger. -/
def exportRun (r : MbxReq) (s : State) : List FoundEntry :=
  (runFrom (at32 r.msg.payload 0) ((foundEntries s.otp.deviceKey s.arc).mergeSort (fun a b => a.seq ≤ b.seq))).take (at32 r.msg.payload 4)

/-- Where no word of the ledger is UNCORRECTABLE, the entries found are all that there is to answer. -/
theorem ldgExport_of_readable (readable : s.arc.uncorrIn ledgerBase 0x10000 = false) :
    ldgExport r s = match exportRun r s with
      | [] => answerMbx stNotPresent [] (streamS ledgerBase 0x10000 s)
      | f :: l => answerMbx stOk (digestBytes f.last ++ fitEntries (f :: l) 4056) (streamS ledgerBase 0x10000 s) := by
  have read := streamS_unread ledgerBase 0x10000 s
  have key : (streamS ledgerBase 0x10000 s).otp = s.otp := (congrArg State.otp read :)
  simp only [ldgExport, readable, foundEntries_of_unread read, key, Bool.false_and, Bool.false_eq_true, if_false]
  rw [← exportRun]
  cases exportRun r s <;> rfl

theorem exec_ldgExport (h : Executes 0x30 r s) : exec .ldgExport s = .next (settle (ldgExport r s)) := withReq_of_executes h ldgExport

variable (h : Executes 0x30 r s) (readable : s.arc.uncorrIn ledgerBase 0x10000 = false)
include h readable

theorem ldgExport_answers_run {f : FoundEntry} {l : List FoundEntry} (run : exportRun r s = f :: l) :
    ∃ u, exec .ldgExport s = .next (settle u) ∧
      u = { s with arc := u.arc, flt := u.flt, hst := u.hst, mbx := u.mbx, out := u.out } ∧
      Replied r 0x00 (digestBytes f.last ++ fitEntries (f :: l) 4056) s u ∧ u.arc.words = s.arc.words := by
  have made := exec_ldgExport h
  rw [ldgExport_of_readable readable, run] at made
  exact ⟨_, made, answered_after_read h.current (e := s.arc.bitErrs) (streamS_unread ..) ..⟩

theorem ldgExport_answers_none (run : exportRun r s = []) :
    ∃ u, exec .ldgExport s = .next (settle u) ∧
      u = { s with arc := u.arc, flt := u.flt, hst := u.hst, mbx := u.mbx, out := u.out } ∧ Replied r 0x0A [] s u ∧
      u.arc.words = s.arc.words := by
  have made := exec_ldgExport h
  rw [ldgExport_of_readable readable, run] at made
  exact ⟨_, made, answered_after_read h.current (e := s.arc.bitErrs) (streamS_unread ..) ..⟩

end

end Sys2Proof.Machine

namespace Sys2Proof
open Machine

/-- Settles O51: each message reads the array, which changes nothing that it answers from, and answers. -/
theorem mailboxMessages : Obligations.MailboxMessages :=
  ⟨incList_answers, incExport_answers_absent, incExport_answers_outside, incExport_answers_inside,
    fun _ _ _ _ h readable run => ldgExport_answers_run h readable run, fun _ _ h readable run => ldgExport_answers_none h readable run⟩

end Sys2Proof

/-! # O6 and O4: what a step leaves of the queue, and that every command answers -/
namespace Sys2Proof.Machine

theorem pending_of_kept {s t : State} {v : BitVec 16} {l : List Instr}
    (h : t.kept = { s with otp.floor := v, pending := l }.kept) : t.pending = l :=
  congrArg Prod.snd h

/-- A slice's test or restoration ends through `done`, as does a command that finds no slice in that phase. -/
theorem execSliceTestEnd_answers (r : SliceOutcome) (s : State) : ∃ t, execSliceTestEnd r s = .next t ∧ Settled t := by
  unfold execSliceTestEnd
  split
  · exact done_settled _
  · exact done_settled _

theorem execSliceLatestEnd_answers (s : State) : ∃ t, execSliceLatestEnd s = .next t ∧ Settled t := by
  unfold execSliceLatestEnd
  split
  · exact done_settled _
  · exact done_settled _

theorem execSliceRestoreEnd_answers (s : State) : ∃ t, execSliceRestoreEnd s = .next t ∧ Settled t := by
  unfold execSliceRestoreEnd
  split
  · exact done_settled _
  · exact done_settled _

end Sys2Proof.Machine

namespace Sys2Proof
open Machine

/-- Settles O6: a step keeps `State.kept`, whose queue is what is left without the command at the front. -/
theorem queueOnlyShrinks : Obligations.QueueOnlyShrinks := by
  intro s t h
  obtain ⟨_, _, kept⟩ := step_kept h
  exact pending_of_kept kept

/-- Settles O4: every meaning answers through `done`; the three ends of a slice do so on each of their paths. -/
theorem everyCommandAnswers : Obligations.EveryCommandAnswers := by
  intro c s
  cases c with
  | sliceTestEnd r => exact execSliceTestEnd_answers r s
  | sliceLatestEnd => exact execSliceLatestEnd_answers s
  | sliceRestoreEnd => exact execSliceRestoreEnd_answers s
  | _ => exact done_settled _

end Sys2Proof

/-! # O33: the archive's command sequence -/
namespace Sys2Proof.Machine

section
variable {src : Source} {s : State} {q : ArcSeq}

/-! ## Writes of the sequence's registers (R231) -/

theorem arcJudged_of_fromArmed (hh : s.hears src = true) (hm : s.mode.fromArmed = true) (a : Nat) (f : State → State) :
    arcJudged src a f s = f s := by
  simp [arcJudged, hh, live_arc_of_load_or_fromArmed (.inr hm)]

theorem exec_arcKey (hh : s.hears src = true) (hm : s.mode.fromArmed = true) (k : Byte) :
    exec (.arcKey src k) s = done (keyWrite src k s) :=
  congrArg done (arcJudged_of_fromArmed hh hm ..)

theorem exec_arcSequenceWrite (hh : s.hears src = true) (hm : s.mode.fromArmed = true) (r : ArcReg) (v : Word) :
    exec (.arcSequenceWrite src r v) s = done (seqWrite src r v s) :=
  congrArg done (arcJudged_of_fromArmed hh hm ..)

/-! ## The limits (R232) -/

theorem seqLapse_of_none (open_ : s.arc.seq = none) : seqLapse s = s := by
  simp [seqLapse, open_]

/-- The second key may come until 1 µs after the first. -/
theorem seqLapse_of_key1 (open_ : s.arc.seq = some q) (step : q.step = .key1) (inTime : s.tim.mono ≤ q.key1 + 1000) :
    seqLapse s = s := by
  simp [seqLapse, open_, step, State.mono, Nat.not_lt.mpr inTime]

/-- The rest may come until 1 ms after the second. -/
theorem seqLapse_of_keys (open_ : s.arc.seq = some q) (step : q.step ≠ .key1) (inTime : s.tim.mono ≤ q.key2 + 1000000) :
    seqLapse s = s := by
  simp [seqLapse, open_, step, State.mono, Nat.not_lt.mpr inTime]

theorem seqFail_of_open (open_ : s.arc.seq = some q) (st : Byte) :
    seqFail st s = { s with arc.seq := none, arc.stat := st, arc.echo := q.step.code.getD 0, arc.cnt := tinc s.arc.cnt 3 } := by
  simp [seqFail, open_, arcStat, arcCount]

/-- What changes the archive alone leaves nothing for the warden or the ports. -/
theorem done_of_arc (hs : Settled s) (a : Arc) : done { s with arc := a } = .next { s with arc := a } :=
  done_of_settled hs

/-! ## The keys -/

theorem arcKey_opens (hs : Settled s) (hh : s.hears src = true) (hm : s.mode.fromArmed = true) (closed : s.arc.seq = none) :
    exec (.arcKey src 0xA9) s = .next { s with arc.seq := some { src := src, step := .key1, key1 := s.tim.mono, key2 := 0 } } := by
  have taken : keyWrite src 0xA9 s = { s with arc.seq := some { src := src, step := .key1, key1 := s.tim.mono, key2 := 0 } } := by
    simp [keyWrite, seqLapse_of_none closed, closed, State.mono]
  rw [exec_arcKey hh hm, taken]
  exact done_of_arc hs _

theorem arcKey_second (hs : Settled s) (hh : s.hears src = true) (hm : s.mode.fromArmed = true) (open_ : s.arc.seq = some q)
    (own : q.src = src) (step : q.step = .key1) (inTime : s.tim.mono ≤ q.key1 + 1000) :
    exec (.arcKey src 0x6C) s = .next { s with arc.seq := some { q with key2 := s.tim.mono, step := .key2 } } := by
  have taken : keyWrite src 0x6C s = { s with arc.seq := some { q with key2 := s.tim.mono, step := .key2 } } := by
    simp [keyWrite, seqLapse_of_key1 open_ step inTime, open_, own, step, seqStep, State.mono]
  rw [exec_arcKey hh hm, taken]
  exact done_of_arc hs _

theorem arcKey_wrong {k : Byte} (hs : Settled s) (hh : s.hears src = true) (hm : s.mode.fromArmed = true) (open_ : s.arc.seq = some q)
    (own : q.src = src) (step : q.step = .key1) (inTime : s.tim.mono ≤ q.key1 + 1000) (wrong : k ≠ 0x6C) :
    exec (.arcKey src k) s = .next { s with arc.seq := none, arc.stat := 0x05, arc.echo := 0, arc.cnt := tinc s.arc.cnt 3 } := by
  have failed : keyWrite src k s = seqFail stKeyError s := by
    simp only [keyWrite, seqLapse_of_key1 open_ step inTime, open_]
    rw [if_neg (not_not_intro own), if_neg (by simpa using fun _ => wrong)]
  rw [exec_arcKey hh hm, failed, seqFail_of_open open_, step]
  exact done_of_arc hs _

theorem arcKey_foreign {k : Byte} (hs : Settled s) (hh : s.hears src = true) (hm : s.mode.fromArmed = true)
    (open_ : s.arc.seq = some q) (foreign : q.src ≠ src) (step : q.step = .key1) (inTime : s.tim.mono ≤ q.key1 + 1000) :
    exec (.arcKey src k) s = .next { s with arc.seqBusy := satInc s.arc.seqBusy } := by
  have counted : keyWrite src k s = { s with arc.seqBusy := satInc s.arc.seqBusy } := by
    simp [keyWrite, seqLapse_of_key1 open_ step inTime, open_, foreign]
  rw [exec_arcKey hh hm, counted]
  exact done_of_arc hs _

/-! ## The command and the address -/

theorem arcSequenceWrite_cmd {v : Word} (hs : Settled s) (hh : s.hears src = true) (hm : s.mode.fromArmed = true)
    (open_ : s.arc.seq = some q) (own : q.src = src) (step : q.step = .key2) (inTime : s.tim.mono ≤ q.key2 + 1000000) :
    exec (.arcSequenceWrite src .cmd v) s = .next { s with arc.seq := some { q with step := .cmd (BitVec.setWidth 8 v) } } := by
  have taken : seqWrite src .cmd v s = seqStep q (.cmd (v.setWidth 8)) s := by
    simp [seqWrite, seqLapse_of_keys open_ (by simp [step]) inTime, open_, own, step]
  rw [exec_arcSequenceWrite hh hm, taken]
  exact done_of_arc hs _

/-- The address of a command that takes data words (R234). -/
theorem arcSequenceWrite_addr {v : Word} {c : Byte} (hs : Settled s) (hh : s.hears src = true) (hm : s.mode.fromArmed = true)
    (open_ : s.arc.seq = some q) (own : q.src = src) (step : q.step = .cmd c) (words : arcWords c ≠ 0)
    (inTime : s.tim.mono ≤ q.key2 + 1000000) :
    exec (.arcSequenceWrite src .addr v) s = .next { s with
      arc.seq := some { q with step := .addr c (BitVec.toNat v % 0x10000000) [] (arcWords c) } } := by
  have taken : seqWrite src .addr v s = seqStep q (.addr c (v.toNat % 0x10000000) [] (arcWords c)) s := by
    simp [seqWrite, seqLapse_of_keys open_ (by simp [step]) inTime, open_, own, step, words]
  rw [exec_arcSequenceWrite hh hm, taken]
  exact done_of_arc hs _

/-! ## The ends of the times -/

/-- A sequence that fails after some time: the archive is that of a failed sequence, and time has passed. -/
theorem done_seqFail_advanceTo (hs : Settled s) (quiet : QuietClock s) (open_ : s.arc.seq = some q) (st : Byte) (m : Nat) :
    ∃ t, done (seqFail st (advanceTo m s)) = .next t ∧
      t.arc = { s.arc with seq := none, stat := st, echo := q.step.code.getD 0, cnt := tinc s.arc.cnt 3 } ∧ m ≤ t.tim.mono ∧
      TimePasses { s with arc := t.arc } t := by
  have passed := timePasses_advanceTo m quiet
  have reached := (advanceTo_mono m quiet).1
  generalize advanceTo m s = u at passed reached
  have arc : u.arc = s.arc := by rw [passed]
  rw [seqFail_of_open (arc ▸ open_), done_of_arc (passed.settled hs)]
  refine ⟨_, rfl, by rw [arc], reached, ?_⟩
  unfold TimePasses at passed ⊢
  rw [passed]

theorem arcKeyTimeout_ends (hs : Settled s) (quiet : QuietClock s) (open_ : s.arc.seq = some q) (step : q.step = .key1)
    (noEdge : s.edgeBefore (q.key1 + 1000) = false) :
    ∃ t, exec .arcKeyTimeout s = .next t ∧
      t.arc = { s.arc with seq := none, stat := 0x05, echo := 0, cnt := tinc s.arc.cnt 3 } ∧
      q.key1 + 1000 ≤ t.tim.mono ∧ TimePasses { s with arc := t.arc } t := by
  have made : exec .arcKeyTimeout s = done (seqFail stKeyError (advanceTo (q.key1 + 1000) s)) := by
    change execArcKeyTimeout s = _
    simp [execArcKeyTimeout, open_, step, noEdge]
  have ends := done_seqFail_advanceTo hs quiet open_ stKeyError (q.key1 + 1000)
  rw [step] at ends
  exact made ▸ ends

theorem arcSeqTimeout_ends (hs : Settled s) (quiet : QuietClock s) (open_ : s.arc.seq = some q) (step : q.step ≠ .key1)
    (noEdge : s.edgeBefore (q.key2 + 1000000) = false) :
    ∃ t, exec .arcSeqTimeout s = .next t ∧
      t.arc = { s.arc with seq := none, stat := 0x08, echo := q.step.code.getD 0, cnt := tinc s.arc.cnt 3 } ∧
      q.key2 + 1000000 ≤ t.tim.mono ∧ TimePasses { s with arc := t.arc } t := by
  have made : exec .arcSeqTimeout s = done (seqFail stTimeout (advanceTo (q.key2 + 1000000) s)) := by
    change execArcSeqTimeout s = _
    simp [execArcSeqTimeout, open_, step, noEdge]
  exact made ▸ done_seqFail_advanceTo hs quiet open_ stTimeout (q.key2 + 1000000)

end

end Sys2Proof.Machine

namespace Sys2Proof
open Machine

/-- Settles O33: each write meets the open sequence within its time, and each end of a time a sequence that fails. -/
theorem archiveSequence : Obligations.ArchiveSequence :=
  ⟨fun _ _ => arcKey_opens, fun _ _ _ => arcKey_second, fun _ _ _ _ => arcKey_wrong, fun _ _ _ _ => arcKey_foreign,
    fun _ _ _ _ => arcSequenceWrite_cmd, fun _ _ _ _ _ => arcSequenceWrite_addr, fun _ _ => arcKeyTimeout_ends,
    fun _ _ => arcSeqTimeout_ends⟩

end Sys2Proof

/-! # O34 to O37: the commands of the archive -/
namespace Sys2Proof.Machine

section
variable {src : Source} {s : State}

/-! ## A sequence that completes (R231, R233) -/

/-- The sequence's registers stand open no more. -/
def seqClosed (s : State) : State := { s with arc.seq := none }

theorem arcLast_of_awaitsAddress {code : Byte} (h : AwaitsAddress src code s) (words : arcWords code = 0) (v : Word) :
    arcLast src code v s = arcJudge src code (v.toNat % 0x10000000) [] (seqClosed s) := by
  obtain ⟨-, hh, hm, q, open_, own, step, inTime⟩ := h
  have last : seqWrite src .addr v s = arcJudge src code (v.toNat % 0x10000000) [] (seqClosed s) := by
    simp [seqWrite, seqLapse_of_keys open_ (by simp [step]) inTime, open_, own, step, words, seqDone, seqClosed]
  simp [arcLast, open_, own, step, SeqStep.code, words, arcJudged_of_fromArmed hh hm, last]

theorem arcLast_of_awaitsLastWord {code : Byte} {a : Nat} {ds : List Word} (h : AwaitsLastWord src code a ds s)
    (words : arcWords code = ds.length + 1) (v : Word) :
    arcLast src code v s = arcJudge src code a (ds ++ [v]) (seqClosed s) := by
  obtain ⟨-, hh, hm, q, open_, own, step, inTime⟩ := h
  have last : seqWrite src (.data ds.length) v s = arcJudge src code a (ds ++ [v]) (seqClosed s) := by
    simp [seqWrite, seqLapse_of_keys open_ (by simp [step]) inTime, open_, own, step, seqDone, seqClosed]
  simp [arcLast, open_, own, step, SeqStep.code, words, arcJudged_of_fromArmed hh hm, last]

theorem AwaitsAddress.settled {code : Byte} (h : AwaitsAddress src code s) : Settled s := h.1
theorem AwaitsAddress.fromArmed {code : Byte} (h : AwaitsAddress src code s) : s.mode.fromArmed = true := h.2.2.1
theorem AwaitsLastWord.settled {code : Byte} {a : Nat} {ds : List Word} (h : AwaitsLastWord src code a ds s) : Settled s := h.1
theorem AwaitsLastWord.fromArmed {code : Byte} {a : Nat} {ds : List Word} (h : AwaitsLastWord src code a ds s) :
    s.mode.fromArmed = true := h.2.2.1

/-! ## The judgement (R233) -/

section
variable {code : Byte} {a : Nat} {data : List Word}

/-- READ_ID, SET_WP, LOCK_WP and CLEAR_STATUS do not need the array. -/
theorem arcJudge_at_once (hm : s.mode.fromArmed = true) (args : arcArgsOk code a data = true) (free : arcProtected code a s = false)
    (arrayless : [0x01, 0x50, 0x58, 0x7F].contains code = true) : arcJudge src code a data s = arcRun src code a data s := by
  have known : arcCodes.contains code = true := by
    simp only [List.contains_eq_mem, decide_eq_true_eq, List.mem_cons, List.not_mem_nil, or_false] at arrayless
    rcases arrayless with rfl | rfl | rfl | rfl <;> decide
  simp only [arcJudge, hm, known, args, free, arrayless, Bool.not_true, Bool.or_self, Bool.false_eq_true, if_false, if_true]

/-- The other commands find the array free, or end with BUSY. -/
theorem arcJudge_of_array (hm : s.mode.fromArmed = true) (known : arcCodes.contains code = true) (args : arcArgsOk code a data = true)
    (free : arcProtected code a s = false) (array : [0x01, 0x50, 0x58, 0x7F].contains code = false) (now : arcNow s = s) :
    arcJudge src code a data s = if arcBusy code a s then arcStat code stBusy s else arcRun src code a data s := by
  simp only [arcJudge, hm, known, args, free, array, now, Bool.not_true, Bool.or_self, Bool.false_eq_true, if_false]

theorem arcJudge_of_protected (hm : s.mode.fromArmed = true) (known : arcCodes.contains code = true) (args : arcArgsOk code a data = true)
    (held : arcProtected code a s = true) : arcJudge src code a data s = arcCount 4 (arcStat code stProtected s) := by
  simp only [arcJudge, hm, known, args, held, Bool.not_true, Bool.or_self, Bool.false_eq_true, if_false, if_true]

end

/-- No erase stands, or one that no device agent has stopped: the array is as it is. -/
theorem arcNow_of_host (host : ∀ e, s.arc.erase = some e → e.byDevice = false) : arcNow s = s := by
  cases he : s.arc.erase with
  | none => simp [arcNow, he]
  | some e => simp [arcNow, he, host e he]

/-- A device agent's suspension stands, and no deferred SUSPEND waits. -/
theorem arcNow_of_standing {e : ArcErase} (he : s.arc.erase = some e) (pend : e.pendHost = false)
    (stands : e.byDevice = true → s.tim.mono < s.arc.devUntil) : arcNow s = s := by
  cases hd : e.byDevice with
  | false => simp [arcNow, he, hd]
  | true => simp [arcNow, he, hd, pend, State.mono, Nat.not_le.mpr (stands hd)]

theorem arrayFree_iff : s.arrayFree = true ↔ s.arc.prog = none ∧ s.arc.erase = none ∧ s.arc.devUntil ≤ s.tim.mono := by
  simp only [State.arrayFree, Bool.and_eq_true, Option.isNone_iff_eq_none, decide_eq_true_eq, and_assoc]
  rfl

theorem arcNow_of_free (free : s.arrayFree = true) : arcNow s = s := by
  obtain ⟨-, erase, -⟩ := arrayFree_iff.mp free
  exact arcNow_of_host (by simp [erase])

/-! ## Sectors under INCOMPLETE (R238) -/

theorem index_of_sectorOf {a i : Nat} {b : Bool} (sector : sectorOf a = some (b, i)) : i < 518 := by
  unfold sectorOf at sector
  dsimp only at sector
  split_ifs at sector
  · obtain ⟨-, rfl⟩ := Prod.mk.inj (Option.some.inj sector)
    omega
  · obtain ⟨-, rfl⟩ := Prod.mk.inj (Option.some.inj sector)
    omega

theorem exists_of_alookup_ne {α : Type} {d : α} {l : List (Nat × α)} {x : Nat} (h : alookup d l x ≠ d) : (x, alookup d l x) ∈ l := by
  induction l with
  | nil => exact absurd rfl h
  | cons p l ih =>
    obtain ⟨k, v⟩ := p
    unfold alookup at h ⊢
    split at h
    next e => simp [e]
    next e => simp only [e, if_false, List.mem_cons]; exact .inr (ih h)

/-- A sector whose header carries INCOMPLETE is marked. -/
theorem mem_markedList {arc : Arc} {b : Bool} {i : Nat} (hi : i < 518) (marked : (arc.hdr b i).incomplete = true) :
    (b, i) ∈ arc.markedList := by
  have stored : (hdrKey b i, arc.hdr b i) ∈ arc.hdrs := by
    refine exists_of_alookup_ne fun h => ?_
    unfold Arc.hdr at marked
    rw [h] at marked
    exact absurd marked (by decide)
  refine List.mem_map.mpr ⟨_, List.mem_filter.mpr ⟨stored, marked⟩, ?_⟩
  cases b with
  | false => simp [hdrKey, Nat.mod_eq_of_lt hi, hi]
  | true => simp [hdrKey, Nat.mod_eq_of_lt hi]

/-- A bank in which no re-erase is due has no marked sector but that of the erase in progress. -/
theorem hdr_of_reeraseDue {b : Bool} {i : Nat} (erase : s.arc.erase = none) (due : s.reeraseDue b = false) (hi : i < 518) :
    (s.arc.hdr b i).incomplete = false := by
  by_contra marked
  have listed := mem_markedList hi (by simpa using marked)
  simp only [State.reeraseDue, erase, List.any_eq_false] at due
  exact due _ listed (by simp)

theorem markedAt_of_sector {a i : Nat} {b : Bool} (sector : sectorOf a = some (b, i)) : s.markedAt a = (s.arc.hdr b i).incomplete := by
  simp [State.markedAt, sector]

/-- The array is free for a command that names a sector without a mark. -/
theorem arcBusy_of_free {code : Byte} {a i : Nat} {b : Bool} (ordinary : code ≠ 0x30#8 ∧ code ≠ 0x31#8 ∧ code ≠ 0x60#8) (free : s.arrayFree = true)
    (idle : s.devRuns = false) (sector : sectorOf a = some (b, i)) (whole : (s.arc.hdr b i).incomplete = false)
    (writes : arcWrites code = true → s.reeraseDue b = false ∧ s.crd.ejState = 0) : arcBusy code a s = false := by
  obtain ⟨prog, erase, -⟩ := arrayFree_iff.mp free
  obtain ⟨h30, h31, h60⟩ := ordinary
  have unmarked := (markedAt_of_sector sector).trans whole
  cases hw : arcWrites code with
  | false => simp [arcBusy, h30, h31, h60, prog, erase, idle, unmarked, sector, hw]
  | true =>
    obtain ⟨due, staying⟩ := writes hw
    simp [arcBusy, h30, h31, h60, prog, erase, idle, unmarked, sector, hw, due, staying]

end

end Sys2Proof.Machine

/-! # O34 and O37: PROGRAM_WORD and CLEAR_STATUS -/
namespace Sys2Proof.Machine

/-! ## Ends of commands (R250, R251) -/

/-- The end of a command writes its status and raises vector 5. -/
theorem arcEnd_frame (code st : Byte) (s : State) :
    ∃ h o, arcEnd code st s = { s with arc := { s.arc with stat := st, echo := code, done := true }, hst := h, out := o } :=
  ⟨_, _, msix_frame ..⟩

section
variable {src : Source} {s : State}

/-! ## PROGRAM_WORD (R235) -/

section
variable {a i : Nat} {b : Bool} {ds : List Word}

theorem arcArgsOk_programWord (aligned : a % 32 = 0) (sector : sectorOf a = some (b, i)) (data : List Word) :
    arcArgsOk 0x10 a data = true := by
  simp [arcArgsOk, sector, aligned]

theorem arcProtected_of_sector {code : Byte} (writes : arcWrites code = true) (base : code ≠ 0x50#8) (sector : sectorOf a = some (b, i)) :
    arcProtected code a s = (s.fixedArea b i || s.arc.wp b i) := by
  simp [arcProtected, base, writes, sector]

theorem arcJudge_programWord (hm : s.mode.fromArmed = true) (aligned : a % 32 = 0) (sector : sectorOf a = some (b, i))
    (open_ : s.fixedArea b i = false) (unheld : s.arc.wp b i = false) (free : s.arrayFree = true) (idle : s.devRuns = false)
    (due : s.reeraseDue b = false) (staying : s.crd.ejState = 0) (data : List Word) :
    arcJudge src 0x10 a data s = startProgram src a data s := by
  obtain ⟨-, erase, -⟩ := arrayFree_iff.mp free
  have unprotected : arcProtected 0x10 a s = false := by
    rw [arcProtected_of_sector rfl (by decide) sector, open_, unheld]
    rfl
  have whole := hdr_of_reeraseDue erase due (index_of_sectorOf sector)
  have ready : arcBusy 0x10 a s = false := arcBusy_of_free (by decide) free idle sector whole fun _ => ⟨due, staying⟩
  rw [arcJudge_of_array hm rfl (arcArgsOk_programWord aligned sector data) unprotected rfl (arcNow_of_free free), ready]
  rfl

theorem programWord_begins {v : Word} (h : AwaitsLastWord src 0x10 a ds s) (seven : ds.length = 7) (aligned : a % 32 = 0)
    (sector : sectorOf a = some (b, i)) (open_ : s.fixedArea b i = false) (unheld : s.arc.wp b i = false) (free : s.arrayFree = true)
    (idle : s.devRuns = false) (due : s.reeraseDue b = false) (staying : s.crd.ejState = 0) (blank : s.arc.isBlank a = true) :
    ∃ t, exec (.programWord src v) s = .next t ∧
      t = { s with gctl := t.gctl, arc := t.arc, flt := t.flt, hst := t.hst, out := t.out } ∧ t.arc.words = s.arc.words ∧
      t.arc.stat = 0x00 ∧ t.arc.echo = 0x10 ∧ t.arc.seq = none ∧
      t.arc.prog = some { owner := .host src, code := 0x10, addr := a, data := bytesOf (ds ++ [v]), since := s.tim.mono } := by
  have made : exec (.programWord src v) s = done (arcLast src 0x10 v s) := rfl
  have begun : startProgram src a (ds ++ [v]) (seqClosed s) = arcStat 0x10 stOk { s with
      arc.seq := none
      arc.prog := some { owner := .host src, code := 0x10, addr := a, data := bytesOf (ds ++ [v]), since := s.tim.mono } } :=
    if_pos blank
  rw [arcLast_of_awaitsLastWord h (by rw [seven]; rfl),
    arcJudge_programWord (s := seqClosed s) h.fromArmed aligned sector open_ unheld free idle due staying, begun] at made
  exact ⟨_, made.trans (done_of_settled h.settled), rfl, rfl, rfl, rfl, rfl, rfl⟩

/-- A word that is not BLANK ends the command at once (R235). -/
theorem programWord_twice {v : Word} (h : AwaitsLastWord src 0x10 a ds s) (seven : ds.length = 7) (aligned : a % 32 = 0)
    (sector : sectorOf a = some (b, i)) (open_ : s.fixedArea b i = false) (unheld : s.arc.wp b i = false) (free : s.arrayFree = true)
    (idle : s.devRuns = false) (due : s.reeraseDue b = false) (staying : s.crd.ejState = 0) (used : s.arc.isBlank a = false) :
    ∃ t, exec (.programWord src v) s = .next t ∧
      t = { s with gctl := t.gctl, arc := t.arc, flt := t.flt, hst := t.hst, out := t.out } ∧ t.arc.words = s.arc.words ∧
      t.arc.stat = 0x0B ∧ t.arc.echo = 0x10 ∧ t.arc.prog = none ∧ tget t.arc.cnt 2 = satInc (tget s.arc.cnt 2) := by
  obtain ⟨prog, -, -⟩ := arrayFree_iff.mp free
  have made : exec (.programWord src v) s = done (arcLast src 0x10 v s) := rfl
  have twice : startProgram src a (ds ++ [v]) (seqClosed s) = arcEnd 0x10 stProgramTwice (arcCount 2 (seqClosed s)) :=
    if_neg (ne_true_of_eq_false used)
  obtain ⟨x, o, ended⟩ := arcEnd_frame 0x10 stProgramTwice (arcCount 2 (seqClosed s))
  rw [arcLast_of_awaitsLastWord h (by rw [seven]; rfl),
    arcJudge_programWord (s := seqClosed s) h.fromArmed aligned sector open_ unheld free idle due staying, twice, ended] at made
  exact ⟨_, made.trans (done_of_settled h.settled), rfl, rfl, rfl, rfl, prog, tget_tset_same _ _ _ (by decide)⟩

theorem programWord_protected {v : Word} (h : AwaitsLastWord src 0x10 a ds s) (seven : ds.length = 7) (aligned : a % 32 = 0)
    (sector : sectorOf a = some (b, i)) (held : s.fixedArea b i = true ∨ s.arc.wp b i = true) :
    exec (.programWord src v) s = .next { s with
      arc.seq := none, arc.stat := 0x04, arc.echo := 0x10, arc.cnt := tinc s.arc.cnt 4 } := by
  have made : exec (.programWord src v) s = done (arcLast src 0x10 v s) := rfl
  have protects : arcProtected 0x10 a (seqClosed s) = true := by
    rw [arcProtected_of_sector rfl (by decide) sector]
    exact Bool.or_eq_true .. ▸ held
  rw [arcLast_of_awaitsLastWord h (by rw [seven]; rfl),
    arcJudge_of_protected (s := seqClosed s) h.fromArmed rfl (arcArgsOk_programWord aligned sector _) protects] at made
  exact made.trans (done_of_arc h.settled _)

/-- The word enters the array (R235, R251). -/
theorem programEnd_stores {p : ArcProg} (hs : Settled s) (prog : s.arc.prog = some p) (begun : p.since ≤ s.tim.mono)
    (code : p.code = 0x10) :
    ∃ t, exec .programEnd s = .next t ∧ t = { s with arc := t.arc, flt := t.flt, hst := t.hst, out := t.out, freeCtr := t.freeCtr } ∧
      t.arc.prog = none ∧ wfind t.arc.words (p.addr / 32) = some (.prog (fitBytes 32 p.data)) ∧
      (∀ k, k ≠ p.addr / 32 → wfind t.arc.words k = wfind s.arc.words k) ∧ t.arc.stat = 0x00 ∧ t.arc.done = true ∧
      tget t.arc.cnt 0 = satInc (tget s.arc.cnt 0) ∧ t.arc.hdrs = s.arc.hdrs := by
  have ends : endOf 0x10 s = wordEnds p s := by
    simp [endOf, prog, code, State.mono, begun, progEnds]
  have made : exec .programEnd s = done (endOf 0x10 s) := rfl
  obtain ⟨x, o, ended⟩ := arcEnd_frame 0x10 stOk (arcCount 0 { s with arc := { s.arc.put p.addr p.data with prog := none } })
  rw [ends, wordEnds, ended] at made
  exact ⟨_, made.trans (done_of_settled hs), rfl, rfl, wfind_wput_same .., fun k other => wfind_wput_other other .., rfl, rfl,
    tget_tset_same _ _ _ (by decide), rfl⟩

end

/-! ## CLEAR_STATUS (R250) -/

/-- A command without an address names address 0 (R234). -/
theorem arcArgsOk_of_none {code : Byte} (addressless : [0x01, 0x30, 0x31, 0x58, 0x7F].contains code = true) (data : List Word) :
    arcArgsOk code 0 data = true := by
  simp only [List.contains_eq_mem, decide_eq_true_eq, List.mem_cons, List.not_mem_nil, or_false] at addressless
  rcases addressless with rfl | rfl | rfl | rfl | rfl <;> rfl

theorem clearStatus_clears {v : Word} (h : AwaitsAddress src 0x7F s) (zero : BitVec.toNat v % 0x10000000 = 0) :
    exec (.clearStatus src v) s = .next { s with arc.seq := none, arc.stat := 0, arc.echo := 0, arc.worn := false, arc.done := false } := by
  have made : exec (.clearStatus src v) s = done (arcLast src 0x7F v s) := rfl
  rw [arcLast_of_awaitsAddress h rfl, zero, arcJudge_at_once (s := seqClosed s) h.fromArmed (arcArgsOk_of_none rfl _) rfl rfl] at made
  exact made.trans (done_of_arc h.settled _)

end

end Sys2Proof.Machine

namespace Sys2Proof
open Machine

/-- Settles O34: the judgement of R233 lets the program begin, or ends the command before it does. -/
theorem programWord : Obligations.ProgramWord :=
  ⟨fun _ _ _ _ _ _ _ => programWord_begins, fun _ _ _ _ _ _ _ => programWord_twice, fun _ _ _ _ _ _ _ => programWord_protected,
    fun _ _ => programEnd_stores⟩

/-- Settles O37: the command needs neither the array nor an address. -/
theorem clearStatusClears : Obligations.ClearStatusClears := fun _ _ _ => clearStatus_clears

end Sys2Proof

/-! # O35: erases, their marks, their suspension and resumption -/
namespace Sys2Proof.Machine

section
variable {src : Source} {s : State}

/-! ## The start of an erase (R237) -/

/-- A header that is written with anything but its default reads as written. -/
theorem hdr_setHdr_same {b : Bool} {i : Nat} {h : SectorHdr} (other : h ≠ {}) (arc : Arc) : (arc.setHdr b i h).hdr b i = h :=
  alookup_aset_same other ..

theorem arcArgsOk_of_sector {code : Byte} {b : Bool} {i : Nat} (sector : sectorOf (sectorBase b i) = some (b, i))
    (kind : code = 0x20 ∧ 8 ≤ i ∨ code = 0x21 ∧ i < 8 ∨ code = 0x40 ∨ code = 0x70) (data : List Word) :
    arcArgsOk code (sectorBase b i) data = true := by
  rcases kind with ⟨rfl, main⟩ | ⟨rfl, param⟩ | rfl | rfl
  · simp [arcArgsOk, sector, main]
  · simp [arcArgsOk, sector, param]
  · simp [arcArgsOk, sector]
  · simp [arcArgsOk, sector]

/-- Both erase commands judge the sector alike, and begin (R233, R237). -/
theorem arcJudge_erase {code : Byte} {b : Bool} {i : Nat} (kind : code = 0x20 ∧ 8 ≤ i ∨ code = 0x21 ∧ i < 8)
    (hm : s.mode.fromArmed = true) (sector : sectorOf (sectorBase b i) = some (b, i)) (open_ : s.fixedArea b i = false)
    (unheld : s.arc.wp b i = false) (free : s.arrayFree = true) (idle : s.devRuns = false) (due : s.reeraseDue b = false)
    (staying : s.crd.ejState = 0) :
    arcJudge src code (sectorBase b i) [] s = startErase src code (sectorBase b i) s := by
  obtain ⟨-, erase, -⟩ := arrayFree_iff.mp free
  have whole := hdr_of_reeraseDue erase due (index_of_sectorOf sector)
  have args : arcArgsOk code (sectorBase b i) [] = true := arcArgsOk_of_sector sector (by tauto) []
  have ready (ordinary) : arcBusy code (sectorBase b i) s = false :=
    arcBusy_of_free ordinary free idle sector whole fun _ => ⟨due, staying⟩
  have unprotected (writes : arcWrites code = true) (base : code ≠ 0x50#8) : arcProtected code (sectorBase b i) s = false := by
    rw [arcProtected_of_sector writes base sector, open_, unheld]
    rfl
  obtain ⟨rfl, -⟩ | ⟨rfl, -⟩ := kind
  · rw [arcJudge_of_array hm rfl args (unprotected rfl (by decide)) rfl (arcNow_of_free free), ready (by decide)]
    rfl
  · rw [arcJudge_of_array hm rfl args (unprotected rfl (by decide)) rfl (arcNow_of_free free), ready (by decide)]
    rfl

/-- An erase that begins marks its sector and touches no word. -/
theorem startErase_marks {code : Byte} {b : Bool} {i : Nat} (sector : sectorOf (sectorBase b i) = some (b, i)) :
    ∃ arc, startErase src code (sectorBase b i) s = { s with arc := arc } ∧
      arc.erase = some { owner := .host src, code := code, bank := b, index := i, since := s.tim.mono } ∧
      (arc.hdr b i).incomplete = true ∧ arc.words = s.arc.words ∧ arc.stat = 0x00 ∧ arc.echo = code := by
  have marks : ((s.arc.setHdr b i { s.arc.hdr b i with incomplete := true }).hdr b i).incomplete = true := by
    rw [hdr_setHdr_same]
    intro h
    exact Bool.noConfusion (congrArg SectorHdr.incomplete h)
  unfold startErase
  rw [sector]
  exact ⟨_, rfl, rfl, marks, rfl, rfl, rfl⟩

theorem erase_begins {code : Byte} {v : Word} {b : Bool} {i : Nat} (h : AwaitsAddress src code s)
    (kind : code = 0x20 ∧ 8 ≤ i ∨ code = 0x21 ∧ i < 8)
    (address : BitVec.toNat v % 0x10000000 = sectorBase b i) (sector : sectorOf (sectorBase b i) = some (b, i))
    (open_ : s.fixedArea b i = false) (unheld : s.arc.wp b i = false) (free : s.arrayFree = true) (idle : s.devRuns = false)
    (due : s.reeraseDue b = false) (staying : s.crd.ejState = 0) :
    ∃ t, done (arcLast src code v s) = .next t ∧
      t = { s with gctl := t.gctl, arc := t.arc, flt := t.flt, hst := t.hst, out := t.out } ∧
      t.arc.erase = some { owner := .host src, code := code, bank := b, index := i, since := s.tim.mono } ∧
      (t.arc.hdr b i).incomplete = true ∧ t.arc.words = s.arc.words ∧ t.arc.stat = 0x00 ∧ t.arc.echo = code := by
  have addressOnly : arcWords code = 0 := by
    obtain ⟨rfl, -⟩ | ⟨rfl, -⟩ := kind
    · rfl
    · rfl
  obtain ⟨arc, started, runs⟩ := startErase_marks (src := src) (s := seqClosed s) (code := code) sector
  rw [arcLast_of_awaitsAddress h addressOnly, address,
    arcJudge_erase (s := seqClosed s) kind h.fromArmed sector open_ unheld free idle due staying, started]
  exact ⟨_, done_of_arc (s := seqClosed s) h.settled arc, rfl, runs⟩

/-! ## The end of an erase (R237) -/

theorem wfind_filter (p : Nat → Bool) (l : List (Nat × ArcWord)) (k : Nat) :
    wfind (l.filter fun w => p w.1) k = if p k then wfind l k else none := by
  induction l with
  | nil => simp [wfind]
  | cons e l ih =>
    obtain ⟨j, v⟩ := e
    by_cases hj : j = k
    · subst hj
      by_cases hp : p j = true
      · simp [hp, wfind_cons]
      · simp [hp, ih]
    · by_cases hp : p j = true
      · simp [hp, wfind_cons, hj, ih]
      · simp [hp, wfind_cons, hj, ih]

theorem satInc_ne_zero {n : Nat} (hn : n ≠ 0) (c : BitVec n) : satInc c ≠ 0 := by
  unfold satInc
  split_ifs with full
  · subst full
    simpa [BitVec.allOnes_eq_zero_iff] using hn
  · intro zero
    refine full ?_
    rw [← BitVec.neg_one_eq_allOnes, eq_neg_iff_add_eq_zero]
    exact zero

/-- What the end of an erase leaves: a header with one more erase and no mark, no word in the sector, and the rest. -/
structure SectorErased (b : Bool) (i : Nat) (s t : State) : Prop where
  frame : t = { s with arc := t.arc, flt := t.flt }
  header : t.arc.hdr b i = { count := satInc (s.arc.hdr b i).count, incomplete := false }
  words : t.arc.words = s.arc.words.filter
    (fun w => decide (w.1 < sectorBase b i / 32) || decide (sectorBase b i / 32 + sectorSize i / 32 ≤ w.1))
  erase : t.arc.erase = s.arc.erase
  count : ∀ j, j ≠ 7 → tget t.arc.cnt j = tget s.arc.cnt j

theorem sectorErased_eraseDone (b : Bool) (i : Nat) (s : State) : SectorErased b i s (eraseDone b i s) := by
  have header : (s.arc.eraseSector b i).hdr b i = { count := satInc (s.arc.hdr b i).count, incomplete := false } :=
    hdr_setHdr_same (fun h => satInc_ne_zero (by decide) _ (congrArg SectorHdr.count h)) _
  unfold eraseDone
  extract_lets n t
  split_ifs
  · exact ⟨rfl, header, rfl, rfl, fun j other => tget_tset_other _ _ _ _ other.symm⟩
  · exact ⟨rfl, header, rfl, rfl, fun j _ => rfl⟩

/-- Inside the sector no word is left, outside it every word. -/
theorem SectorErased.wfind {b : Bool} {i : Nat} {s t : State} (h : SectorErased b i s t) (k : Nat) :
    wfind t.arc.words k =
      if k < sectorBase b i / 32 ∨ sectorBase b i / 32 + sectorSize i / 32 ≤ k then Machine.wfind s.arc.words k else none := by
  rw [h.words, wfind_filter (fun k => decide (k < sectorBase b i / 32) || decide (sectorBase b i / 32 + sectorSize i / 32 ≤ k))]
  simp only [Bool.or_eq_true, decide_eq_true_eq]

theorem answerErase_host (src : Source) (s : State) : answerErase (.host src) s = s := by
  unfold answerErase
  rfl

theorem eraseEnd_blanks {e : ArcErase} (erase : s.arc.erase = some e) (runs : e.suspended = false)
    (own : e.byDevice = false) (begun : e.since ≤ s.tim.mono) (host : e.owner = .host src) :
    ∃ u, exec .eraseEnd s = .next (settle u) ∧
      u = { s with arc := u.arc, flt := u.flt, hst := u.hst, mbx := u.mbx, out := u.out } ∧
      u.arc.erase = none ∧ (u.arc.hdr e.bank e.index).incomplete = false ∧
      (u.arc.hdr e.bank e.index).count = satInc (s.arc.hdr e.bank e.index).count ∧ u.arc.stat = 0x00 ∧ u.arc.echo = e.code ∧
      (∀ k, sectorBase e.bank e.index / 32 ≤ k → k < sectorBase e.bank e.index / 32 + sectorSize e.index / 32 →
        wfind u.arc.words k = none) ∧
      (∀ k, k < sectorBase e.bank e.index / 32 ∨ sectorBase e.bank e.index / 32 + sectorSize e.index / 32 ≤ k →
        wfind u.arc.words k = wfind s.arc.words k) := by
  let r : State := { s with arc.erase := none, arc.eraseRunUs := BitVec.ofNat 32 (e.ran s.mono / 1000) }
  have now : arcNow s = s := arcNow_of_host (by simp [erase, own])
  have made : exec .eraseEnd s =
      done (answerErase e.owner (arcEnd e.code stOk (arcCount 1 (eraseDone e.bank e.index r)))) := by
    change execEraseEnd s = _
    simp [execEraseEnd, now, erase, runs, own, State.mono, Nat.not_lt.mpr begun, r]
  have erased : SectorErased e.bank e.index r (eraseDone e.bank e.index r) := sectorErased_eraseDone ..
  obtain ⟨x, o, ended⟩ := arcEnd_frame e.code stOk (arcCount 1 (eraseDone e.bank e.index r))
  rw [host, answerErase_host, ended] at made
  have words := erased.wfind
  obtain ⟨frame, header, -, erase', -⟩ := erased
  generalize eraseDone e.bank e.index r = t at *
  refine ⟨_, made, ?_, erase', congrArg SectorHdr.incomplete header, congrArg SectorHdr.count header, rfl, rfl, fun k lo hi => ?_,
    fun k out => (words k).trans (if_pos out)⟩
  · simp only [arcCount]
    rw [frame]
  · exact (words k).trans (if_neg (by omega))

/-! ## The re-erase of a marked sector (R238) -/

theorem incompleteReerase_erases {b : Bool} {i : Nat} {l : List (Bool × Nat)} (hm : s.mode.fromArmed = true) (free : s.arrayFree = true)
    (marked : s.arc.markedList = (b, i) :: l) :
    ∃ u, exec .incompleteReerase s = .next (settle u) ∧ u = { s with arc := u.arc, flt := u.flt } ∧
      (u.arc.hdr b i).incomplete = false ∧ tget u.arc.cnt 6 = satInc (tget s.arc.cnt 6) := by
  have made : exec .incompleteReerase s = done (devErase b i (arcCount 6 s)) := by
    change execIncompleteReerase s = _
    simp [execIncompleteReerase, hm, free, marked]
  obtain ⟨frame, header, -, -, count⟩ := sectorErased_eraseDone b i (arcCount 6 s)
  unfold devErase devBusy at made
  generalize eraseDone b i (arcCount 6 s) = t at *
  refine ⟨_, made, ?_, congrArg SectorHdr.incomplete header, (count 6 (by decide)).trans (tget_tset_same _ _ _ (by decide))⟩
  dsimp only
  rw [frame]
  rfl

/-! ## SUSPEND (R239, R242) -/

theorem arcJudge_suspend (hm : s.mode.fromArmed = true) (now : arcNow s = s) (staying : s.crd.ejState = 0) :
    arcJudge src 0x30 0 [] s = doSuspend s := by
  have free : arcBusy 0x30 0 s = false := by simp [arcBusy, staying]
  rw [arcJudge_of_array hm rfl (arcArgsOk_of_none rfl _) rfl rfl now, free]
  rfl

/-- SUSPEND meets the array as it stands, once its sequence has closed. -/
theorem exec_suspend {v : Word} (h : AwaitsAddress src 0x30 s) (zero : BitVec.toNat v % 0x10000000 = 0)
    (now : arcNow (seqClosed s) = seqClosed s) (staying : s.crd.ejState = 0) :
    exec (.suspend src v) s = done (doSuspend (seqClosed s)) := by
  have made : exec (.suspend src v) s = done (arcLast src 0x30 v s) := rfl
  rwa [arcLast_of_awaitsAddress h rfl, zero, arcJudge_suspend (s := seqClosed s) h.fromArmed now staying] at made

section
variable {v : Word} {e : ArcErase}

/-- A suspension of the host's own stops the erase now. -/
theorem suspendNow_own (own : e.byDevice = false) (runs : e.suspended = false) :
    ∃ h o e', suspendNow e s = { s with
        arc := { s.arc with erase := some e', cnt := tinc s.arc.cnt 5, stat := 0x00, echo := 0x30, done := true }, hst := h, out := o } ∧
      e'.suspended = true ∧ e'.pendHost = false ∧ e'.runNs = e.runNs + (s.tim.mono - e.since) ∧ e'.bank = e.bank ∧ e'.index = e.index := by
  let e' := { e with runNs := e.ran s.mono, since := s.mono, suspended := true, pendHost := false, hostSusp := true }
  obtain ⟨h, o, ended⟩ := arcEnd_frame 0x30 stOk (arcCount 5 { s with arc.erase := some e' })
  refine ⟨h, o, e', ?_, rfl, rfl, ?_, rfl, rfl⟩
  · unfold suspendNow
    rw [if_neg (ne_true_of_eq_false own)]
    exact ended
  · simp [e', ArcErase.ran, runs, own, State.mono]

theorem suspend_at_once (h : AwaitsAddress src 0x30 s) (zero : BitVec.toNat v % 0x10000000 = 0) (erase : s.arc.erase = some e)
    (runs : e.suspended = false) (own : e.byDevice = false) (pend : e.pendHost = false) (host : e.hostSusp = false)
    (staying : s.crd.ejState = 0) (met : e.since + 1000000 ≤ s.tim.mono) :
    ∃ t e', exec (.suspend src v) s = .next t ∧
      t = { s with gctl := t.gctl, arc := t.arc, flt := t.flt, hst := t.hst, out := t.out } ∧ t.arc.erase = some e' ∧
      e'.suspended = true ∧ e'.runNs = e.runNs + (s.tim.mono - e.since) ∧ e'.bank = e.bank ∧ e'.index = e.index ∧
      t.arc.stat = 0x00 ∧ t.arc.echo = 0x30 ∧ tget t.arc.cnt 5 = satInc (tget s.arc.cnt 5) := by
  have now : arcNow (seqClosed s) = seqClosed s := arcNow_of_host (by simp [seqClosed, erase, own])
  have stops : doSuspend (seqClosed s) = suspendNow e (seqClosed s) := by
    simp [doSuspend, seqClosed, erase, runs, pend, host, own, ArcErase.minMet, State.mono, met]
  obtain ⟨x, o, e', stopped, suspended, -, ran, bank, index⟩ := suspendNow_own (s := seqClosed s) own runs
  have made := exec_suspend (v := v) h zero now staying
  rw [stops, stopped] at made
  exact ⟨_, e', made.trans (done_of_settled h.settled), rfl, rfl, suspended, ran, bank, index, rfl, rfl,
    tget_tset_same _ _ _ (by decide)⟩

/-- Before the minimum run time is met a SUSPEND waits for it. -/
theorem suspend_deferred (h : AwaitsAddress src 0x30 s) (zero : BitVec.toNat v % 0x10000000 = 0) (erase : s.arc.erase = some e)
    (runs : e.suspended = false) (stands : e.byDevice = true → s.tim.mono < s.arc.devUntil) (pend : e.pendHost = false)
    (host : e.hostSusp = false) (staying : s.crd.ejState = 0) (early : s.tim.mono < e.minMet) :
    exec (.suspend src v) s = .next { s with
      arc.seq := none, arc.erase := some { e with pendHost := true }, arc.stat := 0x0C, arc.echo := 0x30 } := by
  have now : arcNow (seqClosed s) = seqClosed s := arcNow_of_standing (s := seqClosed s) erase pend stands
  have notAgent : (e.byDevice && decide (e.since ≤ s.mono)) = false := by
    cases hd : e.byDevice with
    | false => rfl
    | true =>
      have before : s.mono < e.since := by
        rw [ArcErase.minMet, if_pos hd] at early
        exact early
      simp [before]
  have waits : doSuspend (seqClosed s) = arcStat 0x30 stSuspendDeferred { seqClosed s with arc.erase := some { e with pendHost := true } } := by
    have closed : (seqClosed s).arc.erase = some e := erase
    have later : ¬ e.minMet ≤ (seqClosed s).mono := Nat.not_le.mpr early
    simp only [doSuspend, closed, runs, pend, host, later, Bool.or_self, Bool.false_eq_true, if_false]
    exact if_neg (ne_true_of_eq_false notAgent)
  rw [exec_suspend h zero now staying, waits]
  exact done_of_arc h.settled _

/-- An erase that a device agent has stopped stays so for the host (R242). -/
theorem suspend_of_agent (h : AwaitsAddress src 0x30 s) (zero : BitVec.toNat v % 0x10000000 = 0) (erase : s.arc.erase = some e)
    (runs : e.suspended = false) (agent : e.byDevice = true) (stood : e.since ≤ s.tim.mono) (pend : e.pendHost = false)
    (host : e.hostSusp = false) (staying : s.crd.ejState = 0) (stands : s.tim.mono < s.arc.devUntil) :
    ∃ t, exec (.suspend src v) s = .next t ∧
      t = { s with gctl := t.gctl, arc := t.arc, flt := t.flt, hst := t.hst, out := t.out } ∧
      t.arc.erase = some { e with hostSusp := true } ∧ t.arc.stat = 0x00 ∧ t.arc.echo = 0x30 ∧ t.arc.done = true := by
  have now : arcNow (seqClosed s) = seqClosed s := arcNow_of_standing (s := seqClosed s) erase pend fun _ => stands
  have stays : doSuspend (seqClosed s) = arcEnd 0x30 stOk { seqClosed s with arc.erase := some { e with hostSusp := true } } := by
    simp [doSuspend, suspendNow, seqClosed, erase, runs, pend, host, agent, State.mono, stood]
  obtain ⟨x, o, ended⟩ := arcEnd_frame 0x30 stOk { seqClosed s with arc.erase := some { e with hostSusp := true } }
  have made := exec_suspend (v := v) h zero now staying
  rw [stays, ended] at made
  exact ⟨_, made.trans (done_of_settled h.settled), rfl, rfl, rfl, rfl, rfl⟩

/-- A deferred SUSPEND takes effect in a state that time alone has brought. -/
theorem suspendNow_later {u : State} (hs : Settled s) (passed : TimePasses s u) (runs : e.suspended = false) (own : e.byDevice = false) :
    ∃ t e', done (suspendNow e u) = .next t ∧ t = { s with tim := u.tim, arc := t.arc, hst := t.hst, out := t.out } ∧
      t.arc.erase = some e' ∧ e'.suspended = true ∧ e'.pendHost = false ∧ t.arc.stat = 0x00 ∧ t.arc.done = true := by
  obtain ⟨x, o, e', stopped, suspended, taken, -⟩ := suspendNow_own (s := u) own runs
  rw [stopped]
  refine ⟨_, e', done_of_settled (passed.settled hs), ?_, rfl, suspended, taken, rfl, rfl⟩
  unfold TimePasses at passed
  rw [passed]

theorem suspendEffect_suspends (hs : Settled s) (quiet : QuietClock s) (erase : s.arc.erase = some e) (pend : e.pendHost = true)
    (runs : e.suspended = false) (own : e.byDevice = false) (noEdge : s.edgeBefore (e.since + 1000000) = false) :
    ∃ t e', exec .suspendEffect s = .next t ∧
      t = { s with tim := t.tim, arc := t.arc, hst := t.hst, out := t.out } ∧ t.arc.erase = some e' ∧ e'.suspended = true ∧
      e'.pendHost = false ∧ e.since + 1000000 ≤ t.tim.mono ∧ t.arc.stat = 0x00 ∧ t.arc.done = true := by
  have met : e.minMet = e.since + 1000000 := if_neg (ne_true_of_eq_false own)
  have now : arcNow s = s := arcNow_of_host (by simp [erase, own])
  rw [← met] at noEdge ⊢
  have made : exec .suspendEffect s = done (suspendNow e (advanceTo e.minMet s)) := by
    change execSuspendEffect s = _
    simp [execSuspendEffect, now, erase, pend, runs, own, noEdge]
  have reached := (advanceTo_mono e.minMet quiet).1
  obtain ⟨t, e', ends, frame, erase', suspended, taken, stat, done'⟩ := suspendNow_later hs (timePasses_advanceTo e.minMet quiet) runs own
  have tim : t.tim = (advanceTo e.minMet s).tim := by rw [frame]
  rw [← tim] at frame reached
  exact ⟨t, e', made.trans ends, frame, erase', suspended, taken, reached, stat, done'⟩

/-! ## RESUME (R241) -/

theorem resume_runs_on (h : AwaitsAddress src 0x31 s) (zero : BitVec.toNat v % 0x10000000 = 0) (prog : s.arc.prog = none)
    (idle : s.devRuns = false) (erase : s.arc.erase = some e) (stopped : e.suspended = true) (own : e.byDevice = false) :
    ∃ t e', exec (.resume src v) s = .next t ∧
      t = { s with gctl := t.gctl, arc := t.arc, flt := t.flt, hst := t.hst, out := t.out } ∧ t.arc.erase = some e' ∧
      e'.suspended = false ∧ e'.runNs = e.runNs ∧ e'.since = s.tim.mono ∧ t.arc.stat = 0x00 ∧ t.arc.echo = 0x31 := by
  let e' := { e with suspended := false, hostSusp := false, since := s.mono }
  have now : arcNow (seqClosed s) = seqClosed s := arcNow_of_host (by simp [seqClosed, erase, own])
  have free : arcBusy 0x31 0 (seqClosed s) = false := by
    have idle' : (seqClosed s).devRuns = false := idle
    simp [arcBusy, seqClosed, prog] at idle' ⊢
    exact idle'
  have goes : doResume (seqClosed s) = arcEnd 0x31 stOk { seqClosed s with arc.erase := some e' } := by
    simp [doResume, seqClosed, erase, stopped, e', State.mono]
  have made : exec (.resume src v) s = done (arcLast src 0x31 v s) := rfl
  obtain ⟨x, o, ended⟩ := arcEnd_frame 0x31 stOk { seqClosed s with arc.erase := some e' }
  rw [arcLast_of_awaitsAddress h rfl, zero,
    arcJudge_of_array (s := seqClosed s) h.fromArmed rfl (arcArgsOk_of_none rfl _) rfl rfl now, free] at made
  change _ = done (doResume (seqClosed s)) at made
  rw [goes, ended] at made
  exact ⟨_, e', made.trans (done_of_settled h.settled), rfl, rfl, rfl, rfl, rfl, rfl, rfl⟩

end

end

end Sys2Proof.Machine

namespace Sys2Proof
open Machine

/-- Settles O35: each command meets the erase in progress, and its own case says what it makes of it. -/
theorem eraseSuspendResume : Obligations.EraseSuspendResume :=
  ⟨fun _ _ _ _ _ h address sector main => erase_begins h (.inl ⟨rfl, main⟩) address sector,
    fun _ _ _ _ _ h address sector param => erase_begins h (.inr ⟨rfl, param⟩) address sector,
    fun _ _ _ _ => eraseEnd_blanks, fun _ _ _ _ _ => incompleteReerase_erases, fun _ _ _ _ => suspend_at_once,
    fun _ _ _ _ => suspend_deferred, fun _ _ _ _ => suspend_of_agent, fun _ _ => suspendEffect_suspends,
    fun _ _ _ _ => resume_runs_on⟩

end Sys2Proof

/-! # O36: results, protection and SWAP_BOOT -/
namespace Sys2Proof.Machine

section
variable {src : Source} {s : State}

/-! ## Results (R246 to R248) -/

/-- ARC_RESULT0 to ARC_RESULT3 as they read after four words. -/
theorem results_arcResults (w0 w1 w2 w3 : Word) (s : State) :
    tget (arcResults [w0, w1, w2, w3] s).arc.results 0 = w0 ∧ tget (arcResults [w0, w1, w2, w3] s).arc.results 1 = w1 ∧
      tget (arcResults [w0, w1, w2, w3] s).arc.results 2 = w2 ∧ tget (arcResults [w0, w1, w2, w3] s).arc.results 3 = w3 := by
  simp [arcResults, List.range_succ]

/-- RESULT0 after one word. -/
theorem result0_arcResults (w : Word) (s : State) : tget (arcResults [w] s).arc.results 0 = w := by
  simp [arcResults, List.range_succ]

theorem readId_answers {v : Word} (h : AwaitsAddress src 0x01 s) (zero : BitVec.toNat v % 0x10000000 = 0) :
    ∃ t, exec (.readId src v) s = .next t ∧
      t = { s with gctl := t.gctl, arc := t.arc, flt := t.flt, hst := t.hst, out := t.out } ∧
      tget t.arc.results 0 = 0x02564C59 ∧ tget t.arc.results 1 = 0x01FE0802 ∧ tget t.arc.results 2 = 0x00000320 ∧
      tget t.arc.results 3 = 0 ∧ t.arc.stat = 0x00 ∧ t.arc.echo = 0x01 ∧ t.arc.words = s.arc.words := by
  have made : exec (.readId src v) s = done (arcLast src 0x01 v s) := rfl
  rw [arcLast_of_awaitsAddress h rfl, zero, arcJudge_at_once (s := seqClosed s) h.fromArmed (arcArgsOk_of_none rfl _) rfl rfl] at made
  obtain ⟨r0, r1, r2, r3⟩ := results_arcResults 0x02564C59 0x01FE0802 0x00000320 0 (seqClosed s)
  exact ⟨_, made.trans (done_of_settled h.settled), rfl, r0, r1, r2, r3, rfl, rfl, rfl⟩

section
variable {v : Word} {b : Bool} {i : Nat}

/-- A command that only reads a sector runs where the sector carries no mark, and ends with BUSY where it does (R238). -/
theorem arcJudge_of_read {code : Byte} (reads : code = 0x40 ∨ code = 0x70) (hm : s.mode.fromArmed = true)
    (sector : sectorOf (sectorBase b i) = some (b, i)) (free : s.arrayFree = true) (idle : s.devRuns = false) :
    arcJudge src code (sectorBase b i) [] s =
      if (s.arc.hdr b i).incomplete then arcStat code stBusy s else arcRun src code (sectorBase b i) [] s := by
  have args : arcArgsOk code (sectorBase b i) [] = true := arcArgsOk_of_sector sector (by tauto) []
  have judged : arcJudge src code (sectorBase b i) [] s =
      if arcBusy code (sectorBase b i) s then arcStat code stBusy s else arcRun src code (sectorBase b i) [] s := by
    obtain rfl | rfl := reads
    · exact arcJudge_of_array hm rfl args rfl rfl (arcNow_of_free free)
    · exact arcJudge_of_array hm rfl args rfl rfl (arcNow_of_free free)
  have busy : arcBusy code (sectorBase b i) s = (s.arc.hdr b i).incomplete := by
    cases whole : (s.arc.hdr b i).incomplete with
    | true =>
      have marked := (markedAt_of_sector sector).trans whole
      obtain rfl | rfl := reads
      · simp [arcBusy, marked]
      · simp [arcBusy, marked]
    | false =>
      obtain rfl | rfl := reads
      · exact arcBusy_of_free (by decide) free idle sector whole nofun
      · exact arcBusy_of_free (by decide) free idle sector whole nofun
  rw [judged, busy]

theorem readCounter_busy (h : AwaitsAddress src 0x40 s) (address : BitVec.toNat v % 0x10000000 = sectorBase b i)
    (sector : sectorOf (sectorBase b i) = some (b, i)) (free : s.arrayFree = true) (idle : s.devRuns = false)
    (marked : (s.arc.hdr b i).incomplete = true) :
    exec (.readCounter src v) s = .next { s with arc.seq := none, arc.stat := 0x01, arc.echo := 0x40 } := by
  have made : exec (.readCounter src v) s = done (arcLast src 0x40 v s) := rfl
  rw [arcLast_of_awaitsAddress h rfl, address, arcJudge_of_read (s := seqClosed s) (.inl rfl) h.fromArmed sector free idle,
    if_pos (show ((seqClosed s).arc.hdr b i).incomplete = true from marked)] at made
  exact made.trans (done_of_arc h.settled _)

/-- The word of RESULT0: the count in bits 23:0, then INCOMPLETE and WORN. -/
theorem pack_counter {n : Nat} (hn : n < 2 ^ 24) (marked worn : Bool) :
    (pack [(0, 24, n), (24, 1, b2n marked), (25, 1, b2n worn)]).toNat % 2 ^ 24 = n ∧
      (pack [(0, 24, n), (24, 1, b2n marked), (25, 1, b2n worn)]).getLsbD 24 = marked := by
  have word : pack [(0, 24, n), (24, 1, b2n marked), (25, 1, b2n worn)] =
      BitVec.ofNat 32 (n ||| b2n marked <<< 24 ||| b2n worn <<< 25) := by
    have hm : b2n marked < 2 := by cases marked <;> decide
    have hw : b2n worn < 2 := by cases worn <;> decide
    simp only [pack, List.foldl_cons, List.foldl_nil, Nat.zero_or, Nat.shiftLeft_zero, Nat.mod_eq_of_lt hn, pow_one,
      Nat.mod_eq_of_lt hm, Nat.mod_eq_of_lt hw]
  rw [word]
  constructor
  · apply Nat.eq_of_testBit_eq
    intro i
    rw [BitVec.toNat_ofNat, Nat.testBit_mod_two_pow, Nat.testBit_mod_two_pow]
    by_cases hi : i < 24
    · simp only [hi, show i < 32 by omega, Nat.testBit_or, Nat.testBit_shiftLeft, Nat.not_le.mpr hi, show ¬ 25 ≤ i by omega]
      simp
    · simp [hi, Nat.testBit_lt_two_pow (hn.trans_le (Nat.pow_le_pow_right (by decide) (Nat.not_lt.mp hi)))]
  · simp only [BitVec.getLsbD_ofNat, Nat.testBit_or, Nat.testBit_shiftLeft, Nat.testBit_lt_two_pow hn]
    cases marked <;> simp [b2n]

theorem readCounter_answers (h : AwaitsAddress src 0x40 s) (address : BitVec.toNat v % 0x10000000 = sectorBase b i)
    (sector : sectorOf (sectorBase b i) = some (b, i)) (free : s.arrayFree = true) (idle : s.devRuns = false)
    (whole : (s.arc.hdr b i).incomplete = false) :
    ∃ t, exec (.readCounter src v) s = .next t ∧
      t = { s with gctl := t.gctl, arc := t.arc, flt := t.flt, hst := t.hst, out := t.out } ∧
      (tget t.arc.results 0).toNat % 0x1000000 = (s.arc.hdr b i).count.toNat ∧ (tget t.arc.results 0).getLsbD 24 = false ∧
      t.arc.stat = 0x00 ∧ t.arc.echo = 0x40 ∧ t.arc.hdrs = s.arc.hdrs := by
  have made : exec (.readCounter src v) s = done (arcLast src 0x40 v s) := rfl
  rw [arcLast_of_awaitsAddress h rfl, address, arcJudge_of_read (s := seqClosed s) (.inl rfl) h.fromArmed sector free idle,
    if_neg (show ¬ ((seqClosed s).arc.hdr b i).incomplete = true from ne_true_of_eq_false whole)] at made
  change _ = done (doReadCounter (sectorBase b i) (seqClosed s)) at made
  unfold doReadCounter at made
  rw [sector] at made
  dsimp only at made
  obtain ⟨r0, -⟩ := results_arcResults
    (pack [(0, 24, (s.arc.hdr b i).count.toNat), (24, 1, b2n (s.arc.hdr b i).incomplete),
      (25, 1, b2n (decide (endurance i < (s.arc.hdr b i).count.toNat)))])
    (pack [(0, 10, i), (10, 1, b2n b)]) (tget s.arc.results 2) (tget s.arc.results 3) (seqClosed s)
  obtain ⟨count, mark⟩ := pack_counter (s.arc.hdr b i).count.isLt (s.arc.hdr b i).incomplete
    (decide (endurance i < (s.arc.hdr b i).count.toNat))
  obtain ⟨x, o, ended⟩ := arcEnd_frame 0x40 stOk (arcResults [_, _, _, _] (seqClosed s))
  rw [ended] at made
  refine ⟨_, made.trans (done_of_settled h.settled), rfl, ?_, ?_, rfl, rfl, rfl⟩
  · exact (congrArg (fun w : Word => w.toNat % 0x1000000) r0).trans count
  · exact (congrArg (fun w : Word => w.getLsbD 24) r0).trans (mark.trans whole)

theorem blankCheck_begins (h : AwaitsAddress src 0x70 s) (address : BitVec.toNat v % 0x10000000 = sectorBase b i)
    (sector : sectorOf (sectorBase b i) = some (b, i)) (free : s.arrayFree = true) (idle : s.devRuns = false)
    (whole : (s.arc.hdr b i).incomplete = false) :
    ∃ t, exec (.blankCheck src v) s = .next t ∧
      t = { s with gctl := t.gctl, arc := t.arc, flt := t.flt, hst := t.hst, out := t.out } ∧ t.arc.stat = 0x00 ∧ t.arc.echo = 0x70 ∧
      t.arc.words = s.arc.words ∧
      t.arc.prog = some { owner := .host src, code := 0x70, addr := sectorBase b i, since := s.tim.mono } := by
  have made : exec (.blankCheck src v) s = done (arcLast src 0x70 v s) := rfl
  rw [arcLast_of_awaitsAddress h rfl, address, arcJudge_of_read (s := seqClosed s) (.inr rfl) h.fromArmed sector free idle,
    if_neg (show ¬ ((seqClosed s).arc.hdr b i).incomplete = true from ne_true_of_eq_false whole)] at made
  exact ⟨_, made.trans (done_of_settled h.settled), rfl, rfl, rfl, rfl, rfl⟩

end

/-- RESULT0 of a blank check is 1 where no word of the sector is used (R248). -/
theorem blankCheckEnd_answers {p : ArcProg} (hs : Settled s) (prog : s.arc.prog = some p) (begun : p.since ≤ s.tim.mono)
    (code : p.code = 0x70) :
    ∃ t, exec .blankCheckEnd s = .next t ∧ t = { s with arc := t.arc, flt := t.flt, hst := t.hst, out := t.out, freeCtr := t.freeCtr } ∧
      t.arc.prog = none ∧ t.arc.words = s.arc.words ∧ t.arc.stat = 0x00 ∧ t.arc.done = true ∧
      (tget t.arc.results 0 = 1 ↔ ∀ a ∈ wordsIn p.addr, s.arc.isBlank a = true) := by
  have ends : endOf 0x70 s = blankEnds p s := by
    simp [endOf, prog, code, State.mono, begun, progEnds]
  have made : exec .blankCheckEnd s = done (endOf 0x70 s) := rfl
  rw [ends, blankEnds] at made
  generalize hu : (wordsIn p.addr).filter (fun a => !s.arc.isBlank a) = used at made
  have blank : used = [] ↔ ∀ a ∈ wordsIn p.addr, s.arc.isBlank a = true := by
    rw [← hu, List.filter_eq_nil_iff]
    simp
  dsimp only at made
  obtain ⟨x, o, ended⟩ := arcEnd_frame 0x70 stOk (arcResults [_, _, _, _] { s with arc.prog := none })
  rw [ended] at made
  refine ⟨_, made.trans (done_of_settled hs), rfl, rfl, rfl, rfl, rfl, ?_⟩
  rw [← blank]
  obtain ⟨r0, -⟩ := results_arcResults (BitVec.ofNat 32 (b2n used.isEmpty)) _ _ _ { s with arc.prog := none }
  refine (Eq.congr_left r0).trans ?_
  cases used with
  | nil => simp [b2n]
  | cons a l => simp [b2n]

/-! ## Protection (R243 to R245) -/

/-- An overlay holds the sectors of its bank. -/
theorem getLsbD_overlayOf (l : List (Bool × Nat)) (b : Bool) {j : Nat} (hj : j < 544) :
    (overlayOf l b).getLsbD j = l.any (fun e => e.1 = b && e.2 = j) := by
  have key (m : BitVec 544) : (l.foldl (fun m e => if e.1 = b then m ||| BitVec.twoPow 544 e.2 else m) m).getLsbD j =
      (m.getLsbD j || l.any (fun e => e.1 = b && e.2 = j)) := by
    induction l generalizing m with
    | nil => simp
    | cons e l ih =>
      rw [List.foldl_cons, ih, List.any_cons]
      by_cases hb : e.1 = b
      · simp [hb, hj, Bool.or_assoc, eq_comm]
      · simp [hb]
  rw [overlayOf, key]
  simp

/-- A run of sectors of one bank. -/
theorem getLsbD_overlayOf_run (i n : Nat) (b : Bool) {j : Nat} (hj : j < 544) :
    (overlayOf ((List.range n).map fun k => (b, i + k)) b).getLsbD j = decide (i ≤ j ∧ j < i + n) := by
  rw [getLsbD_overlayOf _ b hj, Bool.eq_iff_iff]
  simp only [List.any_map, List.any_eq_true, List.mem_range, Function.comp_apply, decide_true, Bool.true_and, decide_eq_true_eq]
  constructor
  · rintro ⟨k, hk, rfl⟩
    omega
  · rintro ⟨lo, hi⟩
    exact ⟨j - i, by omega, by omega⟩

section
variable {i : Nat} {d : Word}

theorem arcLast_of_awaitsOneWord {code : Byte} {a : Nat} (h : AwaitsLastWord src code a [] s) (words : arcWords code = 1) (v : Word) :
    arcLast src code v s = arcJudge src code a [v] (seqClosed s) :=
  arcLast_of_awaitsLastWord h words v

theorem arcArgsOk_setWp {b : Bool} (sector : sectorOf (sectorBase b i) = some (b, i)) (some_ : 1 ≤ BitVec.toNat d % 1024)
    (inside : i + BitVec.toNat d % 1024 ≤ 518) (rest : BitVec.toNat d / 1024 % 0x200000 = 0) :
    arcArgsOk 0x50 (sectorBase b i) [d] = true := by
  simp [arcArgsOk, sector, field, some_, inside, rest]

theorem setWp_locked {a : Nat} {b : Bool} (h : AwaitsLastWord src 0x50 a [] s) (sector : sectorOf a = some (b, i))
    (base : a = sectorBase b i) (locked : s.arc.locked = true) (some_ : 1 ≤ BitVec.toNat d % 1024)
    (inside : i + BitVec.toNat d % 1024 ≤ 518) (rest : BitVec.toNat d / 1024 % 0x200000 = 0) :
    exec (.setWp src d) s = .next { s with arc.seq := none, arc.stat := 0x04, arc.echo := 0x50, arc.cnt := tinc s.arc.cnt 4 } := by
  subst base
  have made : exec (.setWp src d) s = done (arcLast src 0x50 d s) := rfl
  rw [arcLast_of_awaitsOneWord h rfl, arcJudge_of_protected (s := seqClosed s) h.fromArmed rfl
    (arcArgsOk_setWp sector some_ inside rest) locked] at made
  exact made.trans (done_of_arc h.settled _)

theorem setWp_bank0 (h : AwaitsLastWord src 0x50 (sectorBase false i) [] s) (sector : sectorOf (sectorBase false i) = some (false, i))
    (unlocked : s.arc.locked = false) (some_ : 1 ≤ BitVec.toNat d % 1024)
    (inside : i + BitVec.toNat d % 1024 ≤ 518) (rest : BitVec.toNat d / 1024 % 0x200000 = 0) :
    ∃ t, exec (.setWp src d) s = .next t ∧
      t = { s with gctl := t.gctl, arc := t.arc, flt := t.flt, hst := t.hst, out := t.out } ∧ t.arc.stat = 0x00 ∧ t.arc.echo = 0x50 ∧
      t.arc.base1 = s.arc.base1 ∧
      ∀ j < 544, t.arc.base0.getLsbD j =
        (if i ≤ j ∧ j < i + BitVec.toNat d % 1024 then BitVec.getLsbD d 31 else s.arc.base0.getLsbD j) := by
  have made : exec (.setWp src d) s = done (arcLast src 0x50 d s) := rfl
  rw [arcLast_of_awaitsOneWord h rfl, arcJudge_at_once (s := seqClosed s) h.fromArmed
    (arcArgsOk_setWp sector some_ inside rest) unlocked rfl] at made
  change _ = done (doSetWp (sectorBase false i) d.toNat (seqClosed s)) at made
  unfold doSetWp at made
  rw [sector] at made
  refine ⟨_, made.trans (done_of_arc h.settled _), rfl, rfl, rfl, rfl, fun j hj => ?_⟩
  have mask := getLsbD_overlayOf_run i (field d.toNat 0 10) false hj
  have count : field d.toNat 0 10 = d.toNat % 1024 := by simp [field]
  have bit : bitOf d.toNat 31 = d.getLsbD 31 := rfl
  rw [count, BitVec.getLsbD_eq_getElem hj] at mask
  dsimp only [Bool.false_eq_true, if_false, arcStat]
  rw [count, bit]
  by_cases inRange : i ≤ j ∧ j < i + d.toNat % 1024
  · cases hb : d.getLsbD 31 with
    | true => simp [mask, inRange, hj]
    | false => simp [mask, inRange, hj]
  · cases hb : d.getLsbD 31 with
    | true => simp [mask, inRange, hj, seqClosed]
    | false => simp [mask, inRange, hj, seqClosed]

theorem lockWp_locks {v : Word} (h : AwaitsAddress src 0x58 s) (zero : BitVec.toNat v % 0x10000000 = 0) :
    exec (.lockWp src v) s = .next { s with arc.seq := none, arc.locked := true, arc.stat := 0x00, arc.echo := 0x58 } := by
  have made : exec (.lockWp src v) s = done (arcLast src 0x58 v s) := rfl
  rw [arcLast_of_awaitsAddress h rfl, zero, arcJudge_at_once (s := seqClosed s) h.fromArmed (arcArgsOk_of_none rfl _) rfl rfl] at made
  exact made.trans (done_of_arc h.settled _)

/-! ## SWAP_BOOT (R219, R249) -/

theorem arcRun_swapBoot (a : Nat) : arcRun src 0x60 a [d] s = startSwap src d.toNat s := by simp [arcRun]

/-- The selector words do not tell whether a sequence stands open. -/
theorem newestSelector_seqClosed (s : State) : (seqClosed s).arc.newestSelector = s.arc.newestSelector := by
  unfold Arc.newestSelector
  congr 1

theorem selectorPlace_seqClosed (s : State) : (seqClosed s).arc.selectorPlace = s.arc.selectorPlace := by
  have blank : (seqClosed s).arc.isBlank = s.arc.isBlank := rfl
  unfold Arc.selectorPlace
  rw [newestSelector_seqClosed, blank]

theorem arcJudge_swapBoot (hm : s.mode.fromArmed = true) (small : BitVec.toNat d < 2) (free : s.arrayFree = true)
    (idle : s.devRuns = false) (due : s.reeraseDue false = false) :
    arcJudge src 0x60 0 [d] s = startSwap src d.toNat s := by
  obtain ⟨prog, erase, -⟩ := arrayFree_iff.mp free
  have args : arcArgsOk 0x60 0 [d] = true := by simp [arcArgsOk, small]
  have ready : arcBusy 0x60 0 s = false := by simp [arcBusy, prog, erase, idle, due, arcWrites]
  have unprotected : arcProtected 0x60 0 s = false := by simp [arcProtected, arcWrites]
  rw [arcJudge_of_array hm (by decide) args unprotected (by decide) (arcNow_of_free free), ready]
  exact (if_neg Bool.false_ne_true).trans (arcRun_swapBoot 0)

section
variable {arc : Arc} {k seq : Nat} {x : Bool} {y : Word} (newest : arc.newestSelector = some (k, seq, x, y))
include newest

theorem selectorRoom_of_newest (room : seq ≠ 0xFFFFFFFE) : arc.selectorRoom = true := by
  unfold Arc.selectorRoom
  split
  next h =>
    cases h.symm.trans newest
    simpa using room
  next => rfl

theorem nextSeq_of_newest : arc.nextSeq = seq + 1 := by
  unfold Arc.nextSeq
  split
  next h =>
    cases h.symm.trans newest
    rfl
  next h => cases h.symm.trans newest

end

theorem swapBoot_begins {pre : Word} {k seq : Nat} {x : Bool} {y : Word} (h : AwaitsLastWord src 0x60 0 [] s)
    (small : BitVec.toNat d < 2) (free : s.arrayFree = true) (idle : s.devRuns = false) (due : s.reeraseDue false = false)
    (prefix_ : swapPrefix (if BitVec.getLsbD d 0 then .b else .a) s = some pre)
    (newest : s.arc.newestSelector = some (k, seq, x, y)) (room : seq ≠ 0xFFFFFFFE) (blank : (s.arc.selectorPlace).1 = none) :
    ∃ t, exec (.swapBoot src d) s = .next t ∧
      t = { s with gctl := t.gctl, arc := t.arc, flt := t.flt, hst := t.hst, out := t.out } ∧ t.arc.stat = 0x00 ∧ t.arc.echo = 0x60 ∧
      t.arc.prog = some { owner := .host src, code := 0x60, addr := 32 * (s.arc.selectorPlace).2,
                          data := selectorBytes (seq + 1) (if BitVec.getLsbD d 0 then .b else .a) pre, since := s.tim.mono } ∧
      t.arc.words = s.arc.words := by
  have made : exec (.swapBoot src d) s = done (arcLast src 0x60 d s) := rfl
  rw [arcLast_of_awaitsOneWord h rfl, arcJudge_swapBoot (s := seqClosed s) h.fromArmed small free idle due] at made
  have named : swapPrefix (if d.getLsbD 0 then .b else .a) (seqClosed s) = some pre := prefix_
  have newest' : (seqClosed s).arc.newestSelector = some (k, seq, x, y) := (newestSelector_seqClosed s).trans newest
  have hasRoom : (seqClosed s).arc.selectorRoom = true := selectorRoom_of_newest newest' room
  have next : (seqClosed s).arc.nextSeq = seq + 1 := nextSeq_of_newest newest'
  generalize found : s.arc.selectorPlace = p at blank ⊢
  obtain ⟨first, place⟩ := p
  obtain rfl : first = none := blank
  have space : selectorSpace (seqClosed s) = (seqClosed s, place) := by
    rw [selectorSpace, selectorPlace_seqClosed, found]
  have bit : bitOf d.toNat 0 = d.getLsbD 0 := rfl
  unfold startSwap at made
  simp only [bit, named, hasRoom, next, space] at made
  exact ⟨_, made.trans (done_of_settled h.settled), rfl, rfl, rfl, rfl, rfl⟩

theorem swapBootEnd_stores {p : ArcProg} (hs : Settled s) (prog : s.arc.prog = some p) (begun : p.since ≤ s.tim.mono)
    (code : p.code = 0x60) (second : p.addr / 32 % 256 ≠ 0) (sound : s.arc.weak.contains (p.addr / 32) = false) :
    ∃ t, exec .swapBootEnd s = .next t ∧ t = { s with arc := t.arc, flt := t.flt, hst := t.hst, out := t.out, freeCtr := t.freeCtr } ∧
      t.arc.prog = none ∧ wfind t.arc.words (p.addr / 32) = some (.prog (fitBytes 32 p.data)) ∧ t.arc.stat = 0x00 ∧
      tget t.arc.results 0 = BitVec.ofNat 32 (at32 p.data 4) := by
  have ends : endOf 0x60 s = swapEnds p s := by
    simp [endOf, prog, code, State.mono, begun, progEnds]
  have word : devWord p.addr p.data { s with arc.prog := none } =
      { s with arc := Arc.put { s.arc with prog := none } p.addr p.data } :=
    if_neg (ne_true_of_eq_false sound)
  have alone : relieve (p.addr / 32) { s with arc := Arc.put { s.arc with prog := none } p.addr p.data } =
      { s with arc := Arc.put { s.arc with prog := none } p.addr p.data } := by
    simp [relieve, second]
  have made : exec .swapBootEnd s = done (endOf 0x60 s) := rfl
  rw [ends, swapEnds] at made
  simp only [sound, word, alone, Bool.false_eq_true, if_false] at made
  obtain ⟨x, o, ended⟩ := arcEnd_frame 0x60 stOk (arcResults [BitVec.ofNat 32 (at32 p.data 4)]
    { s with arc := Arc.put { s.arc with prog := none } p.addr p.data })
  rw [ended] at made
  exact ⟨_, made.trans (done_of_settled hs), rfl, rfl, wfind_wput_same .., rfl, result0_arcResults ..⟩

end

end

end Sys2Proof.Machine

namespace Sys2Proof
open Machine

/-- Settles O36: each command passes the judgement of R233, and its own case says what it leaves. -/
theorem archiveResults : Obligations.ArchiveResults :=
  ⟨fun _ _ _ => readId_answers, fun _ _ _ _ _ => readCounter_answers, fun _ _ _ _ _ => readCounter_busy,
    fun _ _ _ _ _ => blankCheck_begins, fun _ _ => blankCheckEnd_answers, fun _ _ _ _ => setWp_bank0,
    fun _ _ _ _ _ _ => setWp_locked, fun _ _ _ => lockWp_locks, fun _ _ _ _ _ _ _ _ => swapBoot_begins,
    fun _ _ => swapBootEnd_stores⟩

end Sys2Proof

/-! # O42: a removal that abandons a device agent's erase: a statement that fails -/
namespace Sys2Proof.Machine

/-- A device in ARMED, 1 µs after reset, in whose bank 0 a device agent erases the first main sector. -/
def removedInErase : State := { State.reset with
  gctl := { mode := .armed, everArmed := true }
  tim := { mono := 1000 }
  arc := { devUntil := 2000, dev := [{ bank := false, start := 0, stop := 2000, what := .erase 8 {} [] }] } }

theorem exec_cardPresLoss {s : State} (on : s.mode ≠ .off) (in_ : s.mode ≠ .removal) :
    exec .cardPresLoss s = done (removalStart { s with pins.cardPresent := false }) :=
  congrArg done (if_neg (by simp [on, in_]))

/-- The removal abandons the agent's erase, which leaves its sector under INCOMPLETE (R238, R268). -/
theorem hdrs_cardPresLoss_removedInErase :
    (settle (removalStart { removedInErase with pins.cardPresent := false })).arc.hdrs = [(8, { count := 0, incomplete := true })] := by
  decide +kernel

end Sys2Proof.Machine

namespace Sys2Proof
open Machine

/-- Refutes O42 in its clause on the loss of CARD_PRES_N: from `removedInErase` the headers do not stay as they were, since
the erase of a device agent is abandoned too and leaves INCOMPLETE. The clause lacks the premise that no device operation is
in progress. -/
theorem not_cardMailboxEjectRemoval : ¬ Obligations.CardMailboxEjectRemoval := by
  rintro ⟨-, -, -, -, -, removal, -⟩
  obtain ⟨t, ht, -, -, -, -, -, -, -, -, -, -, -, -, headers, -⟩ := removal removedInErase ⟨rfl, rfl⟩ (by decide) (by decide)
  have made : settle (removalStart { removedInErase with pins.cardPresent := false }) = t :=
    Host.Outcome.next.inj ((exec_cardPresLoss (by decide) (by decide)).symm.trans ht)
  have left := made ▸ hdrs_cardPresLoss_removedInErase
  rw [headers] at left
  exact absurd left (by decide)

end Sys2Proof

/-! # O40: requests over the card link, and the link itself -/
namespace Sys2Proof.Machine

section
variable {s : State}

/-! ## Responses (R258) -/

theorem cardOn_iff : s.cardOn = true ↔ s.crd.linkUp = true ∧ s.mode.answers = true := by simp [State.cardOn]

theorem cardSend_of_up {cmd tag st code : Byte} {aux : BitVec 16} {payload : List Byte} (up : s.crd.linkUp = true) (answered : st ≠ stBusy) :
    cardSend cmd tag st code aux payload s = { s with
      crd := { s.crd with cnt := tinc s.crd.cnt 1, lastTag := tag, lastStat := st }
      out := .cardResponse (responseBytes cmd tag st code aux payload) :: s.out } := by
  unfold cardSend
  rw [if_neg (by simp [up]), if_neg answered]
  rfl

/-- BUSY is counted too. -/
theorem cardSend_busy {cmd tag code : Byte} {aux : BitVec 16} {payload : List Byte} (up : s.crd.linkUp = true) :
    cardSend cmd tag stBusy code aux payload s = { s with
      crd := { s.crd with cnt := tinc (tinc s.crd.cnt 5) 1, lastTag := tag, lastStat := stBusy }
      out := .cardResponse (responseBytes cmd tag stBusy code aux payload) :: s.out } := by
  unfold cardSend
  rw [if_neg (by simp [up]), if_pos rfl]
  rfl

theorem cardReply_of_up {cmd tag st : Byte} (up : s.crd.linkUp = true) (answered : st ≠ stBusy) :
    cardReply cmd tag st s = { s with
      crd := { s.crd with cnt := tinc s.crd.cnt 1, lastTag := tag, lastStat := st }
      out := .cardResponse (responseBytes cmd tag st s.codeNow 0 []) :: s.out } := by
  have aux : s.auxOf st = 0 := if_neg answered
  rw [cardReply, aux, cardSend_of_up up answered]

/-- A reply leaves nothing for the warden or the ports. -/
theorem done_cardReply {cmd tag st : Byte} (hs : Settled s) (up : s.crd.linkUp = true) (answered : st ≠ stBusy) :
    done (cardReply cmd tag st s) = .next { s with
      crd := { s.crd with cnt := tinc s.crd.cnt 1, lastTag := tag, lastStat := st }
      out := .cardResponse (responseBytes cmd tag st s.codeNow 0 []) :: s.out } := by
  rw [cardReply_of_up up answered]
  exact done_of_settled hs

theorem crdVec_frame (s : State) : ∃ h o, crdVec s = { s with hst := h, out := o } := ⟨_, _, msix_frame ..⟩

theorem exec_cardRequest (on : s.cardOn = true) (f : CardFrame) : exec (.cardRequest f) s = done (cardDecode f s) :=
  congrArg done (if_pos on)

theorem exec_cardBadFrame (on : s.cardOn = true) (k : BadFrame) (cmd tag : Byte) (n : Nat) :
    exec (.cardBadFrame k cmd tag n) s = done (cardBad k cmd tag n s) :=
  congrArg done (if_pos on)

theorem exec_abort (on : s.cardOn = true) (tag target : Byte) :
    exec (.abort tag target) s = done (cardDecode (frameOf 0x5F tag (target.setWidth 32) []) s) :=
  congrArg done (if_pos on)

/-! ## Decoding (R259, R260) -/

section
variable {f : CardFrame}

theorem any_tag_false {q : List CardReq} {tag : Byte} (fresh : ∀ r ∈ q, r.tag ≠ tag) : q.any (fun r => r.tag = tag) = false := by
  simpa using fresh

/-- A whole request with a known code and a new tag comes to ABORT or to the queue. -/
theorem cardDecode_of_whole (whole : frameWhole f = true) (short : f.length ≤ 4096) (words : f.length % 4 = 0)
    (known : cardCodes.contains f.cmd = true) (fresh : ∀ r ∈ s.crd.queue, r.tag ≠ f.tag) :
    cardDecode f s =
      if f.cmd = 0x5F then abortReq f.tag f.address f.payload (crdCount 0 s)
      else if 8 ≤ s.crd.queue.length then cardReply f.cmd f.tag stBusy (crdCount 0 s)
      else
        let v := cardVerdict f.cmd (crdCount 0 s)
        let t := if v = some stNotInState then rejectFrame .card f.cmd (crdCount 0 s) else crdCount 0 s
        { t with crd.queue := t.crd.queue ++
            [{ cmd := f.cmd, tag := f.tag, address := f.address, payload := f.payload, code := t.codeNow
               aux := match v with | some st => t.auxOf st | none => 0, verdict := v }] } := by
  have inRange : (decide (4096 < f.length) || decide (f.length % 4 ≠ 0)) = false := by simp [Nat.not_lt.mpr short, words]
  have new : (crdCount 0 s).crd.queue.any (fun r => r.tag = f.tag) = false := any_tag_false fresh
  simp only [cardDecode, inRange, whole, known, new, Bool.not_true, Bool.false_eq_true, if_false]
  rfl

theorem cardRequest_queued (hs : Settled s) (on : s.cardOn = true) (whole : frameWhole f = true) (short : f.length ≤ 4096)
    (words : f.length % 4 = 0) (known : cardCodes.contains f.cmd = true) (plain : f.cmd ≠ 0x5F)
    (fresh : ∀ r ∈ s.crd.queue, r.tag ≠ f.tag) (room : s.crd.queue.length < 8) (legal : cardVerdict f.cmd s = none) :
    exec (.cardRequest f) s = .next { s with
      crd.cnt := tinc s.crd.cnt 0
      crd.queue := s.crd.queue ++ [{ cmd := f.cmd, tag := f.tag, address := f.address, payload := f.payload, code := s.codeNow }] } := by
  have legal' : cardVerdict f.cmd (crdCount 0 s) = none := legal
  rw [exec_cardRequest on, cardDecode_of_whole whole short words known fresh, if_neg plain, if_neg (Nat.not_le.mpr room), legal']
  exact done_of_settled hs

theorem cardRequest_refused (hs : Settled s) (on : s.cardOn = true) (whole : frameWhole f = true) (short : f.length ≤ 4096)
    (words : f.length % 4 = 0) (known : cardCodes.contains f.cmd = true) (plain : f.cmd ≠ 0x5F)
    (fresh : ∀ r ∈ s.crd.queue, r.tag ≠ f.tag) (full : 8 ≤ s.crd.queue.length) :
    ∃ t, exec (.cardRequest f) s = .next t ∧
      t = { s with gctl := t.gctl, crd := t.crd, hst := t.hst, out := t.out, freeCtr := t.freeCtr } ∧
      t.crd.queue = s.crd.queue ∧ tget t.crd.cnt 5 = satInc (tget s.crd.cnt 5) ∧
      t.out = .cardResponse (responseBytes f.cmd f.tag 0x01 s.codeNow s.expectMs []) :: s.out := by
  have up : (crdCount 0 s).crd.linkUp = true := (cardOn_iff.mp on).1
  have made := exec_cardRequest on f
  rw [cardDecode_of_whole whole short words known fresh, if_neg plain, if_pos full, cardReply, cardSend_busy up] at made
  refine ⟨_, made.trans (done_of_settled hs), rfl, rfl, ?_, rfl⟩
  simp [crdCount, tget_tinc_other, tget_tinc_same]

/-- A LENGTH out of range is BAD_ARG. -/
theorem cardRequest_badLength (hs : Settled s) (on : s.cardOn = true) (bad : 4096 < f.length ∨ f.length % 4 ≠ 0) :
    ∃ t, exec (.cardRequest f) s = .next t ∧
      t = { s with gctl := t.gctl, crd := t.crd, hst := t.hst, out := t.out, freeCtr := t.freeCtr } ∧
      t.crd.queue = s.crd.queue ∧ t.out.head? = some (.cardResponse (responseBytes f.cmd f.tag 0x03 s.codeNow 0 [])) ∧
      tget t.crd.cnt 4 = satInc (tget s.crd.cnt 4) ∧ tget t.crd.cnt 2 = tget s.crd.cnt 2 := by
  have made := exec_cardRequest on f
  have answered : cardDecode f s = cardReply f.cmd f.tag stBadArg (crdVec (crdCount 4 (crdCount 0 s))) := if_pos (by simpa using bad)
  obtain ⟨x, o, e⟩ := crdVec_frame (crdCount 4 (crdCount 0 s))
  rw [answered, e] at made
  refine ⟨_, made.trans (done_cardReply hs (cardOn_iff.mp on).1 (by decide)), rfl, rfl, rfl, ?_, ?_⟩
  · simp [crdCount, tget_tinc_other, tget_tinc_same]
  · simp [crdCount, tget_tinc_other]

/-- A request that does not end where LENGTH says, or whose CRC-32 differs, is CRC_ERROR. -/
theorem cardRequest_torn (hs : Settled s) (on : s.cardOn = true) (short : f.length ≤ 4096) (words : f.length % 4 = 0)
    (torn : frameWhole f = false) :
    ∃ t, exec (.cardRequest f) s = .next t ∧
      t = { s with gctl := t.gctl, crd := t.crd, hst := t.hst, out := t.out, freeCtr := t.freeCtr } ∧ t.crd.queue = s.crd.queue ∧
      t.out.head? = some (.cardResponse (responseBytes f.cmd f.tag 0x06 s.codeNow 0 [])) ∧
      tget t.crd.cnt 2 = satInc (tget s.crd.cnt 2) ∧ tget t.crd.cnt 4 = tget s.crd.cnt 4 := by
  have made := exec_cardRequest on f
  have answered : cardDecode f s = cardReply f.cmd f.tag stCrcError (crdVec (crdCount 2 (crdCount 0 s))) := by
    have inRange : (decide (4096 < f.length) || decide (f.length % 4 ≠ 0)) = false := by simp [Nat.not_lt.mpr short, words]
    simp only [cardDecode, inRange, torn, Bool.not_false, Bool.false_eq_true, if_false, if_true]
  obtain ⟨x, o, e⟩ := crdVec_frame (crdCount 2 (crdCount 0 s))
  rw [answered, e] at made
  refine ⟨_, made.trans (done_cardReply hs (cardOn_iff.mp on).1 (by decide)), rfl, rfl, rfl, ?_, ?_⟩
  · simp [crdCount, tget_tinc_other, tget_tinc_same]
  · simp [crdCount, tget_tinc_other]

end

theorem cardBadFrame_crc {c tag : Byte} {n : Nat} (hs : Settled s) (on : s.cardOn = true) :
    ∃ t, exec (.cardBadFrame .crc c tag n) s = .next t ∧ t = { s with crd := t.crd, hst := t.hst, out := t.out } ∧
      t.crd.queue = s.crd.queue ∧ t.out.head? = some (.cardResponse (responseBytes c tag 0x06 s.codeNow 0 [])) ∧
      tget t.crd.cnt 2 = satInc (tget s.crd.cnt 2) ∧ tget t.crd.cnt 0 = satInc (tget s.crd.cnt 0) := by
  have made := exec_cardBadFrame on .crc c tag n
  obtain ⟨x, o, e⟩ := crdVec_frame (crdCount 0 s)
  rw [cardBad, e] at made
  refine ⟨_, made.trans (done_cardReply hs (cardOn_iff.mp on).1 (by decide)), rfl, rfl, rfl, ?_, ?_⟩
  · simp [crdCount, tget_tinc_other, tget_tinc_same]
  · simp [crdCount, tget_tinc_other, tget_tinc_same]

/-! ## ABORT (R267) -/

section
variable {tag target : Byte}

/-- ABORT with a new tag comes to its own decoding. -/
theorem exec_abort_fresh (on : s.cardOn = true) (fresh : ∀ r ∈ s.crd.queue, r.tag ≠ tag) :
    exec (.abort tag target) s = done (abortReq tag (target.setWidth 32) [] (crdCount 0 s)) := by
  rw [exec_abort on, cardDecode_of_whole (by simp [frameWhole, frameBody, frameOf]) (by simp [frameOf]) (by simp [frameOf])
    (by simp [frameOf, cardCodes]) fresh]
  rfl

/-- The target that ABORT names. -/
theorem setWidth_target (target : Byte) : (target.setWidth 32).setWidth 8 = target := by
  simp

theorem target_lt (target : Byte) : ¬ 256 ≤ (target.setWidth 32).toNat := by
  have := target.isLt
  simp only [BitVec.toNat_setWidth]
  omega

theorem abort_waiting {h r : CardReq} {q : List CardReq} (hs : Settled s) (on : s.cardOn = true) (queue : s.crd.queue = h :: q)
    (behind : h.tag ≠ target) (fresh : h.tag ≠ tag) (freshRest : ∀ x ∈ q, x.tag ≠ tag) (found : q.find? (fun x => x.tag = target) = some r) :
    ∃ t, exec (.abort tag target) s = .next t ∧
      t = { s with gctl := t.gctl, crd := t.crd, hst := t.hst, out := t.out, freeCtr := t.freeCtr } ∧
      t.crd.queue = (h :: q).filter (fun x => x.tag ≠ target) ∧
      t.out = .cardResponse (responseBytes r.cmd r.tag 0x09 r.code 0 []) ::
        .cardResponse (responseBytes 0x5F tag 0x00 s.codeNow 0 []) :: s.out ∧
      tget t.crd.cnt 6 = satInc (tget s.crd.cnt 6) := by
  have made := exec_abort_fresh (target := target) on (by simpa [queue] using ⟨fresh, freshRest⟩)
  let t : State := crdCount 6 { (crdCount 0 s).drawn with crd.queue := (h :: q).filter (fun x => x.tag ≠ target) }
  have removed : abortReq tag (target.setWidth 32) [] (crdCount 0 s) =
      cardSend r.cmd r.tag stAborted r.code 0 [] (cardReply 0x5F tag stOk t) := by
    have inQueue : (h :: q).find? (fun x => x.tag = target) = some r := by simp [behind, found]
    simp only [abortReq, setWidth_target, target_lt, crdCount, queue, inQueue, behind, t, List.isEmpty_nil, Bool.not_true, decide_false,
      Bool.or_self, Bool.false_and, Bool.false_eq_true, if_false]
  have frame : t = { s with crd := t.crd, freeCtr := t.freeCtr } := rfl
  have queued : t.crd.queue = (h :: q).filter (fun x => x.tag ≠ target) := rfl
  have count : tget t.crd.cnt 6 = satInc (tget s.crd.cnt 6) := by simp [t, crdCount, tget_tinc_other, tget_tinc_same]
  have up : t.crd.linkUp = true := (cardOn_iff.mp on).1
  clear_value t
  have settled : Settled t := frame ▸ hs
  rw [removed, cardReply_of_up up (by decide), cardSend_of_up] at made
  · refine ⟨_, made.trans (done_of_settled settled), ?_, queued, ?_, ?_⟩
    · rw [frame]
    · rw [frame]
      rfl
    · simpa [tget_tinc_other] using count
  · exact up
  · decide

theorem abort_absent (hs : Settled s) (on : s.cardOn = true) (absent : ∀ x ∈ s.crd.queue, x.tag ≠ tag ∧ x.tag ≠ target) :
    ∃ t, exec (.abort tag target) s = .next t ∧
      t = { s with gctl := t.gctl, crd := t.crd, hst := t.hst, out := t.out, freeCtr := t.freeCtr } ∧ t.crd.queue = s.crd.queue ∧
      t.out = .cardResponse (responseBytes 0x5F tag 0x03 s.codeNow 0 []) :: s.out := by
  have made := exec_abort_fresh (target := target) on fun x hx => (absent x hx).1
  have missed : abortReq tag (target.setWidth 32) [] (crdCount 0 s) = cardReply 0x5F tag stBadArg (crdCount 0 s) := by
    have none_ : (crdCount 0 s).crd.queue.find? (fun x => x.tag = target) = none := by
      change s.crd.queue.find? _ = none
      simpa using fun x hx => (absent x hx).2
    simp only [abortReq, setWidth_target, target_lt, none_, List.isEmpty_nil, Bool.not_true, decide_false, Bool.or_self,
      Bool.false_eq_true, if_false]
  rw [missed] at made
  exact ⟨_, made.trans (done_cardReply hs (cardOn_iff.mp on).1 (by decide)), rfl, rfl, rfl⟩

end

/-! ## The link (R257) -/

theorem cardLinkUp_comes (hs : Settled s) (answers : s.mode.answers = true) (down : s.crd.linkUp = false) :
    ∃ t, exec .cardLinkUp s = .next t ∧ t = { s with crd := t.crd, hst := t.hst, out := t.out } ∧
      t.crd = { s.crd with linkUp := true, lanes := 3 } := by
  have made : exec .cardLinkUp s = done (crdVec { s with crd.linkUp := true, crd.lanes := 3 }) :=
    congrArg done (if_pos (by simp [answers, down]))
  obtain ⟨x, o, e⟩ := crdVec_frame { s with crd.linkUp := true, crd.lanes := 3 }
  rw [e] at made
  exact ⟨_, made.trans (done_of_settled hs), rfl, rfl⟩

/-- No request of the queue is executed where the oldest has its verdict. -/
theorem cardLinkDown_drops (hs : Settled s) (on : s.cardOn = true) (judged : ∀ r q, s.crd.queue = r :: q → r.verdict.isSome = true) :
    ∃ u, exec .cardLinkDown s = .next (settle u) ∧
      u = { s with crd := u.crd, flt := u.flt, hst := u.hst, out := u.out, freeCtr := u.freeCtr } ∧ u.crd.linkUp = false ∧
      u.crd.queue = [] ∧ tget u.crd.cnt 7 = satInc (tget s.crd.cnt 7) ∧ u.flt.due = [(90, 0)] := by
  let r : State := { s with freeCtr := s.freeCtr + 2, crd.linkUp := false
                            crd.lanes := BitVec.ofNat 2 (Config.freeNat (s.freeCtr + 1)), crd.queue := [] }
  have made : exec .cardLinkDown s = done (cardDown s) := congrArg done (if_pos on)
  have dropped : cardDown s = raiseDet 90 0 (crdVec (crdCount 7 r)) := by
    unfold cardDown
    cases queue : s.crd.queue with
    | nil => rfl
    | cons x q => simp [r, Option.isSome_iff_ne_none.mp (judged x q queue)]
  obtain ⟨x, o, e⟩ := crdVec_frame (crdCount 7 r)
  rw [dropped, e] at made
  exact ⟨_, made, rfl, rfl, rfl, tget_tset_same _ _ _ (by decide), congrArg _ hs.1⟩

end

end Sys2Proof.Machine

namespace Sys2Proof
open Machine

/-- Settles O40: each frame is judged in the order of R259 and R260, and what answers it names what it counts and sends. -/
theorem cardRequestsArrive : Obligations.CardRequestsArrive :=
  ⟨fun _ _ => cardRequest_queued, fun _ _ => cardRequest_refused, fun _ _ => cardRequest_badLength, fun _ _ => cardRequest_torn,
    fun _ _ _ _ => cardBadFrame_crc, fun _ _ _ _ _ _ => abort_waiting, fun _ _ _ => abort_absent, fun _ => cardLinkUp_comes,
    fun _ => cardLinkDown_drops⟩

end Sys2Proof

/-! # O41: accesses over the card link -/
namespace Sys2Proof.Machine

/-! ## Bytes and words -/

theorem leBytes_ofLe (bs : List Byte) : leBytes bs.length (ofLe bs) = bs := by
  induction bs with
  | nil => rfl
  | cons b bs ih =>
    have low : BitVec.ofNat 8 (b.toNat + 256 * ofLe bs) = b := by
      apply BitVec.eq_of_toNat_eq
      have := b.isLt
      simp only [BitVec.toNat_ofNat]
      omega
    have high : (b.toNat + 256 * ofLe bs) / 256 = ofLe bs := by
      have := b.isLt
      omega
    rw [List.length_cons, ofLe, leBytes, low, high, ih]

theorem ofLe_lt (bs : List Byte) : ofLe bs < 256 ^ bs.length := by
  induction bs with
  | nil => exact Nat.one_pos
  | cons b bs ih =>
    have := b.isLt
    rw [ofLe, List.length_cons, pow_succ]
    omega

/-- Four bytes are one word. -/
theorem wordsOf_four {bs : List Byte} (four : bs.length = 4) : wordsOf bs = [BitVec.ofNat 32 (at32 bs 0)] := by
  match bs, four with
  | [_, _, _, _], _ => rfl

/-- Four bytes are the bytes of their word. -/
theorem leBytes_at32 {bs : List Byte} (four : bs.length = 4) : leBytes 4 (BitVec.ofNat 32 (at32 bs 0)).toNat = bs := by
  have all : at32 bs 0 = ofLe bs := congrArg ofLe (List.take_of_length_le (by simp [four]))
  have fits := ofLe_lt bs
  have bytes := leBytes_ofLe bs
  rw [four] at fits bytes
  rw [all, BitVec.toNat_ofNat, Nat.mod_eq_of_lt (show ofLe bs < 2 ^ 32 from fits), bytes]

/-! ## Executing the oldest request -/

section
variable {s : State} {r : CardReq} {q : List CardReq} {cmd : Byte}

/-- The oldest request, executed, answers OK and leaves the queue. -/
theorem cardRow_ok {t : State} {aux : BitVec 16} {payload : List Byte} (front : CardFront cmd r q s)
    (made : cardExec r s = (t, stOk, aux, payload)) (settled : Settled t) (kept : t.crd = s.crd) :
    cardRow cmd s = .next { t with
      crd := { s.crd with queue := q, cnt := tinc s.crd.cnt 1, lastTag := r.tag, lastStat := 0x00 }
      out := .cardResponse (responseBytes cmd r.tag 0x00 r.code aux payload) :: t.out } := by
  obtain ⟨-, on, queue, rfl, fresh⟩ := front
  have answer : cardAnswer r s = cardSend r.cmd r.tag stOk r.code aux payload { t with crd := { s.crd with queue := q } } := by
    simp only [cardAnswer, fresh, made, kept, queue, List.drop_succ_cons, List.drop_zero]
  have answered : cardRow r.cmd s = done (cardAnswer r s) := by simp [cardRow, queue, on]
  have sent := cardSend_of_up (s := { t with crd := { s.crd with queue := q } }) (cmd := r.cmd) (tag := r.tag) (code := r.code)
    (aux := aux) (payload := payload) (cardOn_iff.mp on).1 (show stOk ≠ stBusy by decide)
  rw [answered, answer, sent]
  exact done_of_settled settled

/-- A request without operands is executed with ADDRESS 0 and no payload. -/
theorem cardExec_bare {f : State → CardAns} (address : r.address = 0) (payload : r.payload = []) (code : r.cmd = 0x01 ∧ f = cardIdent ∨ r.cmd = 0x02 ∧ f = cardStatus) :
    cardExec r s = f s := by
  obtain ⟨h, rfl⟩ | ⟨h, rfl⟩ := code <;> simp [cardExec, h, address, payload]

theorem ident_answers (front : CardFront 0x01 r q s) (address : r.address = 0) (payload : r.payload = []) :
    exec .ident s = .next { s with
      crd.queue := q, crd.cnt := tinc s.crd.cnt 1, crd.lastTag := r.tag, crd.lastStat := 0x00
      out := .cardResponse (responseBytes 0x01 r.tag 0x00 r.code 0 (bytesOf [gctlWord 0 s, lo32 s.otp.serial, hi32 s.otp.serial, 0x10000001, 8,
        imgWord 0x14 s, s.arc.selSeq, BitVec.setWidth 32 s.gctl.loadStat])) :: s.out } :=
  cardRow_ok front (cardExec_bare address payload (.inl ⟨front.2.2.2.1, rfl⟩)) front.1 rfl

theorem status_answers (front : CardFront 0x02 r q s) (address : r.address = 0) (payload : r.payload = []) :
    exec .status s = .next { s with
      crd.queue := q, crd.cnt := tinc s.crd.cnt 1, crd.lastTag := r.tag, crd.lastStat := 0x00
      out := .cardResponse (responseBytes 0x02 r.tag 0x00 r.code 0
        (bytesOf [gctlWord 4 s, gctlWord 8 s, lo32 s.tck.index, crdStat s])) :: s.out } :=
  cardRow_ok front (cardExec_bare address payload (.inr ⟨front.2.2.2.1, rfl⟩)) front.1 rfl

/-! ## READ_REG and WRITE_REG (R263) -/

theorem liveRead_frame (src : Source) (a : Nat) (s : State) :
    (liveRead src a s).1 = { s with shadows := (liveRead src a s).1.shadows, freeCtr := (liveRead src a s).1.freeCtr } := by
  unfold liveRead
  split_ifs
  · rfl
  · rfl
  · rfl
  · cases src <;> rfl

/-- A register read changes no more than a counter of HST, the shadows and the choices left open. -/
theorem regRead_frame (src : Source) (a : Nat) (s : State) :
    (regRead src a s).1 = { s with
      hst := (regRead src a s).1.hst, shadows := (regRead src a s).1.shadows, freeCtr := (regRead src a s).1.freeCtr } := by
  unfold regRead
  split
  · rfl
  · split
    · rfl
    · split_ifs
      · rfl
      · rfl
      · rw [liveRead_frame]

/-- One word of a READ_REG: the bytes so far and those of the register. -/
def readRegStep (a : Nat) (rep : Bool) (acc : State × List Byte) (i : Nat) : State × List Byte :=
  let y := regRead .card (if rep then a else a + 4 * i) acc.1
  (y.1, acc.2 ++ leBytes 4 y.2.toNat)

theorem readRegSteps_frame (a : Nat) (rep : Bool) (is : List Nat) (acc : State × List Byte) :
    (is.foldl (readRegStep a rep) acc).1 = { acc.1 with
      hst := (is.foldl (readRegStep a rep) acc).1.hst
      shadows := (is.foldl (readRegStep a rep) acc).1.shadows
      freeCtr := (is.foldl (readRegStep a rep) acc).1.freeCtr } := by
  induction is generalizing acc with
  | nil => rfl
  | cons i is ih =>
    rw [List.foldl_cons, ih (readRegStep a rep acc i)]
    simp only [readRegStep]
    rw [regRead_frame .card _ acc.1]

/-- Each word adds its four bytes. -/
theorem readRegSteps_bytes (a : Nat) (rep : Bool) (is : List Nat) (acc : State × List Byte) :
    ∃ bs, (is.foldl (readRegStep a rep) acc).2 = acc.2 ++ bs ∧ bs.length = 4 * is.length := by
  induction is generalizing acc with
  | nil => exact ⟨[], by simp, rfl⟩
  | cons i is ih =>
    obtain ⟨bs, read, length⟩ := ih (readRegStep a rep acc i)
    refine ⟨leBytes 4 (regRead .card (if rep then a else a + 4 * i) acc.1).2.toNat ++ bs, ?_, ?_⟩
    · rw [List.foldl_cons, read, readRegStep, List.append_assoc]
    · simp only [List.length_append, length_leBytes, length, List.length_cons]
      omega

theorem cardCount_some {lo hi n : Nat} (count : cardCount r lo hi = some n) : lo ≤ n ∧ n % 4 = 0 := by
  simp only [cardCount, Bool.and_eq_true, decide_eq_true_eq, Option.ite_none_right_eq_some, Option.some.injEq] at count
  obtain ⟨⟨⟨⟨-, low⟩, -⟩, whole⟩, rfl⟩ := count
  exact ⟨low, whole⟩

theorem readReg_answers {a n : Nat} {rep : Bool} (front : CardFront 0x10 r q s) (range : regRange r = some (a, rep))
    (count : cardCount r 4 256 = some n) :
    ∃ t data, exec .readReg s = .next t ∧
      t = { s with arc := t.arc, crd := t.crd, ldg := t.ldg, flt := t.flt, hst := t.hst, shadows := t.shadows, out := t.out, freeCtr := t.freeCtr } ∧
      t.crd.queue = q ∧ t.out = .cardResponse (responseBytes 0x10 r.tag 0x00 r.code 0 data) :: s.out ∧ data.length = n ∧
      data.take 4 = leBytes 4 (regRead .card a s).2.toNat := by
  obtain ⟨atLeast, whole⟩ := cardCount_some count
  let x := (List.range (n / 4)).foldl (readRegStep a rep) (s, [])
  have made : cardExec r s = (x.1, stOk, 0, x.2) := by
    have code : r.cmd = 0x10 := front.2.2.2.1
    have read : cardReadReg r s = (x.1, stOk, 0, x.2) := by
      simp only [cardReadReg, range, count]
      rfl
    simp [cardExec, code, read]
  have frame : x.1 = { s with hst := x.1.hst, shadows := x.1.shadows, freeCtr := x.1.freeCtr } := readRegSteps_frame ..
  obtain ⟨k, words⟩ : ∃ k, n / 4 = k + 1 := ⟨n / 4 - 1, by omega⟩
  obtain ⟨bs, read, length⟩ := readRegSteps_bytes a rep ((List.range k).map Nat.succ) (readRegStep a rep (s, []) 0)
  have data : x.2 = leBytes 4 (regRead .card a s).2.toNat ++ bs := by
    simp only [x, words, List.range_succ_eq_map, List.foldl_cons, read]
    simp [readRegStep]
  have bytes : x.2.length = n := by
    rw [data, List.length_append, length_leBytes, length, List.length_map, List.length_range]
    omega
  have first : x.2.take 4 = leBytes 4 (regRead .card a s).2.toNat := by rw [data, List.take_left' (length_leBytes ..)]
  clear_value x
  have answered := cardRow_ok front made (frame ▸ front.1) (by rw [frame])
  refine ⟨_, x.2, answered, ?_, rfl, ?_, bytes, first⟩
  · rw [frame]
  · rw [frame]

/-- GPIO_OUT takes the low half of the word. -/
theorem regWrite_gpioOut (hears : s.hears .card = true) (hm : s.mode.fromArmed = true) (v : Word) :
    regWrite .card 0x3E00C v s = { s with gpio.out := v.setWidth 16 } := by
  rw [regWrite_plain (row := 22) hears (by decide) (by rfl) (by rfl) (by decide), judged_of_fromArmed hears hm (row := 22) rfl (by decide)]
  rfl

theorem writeReg_gpioOut (front : CardFront 0x11 r q s) (hm : s.mode.fromArmed = true) (range : regRange r = some (0x3E00C, false))
    (four : r.payload.length = 4) :
    exec .writeReg s = .next { s with
      gpio.out := BitVec.ofNat 16 (at32 r.payload 0), crd.queue := q, crd.cnt := tinc s.crd.cnt 1, crd.lastTag := r.tag
      crd.lastStat := 0x00, out := .cardResponse (responseBytes 0x11 r.tag 0x00 r.code 0 []) :: s.out } := by
  have hears : s.hears .card = true := by simp [State.hears, (cardOn_iff.mp front.2.1).2]
  have made : cardExec r s = ({ s with gpio.out := BitVec.ofNat 16 (at32 r.payload 0) }, stOk, 0, []) := by
    have code : r.cmd = 0x11 := front.2.2.2.1
    simp [cardExec, code, cardWriteReg, range, four, wordsOf_four four, regWrite_gpioOut hears hm]
  exact cardRow_ok front made front.1 rfl

/-! ## READ_BLOCK and WRITE_BLOCK in the grid window (R264) -/

theorem readBlock_answers {e : EccView} {o n : Nat} (front : CardFront 0x20 r q s) (hm : s.mode.fromArmed = true)
    (grid : BitVec.getLsbD r.address 31 = false) (count : cardCount r 32 4096 = some n) (range : gridRange r n = some o) :
    exec (.readBlock e) s = .next { s with
      arc.bitErrs := e, crd.queue := q, crd.cnt := tinc s.crd.cnt 1, crd.lastTag := r.tag, crd.lastStat := 0x00
      out := .cardResponse (responseBytes 0x20 r.tag 0x00 r.code 0
        ((List.range (n / 4)).flatMap (fun i => leBytes 4 (Memory.read32 s.mem (gridBase + (o + 4 * i))).toNat))) :: s.out } := by
  have shown : CardFront 0x20 r q (s.showing e) := front
  have made : cardExec r (s.showing e) = (s.showing e, stOk, 0,
      (List.range (n / 4)).flatMap (fun i => leBytes 4 (Memory.read32 s.mem (gridBase + (o + 4 * i))).toNat)) := by
    have code : r.cmd = 0x20 := front.2.2.2.1
    have live : (s.showing e).mode.fromArmed = true := hm
    simp only [cardExec, code, cardReadBlock, count, grid, range, gridWinRead, live]
    rfl
  exact cardRow_ok shown made front.1 rfl

theorem writeBlock_answers {o : Nat} (front : CardFront 0x21 r q s) (hmem : MemoryOk s) (four : r.payload.length = 4)
    (range : gridRange r 4 = some o) (owned : s.hostRange (gridBase + o) 4 = true) :
    ∃ t, exec .writeBlock s = .next t ∧
      t = { s with crd := t.crd, mem := t.mem, out := t.out } ∧ t.crd.queue = q ∧
      t.out = .cardResponse (responseBytes 0x21 r.tag 0x00 r.code 0 []) :: s.out ∧
      Memory.read t.mem (gridBase + o) 4 = r.payload ∧
      ∀ a, a < gridBase + o ∨ gridBase + o + 4 ≤ a → Memory.get t.mem a = Memory.get s.mem a := by
  have made : cardExec r s = ({ s with mem := Memory.write s.mem (gridBase + o) r.payload }, stOk, 0, []) := by
    have code : r.cmd = 0x21 := front.2.2.2.1
    have written : gridWinWrite o (BitVec.ofNat 32 (at32 r.payload 0)) s = { s with mem := Memory.write s.mem (gridBase + o) r.payload } := by
      rw [gridWinWrite, if_pos owned, leBytes_at32 four]
    simp [cardExec, code, cardWriteBlock, range, four, wordsOf_four four, written]
  refine ⟨_, cardRow_ok front made front.1 rfl, rfl, rfl, rfl, ?_, fun a outside => ?_⟩
  · rw [← four]
    exact Memory.read_write hmem
  · exact Memory.get_write_other hmem (by rw [four]; exact outside)

end

end Sys2Proof.Machine

namespace Sys2Proof
open Machine

/-- Settles O41: each of the requests executes to OK with its data, and the rule of the oldest request sends that answer and takes the
request off the queue. -/
theorem cardReadsAndWrites : Obligations.CardReadsAndWrites :=
  ⟨fun _ _ _ front address payload => ident_answers front address payload,
   fun _ _ _ front address payload => status_answers front address payload,
   fun _ _ _ _ _ _ front range count => readReg_answers front range count,
   fun _ _ _ front hm range four => writeReg_gpioOut front hm range four,
   fun _ _ _ _ _ _ front hm grid count range => readBlock_answers front hm grid count range,
   fun _ _ _ _ front hmem four range owned => writeBlock_answers front hmem four range owned⟩

end Sys2Proof

/-! # O31: two records that lack CLOSE: a statement that fails -/
namespace Sys2Proof.Machine

/-- The OPEN word of the record of that REC_SEQ, with one position and blocks of 1 KiB (R277). -/
def openBytesOf (seq : Nat) : List Byte :=
  leBytes 4 0x52544956 ++ leBytes 4 seq ++ [0, 1, 1, 0] ++ zeros 16 ++ leBytes 4 (0xFFFFFFFF - seq)

/-- A device in ARMED whose INCIDENT area holds two records without CLOSE, those of REC_SEQ 1 and 2. -/
def twiceUnsealed : State := { State.reset with
  gctl := { mode := .armed, everArmed := true }
  img := { run := some {
    incident := some { en := true, post := 1, sumKib := 1 }
    arcArea := { areas := [{ kind := 1, bank := 1, first := 20, count := 2 }] } } }
  arc := { words := [(sectorBase true 20 / 32, .prog (openBytesOf 1)), (sectorBase true 21 / 32, .prog (openBytesOf 2))] } }

theorem newestRec_twiceUnsealed : newestRec (recordsIn twiceUnsealed.arc twiceUnsealed.incArea) =
    some { first := 21, seq := 2, sumKib := 1, tick0 := 0, isSealed := false, exported := false } := by
  decide +kernel

/-- Each of them is sealed and counted (R279). -/
theorem records_startSeal_twiceUnsealed : (settle (startSeal twiceUnsealed)).inc.records = 2 := by
  decide +kernel

end Sys2Proof.Machine

namespace Sys2Proof
open Machine

/-- Refutes O31 in its clause on the seal at start: `twiceUnsealed` holds two records that lack CLOSE, both are sealed with
cause 3, and RECORDS rises by two, not by one. The clause lacks the premise that no other record lacks CLOSE. -/
theorem not_vitrine : ¬ Obligations.Vitrine := by
  rintro ⟨-, -, -, -, -, -, -, startSealed⟩
  obtain ⟨t, ht, -, counted, -⟩ := startSealed _ twiceUnsealed ⟨rfl, rfl⟩ rfl rfl (by decide) rfl newestRec_twiceUnsealed rfl rfl
  have made : exec .vitrineStartSeal twiceUnsealed = done (startSeal twiceUnsealed) := congrArg done (if_pos (by decide))
  have left : settle (startSeal twiceUnsealed) = t := Host.Outcome.next.inj (made.symm.trans ht)
  have two := left ▸ records_startSeal_twiceUnsealed
  rw [counted] at two
  exact absurd two (by decide)

end Sys2Proof

/-! # O59: a TRIGGER that meets the end of a SWAP_BOOT: a statement that fails -/
namespace Sys2Proof.Machine

/-! ## One pulse at the warden -/

/-- What one pulse in detector `d` becomes at the warden, once it is taken. -/
def tookPulse (d : Nat) (detail : Word) (s : State) : State :=
  let taken := takePattern true { det := d, p := false, n := true, detail := detail } { s with flt.due := [] }
  react (match taken.2 with | some level => [(d, level)] | none => []) taken.1

/-- A single pulse is taken, then what it raises in its turn. -/
theorem settle_of_due {s : State} {d : Nat} {detail : Word} (due : s.flt.due = [(d, detail)]) (on : s.mode ≠ .off) (present : s.mode ≠ .removal)
    (exists_ : detExists d = true) : settle s = flushPorts (settleN 3 (tookPulse d detail s)) := by
  have live : ¬(({ s with flt.due := [] } : State).mode = .off ∨ ({ s with flt.due := [] } : State).mode = .removal) := not_or.mpr ⟨on, present⟩
  rw [settle, settleN_succ_of_due due, takePatterns, if_neg (by simpa using live)]
  simp only [List.filter_cons, exists_, if_true, List.filter_nil, List.mergeSort_singleton, List.foldl_cons, List.foldl_nil, List.nil_append]
  rfl

/-! ## The words of a record -/

section
variable {s : State}

/-- A device agent's word changes the array, and draws where the word fails. -/
theorem devPut_frame (a : Nat) (bytes : List Byte) (s : State) :
    ∃ b n, devPut a bytes s = { s with arc := b, freeCtr := n } ∧ b.prog = s.arc.prog := by
  unfold devPut devWord
  split_ifs
  · exact ⟨_, _, rfl, rfl⟩
  · exact ⟨_, s.freeCtr, rfl, rfl⟩

theorem devPutFirst_frame (places : List Nat) (bytes : List Byte) (s : State) :
    ∃ b n, devPutFirst places bytes s = { s with arc := b, freeCtr := n } ∧ b.prog = s.arc.prog := by
  induction places generalizing s with
  | nil => exact ⟨s.arc, s.freeCtr, rfl, rfl⟩
  | cons a places ih =>
    obtain ⟨b, n, put, prog⟩ := devPut_frame a bytes s
    unfold devPutFirst
    split_ifs
    · obtain ⟨c, m, rest, kept⟩ := ih (devPut a bytes s)
      exact ⟨c, m, by rw [rest, put], by rw [kept, put]; exact prog⟩
    · exact ⟨b, n, put, prog⟩

theorem putRec_frame (area : Area) (first w : Nat) (words : List (List Byte)) (s : State) :
    ∃ b n, putRec area first w words s = { s with arc := b, freeCtr := n } ∧ b.prog = s.arc.prog := by
  induction words generalizing w s with
  | nil => exact ⟨s.arc, s.freeCtr, rfl, rfl⟩
  | cons bytes words ih =>
    obtain ⟨b, n, put, prog⟩ := devPut_frame (recWord area first w) bytes s
    obtain ⟨c, m, rest, kept⟩ := ih (w + 1) (devPut (recWord area first w) bytes s)
    exact ⟨c, m, by rw [putRec, rest, put], by rw [kept, put]; exact prog⟩

@[simp] theorem arcEnd_flt (code st : Byte) (s : State) : (arcEnd code st s).flt = s.flt := by simp [arcEnd, arcStat]

@[simp] theorem suspendNow_flt (e : ArcErase) (s : State) : (suspendNow e s).flt = s.flt := by
  unfold suspendNow
  split_ifs <;> simp [arcCount]

@[simp] theorem arcNow_flt (s : State) : (arcNow s).flt = s.flt := by
  unfold arcNow
  extract_lets t
  have suspended : t.flt = s.flt := by
    unfold t
    split
    · split_ifs <;> simp
    · rfl
  split
  · split_ifs <;> exact suspended
  · exact suspended

theorem arcNow_frame (s : State) : ∃ a h o, arcNow s = { s with arc := a, hst := h, out := o } ∧ a.prog = s.arc.prog := by
  have frame := frame_of_unread (arcNow_unread s)
  refine ⟨(arcNow s).arc, (arcNow s).hst, (arcNow s).out, ?_, reader_of_unread Arc.prog (fun _ => rfl) (arcNow_unread s)⟩
  rw [arcNow_flt] at frame
  exact frame

/-- A device agent that finds no program of the host only makes an erase wait. -/
theorem agentTurn_frame_of_idle (idle : s.arc.prog = none) :
    ∃ a h o, agentTurn s = { s with arc := a, hst := h, out := o } ∧ a.prog = none := by
  obtain ⟨a, h, o, frame, prog⟩ := arcNow_frame s
  rw [idle] at prog
  have none_ends : progEnds (arcNow s) = { s with arc := a, hst := h, out := o } := by simp only [progEnds, frame, prog]
  unfold agentTurn
  rw [none_ends]
  extract_lets t
  split
  · split_ifs
    · exact ⟨a, h, o, rfl, prog⟩
    · exact ⟨_, h, o, rfl, prog⟩
    · exact ⟨_, h, o, rfl, prog⟩
  · exact ⟨a, h, o, rfl, prog⟩

theorem addTrig_frame_of_idle (t : TrigEntry) (idle : s.arc.prog = none) :
    ∃ a i h o n, addTrig t s = { s with arc := a, inc := i, hst := h, out := o, freeCtr := n } := by
  unfold addTrig
  split
  · exact ⟨s.arc, s.inc, s.hst, s.out, s.freeCtr, rfl⟩
  · obtain ⟨a, h, o, turn, -⟩ := agentTurn_frame_of_idle idle
    extract_lets u places v
    obtain ⟨b, n, put, -⟩ := devPutFirst_frame places (trigWord t) u
    have frame : v = { s with arc := b, hst := h, out := o, freeCtr := n } := by rw [show v = _ from put, show u = _ from turn]
    rw [frame]
    exact ⟨_, _, _, _, _, rfl⟩

/-- Opening a record, the operation of the host that stands first ends; what follows changes the array and the vitrine. -/
theorem openRecord_frame (t : TrigEntry) (s : State) (ends : ∀ i, (agentTurn { s with inc := i }).arc.prog = none) :
    ∃ i a j h o n, openRecord t s = { agentTurn { s with inc := i } with arc := a, inc := j, hst := h, out := o, freeCtr := n } := by
  unfold openRecord
  extract_lets sec m free pre tick0 r _ u v w
  have begun : u = { s with inc := u.inc } := rfl
  obtain ⟨a, n, put, prog⟩ := putRec_frame u.incArea r.first 0 [openWord u r] (agentTurn u)
  have idle : v.arc.prog = none := by
    rw [show v = _ from put]
    exact prog.trans (begun ▸ ends u.inc)
  obtain ⟨b, i, h, o, k, added⟩ := addTrig_frame_of_idle t idle
  have taken : ∃ b i h o k, w = { agentTurn u with arc := b, inc := i, hst := h, out := o, freeCtr := k } := by
    unfold w
    rw [msix_frame, added, show v = _ from put]
    exact ⟨_, _, _, _, _, rfl⟩
  obtain ⟨b, i, h, o, k, taken⟩ := taken
  clear_value w
  rw [taken]
  split_ifs
  · obtain ⟨j, ended⟩ := endCapture_frame { agentTurn u with arc := b, inc := i, hst := h, out := o, freeCtr := k }
    exact ⟨u.inc, b, j, h, o, k, ended⟩
  · exact ⟨u.inc, b, i, h, o, k, rfl⟩

end

/-! ## The counterexample -/

/-- A broadcast of the device with address 1. -/
def fromOne : MsgHdr := { dst := 0xFFF, src := 1, hopsLeft := 1, replyReq := false, mseq := 0, corr := 0 }

/-- A device in SAFE with one fabric link and a vitrine that is READY, on which SWAP_BOOT programs the first word of SELECTOR sector 0.
Sector 1 holds a word and has reached its rated endurance; detector 77 has the reaction DEGRADE. -/
def swapOverWorn : State := { State.reset with
  gctl := { mode := .safe, everArmed := true }
  img := { run := some {
    fabric := some {}
    incident := some { en := true, post := 1, sumKib := 1, trigEn := 16, faultLevel := 3 }
    faultMap := { entries := List.replicate 77 {} ++ [{ react := 2 }] }
    arcArea := { areas := [{ kind := 1, bank := 1, first := 20, count := 2 }] } } }
  fab := { ports := tset State.reset.fab.ports 0 { pstate := 3 } }
  inc := { vstate := .ready }
  arc := {
    words := [(256, .prog (selectorBytes 1 .a 0))]
    hdrs := [(1, { count := 100000 })]
    prog := some { owner := .host .pcie, code := 0x60, addr := 0, data := selectorBytes 2 .a 0 } } }

theorem broadcast_fromOne : Broadcast 0 fromOne swapOverWorn := by
  refine ⟨⟨⟨rfl, rfl⟩, by decide, by decide, rfl, rfl, by decide⟩, by decide, by decide, rfl, by decide, by decide, rfl, ?_⟩
  intro m seen
  cases seen

/-- The TRIGGER as `swapOverWorn` takes it. -/
def triggered : State :=
  arrive 0 fromOne (.trigger 0 1) none (fun t => (vitTrigger cauFabric (fromOne.src.setWidth 16) 0 0 t, stOk)) swapOverWorn

theorem exec_trigger_swapOverWorn : exec (.trigger 0 fromOne 0 1) swapOverWorn = done triggered := rfl

/-- The TRIGGER opens a record, once its frame has been taken. -/
theorem triggered_opens : ∃ t f o, triggered = openRecord t { swapOverWorn with fab := f, out := o } := ⟨_, _, _, rfl⟩

/-- The record's first word waits for the end of SWAP_BOOT, whose relief erase wears sector 1. -/
theorem triggered_frame : ∃ a i f h o n, triggered = { swapOverWorn with
    arc := a, inc := i, fab := f, hst := h, out := o, freeCtr := n, flt.due := [(77, 0x2000)] } := by
  obtain ⟨t, f, o, opens⟩ := triggered_opens
  obtain ⟨i, a, j, h, p, n, frame⟩ := openRecord_frame t { swapOverWorn with fab := f, out := o } fun i => by rfl
  have worn : (agentTurn { swapOverWorn with inc := i, fab := f, out := o }).flt.due = [(77, 0x2000)] := rfl
  have rest := frame_of_unposted (agentTurn_unposted { swapOverWorn with inc := i, fab := f, out := o })
  rw [worn] at rest
  rw [opens, frame, show agentTurn { swapOverWorn with inc := i, fab := f, out := o } = _ from rest]
  exact ⟨_, _, _, _, _, _, rfl⟩

/-- The reaction, which SAFE does not apply, is kept as a cause of DEGRADED (R359). -/
theorem degWarden_triggered : (settle triggered).gctl.degWarden = true := by
  obtain ⟨a, i, f, h, o, n, frame⟩ := triggered_frame
  have due : triggered.flt.due = [(77, 0x2000)] := by rw [frame]
  have mode : triggered.mode = .safe := by
    rw [frame]
    rfl
  rw [settle_of_due due (by simp [mode]) (by simp [mode]) (by decide), (flushPorts_frame _).1, frame]
  rfl

end Sys2Proof.Machine

namespace Sys2Proof
open Machine

/-- Refutes O59 in its clause on TRIGGER: from `swapOverWorn` the record's first word waits for the end of SWAP_BOOT, whose relief
erase raises detector 77, and the warden keeps its reaction as a cause of DEGRADED, which the clause's state has as before. The clause
lacks the premise that no operation of the host is in progress on the array. -/
theorem not_fabricMessages : ¬ Obligations.FabricMessages := by
  rintro ⟨-, -, trigger, -⟩
  obtain ⟨t, r, ht, frame, -⟩ := trigger 0 fromOne 0 1 swapOverWorn broadcast_fromOne (.inr (.inr rfl)) (by decide) (by decide) rfl rfl
    (by decide) (by decide)
  have made : settle triggered = t := Host.Outcome.next.inj (exec_trigger_swapOverWorn.symm.trans ht)
  have caused := made ▸ degWarden_triggered
  have none_ : t.gctl.degWarden = false := by
    rw [frame]
    rfl
  exact absurd (none_.symm.trans caused) (by decide)

end Sys2Proof

/-! # The fabric: what its operations leave

`State.offFabric` is what the operations of the fabric's links, graph and messages cannot change: everything but the fabric, what waits
for the warden, its levels, and what leaves the device. -/
namespace Sys2Proof.Machine

/-! ## Everything but the fabric -/

/-- The state without what the fabric's operations may change. -/
def State.offFabric (s : State) : State := { s with fab := {}, flt := {}, hst := {}, out := [] }

theorem frame_of_offFabric {s t : State} (h : t.offFabric = s.offFabric) :
    t = { s with fab := t.fab, flt := t.flt, hst := t.hst, out := t.out } := by
  have e : t = { t.offFabric with fab := t.fab, flt := t.flt, hst := t.hst, out := t.out } := rfl
  rw [h] at e
  exact e

@[simp] theorem offFabric_ite (c : Prop) [Decidable c] (s t : State) :
    (if c then s else t).offFabric = if c then s.offFabric else t.offFabric :=
  apply_ite ..

@[simp] theorem offFabric_foldl {α : Type} (f : State → α → State) (l : List α) (s : State)
    (h : ∀ t x, (f t x).offFabric = t.offFabric) : (l.foldl f s).offFabric = s.offFabric := by
  induction l generalizing s with
  | nil => rfl
  | cons x l ih => rw [List.foldl_cons, ih, h]

@[simp] theorem offFabric_fab (s : State) (f : Fab) : State.offFabric { s with fab := f } = s.offFabric := rfl

@[simp] theorem msix_offFabric (v : Nat) (en : Bool) (s : State) : (msix v en s).offFabric = s.offFabric := by
  rw [msix_frame]
  rfl

@[simp] theorem raiseDet_offFabric (d : Nat) (w : Word) (s : State) : (raiseDet d w s).offFabric = s.offFabric := rfl
@[simp] theorem levelOff_offFabric (d : Nat) (s : State) : (levelOff d s).offFabric = s.offFabric := rfl
@[simp] theorem fabVec_offFabric (s : State) : (fabVec s).offFabric = s.offFabric := msix_offFabric ..
@[simp] theorem setPort_offFabric (s : State) (p : Nat) (x : Port) : (s.setPort p x).offFabric = s.offFabric := rfl
@[simp] theorem say_offFabric (s : State) (o : Out) : (s.say o).offFabric = s.offFabric := rfl

@[simp] theorem sendAck_offFabric (p : Nat) (k : BitVec 4) (n : BitVec 12) (s : State) : (sendAck p k n s).offFabric = s.offFabric := by
  rw [sendAck, say_offFabric, setPort_offFabric]

@[simp] theorem acceptLink_offFabric (p : Nat) (rx : LinkRx) (s : State) : (acceptLink p rx s).offFabric = s.offFabric := by
  rw [acceptLink, sendAck_offFabric, setPort_offFabric]

@[simp] theorem heard_offFabric (p : Nat) (hdr : MsgHdr) (s : State) : (s.heard p hdr).offFabric = s.offFabric := acceptLink_offFabric ..

@[simp] theorem sendPort_offFabric (p : Nat) (h : MsgHdr) (m : FabMsg) (s : State) : (sendPort p h m s).offFabric = s.offFabric := by
  obtain ⟨q, e⟩ := sendPort_frame p h m s
  rw [e]
  rfl

@[simp] theorem sendAll_offFabric (but : Option Nat) (h : MsgHdr) (m : FabMsg) (s : State) :
    (sendAll but h m s).offFabric = s.offFabric := by
  simp [sendAll]

@[simp] theorem sendBroadcast_offFabric (m : FabMsg) (s : State) : (sendBroadcast m s).offFabric = s.offFabric := by
  simp [sendBroadcast]

@[simp] theorem sendLink_offFabric (p : Nat) (m : FabMsg) (s : State) : (sendLink p m s).offFabric = s.offFabric := by
  simp [sendLink]

@[simp] theorem graphChanged_offFabric (s : State) : (graphChanged s).offFabric = s.offFabric := by
  unfold graphChanged
  extract_lets routes _ t _ _ _ _ u
  have routed : t.offFabric = s.offFabric := by
    unfold t
    split_ifs
    · rfl
    · rfl
  have kept : u.offFabric = s.offFabric := routed
  clear_value u
  simp [kept]

@[simp] theorem storeLsa_offFabric (r : LsaRec) (s : State) : (storeLsa r s).offFabric = s.offFabric := by simp [storeLsa]

@[simp] theorem floodLsa_offFabric (s : State) : (floodLsa s).offFabric = s.offFabric := by simp [floodLsa]

@[simp] theorem linkDown_offFabric (p : Nat) (s : State) : (linkDown p s).offFabric = s.offFabric := by simp [linkDown]

@[simp] theorem linkLost_offFabric (p : Nat) (s : State) : (linkLost p s).offFabric = s.offFabric := by simp [linkLost]

@[simp] theorem setRole_offFabric (r : BitVec 3) (s : State) : (setRole r s).offFabric = s.offFabric := by simp [setRole]

@[simp] theorem genHeard_offFabric (e : BitVec 64) (s : State) : (genHeard e s).offFabric = s.offFabric := rfl

@[simp] theorem setEpoch_offFabric (e : BitVec 64) (s : State) : (setEpoch e s).offFabric = s.offFabric := by simp [setEpoch]

@[simp] theorem sendRole_offFabric (s : State) : (sendRole s).offFabric = s.offFabric := by simp [sendRole]

@[simp] theorem trackLoss_offFabric (s : State) : (trackLoss s).offFabric = s.offFabric := by simp [trackLoss]

@[simp] theorem judgeDup_offFabric (s : State) : (judgeDup s).offFabric = s.offFabric := by
  simp [judgeDup]

@[simp] theorem dbChanged_offFabric (s : State) : (dbChanged s).offFabric = s.offFabric := by simp [dbChanged]

/-! ## The ports -/

section
variable {p : Nat}

@[simp] theorem port_setPort_same (h : p < 4) (s : State) (x : Port) : (s.setPort p x).port p = x := tget_tset_same _ _ _ h

theorem port_setPort_other {q : Nat} (h : p ≠ q) (s : State) (x : Port) : (s.setPort p x).port q = s.port q := tget_tset_other _ _ _ _ h

theorem setPort_setPort (s : State) (p : Nat) (x y : Port) : (s.setPort p x).setPort p y = s.setPort p y := by
  simp [State.setPort, tset_tset]

end

/-! ## What floods and messages leave of the fabric -/

/-- The fabric without what a flood, a message sent or a change of the graph may change. -/
def Fab.unflooded (f : Fab) : Fab := { f with
  cnt := default, routes := [], devices := 0, hopsMgr := 0, deep := false, lsaSeq := 0, lsaMono := 0, db := [], changeMono := 0
  settled := false, mseq := 0, outq := [] }

/-- What looks past a flood reads as before. -/
theorem reader_of_unflooded {β : Type} (g : Fab → β) (blind : ∀ f, g f.unflooded = g f) {s t : State}
    (h : t.fab.unflooded = s.fab.unflooded) : g t.fab = g s.fab := by
  rw [← blind t.fab, h, blind]

@[simp] theorem unflooded_ite (c : Prop) [Decidable c] (s t : State) :
    (if c then s else t).fab.unflooded = if c then s.fab.unflooded else t.fab.unflooded :=
  apply_ite (fun u : State => u.fab.unflooded) ..

@[simp] theorem unflooded_foldl {α : Type} (f : State → α → State) (l : List α) (s : State)
    (h : ∀ t x, (f t x).fab.unflooded = t.fab.unflooded) : (l.foldl f s).fab.unflooded = s.fab.unflooded := by
  induction l generalizing s with
  | nil => rfl
  | cons x l ih => rw [List.foldl_cons, ih, h]

@[simp] theorem fabVec_fab (s : State) : (fabVec s).fab = s.fab := by rw [fabVec, msix_frame]

@[simp] theorem sendPort_unflooded (p : Nat) (h : MsgHdr) (m : FabMsg) (s : State) :
    (sendPort p h m s).fab.unflooded = s.fab.unflooded := by
  obtain ⟨q, e⟩ := sendPort_frame p h m s
  rw [e]
  rfl

@[simp] theorem sendAll_unflooded (but : Option Nat) (h : MsgHdr) (m : FabMsg) (s : State) :
    (sendAll but h m s).fab.unflooded = s.fab.unflooded := by
  simp [sendAll]

@[simp] theorem sendBroadcast_unflooded (m : FabMsg) (s : State) : (sendBroadcast m s).fab.unflooded = s.fab.unflooded :=
  sendAll_unflooded ..

@[simp] theorem sendLink_unflooded (p : Nat) (m : FabMsg) (s : State) : (sendLink p m s).fab.unflooded = s.fab.unflooded :=
  sendPort_unflooded ..

@[simp] theorem graphChanged_unflooded (s : State) : (graphChanged s).fab.unflooded = s.fab.unflooded := by
  unfold graphChanged
  extract_lets routes _ t _ _ _ _ u
  have routed : t.fab.unflooded = s.fab.unflooded := by
    unfold t
    split_ifs
    · rfl
    · rfl
  have kept : u.fab.unflooded = s.fab.unflooded := routed
  clear_value u
  simp [kept]

@[simp] theorem storeLsa_unflooded (r : LsaRec) (s : State) : (storeLsa r s).fab.unflooded = s.fab.unflooded := by
  unfold storeLsa
  extract_lets same t
  have kept : t.fab.unflooded = s.fab.unflooded := rfl
  split_ifs
  · exact kept
  · exact (graphChanged_unflooded _).trans kept

@[simp] theorem floodLsa_unflooded (s : State) : (floodLsa s).fab.unflooded = s.fab.unflooded := by
  unfold floodLsa
  split_ifs
  · exact (sendBroadcast_unflooded ..).trans (storeLsa_unflooded ..)
  · rfl

/-- A port reads as before. -/
theorem port_of_unflooded {s t : State} (h : t.fab.unflooded = s.fab.unflooded) (p : Nat) : t.port p = s.port p :=
  reader_of_unflooded (fun f => tget f.ports p) (fun _ => rfl) h

@[simp] theorem floodLsa_port (s : State) (p : Nat) : (floodLsa s).port p = s.port p := port_of_unflooded (floodLsa_unflooded s) p

/-! ## A link that goes down -/

section
variable {p : Nat}

/-- What a link that goes down keeps of its port (R298). -/
def Port.downed (q : Port) (gone : Nat) : Port := { q with
  pstate := 0, nbAddr := 0xFFF, nbPort := 0, nbSerial := 0, nbReady := false, key := 0
  cnt := tmod (tinc q.cnt 5) 6 (fun c => satAdd c gone)
  held := [], lseq := 0, rxNext := 0, delays := [], t1 := none, peerDelay := 0 }

theorem port_linkDown (h : p < 4) (s : State) : ∃ n, (linkDown p s).port p = (s.port p).downed n := by
  refine ⟨(s.port p).held.length + (s.fab.outq.filter (fun m => m.port = p)).length, ?_⟩
  unfold linkDown
  extract_lets q gone
  exact (congrArg (fun f : Fab => tget f.ports p) (fabVec_fab _)).trans (port_setPort_same h _ _)

theorem port_linkLost (h : p < 4) {s : State} (up : (s.port p).up = true) : ∃ n, (linkLost p s).port p = (s.port p).downed n := by
  obtain ⟨n, down⟩ := port_linkDown h s
  refine ⟨n, ?_⟩
  unfold linkLost
  rw [if_pos up]
  dsimp only
  split
  · rw [floodLsa_port, down]
  · exact down

/-- One loss of the link is counted. -/
theorem cnt_downed (q : Port) (n : Nat) : tget (q.downed n).cnt 5 = satInc (tget q.cnt 5) := by
  have other : tget (tmod (tinc q.cnt 5) 6 (fun c => satAdd c n)) 5 = tget (tinc q.cnt 5) 5 := tget_tset_other _ _ _ _ (by decide)
  exact other.trans (tget_tinc_same _ (by decide))

end

/-! ## Messages that wait at a port -/

/-- That message waits at an output port. -/
def Waits (p : Nat) (msg : FabMsg) (s : State) : Prop := ∃ m ∈ s.fab.outq, m.port = p ∧ m.msg = msg

theorem settle_of_quiet {s : State} (quiet : s.flt.due = []) : settle s = flushPorts s := by
  simp [settle, settleN, quiet]

/-- With no detector raised a command ends with what the ports send. -/
theorem settle_frame_of_quiet {s : State} (quiet : s.flt.due = []) :
    ∃ q o, settle s = { s with fab := { s.fab with ports := q, outq := [] }, out := o ++ s.out } := by
  rw [settle_of_quiet quiet, flushPorts]
  split
  · next none_ =>
    have empty : s.fab.outq = [] := by simpa using none_
    exact ⟨s.fab.ports, [], by rw [List.nil_append, ← empty]⟩
  · obtain ⟨q, o, e⟩ := foldl_transmit_ports (s.fab.outq.filter (fun m => m.msg.time) ++ s.fab.outq.filter (fun m => !m.msg.time))
      { s with fab.outq := [] }
    exact ⟨q, o, e⟩

theorem sends_foldl_transmit {m : OutMsg} {l : List OutMsg} (waits : m ∈ l) (s : State) : Sends m.port m.msg (l.foldl transmit s) := by
  induction l generalizing s with
  | nil => cases waits
  | cons x l ih =>
    obtain rfl | later := List.mem_cons.mp waits
    · obtain ⟨q, o, e⟩ := foldl_transmit_ports l (transmit s m)
      rw [List.foldl_cons, e]
      exact ⟨_, _, _, List.mem_append_right _ (List.mem_cons_self ..), rfl, rfl⟩
    · exact ih later _

/-- What waits leaves its port as the command ends (R299). -/
theorem Waits.sends {p : Nat} {msg : FabMsg} {s : State} (quiet : s.flt.due = []) (waits : Waits p msg s) : Sends p msg (settle s) := by
  obtain ⟨m, mem, rfl, rfl⟩ := waits
  have some_ : s.fab.outq.isEmpty = false := by
    rw [List.isEmpty_eq_false_iff_exists_mem]
    exact ⟨m, mem⟩
  have place : m ∈ s.fab.outq.filter (fun m => m.msg.time) ++ s.fab.outq.filter (fun m => !m.msg.time) := by
    cases h : m.msg.time
    · exact List.mem_append_right _ (List.mem_filter.mpr ⟨mem, by simp [h]⟩)
    · exact List.mem_append_left _ (List.mem_filter.mpr ⟨mem, h⟩)
  rw [settle_of_quiet quiet, flushPorts, if_neg (by simp [some_])]
  exact sends_foldl_transmit place _

/-- A single message leaves its port. -/
theorem settle_of_single {s : State} {m : OutMsg} (quiet : s.flt.due = []) (single : s.fab.outq = [m]) :
    settle s = transmit { s with fab.outq := [] } m := by
  rw [settle_of_quiet quiet, flushPorts, if_neg (by simp [single]), single]
  cases h : m.msg.time
  · simp [h]
  · simp [h]

theorem sendPort_of_up {p : Nat} {s : State} (up : (s.port p).up = true) (h : MsgHdr) (m : FabMsg) :
    sendPort p h m s = { s with fab.outq := s.fab.outq ++ [{ port := p, hdr := h, msg := m }] } :=
  if_pos up

theorem waits_sendPort {p : Nat} {s : State} (up : (s.port p).up = true) (h : MsgHdr) (m : FabMsg) : Waits p m (sendPort p h m s) := by
  rw [sendPort_of_up up]
  exact ⟨_, List.mem_append_right _ (List.mem_singleton_self _), rfl, rfl⟩

/-- What waits goes on waiting as more is sent. -/
theorem Waits.sendPort {p q : Nat} {m : FabMsg} {s : State} (waits : Waits p m s) (h : MsgHdr) (n : FabMsg) : Waits p m (sendPort q h n s) := by
  unfold Machine.sendPort
  split
  · obtain ⟨x, mem, at_⟩ := waits
    exact ⟨x, List.mem_append_left _ mem, at_⟩
  · exact waits

end Sys2Proof.Machine

/-! # O54: fabric links -/
namespace Sys2Proof.Machine

section
variable {p : Nat} {s : State}

/-! ## Training and keying (R295, R297) -/

/-- A port whose lane may train comes to its keying. -/
theorem linkUp_of_training {b : LinkPartner} (hp : p < 4) (down : (s.port p).up = false) (trains : portMayTrain p s = true) :
    exec (.fabricLinkUp p b) s = done (
      if s.otp.isSealed && (!b.isSealed || !b.certOk) then s.setPort p { s.port p with pstate := 4 }
      else if !s.otp.isSealed && b.isSealed then s
      else if b.spread ≠ s.im.power.fabSpread then s.setPort p { s.port p with pstate := 5 }
      else fabVec (s.setPort p { s.port p with
        pstate := 3, nbSerial := b.serial, nbReady := false, key := if s.otp.isSealed then Config.sessionKey s.otp.serial b.serial else 0
        lseq := 0, rxNext := 0, held := [], helloMono := s.mono, delays := [], t1 := none })) :=
  congrArg done (if_neg (by simp [hp, down, trains]))

/-- A partner of the same kind is not refused. -/
theorem notRefused {b : LinkPartner} (kind : s.otp.isSealed = b.isSealed) (cert : s.otp.isSealed = true → b.certOk = true) :
    (s.otp.isSealed && (!b.isSealed || !b.certOk)) = false ∧ (!s.otp.isSealed && b.isSealed) = false := by
  cases sealed_ : s.otp.isSealed
  · simp [← kind, sealed_]
  · simp [← kind, sealed_, cert sealed_]

theorem fabricLinkUp_comes {b : LinkPartner} (hs : Settled s) (hp : p < 4) (down : (s.port p).up = false) (trains : portMayTrain p s = true)
    (kind : s.otp.isSealed = b.isSealed) (cert : s.otp.isSealed = true → b.certOk = true) (spread : b.spread = s.im.power.fabSpread) :
    ∃ t, exec (.fabricLinkUp p b) s = .next t ∧
      t = { s with fab := t.fab, hst := t.hst, out := t.out } ∧ (t.port p).up = true ∧ (t.port p).nbSerial = b.serial ∧
      (t.port p).held = [] ∧ (t.port p).lseq = 0 ∧ (t.port p).nbReady = false ∧ t.fab.db = s.fab.db := by
  obtain ⟨whole, open_⟩ := notRefused kind cert
  let q : Port := { s.port p with
    pstate := 3, nbSerial := b.serial, nbReady := false, key := if s.otp.isSealed then Config.sessionKey s.otp.serial b.serial else 0
    lseq := 0, rxNext := 0, held := [], helloMono := s.mono, delays := [], t1 := none }
  have made : exec (.fabricLinkUp p b) s = done (fabVec (s.setPort p q)) := by
    rw [linkUp_of_training hp down trains, whole, open_, if_neg Bool.false_ne_true, if_neg Bool.false_ne_true, if_neg (not_not_intro spread)]
  rw [fabVec, msix_frame] at made
  have port : tget (tset s.fab.ports p q) p = q := tget_tset_same _ _ _ hp
  refine ⟨_, made.trans (done_of_settled hs), rfl, ?_⟩
  have up : q.up = true := rfl
  exact ⟨(congrArg Port.up port).trans up, congrArg Port.nbSerial port, congrArg Port.held port, congrArg Port.lseq port,
    congrArg Port.nbReady port, rfl⟩

theorem fabricLinkUp_refused {b : LinkPartner} (hs : Settled s) (hp : p < 4) (down : (s.port p).up = false) (trains : portMayTrain p s = true)
    (sealed_ : s.otp.isSealed = true) (wrong : b.isSealed = false ∨ b.certOk = false) :
    exec (.fabricLinkUp p b) s = .next (s.setPort p { s.port p with pstate := 4 }) := by
  have refuse : (s.otp.isSealed && (!b.isSealed || !b.certOk)) = true := by simpa [sealed_] using wrong
  rw [linkUp_of_training hp down trains, if_pos refuse]
  exact done_of_settled hs

theorem fabricLinkUp_otherSpread {b : LinkPartner} (hs : Settled s) (hp : p < 4) (down : (s.port p).up = false) (trains : portMayTrain p s = true)
    (kind : s.otp.isSealed = b.isSealed) (cert : s.otp.isSealed = true → b.certOk = true) (spread : b.spread ≠ s.im.power.fabSpread) :
    exec (.fabricLinkUp p b) s = .next (s.setPort p { s.port p with pstate := 5 }) := by
  obtain ⟨whole, open_⟩ := notRefused kind cert
  rw [linkUp_of_training hp down trains, whole, open_, if_neg Bool.false_ne_true, if_neg Bool.false_ne_true, if_pos spread]
  exact done_of_settled hs

/-! ## Loss of a link (R298) -/

theorem fabricLinkDown_goes (hp : p < 4) (up : (s.port p).up = true) : ∃ u, exec (.fabricLinkDown p) s = .next (settle u) ∧
    u = { s with fab := u.fab, flt := u.flt, hst := u.hst, out := u.out } ∧ (u.port p).up = false ∧
    (u.port p).held = [] ∧ tget (u.port p).cnt 5 = satInc (tget (s.port p).cnt 5) := by
  obtain ⟨n, port⟩ := port_linkLost hp up
  refine ⟨linkLost p s, rfl, frame_of_offFabric (linkLost_offFabric p s), ?_⟩
  rw [port]
  exact ⟨rfl, rfl, cnt_downed ..⟩

/-- The same some time later. -/
theorem linkLost_later {u v : State} (passed : TimePasses s v) (hp : p < 4) (up : (s.port p).up = true) (lost : u = linkLost p v) :
    u = { s with tim := u.tim, fab := u.fab, flt := u.flt, hst := u.hst, out := u.out } ∧
    (u.port p).up = false ∧ tget (u.port p).cnt 5 = satInc (tget (s.port p).cnt 5) ∧ u.tim = v.tim := by
  have same : v.port p = s.port p := by rw [passed]; rfl
  have frame := frame_of_offFabric (linkLost_offFabric p v)
  obtain ⟨n, port⟩ := port_linkLost hp (same.symm ▸ up)
  rw [← lost] at frame port
  refine ⟨?_, ?_, ?_, ?_⟩
  · rw [frame, passed]
  · rw [port]
    rfl
  · rw [port, cnt_downed, same]
  · rw [frame]

theorem helloTimeout_goes (quiet : QuietClock s) (hp : p < 4) (up : (s.port p).up = true) : ∃ u, exec (.helloTimeout p) s = .next (settle u) ∧
    u = { s with tim := u.tim, fab := u.fab, flt := u.flt, hst := u.hst, out := u.out } ∧
    (u.port p).up = false ∧ tget (u.port p).cnt 5 = satInc (tget (s.port p).cnt 5) ∧ (s.port p).helloMono + 3000000 ≤ u.tim.mono := by
  have late := (advanceTo_mono ((s.port p).helloMono + 3000000) quiet).1
  obtain ⟨frame, down, counted, tim⟩ := linkLost_later (timePasses_advanceTo ((s.port p).helloMono + 3000000) quiet) hp up rfl
  exact ⟨_, congrArg done (if_pos up), frame, down, counted, tim ▸ late⟩

/-! ## Acknowledgements (R298) -/

theorem linkAck_releases (hs : Settled s) (answers : s.mode.answers = true) (hp : p < 4) (up : (s.port p).up = true) (a : BitVec 12) :
    exec (.linkAck p ⟨a, .whole⟩) s = .next (s.setPort p { s.port p with
      cnt := tinc (s.port p).cnt 0, held := (s.port p).held.filter (fun h => !seqLe h.lseq a) }) := by
  have taken : exec (.linkAck p ⟨a, .whole⟩) s = done ((s.setPort p ((s.port p).count 0)).setPort p
      (((s.setPort p ((s.port p).count 0)).port p).acked a)) :=
    congrArg done (if_neg (by simp [answers, up]))
  rw [taken, setPort_setPort, port_setPort_same hp]
  exact done_of_settled hs

/-- Frames sent one after the other stand in the log in that order. -/
theorem foldl_say {α : Type} (f : α → State → Out) (same : ∀ a t o, f a (t.say o) = f a t) (l : List α) (s : State) :
    l.foldl (fun t a => t.say (f a t)) s = { s with out := (l.map (fun a => f a s)).reverse ++ s.out } := by
  induction l generalizing s with
  | nil => rfl
  | cons a l ih =>
    rw [List.foldl_cons, ih]
    simp only [same, List.map_cons, List.reverse_cons, List.append_assoc, List.singleton_append]
    rfl

/-- The frames that a negative acknowledgement asks for, each with one more replay. -/
def Port.again (q : Port) (m : BitVec 12) : List HeldFrame :=
  (q.held.filter (fun h => seqLe m h.lseq)).map (fun h => { h with replays := h.replays + 1 })

/-- The frames leave once more where none of them has been replayed too often. -/
theorem replayFrom_again {m : BitVec 12} (some_ : ((s.port p).held.filter (fun h => seqLe m h.lseq)).isEmpty = false)
    (few : ((s.port p).again m).any (fun h => 8 ≤ h.replays) = false) : ∃ c,
    replayFrom p m s = { s.setPort p { s.port p with held := (s.port p).again m, cnt := c } with
      out := (((s.port p).again m).map (fun h => Out.fabric p (w64 s.stamp)
        (linkFrame (s.port p).key 1 h.msg.time h.lseq ((s.port p).rxNext - 1) (some (h.hdr, h.msg))))).reverse ++ s.out } := by
  unfold replayFrom
  extract_lets q kept again t u
  have asked : again = (s.port p).again m := rfl
  have left : u = _ := foldl_say (fun h t => Out.fabric p (w64 t.stamp)
    (linkFrame q.key 1 h.msg.time h.lseq (q.rxNext - 1) (some (h.hdr, h.msg)))) (fun _ _ _ => rfl) again t
  rw [if_neg (by simp [kept, q, some_]), asked, few, if_neg Bool.false_ne_true, left]
  exact ⟨_, rfl⟩

theorem linkNak_replays (hs : Settled s) (answers : s.mode.answers = true) (hp : p < 4) (up : (s.port p).up = true) {m : BitVec 12}
    (fresh : ∀ h ∈ (s.port p).held, h.replays < 7) (found : ∃ h ∈ (s.port p).held, seqLe m h.lseq = true) :
    ∃ t, exec (.linkNak p ⟨m, .whole⟩) s = .next t ∧
      t = { s with fab := t.fab, flt := t.flt, hst := t.hst, out := t.out } ∧ (t.port p).up = true ∧
      (t.port p).held = ((s.port p).held.filter (fun h => seqLe m h.lseq)).map (fun h => { h with replays := h.replays + 1 }) ∧
      t.out = ((t.port p).held.map (fun h => Out.fabric p (BitVec.ofNat 64 s.tim.dev) (linkFrame (s.port p).key 1 h.msg.time h.lseq
        ((s.port p).rxNext - 1) (some (h.hdr, h.msg))))).reverse ++ s.out := by
  have counted : (s.setPort p ((s.port p).count 0)).port p = (s.port p).count 0 := port_setPort_same hp _ _
  have some_ : ((s.port p).held.filter (fun h => seqLe m h.lseq)).isEmpty = false := by
    rw [List.isEmpty_eq_false_iff_exists_mem]
    obtain ⟨h, mem, after⟩ := found
    exact ⟨h, List.mem_filter.mpr ⟨mem, after⟩⟩
  have few : ((s.port p).again m).any (fun h => 8 ≤ h.replays) = false := by
    simp only [Port.again, List.any_map, List.any_eq_false, Function.comp_apply, decide_eq_true_eq, not_le]
    exact fun h mem => Nat.succ_lt_succ (fresh h (List.mem_of_mem_filter mem))
  have taken : exec (.linkNak p ⟨m, .whole⟩) s = done (replayFrom p m (s.setPort p ((s.port p).count 0))) :=
    congrArg done (if_neg (by simp [answers, up]))
  obtain ⟨c, replayed⟩ := replayFrom_again (s := s.setPort p ((s.port p).count 0)) (m := m) (by rw [counted]; exact some_)
    (by rw [counted]; exact few)
  rw [setPort_setPort, counted] at replayed
  rw [replayed] at taken
  have port : tget (tset s.fab.ports p { (s.port p).count 0 with held := (s.port p).again m, cnt := c }) p = _ := tget_tset_same _ _ _ hp
  refine ⟨_, taken.trans (done_of_settled hs), rfl, (congrArg Port.up port).trans up, congrArg Port.held port, ?_⟩
  exact (congrArg (fun l : List HeldFrame => (l.map (fun h => Out.fabric p (w64 s.stamp) (linkFrame (s.port p).key 1 h.msg.time h.lseq
    ((s.port p).rxNext - 1) (some (h.hdr, h.msg))))).reverse ++ s.out) (congrArg Port.held port)).symm

/-! ## Frames that are missed (R297, R298) -/

theorem sendAck_setPort (hp : p < 4) (k : BitVec 4) (n : BitVec 12) (r : Port) : sendAck p k n (s.setPort p r) =
    { s.setPort p (r.count 1) with out := .fabric p (w64 s.stamp) (linkFrame r.key k false 0 n none) :: s.out } := by
  rw [sendAck, port_setPort_same hp, setPort_setPort]
  rfl

/-- A frame that is dropped is answered with the number of the first one missing. -/
theorem missFrame_answers (hp : p < 4) (cnt : Option Nat) (other : cnt = none ∨ cnt = some 3) : ∃ q ts f,
    missFrame p cnt s = { s.setPort p q with out := .fabric p ts f :: s.out } ∧ f.kind = 3 ∧ f.ack = (s.port p).rxNext ∧
      q.rxNext = (s.port p).rxNext ∧ q.held = (s.port p).held ∧ (cnt = some 3 → tget q.cnt 3 = satInc (tget (s.port p).cnt 3)) := by
  have answer (r : Port) : missFrame p cnt s = sendAck p 3 ((s.port p).count 0).rxNext (s.setPort p r) → r.rxNext = (s.port p).rxNext →
      r.held = (s.port p).held → (cnt = some 3 → tget (r.count 1).cnt 3 = satInc (tget (s.port p).cnt 3)) → ∃ q ts f,
      missFrame p cnt s = { s.setPort p q with out := .fabric p ts f :: s.out } ∧ f.kind = 3 ∧ f.ack = (s.port p).rxNext ∧
        q.rxNext = (s.port p).rxNext ∧ q.held = (s.port p).held ∧ (cnt = some 3 → tget q.cnt 3 = satInc (tget (s.port p).cnt 3)) :=
    fun missed next held counted => ⟨r.count 1, _, _, missed.trans (sendAck_setPort hp 3 _ r), rfl, rfl, next, held, counted⟩
  obtain rfl | rfl := other
  · exact answer ((s.port p).count 0) rfl rfl rfl fun h => nomatch h
  · exact answer (((s.port p).count 0).count 3) rfl rfl rfl fun _ => by simp [Port.count, tget_tinc_other, tget_tinc_same]

theorem exec_trigger (p : Nat) (hdr : MsgHdr) (i : BitVec 64) (c : Byte) (s : State) : exec (.trigger p hdr i c) s =
    done (arrive p hdr (.trigger i c) none (fun t => (vitTrigger cauFabric (hdr.src.setWidth 16) 0 i t, stOk)) s) := rfl

theorem exec_trigger_of_bad {hdr : MsgHdr} (up : (s.port p).up = true) (answers : s.mode.answers = true) (i : BitVec 64) (c : Byte) {n : Nat}
    (fate : fateCounter hdr.rx.fate = some n) : exec (.trigger p hdr i c) s = done (missFrame p (some n) s) := by
  have taken : ¬(!((s.port p).up && s.mode.answers)) = true := by simp [up, answers]
  rw [exec_trigger, arrive, received, messageTaken, frameTaken, if_neg taken, fate]

theorem exec_trigger_of_gap {hdr : MsgHdr} (up : (s.port p).up = true) (answers : s.mode.answers = true) (i : BitVec 64) (c : Byte)
    (whole : hdr.rx.fate = .whole) (gap : seqLe hdr.rx.lseq (s.port p).rxNext = false) :
    exec (.trigger p hdr i c) s = done (missFrame p none s) := by
  have taken : ¬(!((s.port p).up && s.mode.answers)) = true := by simp [up, answers]
  have other : hdr.rx.lseq ≠ (s.port p).rxNext := by
    intro same
    rw [same] at gap
    simp [seqLe] at gap
  rw [exec_trigger, arrive, received, messageTaken, frameTaken, if_neg taken, whole, fateCounter]
  dsimp only
  rw [if_neg other, if_neg (by simp [gap])]

theorem trigger_badTag {hdr : MsgHdr} {i : BitVec 64} {c : Byte} (hs : Settled s) (answers : s.mode.answers = true) (hp : p < 4)
    (up : (s.port p).up = true) (bad : hdr.rx.fate = .badTag) :
    ∃ t ts f, exec (.trigger p hdr i c) s = .next t ∧
      t = { s with arc := t.arc, inc := t.inc, fab := t.fab, flt := t.flt, hst := t.hst, out := t.out, freeCtr := t.freeCtr } ∧
      t.out = .fabric p ts f :: s.out ∧ f.kind = 3 ∧ f.ack = (s.port p).rxNext ∧
      tget (t.port p).cnt 3 = satInc (tget (s.port p).cnt 3) ∧ (t.port p).rxNext = (s.port p).rxNext ∧ (t.port p).held = (s.port p).held := by
  obtain ⟨q, ts, f, answer, kind, first, next, held, counted⟩ := missFrame_answers (s := s) hp (some 3) (.inr rfl)
  have made := exec_trigger_of_bad up answers i c (congrArg fateCounter bad)
  rw [answer] at made
  have port : tget (tset s.fab.ports p q) p = q := tget_tset_same _ _ _ hp
  exact ⟨_, ts, f, made.trans (done_of_settled hs), rfl, rfl, kind, first, (congrArg (fun x : Port => tget x.cnt 3) port).trans (counted rfl),
    (congrArg Port.rxNext port).trans next, (congrArg Port.held port).trans held⟩

theorem trigger_afterGap {hdr : MsgHdr} {i : BitVec 64} {c : Byte} (hs : Settled s) (answers : s.mode.answers = true) (hp : p < 4)
    (up : (s.port p).up = true) (whole : hdr.rx.fate = .whole) (gap : seqLe hdr.rx.lseq (s.port p).rxNext = false) :
    ∃ t ts f, exec (.trigger p hdr i c) s = .next t ∧
      t = { s with arc := t.arc, inc := t.inc, fab := t.fab, flt := t.flt, hst := t.hst, out := t.out, freeCtr := t.freeCtr } ∧
      t.out = .fabric p ts f :: s.out ∧ f.kind = 3 ∧ f.ack = (s.port p).rxNext ∧ (t.port p).rxNext = (s.port p).rxNext := by
  obtain ⟨q, ts, f, answer, kind, first, next, -, -⟩ := missFrame_answers (s := s) hp none (.inl rfl)
  have made := exec_trigger_of_gap up answers i c whole gap
  rw [answer] at made
  have port : tget (tset s.fab.ports p q) p = q := tget_tset_same _ _ _ hp
  exact ⟨_, ts, f, made.trans (done_of_settled hs), rfl, rfl, kind, first, (congrArg Port.rxNext port).trans next⟩

end

end Sys2Proof.Machine

namespace Sys2Proof
open Machine

/-- Settles O54: keying ends by the partner's kind and spread; a lost link gives up its frames; and each link frame changes no more than
its port, and what leaves it. -/
theorem fabricLinks : Obligations.FabricLinks :=
  ⟨fun _ _ _ hs hp down trains kind cert spread => fabricLinkUp_comes hs hp down trains kind cert spread,
   fun _ _ _ hs hp down trains sealed_ wrong => fabricLinkUp_refused hs hp down trains sealed_ wrong,
   fun _ _ _ hs hp down trains kind cert spread => fabricLinkUp_otherSpread hs hp down trains kind cert spread,
   fun _ _ _ hp up => fabricLinkDown_goes hp up,
   fun _ _ _ quiet hp up => helloTimeout_goes quiet hp up,
   fun _ a _ hs answers hp up => linkAck_releases hs answers hp up a,
   fun _ _ _ hs answers hp up fresh found => linkNak_replays hs answers hp up fresh found,
   fun _ _ _ _ _ hs answers hp up bad => trigger_badTag hs answers hp up bad,
   fun _ _ _ _ _ hs answers hp up whole gap => trigger_afterGap hs answers hp up whole gap⟩

end Sys2Proof

/-! # The arrival of a message in its order -/
namespace Sys2Proof.Machine

section
variable {p : Nat} {hdr : MsgHdr} {s : State}

theorem answers_of_fromArmed {m : Mode} (h : m.fromArmed = true) : m.answers = true := by
  revert h
  cases m <;> decide

theorem fromArmed_of_armedOn (on : s.armedOn = true) : s.mode.fromArmed = true := by
  simp only [State.armedOn, Bool.and_eq_true] at on
  exact on.2

theorem armedOn_of_fabricOn (on : s.fabricOn = true) : s.armedOn = true := by
  simp only [State.fabricOn, Bool.and_eq_true] at on
  exact on.1

theorem answers_of_armedOn (on : s.armedOn = true) : s.mode.answers = true := answers_of_fromArmed (fromArmed_of_armedOn on)

/-! ## The frame (R298) -/

/-- What a port keeps of a frame that it takes, once that is acknowledged. -/
def Port.took (q : Port) (rx : LinkRx) : Port := Port.count { (q.acked rx.ack).count 0 with rxNext := rx.lseq + 1 } 1

theorem heard_frame (hp : p < 4) (hdr : MsgHdr) (s : State) :
    ∃ f, s.heard p hdr = { s.setPort p ((s.port p).took hdr.rx) with out := .fabric p (w64 s.stamp) f :: s.out } := by
  rw [State.heard, acceptLink, sendAck_setPort hp]
  exact ⟨_, rfl⟩

theorem heard_port (hp : p < 4) (hdr : MsgHdr) (s : State) : (s.heard p hdr).port p = (s.port p).took hdr.rx := by
  obtain ⟨f, e⟩ := heard_frame hp hdr s
  rw [e]
  exact port_setPort_same hp _ _

/-- Of the fabric, a frame that is taken changes the ports. -/
theorem heard_fab (hp : p < 4) (hdr : MsgHdr) (s : State) : ∃ q, (s.heard p hdr).fab = { s.fab with ports := q } := by
  obtain ⟨f, e⟩ := heard_frame hp hdr s
  exact ⟨tset s.fab.ports p ((s.port p).took hdr.rx), by rw [e]; rfl⟩

theorem heard_addr (hp : p < 4) (hdr : MsgHdr) (s : State) : (s.heard p hdr).fab.addr = s.fab.addr := by
  obtain ⟨q, e⟩ := heard_fab hp hdr s
  rw [e]

theorem heard_seenOf (hp : p < 4) (hdr : MsgHdr) (s : State) (a : BitVec 12) : (s.heard p hdr).fab.seenOf a = s.fab.seenOf a := by
  obtain ⟨q, e⟩ := heard_fab hp hdr s
  rw [e]
  rfl

theorem armedOn_of_offFabric {s t : State} (h : t.offFabric = s.offFabric) : t.armedOn = s.armedOn := by
  rw [frame_of_offFabric h]
  rfl

theorem cnt_took (q : Port) (rx : LinkRx) : tget (q.took rx).cnt 0 = satInc (tget q.cnt 0) :=
  (tget_tinc_other _ (by decide)).trans (tget_tinc_same _ (by decide))

theorem Settled.heard (hs : Settled s) (hp : p < 4) (hdr : MsgHdr) : Settled (s.heard p hdr) := by
  obtain ⟨f, e⟩ := heard_frame hp hdr s
  rw [e]
  exact hs

/-- A frame in its order is taken. -/
theorem frameTaken_of_inOrder (order : InOrder p hdr s) (answers : s.mode.answers = true) (k : State → State) :
    frameTaken p hdr.rx k s = k (s.heard p hdr) := by
  obtain ⟨-, -, up, whole, -, next⟩ := order
  rw [frameTaken, if_neg (by simp [up, answers]), whole, fateCounter, State.heard]
  exact if_pos next

theorem messageTaken_of_inOrder (order : InOrder p hdr s) (answers : s.mode.answers = true) (open_ : reservedDst hdr.dst = false)
    (k : State → State) : messageTaken p hdr k s = k (s.heard p hdr) := by
  obtain ⟨-, -, -, -, known, -⟩ := id order
  rw [messageTaken, frameTaken_of_inOrder order answers, known]
  exact if_neg (by simp [open_])

theorem received_of_inOrder (order : InOrder p hdr s) (on : s.armedOn = true) (open_ : reservedDst hdr.dst = false)
    (type : Byte) (k : State → State) : received p hdr type k s = k (s.heard p hdr) := by
  rw [received, messageTaken_of_inOrder order (answers_of_armedOn on) open_]
  exact if_pos ((armedOn_of_offFabric (heard_offFabric p hdr s)).trans on)

/-! ## The message (R301, R302) -/

theorem answerReq_of_noReply (silent : hdr.replyReq = false) (p : Nat) (type status : Byte) (s : State) :
    answerReq p hdr type status s = s :=
  if_neg (by simp [silent])

/-- A message to the device's own address is delivered. -/
theorem arrive_of_unicast (unicast : Unicast p hdr s) (msg : FabMsg) (fresh : Option Bool) (deliver : State → State × Byte) :
    arrive p hdr msg fresh deliver s = (deliver (s.heard p hdr)).1 := by
  obtain ⟨order, on, own, low, silent⟩ := unicast
  have notAll : ¬(hdr.dst.toNat = 0xFFF ∨ 0x800 ≤ hdr.dst.toNat) := by
    rw [own]
    omega
  have open_ : reservedDst hdr.dst = false := by
    rw [own]
    simp [reservedDst]
    omega
  have mine : hdr.dst = (s.heard p hdr).fab.addr := own.trans (heard_addr order.2.1 hdr s).symm
  rw [arrive, received_of_inOrder order on open_]
  simp only [answerReq_of_noReply silent]
  rw [if_neg (by simpa using notAll), if_pos mine]

/-- The other ports go on as they are. -/
theorem upPorts_heardCast (hp : p < 4) : upPorts p (s.heardCast p hdr) = upPorts p s := by
  have others (q : Nat) (h : q ≠ p) : (s.heardCast p hdr).port q = s.port q := by
    obtain ⟨f, e⟩ := heard_frame hp hdr s
    rw [State.heardCast, e]
    exact port_setPort_other (Ne.symm h) s _
  unfold upPorts
  refine List.filter_congr fun q _ => ?_
  by_cases h : q = p
  · simp [h]
  · rw [others q h]

/-- A broadcast that is new is delivered. -/
theorem arrive_of_broadcast (cast_ : Broadcast p hdr s) (msg : FabMsg) (fresh : Option Bool) (deliver : State → State × Byte) :
    arrive p hdr msg fresh deliver s = (deliver (s.heardCast p hdr)).1 := by
  obtain ⟨order, on, last, all, named, other, silent, new⟩ := cast_
  have open_ : reservedDst hdr.dst = false := by
    rw [all]
    rfl
  have none_ : (upPorts p (s.heardCast p hdr)).isEmpty = true := by rw [upPorts_heardCast order.2.1, last]; rfl
  have own : hdr.src ≠ (s.heard p hdr).fab.addr := by rwa [heard_addr order.2.1]
  rw [arrive, received_of_inOrder order on open_]
  simp only [answerReq_of_noReply silent]
  rw [if_pos (by simp [all])]
  cases seen : s.fab.seenOf hdr.src with
  | none =>
    have seen' : (s.heard p hdr).fab.seenOf hdr.src = none := (heard_seenOf order.2.1 ..).trans seen
    simp only [if_neg named, Option.getD_none, Option.isSome_none, Bool.false_eq_true, if_false, seen']
    rw [if_pos (by simp [own]), if_pos (by simp [all])]
    exact congrArg (fun t => (deliver t).1) (if_pos none_)
  | some m =>
    have seen' : (s.heard p hdr).fab.seenOf hdr.src = some m := (heard_seenOf order.2.1 ..).trans seen
    simp only [if_neg named, Option.getD_none, Option.isSome_none, Bool.false_eq_true, if_false, seen']
    rw [if_pos (by simp [own, new m seen]), if_pos (by simp [all])]
    exact congrArg (fun t => (deliver t).1) (if_pos none_)

end

end Sys2Proof.Machine

/-! # O55: HELLO and the delay of a link -/
namespace Sys2Proof.Machine

section
variable {p : Nat} {hdr : MsgHdr} {s : State}

/-! ## HELLO (R300, R301) -/

/-- One port's HELLO. -/
def helloOn (t : State) (p : Nat) : State := if (t.port p).up then sendLink p (.hello (ownHello p t)) t else t

/-- What sending brings: messages more that wait. -/
structure SentMore (s t : State) : Prop where
  frame : ∃ n q, t = { s with fab := { s.fab with mseq := n, outq := q } }
  waits : ∀ p m, Waits p m s → Waits p m t

theorem SentMore.refl (s : State) : SentMore s s := ⟨⟨s.fab.mseq, s.fab.outq, rfl⟩, fun _ _ h => h⟩

theorem SentMore.trans {s t u : State} (h : SentMore s t) (k : SentMore t u) : SentMore s u := by
  obtain ⟨n, q, e⟩ := h.frame
  obtain ⟨m, r, f⟩ := k.frame
  exact ⟨⟨m, r, by rw [f, e]⟩, fun p x w => k.waits p x (h.waits p x w)⟩

theorem sentMore_helloOn (s : State) (p : Nat) : SentMore s (helloOn s p) := by
  unfold helloOn
  split_ifs with up
  · refine ⟨⟨s.fab.mseq + 1, _, sendPort_of_up (s := { s with fab.mseq := s.fab.mseq + 1 }) up _ _⟩, fun q m waits => ?_⟩
    exact Waits.sendPort (s := { s with fab.mseq := s.fab.mseq + 1 }) waits _ _
  · exact .refl s

theorem sentMore_hellos (l : List Nat) (s : State) : SentMore s (l.foldl helloOn s) := by
  induction l generalizing s with
  | nil => exact .refl s
  | cons p l ih => exact (sentMore_helloOn s p).trans (ih _)

/-- Each port of the list that is up gets its HELLO. -/
theorem waits_foldl_helloOn {l : List Nat} (mem : p ∈ l) (up : (s.port p).up = true) :
    ∃ m, Waits p (.hello m) (l.foldl helloOn s) ∧ m.serial = s.otp.serial ∧ m.port = p ∧ m.state = s.mode.code := by
  induction l generalizing s with
  | nil => cases mem
  | cons q l ih =>
    obtain ⟨n, x, e⟩ := (sentMore_helloOn s q).frame
    obtain rfl | later := List.mem_cons.mp mem
    · refine ⟨ownHello p s, (sentMore_hellos l _).waits _ _ ?_, rfl, rfl, rfl⟩
      rw [helloOn, if_pos up]
      exact waits_sendPort (s := { s with fab.mseq := s.fab.mseq + 1 }) up _ _
    · obtain ⟨m, waits, serial, port, state⟩ := ih (s := helloOn s q) later (by rw [e]; exact up)
      rw [e] at serial state
      exact ⟨m, waits, serial, port, state⟩

/-- The HELLOs of an instant, on every port. -/
def hellosNow (s : State) : State := (List.range 4).foldl helloOn { s with fab.helloMono := s.mono }

theorem hellosNow_frame {v : State} (passed : TimePasses s v) :
    ∃ n q, hellosNow v = { s with tim := v.tim, fab := { s.fab with helloMono := v.tim.mono, mseq := n, outq := q }, out := v.out } := by
  obtain ⟨n, q, e⟩ := (sentMore_hellos (List.range 4) { v with fab.helloMono := v.mono }).frame
  refine ⟨n, q, e.trans ?_⟩
  rw [passed]
  rfl

theorem waits_hellosNow {v : State} (passed : TimePasses s v) (low : p < 4) (up : (s.port p).up = true) :
    ∃ m, Waits p (.hello m) (hellosNow v) ∧ m.serial = s.otp.serial ∧ m.port = p ∧ m.state = s.mode.code := by
  have here : (State.port { v with fab.helloMono := v.mono } p).up = true := by
    rw [passed]
    exact up
  obtain ⟨m, waits, serial, port, state⟩ := waits_foldl_helloOn (List.mem_range.mpr low) here
  refine ⟨m, waits, ?_, port, ?_⟩
  · rw [serial, passed]
  · rw [state, passed]
    rfl

/-- The HELLOs of an instant leave. -/
theorem hellosNow_leave {v : State} (passed : TimePasses s v) (hs : Settled s) : ∃ t, done (hellosNow v) = .next t ∧
    t = { s with tim := t.tim, fab := t.fab, out := t.out } ∧ t.fab.helloMono = t.tim.mono ∧ t.tim = v.tim ∧
    ∀ p < 4, (s.port p).up = true → ∃ m, Sends p (.hello m) t ∧ m.serial = s.otp.serial ∧ m.port = p ∧ m.state = s.mode.code := by
  obtain ⟨n, q, e⟩ := hellosNow_frame passed
  have quiet : (hellosNow v).flt.due = [] := by
    rw [e]
    exact hs.1
  obtain ⟨x, o, left⟩ := settle_frame_of_quiet quiet
  have sends (p : Nat) (low : p < 4) (up : (s.port p).up = true) :
      ∃ m, Sends p (.hello m) (settle (hellosNow v)) ∧ m.serial = s.otp.serial ∧ m.port = p ∧ m.state = s.mode.code := by
    obtain ⟨m, waits, known⟩ := waits_hellosNow passed low up
    exact ⟨m, waits.sends quiet, known⟩
  refine ⟨_, rfl, ?_, ?_, ?_, sends⟩
  · rw [left, e]
  · rw [left, e]
  · rw [left, e]

theorem helloSend_reaches (hs : Settled s) (quiet : QuietClock s) (answers : s.mode.answers = true) (driven : s.pins.outputsIdle = false) :
    ∃ t, exec .helloSend s = .next t ∧
      t = { s with tim := t.tim, fab := t.fab, out := t.out } ∧
    t.fab.helloMono = t.tim.mono ∧ s.fab.helloMono + 1000000 ≤ t.tim.mono ∧
    ∀ p < 4, (s.port p).up = true → ∃ m, Sends p (.hello m) t ∧ m.serial = s.otp.serial ∧ m.port = p ∧ m.state = s.mode.code := by
  have late := (advanceTo_mono (s.fab.helloMono + 1000000) quiet).1
  have step : exec .helloSend s = done (hellosNow (advanceTo (s.fab.helloMono + 1000000) s)) :=
    congrArg done (if_neg (by simp [answers, driven]))
  obtain ⟨t, reached, frame, mono, tim, sends⟩ := hellosNow_leave (timePasses_advanceTo (s.fab.helloMono + 1000000) quiet) hs
  exact ⟨t, step.trans reached, frame, mono, tim ▸ late, sends⟩

/-- What a HELLO leaves of its port: the neighbour. -/
def Port.named (q : Port) (h : Hello) (mono : Nat) : Port := { q.count 7 with
  nbAddr := h.addr, nbPort := BitVec.ofNat 2 h.port, nbSerial := h.serial, nbReady := q.nbReady || h.ready, helloMono := mono }

/-- What a HELLO of the manager tells (R324). -/
def mgrTold (h : Hello) (s : State) : State :=
  if h.addr = s.fab.mgr && h.addr ≠ 0xFFF then { s with fab.mgrSafe := s.fab.mgrSafe && h.state = Mode.safe.code } else s

theorem mgrTold_offFabric (h : Hello) (s : State) : (mgrTold h s).offFabric = s.offFabric := by
  unfold mgrTold
  split
  · rfl
  · rfl

theorem mgrTold_port (h : Hello) (s : State) (p : Nat) : (mgrTold h s).port p = s.port p := by
  unfold mgrTold
  split
  · rfl
  · rfl

/-- A HELLO of the partner under the device's own spread (R301, R306, R324). -/
theorem helloTaken_sameSpread {h : Hello} (spread : h.spread = s.im.power.fabSpread) :
    helloTaken p h s = if h.ready && !(s.port p).nbReady then floodLsa (mgrTold h (s.setPort p ((s.port p).named h s.mono)))
      else mgrTold h (s.setPort p ((s.port p).named h s.mono)) :=
  if_neg (not_not_intro spread)

theorem helloTaken_sameSpread_offFabric {h : Hello} (spread : h.spread = s.im.power.fabSpread) :
    (helloTaken p h s).offFabric = s.offFabric := by
  rw [helloTaken_sameSpread spread, offFabric_ite, floodLsa_offFabric, mgrTold_offFabric, setPort_offFabric, ite_self]

theorem helloTaken_sameSpread_port {h : Hello} (spread : h.spread = s.im.power.fabSpread) (hp : p < 4) :
    (helloTaken p h s).port p = (s.port p).named h s.mono := by
  rw [helloTaken_sameSpread spread]
  split_ifs
  · rw [floodLsa_port, mgrTold_port, port_setPort_same hp]
  · rw [mgrTold_port, port_setPort_same hp]

theorem cnt_named (q : Port) (h : Hello) (m : Nat) : tget (q.named h m).cnt 0 = tget q.cnt 0 := tget_tinc_other _ (by decide)

theorem hello_names {h : Hello} (order : InOrder p hdr s) (open_ : reservedDst hdr.dst = false) (answers : s.mode.answers = true)
    (spread : h.spread = s.im.power.fabSpread) :
    ∃ u, exec (.hello p (hdr, h)) s = .next (settle u) ∧
      u = { s with fab := u.fab, flt := u.flt, hst := u.hst, out := u.out } ∧ (u.port p).nbAddr = h.addr ∧ (u.port p).nbSerial = h.serial ∧
      (u.port p).helloMono = s.tim.mono ∧ (u.port p).nbReady = ((s.port p).nbReady || h.ready) ∧ (u.port p).up = true ∧
      tget (u.port p).cnt 0 = satInc (tget (s.port p).cnt 0) := by
  obtain ⟨-, hp, up, -⟩ := id order
  have off := heard_offFabric p hdr s
  have same : h.spread = (s.heard p hdr).im.power.fabSpread := by rw [frame_of_offFabric off]; exact spread
  have mono : (s.heard p hdr).mono = s.tim.mono := by rw [frame_of_offFabric off]; rfl
  have port : (helloTaken p h (s.heard p hdr)).port p = ((s.port p).took hdr.rx).named h s.tim.mono := by
    rw [helloTaken_sameSpread_port same hp, heard_port hp, mono]
  have up' : ((s.port p).took hdr.rx).up = true := up
  have cnt := (cnt_named ((s.port p).took hdr.rx) h s.tim.mono).trans (cnt_took (s.port p) hdr.rx)
  refine ⟨_, congrArg done (messageTaken_of_inOrder order answers open_ _),
    frame_of_offFabric ((helloTaken_sameSpread_offFabric same).trans off), ?_⟩
  rw [port]
  exact ⟨rfl, rfl, rfl, rfl, up', cnt⟩

/-- A HELLO of the partner under another spread (R295). -/
theorem helloTaken_otherSpread {h : Hello} (spread : h.spread ≠ s.im.power.fabSpread) :
    helloTaken p h s = (linkLost p (s.setPort p ((s.port p).count 7))).setPort p
      { (linkLost p (s.setPort p ((s.port p).count 7))).port p with pstate := 5 } :=
  if_pos spread

theorem up_count (q : Port) (i : Nat) : (q.count i).up = q.up := rfl

theorem up_took (q : Port) (rx : LinkRx) : (q.took rx).up = q.up := rfl

theorem hello_otherSpread {h : Hello} (order : InOrder p hdr s) (open_ : reservedDst hdr.dst = false) (answers : s.mode.answers = true)
    (spread : h.spread ≠ s.im.power.fabSpread) :
    ∃ u, exec (.hello p (hdr, h)) s = .next (settle u) ∧
      u = { s with fab := u.fab, flt := u.flt, hst := u.hst, out := u.out } ∧ (u.port p).pstate = 5 ∧ (u.port p).nbSerial = 0 := by
  obtain ⟨-, hp, up, -⟩ := id order
  have off := heard_offFabric p hdr s
  have other : h.spread ≠ (s.heard p hdr).im.power.fabSpread := by rw [frame_of_offFabric off]; exact spread
  have here : (((s.heard p hdr).setPort p (((s.heard p hdr).port p).count 7)).port p).up = true := by
    rw [port_setPort_same hp, heard_port hp, up_count, up_took]
    exact up
  obtain ⟨n, down⟩ := port_linkLost hp here
  have taken := helloTaken_otherSpread (p := p) other
  rw [down] at taken
  refine ⟨_, (congrArg done (messageTaken_of_inOrder order answers open_ _)).trans (congrArg done taken), frame_of_offFabric ?_, ?_, ?_⟩
  · rw [setPort_offFabric, linkLost_offFabric, setPort_offFabric, off]
  · rw [port_setPort_same hp]
  · rw [port_setPort_same hp]
    rfl

/-! ## The delay of a link (R312) -/

theorem linkFrame_body (key : BitVec 256) (kind : BitVec 4) (time : Bool) (l a : BitVec 12) (h : MsgHdr) (m : FabMsg) :
    (linkFrame key kind time l a (some (h, m))).body = some ({ h with rx := {} }, m) := rfl

theorem sendLink_of_up (up : (s.port p).up = true) (msg : FabMsg) : sendLink p msg s =
    { s with fab := { s.fab with mseq := s.fab.mseq + 1, outq := s.fab.outq ++ [{ port := p, hdr := newHdr 0xFFF false s, msg := msg }] } } :=
  sendPort_of_up (s := { s with fab.mseq := s.fab.mseq + 1 }) up _ _

/-- A message leaves its port in one frame. -/
theorem transmit_says (s : State) (m : OutMsg) : ∃ f h q,
    transmit s m = { s with fab := { s.fab with ports := q }, out := .fabric m.port (w64 s.stamp) f :: s.out } ∧
    f.time = m.msg.time ∧ f.body = some (h, m.msg) ∧ (m.port < 4 → (tget q m.port).t1 = (s.port m.port).t1) :=
  ⟨_, _, _, rfl, rfl, linkFrame_body .., fun low => (congrArg Port.t1 (tget_tset_same _ _ _ low)).trans rfl⟩

/-- A message to the partner leaves with the command where nothing else waits. -/
theorem settle_sendLink (hs : Settled s) (hp : p < 4) (up : (s.port p).up = true) (msg : FabMsg) : ∃ f h n q,
    settle (sendLink p msg s) = { s with fab := { s.fab with mseq := n, ports := q, outq := [] }, out := .fabric p (w64 s.stamp) f :: s.out } ∧
    f.time = msg.time ∧ f.body = some (h, msg) ∧ (tget q p).t1 = (s.port p).t1 := by
  have sent := sendLink_of_up up msg
  have single : (sendLink p msg s).fab.outq = [{ port := p, hdr := newHdr 0xFFF false s, msg := msg }] := by rw [sent, hs.2, List.nil_append]
  have quiet : (sendLink p msg s).flt.due = [] := by rw [sent]; exact hs.1
  obtain ⟨f, h, q, frame, time, body, t1⟩ := transmit_says { sendLink p msg s with fab.outq := [] }
    { port := p, hdr := newHdr 0xFFF false s, msg := msg }
  refine ⟨f, h, s.fab.mseq + 1, q, ?_, time, body, (t1 hp).trans ?_⟩
  · rw [settle_of_single quiet single, frame, sent]
    rfl
  · rw [sent]
    rfl

theorem time_delayReq (a : BitVec 64) : (FabMsg.delayReq a).time = true := by simp [FabMsg.time, FabMsg.type]

theorem time_delayResp (a b c : BitVec 64) : (FabMsg.delayResp a b c).time = true := by simp [FabMsg.time, FabMsg.type]

/-- The device asks for a link's delay. -/
def askDelay (p : Nat) (s : State) : State :=
  sendLink p (.delayReq (w64 s.stamp)) (s.setPort p { s.port p with t1 := some (w64 s.stamp), delayMono := s.mono })

theorem askDelay_leaves {v : State} (passed : TimePasses s v) (hs : Settled s) (hp : p < 4) (up : (s.port p).up = true) :
    ∃ t ts f h, done (askDelay p v) = .next t ∧ t = { s with tim := t.tim, fab := t.fab, out := t.out } ∧
      t.out = .fabric p ts f :: s.out ∧ f.time = true ∧ f.body = some (h, .delayReq (BitVec.ofNat 64 t.tim.dev)) ∧
      (t.port p).t1 = some (BitVec.ofNat 64 t.tim.dev) ∧ t.tim = v.tim := by
  obtain ⟨x, askedState⟩ : ∃ x, x = v.setPort p { v.port p with t1 := some (w64 v.stamp), delayMono := v.mono } := ⟨_, rfl⟩
  have port : x.port p = { v.port p with t1 := some (w64 v.stamp), delayMono := v.mono } := by
    rw [askedState, port_setPort_same hp]
  have settled : Settled x := by
    rw [askedState]
    exact passed.settled hs
  have here : (x.port p).up = true := by
    rw [port, passed]
    exact up
  obtain ⟨f, h, n, q, left, time, body, t1⟩ := settle_sendLink settled hp here (.delayReq (w64 v.stamp))
  have reached : done (askDelay p v) = .next (settle (sendLink p (.delayReq (w64 v.stamp)) x)) := by rw [askedState]; rfl
  rw [left, askedState] at reached
  refine ⟨_, w64 v.stamp, f, h, reached, ?_, ?_, time.trans (time_delayReq _), body, t1.trans (by rw [port]; rfl), rfl⟩
  · rw [passed]
    rfl
  · rw [passed]
    rfl

theorem delayMeasure_asks (hs : Settled s) (quiet : QuietClock s) (hp : p < 4) (up : (s.port p).up = true) (on : s.armedOn = true) :
    ∃ t ts f h, exec (.delayMeasure p) s = .next t ∧
      t = { s with tim := t.tim, fab := t.fab, out := t.out } ∧
    t.out = .fabric p ts f :: s.out ∧ f.time = true ∧ f.body = some (h, .delayReq (BitVec.ofNat 64 t.tim.dev)) ∧ (t.port p).t1 = some (BitVec.ofNat 64 t.tim.dev) ∧
      (s.port p).delayMono + 125000000 ≤ t.tim.mono := by
  have late := (advanceTo_mono ((s.port p).delayMono + 125000000) quiet).1
  have step : exec (.delayMeasure p) s = done (askDelay p (advanceTo ((s.port p).delayMono + 125000000) s)) :=
    congrArg done (if_pos (by simp [up, on]))
  obtain ⟨t, ts, f, h, reached, frame, out, time, body, t1, tim⟩ :=
    askDelay_leaves (timePasses_advanceTo ((s.port p).delayMono + 125000000) quiet) hs hp up
  exact ⟨t, ts, f, h, step.trans reached, frame, out, time, body, t1, tim ▸ late⟩

theorem delayReq_answered {t1 : BitVec 64} (order : InOrder p hdr s) (open_ : reservedDst hdr.dst = false) (on : s.armedOn = true) :
    ∃ t ts f h a n, exec (.delayReq p hdr t1) s = .next t ∧
      t = { s with fab := t.fab, out := t.out, freeCtr := t.freeCtr } ∧
    t.out = .fabric p ts f :: a :: s.out ∧ f.time = true ∧
      f.body = some (h, .delayResp t1 (BitVec.ofNat 64 s.tim.dev) (BitVec.ofNat 64 (s.tim.dev + n))) := by
  obtain ⟨hs, hp, up, -⟩ := id order
  obtain ⟨a, taken⟩ := heard_frame hp hdr s
  have dev : (s.heard p hdr).stamp = s.tim.dev := by rw [taken]; rfl
  have here : ((s.heard p hdr).drawn.port p).up = true := (congrArg Port.up (heard_port hp hdr s)).trans up
  have step : exec (.delayReq p hdr t1) s = .next (settle (sendLink p (.delayResp t1 (w64 (s.heard p hdr).stamp)
      (w64 ((s.heard p hdr).stamp + Config.freeNat (s.heard p hdr).freeCtr))) (s.heard p hdr).drawn)) :=
    congrArg done (received_of_inOrder order on open_ _ _)
  obtain ⟨f, h, n, q, left, time, body, -⟩ := settle_sendLink (s := (s.heard p hdr).drawn) (hs.heard hp hdr) hp here
    (.delayResp t1 (w64 (s.heard p hdr).stamp) (w64 ((s.heard p hdr).stamp + Config.freeNat (s.heard p hdr).freeCtr)))
  rw [left] at step
  rw [dev] at body
  refine ⟨_, w64 s.stamp, f, h, .fabric p (w64 s.stamp) a, Config.freeNat (s.heard p hdr).freeCtr, step, ?_, ?_, time.trans (time_delayResp ..), body⟩
  rotate_left
  · rw [taken]
    rfl
  · rw [taken]
    rfl

theorem delayResp_kept {t1 t2 t3 : BitVec 64} (order : InOrder p hdr s) (open_ : reservedDst hdr.dst = false) (on : s.armedOn = true)
    (asked : (s.port p).t1 = some t1) :
    ∃ t d, exec (.delayResp p hdr t1 t2 t3) s = .next t ∧
      t = { s with fab := t.fab, out := t.out } ∧ (t.port p).t1 = none ∧ (t.port p).delays = (d :: (s.port p).delays).take 8 ∧
      (t.port p).peerDelay = BitVec.ofInt 16 (roundDiv ((d :: (s.port p).delays).take 8).sum ((d :: (s.port p).delays).take 8).length) ∧
      d = roundDiv (((s.tim.dev : Int) - BitVec.toNat t1) - ((BitVec.toNat t3 : Int) - BitVec.toNat t2)) 2 + s.fabSec.asym.getD p 0 := by
  obtain ⟨hs, hp, -⟩ := id order
  obtain ⟨a, taken⟩ := heard_frame hp hdr s
  have port := heard_port hp hdr s
  have waits : ((s.heard p hdr).port p).t1 = some t1 := (congrArg Port.t1 port).trans asked
  let d := linkDelay t1.toNat t2.toNat t3.toNat s.stamp (s.fabSec.asym.getD p 0)
  have kept : delayTaken p t1 t2 t3 (s.heard p hdr) = (s.heard p hdr).setPort p { (s.port p).took hdr.rx with
      t1 := none, delays := (d :: (s.port p).delays).take 8
      peerDelay := BitVec.ofInt 16 (roundDiv ((d :: (s.port p).delays).take 8).sum ((d :: (s.port p).delays).take 8).length) } := by
    rw [delayTaken, if_pos waits, port, taken]
    rfl
  have step : exec (.delayResp p hdr t1 t2 t3) s = .next (delayTaken p t1 t2 t3 (s.heard p hdr)) :=
    (congrArg done (received_of_inOrder order on open_ _ _)).trans (done_of_settled (by rw [kept]; exact hs.heard hp hdr))
  rw [kept] at step
  refine ⟨_, d, step, ?_, ?_, ?_, ?_, rfl⟩
  · rw [taken]
    rfl
  · rw [port_setPort_same hp]
  · rw [port_setPort_same hp]
  · rw [port_setPort_same hp]

end

end Sys2Proof.Machine

namespace Sys2Proof
open Machine

/-- Settles O55: each command on its own; the neighbour's fields are those of the port that the HELLO leaves, and what a port sends leaves as
the command ends. -/
theorem helloAndLinkDelay : Obligations.HelloAndLinkDelay :=
  ⟨fun _ hs quiet answers driven => helloSend_reaches hs quiet answers driven,
   fun _ _ _ _ order open_ answers spread => hello_names order open_ answers spread,
   fun _ _ _ _ order open_ answers spread => hello_otherSpread order open_ answers spread,
   fun _ _ hs quiet hp up on => delayMeasure_asks hs quiet hp up on,
   fun _ _ _ _ order open_ on => delayReq_answered order open_ on,
   fun _ _ _ _ _ _ order open_ on asked => delayResp_kept order open_ on asked⟩

end Sys2Proof

/-! # O58: a TICK of the manager while a switch to another source is under way: a statement that fails -/
namespace Sys2Proof.Machine

/-- A fabric worker in ARMED with port 0 up, whose source is still the fabric while a switch to the internal source is under way. -/
def switchingWorker : State := { State.reset with
  gctl := { mode := .armed, everArmed := true }
  tck := { active := srcFabric, switch := some { dest := srcInternal, endMono := 1000000 } }
  img := { run := some { fabric := some {} } }
  fab := { role := roleWorker, mgr := 5, addr := 6, ports := Vector.replicate 4 { pstate := 3 } } }

/-- A TICK of the manager, in its order, that shows no offset. -/
def timelyHdr : MsgHdr := { dst := 0xFFF, src := 5, hopsLeft := 1, replyReq := false, mseq := 1, corr := 0 }

def timelyTick : TickMsg := { index := 1, boundary := 5000000, originTs := 0, period := 5000, flywheel := false }

/-- Its boundary is not heeded: the switch goes elsewhere (R417). -/
theorem lead_switchingWorker : (settle (tickTaken 0 timelyHdr timelyTick (switchingWorker.heard 0 timelyHdr))).tck.lead = none := by
  decide +kernel

end Sys2Proof.Machine

namespace Sys2Proof
open Machine

/-- Refutes O58 in its clause on a TICK whose offset is within the limit: `switchingWorker` has the fabric as its source and a switch to the
internal source under way, so it does not take the boundary of `timelyTick`. The clause lacks the premise that no switch is under way. -/
theorem not_fabricTicks : ¬ Obligations.FabricTicks := by
  rintro ⟨-, used, -⟩
  have order : InOrder 0 timelyHdr switchingWorker := ⟨⟨rfl, rfl⟩, by decide, rfl, rfl, rfl, rfl⟩
  have open_ : reservedDst timelyHdr.dst = false := by decide
  have on : switchingWorker.armedOn = true := by decide
  obtain ⟨t, ht, -, lead, -⟩ := used 0 timelyHdr timelyTick switchingWorker order open_ on (by decide +kernel) (by decide +kernel) (by decide)
    rfl rfl (by decide) (by decide) (by decide +kernel)
  have step : exec (.tick 0 timelyHdr timelyTick) switchingWorker =
      done (tickTaken 0 timelyHdr timelyTick (switchingWorker.heard 0 timelyHdr)) :=
    congrArg done (received_of_inOrder order on open_ _ _)
  have made : settle (tickTaken 0 timelyHdr timelyTick (switchingWorker.heard 0 timelyHdr)) = t := Host.Outcome.next.inj (step.symm.trans ht)
  have left := made ▸ lead_switchingWorker
  rw [lead] at left
  exact absurd left (by decide)

end Sys2Proof

/-! # O43: an alert that ends while the power-up plan waits for it: a statement that fails -/
namespace Sys2Proof.Machine

/-- A device in SELFTEST whose power-up plan has waited since 0 for PWR_ALERT_N to rise. -/
def waitingPlan : State := { State.reset with
  gctl := { mode := .selftest, waitFrom := some 0 }
  tim := { mono := 1000 }
  pwr := { alertPin := true, alert := true } }

/-- The plan goes on (R370). -/
theorem waitFrom_pwrAlertRelease_waitingPlan :
    (settle (planWait { waitingPlan with pwr.alertPin := false })).gctl.waitFrom = none := by
  decide +kernel

end Sys2Proof.Machine

namespace Sys2Proof
open Machine

/-- Refutes O43 in its clause on the release of PWR_ALERT_N: in `waitingPlan` the power-up plan waits for it (R370), so the release also ends
the wait. The clause lacks the premise that the device is not in SELFTEST. -/
theorem not_powerCommands : ¬ Obligations.PowerCommands := by
  rintro ⟨-, -, release, -⟩
  have left : settle (planWait { waitingPlan with pwr.alertPin := false }) = { waitingPlan with pwr.alertPin := false } :=
    Host.Outcome.next.inj (release waitingPlan ⟨rfl, rfl⟩)
  have goesOn := waitFrom_pwrAlertRelease_waitingPlan
  rw [left] at goesOn
  exact absurd goesOn (by decide)

end Sys2Proof

/-! # O53: internal scan before an erase of a device agent has begun: a statement that fails -/
namespace Sys2Proof.Machine

/-- A device in ARMED where a device agent is to erase the first main sector, which holds a word, 1 µs from now. -/
def scannedBeforeErase : State := { State.reset with
  gctl := { mode := .armed, everArmed := true }
  arc := { devUntil := 2000, dev := [{ bank := false, start := 1000, stop := 2000, what := .erase 8 {} [(8192, .prog [])] }] } }

/-- The erase is abandoned, which leaves the sector as it was (R238, R384). -/
theorem words_intScan_scannedBeforeErase : (settle (intScan scannedBeforeErase)).arc.words = [(8192, .prog [])] := by
  decide +kernel

end Sys2Proof.Machine

namespace Sys2Proof
open Machine

/-- Refutes O53 in its clause on INT_SCAN: from `scannedBeforeErase` the array does not stay as it was, since the erase that a device agent was
about to begin is abandoned and its sector keeps its word. The clause lacks the premise that no device operation is in progress. -/
theorem not_jtagInstructions : ¬ Obligations.JtagInstructions := by
  rintro ⟨-, -, -, -, scan⟩
  obtain ⟨t, ht, -, -, -, -, -, -, -, -, words, -⟩ := scan scannedBeforeErase ⟨rfl, rfl⟩ (by decide) rfl
  have step : exec .intScan scannedBeforeErase = done (intScan scannedBeforeErase) := congrArg done (if_pos (by decide))
  have made : settle (intScan scannedBeforeErase) = t := Host.Outcome.next.inj (step.symm.trans ht)
  have left := made ▸ words_intScan_scannedBeforeErase
  rw [words] at left
  exact absurd left (by decide)

end Sys2Proof

/-! # O50: the end of a staged erase that has not begun: a statement that fails -/
namespace Sys2Proof.Machine

/-- The STAGE_ERASE that the controller executes. -/
def stagedRequest : MbxReq := { src := .card, msg := { type := 0x11, tag := 0, payload := [0, 0, 0, 0] } }

/-- A device in OFF whose staged erase is to begin 1 µs from now. -/
def stagedInOff : State := { State.reset with
  gctl := { mode := .off }
  mbx := { current := some stagedRequest }
  arc := { erase := some { owner := .mailbox .card 0, code := 0x21, bank := false, index := 0, since := 1000 } } }

/-- The erase does not end before it has begun, and its request waits. -/
theorem current_eraseEnd_stagedInOff : ∃ t, exec .eraseEnd stagedInOff = .next t ∧ t.mbx.current = some stagedRequest :=
  ⟨_, rfl, by decide +kernel⟩

/-- In OFF the warden takes nothing (R361). -/
theorem takePatterns_of_off (block : Bool) (l : List DetPattern) {s : State} (off : s.mode = .off) : takePatterns block l s = s :=
  if_pos (by simp [off])

theorem settleN_of_off (n : Nat) {s : State} (off : s.mode = .off) : ∃ f, settleN n s = { s with flt := f } := by
  induction n generalizing s with
  | zero => exact ⟨_, rfl⟩
  | succ n ih =>
    unfold settleN
    split
    · exact ⟨s.flt, rfl⟩
    · obtain ⟨f, e⟩ := ih (s := { s with flt.due := [] }) off
      exact ⟨f, (congrArg (settleN n) (takePatterns_of_off (s := { s with flt.due := [] }) _ _ off)).trans e⟩

theorem mbx_settle_of_off {s : State} (off : s.mode = .off) (none_ : s.fab.outq = []) : (settle s).mbx = s.mbx := by
  obtain ⟨f, e⟩ := settleN_of_off 4 off
  rw [settle, e, flushPorts, if_pos (by simp [none_])]

end Sys2Proof.Machine

namespace Sys2Proof
open Machine

/-- Refutes O50 in its clause on the end of a staged erase: from `stagedInOff` the erase has not begun, so it does not end and its request is
not answered. The clause lacks the premise that the erase has begun. -/
theorem not_mailboxQueues : ¬ Obligations.MailboxQueues := by
  rintro ⟨-, -, -, -, -, -, -, -, ended⟩
  obtain ⟨u, hu, frame, ⟨answered, -⟩, -⟩ := ended stagedRequest _ stagedInOff ⟨rfl, rfl⟩ rfl rfl rfl rfl rfl rfl
  obtain ⟨t, ht, waits⟩ := current_eraseEnd_stagedInOff
  have left : settle u = t := Host.Outcome.next.inj (hu.symm.trans ht)
  have off : u.mode = .off := by rw [frame]; rfl
  have quiet : u.fab.outq = [] := by rw [frame]; rfl
  rw [← left, mbx_settle_of_off off quiet, answered] at waits
  cases waits

end Sys2Proof

/-! # O48: MSI-X and the rings of the host -/
namespace Sys2Proof.Machine

section
variable {s : State}

/-! ## Accesses of the host's block (R13) -/

theorem blockOf_hst {a : Nat} (lo : 0x50000 ≤ a) (hi : a < 0x5A000) : blockOf a = some 24 := by
  unfold blockOf
  repeat rw [if_neg (by omega)]
  exact if_pos hi

/-- On the board form a write of the host's block reaches it in the states from ARMED, whatever its source. -/
theorem judged_hst (board : s.otp.cardForm = false) (hm : s.mode.fromArmed = true) {a : Nat} (lo : 0x50000 ≤ a) (hi : a < 0x5A000)
    (src : Source) (f : State → State) : judged src a f s = f s := by
  have live : s.live 24 = true := by simp [State.live, liveIn_of_fromArmed hm, board]
  have heard : s.hears src = true := by simp [State.hears, answers_of_fromArmed hm, board]
  have there : s.absent a = false := by simp [State.absent, blockOf_hst lo hi, board]
  simp [judged, heard, there, blockOf_hst lo hi, live, rowLegal, hm]

/-! ## MSI-X (R394) -/

theorem msixUnmask_sends {v : Nat} (hs : Settled s) (hm : s.mode.fromArmed = true) (board : s.otp.cardForm = false) (hv : v < 64)
    (waits : s.hst.msixPend.getLsbD v = true) (bme : s.hst.bme = true) :
    ∃ t, exec (.msixUnmask (.vector v)) s = .next t ∧
      t = { s with gctl := t.gctl, hst := t.hst, out := t.out } ∧ t.out = .msix v :: s.out ∧ t.hst.msixPend.getLsbD v = false ∧
      (tget t.hst.msix v).masked = false := by
  have unmasked : (tget (tmod s.hst.msix v (fun e : MsixEntry => { e with masked := false })) v).masked = false :=
    congrArg MsixEntry.masked (tget_tset_same _ _ _ hv)
  have sent : msixSend v { s with hst.msix := tmod s.hst.msix v (fun e : MsixEntry => { e with masked := false }) } =
      { s with
        hst.msix := tmod s.hst.msix v (fun e : MsixEntry => { e with masked := false })
        hst.msixPend := s.hst.msixPend &&& ~~~(BitVec.twoPow 64 v), out := .msix v :: s.out } :=
    if_pos (by simp [waits, unmasked, bme])
  have step := congrArg done ((judged_hst board hm (a := 0x5800C + 16 * v) (by omega) (by omega) .pcie
    (fun s => msixSend v { s with hst.msix := tmod s.hst.msix v (fun (e : MsixEntry) => { e with masked := false }) })).trans sent)
  refine ⟨_, step.trans (done_of_settled hs), rfl, rfl, ?_, unmasked⟩
  simp [hv]

theorem msixUnmask_busMaster (hs : Settled s) (hm : s.mode.fromArmed = true) (board : s.otp.cardForm = false) :
    ∃ t, exec (.msixUnmask .busMaster) s = .next t ∧ t = { s with gctl := t.gctl, hst := t.hst, out := t.out } ∧ t.hst.bme = true := by
  have notTest : s.mode ≠ .selftest := by
    rintro test
    rw [test] at hm
    exact absurd hm (by decide)
  obtain ⟨q, o, e⟩ := setBme_frame true s
  have step : exec (.msixUnmask .busMaster) s = done (setBme true s) :=
    congrArg done (if_pos (by simp [State.hasPcie, board, answers_of_fromArmed hm, notTest]))
  rw [e] at step
  exact ⟨_, step.trans (done_of_settled hs), rfl, rfl⟩

/-! ## Rings (R395 to R397) -/

section
variable {c : Channel} {src : Source}

theorem ringAddr_within (c : Channel) {o : Nat} (h : o < 0x40) : 0x50000 ≤ ringAddr c o ∧ ringAddr c o < 0x5A000 := by
  cases c <;> simp [ringAddr, chanNum] <;> omega

theorem Settled.setRing (hs : Settled s) (c : Channel) (x : Ring) : Settled (s.setRing c x) := by
  cases c
  · exact hs
  · exact hs

/-- A write of a ring's register acts on the ring alone. -/
theorem done_judged_ring (hs : Settled s) (hm : s.mode.fromArmed = true) (board : s.otp.cardForm = false) {o : Nat} (low : o < 0x40)
    {f : State → State} {x : Ring} (made : f s = s.setRing c x) : done (judged src (ringAddr c o) f s) = .next (s.setRing c x) := by
  obtain ⟨lo, hi⟩ := ringAddr_within c low
  rw [judged_hst board hm lo hi, made]
  exact done_of_settled (hs.setRing c x)

theorem ringEnable_enables (hs : Settled s) (hm : s.mode.fromArmed = true) (board : s.otp.cardForm = false) (off : (s.ring c).en = false)
    (base : (s.ring c).base.toNat % 4096 = 0) (two : 2 ≤ (s.ring c).slots.toNat) (most : (s.ring c).slots.toNat ≤ 1024)
    (fits : s.im.frameLen (c = .b) ≤ (s.ring c).slotKib.toNat * 1024) (wb : (s.ring c).wb.toNat % 8 = 0) :
    exec (.ringEnable src c) s = .next (s.setRing c { s.ring c with en := true, stat := 0x00 }) := by
  have ok : ringOk c s = true := by simp [ringOk, base, two, most, fits, wb]
  exact done_judged_ring hs hm board (o := 0x10) (by decide) ((if_neg (by simp [off])).trans (if_pos ok))

theorem ringEnable_misaligned (hs : Settled s) (hm : s.mode.fromArmed = true) (board : s.otp.cardForm = false) (off : (s.ring c).en = false)
    (base : (s.ring c).base.toNat % 4096 ≠ 0) : exec (.ringEnable src c) s = .next (s.setRing c { s.ring c with stat := 0x03 }) := by
  have bad : ¬ringOk c s = true := by simp [ringOk, base]
  exact done_judged_ring hs hm board (o := 0x10) (by decide) ((if_neg (by simp [off])).trans (if_neg bad))

theorem ringEnable_again (hs : Settled s) (hm : s.mode.fromArmed = true) (board : s.otp.cardForm = false) (on : (s.ring c).en = true) :
    exec (.ringEnable src c) s = .next (s.setRing c { s.ring c with stat := 0x01 }) :=
  done_judged_ring hs hm board (o := 0x10) (by decide) (if_pos on)

theorem ringDisable_stops (hs : Settled s) (hm : s.mode.fromArmed = true) (board : s.otp.cardForm = false) :
    exec (.ringDisable src c) s = .next (s.setRing c { s.ring c with
      en := false, stopping := ((s.ring c).en && (s.ring c).busy), stat := 0x00 }) :=
  done_judged_ring hs hm board (o := 0x10) (by decide) rfl

theorem ringHeadWrite_takes {h : BitVec 10} (hs : Settled s) (hm : s.mode.fromArmed = true) (board : s.otp.cardForm = false)
    (low : h.toNat < (s.ring c).slots.toNat) : exec (.ringHeadWrite src c h) s = .next (s.setRing c { s.ring c with head := h, stat := 0x00 }) :=
  done_judged_ring hs hm board (o := 0x14) (by decide) (if_pos low)

theorem ringHeadWrite_beyond {h : BitVec 10} (hs : Settled s) (hm : s.mode.fromArmed = true) (board : s.otp.cardForm = false)
    (high : (s.ring c).slots.toNat ≤ h.toNat) : exec (.ringHeadWrite src c h) s = .next (s.setRing c { s.ring c with stat := 0x03 }) :=
  done_judged_ring hs hm board (o := 0x14) (by decide) (if_neg (Nat.not_lt.mpr high))

/-- A message leaves the rings as they are. -/
theorem msix_ring (v : Nat) (en : Bool) (s : State) (c : Channel) : (msix v en s).ring c = s.ring c := by
  unfold msix
  split_ifs
  · rfl
  · cases c
    · rfl
    · rfl
  · rfl

/-- A message only adds to what leaves the device. -/
theorem mem_out_msix {o : Out} (v : Nat) (en : Bool) (s : State) (h : o ∈ s.out) : o ∈ (msix v en s).out := by
  unfold msix
  split_ifs
  · exact h
  · exact h
  · exact List.mem_cons_of_mem _ h

theorem ring_setRing (s : State) (c : Channel) (x : Ring) : (s.setRing c x).ring c = x := by
  cases c
  · rfl
  · rfl

theorem ring_say (s : State) (o : Out) (c : Channel) : (s.say o).ring c = s.ring c := by
  cases c
  · rfl
  · rfl

theorem ringWriteback_advances (hs : Settled s) (answers : s.mode.answers = true) (busy : (s.ring c).busy = true)
    (two : 2 ≤ (s.ring c).slots.toNat) : ∃ t, exec (.ringWriteback c) s = .next t ∧
      t = { s with hst := t.hst, out := t.out } ∧
    (t.ring c).tail = BitVec.ofNat 10 (((s.ring c).tail.toNat + 1) % (s.ring c).slots.toNat) ∧ (t.ring c).busy = false ∧
    (t.ring c).frames = satInc (s.ring c).frames ∧
    Out.hostWrite (s.ring c).wb (leBytes 4 (t.ring c).tail.toNat ++ leBytes 4 (s.ring c).fullDrop.toNat) ∈ t.out := by
  let tail : BitVec 10 := BitVec.ofNat 10 (((s.ring c).tail.toNat + 1) % (s.ring c).slots.toNat)
  let x : Ring := { s.ring c with tail := tail, frames := satInc (s.ring c).frames, busy := false, stopping := false }
  let said : State := (s.setRing c x).say (.hostWrite (s.ring c).wb (leBytes 4 tail.toNat ++ leBytes 4 (s.ring c).fullDrop.toNat))
  have most : max 1 (s.ring c).slots.toNat = (s.ring c).slots.toNat := by omega
  have made : ringWriteback c s = msix (s.ring c).vec.toNat ((s.ring c).vec ≠ 0) said := by
    rw [ringWriteback, if_neg (by simp [busy, answers]), most]
  have ring : (ringWriteback c s).ring c = x := by rw [made, msix_ring, ring_say, ring_setRing]
  have frame : ringWriteback c s = { s with hst := (ringWriteback c s).hst, out := (ringWriteback c s).out } := by
    rw [made, msix_frame]
    cases c
    · rfl
    · rfl
  have settled : Settled (ringWriteback c s) := by
    rw [frame]
    exact hs
  refine ⟨_, done_of_settled settled, frame, ?_⟩
  rw [ring]
  exact ⟨rfl, rfl, rfl, made ▸ mem_out_msix _ _ _ (List.mem_cons_self ..)⟩

end

end

end Sys2Proof.Machine

namespace Sys2Proof
open Machine

/-- Settles O48: a write of the host's block reaches it from every source in the states from ARMED, and acts on one ring; a transfer's end
also writes back and raises the ring's vector. -/
theorem hostRings : Obligations.HostRings :=
  ⟨fun _ _ hs hm board hv waits bme => msixUnmask_sends hs hm board hv waits bme,
   fun _ hs hm board => msixUnmask_busMaster hs hm board,
   fun _ _ _ hs hm board off base two most fits wb => ringEnable_enables hs hm board off base two most fits wb,
   fun _ _ _ hs hm board off base => ringEnable_misaligned hs hm board off base,
   fun _ _ _ hs hm board on => ringEnable_again hs hm board on,
   fun _ _ _ hs hm board => ringDisable_stops hs hm board,
   fun _ _ _ _ hs hm board low => ringHeadWrite_takes hs hm board low,
   fun _ _ _ _ hs hm board high => ringHeadWrite_beyond hs hm board high,
   fun _ _ hs answers busy two => ringWriteback_advances hs answers busy two⟩

end Sys2Proof

/-! # What a fence leaves, and O46: the slices of the self-test -/
namespace Sys2Proof.Machine

/-! ## A core that is fenced (R113) -/

/-- The state without the curator and what it may bring: pulses for the warden and vectors. -/
def State.offSch (s : State) : State := { s with sch := {}, flt := { s.flt with due := [] }, hst := {}, out := [] }

theorem frame_of_offSch {s t : State} (h : t.offSch = s.offSch) :
    t = { s with sch := t.sch, flt := { s.flt with due := t.flt.due }, hst := t.hst, out := t.out } := by
  have e : t = { t.offSch with sch := t.sch, flt := { t.offSch.flt with due := t.flt.due }, hst := t.hst, out := t.out } := rfl
  rw [h] at e
  exact e

@[simp] theorem msix_offSch (v : Nat) (en : Bool) (s : State) : (msix v en s).offSch = s.offSch := by
  rw [msix_frame]
  rfl

@[simp] theorem schVec_offSch (s : State) : (schVec s).offSch = s.offSch := msix_offSch ..

@[simp] theorem schVec_core (s : State) (n : Nat) : (schVec s).core n = s.core n := by
  rw [schVec, msix_frame]
  rfl

@[simp] theorem writeVoid_offSch (o : Nat) (g : Byte) (m : Word) (s : State) : (writeVoid o g m s).offSch = s.offSch :=
  (schVec_offSch _).trans rfl

@[simp] theorem writeVoid_core (o : Nat) (g : Byte) (m : Word) (s : State) (n : Nat) : (writeVoid o g m s).core n = s.core n :=
  (schVec_core _ n).trans rfl

theorem voidOutputs_leaves (t : TaskDesc) (g : Byte) (m : Word) (s : State) :
    (voidOutputs t g m s).offSch = s.offSch ∧ ∀ n, (voidOutputs t g m s).core n = s.core n := by
  unfold voidOutputs
  generalize t.outs = l
  induction l generalizing s with
  | nil => exact ⟨rfl, fun _ => rfl⟩
  | cons o l ih =>
    obtain ⟨off, cores⟩ := ih (writeVoid o g m s)
    exact ⟨off.trans (writeVoid_offSch ..), fun n => (cores n).trans (writeVoid_core ..)⟩

theorem loseTask_leaves (t : TaskDesc) (k : BitVec 64) (s : State) :
    (loseTask t k s).offSch = s.offSch ∧ ∀ n, (loseTask t k s).core n = s.core n := by
  unfold loseTask
  dsimp only
  split
  · split
    · exact ⟨rfl, fun _ => rfl⟩
    · exact ⟨rfl, fun _ => rfl⟩
  · exact voidOutputs_leaves t _ _ (markDone t.id k s)

/-- A core is freed for a fence: its solve is abandoned, and its task leaves it. -/
def clearCore (n : Nat) (s : State) : State :=
  freeCore n (match (s.core n).job with | some j => abortSolve n j s | none => s)

theorem clearCore_offSch (n : Nat) (s : State) : (clearCore n s).offSch = s.offSch := by
  unfold clearCore
  split
  · obtain ⟨c, e⟩ := abortSolve_frame n ‹Job› s
    rw [e]
    rfl
  · rfl

/-- A task that lost its core moves, or is lost. -/
def moveTask (im : Image) (s : State) (j : Job) : State :=
  match im.task j.task with
  | none => s
  | some t => match s.placeOf t with
    | some c => { s with sch.ready := s.sch.ready ++ [{ j with core := c, moved := t.core ≠ 0x3F, solve := none }] }
    | none => loseTask t j.tick s

theorem moveTask_leaves (im : Image) (s : State) (j : Job) :
    (moveTask im s j).offSch = s.offSch ∧ ∀ n, (moveTask im s j).core n = s.core n := by
  unfold moveTask
  split
  · exact ⟨rfl, fun _ => rfl⟩
  · split
    · exact ⟨rfl, fun _ => rfl⟩
    · exact loseTask_leaves ..

theorem foldl_moveTask_leaves (im : Image) (l : List Job) (s : State) :
    (l.foldl (moveTask im) s).offSch = s.offSch ∧ ∀ n, (l.foldl (moveTask im) s).core n = s.core n := by
  induction l generalizing s with
  | nil => exact ⟨rfl, fun _ => rfl⟩
  | cons j l ih =>
    obtain ⟨off, cores⟩ := ih (moveTask im s j)
    obtain ⟨off', cores'⟩ := moveTask_leaves im s j
    exact ⟨off.trans off', fun n => (cores n).trans (cores' n)⟩

/-- The state without what a fence may change: the curator and what it brings, and the slice of the core. -/
def State.offFence (s : State) : State := { s.offSch with tst := {} }

theorem frame_of_offFence {s t : State} (h : t.offFence = s.offFence) :
    t = { s with sch := t.sch, flt := { s.flt with due := t.flt.due }, tst := t.tst, hst := t.hst, out := t.out } := by
  have e : t = { t.offFence with sch := t.sch, flt := { t.offFence.flt with due := t.flt.due }, tst := t.tst, hst := t.hst, out := t.out } := rfl
  rw [h] at e
  exact e

/-- A fence keeps all but the curator, and a slice of the core ends. -/
theorem fenceCore_leaves (n : Nat) (cause : BitVec 2) (s : State) :
    (fenceCore n cause s).offFence = s.offFence ∧ (s.coreTested n = false → (fenceCore n cause s).tst = s.tst) := by
  unfold fenceCore
  split
  · exact ⟨rfl, fun _ => rfl⟩
  · extract_lets im running cleared freed _ fenced _ tested isAlt go _ moved hit _ ready
    have clear : fenced.offSch = s.offSch := (schVec_offSch _).trans (clearCore_offSch n s)
    have tst : fenced.tst = s.tst := (congrArg State.tst clear : fenced.offSch.tst = s.offSch.tst)
    have same : fenced.coreTested n = s.coreTested n := by
      unfold State.coreTested
      rw [tst]
    have rest : tested.offFence = s.offFence := by
      unfold tested
      split
      · exact congrArg (fun t : State => { t with tst := ({} : Tst) }) clear
      · exact congrArg (fun t : State => { t with tst := ({} : Tst) }) clear
    obtain ⟨off, -⟩ := foldl_moveTask_leaves im hit ready
    refine ⟨(congrArg (fun t : State => { t with tst := ({} : Tst) }) off).trans rest, fun idle => ?_⟩
    refine (congrArg State.tst off : (hit.foldl (moveTask im) ready).offSch.tst = ready.offSch.tst).trans ?_
    have kept : tested = fenced := if_neg (by simp [same, idle])
    exact (congrArg State.tst kept).trans tst

theorem fenceCore_fenced {n : Nat} (hn : n < 48) {cause : BitVec 2} (is_ : cause ≠ 0) (s : State) : ((fenceCore n cause s).core n).fence ≠ 0 := by
  unfold fenceCore
  split
  · next h => simpa [Nat.not_le.mpr hn] using h
  · extract_lets im running cleared freed _ fenced _ tested isAlt go _ moved hit _ ready
    have fence : (fenced.core n).fence = cause := by
      unfold fenced
      rw [schVec_core]
      exact congrArg Core.fence (tget_tset_same _ _ _ hn)
    have kept : tested.core n = fenced.core n := by
      unfold tested
      split
      · rfl
      · rfl
    obtain ⟨-, cores⟩ := foldl_moveTask_leaves im hit ready
    rw [← fence, ← kept] at is_
    exact fun h => is_ ((congrArg Core.fence (cores n)).symm.trans h)

end Sys2Proof.Machine

/-! ## O46: slices -/
namespace Sys2Proof.Machine

section
variable {s : State} {x : Slice} {rs : List Nat} {c : Bool}

/-! ## Counting and the rotation (R378, R379) -/

/-- What the end of a slice keeps of the state as the rotation goes on: everything but the rotation's own fields, and what a vector brings. -/
structure RotKeeps (s t : State) : Prop where
  frame : t = { s with tst := t.tst, hst := t.hst, out := t.out, freeCtr := t.freeCtr }
  phase : t.tst.phase = s.tst.phase
  slice : t.tst.slice = s.tst.slice
  lastResult : t.tst.lastResult = s.tst.lastResult
  cnt : ∀ i, i ≠ 9 → tget t.tst.cnt i = tget s.tst.cnt i

theorem RotKeeps.refl (s : State) : RotKeeps s s := ⟨rfl, rfl, rfl, rfl, fun _ _ => rfl⟩

theorem RotKeeps.trans {s t u : State} (h : RotKeeps s t) (k : RotKeeps t u) : RotKeeps s u where
  frame := by rw [k.frame, h.frame]
  phase := k.phase.trans h.phase
  slice := k.slice.trans h.slice
  lastResult := k.lastResult.trans h.lastResult
  cnt := fun i other => (k.cnt i other).trans (h.cnt i other)

theorem tstVec_frame (s : State) : tstVec s = { s with hst := (tstVec s).hst, out := (tstVec s).out } := msix_frame ..

theorem tstVec_tst (s : State) : (tstVec s).tst = s.tst := by rw [tstVec_frame]

theorem rotKeeps_tstVec (s : State) : RotKeeps s (tstVec s) := by
  have frame := tstVec_frame s
  generalize tstVec s = t at frame
  rw [frame]
  exact ⟨rfl, rfl, rfl, rfl, fun _ _ => rfl⟩

theorem rotKeeps_count (s : State) : RotKeeps s (tstCount 9 s) :=
  ⟨rfl, rfl, rfl, rfl, fun _ other => tget_tinc_other _ other.symm⟩

theorem rotKeeps_rotDone (s : State) : RotKeeps s (rotDone s) := by
  unfold rotDone
  extract_lets ms late _ _ _ timed _ counted
  have first : RotKeeps s timed := by
    unfold timed
    split
    · exact ⟨rfl, rfl, rfl, rfl, fun _ _ => rfl⟩
    · exact ⟨rfl, rfl, rfl, rfl, fun _ _ => rfl⟩
  have kept : RotKeeps s counted := first.trans ⟨rfl, rfl, rfl, rfl, fun _ _ => rfl⟩
  clear_value counted
  split
  · exact kept.trans ((rotKeeps_count counted).trans (rotKeeps_tstVec _))
  · exact kept

theorem rotKeeps_rotAdvance (p : Nat) (s : State) : RotKeeps s (rotAdvance p s) := by
  unfold rotAdvance
  extract_lets t
  have kept : RotKeeps s t := by
    unfold t
    split
    · exact rotKeeps_rotDone s
    · exact .refl s
  clear_value t
  split
  · exact kept.trans ⟨rfl, rfl, rfl, rfl, fun _ _ => rfl⟩
  · have first : RotKeeps t { t with tst.rotPos := 0 } := ⟨rfl, rfl, rfl, rfl, fun _ _ => rfl⟩
    exact (kept.trans first).trans (rotKeeps_rotDone _)

theorem Settled.rotKeeps {t : State} (hs : Settled s) (kept : RotKeeps s t) : Settled t := by
  rw [kept.frame]
  exact hs

/-! ## Start and skip (R375, R379) -/

theorem sliceStart_starts (hs : Settled s) (may : s.mayTry = true) (idle : s.targetIdle (targetAt s.rotNext) = true)
    (inTime : s.tim.mono ≤ s.latestStart (targetAt s.rotNext)) (granted : s.sliceGranted rs (targetAt s.rotNext) = true)
    (plain : s.inRephase = false) : ∃ t x, exec (.sliceStart rs true) s = .next t ∧
      t = { s with fab := t.fab, pwr := t.pwr, tst := t.tst, hst := t.hst, out := t.out } ∧ t.tst.slice = some x ∧ x.target = targetAt s.rotNext ∧ x.startMono = s.tim.mono ∧
      t.tst.phase = (if x.target.saves then .saving else .testing) ∧ t.tst.tickDone = true := by
  have step : exec (.sliceStart rs true) s = done (sliceBegin s) :=
    congrArg done (if_pos (by simp [may, idle, granted, plain, State.mono, inTime]))
  exact ⟨_, _, step.trans (done_of_settled hs), rfl, rfl, rfl, rfl, rfl, rfl⟩

theorem sliceStart_refused (hs : Settled s) (refused : s.sliceGranted rs (targetAt s.rotNext) = false ∨ c = false) :
    exec (.sliceStart rs c) s = .next s := by
  have step : exec (.sliceStart rs c) s = done s := by
    refine congrArg done (if_neg ?_)
    rcases refused with denied | failed
    · simp [denied]
    · simp [failed]
  exact step.trans (done_of_settled hs)

/-- A tick without a slice, counted. -/
def skipped (i : Nat) (s : State) : State := { tstCount i s with tst.tickDone := true, tst.skipRun := s.tst.skipRun + 1 }

/-- A run of ticks without a slice warns once. -/
theorem skip_eq (i : Nat) (s : State) : skip i s =
    if (skipped i s).tst.skipRun = (skipped i s).im.selfTest.skipWarn then tstVec (tstCount 8 (skipped i s)) else skipped i s := rfl

theorem warned_frame {t : State} (frame : t = { s with tst := t.tst }) : tstVec (tstCount 8 t) =
    { s with tst := (tstVec (tstCount 8 t)).tst, hst := (tstVec (tstCount 8 t)).hst, out := (tstVec (tstCount 8 t)).out } := by
  rw [tstVec_tst]
  refine (tstVec_frame (tstCount 8 t)).trans ?_
  generalize tstVec (tstCount 8 t) = u
  rw [frame]
  rfl

theorem skip_leaves {i : Nat} (hi : i < 8) (s : State) : skip i s = { s with tst := (skip i s).tst, hst := (skip i s).hst, out := (skip i s).out } ∧
    tget (skip i s).tst.cnt i = satInc (tget s.tst.cnt i) ∧ (skip i s).tst.tickDone = true ∧ (skip i s).tst.slice = s.tst.slice ∧
    (skip i s).tst.rotPos = s.tst.rotPos := by
  obtain ⟨t, isT⟩ : ∃ t, t = skipped i s := ⟨_, rfl⟩
  have frame : t = { s with tst := t.tst } := by rw [isT]; rfl
  have counted : tget t.tst.cnt i = satInc (tget s.tst.cnt i) := by rw [isT]; exact tget_tinc_same _ (by omega)
  have rest : t.tst.tickDone = true ∧ t.tst.slice = s.tst.slice ∧ t.tst.rotPos = s.tst.rotPos := by rw [isT]; exact ⟨rfl, rfl, rfl⟩
  rw [skip_eq, ← isT]
  split
  · refine ⟨warned_frame frame, ?_⟩
    rw [tstVec_tst]
    exact ⟨(tget_tinc_other _ (by omega)).trans counted, rest⟩
  · exact ⟨by rw [frame], counted, rest⟩

theorem slice_of_mayTry (may : s.mayTry = true) : s.tst.slice = none := by
  simp only [State.mayTry, Bool.and_eq_true, Option.isNone_iff_eq_none] at may
  exact may.1.2

theorem Settled.skip {i : Nat} (hs : Settled s) (hi : i < 8) : Settled (skip i s) := by
  obtain ⟨frame, -⟩ := skip_leaves hi s
  rw [frame]
  exact hs

theorem sliceSkip_late (hs : Settled s) (may : s.mayTry = true) (late : s.latestStart (targetAt s.rotNext) < s.tck.qMono) :
    ∃ t, exec (.sliceSkip rs c) s = .next t ∧
      t = { s with tst := t.tst, hst := t.hst, out := t.out } ∧
    tget t.tst.cnt 2 = satInc (tget s.tst.cnt 2) ∧ t.tst.tickDone = true ∧ t.tst.slice = none ∧ t.tst.rotPos = s.tst.rotPos := by
  obtain ⟨frame, counted, tried, slice, place⟩ := skip_leaves (i := 2) (by decide) s
  have step : exec (.sliceSkip rs c) s = done (skip 2 s) := congrArg done ((if_neg (by simp [may])).trans (if_pos late))
  exact ⟨_, step.trans (done_of_settled (hs.skip (by decide))), frame, counted, tried, slice.trans (slice_of_mayTry may), place⟩

/-- A tick whose slice the arbiter denies, once time has passed to the latest start. -/
theorem skip_denied {v : State} (passed : TimePasses s v) (hs : Settled s) (may : s.mayTry = true) : ∃ t, done (skip 4 v) = .next t ∧
      t = { s with tim := t.tim, fab := t.fab, pwr := t.pwr, tst := t.tst, hst := t.hst, out := t.out } ∧
      tget t.tst.cnt 4 = satInc (tget s.tst.cnt 4) ∧ t.tst.tickDone = true ∧ t.tst.slice = none := by
  obtain ⟨frame, counted, tried, slice, -⟩ := skip_leaves (i := 4) (by decide) v
  have tst : v.tst = s.tst := by rw [passed]
  rw [tst] at counted slice
  refine ⟨_, done_of_settled ((passed.settled hs).skip (by decide)), ?_, counted, tried, slice.trans (slice_of_mayTry may)⟩
  rw [frame, passed]

theorem sliceSkip_denied (hs : Settled s) (quiet : QuietClock s) (may : s.mayTry = true)
    (within : s.tck.qMono ≤ s.latestStart (targetAt s.rotNext)) (idle : s.targetIdle (targetAt s.rotNext) = true)
    (denied : (advanceTo (s.latestStart (targetAt s.rotNext)) s).sliceGranted rs (targetAt s.rotNext) = false) :
    ∃ t, exec (.sliceSkip rs c) s = .next t ∧
      t = { s with tim := t.tim, fab := t.fab, pwr := t.pwr, tst := t.tst, hst := t.hst, out := t.out } ∧
      tget t.tst.cnt 4 = satInc (tget s.tst.cnt 4) ∧ t.tst.tickDone = true ∧ t.tst.slice = none := by
  have step : exec (.sliceSkip rs c) s = done (skip 4 (advanceTo (s.latestStart (targetAt s.rotNext)) s)) :=
    congrArg done ((if_neg (by simp [may])).trans ((if_neg (Nat.not_lt.mpr within)).trans
      ((if_neg (by simp [idle])).trans (if_pos (by simp [denied])))))
  obtain ⟨t, reached, rest⟩ := skip_denied (timePasses_advanceTo (s.latestStart (targetAt s.rotNext)) quiet) hs may
  exact ⟨t, step.trans reached, rest⟩

/-! ## Ends (R378, R380 to R382) -/

theorem exec_sliceTestEnd (testing : s.testing = some x) (inTime : s.tim.mono ≤ x.latestEnd) (r : SliceOutcome) :
    exec (.sliceTestEnd r) s = done (testEnd x r s) := by
  show execSliceTestEnd r s = _
  rw [execSliceTestEnd, testing]
  exact congrArg done (if_pos inTime)

theorem sliceTestEnd_pass (hs : Settled s) (testing : s.testing = some x) (inTime : s.tim.mono ≤ x.latestEnd) (saves : x.target.saves = true) :
    exec (.sliceTestEnd .pass) s = .next { s with tst.phase := .restoring } := by
  have restore : testEnd x .pass s = { s with tst.phase := .restoring } := if_pos saves
  rw [exec_sliceTestEnd testing inTime, restore]
  exact done_of_settled hs

/-- The slice of a core that fails is over before the core is fenced. -/
theorem sliceTestEnd_fail {n d : Nat} (testing : s.testing = some x) (inTime : s.tim.mono ≤ x.latestEnd) (core : x.target = .core n)
    (hn : n < 48) : ∃ u, exec (.sliceTestEnd (.fail d)) s = .next (settle u) ∧
      u = { s with sch := u.sch, flt := u.flt, tst := u.tst, hst := u.hst, out := u.out, freeCtr := u.freeCtr } ∧ (n, BitVec.ofNat 32 d) ∈ u.flt.due ∧ u.tst.lastResult = 2 ∧
      u.tst.slice = none ∧ tget u.tst.cnt 1 = satInc (tget s.tst.cnt 1) ∧ (u.core n).fence ≠ 0 := by
  obtain ⟨ended, isEnded⟩ : ∃ t, t = sliceOver 2 s := ⟨_, rfl⟩
  have kept := rotKeeps_tstVec ended
  obtain ⟨told, isTold⟩ : ∃ t, t = tstVec ended := ⟨_, rfl⟩
  rw [← isTold] at kept
  have idle : told.coreTested n = false := by
    unfold State.coreTested
    rw [kept.phase, isEnded]
    rfl
  obtain ⟨leaves, tst⟩ := fenceCore_leaves n 2 told
  have fenced := fenceCore_fenced hn (cause := 2) (by decide) told
  have off := frame_of_offFence leaves
  obtain ⟨w, isW⟩ : ∃ t, t = fenceCore n 2 told := ⟨_, rfl⟩
  rw [← isW] at fenced off
  have after := rotKeeps_rotAdvance (n + 1) w
  have step : exec (.sliceTestEnd (.fail d)) s = done (raiseDet n (BitVec.ofNat 32 d) (rotAdvance (n + 1) w)) := by
    rw [exec_sliceTestEnd testing inTime, isW, isTold, isEnded]
    unfold testEnd
    rw [core]
    rfl
  obtain ⟨r, isR⟩ : ∃ t, t = rotAdvance (n + 1) w := ⟨_, rfl⟩
  rw [← isR] at step after
  have wTst : w.tst = told.tst := isW ▸ tst idle
  have counted : tget ended.tst.cnt 1 = satInc (tget s.tst.cnt 1) := by
    rw [isEnded]
    exact tget_tinc_same _ (by decide)
  refine ⟨_, step, ?_, List.mem_cons_self .., ?_, ?_, ?_, ?_⟩
  · rw [after.frame, off, kept.frame, isEnded]
    rfl
  · show r.tst.lastResult = 2
    rw [after.lastResult, wTst, kept.lastResult, isEnded]
    rfl
  · show r.tst.slice = none
    rw [after.slice, wTst, kept.slice, isEnded]
    rfl
  · show tget r.tst.cnt 1 = _
    rw [after.cnt 1 (by decide), wTst, kept.cnt 1 (by decide), counted]
  · have same : r.core n = w.core n := by rw [after.frame]; rfl
    exact fun none_ => fenced (same ▸ none_)

/-- A slice whose latest end has come goes on to RESTORE. -/
theorem restore_later {v : State} (passed : TimePasses s v) (hs : Settled s) : ∃ t,
    done { v with tst.phase := .restoring, tst.slice := some { x with incomplete := true } } = .next t ∧
      t = { s with tim := t.tim, tst := t.tst } ∧ t.tst.phase = .restoring ∧ t.tst.slice = some { x with incomplete := true } ∧ t.tim = v.tim := by
  refine ⟨_, done_of_settled (passed.settled hs), ?_, rfl, rfl, rfl⟩
  rw [passed]

theorem sliceLatestEnd_restores (hs : Settled s) (quiet : QuietClock s) (testing : s.testing = some x) (saves : x.target.saves = true) :
    ∃ t, exec .sliceLatestEnd s = .next t ∧
      t = { s with tim := t.tim, tst := t.tst } ∧
    t.tst.phase = .restoring ∧ t.tst.slice = some { x with incomplete := true } ∧ x.latestEnd ≤ t.tim.mono := by
  have late := (advanceTo_mono x.latestEnd quiet).1
  have step : exec .sliceLatestEnd s = done { advanceTo x.latestEnd s with tst.phase := .restoring, tst.slice := some { x with incomplete := true } } := by
    show execSliceLatestEnd s = _
    rw [execSliceLatestEnd, testing]
    exact congrArg done (if_pos saves)
  obtain ⟨t, reached, frame, phase, slice, tim⟩ := restore_later (x := x) (timePasses_advanceTo x.latestEnd quiet) hs
  exact ⟨t, step.trans reached, frame, phase, slice, tim ▸ late⟩

theorem exec_sliceRestoreEnd (phase : s.tst.phase = .restoring) (slice : s.tst.slice = some x) :
    exec .sliceRestoreEnd s = done (if x.incomplete then sliceOver 3 s else slicePass x.target s) := by
  show execSliceRestoreEnd s = _
  rw [execSliceRestoreEnd, phase, slice]

theorem sliceRestoreEnd_incomplete (hs : Settled s) (phase : s.tst.phase = .restoring) (slice : s.tst.slice = some x)
    (cut : x.incomplete = true) : exec .sliceRestoreEnd s = .next { s with
      tst.phase := .idle, tst.slice := none, tst.lastResult := 3, tst.cnt := tinc s.tst.cnt 6 } := by
  rw [exec_sliceRestoreEnd phase slice, if_pos cut]
  exact done_of_settled (s := sliceOver 3 s) hs

theorem sliceRestoreEnd_passes (hs : Settled s) (phase : s.tst.phase = .restoring) (slice : s.tst.slice = some x)
    (whole : x.incomplete = false) : ∃ t, exec .sliceRestoreEnd s = .next t ∧
      t = { s with tst := t.tst, hst := t.hst, out := t.out, freeCtr := t.freeCtr } ∧
    t.tst.phase = .idle ∧ t.tst.slice = none ∧ t.tst.lastResult = 1 ∧ tget t.tst.cnt 0 = satInc (tget s.tst.cnt 0) := by
  have kept := rotKeeps_rotAdvance (placeOfTarget x.target) (sliceOver 1 s)
  have ended : Settled (sliceOver 1 s) := hs
  have counted : tget (sliceOver 1 s).tst.cnt 0 = satInc (tget s.tst.cnt 0) := tget_tinc_same _ (by decide)
  have step := exec_sliceRestoreEnd phase slice
  rw [if_neg (by simp [whole])] at step
  exact ⟨_, step.trans (done_of_settled (ended.rotKeeps kept)), kept.frame, kept.phase, kept.slice, kept.lastResult,
    (kept.cnt 0 (by decide)).trans counted⟩

end

end Sys2Proof.Machine

namespace Sys2Proof
open Machine

/-- Settles O46: each command on its own; what the rotation keeps as it goes on, and what a fence leaves, carry the fields of a slice that
is over to its end. -/
theorem selfTestSlices : Obligations.SelfTestSlices :=
  ⟨fun _ _ hs may idle inTime granted plain => sliceStart_starts hs may idle inTime granted plain,
   fun _ _ _ hs _ refused => sliceStart_refused hs refused,
   fun _ _ _ hs may late => sliceSkip_late hs may late,
   fun _ _ _ hs quiet may within idle denied => sliceSkip_denied hs quiet may within idle denied,
   fun _ _ hs testing inTime saves => sliceTestEnd_pass hs testing inTime saves,
   fun _ _ _ _ _ testing inTime core hn => sliceTestEnd_fail testing inTime core hn,
   fun _ _ hs quiet testing saves => sliceLatestEnd_restores hs quiet testing saves,
   fun _ _ hs phase slice cut => sliceRestoreEnd_incomplete hs phase slice cut,
   fun _ _ hs phase slice whole => sliceRestoreEnd_passes hs phase slice whole⟩

end Sys2Proof

/-! # One pattern of one detector -/
namespace Sys2Proof.Machine

section
variable {s t : State} {x : DetPattern} {d : Nat} {block : Bool}

/-! ## The sample (R356) -/

theorem takePatterns_of_none (on : s.mode ≠ .off) (in_ : s.mode ≠ .removal) (exists_ : detExists x.det = true)
    (h : takePattern block x s = (t, none)) : takePatterns block [x] s = t := by
  simp [takePatterns, on, in_, exists_, h, react]

theorem takePatterns_of_some {v : Nat} (on : s.mode ≠ .off) (in_ : s.mode ≠ .removal) (exists_ : detExists x.det = true)
    (h : takePattern block x s = (t, some v)) : takePatterns block [x] s = react [(x.det, v)] t := by
  simp [takePatterns, on, in_, exists_, h]

theorem takePattern_healthy (p : x.p = true) (n : x.n = false) : takePattern false x s = (pairClean x.det s, none) := by
  simp [takePattern, p, n]

/-- The bits of a detector that shows an error. -/
def State.showing_ (d : Nat) (act line : Bool) (s : State) : State :=
  { s with flt.active := setBit s.flt.active d act, flt.line := setBit s.flt.line d line }

/-- The error of a pair that is not broken already: a level detector is ACTIVE, an event detector is not. -/
theorem takePattern_error (p : x.p = false) (n : x.n = true) (whole : isLevel x.det = true ∨ s.flt.line.getLsbD x.det = false)
    (fresh : isLevel x.det = false ∨ s.flt.active.getLsbD x.det = false) :
    takePattern false x s = occur x.det false (isLevel x.det) x.detail (s.showing_ x.det (isLevel x.det) false) := by
  have broken : (s.flt.line.getLsbD x.det && !isLevel x.det) = false := by
    rcases whole with level | whole
    · simp [level]
    · simp [whole]
  have new : ¬(isLevel x.det && s.flt.active.getLsbD x.det) = true := by
    rcases fresh with event | fresh
    · simp [event]
    · simp [fresh]
  simp only [takePattern, p, n, Bool.false_or, broken, new]
  simp [State.showing_]

/-- Equal levels of a pair: the condition holds until the pair reads (1,0). -/
theorem takePattern_line (same : x.p = x.n) (fresh : isLevel x.det = false ∨ s.flt.active.getLsbD x.det = false) :
    takePattern false x s = occur x.det true true x.detail (s.showing_ x.det true true) := by
  have new : ¬(isLevel x.det && s.flt.active.getLsbD x.det) = true := by
    rcases fresh with event | fresh
    · simp [event]
    · simp [fresh]
  simp only [takePattern, same, new]
  simp [State.showing_]

/-! ## Records (R360) -/

/-- The record that an occurrence opens. -/
def openedRec (d level : Nat) (line act : Bool) (detail : Word) (held : Bool) (s : State) : FaultRec :=
  { det := d, react := BitVec.ofNat 3 level, line := line, esc := false, active := act, preArmed := !s.gctl.everArmed
    state := s.mode.code, first := w64 s.stamp, last := w64 s.stamp, lastTick := s.tck.index, detail := detail, judged := !held }

theorem recordOcc_opens {level : Nat} {line act held : Bool} {detail : Word} (new : s.flt.recOf d = none) (room : s.flt.records.length < 64) :
    recordOcc d level line false act detail held s = { s with flt.records := s.flt.records ++ [openedRec d level line act detail held s] } := by
  simp only [recordOcc, new, Flt.open, room, if_true]
  rfl

/-- A record is written, or counted as not kept. -/
theorem recordOcc_leaves (d level : Nat) (line esc act : Bool) (detail : Word) (held : Bool) (s : State) :
    ∃ l c, recordOcc d level line esc act detail held s = { s with flt := { s.flt with records := l, cnt := c } } ∧
      ∀ i, i ≠ 2 → tget c i = tget s.flt.cnt i := by
  unfold recordOcc
  dsimp only
  split
  · exact ⟨_, s.flt.cnt, rfl, fun _ _ => rfl⟩
  · unfold Flt.open
    split
    · exact ⟨_, s.flt.cnt, rfl, fun _ _ => rfl⟩
    · split
      · exact ⟨_, s.flt.cnt, rfl, fun _ _ => rfl⟩
      · exact ⟨s.flt.records, _, rfl, fun _ other => tget_tinc_other _ other.symm⟩

/-! ## Occurrences (R352, R353) -/

/-- The reaction waits for the map of an image (R354). -/
def State.holdsBack (level : Nat) (s : State) : Bool := !s.gctl.everArmed && (level = 2 || level = 3)

/-- An occurrence has been counted, before its record. -/
def State.counted (d : Nat) (line : Bool) (s : State) : State :=
  let t := { s with flt.history := (d, s.flt.bounds) :: s.flt.history.filter (fun h => s.flt.bounds - h.2 < 256)
                    flt.cnt := if line then tinc (tinc s.flt.cnt 0) 1 else tinc s.flt.cnt 0 }
  if d < 48 && t.img.stage = 2 && t.im.hotReserve.any (fun r => r.1 = d) then { t with img.fillBad := true } else t

theorem counted_frame (d : Nat) (line : Bool) (s : State) : ∃ g b, s.counted d line =
    { s with img := { s.img with fillBad := b }, flt := { s.flt with history := g, cnt := if line then tinc (tinc s.flt.cnt 0) 1 else tinc s.flt.cnt 0 } } ∧
      (48 ≤ d → b = s.img.fillBad) := by
  unfold State.counted
  extract_lets t
  split
  · next h => exact ⟨_, true, rfl, fun high => by simp [Nat.not_lt.mpr high] at h⟩
  · exact ⟨_, s.img.fillBad, rfl, fun _ => rfl⟩

theorem occur_eq (d : Nat) (line act : Bool) (detail : Word) (s : State) : occur d line act detail s =
    (let m := mapOf (s.counted d line) d
     let esc := m.2.1 ≠ 0 && m.2.1 ≤ occurrences (s.counted d line) d m.2.2
     let level := if esc then min 4 (m.1 + 1) else m.1
     let t := if esc then { s.counted d line with flt.cnt := tinc (s.counted d line).flt.cnt 3 } else s.counted d line
     let held := !t.gctl.everArmed && (level = 2 || level = 3)
     (recordOcc d level line esc act detail held t, if held then none else some level)) := rfl

/-- An occurrence that does not escalate. -/
theorem occur_plain {level : Nat} (h : mapOf s d = (level, 0, 0)) (line act : Bool) (detail : Word) :
    occur d line act detail s = (recordOcc d level line false act detail (s.holdsBack level) (s.counted d line),
      if s.holdsBack level then none else some level) := by
  have map : mapOf (s.counted d line) d = (level, 0, 0) := by
    obtain ⟨g, b, e, -⟩ := counted_frame d line s
    rw [e]
    exact h
  have armed : (s.counted d line).gctl = s.gctl := by
    obtain ⟨g, b, e, -⟩ := counted_frame d line s
    rw [e]
  rw [occur_eq, map]
  simp only [State.holdsBack, armed, ne_eq, not_true_eq_false, decide_false, Bool.false_and, Bool.false_eq_true, if_false]
  rfl

/-! ## An occurrence that the map only logs (R355) -/

/-- What an occurrence under LOG leaves. -/
structure Logged (d : Nat) (line act shown : Bool) (detail : Word) (s t : State) : Prop where
  frame : t = { s with
    gctl := { s.gctl with degWarden := t.gctl.degWarden }, img := { s.img with fillBad := t.img.fillBad }
    flt := { s.flt with active := setBit s.flt.active d act, line := setBit s.flt.line d shown, history := t.flt.history,
                        records := t.flt.records, cnt := t.flt.cnt } }
  img : 48 ≤ d → t.img = s.img
  events : tget t.flt.cnt 0 = satInc (tget s.flt.cnt 0)
  lines : tget t.flt.cnt 1 = if line then satInc (tget s.flt.cnt 1) else tget s.flt.cnt 1
  opened : s.flt.recOf d = none → s.flt.records.length < 64 → t.flt.records = s.flt.records ++ [openedRec d 0 line act detail false s]

theorem events_counted (v : Vector Word 6) (line : Bool) : tget (if line then tinc (tinc v 0) 1 else tinc v 0) 0 = satInc (tget v 0) := by
  cases line
  · exact tget_tinc_same _ (by decide)
  · exact (tget_tinc_other _ (by decide)).trans (tget_tinc_same _ (by decide))

theorem lines_counted (v : Vector Word 6) (line : Bool) :
    tget (if line then tinc (tinc v 0) 1 else tinc v 0) 1 = if line then satInc (tget v 1) else tget v 1 := by
  cases line
  · exact tget_tinc_other _ (by decide)
  · exact (tget_tinc_same _ (by decide)).trans (congrArg satInc (tget_tinc_other _ (by decide)))

theorem takePatterns_logged {line act shown : Bool} (on : s.mode ≠ .off) (in_ : s.mode ≠ .removal) (exists_ : detExists x.det = true)
    (map : mapOf s x.det = (0, 0, 0))
    (taken : takePattern false x s = occur x.det line act x.detail (s.showing_ x.det act shown)) :
    Logged x.det line act shown x.detail s (takePatterns false [x] s) := by
  have plain := occur_plain (s := s.showing_ x.det act shown) (level := 0) map line act x.detail
  rw [show State.holdsBack 0 _ = false from Bool.and_false _, if_neg Bool.false_ne_true] at plain
  obtain ⟨h, b, counted, img⟩ := counted_frame x.det line (s.showing_ x.det act shown)
  obtain ⟨l, c, recorded, cnt⟩ := recordOcc_leaves x.det 0 line false act x.detail false ((s.showing_ x.det act shown).counted x.det line)
  obtain ⟨g, warned⟩ := react_logged x.det (recordOcc x.det 0 line false act x.detail false ((s.showing_ x.det act shown).counted x.det line))
  have made := (takePatterns_of_some on in_ exists_ (taken.trans plain)).trans warned
  have records : s.flt.recOf x.det = none → s.flt.records.length < 64 → l = s.flt.records ++ [openedRec x.det 0 line act x.detail false s] := by
    intro new room
    have opens := recordOcc_opens (s := (s.showing_ x.det act shown).counted x.det line) (d := x.det) (level := 0) (line := line) (act := act)
      (held := false) (detail := x.detail) (by rw [counted]; exact new) (by rw [counted]; exact room)
    have same := congrArg (fun t : State => t.flt.records) (recorded.symm.trans opens)
    rw [counted] at same
    exact same
  rw [recorded] at made
  rw [counted] at made cnt
  rw [made]
  exact ⟨rfl, fun high => by rw [img high]; rfl, (cnt 0 (by decide)).trans (events_counted ..), (cnt 1 (by decide)).trans (lines_counted ..), records⟩

theorem Logged.settled {line act shown : Bool} {detail : Word} (h : Logged d line act shown detail s t) (hs : Settled s) : Settled t := by
  rw [h.frame]
  exact hs

/-! ## The bits of a detector -/

theorem getLsbD_setBit_same (v : BitVec 256) (b : Bool) (hd : d < 256) : (setBit v d b).getLsbD d = b := by
  cases b <;> simp [setBit, hd]

end

end Sys2Proof.Machine

/-! # O45: fault records, the heartbeat and EXT_FLT -/
namespace Sys2Proof.Machine

section
variable {s : State} {src : Source}

/-! ## The record that is selected (R360) -/

theorem exec_recSelect (hh : s.hears src = true) (hm : s.mode.fromArmed = true) (i : BitVec 6) :
    exec (.recSelect src i) s = done (recSelWrite i s) :=
  congrArg done (judged_of_fromArmed (row := 6) hh hm rfl (by decide) _)

theorem tget_ofFn {α : Type} [Inhabited α] {n : Nat} (f : Fin n → α) {k : Nat} (h : k < n) : tget (Vector.ofFn f) k = f ⟨k, h⟩ := by
  simp [tget, Vector.getD, h]

theorem recSelect_copies {i : BitVec 6} {r : FaultRec} (hs : Settled s) (hh : s.hears src = true) (hm : s.mode.fromArmed = true)
    (there : s.flt.records[i.toNat]? = some r) : ∃ t, exec (.recSelect src i) s = .next t ∧
      t = { s with gctl := t.gctl, flt := t.flt } ∧
    t.flt.recSel = i ∧ (∀ k < 8, tget t.flt.recWords k = (recWords r).getD k 0) ∧ t.flt.records = s.flt.records := by
  have step := exec_recSelect hh hm i
  rw [recSelWrite, there] at step
  exact ⟨_, step.trans (done_of_settled ⟨hs.1, hs.2⟩), rfl, rfl, fun k low => tget_ofFn _ low, rfl⟩

theorem recSelect_zeros {i : BitVec 6} (hs : Settled s) (hh : s.hears src = true) (hm : s.mode.fromArmed = true)
    (beyond : s.flt.records.length ≤ i.toNat) : ∃ t, exec (.recSelect src i) s = .next t ∧
      t = { s with gctl := t.gctl, flt := t.flt } ∧
    t.flt.recSel = i ∧ ∀ k < 8, tget t.flt.recWords k = 0 := by
  have step := exec_recSelect hh hm i
  rw [recSelWrite, List.getElem?_eq_none beyond] at step
  exact ⟨_, step.trans (done_of_settled ⟨hs.1, hs.2⟩), rfl, rfl, fun k low => tget_ofFn _ low⟩

/-! ## Clearing (R362) -/

/-- In the states from ARMED a register command of a source that is heard reaches the warden. -/
theorem judgedCmd_warden (hh : s.hears src = true) (hm : s.mode.fromArmed = true) (st f : State → State) :
    judgedCmd src 0x6008 Mode.fromArmed st f s = f s := by
  have row : blockOf 0x6008 = some 6 := rfl
  have live : s.live 6 = true := by simp [State.live, liveIn_of_fromArmed hm]
  simp [judgedCmd, hh, row, absent_of_blockOf_lt row, live, hm]

theorem exec_faultClear (hh : s.hears src = true) (hm : s.mode.fromArmed = true) (d : Byte) :
    exec (.faultClear src d) s = done (clearRec d.toNat s) :=
  congrArg done (judgedCmd_warden hh hm _ _)

theorem faultClear_clears {d : Byte} {r : FaultRec} (hs : Settled s) (hh : s.hears src = true) (hm : s.mode.fromArmed = true)
    (there : s.flt.recOf d.toNat = some r) (idle : r.active = false) (ended : s.flt.active.getLsbD d.toNat = false) :
    ∃ t, exec (.faultClear src d) s = .next t ∧
      t = { s with gctl := t.gctl, flt := t.flt, freeCtr := t.freeCtr } ∧ t.flt.clrStat = 0x00 ∧
      t.flt.records = s.flt.records.filter (fun x => x.det ≠ d.toNat) ∧ t.mode = s.mode := by
  have step := exec_faultClear hh hm d
  rw [clearRec, there] at step
  exact ⟨_, (step.trans (congrArg done (if_neg (by simp [idle, ended])))).trans (done_of_settled ⟨hs.1, hs.2⟩), rfl, rfl, rfl, rfl⟩

theorem faultClear_refused {d : Byte} {r : FaultRec} (hs : Settled s) (hh : s.hears src = true) (hm : s.mode.fromArmed = true)
    (there : s.flt.recOf d.toNat = some r) (active : r.active = true) :
    exec (.faultClear src d) s = .next { s with flt.clrStat := 0x01 } := by
  have step := exec_faultClear hh hm d
  rw [clearRec, there] at step
  exact (step.trans (congrArg done (if_pos (by simp [active])))).trans (done_of_settled ⟨hs.1, hs.2⟩)

theorem faultClearAll_clears (hs : Settled s) (hh : s.hears src = true) (hm : s.mode.fromArmed = true) :
    ∃ t, exec (.faultClearAll src) s = .next t ∧
      t = { s with gctl := t.gctl, flt := t.flt } ∧
    t.flt.records = s.flt.records.filter (fun r => r.active || s.flt.active.getLsbD r.det) ∧
    t.flt.clrStat = (if t.flt.records.isEmpty then 0x00 else 0x01) ∧ t.mode = s.mode := by
  have step : exec (.faultClearAll src) s = done (clearAllRecs s) := congrArg done (judgedCmd_warden hh hm _ _)
  exact ⟨_, step.trans (done_of_settled ⟨hs.1, hs.2⟩), rfl, rfl, rfl, rfl⟩

/-! ## The heartbeat of the fault pair (R365) -/

theorem drivePair_toggles {v : State} {p n : Bool} (passed : TimePasses s v) (hs : Settled s) (pair : s.pins.faultPair = some (p, n)) :
    ∃ t, done (drivePair (some (!p, !n)) v) = .next t ∧ t = { s with pins := t.pins, tim := t.tim, out := t.out } ∧
      t.pins.faultPair = some (!p, !n) ∧ t.out = .faultPair (!p) (!n) :: s.out ∧ t.tim = v.tim := by
  have other : v.pins.faultPair ≠ some (!p, !n) := by
    rw [passed, pair]
    simp
  have driven : drivePair (some (!p, !n)) v = { v with pins.faultPair := some (!p, !n), out := .faultPair (!p) (!n) :: v.out } := if_neg other
  rw [driven]
  refine ⟨_, done_of_settled (passed.settled hs), ?_, rfl, ?_, rfl⟩
  · rw [passed]
  · rw [passed]

theorem heartbeatToggle_toggles {p n : Bool} (hs : Settled s) (quiet : QuietClock s) (healthy : s.mode.healthy = true)
    (beats : s.im.faultMap.heartbeat = true) (pair : s.pins.faultPair = some (p, n))
    (free : s.edgeBefore ((s.tim.mono / 500000 + 1) * 500000) = false) : ∃ t, exec .heartbeatToggle s = .next t ∧
      t = { s with pins := t.pins, tim := t.tim, out := t.out } ∧
      t.pins.faultPair = some (!p, !n) ∧ t.out = .faultPair (!p) (!n) :: s.out ∧ (s.tim.mono / 500000 + 1) * 500000 ≤ t.tim.mono := by
  have late := (advanceTo_mono ((s.tim.mono / 500000 + 1) * 500000) quiet).1
  have step : exec .heartbeatToggle s = done (drivePair (some (!p, !n)) (advanceTo ((s.tim.mono / 500000 + 1) * 500000) s)) := by
    refine congrArg done ((if_pos (by simp [healthy, beats, State.mono, free])).trans ?_)
    rw [pair]
    rfl
  obtain ⟨t, reached, frame, driven, out, tim⟩ :=
    drivePair_toggles (timePasses_advanceTo ((s.tim.mono / 500000 + 1) * 500000) quiet) hs pair
  exact ⟨t, step.trans reached, frame, driven, out, tim ▸ late⟩

/-! ## EXT_FLT (R368) -/

theorem extFltInput_unobserved (hs : Settled s) (off : s.extOn = false) (p n : Bool) : exec (.extFltInput p n) s = .next s :=
  (congrArg done (if_pos (by simp [off]))).trans (done_of_settled hs)

theorem notOff_of_answers {m : Mode} (answers : m.answers = true) : m ≠ .off ∧ m ≠ .removal := by
  constructor
  · rintro rfl
    exact absurd answers (by decide)
  · rintro rfl
    exact absurd answers (by decide)

/-- The input of EXT_FLT is noted before the warden takes it. -/
def State.extNoted (pat : BitVec 2) (mono : Nat) (s : State) : State := { s with flt.extPat := pat, flt.hbMono := mono }

theorem extFltInput_toggles (hs : Settled s) (on : s.extOn = true) (hb : s.extHb = true) (answers : s.mode.answers = true)
    (other : s.flt.extPat ≠ 2) : ∃ t, exec (.extFltInput true false) s = .next t ∧
      t = { s with flt := t.flt } ∧ t.flt.extPat = 2 ∧ t.flt.hbMono = s.tim.mono ∧ t.flt.records.length = s.flt.records.length := by
  obtain ⟨notOff, notRemoval⟩ := notOff_of_answers answers
  have input : extInput true false s = takePatterns false [{ det := 86, p := true, n := false, detail := 0 }] (s.extNoted 2 s.mono) := by
    have beats (f : Flt) : State.extHb { s with flt := f } = true := hb
    have new : ¬s.flt.extPat = 2#2 := other
    simp [extInput, on, answers, new, b2n, State.extNoted, beats]
  have taken : takePatterns false [{ det := 86, p := true, n := false, detail := 0 }] (s.extNoted 2 s.mono) = pairClean 86 (s.extNoted 2 s.mono) :=
    takePatterns_of_none notOff notRemoval rfl (takePattern_healthy rfl rfl)
  have step : exec (.extFltInput true false) s = done (pairClean 86 (s.extNoted 2 s.mono)) := congrArg done (input.trans taken)
  exact ⟨_, step.trans (done_of_settled ⟨hs.1, hs.2⟩), rfl, rfl, rfl, List.length_map ..⟩

theorem extFltInput_line (hs : Settled s) (on : s.extOn = true) (answers : s.mode.answers = true) (fresh : s.flt.active.getLsbD 86 = false)
    (map : mapOf s 86 = (0, 0, 0)) : ∃ t, exec (.extFltInput true true) s = .next t ∧
      t = { s with gctl := t.gctl, arc := t.arc, inc := t.inc, fab := t.fab, flt := t.flt, hst := t.hst, out := t.out } ∧
      t.flt.extPat = 3 ∧ t.flt.active.getLsbD 86 = true ∧ t.flt.line.getLsbD 86 = true ∧
      tget t.flt.cnt 0 = satInc (tget s.flt.cnt 0) ∧ t.mode = s.mode := by
  obtain ⟨notOff, notRemoval⟩ := notOff_of_answers answers
  have input : extInput true true s = takePatterns false [{ det := 86, p := true, n := true, detail := 0 }] (s.extNoted 3 s.flt.hbMono) := by
    simp [extInput, on, answers, b2n, State.extNoted]
  have taken := takePatterns_logged (s := s.extNoted 3 s.flt.hbMono) (x := { det := 86, p := true, n := true, detail := 0 }) notOff notRemoval rfl map
    (takePattern_line rfl (.inr fresh))
  have step : exec (.extFltInput true true) s = done (takePatterns false [{ det := 86, p := true, n := true, detail := 0 }] (s.extNoted 3 s.flt.hbMono)) :=
    congrArg done input
  generalize takePatterns false [{ det := 86, p := true, n := true, detail := 0 }] (s.extNoted 3 s.flt.hbMono) = t at taken step
  have frame := taken.frame
  rw [taken.img (by decide)] at frame
  refine ⟨t, step.trans (done_of_settled (taken.settled hs)), ?_, ?_, ?_, ?_, taken.events, ?_⟩
  · rw [frame]
    rfl
  · rw [frame]
    rfl
  · rw [frame]
    exact getLsbD_setBit_same _ _ (by decide)
  · rw [frame]
    exact getLsbD_setBit_same _ _ (by decide)
  · rw [frame]
    rfl

/-- The heartbeat's limit comes, some time later. -/
theorem extHbTimeout_later {v : State} (passed : TimePasses s v) (hs : Settled s) (answers : s.mode.answers = true)
    (fresh : s.flt.active.getLsbD 86 = false) (map : mapOf s 86 = (0, 0, 0)) :
    ∃ t, done (takePatterns false [{ det := 86, p := false, n := true, detail := 1 }] v) = .next t ∧
      t = { s with gctl := t.gctl, tim := t.tim, arc := t.arc, inc := t.inc, fab := t.fab, flt := t.flt, hst := t.hst, out := t.out } ∧
      t.flt.active.getLsbD 86 = true ∧ tget t.flt.cnt 0 = satInc (tget s.flt.cnt 0) ∧ t.tim = v.tim ∧ t.mode = s.mode := by
  have flt : v.flt = s.flt := by rw [passed]
  have mode : v.mode = s.mode := by rw [passed]; rfl
  have same : mapOf v 86 = (0, 0, 0) := by rw [passed]; exact map
  obtain ⟨notOff, notRemoval⟩ := notOff_of_answers (mode ▸ answers : v.mode.answers = true)
  have taken := takePatterns_logged (x := { det := 86, p := false, n := true, detail := 1 }) notOff notRemoval rfl same
    (takePattern_error rfl rfl (.inl rfl) (.inr (flt ▸ fresh)))
  generalize takePatterns false [{ det := 86, p := false, n := true, detail := 1 }] v = t at taken
  have frame := taken.frame
  rw [taken.img (by decide)] at frame
  refine ⟨t, done_of_settled (taken.settled (passed.settled hs)), ?_, ?_, flt ▸ taken.events, ?_, ?_⟩
  · rw [frame, passed]
  · rw [frame]
    exact getLsbD_setBit_same _ _ (by decide)
  · rw [frame]
  · rw [frame, passed]
    rfl

theorem extHbTimeout_reports (hs : Settled s) (quiet : QuietClock s) (on : s.extOn = true) (hb : s.extHb = true) (answers : s.mode.answers = true)
    (fresh : s.flt.active.getLsbD 86 = false) (map : mapOf s 86 = (0, 0, 0))
    (free : s.edgeBefore (max s.flt.hbMono s.gctl.armedMono + 2000000) = false) : ∃ t, exec .extHbTimeout s = .next t ∧
      t = { s with gctl := t.gctl, tim := t.tim, arc := t.arc, inc := t.inc, fab := t.fab, flt := t.flt, hst := t.hst, out := t.out } ∧
      t.flt.active.getLsbD 86 = true ∧ tget t.flt.cnt 0 = satInc (tget s.flt.cnt 0) ∧
      max s.flt.hbMono s.gctl.armedMono + 2000000 ≤ t.tim.mono ∧ t.mode = s.mode := by
  have late := (advanceTo_mono (max s.flt.hbMono s.gctl.armedMono + 2000000) quiet).1
  have step : exec .extHbTimeout s = done (takePatterns false [{ det := 86, p := false, n := true, detail := 1 }]
      (advanceTo (max s.flt.hbMono s.gctl.armedMono + 2000000) s)) :=
    congrArg done (if_pos (by simp [on, hb, answers, free]))
  obtain ⟨t, reached, frame, active, events, tim, mode⟩ :=
    extHbTimeout_later (timePasses_advanceTo (max s.flt.hbMono s.gctl.armedMono + 2000000) quiet) hs answers fresh map
  exact ⟨t, step.trans reached, frame, active, events, tim ▸ late, mode⟩

end

end Sys2Proof.Machine

namespace Sys2Proof
open Machine

/-- Settles O45: each command on its own; an error of detector 86 under LOG is one logged occurrence. -/
theorem faultRecordsAndExtFault : Obligations.FaultRecordsAndExtFault :=
  ⟨fun _ _ _ _ hs hh hm there => recSelect_copies hs hh hm there,
   fun _ _ _ hs hh hm beyond => recSelect_zeros hs hh hm beyond,
   fun _ _ _ _ hs hh hm there idle ended => faultClear_clears hs hh hm there idle ended,
   fun _ _ _ _ hs hh hm there active => faultClear_refused hs hh hm there active,
   fun _ _ hs hh hm => faultClearAll_clears hs hh hm,
   fun _ _ _ hs quiet healthy beats pair free => heartbeatToggle_toggles hs quiet healthy beats pair free,
   fun p n _ hs off => extFltInput_unobserved hs off p n,
   fun _ hs on hb answers other => extFltInput_toggles hs on hb answers other,
   fun _ hs on answers fresh map => extFltInput_line hs on answers fresh map,
   fun _ hs quiet on hb answers fresh map free => extHbTimeout_reports hs quiet on hb answers fresh map free⟩

end Sys2Proof

/-! # Entering DEGRADED, SAFE and QUARANTINE -/
namespace Sys2Proof.Machine

section
variable {m : Mode} {s t : State}

/-- What entering a state that goes on computing, or SAFE or QUARANTINE, may change, and what it leaves of GCTL. -/
structure Entered (m : Mode) (s t : State) : Prop where
  frame : t = { s with
    before := t.before, pins := t.pins, gctl := t.gctl, ldg := t.ldg, out := t.out, sch := t.sch, tck := t.tck, cams := t.cams, aln := t.aln
    inc := t.inc, fab := { s.fab with joinSent := t.fab.joinSent } }
  mode : t.mode = m
  prev : t.gctl.prev = s.prevFor m
  degWarden : t.gctl.degWarden = s.gctl.degWarden

theorem Entered.keeps (h : Entered m s t) : EnterKeeps s t ∧ t.grd = s.grd ∧ t.arc = s.arc ∧ t.crd = s.crd ∧ t.clk = s.clk ∧ t.tst = s.tst ∧
    t.mem = s.mem ∧ t.freeCtr = s.freeCtr := by
  rw [h.frame]
  exact ⟨⟨rfl, rfl, rfl, rfl, rfl, rfl, rfl, rfl, rfl⟩, rfl, rfl, rfl, rfl, rfl, rfl, rfl⟩

theorem Entered.fab (h : Entered m s t) : t.fab = { s.fab with joinSent := t.fab.joinSent } := congrArg State.fab h.frame

theorem Entered.flt (h : Entered m s t) : t.flt = s.flt := by rw [h.frame]

theorem entered_of_computes (hm : m.computes = true) (h : s.mode ≠ m) : Entered m s (enter m s) := by
  obtain ⟨b, p, l, o, i, e⟩ := enter_frame_of_computes hm h
  rw [e]
  exact ⟨rfl, rfl, rfl, rfl⟩

theorem managerSafe_of_other (h : s.fab.role ≠ roleManager) : managerSafe s = s :=
  if_pos ((Bool.or_eq_true ..).mpr (.inl (decide_eq_true h)))

/-- SAFE of a device that is not manager, and QUARANTINE, stop what computes and drop the open frames. -/
theorem enter_stopped (hm : m = .safe ∧ s.fab.role ≠ roleManager ∨ m = .quarantine) (h : s.mode ≠ m) :
    enter m s = vitLeave (quietCores (dropFrames (entering m s))) := by
  rw [enter, if_neg h]
  obtain ⟨rfl, other⟩ | rfl := hm
  · obtain ⟨b, p, l, o, e⟩ := entering_frame .safe s
    have role : (quietCores (dropFrames (entering .safe s))).fab.role ≠ roleManager := by
      obtain ⟨c, q⟩ := quietCores_frame (dropFrames (entering .safe s))
      rw [q, e]
      exact other
    show vitLeave (managerSafe (quietCores (dropFrames (entering .safe s)))) = _
    rw [managerSafe_of_other role]
  · rfl

theorem entered_stopped (hm : m = .safe ∧ s.fab.role ≠ roleManager ∨ m = .quarantine) (h : s.mode ≠ m) : Entered m s (enter m s) := by
  obtain ⟨b, p, l, o, e⟩ := entering_frame m s
  obtain ⟨c, q⟩ := quietCores_frame (dropFrames (entering m s))
  obtain ⟨i, v⟩ := vitLeave_frame (quietCores (dropFrames (entering m s)))
  rw [enter_stopped hm h, v, q, e]
  exact ⟨rfl, rfl, rfl, rfl⟩

/-! ## A state that is entered over lower ones of the same instant (R57) -/

/-- What is undone of lower states at this instant. -/
structure Undone (s t : State) : Prop where
  frame : t = { s with gctl := t.gctl, tck := t.tck, aln := t.aln, inc := t.inc, fab := { s.fab with joinSent := t.fab.joinSent } }
  mode : t.gctl.mode = s.gctl.mode
  prev : t.gctl.prev = s.gctl.prev
  changeMono : t.gctl.changeMono = s.gctl.changeMono
  degWarden : t.gctl.degWarden = s.gctl.degWarden

theorem Undone.refl (s : State) : Undone s s := ⟨rfl, rfl, rfl, rfl, rfl⟩

theorem undone_undoLower (s : State) : Undone s (undoLower s) := by
  unfold undoLower
  split
  · split
    · exact .refl s
    · extract_lets g cap _ _ _ lower
      have first : Undone s lower := ⟨rfl, rfl, rfl, rfl, rfl⟩
      clear_value lower
      split
      · exact ⟨by rw [first.frame], first.mode, first.prev, first.changeMono, first.degWarden⟩
      · exact first
  · exact .refl s

theorem undone_undoHalt (s : State) : Undone s (undoHalt s) := by
  unfold undoHalt
  split
  · split
    · exact ⟨rfl, rfl, rfl, rfl, rfl⟩
    · exact .refl s
  · exact .refl s

theorem Undone.prevFor (h : Undone s t) (m : Mode) : t.prevFor m = s.prevFor m := by
  have mode : t.mode = s.mode := h.mode
  have mono : t.mono = s.mono := by rw [h.frame]; rfl
  unfold State.prevFor
  rw [mode, mono, h.prev, h.changeMono]

theorem Undone.entered {u : State} (h : Undone s t) (e : Entered m t u) : Entered m s u where
  frame := by rw [e.frame, h.frame]
  mode := e.mode
  prev := e.prev.trans (h.prevFor m)
  degWarden := e.degWarden.trans h.degWarden

theorem Entered.undone {u : State} (e : Entered m s t) (h : Undone t u) : Entered m s u where
  frame := by rw [h.frame, e.frame]
  mode := h.mode.trans e.mode
  prev := h.prev.trans e.prev
  degWarden := h.degWarden.trans e.degWarden

theorem entered_enterOver (hm : m = .safe ∧ s.fab.role ≠ roleManager ∨ m = .quarantine) (h : s.mode ≠ m) : Entered m s (enterOver m s) := by
  have lower := undone_undoLower s
  have other : m = .safe ∧ (undoLower s).fab.role ≠ roleManager ∨ m = .quarantine := by
    rw [lower.frame]
    exact hm
  have entered := lower.entered (entered_stopped other (fun same => h (lower.mode.symm.trans same)))
  have halted := entered.undone (undone_undoHalt _)
  unfold enterOver
  dsimp only
  split
  · exact halted.undone ⟨rfl, rfl, rfl, rfl, rfl⟩
  · exact halted

theorem entered_degrade (h : s.mode = .run) : Entered .degraded s (degrade s) := by
  rw [degrade, if_pos h]
  exact entered_of_computes rfl (by rw [h]; decide)

theorem goSafe_of_run (h : s.mode = .run) : goSafe s = enterOver .safe s := by
  rw [goSafe, h]

end

end Sys2Proof.Machine

/-! # What a reaction brings -/
namespace Sys2Proof.Machine

section
variable {s t u : State} {d : Nat}

/-! ## Fences (R355) -/

/-- What a fence may change. -/
def Fenced (s t : State) : Prop :=
  t = { s with sch := t.sch, cams := t.cams, flt := { s.flt with due := t.flt.due }, tst := t.tst, hst := t.hst, out := t.out }

/-- An event detector fences a core, a camera, or nothing. -/
theorem fenced_fenceOf (event : isLevel d = false) (s : State) : Fenced s (fenceOf d s) := by
  have notLink : ¬(66 ≤ d ∧ d < 74) := by
    rintro ⟨lo, hi⟩
    simp only [isLevel, Bool.or_eq_false_iff, Bool.and_eq_false_iff, decide_eq_false_iff_not] at event
    omega
  unfold fenceOf
  dsimp only
  split
  · have frame := frame_of_offFence (fenceCore_leaves d 1 s).1
    generalize fenceCore d 1 s = t at frame
    unfold Fenced
    rw [frame]
  · split
    · rfl
    · split
      · rfl
      · repeat rw [if_neg (by omega)]
        rfl

/-! ## A trigger of the vitrine (R274 to R277) -/

/-- The state without what a trigger, a seal or an entry of the ledger may change. -/
def State.offVit (s : State) : State := { s with
  arc := {}, inc := {}, ldg := {}, fab := {}, flt := { s.flt with due := [] }, hst := {}, out := [], freeCtr := 0 }

theorem frame_of_offVit (h : t.offVit = s.offVit) : t = { s with
    arc := t.arc, inc := t.inc, ldg := t.ldg, fab := t.fab, flt := { s.flt with due := t.flt.due }, hst := t.hst, out := t.out, freeCtr := t.freeCtr } := by
  have e : t = { t.offVit with
    arc := t.arc, inc := t.inc, ldg := t.ldg, fab := t.fab, flt := { t.offVit.flt with due := t.flt.due }, hst := t.hst, out := t.out, freeCtr := t.freeCtr } := rfl
  rw [h] at e
  exact e

theorem offVit_of_unposted (h : t.unposted = s.unposted) : t.offVit = s.offVit :=
  (congrArg State.offVit h : t.unposted.offVit = s.unposted.offVit)

@[simp] theorem offVit_ite (c : Prop) [Decidable c] (s t : State) : (if c then s else t).offVit = if c then s.offVit else t.offVit :=
  apply_ite ..

@[simp] theorem msix_offVit (v : Nat) (en : Bool) (s : State) : (msix v en s).offVit = s.offVit := offVit_of_unposted (msix_unposted ..)

@[simp] theorem agentTurn_offVit (s : State) : (agentTurn s).offVit = s.offVit := offVit_of_unposted (agentTurn_unposted s)

@[simp] theorem devPut_offVit (a : Nat) (b : List Byte) (s : State) : (devPut a b s).offVit = s.offVit := offVit_of_unposted (devPut_unposted ..)

@[simp] theorem putRec_offVit (a : Area) (first w : Nat) (l : List (List Byte)) (s : State) : (putRec a first w l s).offVit = s.offVit := by
  induction l generalizing w s with
  | nil => rfl
  | cons b l ih => rw [putRec, ih, devPut_offVit]

@[simp] theorem devPutFirst_offVit (l : List Nat) (b : List Byte) (s : State) : (devPutFirst l b s).offVit = s.offVit := by
  obtain ⟨a, n, e, -⟩ := devPutFirst_frame l b s
  rw [e]
  rfl

@[simp] theorem addTrig_offVit (t : TrigEntry) (s : State) : (addTrig t s).offVit = s.offVit := by
  unfold addTrig
  split
  · rfl
  · extract_lets u places v
    have put : v.offVit = s.offVit := (devPutFirst_offVit places _ u).trans (agentTurn_offVit s)
    clear_value v
    exact put

@[simp] theorem trigLost_offVit (s : State) : (trigLost s).offVit = s.offVit := by
  unfold trigLost
  extract_lets _ counted _ listed
  refine (msix_offVit ..).trans ?_
  unfold listed
  split
  · rfl
  · rfl

@[simp] theorem endCapture_offVit (s : State) : (endCapture s).offVit = s.offVit := by
  obtain ⟨i, e⟩ := endCapture_frame s
  rw [e]
  rfl

@[simp] theorem openRecord_offVit (t : TrigEntry) (s : State) : (openRecord t s).offVit = s.offVit := by
  unfold openRecord
  extract_lets sec m free pre tick0 r _ u v w
  have kept : w.offVit = s.offVit := by
    have begun : v.offVit = u.offVit := (putRec_offVit ..).trans (agentTurn_offVit u)
    exact (msix_offVit ..).trans ((addTrig_offVit t v).trans begun)
  rw [offVit_ite, endCapture_offVit, ite_self]
  exact kept

@[simp] theorem takeTrigger_offVit (t : TrigEntry) (s : State) : (takeTrigger t s).offVit = s.offVit := by
  unfold takeTrigger
  split
  · exact openRecord_offVit t s
  · split
    · exact trigLost_offVit s
    · dsimp only
      split
      · exact addTrig_offVit _ s
      · exact addTrig_offVit _ s
  · split
    · exact trigLost_offVit s
    · exact addTrig_offVit _ s
  · rfl
  · exact trigLost_offVit s

@[simp] theorem sendPort_offVit (p : Nat) (h : MsgHdr) (m : FabMsg) (s : State) : (sendPort p h m s).offVit = s.offVit := by
  obtain ⟨q, e⟩ := sendPort_frame p h m s
  rw [e]
  rfl

theorem offVit_foldl {α : Type} (f : State → α → State) (h : ∀ t x, (f t x).offVit = t.offVit) (l : List α) (s : State) :
    (l.foldl f s).offVit = s.offVit := by
  induction l generalizing s with
  | nil => rfl
  | cons x l ih => rw [List.foldl_cons, ih, h]

@[simp] theorem sendBroadcast_offVit (m : FabMsg) (s : State) : (sendBroadcast m s).offVit = s.offVit :=
  (offVit_foldl _ (fun _ _ => sendPort_offVit ..) _ _).trans rfl

theorem vitTrigger_offVit (cause : Nat) (detail : BitVec 16) (level : Byte) (origin : BitVec 64) (s : State) :
    (vitTrigger cause detail level origin s).offVit = s.offVit := by
  unfold vitTrigger vitTriggerAt
  extract_lets inState listed t v
  have sent : v.offVit = s.offVit := by
    unfold v
    rw [offVit_ite, sendBroadcast_offVit, ite_self]
  split
  · exact (takeTrigger_offVit t v).trans sent
  · rfl

/-- A state that is neither RUN nor DEGRADED nor SAFE takes no trigger. -/
theorem vitTrigger_of_other (run : s.mode ≠ .run) (degraded : s.mode ≠ .degraded) (safe : s.mode ≠ .safe) (cause : Nat) (detail : BitVec 16)
    (level : Byte) (origin : BitVec 64) : vitTrigger cause detail level origin s = s :=
  if_neg (by simp [run, degraded, safe])

/-! ## Reactions (R355, R356, R359) -/

/-- The warden's vector, and its cause of DEGRADED, as it applies a reaction of 1 or above. -/
def reacted (top : Nat) (s : State) : State :=
  { msix 0 s.flt.intEn s with gctl.degWarden := (msix 0 s.flt.intEn s).degWardenCause || (top = 2 && decide ((msix 0 s.flt.intEn s).mode = .run)) }

/-- The vitrine's trigger as a reaction has been applied. -/
def faultTrigger (d top : Nat) (s : State) : State :=
  if s.incSec.faultLevel ≤ top then vitTrigger cauFault (BitVec.ofNat 16 d) (BitVec.ofNat 8 top) 0 s else s

theorem react_degrade (d : Nat) (s : State) :
    react [(d, 2)] s = faultTrigger d 2 (degrade (reacted 2 (fenceOf d { s with flt.cnt := tinc s.flt.cnt 4 }))) := by
  simp [react, reacted, faultTrigger]

theorem react_safe (d : Nat) (s : State) :
    react [(d, 3)] s = faultTrigger d 3 (goSafe (reacted 3 { s with flt.cnt := tinc s.flt.cnt 5 })) := by
  simp [react, reacted, faultTrigger]

theorem react_reset (d : Nat) (s : State) : react [(d, 4)] s = faultTrigger d 4 (resetTo rstWarden (reacted 4 s)) := by
  simp [react, reacted, faultTrigger]

theorem reacted_frame (top : Nat) (s : State) : ∃ g h o, reacted top s = { s with gctl.degWarden := g, hst := h, out := o } := by
  unfold reacted
  rw [msix_frame]
  exact ⟨_, _, _, rfl⟩

theorem reacted_run (h : s.mode = .run) : (reacted 2 s).gctl.degWarden = true := by
  have run : (msix 0 s.flt.intEn s).mode = .run := by
    rw [msix_frame]
    exact h
  show ((msix 0 s.flt.intEn s).degWardenCause || (decide (2 = 2) && decide ((msix 0 s.flt.intEn s).mode = .run))) = true
  simp [run]

theorem faultTrigger_offVit (d top : Nat) (s : State) : (faultTrigger d top s).offVit = s.offVit := by
  rw [faultTrigger, offVit_ite, vitTrigger_offVit, ite_self]

end

end Sys2Proof.Machine

/-! # O44: what a detector that reports does -/
namespace Sys2Proof.Machine

section
variable {s t u : State} {d : Nat} {x : DetPattern}

/-! ## Error patterns of an event detector (R352, R355) -/

/-- What an occurrence leaves before its reaction. -/
structure Occurred (s t : State) : Prop where
  frame : t = { s with
    img := { s.img with fillBad := t.img.fillBad }
    flt := { s.flt with active := t.flt.active, line := t.flt.line, history := t.flt.history, records := t.flt.records, cnt := t.flt.cnt } }
  cnt : ∀ i, 3 ≤ i → tget t.flt.cnt i = tget s.flt.cnt i

theorem takePattern_event (p : x.p = false) (n : x.n = true) (event : isLevel x.det = false) :
    takePattern false x s = occur x.det false (s.flt.line.getLsbD x.det) x.detail
      (s.showing_ x.det (s.flt.line.getLsbD x.det) (s.flt.line.getLsbD x.det)) := by
  simp [takePattern, p, n, event, State.showing_]

theorem occurred_of_event {level : Nat} (on : s.mode ≠ .off) (in_ : s.mode ≠ .removal) (exists_ : detExists x.det = true)
    (p : x.p = false) (n : x.n = true) (event : isLevel x.det = false) (map : mapOf s x.det = (level, 0, 0)) (applies : s.holdsBack level = false) :
    ∃ w, takePatterns false [x] s = react [(x.det, level)] w ∧ Occurred s w := by
  obtain ⟨b, isB⟩ : ∃ b, b = s.flt.line.getLsbD x.det := ⟨_, rfl⟩
  have taken := takePattern_event (s := s) p n event
  rw [← isB] at taken
  have plain := occur_plain (s := s.showing_ x.det b b) (level := level) map false b x.detail
  rw [show State.holdsBack level (s.showing_ x.det b b) = false from applies, if_neg Bool.false_ne_true] at plain
  obtain ⟨h, f, counted, -⟩ := counted_frame x.det false (s.showing_ x.det b b)
  obtain ⟨l, c, recorded, cnt⟩ := recordOcc_leaves x.det level false false b x.detail false ((s.showing_ x.det b b).counted x.det false)
  have made := takePatterns_of_some on in_ exists_ (taken.trans plain)
  refine ⟨_, made, ?_⟩
  rw [recorded]
  rw [counted] at cnt ⊢
  exact ⟨rfl, fun i high => (cnt i (by omega)).trans (tget_tinc_other _ (by omega))⟩

theorem exec_detectorReport (other : x.det ≠ 86) : exec (.detectorReport [x]) s = done (takePatterns false [readback x s] s) := by
  show done (takePatterns false (([x].filter (fun x => x.det ≠ 86 || s.extOn)).map (fun x => readback x s)) s) = _
  simp [other]

theorem readback_of_other (other : x.det ≠ 87 ∨ x.p = x.n) : readback x s = x := if_pos (by simpa using other)

theorem exists_of_lt (h : d < 92) : detExists d = true := decide_eq_true h

/-! ## The healthy pattern (R357) -/

theorem detectorReport_healthy {w : Word} (hs : Settled s) (on : s.mode ≠ .off) (in_ : s.mode ≠ .removal) (hd : d < 92) (ext : d ≠ 86)
    (pair : d ≠ 87) : exec (.detectorReport [{ det := d, p := true, n := false, detail := w }]) s = .next (pairClean d s) := by
  have step := exec_detectorReport (s := s) (x := { det := d, p := true, n := false, detail := w }) ext
  rw [readback_of_other (.inl pair), takePatterns_of_none on in_ (exists_of_lt hd) (takePattern_healthy rfl rfl)] at step
  exact step.trans (done_of_settled hs)

/-! ## The readback of the fault pair (R367) -/

theorem detectorReport_readBack {p n a b : Bool} {w : Word} (hs : Settled s) (on : s.mode ≠ .off) (in_ : s.mode ≠ .removal) (whole : a ≠ b)
    (pair : s.pins.faultPair = some (p, n)) (high : w.getLsbD 1 = p) (low : w.getLsbD 0 = n) :
    exec (.detectorReport [{ det := 87, p := a, n := b, detail := w }]) s = .next (pairClean 87 s) := by
  have read : readback { det := 87, p := a, n := b, detail := w } s = { det := 87, p := true, n := false, detail := 1 } := by
    simp only [readback, pair, high, low, whole]
    simp
  have step := exec_detectorReport (s := s) (x := { det := 87, p := a, n := b, detail := w }) (show (87 : Nat) ≠ 86 by decide)
  rw [read, takePatterns_of_none on in_ rfl (takePattern_healthy rfl rfl)] at step
  exact step.trans (done_of_settled hs)

theorem notOff_of_run (run : s.mode = .run) : s.mode ≠ .off ∧ s.mode ≠ .removal := by
  rw [run]
  exact ⟨by decide, by decide⟩

theorem detectorReport_pairDiffers {p n a b : Bool} {w : Word} (hs : Settled s) (run : s.mode = .run) (whole : a ≠ b)
    (pair : s.pins.faultPair = some (p, n)) (differs : w.getLsbD 1 ≠ p ∨ w.getLsbD 0 ≠ n) (map : mapOf s 87 = (0, 0, 0))
    (fresh : s.flt.active.getLsbD 87 = false) (new : s.flt.recOf 87 = none) (room : s.flt.records.length < 64) : ∃ t r,
      exec (.detectorReport [{ det := 87, p := a, n := b, detail := w }]) s = .next t ∧
      t = { s with gctl := t.gctl, arc := t.arc, inc := t.inc, fab := t.fab, flt := t.flt, hst := t.hst, out := t.out } ∧ t.flt.records = s.flt.records ++ [r] ∧
      r.det = 87 ∧ r.detail = (if w.getLsbD 1 = p then 1 else 0) ∧ t.mode = .run := by
  have read : readback { det := 87, p := a, n := b, detail := w } s =
      { det := 87, p := false, n := true, detail := if w.getLsbD 1 = p then 1 else 0 } := by
    by_cases high : w.getLsbD 1 = p
    · have low := differs.resolve_left (not_not_intro high)
      have low' : ¬w[0] = n := low
      simp only [readback, pair, high, whole]
      simp [low']
    · have high' : ¬w[1] = p := high
      simp only [readback, pair, high, whole]
      simp [high']
  have step := exec_detectorReport (s := s) (x := { det := 87, p := a, n := b, detail := w }) (show (87 : Nat) ≠ 86 by decide)
  rw [read] at step
  obtain ⟨on, in_⟩ := notOff_of_run run
  have taken := takePatterns_logged (x := { det := 87, p := false, n := true, detail := if w.getLsbD 1 = p then 1 else 0 }) on in_ rfl map
    (takePattern_error rfl rfl (.inl rfl) (.inr fresh))
  generalize takePatterns false [{ det := 87, p := false, n := true, detail := if w.getLsbD 1 = p then 1 else 0 }] s = t at taken step
  have frame := taken.frame
  rw [taken.img (show 48 ≤ 87 by decide)] at frame
  refine ⟨t, _, step.trans (done_of_settled (taken.settled hs)), ?_, taken.opened new room, rfl, rfl, ?_⟩
  · rw [frame]
  · rw [frame]
    exact run

/-! ## LOG (R355, R358) -/

theorem detectorReport_logs {w : Word} (hs : Settled s) (on : s.mode ≠ .off) (in_ : s.mode ≠ .removal) (hd : d < 92) (ext : d ≠ 86)
    (event : isLevel d = false) (map : mapOf s d = (0, 0, 0)) (new : s.flt.recOf d = none) (room : s.flt.records.length < 64)
    (whole : s.flt.line.getLsbD d = false) : ∃ t r, exec (.detectorReport [{ det := d, p := false, n := true, detail := w }]) s = .next t ∧
      t = { s with gctl := t.gctl, img := t.img, arc := t.arc, inc := t.inc, fab := t.fab, flt := t.flt, hst := t.hst, out := t.out } ∧
      tget t.flt.cnt 0 = satInc (tget s.flt.cnt 0) ∧ t.flt.records = s.flt.records ++ [r] ∧ r.det = d ∧ r.react = 0 ∧ r.active = false ∧
      r.detail = w ∧ r.state = s.mode.code ∧ r.first = BitVec.ofNat 64 s.tim.dev ∧ t.mode = s.mode ∧
      t.img = { s.img with fillBad := t.img.fillBad } := by
  have pair : d ≠ 87 := by
    rintro rfl
    exact absurd event (by decide)
  have step := exec_detectorReport (s := s) (x := { det := d, p := false, n := true, detail := w }) ext
  rw [readback_of_other (.inl pair)] at step
  have taken := takePatterns_logged (x := { det := d, p := false, n := true, detail := w }) on in_ (exists_of_lt hd) map
    (takePattern_error rfl rfl (.inr whole) (.inl event))
  generalize takePatterns false [{ det := d, p := false, n := true, detail := w }] s = t at taken step
  have frame := taken.frame
  refine ⟨t, _, step.trans (done_of_settled (taken.settled hs)), ?_, taken.events, taken.opened new room, rfl, rfl, event, rfl, rfl, rfl, ?_, ?_⟩
  · rw [frame]
  · rw [frame]
    rfl
  · rw [frame]

theorem detectorReport_line {a : Bool} {w : Word} (hs : Settled s) (run : s.mode = .run) (hd : d < 92) (ext : d ≠ 86)
    (map : mapOf s d = (0, 0, 0)) (fresh : s.flt.active.getLsbD d = false) (new : s.flt.recOf d = none) (room : s.flt.records.length < 64) :
    ∃ t r, exec (.detectorReport [{ det := d, p := a, n := a, detail := w }]) s = .next t ∧
      t = { s with gctl := t.gctl, img := t.img, arc := t.arc, inc := t.inc, fab := t.fab, flt := t.flt, hst := t.hst, out := t.out } ∧
      t.flt.records = s.flt.records ++ [r] ∧ r.det = d ∧ r.line = true ∧ r.active = true ∧ r.detail = w ∧ t.flt.line.getLsbD d = true ∧
      tget t.flt.cnt 1 = satInc (tget s.flt.cnt 1) ∧ t.img = { s.img with fillBad := t.img.fillBad } ∧ t.mode = .run := by
  have step := exec_detectorReport (s := s) (x := { det := d, p := a, n := a, detail := w }) ext
  rw [readback_of_other (.inr rfl)] at step
  obtain ⟨on, in_⟩ := notOff_of_run run
  have taken := takePatterns_logged (x := { det := d, p := a, n := a, detail := w }) on in_ (exists_of_lt hd) map
    (takePattern_line rfl (.inr fresh))
  generalize takePatterns false [{ det := d, p := a, n := a, detail := w }] s = t at taken step
  have frame := taken.frame
  refine ⟨t, _, step.trans (done_of_settled (taken.settled hs)), ?_, taken.opened new room, rfl, rfl, rfl, rfl, ?_, taken.lines, ?_, ?_⟩
  · rw [frame]
  · rw [frame]
    exact getLsbD_setBit_same _ _ (show d < 256 by omega)
  · rw [frame]
  · rw [frame]
    exact run

/-! ## DEGRADE and SAFE (R355, R359) -/

/-- What no reaction but a reset touches. -/
def Steady (s t : State) : Prop := EnterKeeps s t ∧ t.mem = s.mem

theorem Steady.trans (h : Steady s t) (k : Steady t u) : Steady s u := by
  obtain ⟨⟨a, b, c, d, e, f, g, i, j⟩, m⟩ := h
  obtain ⟨⟨a', b', c', d', e', f', g', i', j'⟩, m'⟩ := k
  exact ⟨⟨a'.trans a, b'.trans b, c'.trans c, d'.trans d, e'.trans e, f'.trans f, g'.trans g, i'.trans i, j'.trans j⟩, m'.trans m⟩

theorem steady_of_offVit (h : t.offVit = s.offVit) : Steady s t := by
  rw [frame_of_offVit h]
  exact ⟨⟨rfl, rfl, rfl, rfl, rfl, rfl, rfl, rfl, rfl⟩, rfl⟩

theorem Occurred.steady (h : Occurred s t) : Steady s t := by
  rw [h.frame]
  exact ⟨⟨rfl, rfl, rfl, rfl, rfl, rfl, rfl, rfl, rfl⟩, rfl⟩

theorem Fenced.steady (h : Fenced s t) : Steady s t := by
  rw [show t = _ from h]
  exact ⟨⟨rfl, rfl, rfl, rfl, rfl, rfl, rfl, rfl, rfl⟩, rfl⟩

theorem steady_reacted (top : Nat) (s : State) : Steady s (reacted top s) := by
  obtain ⟨g, h, o, e⟩ := reacted_frame top s
  rw [e]
  exact ⟨⟨rfl, rfl, rfl, rfl, rfl, rfl, rfl, rfl, rfl⟩, rfl⟩

theorem Entered.steady {m : Mode} (h : Entered m s t) : Steady s t := by
  obtain ⟨keeps, -, -, -, -, -, mem, -⟩ := h.keeps
  exact ⟨keeps, mem⟩

/-- The trigger of a reaction leaves the state that has been entered, and the warden's counters. -/
theorem faultTrigger_leaves (d top : Nat) (s : State) : Steady s (faultTrigger d top s) ∧ (faultTrigger d top s).gctl = s.gctl ∧
    (faultTrigger d top s).flt.cnt = s.flt.cnt := by
  have off := faultTrigger_offVit d top s
  refine ⟨steady_of_offVit off, ?_, ?_⟩
  · exact (congrArg State.gctl off : (faultTrigger d top s).offVit.gctl = s.offVit.gctl)
  · exact (congrArg (fun t : State => t.flt.cnt) off : (faultTrigger d top s).offVit.flt.cnt = s.offVit.flt.cnt)

/-- DEGRADE in RUN: the resource is fenced and DEGRADED entered. -/
theorem degrade_leaves (run : s.mode = .run) (event : isLevel d = false) : Steady s (react [(d, 2)] s) ∧ (react [(d, 2)] s).mode = .degraded ∧
    (react [(d, 2)] s).gctl.degWarden = true ∧ tget (react [(d, 2)] s).flt.cnt 4 = satInc (tget s.flt.cnt 4) := by
  obtain ⟨c, isC⟩ : ∃ c, c = { s with flt.cnt := tinc s.flt.cnt 4 } := ⟨_, rfl⟩
  have counted : Steady s c := by rw [isC]; exact ⟨⟨rfl, rfl, rfl, rfl, rfl, rfl, rfl, rfl, rfl⟩, rfl⟩
  have cnt : tget c.flt.cnt 4 = satInc (tget s.flt.cnt 4) := by rw [isC]; exact tget_tinc_same _ (by decide)
  have cRun : c.mode = .run := by rw [isC]; exact run
  have fence := fenced_fenceOf event c
  have reaction := react_degrade d s
  rw [← isC] at reaction
  generalize fenceOf d c = f at fence reaction
  have fRun : f.mode = .run := by rw [show f = _ from fence]; exact cRun
  have fCnt : f.flt.cnt = c.flt.cnt := by rw [show f = _ from fence]
  have told := steady_reacted 2 f
  have cause := reacted_run fRun
  obtain ⟨g, h, o, e⟩ := reacted_frame 2 f
  have rRun : (reacted 2 f).mode = .run := by rw [e]; exact fRun
  have rCnt : (reacted 2 f).flt.cnt = f.flt.cnt := by rw [e]
  have entered := entered_degrade rRun
  obtain ⟨kept, gctl, tCnt⟩ := faultTrigger_leaves d 2 (degrade (reacted 2 f))
  rw [reaction]
  refine ⟨counted.trans (fence.steady.trans (told.trans (entered.steady.trans kept))), ?_, ?_, ?_⟩
  · exact (congrArg Gctl.mode gctl).trans entered.mode
  · rw [gctl, entered.degWarden, cause]
  · rw [tCnt, entered.flt, rCnt, fCnt, cnt]

/-- SAFE in RUN, of a device that is not manager. -/
theorem safe_leaves (run : s.mode = .run) (other : s.fab.role ≠ roleManager) : Steady s (react [(d, 3)] s) ∧ (react [(d, 3)] s).mode = .safe ∧
    (react [(d, 3)] s).gctl.prev = s.prevFor .safe ∧ tget (react [(d, 3)] s).flt.cnt 5 = satInc (tget s.flt.cnt 5) := by
  obtain ⟨c, isC⟩ : ∃ c, c = { s with flt.cnt := tinc s.flt.cnt 5 } := ⟨_, rfl⟩
  have counted : Steady s c := by rw [isC]; exact ⟨⟨rfl, rfl, rfl, rfl, rfl, rfl, rfl, rfl, rfl⟩, rfl⟩
  have cnt : tget c.flt.cnt 5 = satInc (tget s.flt.cnt 5) := by rw [isC]; exact tget_tinc_same _ (by decide)
  have reaction := react_safe d s
  rw [← isC] at reaction
  have told := steady_reacted 3 c
  obtain ⟨g, h, o, e⟩ := reacted_frame 3 c
  have rRun : (reacted 3 c).mode = .run := by rw [e, isC]; exact run
  have rRole : (reacted 3 c).fab.role ≠ roleManager := by rw [e, isC]; exact other
  have rCnt : (reacted 3 c).flt.cnt = c.flt.cnt := by rw [e]
  have rPrev : (reacted 3 c).prevFor .safe = s.prevFor .safe := by rw [e, isC]; rfl
  have entered := entered_enterOver (.inl ⟨rfl, rRole⟩) (by rw [rRun]; decide)
  rw [goSafe_of_run rRun] at reaction
  obtain ⟨kept, gctl, tCnt⟩ := faultTrigger_leaves d 3 (enterOver .safe (reacted 3 c))
  rw [reaction]
  refine ⟨counted.trans (told.trans (entered.steady.trans kept)), ?_, ?_, ?_⟩
  · exact (congrArg Gctl.mode gctl).trans entered.mode
  · rw [gctl, entered.prev, rPrev]
  · rw [tCnt, entered.flt, rCnt, cnt]

/-- The report of an error of an event detector in RUN, up to its reaction. -/
theorem detectorReport_reacts {level : Nat} {w : Word} (run : s.mode = .run) (hd : d < 92) (ext : d ≠ 86) (event : isLevel d = false)
    (map : mapOf s d = (level, 0, 0)) (applies : s.holdsBack level = false) :
    ∃ v, exec (.detectorReport [{ det := d, p := false, n := true, detail := w }]) s = done (react [(d, level)] v) ∧ Occurred s v := by
  have pair : d ≠ 87 := by
    rintro rfl
    exact absurd event (by decide)
  obtain ⟨on, in_⟩ := notOff_of_run run
  obtain ⟨v, taken, occurred⟩ := occurred_of_event (x := { det := d, p := false, n := true, detail := w }) on in_ (exists_of_lt hd) rfl rfl event map applies
  have step := exec_detectorReport (s := s) (x := { det := d, p := false, n := true, detail := w }) ext
  rw [readback_of_other (.inl pair), taken] at step
  exact ⟨v, step, occurred⟩

theorem Occurred.reads (h : Occurred s t) : t.mode = s.mode ∧ t.fab = s.fab ∧ t.gctl = s.gctl ∧ t.tim = s.tim ∧ t.pins = s.pins := by
  rw [h.frame]
  exact ⟨rfl, rfl, rfl, rfl, rfl⟩

theorem Occurred.prevFor (h : Occurred s t) (m : Mode) : t.prevFor m = s.prevFor m := by
  rw [h.frame]
  rfl

theorem detectorReport_degrades {w : Word} (run : s.mode = .run) (armed : s.gctl.everArmed = true) (hd : d < 92) (ext : d ≠ 86)
    (event : isLevel d = false) (map : mapOf s d = (2, 0, 0)) :
    ∃ u, exec (.detectorReport [{ det := d, p := false, n := true, detail := w }]) s = .next (settle u) ∧
      EnterKeeps s u ∧ u.mem = s.mem ∧ u.mode = .degraded ∧
      u.gctl.degWarden = true ∧ tget u.flt.cnt 4 = satInc (tget s.flt.cnt 4) := by
  obtain ⟨v, step, occurred⟩ := detectorReport_reacts (w := w) run hd ext event map (by simp [State.holdsBack, armed])
  obtain ⟨steady, mode, cause, cnt⟩ := degrade_leaves (s := v) (occurred.reads.1.trans run) event
  obtain ⟨keeps, mem⟩ := occurred.steady.trans steady
  exact ⟨_, step, keeps, mem, mode, cause, cnt.trans (congrArg satInc (occurred.cnt 4 (by decide)))⟩

theorem detectorReport_safe {w : Word} (run : s.mode = .run) (armed : s.gctl.everArmed = true) (other : s.fab.role ≠ roleManager)
    (hd : d < 92) (ext : d ≠ 86) (event : isLevel d = false) (map : mapOf s d = (3, 0, 0)) :
    ∃ u, exec (.detectorReport [{ det := d, p := false, n := true, detail := w }]) s = .next (settle u) ∧
      EnterKeeps s u ∧ u.mem = s.mem ∧
      u.mode = .safe ∧ u.gctl.prev = s.prevFor .safe ∧ tget u.flt.cnt 5 = satInc (tget s.flt.cnt 5) := by
  obtain ⟨v, step, occurred⟩ := detectorReport_reacts (w := w) run hd ext event map (by simp [State.holdsBack, armed])
  obtain ⟨vMode, vFab, -⟩ := occurred.reads
  obtain ⟨steady, mode, prev, cnt⟩ := safe_leaves (s := v) (d := d) (vMode.trans run) (vFab ▸ other)
  obtain ⟨keeps, mem⟩ := occurred.steady.trans steady
  exact ⟨_, step, keeps, mem, mode, prev.trans (occurred.prevFor .safe), cnt.trans (congrArg satInc (occurred.cnt 5 (by decide)))⟩

/-! ## HOLD (R62, R355, R356) -/

@[simp] theorem finishWord_offVit (s : State) : (finishWord s).offVit = s.offVit := by
  unfold finishWord
  split
  · rfl
  · rfl

@[simp] theorem abandonErase_offVit (s : State) : (abandonErase s).offVit = s.offVit := rfl

@[simp] theorem recheckRecord_offVit (s : State) : (recheckRecord s).offVit = s.offVit := rfl

@[simp] theorem writeClose_offVit (cause : Nat) (r : Record) (bytes : Nat) (s : State) : (writeClose cause r bytes s).offVit = s.offVit := by
  unfold writeClose
  extract_lets a indexed closed head blocks dig signed counted
  have put : signed.offVit = s.offVit := by
    unfold signed closed indexed
    simp only [putRec_offVit, agentTurn_offVit]
  clear_value signed
  exact (msix_offVit ..).trans put

@[simp] theorem sealNow_offVit (cause : Nat) (s : State) : (sealNow cause s).offVit = s.offVit := by
  unfold sealNow
  extract_lets u
  have checked : u.offVit = s.offVit := recheckRecord_offVit s
  clear_value u
  split
  · exact checked
  · extract_lets closed
    have written : closed.offVit = s.offVit := (writeClose_offVit ..).trans checked
    clear_value closed
    exact written

@[simp] theorem ldgCheckpoint_offVit (final : Bool) (s : State) : (ldgCheckpoint final s).offVit = s.offVit := by
  unfold ldgCheckpoint
  split
  · exact offVit_of_unposted ((ldgWrite_unposted ..).trans (ldgTouch_unposted s))
  · rfl

/-- The device as a reset of the warden finds it: its word programmed, its record sealed, its turnstile written (R63). -/
def broughtToReset (s : State) : State := abandonErase (ldgCheckpoint true (sealNow 2 (abandonErase (finishWord s))))

theorem broughtToReset_offVit (s : State) : (broughtToReset s).offVit = s.offVit := by
  simp [broughtToReset]

/-- What a reset of the warden leaves (R62), of a device whose alert pin is `pin` and whose state before it is `m`. -/
def RestartedBy (pin : Bool) (m : Mode) (u : State) : Prop :=
  u = { State.reset with
    otp := u.otp, pins := u.pins, gctl := u.gctl, tim := u.tim, arc := u.arc, flt := u.flt, hst := u.hst, out := u.out, freeCtr := u.freeCtr
    pending := u.pending, pwr := { State.reset.pwr with alertPin := pin, alert := pin, effective := u.pwr.effective } } ∧
    u.mode = .hold ∧ u.gctl.rstType = 3 ∧ u.gctl.prev = m

theorem restarted_afterReset (s : State) : RestartedBy s.pwr.alertPin (s.prevFor .hold) (afterReset rstWarden s) := ⟨rfl, rfl, rfl, rfl⟩

theorem RestartedBy.levelsCleared {pin : Bool} {m : Mode} (h : RestartedBy pin m s) : RestartedBy pin m (levelsCleared s) := by
  obtain ⟨frame, mode, type, prev⟩ := h
  obtain ⟨x, e⟩ := foldl_levelOff_frame [66, 67, 68, 69, 70, 71, 72, 73, 78, 79] s
  rw [Sys2Proof.Machine.levelsCleared, e]
  refine ⟨?_, mode, type, prev⟩
  generalize s.otp = a1, s.pins = a2, s.gctl = a3, s.tim = a4, s.arc = a5, s.flt = a6, s.hst = a7, s.out = a8, s.freeCtr = a9, s.pending = a10,
    s.pwr.effective = a11 at frame
  rw [frame]

/-- GCTL as the reset of the warden leaves it: its causes of DEGRADED judged anew, HOLD_REASON 6 (R355). -/
def rejudged (s : State) : State := { s with
  gctl := { s.gctl with degWarden := s.flt.records.any (fun r => r.react = 2 && r.judged), holdReason := 6 } }

theorem resetTo_of_noScan (h : s.pins.scan = none) : resetTo rstWarden s =
    drivePair (some (false, true)) (rejudged (levelsCleared (afterReset rstWarden (broughtToReset s)))) := by
  rw [resetTo, if_neg (by simp [h])]
  extract_lets a b c g d k e
  have isB : b = ldgCheckpoint true (sealNow 2 a) := by
    unfold b
    rw [if_pos (by decide)]
  have isE : e = { d with gctl.holdReason := 6 } := by
    unfold e
    rw [if_pos rfl]
  have isC : c = levelsCleared (afterReset rstWarden (broughtToReset s)) := by
    unfold c
    rw [isB]
    rfl
  rw [isE]
  unfold d g
  rw [isC]
  generalize levelsCleared (afterReset rstWarden (broughtToReset s)) = r
  rfl

theorem RestartedBy.rejudged {pin : Bool} {m : Mode} (h : RestartedBy pin m s) : RestartedBy pin m (rejudged s) := by
  obtain ⟨frame, mode, type, prev⟩ := h
  unfold Machine.rejudged
  refine ⟨?_, mode, type, prev⟩
  generalize s.gctl = a3, s.otp = a1, s.pins = a2, s.tim = a4, s.arc = a5, s.flt = a6, s.hst = a7, s.out = a8, s.freeCtr = a9, s.pending = a10,
    s.pwr.effective = a11 at frame ⊢
  rw [frame]

theorem RestartedBy.drivePair {pin : Bool} {m : Mode} (h : RestartedBy pin m s) (v : Option (Bool × Bool)) : RestartedBy pin m (drivePair v s) := by
  obtain ⟨frame, mode, type, prev⟩ := h
  obtain ⟨p, o, e⟩ := drivePair_frame v s
  rw [e]
  refine ⟨?_, mode, type, prev⟩
  generalize s.otp = a1, s.pins = a2, s.gctl = a3, s.tim = a4, s.arc = a5, s.flt = a6, s.hst = a7, s.out = a8, s.freeCtr = a9, s.pending = a10,
    s.pwr.effective = a11 at frame
  rw [frame]

/-- A trigger of the vitrine leaves a state that takes none. -/
theorem faultTrigger_of_hold (h : s.mode = .hold) (d top : Nat) : faultTrigger d top s = s := by
  unfold faultTrigger
  rw [vitTrigger_of_other (by simp [h]) (by simp [h]) (by simp [h]), ite_self]

theorem drivePair_gctl (v : Option (Bool × Bool)) (s : State) : (drivePair v s).gctl = s.gctl := by
  obtain ⟨p, o, e⟩ := drivePair_frame v s
  rw [e]

/-- HOLD: the device restarts in HOLD. -/
theorem reset_leaves (scan : s.pins.scan = none) : RestartedBy s.pwr.alertPin (s.prevFor .hold) (react [(d, 4)] s) ∧
    (react [(d, 4)] s).gctl.holdReason = 6 ∧ (react [(d, 4)] s).mem = [] := by
  obtain ⟨g, h, o, e⟩ := reacted_frame 4 s
  have rScan : (reacted 4 s).pins.scan = none := by rw [e]; exact scan
  have rPin : (reacted 4 s).pwr.alertPin = s.pwr.alertPin := by rw [e]
  have rPrev : (reacted 4 s).prevFor .hold = s.prevFor .hold := by rw [e]; rfl
  have reaction := react_reset d s
  rw [resetTo_of_noScan rScan] at reaction
  have brought := frame_of_offVit (broughtToReset_offVit (reacted 4 s))
  generalize reacted 4 s = r at *
  have pin : (broughtToReset r).pwr.alertPin = s.pwr.alertPin := by rw [brought]; exact rPin
  have prev : (broughtToReset r).prevFor .hold = s.prevFor .hold := by rw [brought]; exact rPrev
  have restarted := ((restarted_afterReset (broughtToReset r)).levelsCleared.rejudged.drivePair (some (false, true)))
  rw [pin, prev] at restarted
  have reason : (drivePair (some (false, true)) (rejudged (levelsCleared (afterReset rstWarden (broughtToReset r))))).gctl.holdReason = 6 := by
    rw [drivePair_gctl, rejudged]
  generalize drivePair (some (false, true)) (rejudged (levelsCleared (afterReset rstWarden (broughtToReset r)))) = v at *
  rw [reaction, faultTrigger_of_hold restarted.2.1]
  exact ⟨restarted, reason, by rw [restarted.1]; rfl⟩

theorem detectorReport_holds {w : Word} (run : s.mode = .run) (scan : s.pins.scan = none) (hd : d < 92) (ext : d ≠ 86)
    (event : isLevel d = false) (map : mapOf s d = (4, 0, 0)) :
    ∃ u, exec (.detectorReport [{ det := d, p := false, n := true, detail := w }]) s = .next (settle u) ∧
      RestartedBy s.pwr.alertPin (s.prevFor .hold) u ∧ u.gctl.holdReason = 6 ∧ u.mem = [] := by
  obtain ⟨v, step, occurred⟩ := detectorReport_reacts (w := w) run hd ext event map (by simp [State.holdsBack])
  obtain ⟨-, -, -, -, pins⟩ := occurred.reads
  obtain ⟨restarted, reason, mem⟩ := reset_leaves (s := v) (d := d) (pins ▸ scan)
  rw [occurred.prevFor, show v.pwr = s.pwr by rw [occurred.frame]] at restarted
  exact ⟨_, step, restarted, reason, mem⟩

end

end Sys2Proof.Machine

namespace Sys2Proof
open Machine

/-- Settles O44: a pattern is taken by the warden before the command ends; `react_degrade`, `react_safe` and `react_reset` say what each
reaction brings. -/
theorem detectorReactions : Obligations.DetectorReactions :=
  ⟨fun _ _ _ hs on in_ hd ext pair => detectorReport_healthy hs on in_ hd ext pair,
    fun _ _ _ _ _ _ hs on in_ whole pair high low => detectorReport_readBack hs on in_ whole pair high low,
    fun _ _ _ _ _ _ hs run whole pair differs map fresh new room => detectorReport_pairDiffers hs run whole pair differs map fresh new room,
    fun _ _ _ hs on in_ hd ext event map new room whole => detectorReport_logs hs on in_ hd ext event map new room whole,
    fun _ _ _ _ run armed hd ext event map => detectorReport_degrades run armed hd ext event map,
    fun _ _ _ _ run armed other hd ext event map => detectorReport_safe run armed other hd ext event map,
    fun _ _ _ _ run scan hd ext event map => by
      obtain ⟨u, step, ⟨frame, mode, type, prev⟩, reason, mem⟩ := detectorReport_holds run scan hd ext event map
      exact ⟨u, step, frame, mode, type, reason, prev, mem⟩,
    fun _ _ _ _ hs run hd ext map fresh new room => detectorReport_line hs run hd ext map fresh new room⟩

end Sys2Proof

/-! # Roles and offices of the fabric: what their operations leave -/
namespace Sys2Proof.Machine

section
variable {m : Mode} {p : Nat} {hdr : MsgHdr} {s t u : State}

/-! ## A broadcast of the device -/

theorem sentMore_sendPort (p : Nat) (h : MsgHdr) (m : FabMsg) (s : State) : SentMore s (sendPort p h m s) := by
  refine ⟨?_, fun q n waits => waits.sendPort h m⟩
  unfold sendPort
  split
  · exact ⟨s.fab.mseq, _, rfl⟩
  · exact ⟨s.fab.mseq, s.fab.outq, rfl⟩

theorem sentMore_foldl {α : Type} (f : State → α → State) (one : ∀ t x, SentMore t (f t x)) (l : List α) (s : State) :
    SentMore s (l.foldl f s) := by
  induction l generalizing s with
  | nil => exact .refl s
  | cons x l ih => exact (one s x).trans (ih _)

theorem sentMore_sendAll (but : Option Nat) (h : MsgHdr) (m : FabMsg) (s : State) : SentMore s (sendAll but h m s) := by
  refine sentMore_foldl _ (fun t p => ?_) _ s
  split
  · exact .refl t
  · exact sentMore_sendPort p h m t

theorem sentMore_sendBroadcast (m : FabMsg) (s : State) : SentMore s (sendBroadcast m s) := by
  refine .trans ⟨⟨s.fab.mseq + 1, s.fab.outq, rfl⟩, fun p n waits => waits⟩ (sentMore_sendAll none (newHdr 0xFFF false s) m _)

theorem SentMore.up (h : SentMore s t) (p : Nat) : (t.port p).up = (s.port p).up := by
  obtain ⟨n, q, e⟩ := h.frame
  rw [e]
  rfl

/-- Every port that is up gets a copy of what goes to all. -/
theorem waits_foldl_sendPort {l : List Nat} (mem : p ∈ l) (up : (s.port p).up = true) (h : MsgHdr) (m : FabMsg) :
    Waits p m (l.foldl (fun t p => if some p = (none : Option Nat) then t else sendPort p h m t) s) := by
  have one (t : State) (q : Nat) : SentMore t (if some q = (none : Option Nat) then t else sendPort q h m t) := by
    rw [if_neg (by simp)]
    exact sentMore_sendPort q h m t
  induction l generalizing s with
  | nil => cases mem
  | cons q l ih =>
    rw [List.foldl_cons]
    obtain rfl | later := List.mem_cons.mp mem
    · refine (sentMore_foldl _ one l _).waits p m ?_
      rw [if_neg (by simp)]
      exact waits_sendPort up h m
    · exact ih later (((one s q).up p).trans up)

theorem waits_sendBroadcast (low : p < 4) (up : (s.port p).up = true) (m : FabMsg) : Waits p m (sendBroadcast m s) := by
  have here : (State.port { s with fab.mseq := s.fab.mseq + 1 } p).up = true := up
  unfold sendBroadcast
  generalize ({ s with fab.mseq := s.fab.mseq + 1 } : State) = t at here ⊢
  exact waits_foldl_sendPort (List.mem_range.mpr low) here _ m

/-! ## A broadcast that is heard -/

theorem heardCast_frame (hp : p < 4) (hdr : MsgHdr) (s : State) : ∃ q x o,
    s.heardCast p hdr = { s with fab := { s.fab with ports := q, seen := x }, out := o } := by
  obtain ⟨f, e⟩ := heard_frame hp hdr s
  refine ⟨tset s.fab.ports p ((s.port p).took hdr.rx), (hdr.src, hdr.mseq) :: s.fab.seen.filter (fun e => e.1 ≠ hdr.src),
    .fabric p (w64 s.stamp) f :: s.out, ?_⟩
  rw [State.heardCast, e]
  rfl

/-! ## Roles (R309, R310, R319) -/

theorem fabVec_frame (s : State) : ∃ h o, fabVec s = { s with hst := h, out := o } := by
  unfold fabVec
  rw [msix_frame]
  exact ⟨_, _, rfl⟩

theorem setRole_frame (r : BitVec 3) (s : State) : ∃ h o, setRole r s = { s with fab.role := r, hst := h, out := o } := by
  unfold setRole
  split
  · next same => exact ⟨s.hst, s.out, by rw [← same]⟩
  · exact fabVec_frame _

theorem setEpoch_frame (e : BitVec 64) (s : State) : ∃ g b, setEpoch e s = { s with fab := { s.fab with epoch := e, epochPrev := b, genSeen := g } } := by
  unfold setEpoch
  split
  · next same => exact ⟨s.fab.genSeen, s.fab.epochPrev, by rw [same]⟩
  · exact ⟨_, _, rfl⟩

/-- A device follows the fabric in its discipline and as its source of ticks (R310). -/
theorem followFabric_frame (s : State) : ∃ x k, followFabric s = { s with tim := x, tck := k } ∧ k.src = srcFabric :=
  ⟨_, _, rfl, rfl⟩

/-- The highest generation heard is kept. -/
theorem le_genHeard (e : BitVec 64) (s : State) : (hi32 e).toNat ≤ (genHeard e s).fab.genSeen.toNat := by
  unfold genHeard
  dsimp only
  split_ifs with lower
  · exact le_rfl
  · omega

/-! ## What a role and a change of state leave -/

/-- What neither a role nor the entry into SAFE or QUARANTINE touches. -/
def Steadfast (s u : State) : Prop := EnterKeeps s u ∧ u.grd = s.grd ∧ u.arc = s.arc ∧ u.crd = s.crd ∧ u.clk = s.clk ∧ u.tst = s.tst ∧
  u.mem = s.mem ∧ u.freeCtr = s.freeCtr

theorem Steadfast.trans (h : Steadfast s t) (k : Steadfast t u) : Steadfast s u := by
  obtain ⟨⟨a1, a2, a3, a4, a5, a6, a7, a8, a9⟩, b1, b2, b3, b4, b5, b6, b7⟩ := h
  obtain ⟨⟨c1, c2, c3, c4, c5, c6, c7, c8, c9⟩, d1, d2, d3, d4, d5, d6, d7⟩ := k
  exact ⟨⟨c1.trans a1, c2.trans a2, c3.trans a3, c4.trans a4, c5.trans a5, c6.trans a6, c7.trans a7, c8.trans a8, c9.trans a9⟩,
    d1.trans b1, d2.trans b2, d3.trans b3, d4.trans b4, d5.trans b5, d6.trans b6, d7.trans b7⟩

/-- The state without what a role may change. -/
def State.offRole (s : State) : State := { s.offFabric with tim := {}, tck := {} }

theorem frame_of_offRole (h : t.offRole = s.offRole) :
    t = { s with tim := t.tim, tck := t.tck, fab := t.fab, flt := t.flt, hst := t.hst, out := t.out } := by
  have e : t = { t.offRole with tim := t.tim, tck := t.tck, fab := t.fab, flt := t.flt, hst := t.hst, out := t.out } := rfl
  rw [h] at e
  exact e

theorem offRole_of_offFabric (h : t.offFabric = s.offFabric) : t.offRole = s.offRole := by
  unfold State.offRole
  rw [h]

theorem steadfast_of_offRole (h : t.offRole = s.offRole) : Steadfast s t := by
  rw [frame_of_offRole h]
  exact ⟨⟨rfl, rfl, rfl, rfl, rfl, rfl, rfl, rfl, rfl⟩, rfl, rfl, rfl, rfl, rfl, rfl, rfl⟩

theorem mode_of_offRole (h : t.offRole = s.offRole) : t.mode = s.mode :=
  (congrArg State.mode h : t.offRole.mode = s.offRole.mode)

/-! ## Entering QUARANTINE and SAFE -/

theorem Entered.steadfast (h : Entered m s t) : Steadfast s t := h.keeps

theorem undoLower_tck (s : State) : (undoLower s).tck = s.tck := by
  unfold undoLower
  split
  · split
    · rfl
    · extract_lets g cap _ _ _ lower
      split
      · rfl
      · rfl
  · rfl

theorem undoHalt_tck (s : State) : (undoHalt s).tck = s.tck := by
  unfold undoHalt
  split
  · split
    · rfl
    · rfl
  · rfl

/-- Entering QUARANTINE leaves the source of ticks. -/
theorem enterOver_quarantine_src (h : s.mode ≠ .quarantine) : (enterOver .quarantine s).tck.src = s.tck.src := by
  have lower : (undoLower s).mode ≠ .quarantine := fun same => h ((undone_undoLower s).mode.symm.trans same)
  have stopped : (enter .quarantine (undoLower s)).tck = s.tck := by
    obtain ⟨b, p, l, o, e⟩ := entering_frame .quarantine (undoLower s)
    obtain ⟨c, q⟩ := quietCores_frame (dropFrames (entering .quarantine (undoLower s)))
    obtain ⟨i, v⟩ := vitLeave_frame (quietCores (dropFrames (entering .quarantine (undoLower s))))
    rw [enter_stopped (.inr rfl) lower, v, q, e, ← undoLower_tck s]
    rfl
  have halted := congrArg Tck.src ((undoHalt_tck (enter .quarantine (undoLower s))).trans stopped)
  unfold enterOver
  dsimp only
  split
  · exact halted
  · exact halted

/-- What a device in ARMED or RUN leaves as it goes into QUARANTINE. -/
structure Quarantined (cause : BitVec 4) (s t : State) : Prop where
  steadfast : Steadfast s t
  mode : t.mode = .quarantine
  fab : t.fab = { s.fab with cause := cause, joined := false, rejoinOk := false, joinSent := t.fab.joinSent }
  src : t.tck.src = s.tck.src

theorem quarantined_of (works : s.mode = .armed ∨ s.mode = .run) (cause : BitVec 4) : Quarantined cause s (quarantine cause s) := by
  obtain ⟨v, isV⟩ : ∃ v, v = { s with fab.cause := cause, fab.joined := false, fab.rejoinOk := false, gctl.admitted := false } := ⟨_, rfl⟩
  have same : v.mode = s.mode := by rw [isV]; rfl
  have step : quarantine cause s = enterOver .quarantine v := by
    unfold quarantine
    rw [← isV]
    dsimp only
    obtain armed | run := works
    · rw [same, armed]
    · rw [same, run]
  have other : v.mode ≠ .quarantine := by
    rw [same]
    obtain armed | run := works
    · rw [armed]
      decide
    · rw [run]
      decide
  have entered := entered_enterOver (.inr rfl) other
  have kept : Steadfast s v := by rw [isV]; exact ⟨⟨rfl, rfl, rfl, rfl, rfl, rfl, rfl, rfl, rfl⟩, rfl, rfl, rfl, rfl, rfl, rfl, rfl⟩
  have src := enterOver_quarantine_src other
  rw [← step] at entered src
  refine ⟨kept.trans entered.steadfast, entered.mode, entered.fab.trans ?_, src.trans ?_⟩
  · rw [isV]
  · rw [isV]

theorem quarantined_of_run (run : s.mode = .run) (cause : BitVec 4) : Quarantined cause s (quarantine cause s) := quarantined_of (.inr run) cause

end

end Sys2Proof.Machine

/-! # O57: elections, ROLE, SAFE and MGR_CLAIM -/
namespace Sys2Proof.Machine

section
variable {p : Nat} {hdr : MsgHdr} {s v : State}

/-! ## A ROLE of another device (R309, R319) -/

/-- What a device that is neither manager nor without its address makes of another's ROLE. -/
theorem roleTaken_of_other {mgr stby : BitVec 12} {e : BitVec 64} (role : s.fab.role ≠ roleManager) (whole : s.fab.dupAddr = false)
    (other : mgr ≠ s.fab.addr) : ∃ b g, roleTaken mgr stby e s = roleFollows mgr stby (decide (e ≠ s.fab.epoch))
      { s with fab := { s.fab with epoch := e, epochPrev := b, genSeen := g } } := by
  obtain ⟨g, b, set_⟩ := setEpoch_frame e s
  refine ⟨b, g, ?_⟩
  rw [roleTaken, if_neg role]
  dsimp only
  rw [set_]
  rw [if_neg (by simp [whole]), if_neg (by simp [other])]

/-- The role that a ROLE gives a device with that address. -/
def roleFor (stby addr : BitVec 12) : BitVec 3 := if addr ≠ 0xFFF && stby = addr then roleStandby else roleWorker

theorem roleFor_named {stby addr : BitVec 12} (named : addr ≠ 0xFFF) : roleFor stby addr = if stby = addr then roleStandby else roleWorker := by
  simp [roleFor, show ¬addr = 4095#12 from named]

/-- The manager known speaks: the device is its standby or its worker. -/
theorem roleFollows_known {stby : BitVec 12} {turned : Bool} (here : s.fab.orphan = false) (heard : s.fab.lostMono = none) :
    ∃ x k f h o, roleFollows s.fab.mgr stby turned s = { s with tim := x, tck := k, fab := f, hst := h, out := o } ∧ f.mgr = s.fab.mgr ∧
      f.stby = stby ∧ f.epoch = s.fab.epoch ∧ f.role = roleFor stby s.fab.addr := by
  unfold roleFollows
  extract_lets f heir changed idle t u w v _
  have known : heir = true := by simp [heir, f, here, State.lost350, heard]
  have same : ¬changed := fun differs => differs rfl
  have graph : w = u := if_neg same
  obtain ⟨h, o, e⟩ := setRole_frame (roleFor stby s.fab.addr) t
  have role : u = { t with fab.role := roleFor stby s.fab.addr, hst := h, out := o } := e
  rw [if_pos known]
  unfold v
  split
  · obtain ⟨x, k, follows, -⟩ := followFabric_frame w
    rw [follows, graph, role]
    exact ⟨x, k, _, h, o, rfl, rfl, rfl, rfl, rfl⟩
  · rw [graph, role]
    exact ⟨s.tim, s.tck, _, h, o, rfl, rfl, rfl, rfl, rfl⟩

/-- The device as another manager's ROLE has given it its role, before it leaves. -/
structure FollowsOther (mgr : BitVec 12) (s t : State) : Prop where
  offRole : t.offRole = s.offRole
  mgr : t.fab.mgr = mgr
  src : t.tck.src = srcFabric

/-- A manager that is neither the one known nor its standby comes of another fabric (R330). -/
theorem roleFollows_other {mgr stby : BitVec 12} {turned : Bool} (known : s.fab.mgr ≠ 0xFFF) (other : mgr ≠ s.fab.mgr) (notHeir : mgr ≠ s.fab.stby) :
    ∃ t, roleFollows mgr stby turned s = quarantine acMerge t ∧ FollowsOther mgr s t := by
  unfold roleFollows
  extract_lets f heir changed idle t u w v _
  have stranger : ¬heir = true := by simp [heir, f, show ¬s.fab.mgr = 4095#12 from known, other, notHeir]
  have differs : changed := other
  have off : w.offRole = s.offRole := by
    unfold w u
    rw [if_pos differs]
    exact offRole_of_offFabric ((graphChanged_offFabric _).trans (setRole_offFabric _ _))
  have kept : w.fab.mgr = mgr := by
    obtain ⟨h, o, e⟩ := setRole_frame (roleFor stby s.fab.addr) t
    have role : u = { t with fab.role := roleFor stby s.fab.addr, hst := h, out := o } := e
    have same : w.fab.unflooded = u.fab.unflooded := by
      unfold w
      rw [if_pos differs]
      exact graphChanged_unflooded u
    exact (reader_of_unflooded Fab.mgr (fun _ => rfl) same).trans (by rw [role])
  obtain ⟨x, k, follows, src⟩ := followFabric_frame w
  have turn : v = { w with tim := x, tck := k } := by
    unfold v
    rw [if_pos (by simp [differs]), follows]
  rw [if_neg stranger]
  refine ⟨_, rfl, ?_, ?_, ?_⟩
  · rw [turn]
    exact off
  · rw [turn]
    exact kept
  · rw [turn]
    exact src

theorem exec_role (heard : Broadcast p hdr s) (m b : BitVec 12) (d : BitVec 16) (e : BitVec 64) (on : s.fabricOn = true) :
    exec (.role p hdr m b d e) s = done (roleTaken m b e (s.heardCast p hdr)) := by
  obtain ⟨q, x, o, frame⟩ := heardCast_frame heard.1.2.1 hdr s
  have here : (s.heardCast p hdr).fabricOn = true := by rw [frame]; exact on
  exact congrArg done ((arrive_of_broadcast heard _ _ _).trans (if_pos here))

theorem role_known {b : BitVec 12} {d : BitVec 16} {e : BitVec 64} (heard : Broadcast p hdr s) (on : s.fabricOn = true)
    (role : s.fab.role ≠ roleManager) (whole : s.fab.dupAddr = false) (other : s.fab.mgr ≠ s.fab.addr) (here : s.fab.orphan = false)
    (found : s.fab.lostMono = none) (named : s.fab.addr ≠ 0xFFF) : ∃ t, exec (.role p hdr s.fab.mgr b d e) s = .next t ∧
      t = { s with gctl := t.gctl, tim := t.tim, tck := t.tck, fab := t.fab, flt := t.flt, hst := t.hst, out := t.out } ∧ t.fab.mgr = s.fab.mgr ∧
      t.fab.stby = b ∧ t.fab.epoch = e ∧ t.fab.role = (if b = s.fab.addr then roleStandby else roleWorker) ∧ t.mode = s.mode := by
  obtain ⟨q, x, o, frame⟩ := heardCast_frame heard.1.2.1 hdr s
  have step := exec_role heard s.fab.mgr b d e on
  rw [frame] at step
  obtain ⟨c, g, taken⟩ := roleTaken_of_other (s := { s with fab := { s.fab with ports := q, seen := x }, out := o }) (mgr := s.fab.mgr) (stby := b) (e := e) role whole other
  obtain ⟨y, k, f, h, o', follows, mgr, stby, epoch, made⟩ := roleFollows_known
    (s := { s with fab := { s.fab with ports := q, seen := x, epoch := e, epochPrev := c, genSeen := g }, out := o }) (stby := b)
    (turned := decide (e ≠ s.fab.epoch)) here found
  rw [taken] at step
  have quiet : ({ s with tim := y, tck := k, fab := f, hst := h, out := o' } : State).flt.due = [] := heard.1.1.1
  obtain ⟨r, z, left⟩ := settle_frame_of_quiet quiet
  have step' : exec (.role p hdr s.fab.mgr b d e) s = .next (settle { s with tim := y, tck := k, fab := f, hst := h, out := o' }) :=
    step.trans (congrArg done follows)
  refine ⟨_, step', ?_, ?_, ?_, ?_, ?_, ?_⟩
  · rw [left]
  · rw [left]
    exact mgr
  · rw [left]
    exact stby
  · rw [left]
    exact epoch
  · rw [left]
    exact made.trans (roleFor_named named)
  · rw [left]
    rfl

theorem role_stranger {m b : BitVec 12} {d : BitVec 16} {e : BitVec 64} (heard : Broadcast p hdr s) (on : s.fabricOn = true)
    (role : s.fab.role ≠ roleManager) (whole : s.fab.dupAddr = false) (own : m ≠ s.fab.addr) (known : s.fab.mgr ≠ 0xFFF)
    (other : m ≠ s.fab.mgr) (notHeir : m ≠ s.fab.stby) (run : s.mode = .run) : ∃ u, exec (.role p hdr m b d e) s = .next (settle u) ∧
      Steadfast s u ∧ u.mode = .quarantine ∧ u.fab.cause = 7 ∧ u.fab.mgr = m ∧ u.tck.src = 2 := by
  obtain ⟨q, x, o, frame⟩ := heardCast_frame heard.1.2.1 hdr s
  have step := exec_role heard m b d e on
  rw [frame] at step
  obtain ⟨c, g, taken⟩ := roleTaken_of_other (s := { s with fab := { s.fab with ports := q, seen := x }, out := o }) (mgr := m) (stby := b) (e := e) role whole own
  obtain ⟨t, follows, told⟩ := roleFollows_other
    (s := { s with fab := { s.fab with ports := q, seen := x, epoch := e, epochPrev := c, genSeen := g }, out := o }) (mgr := m) (stby := b)
    (turned := decide (e ≠ s.fab.epoch)) known other notHeir
  have off : t.offRole = s.offRole := told.offRole
  have left := quarantined_of_run ((mode_of_offRole off).trans run) acMerge
  refine ⟨_, step.trans (congrArg done (taken.trans follows)), (steadfast_of_offRole off).trans left.steadfast, left.mode, ?_, ?_, left.src.trans told.src⟩
  · rw [left.fab]
  · rw [left.fab]
    exact told.mgr

/-! ## SAFE (R329) -/

theorem exec_safe (heard : Broadcast p hdr s) (i : BitVec 64) (c : Byte) (worker : s.isWorker = true) (mgr : hdr.src = s.fab.mgr) :
    exec (.safe p hdr i c) s = done (if s.fabSec.obeySafe then goSafe (s.heardCast p hdr)
      else quarantine acMgrSafe { s.heardCast p hdr with fab.mgrSafe := true }) := by
  obtain ⟨q, x, o, frame⟩ := heardCast_frame heard.1.2.1 hdr s
  have here : (s.heardCast p hdr).isWorker = true := by rw [frame]; exact worker
  have known : hdr.src = (s.heardCast p hdr).fab.mgr := by rw [frame]; exact mgr
  have obeys : (s.heardCast p hdr).fabSec = s.fabSec := by rw [frame]; rfl
  refine congrArg done ((arrive_of_broadcast heard _ _ _).trans ?_)
  show safeTaken hdr (s.heardCast p hdr) = _
  rw [safeTaken, if_neg (by simp [here, known]), obeys]

theorem other_of_worker (worker : s.isWorker = true) : s.fab.role ≠ roleManager := by
  intro manager
  simp [State.isWorker, manager] at worker

theorem heardCast_kept (hp : p < 4) (hdr : MsgHdr) (s : State) : Steadfast s (s.heardCast p hdr) := by
  obtain ⟨q, x, o, frame⟩ := heardCast_frame hp hdr s
  rw [frame]
  exact ⟨⟨rfl, rfl, rfl, rfl, rfl, rfl, rfl, rfl, rfl⟩, rfl, rfl, rfl, rfl, rfl, rfl, rfl⟩

theorem safe_obeyed {i : BitVec 64} {c : Byte} (heard : Broadcast p hdr s) (worker : s.isWorker = true) (mgr : hdr.src = s.fab.mgr)
    (run : s.mode = .run) (obeys : s.fabSec.obeySafe = true) : ∃ u, exec (.safe p hdr i c) s = .next (settle u) ∧
      Steadfast s u ∧ u.mode = .safe ∧ u.gctl.prev = s.prevFor .safe := by
  obtain ⟨q, x, o, frame⟩ := heardCast_frame heard.1.2.1 hdr s
  have vRun : (s.heardCast p hdr).mode = .run := by rw [frame]; exact run
  have vRole : (s.heardCast p hdr).fab.role ≠ roleManager := by rw [frame]; exact other_of_worker worker
  have vPrev : (s.heardCast p hdr).prevFor .safe = s.prevFor .safe := by rw [frame]; rfl
  have kept := heardCast_kept heard.1.2.1 hdr s
  have step := exec_safe heard i c worker mgr
  rw [if_pos obeys, goSafe_of_run vRun] at step
  have entered := entered_enterOver (.inl ⟨rfl, vRole⟩) (by rw [vRun]; decide)
  exact ⟨_, step, kept.trans entered.steadfast, entered.mode, entered.prev.trans vPrev⟩

theorem safe_left {i : BitVec 64} {c : Byte} (heard : Broadcast p hdr s) (worker : s.isWorker = true) (mgr : hdr.src = s.fab.mgr)
    (run : s.mode = .run) (alone : s.fabSec.obeySafe = false) : ∃ u, exec (.safe p hdr i c) s = .next (settle u) ∧
      Steadfast s u ∧ u.mode = .quarantine ∧ u.fab.cause = 8 ∧ u.fab.mgrSafe = true := by
  obtain ⟨q, x, o, frame⟩ := heardCast_frame heard.1.2.1 hdr s
  have kept := heardCast_kept heard.1.2.1 hdr s
  have step := exec_safe heard i c worker mgr
  rw [if_neg (by simp [alone])] at step
  rw [frame] at step kept
  have left := quarantined_of_run
    (s := { s with fab := { s.fab with ports := q, seen := x, mgrSafe := true }, out := o }) run acMgrSafe
  refine ⟨_, step, kept.trans left.steadfast, left.mode, ?_, ?_⟩
  · rw [left.fab]
  · rw [left.fab]

/-! ## MGR_CLAIM (R330) -/

/-- The device with a claim heard. -/
def claimHeard (e : BitVec 64) (s : State) : State := genHeard e { s with fab.mgrHeard := some s.mono }

theorem claimHeard_frame (e : BitVec 64) (s : State) : ∃ g, claimHeard e s = { s with fab := { s.fab with mgrHeard := some s.mono, genSeen := g } } ∧
    (hi32 e).toNat ≤ g.toNat := ⟨_, rfl, le_genHeard e { s with fab.mgrHeard := some s.mono }⟩

/-- A manager that resigns before a better one, as a worker of that (R330). -/
def resigned (src : BitVec 12) (s : State) : State :=
  graphChanged (followFabric (setRole roleWorker { s with fab := { s.fab.acount 5 with
    mgr := src, stby := 0xFFF, members := [], timeOkMgr := 0, missConsec := 0 }, tim.joinStep := true }))

theorem claimTaken_of_better {c : Claim} (manager : (claimHeard c.epoch s).isManager = true)
    (better : rankKey c.mgrSel c.priority c.serial < rankKey (claimHeard c.epoch s).pins.mgrSel
      (BitVec.ofNat 8 (claimHeard c.epoch s).fabSec.priority) (claimHeard c.epoch s).otp.serial) :
    claimTaken hdr c s = quarantine acMerge (resigned hdr.src (claimHeard c.epoch s)) := by
  unfold claimTaken
  exact (if_neg (show ¬(!(claimHeard c.epoch s).isManager) = true by simp [manager])).trans (if_pos better)

theorem claimTaken_of_worse {c : Claim} (manager : (claimHeard c.epoch s).isManager = true)
    (worse : ¬rankKey c.mgrSel c.priority c.serial < rankKey (claimHeard c.epoch s).pins.mgrSel
      (BitVec.ofNat 8 (claimHeard c.epoch s).fabSec.priority) (claimHeard c.epoch s).otp.serial) :
    claimTaken hdr c s = sendRole (claimHeard c.epoch s) := by
  unfold claimTaken
  exact (if_neg (show ¬(!(claimHeard c.epoch s).isManager) = true by simp [manager])).trans (if_neg worse)

theorem resigned_offRole (src : BitVec 12) (s : State) : (resigned src s).offRole = s.offRole := by
  unfold resigned
  obtain ⟨h, o, e⟩ := setRole_frame roleWorker { s with fab := { s.fab.acount 5 with
    mgr := src, stby := 0xFFF, members := [], timeOkMgr := 0, missConsec := 0 }, tim.joinStep := true }
  rw [e]
  exact (offRole_of_offFabric (graphChanged_offFabric _)).trans rfl

theorem resigned_fab (src : BitVec 12) (s : State) : (resigned src s).fab.role = roleWorker ∧ (resigned src s).fab.mgr = src ∧
    tget (resigned src s).fab.acnt 5 = satInc (tget s.fab.acnt 5) := by
  unfold resigned
  obtain ⟨h, o, e⟩ := setRole_frame roleWorker { s with fab := { s.fab.acount 5 with
    mgr := src, stby := 0xFFF, members := [], timeOkMgr := 0, missConsec := 0 }, tim.joinStep := true }
  rw [e]
  refine ⟨reader_of_unflooded Fab.role (fun _ => rfl) (graphChanged_unflooded _), reader_of_unflooded Fab.mgr (fun _ => rfl) (graphChanged_unflooded _), ?_⟩
  exact (reader_of_unflooded (fun f => tget f.acnt 5) (fun _ => rfl) (graphChanged_unflooded _)).trans (tget_tinc_same _ (by decide))

theorem exec_mgrClaim (heard : Broadcast p hdr s) (c : Claim) : exec (.mgrClaim p hdr c) s = done (claimTaken hdr c (s.heardCast p hdr)) :=
  congrArg done (arrive_of_broadcast heard _ _ _)

/-- The device as a claim that comes as a broadcast leaves it at first. -/
theorem claimHeard_heardCast (hp : p < 4) (hdr : MsgHdr) (e : BitVec 64) (s : State) : ∃ q x o m g, claimHeard e (s.heardCast p hdr) =
    { s with fab := { s.fab with ports := q, seen := x, mgrHeard := m, genSeen := g }, out := o } ∧ (hi32 e).toNat ≤ g.toNat := by
  obtain ⟨q, x, o, frame⟩ := heardCast_frame hp hdr s
  obtain ⟨g, claimed, le⟩ := claimHeard_frame e (s.heardCast p hdr)
  refine ⟨q, x, o, some (s.heardCast p hdr).mono, g, ?_, le⟩
  rw [claimed]
  generalize (s.heardCast p hdr).mono = m
  rw [frame]

theorem mgrClaim_better {c : Claim} (heard : Broadcast p hdr s) (manager : s.isManager = true) (run : s.mode = .run)
    (better : rankKey c.mgrSel c.priority c.serial < rankKey s.pins.mgrSel (BitVec.ofNat 8 s.fabSec.priority) s.otp.serial) :
    ∃ u, exec (.mgrClaim p hdr c) s = .next (settle u) ∧ Steadfast s u ∧ u.mode = .quarantine ∧ u.fab.role = roleWorker ∧ u.fab.mgr = hdr.src ∧
      u.fab.cause = 7 ∧ tget u.fab.acnt 5 = satInc (tget s.fab.acnt 5) := by
  obtain ⟨q, x, o, m, g, frame, -⟩ := claimHeard_heardCast heard.1.2.1 hdr c.epoch s
  have step := exec_mgrClaim heard c
  rw [claimTaken_of_better (by rw [frame]; exact manager) (by rw [frame]; exact better)] at step
  obtain ⟨role, mgr, cnt⟩ := resigned_fab hdr.src (claimHeard c.epoch (s.heardCast p hdr))
  have off : (resigned hdr.src (claimHeard c.epoch (s.heardCast p hdr))).offRole = s.offRole := by
    rw [resigned_offRole, frame]
    rfl
  have was : tget (claimHeard c.epoch (s.heardCast p hdr)).fab.acnt 5 = tget s.fab.acnt 5 := by rw [frame]
  generalize resigned hdr.src (claimHeard c.epoch (s.heardCast p hdr)) = t at *
  have left := quarantined_of_run ((mode_of_offRole off).trans run) acMerge
  refine ⟨_, step, (steadfast_of_offRole off).trans left.steadfast, left.mode, ?_, ?_, ?_, ?_⟩
  · rw [left.fab]
    exact role
  · rw [left.fab]
    exact mgr
  · rw [left.fab]
  · rw [left.fab]
    exact cnt.trans (congrArg satInc was)

theorem mgrClaim_worse {c : Claim} (heard : Broadcast p hdr s) (manager : s.isManager = true)
    (worse : rankKey s.pins.mgrSel (BitVec.ofNat 8 s.fabSec.priority) s.otp.serial ≤ rankKey c.mgrSel c.priority c.serial) :
    ∃ t, exec (.mgrClaim p hdr c) s = .next t ∧ t = { s with fab := t.fab, hst := t.hst, out := t.out } ∧ t.fab.role = roleManager ∧
      t.fab.mgr = s.fab.mgr ∧ (BitVec.extractLsb' 32 32 c.epoch).toNat ≤ t.fab.genSeen.toNat := by
  obtain ⟨q, x, o, m, g, frame, le⟩ := claimHeard_heardCast heard.1.2.1 hdr c.epoch s
  have step := exec_mgrClaim heard c
  rw [claimTaken_of_worse (by rw [frame]; exact manager) (by rw [frame]; exact not_lt.mpr worse), frame] at step
  obtain ⟨n, y, sent⟩ := (sentMore_sendBroadcast (.role s.fab.addr s.fab.stby (s.fab.devices.setWidth 16) s.fab.epoch)
    { s with fab := { s.fab with ports := q, seen := x, mgrHeard := m, genSeen := g }, out := o }).frame
  have told : sendRole { s with fab := { s.fab with ports := q, seen := x, mgrHeard := m, genSeen := g }, out := o } =
      { s with fab := { s.fab with ports := q, seen := x, mgrHeard := m, genSeen := g, mseq := n, outq := y }, out := o } := sent
  rw [told] at step
  have quiet : ({ s with fab := { s.fab with ports := q, seen := x, mgrHeard := m, genSeen := g, mseq := n, outq := y }, out := o } : State).flt.due = [] :=
    heard.1.1.1
  have role : s.fab.role = roleManager := by
    simp only [State.isManager, Bool.and_eq_true, decide_eq_true_eq] at manager
    exact manager.1
  have upper : BitVec.extractLsb' 32 32 c.epoch = hi32 c.epoch := BitVec.eq_of_toNat_eq (by simp [hi32])
  obtain ⟨r, z, left⟩ := settle_frame_of_quiet quiet
  refine ⟨_, step, ?_, ?_, ?_, ?_⟩
  · rw [left]
  · rw [left]
    exact role
  · rw [left]
  · rw [left, upper]
    exact le

/-! ## The manager's claim (R330) -/

/-- A claim as the manager sends it. -/
def ownClaim (s : State) : Claim where
  serial := s.otp.serial
  epoch := s.fab.epoch
  mgrSel := s.pins.mgrSel
  priority := BitVec.ofNat 8 s.fabSec.priority
  devices := s.fab.devices.setWidth 16

/-- The claim of an instant, and the ROLE that follows a periodic one where a device has joined. -/
def claimNow (periodic : Bool) (s : State) : State :=
  let c := { s with fab.claimDue := false, fab.claimMono := s.mono }
  let t := sendBroadcast (.mgrClaim (ownClaim c)) c
  if periodic && t.fab.roleDue then sendRole { t with fab.roleDue := false } else t

theorem sentMore_sendRole (s : State) : SentMore s (sendRole s) := sentMore_sendBroadcast ..

theorem claimNow_frame (periodic : Bool) (s : State) : ∃ d n q, claimNow periodic s =
    { s with fab := { s.fab with claimDue := false, claimMono := s.mono, roleDue := d, mseq := n, outq := q } } := by
  unfold claimNow
  extract_lets _ c t
  obtain ⟨n, q, e⟩ := (sentMore_sendBroadcast (.mgrClaim (ownClaim c)) c).frame
  have sent : t = { c with fab := { c.fab with mseq := n, outq := q } } := e
  clear_value t
  split
  · obtain ⟨m, r, told⟩ := (sentMore_sendRole { t with fab.roleDue := false }).frame
    refine ⟨false, m, r, told.trans ?_⟩
    rw [sent]
  · exact ⟨s.fab.roleDue, n, q, sent⟩

theorem waits_claimNow (low : p < 4) (up : (s.port p).up = true) (periodic : Bool) : Waits p (.mgrClaim (ownClaim s)) (claimNow periodic s) := by
  unfold claimNow
  extract_lets _ c t
  have waits : Waits p (.mgrClaim (ownClaim s)) t := waits_sendBroadcast (s := c) low up (.mgrClaim (ownClaim c))
  clear_value t
  split
  · exact (sentMore_sendBroadcast _ { t with fab.roleDue := false }).waits _ _ waits
  · exact waits

theorem claimNow_leaves (passed : TimePasses s v) (hs : Settled s) (periodic : Bool) : ∃ t, done (claimNow periodic v) = .next t ∧
    t = { s with tim := t.tim, fab := t.fab, out := t.out } ∧ t.fab.claimDue = false ∧ t.fab.claimMono = t.tim.mono ∧
    ∀ p < 4, (s.port p).up = true → ∃ m, Sends p (.mgrClaim m) t ∧ m.serial = s.otp.serial ∧ m.epoch = s.fab.epoch := by
  obtain ⟨d, n, q, e⟩ := claimNow_frame periodic v
  have quiet : (claimNow periodic v).flt.due = [] := by
    rw [e, passed]
    exact hs.1
  obtain ⟨x, o, left⟩ := settle_frame_of_quiet quiet
  have sends (p : Nat) (low : p < 4) (up : (s.port p).up = true) :
      ∃ m, Sends p (.mgrClaim m) (settle (claimNow periodic v)) ∧ m.serial = s.otp.serial ∧ m.epoch = s.fab.epoch := by
    have here : (v.port p).up = true := by rw [passed]; exact up
    refine ⟨ownClaim v, (waits_claimNow low here periodic).sends quiet, ?_, ?_⟩
    · rw [passed]
      rfl
    · rw [passed]
      rfl
  refine ⟨_, rfl, ?_, ?_, ?_, sends⟩
  · rw [left, e, passed]
  · rw [left, e]
  · rw [left, e]
    rfl

theorem claimSend_eq (manager : s.isManager = true) (on : s.fabricOn = true) : claimSend s =
    claimNow (!s.fab.claimDue) (if s.fab.claimDue then s else advanceTo (s.fab.claimMono + 100000000) s) := by
  rw [claimSend, if_pos (by simp [manager, on])]
  extract_lets due v _ c sent _
  have isSent : sent = sendBroadcast (.mgrClaim (ownClaim c)) c := rfl
  change _ = claimNow (!due) v
  clear_value due v
  unfold claimNow
  extract_lets told _
  have same : told = sent := isSent.symm
  clear_value sent told
  subst same
  rfl

theorem mgrClaimSend_sends (hs : Settled s) (quiet : QuietClock s) (manager : s.isManager = true) (on : s.fabricOn = true) :
    ∃ t, exec .mgrClaimSend s = .next t ∧ t = { s with tim := t.tim, fab := t.fab, out := t.out } ∧ t.fab.claimDue = false ∧
      t.fab.claimMono = t.tim.mono ∧
      ∀ p < 4, (s.port p).up = true → ∃ m, Sends p (.mgrClaim m) t ∧ m.serial = s.otp.serial ∧ m.epoch = s.fab.epoch := by
  have passed : TimePasses s (if s.fab.claimDue then s else advanceTo (s.fab.claimMono + 100000000) s) := by
    split
    · rfl
    · exact timePasses_advanceTo _ quiet
  obtain ⟨t, reached, rest⟩ := claimNow_leaves passed hs (!s.fab.claimDue)
  exact ⟨t, (congrArg done (claimSend_eq manager on)).trans reached, rest⟩

/-! ## Taking office (R304, R309, R310, R319) -/

/-- The state without what an office may change. -/
def State.offOffice (s : State) : State := { s.offFabric with gctl := {}, tim := { mono := s.tim.mono }, tck := {}, pwr := {} }

theorem frame_of_offOffice {t : State} (h : t.offOffice = s.offOffice) :
    t = { s with gctl := t.gctl, tim := t.tim, tck := t.tck, fab := t.fab, pwr := t.pwr, flt := t.flt, hst := t.hst, out := t.out } ∧
      t.tim.mono = s.tim.mono := by
  have e : t = { t.offOffice with
    gctl := t.gctl, tim := t.tim, tck := t.tck, fab := t.fab, pwr := t.pwr, flt := t.flt, hst := t.hst, out := t.out } := rfl
  have mono := congrArg (fun u : State => u.tim.mono) h
  rw [h] at e
  exact ⟨e, mono⟩

theorem offOffice_of_offFabric {t : State} (h : t.offFabric = s.offFabric) : t.offOffice = s.offOffice := by
  have mono : t.tim.mono = s.tim.mono := (congrArg (fun u : State => u.tim.mono) h : t.offFabric.tim.mono = s.offFabric.tim.mono)
  unfold State.offOffice
  rw [h, mono]

/-- What the address, the role and the manager of a device are. -/
def Fab.office (f : Fab) : BitVec 3 × BitVec 12 × BitVec 12 := (f.role, f.mgr, f.addr)

theorem office_of_unflooded {t : State} (h : t.fab.unflooded = s.fab.unflooded) : t.fab.office = s.fab.office :=
  reader_of_unflooded Fab.office (fun _ => rfl) h

/-- The EPOCH of a new manager, and its ROLE. -/
theorem sendRole_ofEpoch (e : BitVec 64) (s : State) : (sendRole (graphChanged (setEpoch e s))).offFabric = s.offFabric ∧
    (sendRole (graphChanged (setEpoch e s))).fab.office = s.fab.office := by
  obtain ⟨g, b, set_⟩ := setEpoch_frame e s
  refine ⟨by simp, (office_of_unflooded ((sendBroadcast_unflooded ..).trans (graphChanged_unflooded _))).trans ?_⟩
  rw [set_]
  rfl

theorem setRole_office (r : BitVec 3) (s : State) : (setRole r s).fab.office = (r, s.fab.mgr, s.fab.addr) := by
  obtain ⟨h, o, e⟩ := setRole_frame r s
  rw [e]
  rfl

theorem takeOffice_leaves (stby : BitVec 12) (takeover : Bool) (s : State) : (takeOffice stby takeover s).offOffice = s.offOffice ∧
    (takeOffice stby takeover s).fab.office = (roleManager, s.fab.addr, s.fab.addr) := by
  unfold takeOffice
  extract_lets sec d src now staged _ _ _ _ made heard
  obtain ⟨off, office⟩ := sendRole_ofEpoch (w64 ((heard.fab.genSeen.toNat + 1) * 0x100000000)) heard
  have madeOff : made.offOffice = s.offOffice := (offOffice_of_offFabric (setRole_offFabric _ _)).trans rfl
  have madeOffice : made.fab.office = (roleManager, s.fab.addr, s.fab.addr) := setRole_office ..
  exact ⟨(offOffice_of_offFabric off).trans madeOff, office.trans madeOffice⟩

theorem planAddrs_frame (s : State) : ∃ a, (planAddrs s).1 = { s with fab.assigned := a } := by
  unfold planAddrs
  extract_lets need
  refine List.foldlRecOn (motive := fun (acc : State × List (BitVec 64 × BitVec 12)) => ∃ a, acc.1 = { s with fab.assigned := a })
    need _ ⟨s.fab.assigned, rfl⟩ ?_
  rintro acc ⟨a, e⟩ x -
  dsimp only
  split
  · rw [e]
    exact ⟨_, rfl⟩
  · exact ⟨a, e⟩

theorem sendAddrs_leaves (l : List (BitVec 64 × BitVec 12)) (s : State) : SentMore s (sendAddrs l s) :=
  sentMore_foldl _ (fun t _ => sentMore_sendBroadcast _ t) l s

theorem SentMore.leaves {t : State} (h : SentMore s t) : t.offFabric = s.offFabric ∧ t.fab.office = s.fab.office := by
  obtain ⟨n, q, e⟩ := h.frame
  rw [e]
  exact ⟨rfl, rfl⟩

/-- The device that has won takes office. -/
theorem electSelf_leaves (s : State) : (electSelf s).offOffice = s.offOffice ∧ (electSelf s).fab.role = roleManager ∧
    (electSelf s).fab.mgr = (electSelf s).fab.addr := by
  obtain ⟨a, plan⟩ := planAddrs_frame s
  unfold electSelf
  extract_lets r mine _ _ t stby u
  have tOff : t.offOffice = s.offOffice := by
    have planned : r.1.offOffice = s.offOffice := by
      rw [show r.1 = _ from plan]
      rfl
    exact planned
  clear_value t stby
  obtain ⟨took, office⟩ := takeOffice_leaves (stby.getD 0xFFF) false t
  obtain ⟨told, same⟩ := (sendAddrs_leaves r.2 (takeOffice (stby.getD 0xFFF) false t)).leaves
  have uOff : u.offOffice = s.offOffice := (offOffice_of_offFabric told).trans (took.trans tOff)
  have uOffice : u.fab.office = (roleManager, t.fab.addr, t.fab.addr) := same.trans office
  clear_value u
  have flood : (if mine.isSome then floodLsa u else u).offFabric = u.offFabric ∧
      (if mine.isSome then floodLsa u else u).fab.office = u.fab.office := by
    split
    · exact ⟨floodLsa_offFabric u, office_of_unflooded (floodLsa_unflooded u)⟩
    · exact ⟨rfl, rfl⟩
  generalize (if mine.isSome then floodLsa u else u) = v at flood
  obtain ⟨off, kept⟩ := flood
  have made : (v.fab.role, v.fab.mgr, v.fab.addr) = (roleManager, t.fab.addr, t.fab.addr) := kept.trans uOffice
  simp only [Prod.mk.injEq] at made
  obtain ⟨role, mgr, addr⟩ := made
  exact ⟨(offOffice_of_offFabric off).trans uOff, role, mgr.trans addr.symm⟩

/-! ## The election (R309) -/

theorem electionDue_of_noManager (none_ : s.fab.mgr = 0xFFF) : ∃ m, electionDue s = some m ∧ s.fab.changeMono + s.fabSec.settle * 1000000 ≤ m :=
  ⟨_, if_pos none_, le_max_left ..⟩

/-- The judgement of an election that is due. -/
def judgeElection (s : State) : State :=
  if s.fab.dupAddr || s.fab.role = roleManager then s
  else match (s.fab.ranking s.otp.serial).head? with
    | some best => if best.lsa.serial = s.otp.serial then electSelf s else s
    | none => s

theorem elect_of_due {m : Nat} (on : s.fabricOn = true) (some_ : s.fab.db ≠ []) (due : electionDue s = some m) :
    elect s = judgeElection { advanceTo m s with fab.settled := true } := by
  unfold elect
  rw [if_neg (by simp [on, some_]), due]
  rfl

theorem judgeElection_wins {r : LsaRec} {l : List LsaRec} (whole : s.fab.dupAddr = false) (role : s.fab.role ≠ roleManager)
    (first : s.fab.ranking s.otp.serial = r :: l) (own : r.lsa.serial = s.otp.serial) : judgeElection s = electSelf s := by
  rw [judgeElection, if_neg (by simp [whole, show ¬s.fab.role = 3#3 from role]), first]
  exact if_pos own

theorem elect_wins {r : LsaRec} {l : List LsaRec} (on : s.fabricOn = true) (some_ : s.fab.db ≠ []) (none_ : s.fab.mgr = 0xFFF)
    (whole : s.fab.dupAddr = false) (role : s.fab.role ≠ roleManager) (first : s.fab.ranking s.otp.serial = r :: l)
    (own : r.lsa.serial = s.otp.serial) (quiet : QuietClock s) : ∃ v, elect s = electSelf { v with fab.settled := true } ∧ TimePasses s v ∧
      s.fab.changeMono + s.fabSec.settle * 1000000 ≤ v.tim.mono := by
  obtain ⟨m, due, late⟩ := electionDue_of_noManager none_
  have passed := timePasses_advanceTo m quiet
  have mono := (advanceTo_mono m quiet).1
  have step := elect_of_due on some_ due
  generalize advanceTo m s = v at passed mono step
  have vFab : v.fab = s.fab := by rw [passed]
  have vOtp : v.otp = s.otp := by rw [passed]
  have ranked : ({ v.fab with settled := true } : Fab).ranking v.otp.serial = r :: l := by
    have here : s.fab.ranking s.otp.serial = rankAll s.fab.db := congrArg rankAll (if_pos none_)
    rw [vFab, vOtp, ← first, here]
    exact congrArg rankAll (if_pos none_)
  refine ⟨v, step.trans (judgeElection_wins ?_ ?_ ranked (own.trans (congrArg _ vOtp.symm))), passed, late.trans mono⟩
  · exact (congrArg Fab.dupAddr vFab).trans whole
  · exact fun same => role ((congrArg Fab.role vFab).symm.trans same)

theorem election_won {r : LsaRec} {l : List LsaRec} (quiet : QuietClock s) (on : s.fabricOn = true) (some_ : s.fab.db ≠ [])
    (none_ : s.fab.mgr = 0xFFF) (whole : s.fab.dupAddr = false) (role : s.fab.role ≠ roleManager) (first : s.fab.ranking s.otp.serial = r :: l)
    (own : r.lsa.serial = s.otp.serial) : ∃ u, exec .election s = .next (settle u) ∧
      u = { s with gctl := u.gctl, tim := u.tim, tck := u.tck, fab := u.fab, pwr := u.pwr, flt := u.flt, hst := u.hst, out := u.out } ∧
      u.fab.role = roleManager ∧ u.fab.mgr = u.fab.addr ∧ s.fab.changeMono + s.fabSec.settle * 1000000 ≤ u.tim.mono := by
  obtain ⟨v, elected, passed, late⟩ := elect_wins on some_ none_ whole role first own quiet
  have step : exec .election s = done (elect s) := rfl
  rw [elected] at step
  obtain ⟨off, manager, mgr⟩ := electSelf_leaves { v with fab.settled := true }
  obtain ⟨frame, mono⟩ := frame_of_offOffice off
  generalize electSelf { v with fab.settled := true } = u at *
  refine ⟨u, step, ?_, manager, mgr, late.trans mono.ge⟩
  obtain ⟨x, before⟩ : ∃ x, v = { s with tim := x } := ⟨_, passed⟩
  rw [before] at frame
  exact frame

end

end Sys2Proof.Machine

namespace Sys2Proof
open Machine

/-- Settles O57: `electSelf_leaves` says what taking office leaves, `roleFollows_known` and `roleFollows_other` what another's ROLE does, and
`quarantined_of_run` what a device that runs leaves as it goes into QUARANTINE. -/
theorem fabricRolesAndClaims : Obligations.FabricRolesAndClaims :=
  ⟨fun _ _ _ _ quiet on some_ none_ whole role first own => election_won quiet on some_ none_ whole role first own,
    fun _ _ _ _ _ _ _ heard on role whole other mgr here found named => by
      subst mgr
      exact role_known heard on role whole other here found named,
    fun _ _ _ _ _ _ _ heard on role whole own known other notHeir run => by
      obtain ⟨u, step, ⟨keeps, grd, arc, crd, clk, tst, mem, free⟩, rest⟩ := role_stranger heard on role whole own known other notHeir run
      exact ⟨u, step, keeps, grd, arc, crd, clk, tst, mem, free, rest⟩,
    fun _ _ _ _ _ heard worker mgr run obeys => by
      obtain ⟨u, step, ⟨keeps, grd, arc, crd, clk, tst, mem, free⟩, rest⟩ := safe_obeyed heard worker mgr run obeys
      exact ⟨u, step, keeps, grd, arc, crd, clk, tst, mem, free, rest⟩,
    fun _ _ _ _ _ heard worker mgr run alone => by
      obtain ⟨u, step, ⟨keeps, grd, arc, crd, clk, tst, mem, free⟩, rest⟩ := safe_left heard worker mgr run alone
      exact ⟨u, step, keeps, grd, arc, crd, clk, tst, mem, free, rest⟩,
    fun _ hs quiet manager on => mgrClaimSend_sends hs quiet manager on,
    fun _ _ _ _ heard manager run better => by
      obtain ⟨u, step, ⟨keeps, grd, arc, crd, clk, tst, mem, free⟩, rest⟩ := mgrClaim_better heard manager run better
      exact ⟨u, step, keeps, grd, arc, crd, clk, tst, mem, free, rest⟩,
    fun _ _ _ _ heard manager worse => mgrClaim_worse heard manager worse⟩

end Sys2Proof

/-! # O60: joining, reports, verdicts and MEMBER_SEL -/
namespace Sys2Proof.Machine

section
variable {p : Nat} {hdr : MsgHdr} {s t u : State}

/-! ## A message to the device that is heard -/

theorem heard_leaves (hp : p < 4) (hdr : MsgHdr) (s : State) : ∃ q o, s.heard p hdr = { s with fab := { s.fab with ports := q }, out := o } := by
  obtain ⟨f, e⟩ := heard_frame hp hdr s
  refine ⟨tset s.fab.ports p ((s.port p).took hdr.rx), .fabric p (w64 s.stamp) f :: s.out, ?_⟩
  rw [e]
  rfl

theorem heard_steadfast (hp : p < 4) (hdr : MsgHdr) (s : State) : Steadfast s (s.heard p hdr) := by
  obtain ⟨q, o, frame⟩ := heard_leaves hp hdr s
  rw [frame]
  exact ⟨⟨rfl, rfl, rfl, rfl, rfl, rfl, rfl, rfl, rfl⟩, rfl, rfl, rfl, rfl, rfl, rfl, rfl⟩

/-! ## What the manager announces (R319, R344) -/

/-- Between the two the device has only sent messages, with a new EPOCH among them. -/
def Announced (s t : State) : Prop := ∃ c e b g n q,
  t = { s with fab := { s.fab with cnt := c, epoch := e, epochPrev := b, genSeen := g, mseq := n, outq := q } }

theorem Announced.trans (h : Announced s t) (k : Announced t u) : Announced s u := by
  obtain ⟨c, e, b, g, n, q, rfl⟩ := h
  exact k

/-- Between the two the device has only sent messages. -/
def Dispatched (s t : State) : Prop := ∃ c n q, t = { s with fab := { s.fab with cnt := c, mseq := n, outq := q } }

theorem Dispatched.announced (h : Dispatched s t) : Announced s t := by
  obtain ⟨c, n, q, e⟩ := h
  exact ⟨c, s.fab.epoch, s.fab.epochPrev, s.fab.genSeen, n, q, e⟩

theorem SentMore.dispatched (h : SentMore s t) : Dispatched s t := by
  obtain ⟨n, q, e⟩ := h.frame
  exact ⟨s.fab.cnt, n, q, e⟩

theorem dispatched_sendTo (dst : BitVec 12) (replyReq : Bool) (m : FabMsg) (s : State) : Dispatched s (sendTo dst replyReq m s) := by
  unfold sendTo
  extract_lets h _ v
  split
  · split
    · exact (sentMore_sendPort _ h m v).dispatched
    · exact ⟨_, _, _, rfl⟩
  · exact ⟨_, _, _, rfl⟩

theorem Dispatched.epoch (h : Dispatched s t) : t.fab.epoch = s.fab.epoch := by
  obtain ⟨c, n, q, e⟩ := h
  rw [e]

theorem epochUp_zero (s : State) : epochUp 0 s = s := if_pos rfl

theorem announced_epochUp (k : Nat) (s : State) : Announced s (epochUp k s) := by
  unfold epochUp
  split
  · exact ⟨_, _, _, _, _, _, rfl⟩
  · obtain ⟨g, b, set_⟩ := setEpoch_frame (w64 ((hi32 s.fab.epoch).toNat * 0x100000000 + ((lo32 s.fab.epoch).toNat + k) % 0x100000000)) s
    rw [set_]
    exact .trans ⟨_, _, b, g, _, _, rfl⟩ (sentMore_sendRole _).dispatched.announced

theorem announced_budgetFor (a : BitVec 12) (s : State) : Announced s (budgetFor a s) := by
  unfold budgetFor
  split
  · exact (dispatched_sendTo ..).announced
  · exact ⟨_, _, _, _, _, _, rfl⟩

/-- A command that ends in announcements leaves the manager's table. -/
theorem Announced.settles (h : Announced s t) (quiet : s.flt.due = []) : (settle t) = { s with fab := (settle t).fab, out := (settle t).out } ∧
    (settle t).fab.members = s.fab.members ∧ (settle t).fab.acnt = s.fab.acnt ∧ (settle t).fab.epoch = t.fab.epoch := by
  obtain ⟨c, e, b, g, n, q, frame⟩ := h
  have still : t.flt.due = [] := by rw [frame]; exact quiet
  obtain ⟨r, o, left⟩ := settle_frame_of_quiet still
  rw [left, frame]
  exact ⟨rfl, rfl, rfl, rfl⟩

/-! ## The manager's table (R321, R323) -/

theorem member_putMember (f : Fab) (m : Member) : (f.putMember m).member m.addr = some m := by
  simp [Fab.member, Fab.putMember]

theorem addr_of_member {f : Fab} {a : BitVec 12} {m : Member} (h : f.member a = some m) : m.addr = a := by
  simpa using List.find?_some h

/-! ## Joining (R318, R321) -/

/-- What the manager notes of a worker whose JOIN_REQ it judges. -/
def joinNote (src : BitVec 12) (j : JoinReq) (s : State) : Member :=
  { (s.fab.member src).getD { addr := src } with
    serial := j.serial, digest := some j.digest, compat := j.compat, digestPrefix := some (digestPrefixOf j.digest), cause := 0, missing := 0, prefixBad := 0 }

theorem addr_joinNote (src : BitVec 12) (j : JoinReq) (s : State) : (joinNote src j s).addr = src := by
  show ((s.fab.member src).getD { addr := src }).addr = src
  cases known : s.fab.member src with
  | none => rfl
  | some m => exact addr_of_member known

/-- The manager has noted that worker, counted the judgement at `i`, and announced it. -/
structure JoinAnswered (hdr : MsgHdr) (i : Nat) (m : Member) (s t : State) : Prop where
  announced : Announced { s with fab := (s.fab.acount i).putMember m } t
  addr : m.addr = hdr.src

theorem joinTaken_admits {j : JoinReq} (manager : s.isManager = true) (sound : joinJudge j s = none) : ∃ m,
    JoinAnswered hdr 0 m s (joinTaken hdr j s).1 ∧ m.mstate = 1 ∧ m.serial = j.serial ∧ m.cause = 0 := by
  unfold joinTaken
  rw [if_neg (by simp [manager])]
  extract_lets old was m
  rw [sound]
  dsimp only
  refine ⟨{ joinNote hdr.src j s with mstate := 1, since := if was then old.since else some s.tck.index },
    ⟨(announced_epochUp 1 _).trans ((dispatched_sendTo ..).announced.trans (announced_budgetFor ..)), addr_joinNote hdr.src j s⟩, rfl, rfl, rfl⟩

theorem joinTaken_fences {j : JoinReq} {c : BitVec 4} (manager : s.isManager = true) (fails : joinJudge j s = some c) : ∃ m,
    JoinAnswered hdr 1 m s (joinTaken hdr j s).1 ∧ m.mstate = 2 ∧ m.cause = c ∧
      ((∀ x, s.fab.member hdr.src = some x → x.mstate ≠ 1) → (joinTaken hdr j s).1.fab.epoch = s.fab.epoch) := by
  unfold joinTaken
  rw [if_neg (by simp [manager])]
  extract_lets old was m
  rw [fails]
  dsimp only
  refine ⟨{ joinNote hdr.src j s with mstate := 2, cause := c },
    ⟨(announced_epochUp (b2n was) _).trans (dispatched_sendTo ..).announced, addr_joinNote hdr.src j s⟩, rfl, rfl, fun outside => ?_⟩
  have other : ¬old.mstate = 1 := by
    unfold old
    cases known : s.fab.member hdr.src with
    | none => exact (by decide : (0 : BitVec 2) ≠ 1)
    | some x => exact outside x known
  have notWas : b2n was = 0 := congrArg b2n (decide_eq_false other)
  rw [notWas, epochUp_zero]
  exact (dispatched_sendTo ..).epoch

/-- The manager's answer to a JOIN_REQ as the command ends. -/
theorem joinReq_answered {j : JoinReq} {i : Nat} {m : Member} (heard : Unicast p hdr s) (low : i < 7)
    (answered : JoinAnswered hdr i m (s.heard p hdr) (joinTaken hdr j (s.heard p hdr)).1) : ∃ t, exec (.joinReq p hdr j) s = .next t ∧
      t = { s with fab := t.fab, out := t.out } ∧ t.fab.member hdr.src = some m ∧ tget t.fab.acnt i = satInc (tget s.fab.acnt i) ∧
      t.fab.epoch = (joinTaken hdr j (s.heard p hdr)).1.fab.epoch := by
  have step : exec (.joinReq p hdr j) s = done (joinTaken hdr j (s.heard p hdr)).1 := congrArg done (arrive_of_unicast heard _ _ _)
  generalize (joinTaken hdr j (s.heard p hdr)).1 = v at *
  obtain ⟨announced, addr⟩ := answered
  obtain ⟨q, o, frame⟩ := heard_leaves heard.1.2.1 hdr s
  rw [frame] at announced
  obtain ⟨left, members, acnt, epoch⟩ := announced.settles heard.1.1.1
  refine ⟨settle v, step, left, ?_, ?_, epoch⟩
  · have found : (settle v).fab.member m.addr = some m := by
      unfold Fab.member
      rw [members]
      exact member_putMember _ m
    rwa [addr] at found
  · rw [acnt]
    exact tget_tinc_same _ low

theorem fabSec_heard (hp : p < 4) : (s.heard p hdr).fabSec = s.fabSec ∧ (s.heard p hdr).otp = s.otp ∧ (s.heard p hdr).im = s.im ∧
    (s.heard p hdr).isManager = s.isManager ∧ (s.heard p hdr).isWorker = s.isWorker ∧ (s.heard p hdr).fab.epoch = s.fab.epoch := by
  obtain ⟨q, o, frame⟩ := heard_leaves hp hdr s
  rw [frame]
  exact ⟨rfl, rfl, rfl, rfl, rfl, rfl⟩

theorem members_heard (hp : p < 4) (a : BitVec 12) : (s.heard p hdr).fab.member a = s.fab.member a := by
  obtain ⟨q, o, frame⟩ := heard_leaves hp hdr s
  rw [frame]
  rfl

theorem joinJudge_sound {j : JoinReq} (fw : fwAgree s.otp.fwVer j.fwVer = true) (digest : j.digest = s.im.hdr.digest)
    (time : s.fabSec.rejoin ≤ j.timeOk.toNat) : joinJudge j s = none := by
  unfold joinJudge
  rw [if_neg (by simp [fw]), if_neg (by simp [compatible, digest]), if_neg (by simp [time])]

theorem joinReq_admits {j : JoinReq} (heard : Unicast p hdr s) (manager : s.isManager = true) (fw : fwAgree s.otp.fwVer j.fwVer = true)
    (digest : j.digest = s.im.hdr.digest) (time : s.fabSec.rejoin ≤ j.timeOk.toNat) : ∃ t m, exec (.joinReq p hdr j) s = .next t ∧
      t = { s with fab := t.fab, out := t.out } ∧ t.fab.member hdr.src = some m ∧ m.mstate = 1 ∧ m.serial = j.serial ∧ m.cause = 0 ∧
      tget t.fab.acnt 0 = satInc (tget s.fab.acnt 0) := by
  obtain ⟨sec, otp, im, same, -⟩ := fabSec_heard (hdr := hdr) (s := s) heard.1.2.1
  have sound : joinJudge j (s.heard p hdr) = none := by
    rw [← otp] at fw
    rw [← im] at digest
    rw [← sec] at time
    exact joinJudge_sound fw digest time
  obtain ⟨m, answered, state, serial, cause⟩ := joinTaken_admits (same.trans manager) sound
  obtain ⟨t, step, frame, member, cnt, -⟩ := joinReq_answered heard (by decide) answered
  exact ⟨t, m, step, frame, member, state, serial, cause, cnt⟩

theorem joinReq_fences {j : JoinReq} (heard : Unicast p hdr s) (manager : s.isManager = true) (fw : fwAgree s.otp.fwVer j.fwVer = false) :
    ∃ t m, exec (.joinReq p hdr j) s = .next t ∧ t = { s with fab := t.fab, out := t.out } ∧ t.fab.member hdr.src = some m ∧ m.mstate = 2 ∧
      m.cause = 1 ∧ ((∀ x, s.fab.member hdr.src = some x → x.mstate ≠ 1) → t.fab.epoch = s.fab.epoch) ∧
      tget t.fab.acnt 1 = satInc (tget s.fab.acnt 1) := by
  obtain ⟨-, otp, -, same, -, was⟩ := fabSec_heard (hdr := hdr) (s := s) heard.1.2.1
  have fails : joinJudge j (s.heard p hdr) = some acFirmware := if_pos (by simp [otp, fw])
  obtain ⟨m, answered, state, cause, epoch⟩ := joinTaken_fences (same.trans manager) fails
  obtain ⟨t, step, frame, member, cnt, left⟩ := joinReq_answered heard (by decide) answered
  refine ⟨t, m, step, frame, member, state, cause, fun outside => left.trans ((epoch fun x known => ?_).trans was), cnt⟩
  exact outside x ((members_heard heard.1.2.1 hdr.src).symm.trans known)

/-! ## JOIN_ACK (R321, R322) -/

theorem exec_joinAck (heard : Unicast p hdr s) (a : JoinAck) : exec (.joinAck p hdr a) s = done (joinAckTaken hdr a (s.heard p hdr)) :=
  congrArg done (arrive_of_unicast heard _ _ _)

/-- What the answer OK leaves of a worker. -/
def joinAdmitted (a : JoinAck) (s : State) : State :=
  { s with fab := { s.fab.acount 0 with mgrDigest := a.digest, mgrCompat := a.compat, joined := true, mgrSafe := false
                                        cause := if s.mode = .quarantine then s.fab.cause else 0 }
           gctl.admitted := s.mode = .quarantine }

/-- What another answer leaves of a worker before it leaves. -/
def joinRefused (a : JoinAck) (s : State) : State :=
  { s with fab := { s.fab.acount 1 with mgrDigest := a.digest, mgrCompat := a.compat, joinMono := s.mono } }

theorem joinAckTaken_of_known {a : JoinAck} (worker : s.isWorker = true) (mgr : hdr.src = s.fab.mgr) : joinAckTaken hdr a s =
    if a.status = stOk then joinAdmitted a s else quarantine (a.cause.setWidth 4) (joinRefused a s) := by
  rw [joinAckTaken, if_neg (by simp [worker, mgr])]
  rfl

theorem joinAck_taken {a : JoinAck} (heard : Unicast p hdr s) (worker : s.isWorker = true) (mgr : hdr.src = s.fab.mgr) (armed : s.mode = .armed)
    (ok : a.status = 0x00) : ∃ t, exec (.joinAck p hdr a) s = .next t ∧
      t = { s with gctl := t.gctl, fab := t.fab, flt := t.flt, hst := t.hst, out := t.out } ∧ t.fab.joined = true ∧ t.fab.cause = 0 ∧
      t.fab.mgrDigest = a.digest ∧ t.mode = .armed := by
  have settled : Settled (joinAdmitted a (s.heard p hdr)) := heard.1.1.heard heard.1.2.1 hdr
  obtain ⟨q, o, frame⟩ := heard_leaves heard.1.2.1 hdr s
  have step := exec_joinAck heard a
  rw [frame] at step settled
  rw [joinAckTaken_of_known (s := { s with fab := { s.fab with ports := q }, out := o }) worker mgr, if_pos ok] at step
  refine ⟨_, step.trans (done_of_settled settled), rfl, rfl, ?_, rfl, armed⟩
  exact if_neg (show ¬s.mode = .quarantine by rw [armed]; decide)

theorem joinAck_fenced {a : JoinAck} (heard : Unicast p hdr s) (worker : s.isWorker = true) (mgr : hdr.src = s.fab.mgr) (armed : s.mode = .armed)
    (bad : a.status ≠ 0x00) : ∃ u, exec (.joinAck p hdr a) s = .next (settle u) ∧ Steadfast s u ∧ u.mode = .quarantine ∧
      u.fab.cause = BitVec.setWidth 4 a.cause ∧ u.fab.joined = false := by
  obtain ⟨q, o, frame⟩ := heard_leaves heard.1.2.1 hdr s
  have step := exec_joinAck heard a
  have kept : Steadfast s (joinRefused a (s.heard p hdr)) := heard_steadfast heard.1.2.1 hdr s
  rw [frame] at step kept
  rw [joinAckTaken_of_known (s := { s with fab := { s.fab with ports := q }, out := o }) worker mgr, if_neg bad] at step
  have left := quarantined_of (s := joinRefused a { s with fab := { s.fab with ports := q }, out := o }) (.inl armed) (a.cause.setWidth 4)
  refine ⟨_, step, kept.trans left.steadfast, left.mode, ?_, ?_⟩
  · rw [left.fab]
  · rw [left.fab]

/-! ## Reports and verdicts (R323) -/

/-- The manager's table with a report. -/
def reportNote (r : ReportMsg) (m : Member) (s : State) : State :=
  { s with fab := s.fab.putMember { m with report := if r.index = s.tck.index then some r else m.report, offset := r.offset } }

theorem reportTaken_of_member {r : ReportMsg} {m : Member} (manager : s.isManager = true) (known : s.fab.member hdr.src = some m) :
    reportTaken hdr r s = reportNote r m s := by
  rw [reportTaken, if_neg (by simp [manager]), known]
  rfl

theorem member_reportNote {a : BitVec 12} {m : Member} (known : s.fab.member a = some m) (r : ReportMsg) : (reportNote r m s).fab.member a =
    some { m with report := if r.index = s.tck.index then some r else m.report, offset := r.offset } := by
  obtain rfl := addr_of_member known
  exact member_putMember s.fab { m with report := if r.index = s.tck.index then some r else m.report, offset := r.offset }

theorem report_kept {r : ReportMsg} {m : Member} (heard : Unicast p hdr s) (manager : s.isManager = true) (known : s.fab.member hdr.src = some m) :
    ∃ t, exec (.report p hdr r) s = .next t ∧ t = { s with fab := t.fab, out := t.out } ∧
      t.fab.member hdr.src = some { m with report := if r.index = s.tck.index then some r else m.report, offset := r.offset } := by
  have settled : Settled (reportNote r m (s.heard p hdr)) := heard.1.1.heard heard.1.2.1 hdr
  obtain ⟨-, -, -, same, -⟩ := fabSec_heard (hdr := hdr) (s := s) heard.1.2.1
  have known' := (members_heard (hdr := hdr) (s := s) heard.1.2.1 hdr.src).trans known
  have step : exec (.report p hdr r) s = done (reportTaken hdr r (s.heard p hdr)) := congrArg done (arrive_of_unicast heard _ _ _)
  rw [reportTaken_of_member (same.trans manager) known', done_of_settled settled] at step
  have noted := member_reportNote known' r
  obtain ⟨q, o, frame⟩ := heard_leaves heard.1.2.1 hdr s
  rw [frame] at step noted
  exact ⟨_, step, rfl, noted⟩

theorem verdictTaken_of_known {c a : Byte} (worker : s.isWorker = true) (mgr : hdr.src = s.fab.mgr) : verdictTaken hdr c a s =
    if a = 2 then quarantine (c.setWidth 4) { s with fab := s.fab.acount 2 }
    else if a = 1 then { s with fab := { s.fab.acount 3 with joined := false, cause := c.setWidth 4, joinSent := false } }
    else s :=
  if_neg (by simp [worker, mgr])

theorem exec_verdict (heard : Unicast p hdr s) (c a : Byte) (e : BitVec 64) : exec (.verdict p hdr c a e) s = done (verdictTaken hdr c a (s.heard p hdr)) :=
  congrArg done (arrive_of_unicast heard _ _ _)

theorem verdict_quarantines {c : Byte} {e : BitVec 64} (heard : Unicast p hdr s) (worker : s.isWorker = true) (mgr : hdr.src = s.fab.mgr)
    (run : s.mode = .run) : ∃ u, exec (.verdict p hdr c 2 e) s = .next (settle u) ∧ Steadfast s u ∧ u.mode = .quarantine ∧
      u.fab.cause = BitVec.setWidth 4 c ∧ u.fab.joined = false := by
  have step := exec_verdict heard c 2 e
  have kept : Steadfast s { s.heard p hdr with fab := (s.heard p hdr).fab.acount 2 } := heard_steadfast heard.1.2.1 hdr s
  obtain ⟨q, o, frame⟩ := heard_leaves heard.1.2.1 hdr s
  rw [frame] at step kept
  rw [verdictTaken_of_known (s := { s with fab := { s.fab with ports := q }, out := o }) worker mgr, if_pos rfl] at step
  have left := quarantined_of_run (s := { s with fab := ({ s.fab with ports := q } : Fab).acount 2, out := o }) run (c.setWidth 4)
  refine ⟨_, step, kept.trans left.steadfast, left.mode, ?_, ?_⟩
  · rw [left.fab]
  · rw [left.fab]

theorem verdict_fences {c : Byte} {e : BitVec 64} (heard : Unicast p hdr s) (worker : s.isWorker = true) (mgr : hdr.src = s.fab.mgr) :
    exec (.verdict p hdr c 1 e) s = .next { s.heard p hdr with
      fab.acnt := tinc s.fab.acnt 3, fab.joined := false, fab.cause := BitVec.setWidth 4 c, fab.joinSent := false } := by
  have step := exec_verdict heard c 1 e
  have settled : Settled { s.heard p hdr with
      fab.acnt := tinc s.fab.acnt 3, fab.joined := false, fab.cause := BitVec.setWidth 4 c, fab.joinSent := false } := heard.1.1.heard heard.1.2.1 hdr
  rw [← done_of_settled settled]
  obtain ⟨q, o, frame⟩ := heard_leaves heard.1.2.1 hdr s
  rw [frame] at step ⊢
  rw [verdictTaken_of_known (s := { s with fab := { s.fab with ports := q }, out := o }) worker mgr, if_neg (by decide), if_pos rfl] at step
  exact step

/-! ## MEMBER_SEL (R323) -/

theorem memberSelect_reads {src : Source} {n : BitVec 10} {m : Member} (hs : Settled s) (hears : s.hears src = true)
    (fromArmed : s.mode.fromArmed = true) (manager : s.isManager = true) (known : s.fab.member (BitVec.setWidth 12 n) = some m) :
    exec (.memberSelect src n) s = .next { s with
      fab.memberSel := n, fab.mstate := m.mstate, fab.mcause := m.cause, fab.moffset := m.offset } := by
  have step : exec (.memberSelect src n) s = done (memberSelWrite n s) :=
    congrArg done (judged_of_fromArmed (row := 23) hears fromArmed rfl (by decide) _)
  rw [memberSelWrite, if_pos manager, known] at step
  exact step.trans (done_of_settled hs)

end

end Sys2Proof.Machine

namespace Sys2Proof
open Machine

/-- Settles O60: `joinTaken_admits` and `joinTaken_fences` say what the manager makes of a JOIN_REQ, `quarantined_of` what a worker leaves as it
goes into QUARANTINE. -/
theorem fabricMembership : Obligations.FabricMembership :=
  ⟨fun _ _ _ _ heard manager fw digest time => joinReq_admits heard manager fw digest time,
    fun _ _ _ _ heard manager fw => joinReq_fences heard manager fw,
    fun _ _ _ _ heard worker mgr armed ok => joinAck_taken heard worker mgr armed ok,
    fun _ _ _ _ heard worker mgr armed bad => by
      obtain ⟨u, step, ⟨keeps, grd, arc, crd, clk, tst, mem, free⟩, rest⟩ := joinAck_fenced heard worker mgr armed bad
      exact ⟨u, step, keeps, grd, arc, crd, clk, tst, mem, free, rest⟩,
    fun _ _ _ _ _ heard manager known => report_kept heard manager known,
    fun _ _ _ _ _ heard worker mgr run => by
      obtain ⟨u, step, ⟨keeps, grd, arc, crd, clk, tst, mem, free⟩, rest⟩ := verdict_quarantines heard worker mgr run
      exact ⟨u, step, keeps, grd, arc, crd, clk, tst, mem, free, rest⟩,
    fun _ _ _ _ _ heard worker mgr => verdict_fences heard worker mgr,
    fun _ _ _ _ hs hears fromArmed manager known => memberSelect_reads hs hears fromArmed manager known⟩

end Sys2Proof

/-! # O56: link-state advertisements, assignments and routes -/
namespace Sys2Proof.Machine

section
variable {p : Nat} {hdr : MsgHdr} {s t u v : State}

/-! ## Time, then the fabric -/

theorem frame_of_passed (passed : TimePasses s v) (h : u.offFabric = v.offFabric) :
    u = { s with tim := u.tim, fab := u.fab, flt := u.flt, hst := u.hst, out := u.out } ∧ u.tim = v.tim := by
  obtain ⟨x, before⟩ : ∃ x, v = { s with tim := x } := ⟨_, passed⟩
  have frame := frame_of_offFabric h
  have tim : u.tim = v.tim := (congrArg State.tim h : u.offFabric.tim = v.offFabric.tim)
  refine ⟨?_, tim⟩
  rw [before] at frame tim
  rw [frame]

theorem otp_of_offFabric (h : t.offFabric = s.offFabric) : t.otp = s.otp :=
  (congrArg State.otp h : t.offFabric.otp = s.offFabric.otp)

theorem heardCast_offFabric (p : Nat) (hdr : MsgHdr) (s : State) : (s.heardCast p hdr).offFabric = s.offFabric := heard_offFabric p hdr s

theorem Settled.heardCast (hs : Settled s) (hp : p < 4) (hdr : MsgHdr) : Settled (s.heardCast p hdr) := hs.heard hp hdr

/-! ## The database (R306) -/

theorem lsaOf_store_same (f : Fab) (r : LsaRec) : (f.store r).lsaOf r.lsa.serial = some r := by
  have gone : (f.db.filter (fun q => q.lsa.serial ≠ r.lsa.serial)).find? (fun q => q.lsa.serial = r.lsa.serial) = none := by
    simp
  simp only [Fab.lsaOf, Fab.store, List.find?_append, gone]
  simp

theorem lsaOf_store_other (f : Fab) {r : LsaRec} {x : BitVec 64} (h : x ≠ r.lsa.serial) : (f.store r).lsaOf x = f.lsaOf x := by
  have kept : (f.db.filter (fun q => q.lsa.serial ≠ r.lsa.serial)).find? (fun q => q.lsa.serial = x) = f.db.find? (fun q => q.lsa.serial = x) := by
    rw [List.find?_filter]
    congr 1
    funext q
    by_cases same : q.lsa.serial = x
    · simp [same, h]
    · simp [same]
  simp only [Fab.lsaOf, Fab.store, List.find?_append, kept]
  simp [Ne.symm h]

theorem mem_store {f : Fab} {r q : LsaRec} (h : q ∈ (f.store r).db) : q ∈ f.db ∨ q = r := by
  obtain old | new := List.mem_append.mp h
  · exact .inl (List.mem_of_mem_filter old)
  · exact .inr (List.mem_singleton.mp new)

/-- What a change of the graph and a flood leave of the fabric, but for the database and the number of the LSA. -/
def Regraphed (f g : Fab) : Prop := ∃ c r d h e m b n q,
  g = { f with cnt := c, routes := r, devices := d, hopsMgr := h, deep := e, changeMono := m, settled := b, mseq := n, outq := q }

theorem Regraphed.trans {f g h : Fab} (k : Regraphed f g) (l : Regraphed g h) : Regraphed f h := by
  obtain ⟨c, r, d, x, e, m, b, n, q, rfl⟩ := k
  exact l

theorem Regraphed.db {f g : Fab} (h : Regraphed f g) : g.db = f.db := by
  obtain ⟨c, r, d, x, e, m, b, n, q, rfl⟩ := h
  rfl

theorem Regraphed.lsaOf {f g : Fab} (h : Regraphed f g) (x : BitVec 64) : g.lsaOf x = f.lsaOf x := by
  rw [Fab.lsaOf, h.db, Fab.lsaOf]

theorem Regraphed.lsaSeq {f g : Fab} (h : Regraphed f g) : g.lsaSeq = f.lsaSeq ∧ g.lsaMono = f.lsaMono := by
  obtain ⟨c, r, d, x, e, m, b, n, q, rfl⟩ := h
  exact ⟨rfl, rfl⟩

theorem Regraphed.addr {f g : Fab} (h : Regraphed f g) : g.addr = f.addr ∧ g.dupAddr = f.dupAddr := by
  obtain ⟨c, r, d, x, e, m, b, n, q, rfl⟩ := h
  exact ⟨rfl, rfl⟩

theorem regraphed_sent (h : SentMore s t) : Regraphed s.fab t.fab := by
  obtain ⟨n, q, e⟩ := h.frame
  rw [e]
  exact ⟨_, _, _, _, _, _, _, n, q, rfl⟩

theorem regraphed_graphChanged (s : State) : Regraphed s.fab (graphChanged s).fab := by
  unfold graphChanged
  extract_lets routes _ t _ _ _ _ u
  have routed : Regraphed s.fab t.fab := by
    unfold t
    split_ifs
    · exact ⟨_, _, _, _, _, _, _, _, _, rfl⟩
    · exact ⟨_, _, _, _, _, _, _, _, _, rfl⟩
  have kept : Regraphed s.fab u.fab := routed.trans ⟨_, _, _, _, _, _, _, _, _, rfl⟩
  clear_value u
  split_ifs
  · exact (fabVec_fab u).symm ▸ kept
  · exact (fabVec_fab u).symm ▸ kept
  · exact kept

theorem regraphed_storeLsa (r : LsaRec) (s : State) : Regraphed (s.fab.store r) (storeLsa r s).fab := by
  unfold storeLsa
  extract_lets same t
  split_ifs
  · exact ⟨_, _, _, _, _, _, _, _, _, rfl⟩
  · exact .trans ⟨_, _, _, _, _, _, _, _, _, rfl⟩ (regraphed_graphChanged { t with fab.changeMono := t.mono, fab.settled := false })

/-! ## A flood (R306) -/

/-- The device's LSA as a flood at this instant gives it. -/
def ownRec (s : State) : LsaRec := { lsa := { ownLsa s with seq := s.fab.lsaSeq + 1 }, addr := s.fab.addr, mono := s.mono }

theorem floodLsa_fab (on : s.fabricOn = true) :
    Regraphed { s.fab.store (ownRec s) with lsaSeq := s.fab.lsaSeq + 1, lsaMono := s.mono } (floodLsa s).fab := by
  have step : floodLsa s = sendBroadcast (.lsa (ownLsa { s with fab.lsaSeq := s.fab.lsaSeq + 1, fab.lsaMono := s.mono }))
    (storeLsa (ownRec s) { s with fab.lsaSeq := s.fab.lsaSeq + 1, fab.lsaMono := s.mono }) := if_pos on
  rw [step]
  exact (regraphed_storeLsa (ownRec s) { s with fab.lsaSeq := s.fab.lsaSeq + 1, fab.lsaMono := s.mono }).trans
    (regraphed_sent (sentMore_sendBroadcast _ _))

theorem floodLsa_off (off : ¬s.fabricOn = true) : floodLsa s = s := if_neg off

theorem mem_db_floodLsa {r : LsaRec} (h : r ∈ (floodLsa s).fab.db) : r ∈ s.fab.db ∨ r.lsa.serial = s.otp.serial := by
  by_cases on : s.fabricOn = true
  · rw [(floodLsa_fab on).db] at h
    obtain old | rfl := mem_store h
    · exact .inl old
    · exact .inr rfl
  · rw [floodLsa_off on] at h
    exact .inl h

theorem lsaOf_floodLsa_other {x : BitVec 64} (other : x ≠ s.otp.serial) : (floodLsa s).fab.lsaOf x = s.fab.lsaOf x := by
  by_cases on : s.fabricOn = true
  · rw [(floodLsa_fab on).lsaOf]
    exact lsaOf_store_other s.fab other
  · rw [floodLsa_off on]

/-! ## What follows a change of the database (R305, R328) -/

theorem trackLoss_frame (s : State) : ∃ l o, trackLoss s = { s with fab := { s.fab with lostMono := l, orphan := o } } := by
  unfold trackLoss
  extract_lets f has
  split
  · exact ⟨_, _, rfl⟩
  · exact ⟨_, _, rfl⟩

/-- A device whose address is disputed neither now nor by a lower SERIAL has nothing to judge. -/
theorem judgeDup_undisputed (whole : s.fab.dupAddr = false) (rank : ∀ r ∈ s.fab.db, r.addr = s.fab.addr → s.otp.serial.toNat ≤ r.lsa.serial.toNat) :
    judgeDup s = s := by
  have first : s.fab.db.any (fun r => r.addr = s.fab.addr && r.lsa.serial.toNat < s.otp.serial.toNat) = false := by
    rw [List.any_eq_false]
    intro r mem
    simp only [Bool.and_eq_true, decide_eq_true_eq, not_and, not_lt]
    exact rank r mem
  unfold judgeDup
  dsimp only
  rw [if_neg (by simp [whole]), if_neg (by simp [first])]

/-- An address that is judged changes the database by a flood alone. -/
def FloodedFrom (s t : State) : Prop := t.fab.db = s.fab.db ∨ ∃ v, t = floodLsa v ∧ v.fab.db = s.fab.db ∧ v.otp = s.otp

theorem judgeDup_floods (s : State) : FloodedFrom s (judgeDup s) := by
  unfold judgeDup
  extract_lets f w
  split
  · split
    · exact .inl rfl
    · exact .inl rfl
  · split
    · have db : w.fab.db = s.fab.db := by
        show (fabVec _).fab.db = _
        rw [fabVec_fab]
      have off : w.offFabric = s.offFabric := (raiseDet_offFabric ..).trans (fabVec_offFabric _)
      clear_value w
      refine .inr ⟨setRole roleNone w, rfl, ?_, ?_⟩
      · obtain ⟨h, o, e⟩ := setRole_frame roleNone w
        rw [e]
        exact db
      · exact otp_of_offFabric ((setRole_offFabric roleNone w).trans off)
    · exact .inl rfl

theorem dbChanged_floods (s : State) : FloodedFrom s (dbChanged s) := by
  obtain ⟨l, o, tracked⟩ := trackLoss_frame s
  rw [dbChanged, tracked]
  exact judgeDup_floods { s with fab := { s.fab with lostMono := l, orphan := o } }

theorem FloodedFrom.mem {r : LsaRec} (h : FloodedFrom s t) (mem : r ∈ t.fab.db) : r ∈ s.fab.db ∨ r.lsa.serial = s.otp.serial := by
  obtain same | ⟨v, rfl, db, otp⟩ := h
  · exact .inl (same ▸ mem)
  · rw [← db, ← otp]
    exact mem_db_floodLsa mem

theorem FloodedFrom.lsaOf_other {x : BitVec 64} (h : FloodedFrom s t) (other : x ≠ s.otp.serial) : t.fab.lsaOf x = s.fab.lsaOf x := by
  obtain same | ⟨v, rfl, db, otp⟩ := h
  · rw [Fab.lsaOf, same, Fab.lsaOf]
  · rw [lsaOf_floodLsa_other (otp ▸ other), Fab.lsaOf, db, Fab.lsaOf]

/-! ## LSA_REFRESH (R306) -/

theorem refresh_leaves (passed : TimePasses s v) (on : s.fabricOn = true) (whole : s.fab.dupAddr = false)
    (rank : ∀ r ∈ s.fab.db, r.addr = s.fab.addr → s.otp.serial.toNat ≤ r.lsa.serial.toNat) (eq : u = dbChanged (floodLsa v)) :
    u = { s with tim := u.tim, fab := u.fab, flt := u.flt, hst := u.hst, out := u.out } ∧ u.tim = v.tim ∧
      u.fab.lsaSeq = s.fab.lsaSeq + 1 ∧ u.fab.lsaMono = v.tim.mono ∧
      ∃ r, u.fab.lsaOf s.otp.serial = some r ∧ r.lsa.seq = u.fab.lsaSeq ∧ r.addr = s.fab.addr := by
  have off : u.offFabric = v.offFabric := by
    rw [eq, dbChanged_offFabric, floodLsa_offFabric]
  obtain ⟨frame, tim⟩ := frame_of_passed passed off
  obtain ⟨x, before⟩ : ∃ x, v = { s with tim := x } := ⟨_, passed⟩
  have vOn : v.fabricOn = true := by rw [before]; exact on
  have flooded := floodLsa_fab vOn
  have otp : (floodLsa v).otp = v.otp := otp_of_offFabric (floodLsa_offFabric v)
  obtain ⟨l, o, tracked⟩ := trackLoss_frame (floodLsa v)
  have undisputed : dbChanged (floodLsa v) = { floodLsa v with fab := { (floodLsa v).fab with lostMono := l, orphan := o } } := by
    rw [dbChanged, tracked]
    refine judgeDup_undisputed ?_ fun r mem same => ?_
    · exact flooded.addr.2.trans (by rw [before]; exact whole)
    · have here : r.addr = v.fab.addr := same.trans flooded.addr.1
      show (floodLsa v).otp.serial.toNat ≤ _
      rw [otp]
      obtain old | own := mem_db_floodLsa mem
      · rw [before] at old here ⊢
        exact rank r old here
      · rw [own]
  refine ⟨frame, tim, ?_, ?_, ownRec v, ?_, ?_, ?_⟩
  · rw [eq, undisputed]
    exact flooded.lsaSeq.1.trans (by rw [before])
  · rw [eq, undisputed]
    exact flooded.lsaSeq.2
  · rw [eq, undisputed]
    refine (flooded.lsaOf s.otp.serial).trans ?_
    have same : s.otp.serial = (ownRec v).lsa.serial := by rw [before]; rfl
    rw [same]
    exact lsaOf_store_same v.fab (ownRec v)
  · rw [eq, undisputed]
    exact flooded.lsaSeq.1.symm
  · rw [before]
    rfl

theorem lsaRefresh_floods (quiet : QuietClock s) (on : s.fabricOn = true) (whole : s.fab.dupAddr = false)
    (rank : ∀ r ∈ s.fab.db, r.addr = s.fab.addr → s.otp.serial.toNat ≤ r.lsa.serial.toNat) : ∃ u, exec .lsaRefresh s = .next (settle u) ∧
      u = { s with tim := u.tim, fab := u.fab, flt := u.flt, hst := u.hst, out := u.out } ∧
      u.fab.lsaSeq = s.fab.lsaSeq + 1 ∧ u.fab.lsaMono = u.tim.mono ∧ s.fab.lsaMono + 100000000 ≤ u.tim.mono ∧
      ∃ r, u.fab.lsaOf s.otp.serial = some r ∧ r.lsa.seq = u.fab.lsaSeq ∧ r.addr = s.fab.addr := by
  have step : exec .lsaRefresh s = done (dbChanged (floodLsa (advanceTo (s.fab.lsaMono + 100000000) s))) := congrArg done (if_pos on)
  have passed := timePasses_advanceTo (s.fab.lsaMono + 100000000) quiet
  have late := (advanceTo_mono (s.fab.lsaMono + 100000000) quiet).1
  generalize advanceTo (s.fab.lsaMono + 100000000) s = v at step passed late
  obtain ⟨u, isU⟩ : ∃ u, u = dbChanged (floodLsa v) := ⟨_, rfl⟩
  obtain ⟨frame, tim, seq, mono, kept⟩ := refresh_leaves passed on whole rank isU
  exact ⟨u, isU ▸ step, frame, seq, mono.trans (congrArg Tim.mono tim.symm), tim ▸ late, kept⟩

/-! ## LSA (R306) -/

theorem exec_lsa (heard : Broadcast p hdr s) (l : Lsa) : exec (.lsa p hdr l) s = done (lsaTaken hdr l (s.heardCast p hdr)) :=
  congrArg done (arrive_of_broadcast heard _ _ _)

/-- What a manager notes of a device that its database has gained (R309, R330). -/
def gained (isNew : Bool) (s : State) : State := if isNew then { s with fab.claimDue := true, fab.roleDue := true } else s

/-- An LSA that is newer than what is kept is stored, and the addresses are judged; a manager notes a device that it gains. -/
theorem lsaTaken_newer {l : Lsa} (on : s.fabricOn = true) (other : l.serial ≠ s.otp.serial) (named : hdr.src ≠ 0xFFF)
    (newer : ∀ q, s.fab.lsaOf l.serial = some q → q.lsa.seq.toNat < l.seq.toNat) (eq : t = dbChanged (storeLsa { lsa := l, addr := hdr.src, mono := s.mono } s)) :
    lsaTaken hdr l s = if t.isManager then gained (s.fab.lsaOf l.serial).isNone t else t := by
  have fresh : (match s.fab.lsaOf l.serial with | some q => decide (q.lsa.seq.toNat < l.seq.toNat) | none => true) = true := by
    cases known : s.fab.lsaOf l.serial with
    | none => rfl
    | some q => exact decide_eq_true (newer q known)
  unfold lsaTaken
  rw [if_neg (by simp [on, other])]
  extract_lets old isNewer w _ x
  have isFresh : isNewer = true := fresh
  have same : w = t := eq.symm
  rw [if_neg (by simp [isFresh])]
  clear_value w
  subst same
  rw [if_neg named]
  rfl

theorem lsaTaken_older {l : Lsa} {q : LsaRec} (kept : s.fab.lsaOf l.serial = some q) (older : l.seq.toNat ≤ q.lsa.seq.toNat) :
    lsaTaken hdr l s = s := by
  unfold lsaTaken
  split
  · rfl
  · dsimp only
    rw [kept]
    exact if_pos (by simp [older])

theorem lsaOf_heardCast (hp : p < 4) (x : BitVec 64) : (s.heardCast p hdr).fab.lsaOf x = s.fab.lsaOf x := by
  obtain ⟨q, y, o, frame⟩ := heardCast_frame hp hdr s
  rw [frame]
  rfl

/-- A newer LSA as the device keeps it. -/
theorem stored_leaves {r : LsaRec} (other : r.lsa.serial ≠ s.otp.serial) : (dbChanged (storeLsa r s)).offFabric = s.offFabric ∧
    (dbChanged (storeLsa r s)).fab.lsaOf r.lsa.serial = some r := by
  have otp : (storeLsa r s).otp = s.otp := otp_of_offFabric (storeLsa_offFabric r s)
  refine ⟨by rw [dbChanged_offFabric, storeLsa_offFabric], ?_⟩
  rw [(dbChanged_floods _).lsaOf_other (otp ▸ other), (regraphed_storeLsa r s).lsaOf, lsaOf_store_same]

theorem gained_leaves (isNew : Bool) (s : State) : (gained isNew s).offFabric = s.offFabric ∧ (gained isNew s).fab.db = s.fab.db := by
  unfold gained
  split
  · exact ⟨rfl, rfl⟩
  · exact ⟨rfl, rfl⟩

theorem lsa_kept {l : Lsa} (heard : Broadcast p hdr s) (on : s.fabricOn = true) (other : l.serial ≠ s.otp.serial)
    (newer : ∀ q, s.fab.lsaOf l.serial = some q → q.lsa.seq.toNat < l.seq.toNat) : ∃ u, exec (.lsa p hdr l) s = .next (settle u) ∧
      u = { s with fab := u.fab, flt := u.flt, hst := u.hst, out := u.out } ∧
      u.fab.lsaOf l.serial = some { lsa := l, addr := hdr.src, mono := s.tim.mono } := by
  have step := exec_lsa heard l
  have off := heardCast_offFabric p hdr s
  have db (x : BitVec 64) : (s.heardCast p hdr).fab.lsaOf x = s.fab.lsaOf x := lsaOf_heardCast heard.1.2.1 x
  generalize s.heardCast p hdr = v at step off db
  have frame := frame_of_offFabric off
  have vOn : v.fabricOn = true := by rw [frame]; exact on
  have vOther : l.serial ≠ v.otp.serial := by rw [frame]; exact other
  have vMono : v.mono = s.tim.mono := by rw [frame]; rfl
  have named : hdr.src ≠ 0xFFF := heard.2.2.2.2.1
  obtain ⟨t, isT⟩ : ∃ t, t = dbChanged (storeLsa { lsa := l, addr := hdr.src, mono := v.mono } v) := ⟨_, rfl⟩
  rw [lsaTaken_newer vOn vOther named (fun q known => newer q ((db l.serial).symm.trans known)) isT] at step
  obtain ⟨tOff, tKept⟩ := stored_leaves (s := v) (r := { lsa := l, addr := hdr.src, mono := v.mono }) vOther
  rw [← isT, vMono] at tKept
  rw [← isT] at tOff
  obtain ⟨gOff, gDb⟩ := gained_leaves (v.fab.lsaOf l.serial).isNone t
  refine ⟨_, step, ?_, ?_⟩
  · refine frame_of_offFabric (Eq.trans ?_ (tOff.trans off))
    rw [offFabric_ite, gOff, ite_self]
  · split
    · rw [Fab.lsaOf, gDb]
      exact tKept
    · exact tKept

theorem lsa_old {l : Lsa} {q : LsaRec} (heard : Broadcast p hdr s) (kept : s.fab.lsaOf l.serial = some q) (older : l.seq.toNat ≤ q.lsa.seq.toNat) :
    exec (.lsa p hdr l) s = .next (s.heardCast p hdr) := by
  rw [exec_lsa heard l, lsaTaken_older ((lsaOf_heardCast heard.1.2.1 l.serial).trans kept) older,
    done_of_settled (heard.1.1.heardCast heard.1.2.1 hdr)]

/-! ## LSA_EXPIRY (R306) -/

/-- The database without what has not been refreshed at this instant. -/
def expired (s : State) : State := dbChanged (graphChanged { s with
  fab.db := s.fab.db.filter (fun r => r.lsa.serial = s.otp.serial || s.mono < r.mono + 350000000), fab.changeMono := s.mono, fab.settled := false })

theorem expired_offFabric (s : State) : (expired s).offFabric = s.offFabric := by
  rw [expired, dbChanged_offFabric, graphChanged_offFabric]
  rfl

theorem mem_db_expired {r : LsaRec} (mem : r ∈ (expired s).fab.db) : r.lsa.serial = s.otp.serial ∨ s.mono < r.mono + 350000000 := by
  obtain left | own := (dbChanged_floods _).mem mem
  · rw [(regraphed_graphChanged _).db] at left
    simpa using (List.mem_filter.mp left).2
  · exact .inl (own.trans (congrArg (fun o : Otp => o.serial) (otp_of_offFabric (graphChanged_offFabric _))))

theorem expired_leaves {k : Nat} (passed : TimePasses s v) (late : k ≤ v.tim.mono) : ∃ u, done (expired v) = .next (settle u) ∧
    u = { s with tim := u.tim, fab := u.fab, flt := u.flt, hst := u.hst, out := u.out } ∧ k ≤ u.tim.mono ∧
    ∀ r ∈ u.fab.db, r.lsa.serial = s.otp.serial ∨ u.tim.mono < r.mono + 350000000 := by
  obtain ⟨frame, tim⟩ := frame_of_passed passed (expired_offFabric v)
  have otp : v.otp = s.otp := by rw [passed]
  refine ⟨expired v, rfl, frame, tim ▸ late, fun r mem => ?_⟩
  rw [tim, ← otp]
  exact mem_db_expired mem

theorem exec_lsaExpiry {m : Nat} (oldest : oldestLsa s = some m) : exec .lsaExpiry s = done (expired (advanceTo (m + 350000000) s)) := by
  show execLsaExpiry s = _
  unfold execLsaExpiry
  rw [oldest]
  dsimp only
  generalize advanceTo (m + 350000000) s = v
  rfl

theorem lsaExpiry_discards {m : Nat} (quiet : QuietClock s) (oldest : oldestLsa s = some m) : ∃ u, exec .lsaExpiry s = .next (settle u) ∧
      u = { s with tim := u.tim, fab := u.fab, flt := u.flt, hst := u.hst, out := u.out } ∧ m + 350000000 ≤ u.tim.mono ∧
    ∀ r ∈ u.fab.db, r.lsa.serial = s.otp.serial ∨ u.tim.mono < r.mono + 350000000 := by
  rw [exec_lsaExpiry oldest]
  exact expired_leaves (timePasses_advanceTo _ quiet) (advanceTo_mono _ quiet).1

/-! ## Assignments (R304, R305) -/

theorem exec_addrAssign (heard : Broadcast p hdr s) (x : BitVec 64) (a : BitVec 12) :
    exec (.addrAssign p hdr x a) s = done (addrTaken x a (s.heardCast p hdr)) :=
  congrArg done (arrive_of_broadcast heard _ _ _)

/-- The database's assignments with one more (R304). -/
def assignNoted (x : BitVec 64) (a : BitVec 12) (s : State) : State :=
  { s with fab.assigned := (x, a) :: s.fab.assigned.filter (fun e => e.1 ≠ x) }

theorem addrTaken_other {x : BitVec 64} {a : BitVec 12} (other : x ≠ s.otp.serial) : addrTaken x a s = assignNoted x a s := by
  unfold addrTaken
  exact if_neg (by simp [other])

/-- The device that is named takes its address, and its conflict ends. -/
def addressTaken (a : BitVec 12) (s : State) : State :=
  let t := if s.fab.dupAddr then fabVec (levelOff 78 { s with fab.dupAddr := false, fab.dupGone := none }) else s
  if t.fab.addr = a then t else floodLsa { t with fab.addr := a }

theorem addrTaken_own {a : BitVec 12} (assigned : s.fabSec.addrMode = 2) :
    addrTaken s.otp.serial a s = addressTaken a (assignNoted s.otp.serial a s) := by
  have named : (decide (s.otp.serial = s.otp.serial) && decide (s.fabSec.addrMode = 2)) = true := by simp [assigned]
  unfold addrTaken
  exact if_pos named

theorem addressTaken_leaves (a : BitVec 12) (s : State) : (addressTaken a s).offFabric = s.offFabric ∧ (addressTaken a s).fab.addr = a ∧
    (addressTaken a s).fab.assigned = s.fab.assigned := by
  unfold addressTaken
  extract_lets _ t
  have tOff : t.offFabric = s.offFabric := by
    unfold t
    rw [offFabric_ite, fabVec_offFabric, levelOff_offFabric]
    exact ite_self _
  have tFab : t.fab.assigned = s.fab.assigned := by
    unfold t
    split
    · rw [fabVec_fab]
      rfl
    · rfl
  clear_value t
  split
  · next same => exact ⟨tOff, same, tFab⟩
  · refine ⟨(floodLsa_offFabric _).trans tOff, ?_, ?_⟩
    · exact reader_of_unflooded Fab.addr (fun _ => rfl) (floodLsa_unflooded _)
    · exact (reader_of_unflooded Fab.assigned (fun _ => rfl) (floodLsa_unflooded _)).trans tFab

theorem addrAssign_own {a : BitVec 12} (heard : Broadcast p hdr s) (assigned : s.fabSec.addrMode = 2) :
    ∃ u, exec (.addrAssign p hdr s.otp.serial a) s = .next (settle u) ∧
      u = { s with fab := u.fab, flt := u.flt, hst := u.hst, out := u.out } ∧ u.fab.addr = a ∧ (s.otp.serial, a) ∈ u.fab.assigned := by
  have step := exec_addrAssign heard s.otp.serial a
  have off := heardCast_offFabric p hdr s
  generalize s.heardCast p hdr = v at step off
  have frame := frame_of_offFabric off
  have otp : s.otp.serial = v.otp.serial := by rw [frame]
  have mode : v.fabSec.addrMode = 2 := by rw [frame]; exact assigned
  rw [otp, addrTaken_own mode] at step
  obtain ⟨uOff, addr, kept⟩ := addressTaken_leaves a (assignNoted v.otp.serial a v)
  rw [otp]
  refine ⟨_, step, frame_of_offFabric (uOff.trans off), addr, ?_⟩
  rw [kept]
  exact List.mem_cons_self ..

theorem addrAssign_other {x : BitVec 64} {a : BitVec 12} (heard : Broadcast p hdr s) (other : x ≠ s.otp.serial) :
    ∃ t, exec (.addrAssign p hdr x a) s = .next t ∧ t = { s with fab := t.fab, flt := t.flt, hst := t.hst, out := t.out } ∧
      t.fab.addr = s.fab.addr ∧ (x, a) ∈ t.fab.assigned := by
  have step := exec_addrAssign heard x a
  have settled : Settled (assignNoted x a (s.heardCast p hdr)) := heard.1.1.heardCast heard.1.2.1 hdr
  have off := heardCast_offFabric p hdr s
  have addr : (s.heardCast p hdr).fab.addr = s.fab.addr := heard_addr heard.1.2.1 hdr s
  generalize s.heardCast p hdr = v at step settled off addr
  have otp : x ≠ v.otp.serial := by rw [frame_of_offFabric off]; exact other
  rw [addrTaken_other otp, done_of_settled settled] at step
  exact ⟨_, step, frame_of_offFabric off, addr, List.mem_cons_self ..⟩

/-! ## The end of a conflict (R305) -/

/-- The device takes its address back. -/
def recovered (s : State) : State := floodLsa (fabVec (levelOff 78 { s with fab.dupAddr := false, fab.dupGone := none, fab.addr := wantAddr s }))

theorem recovered_leaves {k : Nat} (passed : TimePasses s v) (late : k ≤ v.tim.mono) : ∃ u, done (recovered v) = .next (settle u) ∧
    u = { s with tim := u.tim, fab := u.fab, flt := u.flt, hst := u.hst, out := u.out } ∧ u.fab.dupAddr = false ∧ u.fab.addr = wantAddr s ∧
    k ≤ u.tim.mono := by
  have off : (recovered v).offFabric = v.offFabric := by
    rw [recovered, floodLsa_offFabric, fabVec_offFabric, levelOff_offFabric]
    rfl
  obtain ⟨frame, tim⟩ := frame_of_passed passed off
  have want : wantAddr v = wantAddr s := by rw [passed]; rfl
  have fab : (fabVec (levelOff 78 { v with fab.dupAddr := false, fab.dupGone := none, fab.addr := wantAddr v })).fab =
      { v.fab with dupAddr := false, dupGone := none, addr := wantAddr v } := fabVec_fab _
  refine ⟨recovered v, rfl, frame, ?_, ?_, tim ▸ late⟩
  · exact (reader_of_unflooded Fab.dupAddr (fun _ => rfl) (floodLsa_unflooded _)).trans (congrArg Fab.dupAddr fab)
  · exact (reader_of_unflooded Fab.addr (fun _ => rfl) (floodLsa_unflooded _)).trans ((congrArg Fab.addr fab).trans want)

theorem dupAddrRecovery_takes {m : Nat} (quiet : QuietClock s) (gone : s.fab.dupGone = some m) (dup : s.fab.dupAddr = true)
    (on : s.fabricOn = true) : ∃ u, exec .dupAddrRecovery s = .next (settle u) ∧
      u = { s with tim := u.tim, fab := u.fab, flt := u.flt, hst := u.hst, out := u.out } ∧ u.fab.dupAddr = false ∧ u.fab.addr = wantAddr s ∧
      m + s.fabSec.settle * 1000000 ≤ u.tim.mono := by
  have step : exec .dupAddrRecovery s = done (recovered (advanceTo (m + s.fabSec.settle * 1000000) s)) := by
    show execDupAddrRecovery s = _
    unfold execDupAddrRecovery
    rw [gone]
    dsimp only
    rw [if_pos (by simp [dup, on])]
    generalize advanceTo (m + s.fabSec.settle * 1000000) s = v
    rfl
  rw [step]
  exact recovered_leaves (timePasses_advanceTo _ quiet) (advanceTo_mono _ quiet).1

/-! ## ROUTE_SEL (R308) -/

theorem routeSelect_known {src : Source} {a : BitVec 12} {e : RouteEntry} (hs : Settled s) (hears : s.hears src = true)
    (fromArmed : s.mode.fromArmed = true) (route : s.routeOf a = some e) : exec (.routeSelect src a) s = .next { s with
      fab.routeSel := a, fab.routePort := BitVec.ofNat 3 e.port, fab.routeHops := BitVec.ofNat 6 e.hops } := by
  have step : exec (.routeSelect src a) s = done (routeSelWrite a s) :=
    congrArg done (judged_of_fromArmed (row := 23) hears fromArmed rfl (by decide) _)
  rw [routeSelWrite, route] at step
  exact step.trans (done_of_settled hs)

theorem routeSelect_unknown {src : Source} {a : BitVec 12} (hs : Settled s) (hears : s.hears src = true)
    (fromArmed : s.mode.fromArmed = true) (route : s.routeOf a = none) : exec (.routeSelect src a) s = .next { s with
      fab.routeSel := a, fab.routePort := 7, fab.routeHops := 0 } := by
  have step : exec (.routeSelect src a) s = done (routeSelWrite a s) :=
    congrArg done (judged_of_fromArmed (row := 23) hears fromArmed rfl (by decide) _)
  rw [routeSelWrite, route] at step
  exact step.trans (done_of_settled hs)

end

end Sys2Proof.Machine

namespace Sys2Proof
open Machine

/-- Settles O56: `floodLsa_fab`, `regraphed_storeLsa` and `dbChanged_floods` say what the database's operations leave of it. -/
theorem fabricDatabase : Obligations.FabricDatabase :=
  ⟨fun _ _ quiet on whole rank => lsaRefresh_floods quiet on whole rank,
    fun _ _ _ _ heard on other newer => lsa_kept heard on other newer,
    fun _ _ _ _ _ heard _ _ kept older => lsa_old heard kept older,
    fun _ _ _ quiet oldest => lsaExpiry_discards quiet oldest,
    fun _ _ _ _ heard assigned => addrAssign_own heard assigned,
    fun _ _ _ _ _ heard other => addrAssign_other heard other,
    fun _ _ _ quiet gone dup on => dupAddrRecovery_takes quiet gone dup on,
    fun _ _ _ _ hs hears fromArmed route => routeSelect_known hs hears fromArmed route,
    fun _ _ _ hs hears fromArmed route => routeSelect_unknown hs hears fromArmed route⟩

end Sys2Proof

/-! # O32: two equal boundaries at the head of the table: a statement that fails -/
namespace Sys2Proof.Machine

section
variable {s t : State}

/-! ## The warden does not switch a device off -/

theorem occur_gctl (d : Nat) (line act : Bool) (detail : Word) (s : State) : (occur d line act detail s).1.gctl = s.gctl := by
  have counted : (s.counted d line).gctl = s.gctl := by
    obtain ⟨g, b, e, -⟩ := counted_frame d line s
    rw [e]
  rw [occur_eq]
  extract_lets m esc level _ _ t held
  have same : t.gctl = s.gctl := by
    unfold t
    split
    · exact counted
    · exact counted
  clear_value t
  obtain ⟨l, c, e, -⟩ := recordOcc_leaves d level line esc act detail held t
  rw [e]
  exact same

theorem takePattern_gctl (block : Bool) (x : DetPattern) (s : State) : (takePattern block x s).1.gctl = s.gctl := by
  unfold takePattern
  dsimp only
  split
  · split
    · rfl
    · rfl
  · split
    · split
      · rfl
      · rfl
    · exact occur_gctl ..

theorem fenceOf_gctl (d : Nat) (s : State) : (fenceOf d s).gctl = s.gctl := by
  unfold fenceOf
  split
  · rw [frame_of_offFence (fenceCore_leaves d 1 s).1]
  · dsimp only
    split_ifs
    · rfl
    · rfl
    · rfl
    · rfl
    · rfl
    · rfl

theorem gctl_of_offFabric (h : t.offFabric = s.offFabric) : t.gctl = s.gctl := (congrArg State.gctl h : t.offFabric.gctl = s.offFabric.gctl)

theorem followFabric_gctl (s : State) : (followFabric s).gctl = s.gctl := rfl

theorem sendBroadcast_gctl (m : FabMsg) (s : State) : (sendBroadcast m s).gctl = s.gctl := gctl_of_offFabric (sendBroadcast_offFabric m s)

theorem setRole_gctl (r : BitVec 3) (s : State) : (setRole r s).gctl = s.gctl := gctl_of_offFabric (setRole_offFabric r s)

theorem graphChanged_gctl (s : State) : (graphChanged s).gctl = s.gctl := gctl_of_offFabric (graphChanged_offFabric s)

theorem managerSafe_gctl (s : State) : (managerSafe s).gctl = s.gctl := by
  unfold managerSafe
  split
  · rfl
  · dsimp only
    split
    · rw [sendBroadcast_gctl]
    · split
      · rw [sendBroadcast_gctl]
      · rw [graphChanged_gctl, followFabric_gctl, setRole_gctl, sendBroadcast_gctl]
    · rfl

theorem enter_safe_mode (h : s.mode ≠ .safe) : (enter .safe s).mode = .safe := by
  obtain ⟨b, p, l, o, e⟩ := entering_frame .safe s
  obtain ⟨c, q⟩ := quietCores_frame (dropFrames (entering .safe s))
  obtain ⟨i, v⟩ := vitLeave_frame (managerSafe (quietCores (dropFrames (entering .safe s))))
  have step : enter .safe s = vitLeave (managerSafe (quietCores (dropFrames (entering .safe s)))) := by
    rw [enter, if_neg h]
    rfl
  have gctl : (managerSafe (quietCores (dropFrames (entering .safe s)))).gctl = s.modeSet .safe := by
    rw [managerSafe_gctl, q, e]
    rfl
  rw [step, v]
  exact congrArg Gctl.mode gctl

theorem enterOver_safe_mode (h : s.mode ≠ .safe) : (enterOver .safe s).mode = .safe := by
  have entered := enter_safe_mode (s := undoLower s) (fun same => h ((undone_undoLower s).mode.symm.trans same))
  have halted : (undoHalt (enter .safe (undoLower s))).mode = .safe := (undone_undoHalt _).mode.trans entered
  unfold enterOver
  dsimp only
  split
  · exact halted
  · exact halted

theorem goSafe_notOff (h : s.mode ≠ .off) : (goSafe s).mode ≠ .off := by
  unfold goSafe
  split
  · next m => rw [enterOver_safe_mode (by rw [m]; decide)]; decide
  · next m => rw [enterOver_safe_mode (by rw [m]; decide)]; decide
  · next m => rw [enterOver_safe_mode (by rw [m]; decide)]; decide
  · next m => rw [enterOver_safe_mode (by rw [m]; decide)]; decide
  · exact h

theorem degrade_notOff (h : s.mode ≠ .off) : (degrade s).mode ≠ .off := by
  by_cases run : s.mode = .run
  · rw [(entered_degrade run).mode]
    decide
  · rw [degrade, if_neg run]
    exact h

theorem resetTo_notOff (h : s.mode ≠ .off) : (resetTo rstWarden s).mode ≠ .off := by
  cases scan : s.pins.scan with
  | none =>
    have restarted := ((restarted_afterReset (broughtToReset s)).levelsCleared.rejudged.drivePair (some (false, true)))
    rw [resetTo_of_noScan scan, restarted.2.1]
    decide
  | some x =>
    rw [resetTo_warden_of_scan (by rw [scan]; rfl)]
    exact h

theorem gctl_foldl {α : Type} (f : State → α → State) (h : ∀ t x, (f t x).gctl = t.gctl) (l : List α) (s : State) : (l.foldl f s).gctl = s.gctl := by
  induction l generalizing s with
  | nil => rfl
  | cons x l ih => rw [List.foldl_cons, ih, h]

theorem vitTrigger_gctl (cause : Nat) (detail : BitVec 16) (level : Byte) (origin : BitVec 64) (s : State) :
    (vitTrigger cause detail level origin s).gctl = s.gctl :=
  (congrArg State.gctl (vitTrigger_offVit cause detail level origin s) : (vitTrigger cause detail level origin s).offVit.gctl = s.offVit.gctl)

theorem react_notOff (l : List (Nat × Nat)) (h : s.mode ≠ .off) : (react l s).mode ≠ .off := by
  unfold react
  split
  · exact h
  · extract_lets top det fenced counted raised _ judged reacted
    have fence : fenced.gctl = s.gctl := gctl_foldl _ (fun t (e : Nat × Nat) => fenceOf_gctl e.1 { t with flt.cnt := tinc t.flt.cnt 4 }) _ s
    have count : counted.gctl = s.gctl := (gctl_foldl (fun (t : State) (_ : Nat × Nat) => { t with flt.cnt := tinc t.flt.cnt 5 }) (fun _ _ => rfl) _ fenced).trans fence
    have raise : raised.gctl = s.gctl := by
      unfold raised
      split
      · rw [msix_frame]
        exact count
      · exact count
    have judge : judged.mode ≠ .off := by
      show raised.gctl.mode ≠ .off
      rw [raise]
      exact h
    clear_value judged
    have reaction : reacted.mode ≠ .off := by
      unfold reacted
      split_ifs
      · exact resetTo_notOff judge
      · exact goSafe_notOff judge
      · exact degrade_notOff judge
      · exact judge
    clear_value reacted
    split
    · have same := vitTrigger_gctl cauFault (BitVec.ofNat 16 det) (BitVec.ofNat 8 top) 0 reacted
      exact fun off => reaction ((congrArg Gctl.mode same).symm.trans off)
    · exact reaction

/-- The patterns of one sample are taken in the state in which they come. -/
theorem taken_gctl (block : Bool) (l : List DetPattern) (acc : State × List (Nat × Nat)) : (l.foldl (fun (acc : State × List (Nat × Nat)) x =>
    ((takePattern block x acc.1).1, acc.2 ++ (match (takePattern block x acc.1).2 with | some v => [(x.det, v)] | none => []))) acc).1.gctl = acc.1.gctl := by
  induction l generalizing acc with
  | nil => rfl
  | cons x l ih => rw [List.foldl_cons, ih, takePattern_gctl]

theorem takePatterns_notOff (block : Bool) (l : List DetPattern) (h : s.mode ≠ .off) : (takePatterns block l s).mode ≠ .off := by
  unfold takePatterns
  split
  · exact h
  · refine react_notOff _ ?_
    intro off
    refine h ?_
    rw [← off]
    exact congrArg Gctl.mode (taken_gctl block _ (s, [])).symm

theorem flushPorts_mode (s : State) : (flushPorts s).mode = s.mode := by
  unfold flushPorts
  split
  · rfl
  · obtain ⟨q, o, e⟩ := foldl_transmit_ports (s.fab.outq.filter (fun m => m.msg.time) ++ s.fab.outq.filter (fun m => !m.msg.time)) { s with fab.outq := [] }
    rw [e]
    rfl

theorem settleN_notOff (n : Nat) (h : s.mode ≠ .off) : (settleN n s).mode ≠ .off := by
  induction n generalizing s with
  | zero => exact h
  | succ n ih =>
    unfold settleN
    split
    · exact h
    · exact ih (takePatterns_notOff true _ (s := { s with flt.due := [] }) h)

theorem settle_mode_off (h : (settle s).mode = .off) : s.mode = .off := by
  by_contra on
  exact settleN_notOff 4 on ((flushPorts_mode _).symm.trans h)

/-- In OFF the end of a command leaves the turnstile. -/
theorem ldg_settle_of_off (off : s.mode = .off) (none_ : s.fab.outq = []) : (settle s).ldg = s.ldg := by
  obtain ⟨f, e⟩ := settleN_of_off 4 off
  rw [settle, e, flushPorts, if_pos (by simp [none_])]

end

/-! ## The table -/

/-- A device in OFF whose turnstile is in FULL, whose table begins with two equal boundaries, and whose time stands at them. -/
def twinBoundaries : State := { State.reset with
  gctl := { mode := .off }
  tim := { locked := true, dev := 5 }
  ldg := { lstate := 3, bounds := [5, 5, 10] } }

/-- The period between the two is skipped, and counted as closed. -/
theorem closeCnt_twinBoundaries : (settle (ldgJudge 5 twinBoundaries)).ldg.closeCnt = 1 ∧ (settle (ldgJudge 5 twinBoundaries)).mode = .off := by
  decide +kernel

end Sys2Proof.Machine

namespace Sys2Proof
open Machine

/-- Refutes O32 in its clause on the first boundary: the table of `twinBoundaries` begins with two equal boundaries, and device time stands at
them, so the period between them is skipped and counted as closed. The clause lacks the premise that the boundaries ascend. -/
theorem not_turnstile : ¬ Obligations.Turnstile := by
  rintro ⟨-, first, -⟩
  obtain ⟨u, made, frame, -, -, cnt⟩ := first 1 5 twinBoundaries ⟨rfl, rfl⟩ (by decide) (by decide +kernel) rfl rfl rfl rfl (by decide) (by decide +kernel)
  have step : exec .periodBoundary twinBoundaries = done (ldgJudge 5 twinBoundaries) := rfl
  have same : settle (ldgJudge 5 twinBoundaries) = settle u := Host.Outcome.next.inj (step.symm.trans made)
  obtain ⟨closed, off⟩ := closeCnt_twinBoundaries
  rw [same] at closed off
  have waits : u.fab.outq = [] := by rw [frame]; rfl
  rw [ldg_settle_of_off (settle_mode_off off) waits, cnt] at closed
  exact absurd closed (by decide)

end Sys2Proof
